-- ==== Sys2Proof/Word.lean ====
section
/-! DEFINITION. The words of the KD4896 model: the numbering of R1 to R3 (halves, groups, lanes, host lanes, contexts,
channels, sensors) as `Fin` types, and the shapes of what a command carries: frames, codewords, descriptors, messages
and what the analog world shows to a step. -/

namespace Sys2Proof

abbrev W32 := BitVec 32
abbrev W20 := BitVec 20

/-- R1: half A is 0, half B is 1. -/
abbrev Half := Fin 2
/-- R1: G0 to G5. -/
abbrev Group := Fin 6
/-- R1: L0 to L47, by global number; also the number of a port, which is that of its first lane (R211). -/
abbrev Lane := Fin 48
/-- R1: H0 to H95. -/
abbrev HLane := Fin 96
/-- R1: a loop context, 32 × group + context number. -/
abbrev Ctx := Fin 192
/-- R2: CD0 to CD159. -/
abbrev Chan := Fin 160
/-- R326: a monitor entry, 256 × half + entry number. -/
abbrev EntryN := Fin 512
/-- R326: a monitor sequence, 4 × half + sequence number. -/
abbrev SeqN := Fin 8
/-- R323: a configurable monitor input, 104 × half + input number. -/
abbrev InputN := Fin 208
/-- R335: a decimation chain, 32 × half + chain number. -/
abbrev ChainN := Fin 64
/-- R354: an on-die sensor, 16 × half + s. -/
abbrev DieSensor := Fin 32
/-- R378: an engine sensor, 4 × group + j. -/
abbrev EngSensor := Fin 24
/-- R1: K0 to K127. -/
abbrev Knd := Fin 128
/-- R549: a counter block, 4 × half + k. -/
abbrev PerfBlk := Fin 8

def halfA : Half := 0
def halfB : Half := 1

/-- R1: the group of a lane. -/
def Lane.group (l : Lane) : Group := ⟨l.val / 8, by omega⟩
/-- R1: A holds G0 to G2, B holds G3 to G5. -/
def Group.half (g : Group) : Half := ⟨g.val / 3, by omega⟩
def Lane.half (l : Lane) : Half := ⟨l.val / 24, by omega⟩
/-- R1: lane index `i` of group `g`. -/
def Group.lane (g : Group) (i : Fin 8) : Lane := ⟨8 * g.val + i.val, by omega⟩
def HLane.group (x : HLane) : Group := ⟨x.val / 16, by omega⟩
def Ctx.group (x : Ctx) : Group := ⟨x.val / 32, by omega⟩
def Group.lanes (g : Group) : List Lane := (List.finRange 8).map g.lane
def Half.groups (h : Half) : List Group := (List.finRange 3).map fun k => ⟨3 * h.val + k.val, by omega⟩
def Half.lanes (h : Half) : List Lane := (List.finRange 24).map fun k => ⟨24 * h.val + k.val, by omega⟩
def Group.ctx (g : Group) (c : Fin 32) : Ctx := ⟨32 * g.val + c.val, by omega⟩
def Group.ctxs (g : Group) : List Ctx := (List.finRange 32).map g.ctx
def Group.hlanes (g : Group) : List HLane := (List.finRange 16).map fun k => ⟨16 * g.val + k.val, by omega⟩
/-- R2: the half of a channel: CD0 to CD79 on half A, the rest on half B. -/
def Chan.half (c : Chan) : Half := ⟨c.val / 80, by omega⟩
/-- R323: local control DAC index `m`. -/
def Chan.index (c : Chan) : Nat := c.val % 80
/-- R2 and R353: the budget set of a channel: local group 0 to 2, or 3 for the half-level channels. -/
def Chan.set (c : Chan) : Nat := c.index / 24
/-- R279: the group's first control DAC channel. -/
def Group.firstChan (g : Group) : Nat := 24 * g.val + 8 * (g.val / 3)
def Half.chans (h : Half) : List Chan := (List.finRange 80).map fun k => ⟨80 * h.val + k.val, by omega⟩
/-- R2: a channel owned by a group. -/
def Group.owns (g : Group) (c : Chan) : Bool := g.firstChan ≤ c.val && c.val < g.firstChan + 24
/-- R1 and R408: the half that holds a Kneader. -/
def Knd.half (k : Knd) : Half :=
  if h : k.val < 120 then ⟨k.val / 60, by omega⟩ else ⟨(k.val - 120) / 4, by omega⟩
/-- R408: the group of a group Kneader. -/
def Knd.group? (k : Knd) : Option Group := if h : k.val < 120 then some ⟨k.val / 20, by omega⟩ else none
/-- R408: the role number j of a group Kneader. -/
def Knd.role (k : Knd) : Nat := k.val % 20
/-- R408: the adaptation Kneader of a lane. -/
def Lane.adaptKnd (l : Lane) : Knd := ⟨20 * (l.val / 8) + l.val % 8, by omega⟩
/-- R408: the acquisition Kneader of a lane. -/
def Lane.acqKnd (l : Lane) : Knd := ⟨20 * (l.val / 8) + 8 + l.val % 8 / 2, by omega⟩
/-- R326, R323 and R335: the halves of sequences, entries, inputs and chains. -/
def SeqN.half (q : SeqN) : Half := ⟨q.val / 4, by omega⟩
def EntryN.half (n : EntryN) : Half := ⟨n.val / 256, by omega⟩
def InputN.half (i : InputN) : Half := ⟨i.val / 104, by omega⟩
def ChainN.half (c : ChainN) : Half := ⟨c.val / 32, by omega⟩

/-- R326: the sequence that shares a sequence's converter. -/
def SeqN.mate (q : SeqN) : SeqN := ⟨q.val / 2 * 2 + (1 - q.val % 2), by omega⟩
/-- R354 and R378: the half of an on-die sensor, and the group of an engine sensor. -/
def DieSensor.half (d : DieSensor) : Half := ⟨d.val / 16, by omega⟩
def EngSensor.group (e : EngSensor) : Group := ⟨e.val / 4, by omega⟩
def otherHalf (h : Half) : Half := ⟨1 - h.val, by omega⟩

/-- R441: the three BARs of each function. -/
inductive Bar | bar0 | bar2 | bar4
  deriving DecidableEq, Repr

/-- R441: a host read: its BAR, offset and size in bytes. -/
structure HostRead where
  bar : Bar
  off : BitVec 20
  size : Nat
  deriving DecidableEq, Repr

/-- R45: a heartbeat: the sender's bridge state (0 JOINED, 1 ISLAND, 2 REJOINING), whether its check is valid, and, on
half B, the offset of half B's time from half A's as the bridge measures it, in 1/16 ns (R385, R405). -/
structure Heartbeat where
  good : Bool
  state : Fin 3
  offset16 : Int
  deriving DecidableEq, Repr

/-- R17: a cell that can fail, in the unit that holds it. -/
inductive CellUnit
  | segment (l : Lane) (k : Fin 130)
  | subAdc (l : Lane) (n : Fin 65)
  | slice (l : Lane)
  | groupKneader (g : Group) (j : Fin 20)
  | systemKneader (h : Half) (j : Fin 4)
  | loopEngine (g : Group)
  | sramRow (h : Half) (grp : Fin 4) (cls : Fin 7) (array : BitVec 10) (row : BitVec 17)
  | portLogic (p : Lane)
  | monitorIo (g : Group)
  | fabric (h : Half)
  deriving DecidableEq, Repr

/-- R369: one run of a calibration: an offset or a segment current in 1/1,000 LSB (of a monitor ADC in 1/1,000 code), a gain in
1/1,000 %, a timing skew in fs, a self-test signature. -/
structure CalRun where
  offset : Int
  gain : Int
  skew : Int
  sig : Nat
  deriving DecidableEq, Repr

/-- R369 and R371: what a repeated calibration measured: its two runs, with the offset (the median of the lane's sub-ADCs, the mean
current of the in-service segments) and the gain that R62 and R73 hold them against. -/
structure CalResult where
  run1 : CalRun
  run2 : CalRun
  refOffset : Int
  refGain : Int
  deriving DecidableEq, Repr

/-- R61 and R369: the lane whose segment swap falls due; a calibration of its calibration spare since the last one disagreed, if one was made. -/
structure SegStart where
  lane : Lane
  cal : Option CalResult
  deriving DecidableEq, Repr

/-- R72: the comparison at the end of a parallel run: valid pairs, mean and rms difference in 1/1,000 LSB, and for R73 the
spare-time calibrations of the two sub-ADCs. -/
structure HandoverCmp where
  pairs : Nat
  meanMilli : Int
  rmsMilli : Nat
  incoming : CalResult
  outgoing : CalResult
  deriving DecidableEq, Repr

/-- R74: an in-service sub-ADC against the ensemble: how far its offset lies off in 1/1,000 LSB and its gain in 1/1,000 %. -/
structure SubAdcDev where
  sub : Fin 65
  offset : Int
  gain : Int
  deriving DecidableEq, Repr

/-- R74 and R84: what a millisecond shows: the sub-ADCs in service against the ensemble, the clips and the samples of the lane. -/
structure EnsembleMeasure where
  devs : List SubAdcDev
  clips : Nat
  samples : Nat
  deriving DecidableEq, Repr

/-- R98: a symbol as the equaliser receives it: the corrected samples in the FFE's window, x[n + MAIN − k] at place k, those around the main
cursor, x[n + 3 − d] at place d; the number n of the symbol, which counts from the first data symbol that the lane received, and in a training block
from the start of its training section (R261); the level (0 to 3) that the slicer decided for symbol n − 1. -/
structure EqSample where
  x : List Int
  v : List Int
  n : Nat
  qPrev : Fin 4
  deriving DecidableEq, Repr

/-- R96, R98, R106: what an adaptation block brings: its correlator samples in order, and symbols that follow one another for the timing detector. -/
structure BlockMeasures where
  samples : List EqSample
  timing : List EqSample
  deriving DecidableEq, Repr

/-- R174 and R182: a received DMT symbol: the ADC codes from the twelfth before its first sample, which is the first of its cyclic prefix, to the last
that its transform window needs, and the sub-ADC phase of the first code. -/
structure DmtSymbol where
  codes : List Nat
  phase : Fin 64
  deriving DecidableEq, Repr

/-- R134, R135, R155, R218, R220: what ends at a codeword boundary: from the host, at the first lane of a port, the bits that each host lane of the
port, in the order of its lanes, has received in a round; from the line in a PAM mode the ADC codes of a lane's symbols, code 47 being that of
symbol 0, with the sub-ADC phase of the first code; from the line in LM400D the DMT symbols that hold its frames. The codes and symbols run on
through the traceback of R146. -/
inductive RxCodeword
  | host (lanes : List (List Bool))
  | line (codes : List Nat) (phase : Fin 64)
  | dmt (syms : List DmtSymbol)
  deriving DecidableEq, Repr

/-- R250: an acquisition frame from header to CRC-32. -/
structure AcqFrame where
  type : BitVec 8
  ver : BitVec 4
  arg : BitVec 4
  seq : BitVec 8
  srcLane : BitVec 6
  rsvd : BitVec 6
  payload : List (BitVec 8)
  crc : BitVec 32
  deriving DecidableEq, Repr

/-- R261: a frame in a slot of C2: the frame, and how many bits its start lies behind the expected slot start. -/
structure SlotFrame where
  fr : AcqFrame
  slot : Int
  deriving DecidableEq, Repr

/-- R257 and R258: bit values around a bit position that reach the correlator: whether on C3, the 260 values, and the power of the pilots over the
preamble. -/
structure PreambleRx where
  c3 : Bool
  xs : List Int
  pilot : Nat
  deriving DecidableEq, Repr

/-- R228 and R234: a training frame of the far end: its request on transmit tap 0 to 3 (c−3, c−2, c−1, c+1) by a number of 1/64 steps, and
whether it reports its receiver ready. -/
structure HostFrame where
  tap : Fin 4
  delta : Int
  ready : Bool
  deriving DecidableEq, Repr

/-- R230: a host lane that holds bit lock: its SNR over 100 µs in 0.1 dB. -/
structure HostLock where
  lane : HLane
  snr : BitVec 10
  deriving DecidableEq, Repr

/-- R223 and R231: what the markers on a host lane show: the rate code of their format, the PCS lanes found, the host skew of the port in 0.125 ns. -/
structure HostMarkers where
  rate : Nat
  pcs : List Nat
  skew : BitVec 8
  deriving DecidableEq, Repr

/-- R230 and R232: what a host lane loses: its signal, bit lock, or symbol lock at an SNR in 0.1 dB. -/
inductive HostLoss
  | signal
  | bitLock
  | symbolLock (snr : Nat)
  deriving DecidableEq, Repr

/-- R356 to R358: a reading of an engine sensor: open, short, the voltages in nV of a remote diode at 10, 40 and 160 µA, or the resistance of a
thermistor in 10 Ω. -/
inductive EngReading
  | open
  | short
  | diode (v10 v40 v160 : Nat)
  | thermistor (rth : Nat)
  deriving DecidableEq, Repr

/-- R389 to R396: an Ethernet frame at the PTP detector, from the destination address to the FCS. `offset` is the time from the codeword boundary of
R391 to the time-stamp point without the lane's latency, in 2^-16 ns; `uncorrectable`: its first octet lies in an uncorrectable codeword. -/
structure PtpMsg where
  octets : List (BitVec 8)
  uncorrectable : Bool
  offset : Nat
  deriving DecidableEq, Repr

/-- R411: why a Kneader traps. -/
inductive TrapCause | fetchUe | dataUe | watchdog | illegal
  deriving DecidableEq, Repr

/-- R17: the unit that holds a spare Kneader. -/
inductive SpareUnit
  | group (g : Group)
  | half (h : Half)
  deriving DecidableEq, Repr

/-- R426: a memory class in a memory group of a half. -/
structure MemUnit where
  half : Half
  cls : Fin 7
  grp : Fin 4
  deriving DecidableEq, Repr

/-- R428 and R430: what the scrubber finds in the word it reads; `lapEnd` when the word ends a lap of that many ms. -/
inductive ScrubFind | clean | corrected | uncorrectable
  deriving DecidableEq, Repr

structure ScrubResult where
  find : ScrubFind
  array : BitVec 10
  word : BitVec 17
  lapEnd : Option Nat
  deriving DecidableEq, Repr

/-- R430: who reads an uncorrectable or poisoned word; R427: a narrow write, which reads the word that it changes a part of. -/
inductive UeReader
  | kneaderFetch (k : Knd)
  | kneaderData (k : Knd)
  | slice (l : Lane)
  | sliceInactive (l : Lane)
  | incomingSlice (g : Group)
  | loopEngine (x : Ctx)
  | pantry (area : Fin 9)
  | imageStore
  | hostWindow (off : BitVec 20)
  | dma (q : Fin 8)
  | narrowWrite
  deriving DecidableEq, Repr

/-- R431: the lane whose slice memories are rewritten, and whether its checkpoint reads clean. -/
structure CkptRead where
  lane : Lane
  clean : Bool
  deriving DecidableEq, Repr

/-- R454 and R464: descriptor data, or a read that completes with UR, CA, poison or timeout. -/
inductive DescData
  | ok (words : List W32)
  | failed
  deriving DecidableEq, Repr

/-- R452: a command descriptor without its opcode word, as taken from entry `index` of command ring `ring`. -/
structure Req where
  ring : Fin 4
  index : BitVec 12
  rsvd : Bool
  irqNow : Bool
  discard : Bool
  sched : Bool
  tag : W32
  w : BitVec 40
  scope : BitVec 4
  id : BitVec 6
  mask : BitVec 48
  params : Vector W32 10
  deriving DecidableEq, Repr

/-- R509: what the cryptographic checks of an image find: its image hash, and whether SHA-384 of PUBKEY equals the OTP key hash, SIG verifies and
the body matches BODY_HASH. -/
structure ImageChecks where
  hash : BitVec 384
  keyOk : Bool
  sigOk : Bool
  bodyOk : Bool
  deriving DecidableEq, Repr

/-- R509: an image: its bytes, header first, and what the cryptographic checks find. -/
structure ImageInfo where
  bytes : List (BitVec 8)
  checks : ImageChecks
  deriving DecidableEq, Repr

/-- R505: how the host read and the flash write of a Starter load ended. -/
structure LoadEnd where
  dmaOk : Bool
  flashOk : Bool
  deriving DecidableEq, Repr

/-- R418 and R420: a unit that logic self-test covers: the slice in service of a lane, a Kneader in service, a loop engine, the spare (or retired)
slice of a group, the spare (or retired) Kneader of a group or half. -/
inductive TestUnit
  | slice (l : Lane)
  | kneader (k : Knd)
  | loopEngine (g : Group)
  | spareSlice (g : Group)
  | spareKneader (u : SpareUnit)
  deriving DecidableEq, Repr

/-- R425: the test that ends: an on-demand one of a kind of R438, or the background test of the spare slice of a local group, with what its
two runs measured (R369). -/
inductive EndedTest
  | onDemand (kind : Fin 4)
  | spareSlice (k : Fin 3) (cal : CalResult)
  deriving DecidableEq, Repr

/-- R419: what an SRAM array of `words` words answered to the march test: the words that its reads returned, in the order of the reads, for each
of the two passes. -/
structure MarchRead where
  mem : MemUnit
  array : BitVec 10
  words : Nat
  pass0 : List Nat
  pass1 : List Nat
  deriving DecidableEq, Repr

/-- R369 and R497: a measurement of the foreground calibration: the target as R371 numbers them, the unit (a lane, a group, a half), its cell. -/
structure StartCal where
  kind : Fin 4
  unit : Fin 48
  cell : Nat
  cal : CalResult
  deriving DecidableEq, Repr

/-- R497 to R503: what a start step found. `ok = false` is a step that cannot complete, with the error code of R524; step 2 brings the self-test
signatures that it compared, step 3 the march tests, step 4 the calibrations, step 5 the checks of the images of slots A and B. -/
structure StartResult where
  ok : Bool
  err : Fin 11
  signatures : List (TestUnit × W32)
  march : List MarchRead
  cals : List StartCal
  slotA : ImageChecks
  slotB : ImageChecks
  storeHash : BitVec 384
  deriving DecidableEq, Repr

/-- R514: what the apply of a delta meets beside the delta itself: the flash, the signature of the delta, the checks of its result. -/
structure ApplyChecks where
  flashOk : Bool
  sigOk : Bool
  result : ImageChecks
  deriving DecidableEq, Repr

/-- R518: whether the settings records that the boot record names are valid, as the firmware finds them at release. -/
structure ReleaseInfo where
  activeOk : Bool
  trialOk : Bool
  deriving DecidableEq, Repr

/-- R520: the causes of a fatal error. -/
inductive FatalCause | sysKnd | image | assert
  deriving DecidableEq, Repr

/-- R40: a PLL that loses lock in service. -/
inductive PllUnit
  | group (g : Group)
  | half (h : Half)
  deriving DecidableEq, Repr

end Sys2Proof
end

