-- ==== Sys2Proof/Syntax.lean ====
section
/-! DEFINITION. The commands of KD4896: one constructor for each row of spec/opcode_table.json, in the table's order,
each with the operands that name its unit and carry what the step sees from outside. -/

namespace Sys2Proof

/-- A step of the part (spec/opcode_table.json). Each constructor is one whole, indivisible step. -/
inductive Instr
  /-- R9. A host write to a BAR0 register that has no row of its own sets RW or shadow fields, clears W1C flags, or is ignored under RWL locks, reserved offsets, bad sizes or range checks. -/
  | registerWrite (h : Half) (bar : Bar) (off : BitVec 20) (size : Nat) (v : W32)
  /-- R12. A read of the low word of a 64-bit quantity latches the high word for the next read of the high word. -/
  | lowWordReadLatch (h : Half) (rd : HostRead)
  /-- R45. Every 10 µs a half sends a heartbeat over the bridge carrying its bridge state and, on half A, its time. -/
  | heartbeatSend (h : Half)
  /-- R45. A half receives a heartbeat, resets its missed count, steers half B's time, counts good heartbeats toward rejoin, and enters ISLAND at once if the heartbeat carries ISLAND while JOINED. -/
  | heartbeatReceive (h : Half) (beat : Heartbeat)
  /-- R45. A 10 µs window ends without a heartbeat; MISSED increments and the eighth consecutive miss puts the half in ISLAND. -/
  | heartbeatWindowExpiry (h : Half)
  /-- R499. A half that receives no heartbeat within 1 s of its own release enters ISLAND. -/
  | releaseHeartbeatTimeout (h : Half)
  /-- R48. With an offset above 1 µs, half B steps its time at the first whole second of half A's time at least 100 ms after rejoin step 1, and half A posts the REJOIN event. -/
  | rejoinTimeStep
  /-- R20. A cell fails; KD4896 substitutes a spare of its kind and decrements the count, or fences the smallest unit containing it when none remains. -/
  | cellFail (u : CellUnit)
  /-- R54. Loss of REFCLK is detected within 2 µs on the always-on oscillator and each half is fenced with cause REFCLK. -/
  | refclkLoss (h : Half)
  /-- R28. At the first boundary or tick at or after the commit instant plus 100 ns, the affected lane takes the shadow changes, possibly returning to acquisition, and the commit completes when the last lane is applied. -/
  | commitApply (l : Lane)
  /-- R36. At snapshot instant T all lanes in the set latch counters and gauges within ±4 ns and their records are queued for the telemetry ring. -/
  | snapshotLatch (h : Half)
  /-- R58. Every 100 µs during a swing ramp VSW moves one SWING code toward the target, and the ramp's commit completes when it ends. -/
  | swingRampStep (l : Lane)
  /-- R61. Every SEG_PERIOD ms, when permitted, KD4896 starts trimming the calibration spare against the next segment in rotation. -/
  | segmentSwapStart (t : SegStart)
  /-- R60. The incoming segment's current matches within ±0.02 LSB and the drive moves to it at a datapath cycle boundary, the outgoing segment becoming the spare. -/
  | segmentSwapComplete (l : Lane) (cal : CalResult)
  /-- R60. The match is not reached within 20 µs; the swap is abandoned and the incoming segment is treated as a candidate failure. -/
  | segmentSwapTimeout (l : Lane) (bothRuns : Bool)
  /-- R67. The AGC decision condition has held unbroken for the hold time and a PGA step is scheduled. -/
  | gainHoldExpiry (l : Lane) (errQ : Int)
  /-- R66. A scheduled gain step takes effect at its boundary, changing the PGA step and digital compensation on the same sample and restarting the hold. -/
  | gainStepApply (l : Lane)
  /-- R69. More than 10^−3 clips in a 10 µs window in TRACK schedule a one-step gain reduction at the next boundary and set OVERLOAD_STEP. -/
  | overloadStep (l : Lane) (clips : Nat) (samples : Nat)
  /-- R70. After 100 µs at STEP_MAX with the level more than LOS_THR below TARGET, SIG_DET clears and SIG_CHG sets. -/
  | sigDetClear (l : Lane) (levelQ : Int)
  /-- R70. After 100 µs with the level within LOS_THR − 3 dB of TARGET, SIG_DET sets, SIG_CHG sets and APR ends if running. -/
  | sigDetSet (l : Lane) (levelQ : Int)
  /-- R71. Every SADC_PERIOD ms, when permitted, the spare sub-ADC takes the phase and trims of its neighbour and a parallel run begins. -/
  | subadcRotationStart (l : Lane) (cal : CalResult)
  /-- R71. A rotation that could not start is retried 10 µs after the blocking condition ends, without shifting the schedule. -/
  | subadcRotationRetry (l : Lane) (cal : Option CalResult)
  /-- R72. At the end of the 4,096-conversion parallel run the outputs are compared and the merger switches on agreement or keeps the outgoing sub-ADC and sets HO_DISAGREE. -/
  | handoverEnd (l : Lane) (cmp : HandoverCmp)
  /-- R74. Every 1 ms each in-service sub-ADC is compared against the ensemble, and one outside limits twice in a row is replaced by the spare. -/
  | subadcEnsembleCheck (l : Lane) (m : EnsembleMeasure)
  /-- R98. An adaptation block ends; quality measures and PM_MARGIN are computed, checkpoint and divergence tests run, RX_READY is evaluated and the Kneader update starts. -/
  | adaptBlockEnd (l : Lane) (m : BlockMeasures)
  /-- R99. The adaptation Kneader finishes computing clamped coefficient updates, writes the shadow bank and requests a swap. -/
  | kneaderUpdate (l : Lane) (k : Knd)
  /-- R100. At the next codeword or superframe boundary the active and shadow coefficient banks are exchanged atomically and a new block starts. -/
  | coeffBankSwap (l : Lane)
  /-- R103. Every CKPT_PERIOD the active bank is kept as a checkpoint if the block MSE is within 1.25 times the checkpoint MSE. -/
  | checkpointTimer (l : Lane)
  /-- R103. After DIV_BLOCKS diverging blocks the checkpoint is swapped in at the next boundary, REVERT set, REVERT_CNT incremented and a NOTICE raised; the fourth within 100 ms freezes adaptation. -/
  | checkpointRevert (l : Lane)
  /-- R107. The filtered detector output stays within ±8/256 UI for 10 µs and LOCK sets. -/
  | timingLockSet (l : Lane)
  /-- R107. The detector output stays outside ±32/256 UI for 1 µs or the integrator reaches ±300 ppm; LOCK clears and a lane in DATA returns to acquisition. -/
  | timingLockLoss (l : Lane)
  /-- R112. An effort change from throttling is applied by a swap at the first codeword boundary after its tick, zeroing or restoring taps and changing the decoder. -/
  | effortChangeApply (l : Lane)
  /-- R114. Every PERIOD ms a slice rotation copies the next lane's slice state into the spare and starts warm-up. -/
  | sliceRotationStart (g : Group)
  /-- R115. After 4,096 identical comparison boundaries the crossbar moves the lane to the incoming slice; SWAP_CNT increments and SLICE_SWAP sets. -/
  | sliceRotationComplete (g : Group) (rxSame : Bool) (txSame : Bool)
  /-- R118. An in-service slice fails; the lane is fenced SLICE and, if a spare exists, mapped to it and released into acquisition. -/
  | sliceFail (l : Lane)
  /-- R120. A write of 1 to LN_EQ_LATCH.CAPTURE requests capture of the active bank into the APPLIED fields. -/
  | captureWrite (l : Lane) (v : W32)
  /-- R120. At the next codeword boundary, or at once outside DATA, the whole active bank is captured into APPLIED. -/
  | eqBankCapture (l : Lane)
  /-- R155. A codeword ends on a side; it is decoded or monitored, corrected, delivered or marked, and all its counters are added together. -/
  | codewordReceive (l : Lane) (cw : RxCodeword)
  /-- R158. Sixty-four consecutive failing line codewords drop CW_LOCK, raise CW_LOCK_LOST and return the lane to acquisition. -/
  | cwLockLoss (l : Lane)
  /-- R160. A write of 1 to LN_FEC_CLR.CLEAR requests that every counter of the lane be zeroed at the next codeword boundary. -/
  | fecClearWrite (l : Lane) (v : W32)
  /-- R160. At the next codeword boundary, after counting codewords ending there, every counter of the lane is zeroed. -/
  | fecCounterClear (l : Lane)
  /-- R163. Within 1 ms of entry to DATA the fixed latencies are measured, reported in LN_FEC_LAT and LAT_VALID sets. -/
  | latencyMeasured (l : Lane) (txLat : BitVec 16) (rxLat : BitVec 16)
  /-- R183. A per-tone equaliser block ends and the Kneader computes updates for every tone, writes the shadow bank and requests a swap at the next superframe boundary. -/
  | feqBlockEnd (l : Lane) (codes : List (List Nat)) (phase : Fin 64) (first : W32)
  /-- R187. A per-tone SNR window ends; SNRs are updated and an automatic bit-swap trigger fires after two windows below margin. -/
  | snrWindowEnd (l : Lane) (syms : List DmtSymbol)
  /-- R192. The Kneader finishes computing a loading; if rejected LOAD_FAIL is set, otherwise the RE writes its inactive RX half, sets S and sends SWAP_REQ. -/
  | loadingComputed (l : Lane)
  /-- R195. The TE takes a SWAP_REQ frame whole, checks the result and timing, writes its inactive copy and sends an acknowledgement, or refuses INVALID, LATE or BUSY. -/
  | swapReqReceive (l : Lane) (fr : AcqFrame) (ago : Nat)
  /-- R195. The RE takes a SWAP_RESP frame whole, recording acknowledgement or failing the swap on refusal. -/
  | swapRespReceive (l : Lane) (fr : AcqFrame)
  /-- R195. The TE inverts pilots in symbols S−8 to S−1 and toggles TX_ACT at symbol S, setting SWAP_TX and recording LAST_TX. -/
  | bitswapTxSwitch (l : Lane)
  /-- R196. At symbol S the RE counts inverted pilot symbols and switches RX_ACT, rescales the equaliser and restarts blocks, or fails the swap. -/
  | bitswapRxDecide (l : Lane) (syms : List DmtSymbol)
  /-- R196. A pilot inversion on five or more symbols with no swap pending sets FLAG_UNEXP and changes nothing. -/
  | pilotFlagUnexpected (l : Lane) (syms : List DmtSymbol)
  /-- R198. One millisecond after a failed swap the RE retries with a fresh loading; after three consecutive failures it raises SWAP_SUSPEND and suspends triggers for 1 s. -/
  | bitswapRetry (l : Lane)
  /-- R198. The 1 s suspension of automatic triggers in a direction ends. -/
  | swapSuspendEnd (l : Lane)
  /-- R190. A write of GRP_DMT_TDATA writes the selected loading-table word, ignoring in-use halves with ACT_WRITE, and auto-increments TONE. -/
  | tableWindowWrite (g : Group) (v : W32)
  /-- R209. A read of GRP_DMT_TDATA returns the selected word and auto-increments TONE when AUTO_INC is 1. -/
  | tableWindowRead (g : Group)
  /-- R227. Every 1 ms in DETECT a host lane sends its common-mode probe step. -/
  | hostDetectProbe (hl : HLane)
  /-- R227. Far termination and signal have been seen for 1 ms without a break, and the host lane moves to TRAIN or LOCK. -/
  | hostDetectComplete (hl : HLane)
  /-- R228. A host lane in TRAIN takes a training frame, applies coefficient requests within limits and reports status. -/
  | hostTrainingFrameReceive (hl : HLane) (fr : HostFrame)
  /-- R228. Both receivers report ready; training hands over to data and the host lane enters LOCK. -/
  | hostTrainComplete (hl : HLane)
  /-- R227. TRAIN_TO elapses; training restarts, and after the third timeout in a row the lane falls back under R229. -/
  | hostTrainTimeout (hl : HLane)
  /-- R230. Bit lock and then symbol lock are held and the host lane enters CAP. -/
  | hostLockComplete (m : HostLock)
  /-- R227. LOCK does not complete within 20 ms; the lane returns to DETECT, and after three in a row stays there with LOCK_FAIL and one WARN. -/
  | hostLockTimeout (hl : HLane)
  /-- R231. Alignment-marker lock with the committed format holds on every PCS lane and the host lane enters ACTIVE. -/
  | hostCapComplete (hl : HLane) (m : HostMarkers)
  /-- R227. CAP does not complete within 10 ms; CAP_MISMATCH is set and CAP restarts. -/
  | hostCapTimeout (hl : HLane)
  /-- R231. Marker lock is lost for four marker periods in ACTIVE and the host lane returns to CAP. -/
  | hostMarkerLockLoss (hl : HLane)
  /-- R232. Loss of signal for 10 µs or loss of bit lock in ACTIVE returns the host lane to LOCK, or DETECT with RETRAIN, increments DROP_CNT and raises one NOTICE. -/
  | hostActiveLoss (hl : HLane) (loss : HostLoss)
  /-- R243. A write of 1 to HST_CTRL.EN clears LOCK_FAIL so the lane may leave DETECT. -/
  | hostEnWrite (hl : HLane) (v : W32)
  /-- R225. Skew on a port side exceeds its limit; SKEW_OVR sets with one WARN and the host lanes return to CAP or the line lanes leave DATA. -/
  | skewOvr (p : Lane) (line : Bool) (skew : Nat)
  /-- R257. The preamble correlator fires above DET_THR at a local maximum; a reception enters HEADER or restarts on a candidate at least 3 dB stronger. -/
  | preambleDetect (l : Lane) (rx : PreambleRx)
  /-- R257. The sync word and header complete; the reception returns to SEARCH on sync or HCRC failure or enters BODY. -/
  | headerReceive (l : Lane) (sync : W32) (hdr : BitVec 64)
  /-- R258. A level block differs from the preamble level by more than 6 dB; the reception is aborted, PSTEP_ABORT increments and gain steps resume. -/
  | receptionLevelAbort (l : Lane) (block : List Int)
  /-- R260. Every 1 µs in LINK the lane sends a CAP frame on C1. -/
  | capFrameSend (l : Lane)
  /-- R260. A CAP frame taken whole is matched, latching the partner and setting PEER_SEEN, or sets CAP_MISMATCH; in TRAIN a matching CAP without PEER_SEEN returns the lane to LINK. -/
  | capFrameReceive (l : Lane) (fr : AcqFrame)
  /-- R260. Eight further CAPs after a matching CAP with PEER_SEEN = 1 have been sent, and the lane leaves LINK for TRAIN. -/
  | enterTrain (l : Lane)
  /-- R260. After 1 s in LINK without a matching CAP one LINK_WAIT NOTICE is raised for that entry. -/
  | linkWaitTimer (l : Lane)
  /-- R261. A training block begins; pending PRESET taps and countdowns take effect and the slot carries PRESET or STATUS. -/
  | trainingBlockStart (l : Lane) (ui : Nat)
  /-- R264. A STATUS frame taken whole updates PEER_READY, confirms PRESETs, starts the own countdown on RX_READY, and fixes the data start from GO. -/
  | statusFrameReceive (l : Lane) (fr : SlotFrame)
  /-- R262. A PRESET frame taken whole is applied at the first block at least 200 ns later if REMOTE_FIR and the tap limit allow, or REFUSED. -/
  | presetFrameReceive (l : Lane) (fr : SlotFrame)
  /-- R262. After nine blocks at each RHO value the Kneader places the RHO with the highest PM_MARGIN in the applied state. -/
  | rhoSearchComplete (l : Lane) (margins : List Nat)
  /-- R264. The countdown and FILL end, the first data symbol is sent, TX_DATA sets and the encoder starts; the lane enters DATA if RX_DATA is set. -/
  | txDataStart (l : Lane)
  /-- R264. The first data symbol is received, RX_DATA sets and the decoder starts; the lane enters DATA if TX_DATA is set. -/
  | rxDataStart (l : Lane)
  /-- R265. In LM400D TRAIN the shortening taps and window are fixed and SUBSTATE moves to FEQ. -/
  | dmtShortenComplete (l : Lane) (taps : List Int) (window : BitVec 12)
  /-- R266. The transmitting end takes a LOAD frame whole, checks the table, writes its TX half and answers ACK OK or INVALID. -/
  | loadFrameReceive (l : Lane) (fr : AcqFrame)
  /-- R266. The receiving end takes an ACK frame whole and moves to READY on OK or back to SUBSTATE 2 on INVALID. -/
  | ackFrameReceive (l : Lane) (fr : AcqFrame)
  /-- R266. Every 1 ms without an ACK a new LOAD attempt is sent; after the eighth acquisition fails. -/
  | loadRetry (l : Lane)
  /-- R268. ACQ_TO elapses in TRAIN or BLIND; the lane goes to HOLDOFF or restarts BLIND, ACQ_FAIL sets and a NOTICE or WARN is raised. -/
  | acqTimeout (l : Lane)
  /-- R268. After 1 ms of idle fill in HOLDOFF the lane returns to LINK. -/
  | holdoffEnd (l : Lane)
  /-- R276. A 4 µs loop-engine frame starts on a time tick for all groups, latching committed context values. -/
  | loopFrame
  /-- R278. At the first frame start at or after the commit instant plus 100 ns the loop engine latches the new context values. -/
  | loopConfigLatch (g : Group)
  /-- R283. A context samples its feedback, runs the profile generator, control law and supervision, and writes its output within 1 µs. -/
  | loopSample (x : Ctx)
  /-- R298. HOLD_TO elapses without clearing; the context starts parking and fences its lane with cause LOOP, or raises PARK_NOFENCE. -/
  | holdTimeout (x : Ctx)
  /-- R298. The ramp to PARK ends and the context is PARKED. -/
  | parkComplete (x : Ctx)
  /-- R301. A write of 1 to START starts the test-signal injection at the context's next sample. -/
  | injectionStart (g : Group)
  /-- R301. A write of 1 to STOP ends the running injection. -/
  | injectionStop (g : Group)
  /-- R301. An injection ends after LEN samples. -/
  | injectionEnd (g : Group)
  /-- R302. A write of 1 to ARM arms the capture buffer for its trigger. -/
  | captureArm (g : Group)
  /-- R302. The capture buffer fills after its trigger and DONE sets. -/
  | captureDone (g : Group)
  /-- R302. A read of CAP_DATA returns the entry at CAP_ADDR and increments CAP_ADDR. -/
  | captureDataRead (g : Group)
  /-- R312. A write of 1 to PWR_LS_CTRL.LOCK locks every lane's ceilings and the register until PORST#. -/
  | lsLockWrite (h : Half) (v : W32)
  /-- R312. Before LOCK a write to LN_LS_CEIL takes effect at once, moving the LASER_CD role, or is ignored when the channel is not allowed. -/
  | lsCeilWrite (l : Lane) (v : W32)
  /-- R310. Ten microseconds after LASEN rises the bias hold at code 0 ends and the APC context starts from code 0. -/
  | biasHoldEnd (l : Lane)
  /-- R313. A photocurrent above threshold for 20 µs latches the trip, takes LASEN low, forces bias to 0 and fences the lane LASER_OVP. -/
  | overPowerTrip (l : Lane) (microAmps : Nat)
  /-- R315. SAFE_OFF# low for 100 ns takes every LASEN of the half low within 10 µs, increments SOFF_CNT and raises one WARN. -/
  | safeOffAssert (h : Half)
  /-- R315. SAFE_OFF# returns high and the release timer or RESUME wait begins. -/
  | safeOffDeassert (h : Half)
  /-- R315. With SOFF_RESUME = 1 the pin has stayed high for 1 ms and the half releases its lasers. -/
  | safeOffAutoRelease (h : Half)
  /-- R315. A write of 1 to PWR_LS_CMD.RESUME while the pin is high releases the half's lasers. -/
  | safeOffResumeWrite (h : Half) (v : W32)
  /-- R316. The APR timer or a restart pulse reaches its end without light; the lane enters APR_HOLD, turning the laser off or lowering the APC target. -/
  | aprHoldEntry (l : Lane)
  /-- R316. Fifty milliseconds after APR_HOLD entry with APR_MODE = 1 the comparator threshold becomes 1.2 × APR_PWR. -/
  | aprThresholdLower (l : Lane)
  /-- R316. Every 100 s in APR a restart pulse restores the laser, threshold and target. -/
  | aprRestartPulse (l : Lane)
  /-- R316. Two seconds after a pulse start with SIG_DET still 0 the lane returns to APR_HOLD. -/
  | aprPulseEnd (l : Lane)
  /-- R326. A monitor sequence falls due at its frame and offset and starts or waits for its converter, losing a run with OVERRUN if the previous one is pending. -/
  | sequenceDue (q : SeqN)
  /-- R327. A waiting sequence starts in the slot after the other sequence's run ends. -/
  | sequenceRunStart (q : SeqN)
  /-- R328. An entry is sampled and its result written with SEQNUM, ORNG, SUSPECT and SETTLED, feeding its window comparator and chain. -/
  | monitorConversion (q : SeqN) (applied : Int) (slots : Nat)
  /-- R325. A write of TYPE or SENSE takes effect at once, marks results for 50 µs SUSPECT and restarts chains fed from that input. -/
  | inputConfigWrite (i : InputN) (v : W32)
  /-- R331. A write to an entry's registers updates it for the next run, clears OUTSIDE on window fields, or is ignored under R333 and R335. -/
  | monitorEntryWrite (n : EntryN) (word : Fin 4) (v : W32)
  /-- R338. A write to a chain's configuration restarts the chain. -/
  | chainConfigWrite (ch : ChainN) (word : Fin 2) (v : W32)
  /-- R338. A write of 1 to RESTART clears the chain's sums and output count and sets SETTLED = 0. -/
  | chainRestartWrite (ch : ChainN) (v : W32)
  /-- R341. Every 1 µs each channel's OUT is formed from REQ through ceiling, slew limiter, supply-current limit and overrides. -/
  | cdacUpdate (h : Half)
  /-- R341. A host write of CODE sets the channel's request, ending a post-override rest, or is ignored when a context drives the channel. -/
  | cdacCodeWrite (c : Chan) (v : W32)
  /-- R344. A write of CLR_CODE sets the clear code and, while AT_CLEAR = 1, moves OUT to it through the slew limiter. -/
  | cdacClrCodeWrite (c : Chan) (v : W32)
  /-- R345. A write that changes MODE forces the clear code, disconnects the pin and starts the reconnection sequence. -/
  | cdacModeWrite (c : Chan) (v : W32)
  /-- R345. The pin reconnects in the mode written last, DISC clears and OUT moves toward REQ. -/
  | cdacReconnect (c : Chan)
  /-- R343. CLR_x# low for 100 ns forces every channel of the half to its clear code, increments CLR_CNT and raises one NOTICE. -/
  | clrAssert (h : Half)
  /-- R343. CLR_x# returns high and the clear override ends, outputs resting until the next request. -/
  | clrDeassert (h : Half)
  /-- R344. VCTL rises through its valid threshold and channel pins become driven at CLR_CODE within 20 µs. -/
  | vctlValid (h : Half)
  /-- R577. VCTL falls invalid; pins go to high impedance within 5 µs and, with PORST# high, every group is fenced GROUP_IO. -/
  | vctlInvalid (h : Half)
  /-- R356. Every 250 µs each on-die sensor converts and is cross-checked, faulting or recovering with a SENSOR_FAULT WARN. -/
  | dieSensorConversion (d : DieSensor) (temp : Int)
  /-- R357. Every 4 ms each remote diode and thermistor converts, checks faults and sets ENG_HOT with one WARN above ENG_HI. -/
  | engineSensorConversion (e : EngSensor) (r : EngReading)
  /-- R359. Every 1 ms the always-on oscillator and bandgap references are retrimmed from the mean on-die temperature. -/
  | aonRetrim (h : Half)
  /-- R362. Every 100 ms each group's controller updates Te, runs the thermal fence step, and lowers or restores effort picks. -/
  | throttleTick (g : Group)
  /-- R367. A trip comparator above 112 °C for 20 µs latches TRIP, takes LASEN low, asserts THERMTRIP# and power-gates the half's groups to G-DORMANT. -/
  | thermalTrip (d : DieSensor)
  /-- R368. A half sees THERMTRIP# low for 1 µs and trips with TRIP_SRC = 1. -/
  | thermtripPinTrip (h : Half)
  /-- R368. A write of CLEAR after 100 ms at or below 110 °C clears TRIP, or is ignored with one NOTICE if earlier. -/
  | thermalTripClear (h : Half) (v : W32)
  /-- R369. Every 1 s in idle converter slots the monitor ADC offset and gain are calibrated twice and compared. -/
  | monitorAdcCalibration (h : Half) (cal : CalResult)
  /-- R369. Every 1 s per channel the readback is compared with OUT and CDAC_DRIFT is set beyond 4 LSB. -/
  | cdacDriftCheck (c : Chan) (readback : Int)
  /-- R369. No idle slot arises for 10 s and CAL_STARVED is set. -/
  | calibrationStarved (h : Half)
  /-- R372. When TG has moved 0.25 °C the group's interpolated trims are re-applied hitlessly at the next codeword boundary. -/
  | trimReapply (g : Group)
  /-- R382. At each 4 ns time tick the time base advances by ADDEND plus slew, wraps seconds, and fires PPS_OUT and pending actions due. -/
  | timeTick (h : Half)
  /-- R383. A write of TIME_ADDEND sets the addend from the next tick, or is ignored on half B and in ISLAND. -/
  | timeAddendWrite (h : Half) (v : W32)
  /-- R383. A write of TIME_SLEW starts, replaces or cancels a slew from the next tick. -/
  | timeSlewWrite (h : Half) (v : W32)
  /-- R383. A write of 1 to TIME_CTRL.STEP schedules a step to TIME_SET at the next tick or second wrap. -/
  | timeStepWrite (h : Half) (v : W32)
  /-- R383. The step takes place, cancelling any slew, setting STEP_DONE and recomputing pending scheduled actions. -/
  | timeStepApply (h : Half)
  /-- R405. A read of TIME FRAC latches the NS and SEC registers. -/
  | timeFracRead (h : Half)
  /-- R387. A qualified PPS_IN rising edge captures half A's time, sets PPS_IN_EDGE, raises PPS_EDGE if enabled and clears PPS_LOST. -/
  | ppsInEdge
  /-- R387. No PPS_IN edge arrives within 1.1 s and PPS_LOST sets with one NOTICE. -/
  | ppsLost
  /-- R387. A read of PPS_FRAC latches the other PPS capture registers. -/
  | ppsFracRead (h : Half)
  /-- R388. PPS_OUT falls after PPS_WIDTH ms. -/
  | ppsOutPulseEnd
  /-- R391. A transmit PTP event message is stamped at the line pins, optionally modified for one-step Sync, and a record is queued. -/
  | ptpTransmitMessage (l : Lane) (m : PtpMsg)
  /-- R391. A received PTP event message is stamped, optionally given an inserted time-stamp, and a record is queued. -/
  | ptpReceiveMessage (l : Lane) (m : PtpMsg)
  /-- R398. A staged time-stamp record is written to the time-stamp ring, or drained over the bridge, when there is space. -/
  | timestampRecordWrite (h : Half)
  /-- R400. A pending scheduled command reaches its time and executes in order of W, priority and acceptance. -/
  | scheduledActionFire (h : Half)
  /-- R411. A Kneader traps, halts, records its cause, raises KND_TRAP and queues its reload, or is declared failed after three traps in 1 s. -/
  | kneaderTrap (k : Knd) (cause : TrapCause)
  /-- R412. The reload finishes and the Kneader restarts in RUN, ending HOLD on its lanes. -/
  | kneaderReloadComplete (k : Knd) (verified : Bool)
  /-- R414. The spare Kneader serves the role, KND_SPARE decrements and SPARE_IN is raised. -/
  | kneaderSubstitutionComplete (k : Knd)
  /-- R420. Every 10 s each spare Kneader runs logic self-test in the background. -/
  | spareKneaderTest (u : SpareUnit) (sig : W32)
  /-- R425. A self-test finishes; the unit is restored, or retired with ST_FAIL and one WARN on failure. -/
  | selftestComplete (h : Half) (e : EndedTest) (sig : W32)
  /-- R422. TESTMODE goes high; both halves zeroise their secrets and lock the OTP identity key. -/
  | testmodeAssert
  /-- R422. A JTAG instruction that enables scan is loaded; secrets are zeroised before the first shift and EXTEST holds LASEN low. -/
  | jtagScanInstruction (extest : Bool)
  /-- R428. In an idle memory cycle the scrubber reads one word, correcting or poisoning it and timing its lap. -/
  | scrubRead (m : MemUnit) (r : ScrubResult)
  /-- R429. A read corrects a single-bit error and the repeat tracker takes an entry or marks the address STICKY. -/
  | memoryCorrectedRead (m : MemUnit) (arr : BitVec 10) (word : BitVec 17)
  /-- R429. The tracker writes the corrected word back at the memory's next free cycle. -/
  | trackerWriteBack (m : MemUnit) (arr : BitVec 10) (word : BitVec 17)
  /-- R430. A read finds an uncorrectable or poisoned word and acts by reader: trap, poison, lane fence MEM_UE, restart, refetch or DMA halt. -/
  | memoryUncorrectableRead (m : MemUnit) (arr : BitVec 10) (word : BitVec 17) (rd : UeReader)
  /-- R431. KD4896 rewrites the lane's slice memories, releases the MEM_UE fence and starts acquisition. -/
  | memUeRelease (rd : CkptRead)
  /-- R416. K122 copies a new repair-log record from the pantry to flash within 1 s. -/
  | repairLogFlashCopy (h : Half)
  /-- R443. Bus Master Enable is cleared and every ring of the half pauses at an entry boundary. -/
  | busMasterDisable (h : Half)
  /-- R443. Bus Master Enable returns to 1 and paused rings resume. -/
  | busMasterEnable (h : Half)
  /-- R444. TIME µs pass since the first unsignalled entry and the ring signals its MSI-X vector. -/
  | msixModerationTimer (h : Half) (q : Fin 8)
  /-- R446. An MDIO write of 1 to 1.0 bit 15 sends the port's lanes out of DATA to acquire again. -/
  | mdioPmaResetWrite (h : Half) (prtad : BitVec 5) (v : BitVec 16)
  /-- R447. An MDIO write to 1.9 sets TX_EN of each lane and applies it by an implicit commit on the port. -/
  | mdioTxDisableWrite (h : Half) (prtad : BitVec 5) (v : BitVec 16)
  /-- R446. An MDIO read of 1.1 returns the latching-low link status and re-arms it. -/
  | mdioStatusRead (h : Half) (prtad : BitVec 5)
  /-- R445. Any other Clause 45 MDIO access is answered for the addressed port or ignored. -/
  | mdioFrame (h : Half) (prtad : BitVec 5) (devad : BitVec 5) (reg : BitVec 16) (write : Bool) (v : BitVec 16)
  /-- R450. A command-ring doorbell sets the new tail and starts descriptor fetch, or halts the ring with DB_RANGE. -/
  | commandDoorbell (h : Half) (q : Fin 4) (v : W32)
  /-- R450. A completion-ring doorbell frees completion entries up to the new head. -/
  | completionDoorbell (h : Half) (v : W32)
  /-- R450. An event-ring doorbell frees event entries up to the new head. -/
  | eventDoorbell (h : Half) (v : W32)
  /-- R450. A telemetry-ring doorbell frees units up to the new head. -/
  | telemetryDoorbell (h : Half) (v : W32)
  /-- R450. A time-stamp-ring doorbell frees records up to the new head. -/
  | timestampDoorbell (h : Half) (v : W32)
  /-- R454. KD4896 reserves a completion entry and issues a descriptor read into the staging area. -/
  | descriptorFetch (h : Half) (q : Fin 4)
  /-- R454. Descriptor data arrives in staging, or a failed read halts the ring with FETCH. -/
  | descriptorDataReceive (h : Half) (q : Fin 4) (data : DescData)
  /-- R455. A staged descriptor is taken in priority and ring order, validated and executed, scheduled or forwarded. -/
  | descriptorTake (h : Half)
  /-- R457. Half B receives a forwarded command over the bridge, validates and takes it. -/
  | bridgeCommandReceive
  /-- R457. Half A receives half B's result over the bridge and writes the completion on its ring. -/
  | bridgeCompletionReceive
  /-- R458. A completion is written to its reserved entry, held while the completion ring is halted. -/
  | completionWrite (h : Half)
  /-- R451. Within 1 µs of a change KD4896 writes the coalesced status block. -/
  | statusBlockWrite (h : Half)
  /-- R460. A raised event is written to the event ring when there is space, preceded by an EVENTS_LOST notice after drops. -/
  | eventRecordWrite (h : Half)
  /-- R462. A telemetry lane, SNAP_END or LOST record is written to the telemetry ring when there is space, completing a snapshot at SNAP_END. -/
  | telemetryRecordWrite (h : Half)
  /-- R465. A write of 1 to RESET discards untaken descriptors, zeroes indices, clears HALTED and ERR and stops the ring. -/
  | ringReset (h : Half) (q : Fin 8) (v : W32)
  /-- R473. A write of EN = 1 starts the ring, or halts it with SETUP on a bad base or size. -/
  | ringEnable (h : Half) (q : Fin 8) (v : W32)
  /-- R479. Returns TOP_ID and the firmware version. -/
  | identify (h : Half) (r : Req)
  /-- R27. Validates the affected set's shadow state and schedules its application at the boundary, or completes REJECTED, FENCED or UNSAFE. -/
  | commit (h : Half) (r : Req)
  /-- R481. Removes the earliest pending command with the given HOST_TAG, which completes CANCELLED. -/
  | schedCancel (h : Half) (r : Req)
  /-- R479. Sets half A's ADDEND as a write of TIME_ADDEND. -/
  | timeFreq (h : Half) (r : Req)
  /-- R479. Starts or cancels a slew of half A's time. -/
  | timeSlew (h : Half) (r : Req)
  /-- R482. Steps half A's time, before other actions firing at the same tick. -/
  | timeStep (h : Half) (r : Req)
  /-- R479. Completes with no effect. -/
  | nop (h : Half) (r : Req)
  /-- R484. Writes up to three masked shadow fields together at completion, or REJECTED NOT_SHADOW. -/
  | cfgWrite (h : Half) (r : Req)
  /-- R483. Sets every shadow field in scope to its applied value. -/
  | cfgDiscard (h : Half) (r : Req)
  /-- R485. Requests a receive-direction bit-swap on an LM400D lane in DATA and completes when the RE switches. -/
  | bitswap (h : Half) (r : Req)
  /-- R483. Sends every lane in scope back to LINK or BLIND at the commit boundary. -/
  | retrain (h : Half) (r : Req)
  /-- R486. Releases named host-released fence causes of ports or lanes, or is rejected or UNSAFE. -/
  | fenceRelease (h : Half) (r : Req)
  /-- R483. Captures the active bank on every lane in scope. -/
  | eqCapture (h : Half) (r : Req)
  /-- R487. Writes SOFF_RESUME and LOCK = 1, or REJECTED LOCKED. -/
  | lsLock (h : Half) (r : Req)
  /-- R487. Releases lasers after SAFE_OFF# as RESUME, or REJECTED PIN_LOW or STATE. -/
  | safeResume (h : Half) (r : Req)
  /-- R317. Starts an APR restart pulse at once on a lane in APR_HOLD. -/
  | aprRestart (h : Half) (r : Req)
  /-- R487. Returns a context's status word and O_NOW. -/
  | loopStatus (h : Half) (r : Req)
  /-- R488. Clears the FEC counters of every lane in scope at their next boundaries. -/
  | cntClear (h : Half) (r : Req)
  /-- R488. Returns a monitor entry's result and status words. -/
  | monRead (h : Half) (r : Req)
  /-- R489. Stops the half from raising events of a code below a severity. -/
  | eventFilter (h : Half) (r : Req)
  /-- R546. Creates a periodic telemetry subscription, or BUSY SUBS_FULL. -/
  | subscribe (h : Half) (r : Req)
  /-- R546. Ends a subscription at completion. -/
  | unsubscribe (h : Half) (r : Req)
  /-- R36. Requests a snapshot at T and completes when its SNAP_END is written. -/
  | snapshot (h : Half) (r : Req)
  /-- R528. Moves a group between power states through the entry handshake or a wake. -/
  | groupState (h : Half) (r : Req)
  /-- R535. Moves both halves to D-ACTIVE, D-STANDBY or D-OFF. -/
  | deviceState (h : Half) (r : Req)
  /-- R534. Releases the held pads of groups in G-ACTIVE so lanes leave IDLE. -/
  | padRelease (h : Half) (r : Req)
  /-- R491. Releases fence causes of a group or half, starting the group or half reset when the last ends. -/
  | fenceReleaseGroup (h : Half) (r : Req)
  /-- R538. Performs a soft, group or lane reset after writing its completion. -/
  | reset (h : Half) (r : Req)
  /-- R423. Frees a unit and runs its self-test on demand. -/
  | selftest (h : Half) (r : Req)
  /-- R515. DMAs a delta piece into the update store. -/
  | updLoad (h : Half) (r : Req)
  /-- R514. Applies the delta into the inactive slot and verifies it. -/
  | updVerify (h : Half) (r : Req)
  /-- R514. The apply and checks end; the slot is marked valid and stage VERIFIED, or FAILED VERIFY. -/
  | updVerifyComplete (h : Half) (checks : ApplyChecks)
  /-- R515. Marks the verified slot pending for the next start. -/
  | updActivate (h : Half) (r : Req)
  /-- R516. Confirms the trial image and its settings record. -/
  | updConfirm (h : Half) (r : Req)
  /-- R516. Returns to the previous image and settings, with a soft reset from TRIAL. -/
  | updRollback (h : Half) (r : Req)
  /-- R521. Registers the crumb dump buffer. -/
  | dumpBuf (h : Half) (r : Req)
  /-- R521. Copies the minimal pantry dump to host memory. -/
  | dumpFetch (h : Half) (r : Req)
  /-- R557. Unlocks fault injection with the key, unless disabled and locked. -/
  | fiUnlock (h : Half) (r : Req)
  /-- R558. Starts an injection of a kind in the lowest free slot. -/
  | fiSet (h : Half) (r : Req)
  /-- R558. Ends every injection in scope. -/
  | fiClear (h : Half) (r : Req)
  /-- R493. Opens an attestation session with a host nonce. -/
  | attOpen (h : Half) (r : Req)
  /-- R493. Writes a signed quote for a session. -/
  | attQuote (h : Half) (r : Req)
  /-- R493. Writes the identity certificate chain. -/
  | attCert (h : Half) (r : Req)
  /-- R493. Closes an attestation session. -/
  | attClose (h : Half) (r : Req)
  /-- R528. The condition that made a block DELAY ends and the block is asked again. -/
  | handshakeDelayEnd (g : Group)
  /-- R528. A block still delaying at 10 ms refuses TIMEOUT, rolling the handshake back with POWER_REFUSE. -/
  | handshakeTimeout (g : Group)
  /-- R530. The pantry save completes, pads latch and the domain is gated into the reduced state. -/
  | powerSaveComplete (g : Group)
  /-- R532. Every PERIOD ms in G-PROOF inputs are powered and the selected sequences run. -/
  | proofWindowOpen (g : Group)
  /-- R532. WIN µs after opening the window closes and inputs are gated. -/
  | proofWindowClose (g : Group)
  /-- R533. Two milliseconds into a wake the rail and PLL are checked, retrying once or entering WAKE_FAILED. -/
  | wakeRailCheck (g : Group) (good : Bool)
  /-- R533. Registers restored, Kneaders reloaded and loop engine started; the group is G-ACTIVE with pads held. -/
  | wakeComplete (g : Group)
  /-- R536. The function enters D3hot and the half runs entry to D-STANDBY. -/
  | d3hotEntry (h : Half)
  /-- R536. Every 100 ms in D3hot after a refusal the entry is repeated. -/
  | d3hotRetry (h : Half)
  /-- R536. The function returns to D0 and the half leaves D-STANDBY, posting waiting events. -/
  | d0Return (h : Half)
  /-- R575. PORST# falls; every LASEN goes low and channels go to clear codes. -/
  | porstAssert
  /-- R497. PORST# rises and each half starts its cold start. -/
  | porstDeassert
  /-- R500. PERST_x# asserts and the half resets its link and configuration space. -/
  | perstAssert (h : Half)
  /-- R500. PERST_x# releases and the half makes a warm start, or a full start with an invalid pantry. -/
  | perstDeassert (h : Half)
  /-- R538. Function Level Reset performs a soft reset of the half. -/
  | flr (h : Half)
  /-- R497. A start step completes (PLL lock, OTP load, self-test, march test, calibration, image verify) and the next step begins. -/
  | startStepComplete (h : Half) (r : StartResult)
  /-- R497. The start reaches release: STATE = RUN, FAIL_CNT cleared, heartbeats begin. -/
  | startRelease (h : Half) (r : ReleaseInfo)
  /-- R524. A write of KEY 0x5354 with REQ = 1 sets STARTER_REQ in the boot record. -/
  | starterRequestWrite (h : Half) (v : W32)
  /-- R505. A write of GO in Starter mode starts loading a full image into SLOT. -/
  | starterLoadGo (h : Half) (v : W32)
  /-- R505. The Starter load verifies and writes the image and boot record and the half restarts from step 5, or reports ST_RESULT. -/
  | starterLoadComplete (h : Half) (r : LoadEnd) (img : ImageInfo)
  /-- R511. At most once per 60 s with changed content the firmware writes the settings record. -/
  | settingsRecordWrite (h : Half)
  /-- R520. A fatal error stops the management plane, asserts ALERT, stops heartbeats, raises FW_FATAL and writes the dump. -/
  | fatalError (h : Half) (cause : FatalCause) (kn : Knd)
  /-- R544. At each subscription period instant its lanes latch and records are queued. -/
  | subscriptionLatch (h : Half)
  /-- R555. A write of SAMPLE copies the block's counters into the sample area and increments SAMPLE_SEQ. -/
  | perfSampleWrite (b : PerfBlk) (v : W32)
  /-- R550. A write of CLEAR zeroes every counter and bin of the block. -/
  | perfClearWrite (b : PerfBlk) (v : W32)
  /-- R562. A write of H_CLR zeroes both histograms. -/
  | histogramClearWrite (b : PerfBlk) (v : W32)
  /-- R557. A key write to FI_KEY unlocks fault injection, unless disabled and locked. -/
  | fiKeyWrite (h : Half) (v : W32)
  /-- R557. A write of 1 to RELOCK ends every injection and locks the half. -/
  | fiRelockWrite (h : Half) (v : W32)
  /-- R558. An injection reaches its duration or count and its slot frees. -/
  | faultInjectionExpiry (h : Half) (slot : Fin 16)
  /-- R577. VDD_AON or VDDIO below limit for 1 µs causes an internal power-on reset of both halves. -/
  | aonSupplyLoss
  /-- R577. A stage 2–4 rail below 94 % for 1 µs with PORST# high fences both halves HALF_POWER. -/
  | railUndervoltage
  /-- R486. REFCLK returns on the board input after a loss, so that the REFCLK fence cause no longer counts as present for FENCE_RELEASE. -/
  | refclkRestored (h : Half)
  /-- R577. VDD_AON and VDDIO return within range after an internal power-on reset, and with PORST# high both halves make a cold start. -/
  | aonSupplyRestored
  /-- R368. THERMTRIP# is seen high, released by both halves or by the board, which re-arms a half that has cleared its trip so that a later low level trips it again. -/
  | thermtripPinHigh (h : Half)
  /-- R267. In LM100 and LM200 the line receiver gains codeword alignment, which sets CW_LOCK and lets RX_DATA or BLIND entry to DATA proceed. -/
  | codewordAlignmentGained (l : Lane)
  /-- R258. After a reception is aborted on C1 or C2, the level error has stayed within ±1.5 dB for 2 µs and the correlator returns to SEARCH. -/
  | searchResume (l : Lane)
  /-- R253. An acquisition frame of another type, or of a type not accepted in the current state, is taken whole, checked by CRC-32 (FRAME_OK or CRC_FAIL) and discarded. -/
  | unlistedFrameReceive (l : Lane) (fr : AcqFrame)
  /-- R515. The DMA of a delta piece into the update store ends; LOADED advances and UPD_LOAD completes OK, or FAILED FLASH. -/
  | updLoadComplete (h : Half) (data : Option (List (BitVec 8)))
  /-- R538. A group reset finishes within 1 ms: the group Kneaders are reloaded, the loop engine is restarted and the host lanes move from DISABLED to DETECT. -/
  | groupResetComplete (g : Group)
  /-- R40. A group PLL or a half PLL loses lock in service, and the group is fenced with cause GROUP_POWER or the half with cause HALF_POWER. -/
  | pllLockLoss (u : PllUnit)
  /-- R468. Half A receives over the bridge an event, telemetry or time-stamp record from half B, stages it for its own ring, and acknowledges snapshot records. -/
  | bridgeRecordReceive
  deriving DecidableEq, Repr

end Sys2Proof
end

