-- ==== Sys2Proof/WellFormed.lean ====
section
/-! DEFINITION. Which commands are well formed: what a command carries has the shape that the spec gives it. The types of Word.lean fix
every number that names a unit; these are the checks that the types do not make; a command that
the last arm takes carries nothing else. -/

namespace Sys2Proof

/-- R441: an offset lies in its BAR. -/
def inBar (b : Bar) (off : Nat) : Bool :=
  match b with
  | .bar0 => decide (off < 0x100000)
  | .bar2 => decide (off < 0x1000)
  | .bar4 => decide (off < 0x4000)

/-- R250: the length of an acquisition frame's payload fits its twelve-bit field. -/
def AcqFrame.wf (f : AcqFrame) : Bool := decide (f.payload.length ≤ 4095)

/-- R454: a descriptor read brings sixteen words. -/
def DescData.wf (d : DescData) : Bool :=
  match d with
  | .ok words => words.length == 16
  | .failed => true

/-- R174: the codes of a DMT symbol are bytes. -/
def DmtSymbol.wf (y : DmtSymbol) : Bool := y.codes.all fun c => decide (c < 256)

/-- R132 and R155: ADC codes are bytes; the signals of host lanes are bits. -/
def RxCodeword.wf (c : RxCodeword) : Bool :=
  match c with
  | .host _ => true
  | .line codes _ => codes.all fun c => decide (c < 256)
  | .dmt syms => syms.all DmtSymbol.wf

/-- R355: sensors 0 and 1 of an engine are diodes, 2 and 3 thermistors. -/
def EngReading.wf (e : EngSensor) (r : EngReading) : Bool :=
  match r with
  | .diode .. => e.val % 4 < 2
  | .thermistor _ => 2 ≤ e.val % 4
  | _ => true

/-- R419: each pass of March C− reads every word five times. -/
def MarchRead.wf (r : MarchRead) : Bool := r.pass0.length == 5 * r.words && r.pass1.length == 5 * r.words

/-- A command whose parts have the shape that the spec gives them. -/
def Instr.wellFormed (i : Instr) : Bool :=
  match i with
  | .registerWrite _ bar off size _ | .lowWordReadLatch _ ⟨bar, off, size⟩ => (size == 1 || size == 2 || size == 4 || size == 8) && inBar bar off.toNat
  | .adaptBlockEnd _ m => (m.samples ++ m.timing).all fun x => x.x.length == 48 && x.v.length == 8
  | .overloadStep _ clips samples | .subadcEnsembleCheck _ ⟨_, clips, samples⟩ => decide (clips ≤ samples)
  | .codewordReceive _ cw => cw.wf
  | .feqBlockEnd _ codes _ _ => codes.all fun c => c.all fun v => decide (v < 256)
  | .snrWindowEnd _ syms | .bitswapRxDecide _ syms | .pilotFlagUnexpected _ syms => syms.all DmtSymbol.wf
  | .preambleDetect _ rx => rx.xs.length == 260
  | .engineSensorConversion e r => EngReading.wf e r
  | .startStepComplete _ r => r.march.all MarchRead.wf
  | .rhoSearchComplete _ margins => margins.length == 9
  | .dmtShortenComplete _ taps _ => taps.length == 16
  | .descriptorDataReceive _ _ data => data.wf
  | .swapReqReceive _ fr _ | .swapRespReceive _ fr | .capFrameReceive _ fr | .statusFrameReceive _ ⟨fr, _⟩ | .presetFrameReceive _ ⟨fr, _⟩
  | .loadFrameReceive _ fr | .ackFrameReceive _ fr | .unlistedFrameReceive _ fr => fr.wf
  | _ => true

end Sys2Proof
end

