-- ==== Sys2Proof/Decode.lean ====
section
/-! DEFINITION. Words and commands. Krytmon's table gives no row any bits: a command reaches the part as an event of its own, not as
an encoded word, so no word spells one. Descriptors, the one encoding that the spec has, are read in Machine/Opcodes.lean. -/

namespace Sys2Proof

/-- The command that a word spells by the table's bits: none, since the table gives no row bits. -/
def decodeTableWord (_nbits _w : Nat) : Option Instr := none

end Sys2Proof
end

