-- ==== Sys2Proof/Config.lean ====
section
/-! DEFINITION. What an implementation of KD4896 fixes, and the values that the spec leaves open: constants without a
body, so that no proof can see what they are. -/

namespace Sys2Proof

/-- R434: ROWS_LEFT, the spare rows left in a memory group after start-up repair, is per part. -/
opaque Config.rowsLeft : Nat → Nat

/-- R370: the factory points of a trim, from OTP: kind, unit, cell, point. -/
opaque Config.factoryPoint : Nat → Nat → Nat → Nat → Rat

/-- R442: what a read of BAR4 answers that BAR4 does not accept: by draw. -/
opaque Config.openRead : Nat → Nat

/-- R440: Subsystem Vendor ID and Subsystem ID, from OTP. -/
opaque Config.subsystem : Nat × Nat

/-- R359: where a retrim at a temperature (1/64 °C) aims the always-on oscillator, in 0.01 % of nominal. -/
opaque Config.oscTrim : Int → Int

/-- R359: where a retrim at a temperature (1/64 °C) puts the internal 1.200 V reference, in 0.001 %. -/
opaque Config.bandgapTrim : Int → Int

/-- Whether a measured quotient that is no whole number is rounded up where no rule says how it is rounded (R96, R148, R167): numerator
and denominator. -/
opaque Config.roundsUp : Int → Nat → Bool

/-- What stands for a measured mean over nothing: numerator. -/
opaque Config.meanOfNone : Int → Int

/-- R64: the change that the correction of a sub-ADC's timing skew makes to a sample: skew in fs, code, gain ratio. -/
opaque Config.skewTerm : Rat → Nat → Nat → Rat

/-- R63: the gain ratio of a PGA step to its nominal gain that calibration measures, 2^15 for 1: by draw. -/
opaque Config.pgaRatio : Nat → Nat

/-- R91 and R132: the inner code of LM200, which IEEE 802.3 defines: the levels (0 to 3) that carry the bits of a codeword; the final decisions of
its decoder on a codeword's y, and the 5,440 bits that they carry. -/
opaque Config.innerEncode : List Bool → List Nat
opaque Config.innerDecide : List Int → List Nat
opaque Config.innerBits : List Nat → List Bool

/-- R218, R219: the physical lane that the IEEE 802.3 PMA for a rate makes of the bits of a round of codewords (rate, lanes, lane), and the codewords'
bits that it gives back from the signals of all lanes (rate, signals). -/
opaque Config.pmaSend : Nat → Nat → Nat → List Bool → List Bool
opaque Config.pmaReceive : Nat → List (List Bool) → List (List Bool)

/-- R218: the PCS lanes that the IEEE 802.3 PMA for a rate finds in the signal of a host lane (rate, host lanes, signal), and the codewords of the
RS-FEC sublayer that PCS lanes in the order of their identities carry. -/
opaque Config.pmaDemux : Nat → Nat → List Bool → List (List Bool)
opaque Config.pcsWords : Nat → List (List Bool) → List (List Nat)

/-- R218 and R231: the PCS lanes of 100GbE as the alignment markers name them. -/
opaque Config.pcsLanes100 : Nat

/-- R228: the request that the receiver of a host lane makes on a far coefficient, and whether it is ready: by draw. -/
opaque Config.coeffWish : Nat → Option (Nat × Int)
opaque Config.hostReady : Nat → Bool

/-- R228: the bits of a training frame of IEEE 802.3: marker, control field with the request, status field with limit and receiver ready, PRBS13
pattern of the lane. -/
opaque Config.trainingFrame : Nat → Option (Nat × Int) → Bool → Bool → List Bool

/-- R234 and R245: the CTLE peaking that a host receiver settles on: by draw. -/
opaque Config.ctle : Nat → Nat

/-- R135: whether the precoder that the standard negotiates in training is in use on a lane in LM100 or LM200. -/
opaque Config.precoder : Nat → Bool

/-- R156: the message with the error marking of IEEE 802.3. -/
opaque Config.markMessage : List Nat → List Nat

/-- R157 and R222: a codeword that carries Local Fault, as IEEE 802.3 lays it out for a rate: rate, place in the round, draw. -/
opaque Config.localFault : Nat → Nat → Nat → List Nat

/-- Which of several equally good candidates a decision takes, where no rule breaks the tie: their number. -/
opaque Config.tie : Nat → Nat

/-- R183: the scale from the sums of the receiver's transform to its tones. -/
opaque Config.toneScale : Rat

/-- R184: the timing error in 1/256 sample period that the phase slope across the pilots stands for: tone and correlation of each pilot used. -/
opaque Config.pilotSlope : List (Nat × Rat × Rat) → Int

/-- R186: Λ of a hard decision of LM400D at E0, which R185 does not give: its squared distance to the decided point. -/
opaque Config.hardLambda : Rat → Rat

/-- R558: the value that SYM_ERR XORs into a symbol (draw, symbol), and the first of the 16 symbols that UNCORR inverts (draw). -/
opaque Config.injected : Nat → Nat → Nat
opaque Config.invertedFrom : Nat → Nat

/-- R106: the timing error in 1/256 UI that an output of the Mueller-Müller detector stands for. -/
opaque Config.detectorUi : Int → Int

/-- R254: the 32-bit values that the entropy source of a half gives at PORST#: half, draw. -/
opaque Config.devTag : Nat → Nat → Nat

/-- R262: whether a receiver that may send a PRESET sends one, and its seven taps: by draw. -/
opaque Config.presetWish : Nat → Option (List Nat)

/-- R266: how many superframes beyond the first that D = 2,048 allows a transmitter starts its data: by draw. -/
opaque Config.dataDistance : Nat → Nat

/-- R240: the line skew that KD4896 measures on a port of several lanes, by draw. -/
opaque Config.lineSkew : Nat → Nat

/-- R314: whether the photocurrent of a lane still exceeds the threshold with the laser off, when a release is asked: by draw. -/
opaque Config.stillBright : Nat → Bool

/-- R418: the golden MISR signature of a unit, from OTP. -/
opaque Config.golden : TestUnit → W32

/-- R558 kind 3: whether a random burst hits a symbol: draw, symbol. -/
opaque Config.randomHit : Nat → Nat → Bool

/-- R420 and R438: the UNIT of a background test of a spare Kneader, which the spec does not number: by draw. -/
opaque Config.spareUnit : Nat → Nat

/-- R417: the spare rows that the factory repair map leaves an SRAM array: unit of R436, array. -/
opaque Config.spareRows : Nat → Nat → Nat
/-- R417: the row of an array that holds a word. -/
opaque Config.rowOf : Nat → Nat → Nat → Nat
/-- R417: what remains of a memory of class PANTRY, IMAGE or HOST without that many rows holds its content: unit of R436, rows. -/
opaque Config.holds : Nat → Nat → Bool

/-- R506: what an image slot holds before the part has written it: half, slot. -/
opaque Config.factoryImage : Nat → Nat → List (BitVec 8)
/-- R416 and R506: a record of the repair log as words: kind, unit. -/
opaque Config.logWords : Nat → Nat → List Nat
/-- R522: a word of a Kneader's page in a dump, which shows its state, trap cause, program counter and registers: Kneader, state, cause, place, draw. -/
opaque Config.kneaderWord : Nat → Nat → Nat → Nat → Nat → Nat

/-- R459: the retry-after hint of a BUSY completion in µs, which no rule but R424 gives a value: by draw. -/
opaque Config.retryAfter : Nat → Nat

/-- R493: the bytes that a quote or a certificate chain takes in the host's buffer: by draw. -/
opaque Config.writtenBytes : Nat → Nat

/-- R446: the speed bits (13, 6 and 5:2) of MDIO register 1.0 by RATE, the device identifier of registers 1.2 and 1.3, and the type
of register 1.7 by RATE and LMODE: IEEE 802.3 and OTP fix them. -/
opaque Config.mdioSpeed : Nat → Nat
opaque Config.mdioDevice : Nat → Nat
opaque Config.mdioType : Nat → Nat → Nat

/-- R417: the unit that holds an SRAM array: half, memory group, class, array to a Kneader (classes 0 and 1) or a lane (class 2). -/
opaque Config.arrayUnit : Nat → Nat → Nat → Nat → Nat

end Sys2Proof
end

