-- ==== Sys2Proof/Machine/Fields.lean ====
section
/-! DEFINITION. The register fields of KD4896 as the register tables of the chapters give them: one constructor of `Fld`
for each field, and for each field its block, offset, low bit, width, access type and reset value. A field of a block
that repeats is told apart by its index number; a field whose register repeats inside its block (a tap, a term) has the
index `subs × block + sub`. -/

namespace Sys2Proof.Machine

/-- The register blocks; beside each, the rule that lays it out and what its index counts. -/
inductive Blk
  /-- R13, per half -/
  | TOP
  /-- R51, TOP_BRIDGE, per half -/
  | BR
  /-- R80 to R86, per lane -/
  | FE
  /-- R121 to R130, per lane -/
  | EQ
  /-- R131, GRP_SLICE_ROT, per group -/
  | SROT
  /-- R166 to R172, per lane -/
  | FEC
  /-- R171, the counters of side s of a lane (2 × lane + s) -/
  | FECS
  /-- R202 to R208, per lane -/
  | DMT
  /-- R209, the table window, per group -/
  | DTW
  /-- R239 to R242, per first lane -/
  | PORT
  /-- R243 to R246, per host lane -/
  | HST
  /-- R271 to R275, per lane -/
  | ACQ
  /-- R304, per loop context -/
  | CTX
  /-- R305, per group -/
  | LG
  /-- R321, per lane -/
  | LS
  /-- R322, per half -/
  | LSH
  /-- R350, per half -/
  | MON
  /-- R350, per sequence -/
  | SEQ
  /-- R350, per configurable input -/
  | MIN
  /-- R351, per monitor entry -/
  | ENT
  /-- R352, per decimation chain -/
  | CH
  /-- R353, per control DAC channel -/
  | CD
  /-- R353, per budget set -/
  | BUD
  /-- R353, per half -/
  | CLRH
  /-- R376, per half -/
  | THM
  /-- R376, per on-die sensor -/
  | DS
  /-- R377, per group -/
  | THG
  /-- R378, per engine sensor -/
  | ENG
  /-- R379, per lane -/
  | FF
  /-- R380, per lane (0 to 47), then per group (48 + g) -/
  | CAL
  /-- R381, per half -/
  | CALH
  /-- R405, per half -/
  | TIME
  /-- R406, per first lane -/
  | TSP
  /-- R434, 4 × half + k -/
  | SP
  /-- R435, per half -/
  | REL
  /-- R436, (7 × half + class) × 4 + memory group -/
  | ECC
  /-- R437, per Kneader -/
  | KND
  /-- R438, per half -/
  | ST
  /-- R471, per half -/
  | HIF
  /-- R473, 8 × half + q -/
  | RING
  /-- R524, per half -/
  | BOOT
  /-- R542, per group -/
  | PG
  /-- R543, per half -/
  | PH
  /-- R561, per lane -/
  | TLM
  /-- R562, 4 × half + k -/
  | PERF
  /-- R563, 4 × half + k -/
  | PC
  /-- R564, per half -/
  | FI
  /-- R564, 16 × half + slot -/
  | FIS
  deriving DecidableEq, Repr

/-- A field of a register; its comment gives the rule, the offset in its block, the bits and the spec's meaning. -/
inductive Fld
  /-- R13, 0x0 [31:16] RO: Part number -/
  | TOP_PART
  /-- R13, 0x0 [15:12] RO: Stepping letter: 0xB = B -/
  | TOP_STEP_MAJ
  /-- R13, 0x0 [11:8] RO: Stepping digit: 0x0 = 0 -/
  | TOP_STEP_MIN
  /-- R13, 0x0 [7:4] RO: 0x0 = half A; 0x1 = half B -/
  | TOP_HALF
  /-- R51, 0x0 [31:16] RO: Number of ISLAND entries since PORST#; saturates at 0xFFFF -/
  | BR_ISLAND_CNT
  /-- R51, 0x0 [8] RO: 0 = minimal status function; 1 = full manager. Half A reads 1; half B reads 1 only while promoted -/
  | BR_ROLE
  /-- R51, 0x0 [7:4] RO: Consecutive missed heartbeats, 0–8 -/
  | BR_MISSED
  /-- R51, 0x0 [1:0] RO: 0 = JOINED; 1 = ISLAND; 2 = REJOINING; 3 = reserved -/
  | BR_STATE
  /-- R80, 0x0 [11] RW: 1 = TX segment rotation enabled -/
  | FE_SEG_ROT_EN
  /-- R80, 0x0 [10] RW: 1 = sub-ADC rotation enabled -/
  | FE_ROT_EN
  /-- R80, 0x0 [9] RW: 1 = receive samples inverted (R59) -/
  | FE_RX_POL
  /-- R80, 0x0 [8] RW: 1 = transmit output inverted (R59) -/
  | FE_TX_POL
  /-- R80, 0x0 [7:6] RW: 0 = AUTO (ACQUIRE outside DATA, TRACK in DATA); 1 = MANUAL; 2, 3 = reserved, commit REJECTED -/
  | FE_AGC_MODE
  /-- R80, 0x0 [5:2] RW: PGA step 0–15 in MANUAL -/
  | FE_MANUAL_STEP
  /-- R80, 0x0 [1] RW: 1 = receive path powered -/
  | FE_RX_EN
  /-- R80, 0x0 [0] RW: 0 = squelch (R57); 1 = transmit -/
  | FE_TX_EN
  /-- R81, 0x4 [13:8] RW: VSW = 300 mV + 10 mV × SWING; 61–63 clamp to 900 mV (R58). Reset gives 600 mVppd -/
  | FE_SWING
  /-- R82, 0x8 [31:24] RW: Target level, signed, 0.25 dB per count, in dBFS; valid −20.0 dB to −3.0 dB. Reset gives −9.0 dBFS -/
  | FE_TARGET
  /-- R82, 0x8 [23:20] RW: Highest PGA step used by ACQUIRE and TRACK -/
  | FE_STEP_MAX
  /-- R82, 0x8 [19:16] RW: Lowest PGA step used; must not exceed STEP_MAX, else commit REJECTED -/
  | FE_STEP_MIN
  /-- R82, 0x8 [15:8] RW: Loss-of-signal threshold below TARGET, unsigned, 0.25 dB per count; valid 6.0 dB to 30.0 dB. Reset gives … -/
  | FE_LOS_THR
  /-- R83, 0xC [31:16] RW: Sub-ADC rotation period in ms; values below 10 clamp to 10, above 10,000 to 10,000. Reset gives 200 ms -/
  | FE_SADC_PERIOD
  /-- R83, 0xC [15:0] RW: Segment swap period in ms; clamped as SADC_PERIOD. Reset gives 50 ms -/
  | FE_SEG_PERIOD
  /-- R84, 0x10 [31:28] RO: Current PGA step -/
  | FE_GAIN_STEP
  /-- R84, 0x10 [27:20] RO: Level error, signed, 0.25 dB per count, saturating at −32.0 dB and +31.75 dB -/
  | FE_LEVEL
  /-- R84, 0x10 [19] RO: Signal detect (R70) -/
  | FE_SIG_DET
  /-- R84, 0x10 [18] RO: 1 = TRACK in force; 0 = ACQUIRE or MANUAL -/
  | FE_AGC_TRACK
  /-- R84, 0x10 [17:16] RO: Failed sub-ADCs, 0–2; sub-ADC spares left = 1 − SADC_FAILED, floored at 0 -/
  | FE_SADC_FAILED
  /-- R84, 0x10 [15:14] RO: Failed TX segments, 0–3; segment spares left = 2 − SEG_FAILED, floored at 0 -/
  | FE_SEG_FAILED
  /-- R84, 0x10 [13] RO: 1 = sub-ADC rotation active -/
  | FE_SADC_ROT
  /-- R84, 0x10 [12] RO: 1 = segment rotation active -/
  | FE_SEG_ROT
  /-- R84, 0x10 [11] RO: 1 = sub-ADC parallel run in progress -/
  | FE_HANDOVER
  /-- R84, 0x10 [10] RO: 1 = clip fraction above 10^−4 over the last 1 ms -/
  | FE_CLIP
  /-- R85, 0x14 [5] W1C: A segment was declared failed (R62) -/
  | FE_SEG_FAIL
  /-- R85, 0x14 [4] W1C: A sub-ADC was declared failed (R73, R74) -/
  | FE_SADC_FAIL
  /-- R85, 0x14 [3] W1C: A handover ended in disagreement (R72) -/
  | FE_HO_DISAGREE
  /-- R85, 0x14 [2] W1C: An overload step was taken (R69) -/
  | FE_OVERLOAD_STEP
  /-- R85, 0x14 [1] W1C: SIG_DET changed -/
  | FE_SIG_CHG
  /-- R85, 0x14 [0] W1C: A TRACK gain step was taken -/
  | FE_EVT_GAIN_STEP
  /-- R86, 0x18 [31:0] RO: Completed sub-ADC handovers; wraps -/
  | FE_HO_CNT
  /-- R86, 0x1C [31:16] RO: Rotations not started or abandoned under R19 or R76; saturates at 0xFFFF -/
  | FE_HO_DEFER
  /-- R86, 0x1C [15:0] RO: Handovers ended in disagreement; saturates at 0xFFFF -/
  | FE_HO_DISAGREE_CNT
  /-- R86, 0x20 [31:0] RO: TRACK gain steps, overload steps included; wraps -/
  | FE_GAIN_CNT
  /-- R121, 0x0 [19:18] RW: Highest effort level: 0–3 = E0–E3 -/
  | EQ_EFFORT_MAX
  /-- R121, 0x0 [17] RW: 1 = port on shared timing loop (R108) -/
  | EQ_LOCKSTEP
  /-- R121, 0x0 [16] RW: 1 = DFE tap in use, LM100 only -/
  | EQ_DFE_EN
  /-- R121, 0x0 [15] RW: 1 = Volterra terms in use at E3 -/
  | EQ_VOLT_EN
  /-- R121, 0x0 [10] RW: 1 = DFE tap adapted -/
  | EQ_AD_DFE
  /-- R121, 0x0 [9] RW: 1 = Volterra coefficients adapted -/
  | EQ_AD_VOLT
  /-- R121, 0x0 [8] RW: 1 = FFE taps adapted -/
  | EQ_AD_FFE
  /-- R122, 0x4 [31:26] RW: Main-cursor tap, valid 1–40 (R101) -/
  | EQ_MAIN
  /-- R122, 0x4 [23:20] RW: Step exponent in acquisition and after effort changes -/
  | EQ_MU_ACQ
  /-- R122, 0x4 [19:16] RW: Step exponent in TRACK -/
  | EQ_MU_TRACK
  /-- R122, 0x4 [15:11] RW: Block length 2^BLOCK_LOG2 symbols, valid 16–24 -/
  | EQ_BLOCK_LOG2
  /-- R122, 0x4 [10:8] RW: Correlator decimation 2^DECIM_LOG2, valid 0–6 -/
  | EQ_DECIM_LOG2
  /-- R122, 0x4 [7:0] RW: Largest update in LSB, valid 1–255 -/
  | EQ_MAX_STEP
  /-- R123, 0x8 [31:28] RW: Proportional gain 2^−KP_SHIFT -/
  | EQ_KP_SHIFT
  /-- R123, 0x8 [27:24] RW: Integral gain 2^−KI_SHIFT; at least KP_SHIFT + 6 -/
  | EQ_KI_SHIFT
  /-- R123, 0x8 [23:16] RW: Signed phase offset, 1/256 UI per count -/
  | EQ_MM_BIAS
  /-- R123, 0x8 [15:12] RW: Lock-step offset gain 2^−LS_SHIFT -/
  | EQ_LS_SHIFT
  /-- R124, 0xC [31:24] RW: Revert ratio, 1/16 per count, valid 20–255; reset gives 2.0 -/
  | EQ_DIV_RATIO
  /-- R124, 0xC [23:16] RW: Consecutive blocks above the ratio, valid 1–255 -/
  | EQ_DIV_BLOCKS
  /-- R124, 0xC [15:0] RW: Checkpoint interval in ms, valid 1–1,000 -/
  | EQ_CKPT_PERIOD
  /-- R125, 0x10 [31:30] RO: Effort level in force, 0–3 = E0–E3 -/
  | EQ_EFFORT
  /-- R125, 0x10 [29] RO: 1 = level below EFFORT_MAX by thermal throttling -/
  | EQ_THROTTLED
  /-- R125, 0x10 [28:27] RO: 0 = OFF; 1 = ACQ; 2 = TRACK; 3 = FROZEN -/
  | EQ_ADAPT
  /-- R125, 0x10 [26] RO: 1 = Kneader unavailable, coefficients held (R104) -/
  | EQ_HOLD
  /-- R125, 0x10 [25] RO: 1 = a checkpoint exists -/
  | EQ_CKPT_VALID
  /-- R125, 0x10 [24] RO: 1 = slice parallel run in progress -/
  | EQ_PARALLEL
  /-- R126, 0x14 [5] W1C: A slice rotation completed -/
  | EQ_SLICE_SWAP
  /-- R126, 0x14 [4] W1C: A slice rotation was abandoned -/
  | EQ_SLICE_ABANDON
  /-- R126, 0x14 [3] W1C: Effort level changed -/
  | EQ_EFFORT_CHG
  /-- R126, 0x14 [2] W1C: Adaptation frozen (R103) -/
  | EQ_FROZEN
  /-- R126, 0x14 [1] W1C: Checkpoint reverted -/
  | EQ_REVERT
  /-- R126, 0x14 [0] W1C: LOCK changed -/
  | EQ_TLOCK_CHG
  /-- R127, 0x18 [31:22] RO: SNR, 0.1 dB per count, 0.0–102.3 dB -/
  | EQ_SNR
  /-- R127, 0x18 [21] RO: 1 = measures valid (R97) -/
  | EQ_VALID
  /-- R127, 0x18 [20:14] RO: Eye opening +1/+3, percent 0–100 -/
  | EQ_EYE_HI
  /-- R127, 0x18 [13:7] RO: Eye opening −1/+1, percent 0–100 -/
  | EQ_EYE_MID
  /-- R127, 0x18 [6:0] RO: Eye opening −3/−1, percent 0–100 -/
  | EQ_EYE_LO
  /-- R128, 0x1C [31:16] RO: Recovered frequency offset, signed, 0.01 ppm per count -/
  | EQ_FREQ
  /-- R128, 0x1C [15:8] RO: Sampling phase, 1/256 UI -/
  | EQ_PHASE
  /-- R128, 0x1C [1] RO: 1 = contributes to the shared loop -/
  | EQ_LS_MEMBER
  /-- R128, 0x1C [0] RO: Timing lock (R107) -/
  | EQ_LOCK
  /-- R129, 0x20 [31:20] RO: Captured c(m − 3) -/
  | EQ_TXF_APPLIED
  /-- R129, 0x20 [11:0] RW: c(m − 3), LSB 2^−10 (R93) -/
  | EQ_TXF_SHADOW
  /-- R129, 0x3C [31:22] RO: Captured d1 -/
  | EQ_D1_APPLIED
  /-- R129, 0x3C [9:0] RW: d1, LSB 2^−9 (R90) -/
  | EQ_D1_SHADOW
  /-- R129, 0x40 [31:18] RO: Captured ck -/
  | EQ_FFE_APPLIED
  /-- R129, 0x40 [13:0] RW: ck, LSB 2^−12 (R88) -/
  | EQ_FFE_SHADOW
  /-- R129, 0x100 [31:20] RO: Captured vj -/
  | EQ_VOLT_APPLIED
  /-- R129, 0x100 [18:16] RW: DBj -/
  | EQ_VOLT_DB
  /-- R129, 0x100 [14:12] RW: DAj -/
  | EQ_VOLT_DA
  /-- R129, 0x100 [11:0] RW: vj, LSB 2^−12 (R89) -/
  | EQ_VOLT_SHADOW
  /-- R130, 0x130 [0] WO: 1 = capture the active bank into APPLIED (R120) -/
  | EQ_CAPTURE
  /-- R130, 0x134 [31:16] RO: Completed slice rotations; wraps -/
  | EQ_SWAP_CNT
  /-- R130, 0x134 [15:8] RO: Reverts; saturates at 0xFF -/
  | EQ_REVERT_CNT
  /-- R130, 0x134 [7:0] RO: DAC code clamps (R94); saturates at 0xFF -/
  | EQ_TX_CLAMP
  /-- R130, 0x140 [7:0] RW: Predistortion entries D(4i+0), signed -/
  | EQ_PRED0
  /-- R130, 0x140 [15:8] RW: Predistortion entries D(4i+1), signed -/
  | EQ_PRED1
  /-- R130, 0x140 [23:16] RW: Predistortion entries D(4i+2), signed -/
  | EQ_PRED2
  /-- R130, 0x140 [31:24] RW: Predistortion entries D(4i+3), signed -/
  | EQ_PRED3
  /-- R131, 0x0 [31:16] RW: Slice rotation period in ms; below 100 clamps to 100. Reset gives 2,000 ms -/
  | SROT_PERIOD
  /-- R131, 0x0 [0] RW: 1 = slice rotation enabled -/
  | SROT_EN
  /-- R166, 0x0 [31:24] RW: Reliability threshold of R147, unsigned, 1/64 per count; reset gives 0.5 -/
  | FEC_REL_THR
  /-- R166, 0x0 [23:18] RW: Largest number of erasures per codeword, valid 0–28 -/
  | FEC_ERASE_MAX
  /-- R166, 0x0 [17] RW: 1 = erasure step of R155 in use -/
  | FEC_ERASE_EN
  /-- R166, 0x0 [16] RW: 1 = parity inverted on uncorrectable codewords (R156) -/
  | FEC_POISON_PARITY
  /-- R166, 0x0 [15:10] RW: Post-cursor ρ = RHO / 64, valid 0–32; changes rejected in DATA (R145) -/
  | FEC_RHO
  /-- R166, 0x0 [0] RW: 0 = FEC-THROUGH; 1 = FEC-SPLIT -/
  | FEC_FEC_MODE
  /-- R167, 0x4 [31:16] RO: Path-metric margin of R148, 1/256 per count -/
  | FEC_PM_MARGIN
  /-- R167, 0x4 [15:14] RO: 0 = hard decision (LM400T or LM400D at E0); 1 = 8-state (LM400T at E1; LM400D at E1–E3, R186); 2 = … -/
  | FEC_DEC
  /-- R167, 0x4 [13] RO: Codeword alignment held (R158) -/
  | FEC_CW_LOCK
  /-- R167, 0x4 [12] RO: 1 = LN_FEC_LAT valid (R163) -/
  | FEC_LAT_VALID
  /-- R168, 0x8 [31:16] RO: Line-to-host latency, 1/16 ns per count -/
  | FEC_RX_LAT
  /-- R168, 0x8 [15:0] RO: Host-to-line latency, 1/16 ns per count -/
  | FEC_TX_LAT
  /-- R169, 0xC [4] W1C: The decoder in service changed (R149) -/
  | FEC_DEC_CHG
  /-- R169, 0xC [3] W1C: A host-received codeword was uncorrectable, in either FEC mode (R156) -/
  | FEC_UNCORR_HOST
  /-- R169, 0xC [2] W1C: A line-received codeword was uncorrectable, in either FEC mode (R156) -/
  | FEC_UNCORR_LINE
  /-- R169, 0xC [1] W1C: CW_LOCK rose or fell (R158) -/
  | FEC_CW_LOCK_CHG
  /-- R169, 0xC [0] W1C: PM_MARGIN fell below REL_THR / 64 at the end of a block -/
  | FEC_MARGIN_LOW
  /-- R170, 0x10 [0] WO: 1 = zero all counters of the lane at the next codeword boundary (R160) -/
  | FEC_CLEAR
  /-- R171, 0x0 [63:0] RO: Codewords checked; wraps -/
  | FECS_CW
  /-- R171, 0x8 [63:0] RO: Corrected codewords; wraps -/
  | FECS_CORR_CW
  /-- R171, 0x10 [63:0] RO: Uncorrectable codewords; wraps -/
  | FECS_UNCORR_CW
  /-- R171, 0x18 [63:0] RO: Symbols in error; wraps -/
  | FECS_SYM_ERR
  /-- R171, 0x20 [63:0] RO: Bits in error; wraps -/
  | FECS_BIT_ERR
  /-- R171, 0x28 [63:0] RO: Codewords delivered through erasures; wraps -/
  | FECS_ERASE_CW
  /-- R172, 0xA0 [31:0] RO: Histogram bin b, 0–16 (R159); saturates -/
  | FEC_HIST
  /-- R172, 0xE4 [31:0] RO: Slicer and decoder disagreements; saturates -/
  | FEC_PRE_DEC_ERR
  /-- R172, 0xE8 [31:0] RO: E0 parity failures; saturates -/
  | FEC_PARITY_FAIL
  /-- R202, 0x0 [31:24] RW: Target margin, 0.1 dB per count, valid 0–150; reset gives 3.0 dB -/
  | DMT_MARGIN
  /-- R202, 0x0 [23:16] RW: Trigger delta, 0.1 dB per count, valid 3–50; reset gives 1.0 dB -/
  | DMT_SWAP_DELTA
  /-- R202, 0x0 [15:12] RW: Largest bits per tone, valid 5–8 -/
  | DMT_BITS_CAP
  /-- R202, 0x0 [11:8] RW: Gain limit, 0.5 dB per count, valid 0–6; reset gives 2.5 dB -/
  | DMT_GAIN_LIM
  /-- R202, 0x0 [0] RW: 1 = automatic triggers (R194) -/
  | DMT_SWAP_AUTO
  /-- R203, 0x4 [31:27] RW: SNR window 2^SNR_LOG2 symbols, valid 10–18 -/
  | DMT_SNR_LOG2
  /-- R203, 0x4 [26:23] RW: Equaliser block 2^FEQ_LOG2 symbols, valid 8–14 -/
  | DMT_FEQ_LOG2
  /-- R203, 0x4 [22:19] RW: Equaliser step exponent -/
  | DMT_FEQ_MU
  /-- R203, 0x4 [18:10] RW: Lead in units of 1,024 symbols, valid 4–256 -/
  | DMT_SWAP_LEAD
  /-- R204, 0x8 [31:24] RW: Sample rms in DAC LSB, 0.25 per count, valid 40–160; reset gives 28.0 -/
  | DMT_RMS
  /-- R204, 0x8 [23:12] RW: Pilot gain, LSB 2^−9 -/
  | DMT_PILOT_GAIN
  /-- R204, 0x8 [11:0] RW: OHC gain, LSB 2^−9 -/
  | DMT_OHC_GAIN
  /-- R205, 0xC [31] RO: Copy whose transmit half is in use -/
  | DMT_TX_ACT
  /-- R205, 0xC [30] RO: Copy whose receive half is in use -/
  | DMT_RX_ACT
  /-- R205, 0xC [29] RO: 1 = transmit-direction swap acknowledged and pending -/
  | DMT_PEND_TX
  /-- R205, 0xC [28] RO: 1 = receive-direction swap in progress -/
  | DMT_PEND_RX
  /-- R205, 0xC [27:18] RO: Data tones with RX_BITS > 0 -/
  | DMT_LOADED
  /-- R205, 0xC [17:10] RO: Smallest loaded-tone margin, signed, 0.1 dB per count -/
  | DMT_MIN_MARGIN
  /-- R205, 0xC [9:0] RO: Tone with that margin -/
  | DMT_MIN_TONE
  /-- R206, 0x10 [6] W1C: Automatic trigger fired (R194) -/
  | DMT_TRIGGER
  /-- R206, 0x10 [5] W1C: Write to an in-use half ignored (R190) -/
  | DMT_ACT_WRITE
  /-- R206, 0x10 [4] W1C: Pilot flag with no swap pending (R196) -/
  | DMT_FLAG_UNEXP
  /-- R206, 0x10 [3] W1C: Loading rejected (R193) -/
  | DMT_LOAD_FAIL
  /-- R206, 0x10 [2] W1C: Bit-swap failed (R198) -/
  | DMT_SWAP_FAIL
  /-- R206, 0x10 [1] W1C: Transmit-direction swap completed -/
  | DMT_SWAP_TX
  /-- R206, 0x10 [0] W1C: Receive-direction swap completed -/
  | DMT_SWAP_RX
  /-- R207, 0x14 [31:0] RO: Receive SYM_IDX (R176) -/
  | DMT_SYM_IDX
  /-- R207, 0x18 [31:0] RO: S of the last receive-direction swap -/
  | DMT_LAST_RX
  /-- R207, 0x1C [31:0] RO: S of the last transmit-direction swap -/
  | DMT_LAST_TX
  /-- R207, 0x20 [31:16] RO: Completed swaps, both directions; wraps -/
  | DMT_SWAP_CNT
  /-- R207, 0x20 [15:0] RO: Failed swaps; saturates at 0xFFFF -/
  | DMT_SWAP_FAIL_CNT
  /-- R207, 0x24 [31:16] RO: DAC clamps (R174); saturates at 0xFFFF -/
  | DMT_TX_CLIP
  /-- R207, 0x24 [15:8] RO: Mean loaded-tone margin, signed, 0.1 dB per count -/
  | DMT_MEAN_MARGIN
  /-- R208, 0x40 [31:16] RO: wj as captured by LN_EQ_LATCH.CAPTURE (R120) -/
  | DMT_SF_APPLIED
  /-- R208, 0x40 [15:0] RW: wj, LSB 2^−14 (R182) -/
  | DMT_SF_SHADOW
  /-- R209, 0x0 [28:26] RW: Lane index 0–7 -/
  | DTW_LANE
  /-- R209, 0x0 [25:24] RW: 0 = copy 0; 1 = copy 1; 2 = tone SNR, read only; 3 = tone equaliser, read only -/
  | DTW_TABLE
  /-- R209, 0x0 [10] RW: 1 = TONE increments after each TDATA access, wrapping from 1,023 to 0 -/
  | DTW_AUTO_INC
  /-- R209, 0x0 [9:0] RW: Tone 0–1,023 -/
  | DTW_TONE
  /-- R239, 0x0 [31] RW: 1 = a port starts at lane i (R211) -/
  | PORT_EN
  /-- R239, 0x0 [30:28] RW: 0 = 100GbE; 1 = 200GbE; 2 = 400GbE; 3 = 800GbE; 4 = 1.6TbE; 5–7 = reserved -/
  | PORT_RATE
  /-- R239, 0x0 [27:26] RW: 0 = LM100; 1 = LM200; 2 = LM400T; 3 = LM400D -/
  | PORT_LMODE
  /-- R239, 0x0 [25:24] RW: 0 = HM56; 1 = HM112; 2 = HM224; 3 = reserved -/
  | PORT_HMODE
  /-- R239, 0x0 [23:20] RW: First host lane index in the group, 0–15 -/
  | PORT_HOST_BASE
  /-- R239, 0x0 [19:18] RW: Port priority 0–3, 0 highest -/
  | PORT_PRIORITY
  /-- R240, 0x4 [31:30] RO: 0 = DISABLED; 1 = DOWN; 2 = UP; 3 = FENCED: the port itself, its group or its half is under a fence (R39). … -/
  | PORT_STATE
  /-- R240, 0x4 [29] RO: 1 = every host lane of the port ACTIVE and host skew within R223 -/
  | PORT_HOST_UP
  /-- R240, 0x4 [28] RO: 1 = every line lane of the port in DATA and line skew within R223 -/
  | PORT_LINE_UP
  /-- R240, 0x4 [27:20] RO: Measured host skew, 0.125 ns per count -/
  | PORT_HOST_SKEW
  /-- R240, 0x4 [19:10] RO: Measured line skew, 0.125 ns per count -/
  | PORT_LINE_SKEW
  /-- R242, 0x8 [3] W1C: Line skew exceeded R223 -/
  | PORT_SKEW_OVR_LINE
  /-- R242, 0x8 [2] W1C: Host skew exceeded R223 -/
  | PORT_SKEW_OVR_HOST
  /-- R242, 0x8 [1] W1C: STATE entered or left UP -/
  | PORT_UP_CHG
  /-- R242, 0x8 [0] W1C: A commit naming the port completed REJECTED under R215 -/
  | PORT_REJECT
  /-- R243, 0x0 [15:9] RW: Training timeout, 100 ms per count, valid 1–127; reset gives 3,000 ms -/
  | HST_TRAIN_TO
  /-- R243, 0x0 [8] RW: 1 = loss in ACTIVE returns to DETECT (R232) -/
  | HST_RETRAIN
  /-- R243, 0x0 [7] RW: 0 = VSR; 1 = MR -/
  | HST_HCLASS
  /-- R243, 0x0 [6] RW: 1 = TRAIN stage used -/
  | HST_TRAIN_EN
  /-- R243, 0x0 [5] RW: 1 = receiver detect used -/
  | HST_DET_EN
  /-- R243, 0x0 [4] RW: 1 = receive PAM4 levels inverted -/
  | HST_RX_POL
  /-- R243, 0x0 [3] RW: 1 = transmit PAM4 levels inverted -/
  | HST_TX_POL
  /-- R243, 0x0 [0] RW: 1 = lane may leave DISABLED; a write of 1 clears LOCK_FAIL -/
  | HST_EN
  /-- R244, 0x4 [31:28] RW: Swing 400 mVppd + 40 mV × SWING, valid 0–15; reset gives 800 mVppd -/
  | HST_SWING
  /-- R244, 0x4 [23:18] RW: c−3, signed, LSB 1/64 -/
  | HST_CM3
  /-- R244, 0x4 [17:12] RW: c−2, signed, LSB 1/64 -/
  | HST_CM2
  /-- R244, 0x4 [11:6] RW: c−1, signed, LSB 1/64; reset gives −0.0625 -/
  | HST_CM1
  /-- R244, 0x4 [5:0] RW: c+1, signed, LSB 1/64 -/
  | HST_CP1
  /-- R245, 0x8 [31:29] RO: 0 = DISABLED; 1 = DETECT; 2 = TRAIN; 3 = LOCK; 4 = CAP; 5 = ACTIVE; 6, 7 = reserved -/
  | HST_STAGE
  /-- R245, 0x8 [28] RO: 1 = far termination and signal seen -/
  | HST_DET
  /-- R245, 0x8 [27] RO: Bit lock (R230) -/
  | HST_BIT_LOCK
  /-- R245, 0x8 [26] RO: Symbol lock (R230) -/
  | HST_SYM_LOCK
  /-- R245, 0x8 [25] RO: Marker lock on every PCS lane of the host lane (R231) -/
  | HST_AM_LOCK
  /-- R245, 0x8 [24] RO: Fallback in force (R229) -/
  | HST_TRAIN_FALLBACK
  /-- R245, 0x8 [23] RO: Held in DETECT (R227) -/
  | HST_LOCK_FAIL
  /-- R245, 0x8 [22:16] RO: CTLE peaking, 0.5 dB per count -/
  | HST_CTLE
  /-- R245, 0x8 [15:6] RO: Decision SNR, 0.1 dB per count -/
  | HST_SNR
  /-- R245, 0x8 [5:0] RO: Main tap in use: c0 = (32 + TX_C0) / 64, valid 0–32, since c0 is at least 0.5 (R234); 32 = 1.0 -/
  | HST_TX_C0
  /-- R246, 0xC [3] W1C: Markers of another format found (R231) -/
  | HST_CAP_MISMATCH
  /-- R246, 0xC [2] W1C: Training timed out -/
  | HST_TRAIN_TO_EVT
  /-- R246, 0xC [1] W1C: Lane left ACTIVE (R232) -/
  | HST_DROP
  /-- R246, 0xC [0] W1C: Stage changed -/
  | HST_STAGE_CHG
  /-- R246, 0x10 [31:16] RO: Returns from ACTIVE; saturates at 0xFFFF -/
  | HST_DROP_CNT
  /-- R246, 0x10 [15:0] RO: Trainings completed; wraps -/
  | HST_TRAIN_CNT
  /-- R271, 0x0 [31:24] RW: Acquisition timeout, 10 ms per count, valid 1–255; reset gives 500 ms -/
  | ACQ_ACQ_TO
  /-- R271, 0x0 [23:16] RW: Correlator threshold, 1/256 per count, valid 32–250; reset gives 0.5 -/
  | ACQ_DET_THR
  /-- R271, 0x0 [15:8] RW: Minimum SNR for RX_READY, 0.1 dB per count; 0 = none -/
  | ACQ_MIN_SNR
  /-- R271, 0x0 [4] RW: 1 = the lane's own signal is accepted as partner (R260) -/
  | ACQ_LOOP_OK
  /-- R271, 0x0 [3] RW: 1 = shortening taps set by acquisition (R265) -/
  | ACQ_SHORT_AUTO
  /-- R271, 0x0 [2] RW: 1 = RHO chosen by acquisition (R262) -/
  | ACQ_RHO_AUTO
  /-- R271, 0x0 [1] RW: 1 = partner PRESET requests applied -/
  | ACQ_REMOTE_FIR
  /-- R271, 0x0 [0] RW: LM100 and LM200 only: 0 = STANDARD; 1 = DRURRINEL -/
  | ACQ_PROTO
  /-- R272, 0x4 [31:28] RO: 0 = IDLE; 1 = LINK; 2 = TRAIN; 3 = DATA; 4 = HOLDOFF; 5 = BLIND; 6–15 = reserved -/
  | ACQ_STATE
  /-- R272, 0x4 [27:25] RO: LM400D in TRAIN: 0–4 as in R265; otherwise 0 -/
  | ACQ_SUBSTATE
  /-- R272, 0x4 [24] RO: Own receiver ready (R263) -/
  | ACQ_RX_READY
  /-- R272, 0x4 [23] RO: Last accepted STATUS had RX_READY = 1 -/
  | ACQ_PEER_READY
  /-- R272, 0x4 [22] RO: Transmit direction in DATA -/
  | ACQ_TX_DATA
  /-- R272, 0x4 [21] RO: Receive direction in DATA -/
  | ACQ_RX_DATA
  /-- R272, 0x4 [20] RO: Value sent in own CAP -/
  | ACQ_PEER_SEEN
  /-- R272, 0x4 [19] RO: Own signal received (R260) -/
  | ACQ_LOOPBACK
  /-- R272, 0x4 [18:13] RO: RHO set by R262 -/
  | ACQ_RHO_CHOSEN
  /-- R272, 0x4 [12:9] RO: 0 = none; 1 = PVER; 2 = MODES; 3 = LMODE; 4 = RATE; 5 = POSITION; 6 = LOOPBACK -/
  | ACQ_MISMATCH
  /-- R273, 0x8 [31:0] RO: Payload bytes 0–3; byte 0 in bits 31:24 -/
  | ACQ_PEER_CAP
  /-- R273, 0xC [31:0] RO: DEV_TAG -/
  | ACQ_PEER_TAG
  /-- R273, 0x10 [5:0] RO: SRC_LANE -/
  | ACQ_PEER_LANE
  /-- R274, 0x14 [5] W1C: The partner refused a PRESET -/
  | ACQ_REFUSED_EVT
  /-- R274, 0x14 [4] W1C: LOOPBACK set -/
  | ACQ_LOOPBACK_EVT
  /-- R274, 0x14 [3] W1C: A non-matching CAP was received -/
  | ACQ_CAP_MISMATCH
  /-- R274, 0x14 [2] W1C: ACQ_TO elapsed, or LOAD attempts ran out -/
  | ACQ_ACQ_FAIL
  /-- R274, 0x14 [1] W1C: The lane left DATA -/
  | ACQ_LEAVE_DATA
  /-- R274, 0x14 [0] W1C: The lane entered DATA -/
  | ACQ_ENTER_DATA
  /-- R275, 0x18 [31:16] RO: Sync-word failures; saturates at 0xFFFF -/
  | ACQ_FALSE_DET
  /-- R275, 0x18 [15:0] RO: HEADER restarts; saturates at 0xFFFF -/
  | ACQ_RESTART
  /-- R275, 0x1C [31:16] RO: HCRC failures; saturates at 0xFFFF -/
  | ACQ_HDR_FAIL
  /-- R275, 0x1C [15:0] RO: CRC-32 failures; saturates at 0xFFFF -/
  | ACQ_CRC_FAIL
  /-- R275, 0x20 [31:16] RO: Aborts under R258; saturates at 0xFFFF -/
  | ACQ_PSTEP_ABORT
  /-- R275, 0x20 [15:0] RO: Frames discarded under R259; saturates at 0xFFFF -/
  | ACQ_FOREIGN
  /-- R275, 0x24 [31:0] RO: Frames accepted; wraps -/
  | ACQ_FRAME_OK
  /-- R275, 0x28 [31:16] RO: Acquisition failures; saturates at 0xFFFF -/
  | ACQ_FAIL_CNT
  /-- R275, 0x28 [15:0] RO: Entries to DATA; wraps -/
  | ACQ_DATA_CNT
  /-- R275, 0x2C [31:0] RO: Time from the last entry to LINK or BLIND until DATA, in µs -/
  | ACQ_ACQ_TIME
  /-- R304, 0x0 [31] RW: 1 = context runs -/
  | CTX_EN
  /-- R304, 0x0 [30] RW: 0 = CLOSED; 1 = OPEN -/
  | CTX_MODE
  /-- R304, 0x0 [29:28] RW: 0 = RING_LOCK; 1 = APC; 2 = RING_BIAS; 3 = GENERAL -/
  | CTX_TYPE
  /-- R304, 0x0 [27] RW: 1 = demodulated feedback (R288) -/
  | CTX_DEMOD
  /-- R304, 0x0 [26] RW: 1 = dither on (R287) -/
  | CTX_DITH_EN
  /-- R304, 0x0 [25] RW: 1 = park fences LANE (R298) -/
  | CTX_FENCE_EN
  /-- R304, 0x0 [24:21] RW: 0–7 = lane index in the group; 8 = none; 9–15 = reserved -/
  | CTX_LANE
  /-- R304, 0x0 [15:0] RW: Sample period in 4 µs frames, valid 1–65,535 -/
  | CTX_PERIOD
  /-- R304, 0x4 [31:22] RW: Feedback source (R280) -/
  | CTX_FB_SRC
  /-- R304, 0x4 [21:20] RW: 0 = none; 1 = control DAC; 2 = context target; 3 = reserved -/
  | CTX_OUT_KIND
  /-- R304, 0x4 [19:12] RW: Global control DAC channel, 0–159 -/
  | CTX_OUT_CD
  /-- R304, 0x4 [11:7] RW: Target context, 0–31 -/
  | CTX_OUT_CTX
  /-- R304, 0x8 [31:16] RW: Offset subtracted from r -/
  | CTX_FB_OFFSET
  /-- R304, 0x8 [4:0] RW: Shift of FB_GAIN -/
  | CTX_FB_SH
  /-- R304, 0xC [31:0] RW: Feedback gain; reset gives x = (r − FB_OFFSET) / 2 -/
  | CTX_FB_GAIN
  /-- R304, 0x10 [31:27] RW: Shift of KP -/
  | CTX_KP_SH
  /-- R304, 0x10 [26:22] RW: Shift of KI -/
  | CTX_KI_SH
  /-- R304, 0x10 [21:17] RW: Shift of KD -/
  | CTX_KD_SH
  /-- R304, 0x10 [16:12] RW: Shift of EYE_G -/
  | CTX_EYE_SH
  /-- R304, 0x10 [11:8] RW: Demodulator filter shift, valid 0–15 -/
  | CTX_DEM_SH
  /-- R304, 0x14 [31:27] RW: Shifts of biquad 1 (0x14) and biquad 2 (0x18) -/
  | CTX_B0_SH
  /-- R304, 0x14 [26:22] RW: Shifts of biquad 1 (0x14) and biquad 2 (0x18) -/
  | CTX_B1_SH
  /-- R304, 0x14 [21:17] RW: Shifts of biquad 1 (0x14) and biquad 2 (0x18) -/
  | CTX_B2_SH
  /-- R304, 0x14 [16:12] RW: Shifts of biquad 1 (0x14) and biquad 2 (0x18) -/
  | CTX_A1_SH
  /-- R304, 0x14 [11:7] RW: Shifts of biquad 1 (0x14) and biquad 2 (0x18) -/
  | CTX_A2_SH
  /-- R304, 0x1C [31:0] RW: PID coefficients (R283) -/
  | CTX_KP
  /-- R304, 0x20 [31:0] RW: PID coefficients (R283) -/
  | CTX_KI
  /-- R304, 0x24 [31:0] RW: PID coefficients (R283) -/
  | CTX_KD
  /-- R304, 0x28 [31:0] RW: Eye-metric gain (R289) -/
  | CTX_EYE_G
  /-- R304, 0x2C [31:0] RW: Biquad 1 B0,B1,B2,A1,A2 -/
  | CTX_BQ1
  /-- R304, 0x40 [31:0] RW: Biquad 2 B0,B1,B2,A1,A2 -/
  | CTX_BQ2
  /-- R304, 0x54 [31:0] RW: Lowest output, Q16.16 -/
  | CTX_OUT_MIN
  /-- R304, 0x58 [31:0] RW: Highest output, Q16.16; reset gives 4,095 -/
  | CTX_OUT_MAX
  /-- R304, 0x5C [31:0] RW: Target, Q16.16 -/
  | CTX_TARGET
  /-- R304, 0x60 [31:0] RW: Profile limits, unsigned Q16.16 per ms, ms², ms³; 0 = unlimited -/
  | CTX_VMAX
  /-- R304, 0x64 [31:0] RW: Profile limits, unsigned Q16.16 per ms, ms², ms³; 0 = unlimited -/
  | CTX_AMAX
  /-- R304, 0x68 [31:0] RW: Profile limits, unsigned Q16.16 per ms, ms², ms³; 0 = unlimited -/
  | CTX_JMAX
  /-- R304, 0x6C [31:16] RW: Dither amplitude, 1/256 output unit per count -/
  | CTX_DITH_AMP
  /-- R304, 0x6C [15:8] RW: Dither period in samples, valid 4–255 -/
  | CTX_DITH_PER
  /-- R304, 0x6C [7:0] RW: Reference delay in samples -/
  | CTX_DITH_PH
  /-- R304, 0x70 [31:24] RW: Eye weight, 1/256 per count -/
  | CTX_MIX
  /-- R304, 0x70 [23:16] RW: Added eye reference delay in samples -/
  | CTX_EYE_DLY
  /-- R304, 0x74 [31:0] RW: Following-error limit, unsigned Q16.16; 0 = off; reset gives 256 -/
  | CTX_FE_LIM
  /-- R304, 0x78 [31:22] RW: Following-error time in ms, valid 1–1,023 -/
  | CTX_FE_TIME
  /-- R304, 0x78 [21:12] RW: Hold timeout in ms, valid 1–1,000 -/
  | CTX_HOLD_TO
  /-- R304, 0x78 [11:8] RW: Invalid samples to fault, valid 1–15 -/
  | CTX_LOST_N
  /-- R304, 0x78 [7:4] RW: Window 2^FREEZE_LOG2 samples, valid 8–15 -/
  | CTX_FREEZE_LOG2
  /-- R304, 0x78 [3:0] RW: Variance floor in LSB²; 0 = off -/
  | CTX_FREEZE_FLOOR
  /-- R304, 0x7C [31:0] RW: Park output, Q16.16 -/
  | CTX_PARK
  /-- R304, 0x80 [31:29] RO: 0 = OFF; 1 = RUN; 2 = HOLD; 3 = PARKING; 4 = PARKED; 5 = EXT_HOLD (R299); 6, 7 = reserved -/
  | CTX_STATE
  /-- R304, 0x80 [28:26] RO: 0 = none; 1 = LOST; 2 = FROZEN; 3 = FOLLOW; 4 = LASER_OFF; 5 = FENCE; 6 = DOWNSTREAM; 7 = reserved -/
  | CTX_CAUSE
  /-- R304, 0x80 [25] RO: R293 -/
  | CTX_AT_TARGET
  /-- R304, 0x80 [24] RO: R284 -/
  | CTX_CLAMP
  /-- R304, 0x80 [23] RO: R284 -/
  | CTX_CEIL
  /-- R304, 0x80 [22] RO: R289 -/
  | CTX_EYE_DROP
  /-- R304, 0x80 [21] RO: Injection running -/
  | CTX_INJ
  /-- R304, 0x84 [3] W1C: Context parked -/
  | CTX_PARKED
  /-- R304, 0x84 [2] W1C: Own fault cleared -/
  | CTX_HOLD_CLR
  /-- R304, 0x84 [1] W1C: HOLD entered -/
  | CTX_HOLD_IN
  /-- R304, 0x84 [0] W1C: EYE_DROP set -/
  | CTX_EYE_EVT
  /-- R304, 0x88 [31:0] RO: Latest p, x, e, o, Q16.16 -/
  | CTX_P_NOW
  /-- R304, 0x8C [31:0] RO: Latest p, x, e, o, Q16.16 -/
  | CTX_X_NOW
  /-- R304, 0x90 [31:0] RO: Latest p, x, e, o, Q16.16 -/
  | CTX_E_NOW
  /-- R304, 0x94 [31:0] RO: Latest p, x, e, o, Q16.16 -/
  | CTX_O_NOW
  /-- R304, 0x98 [31:16] RO: HOLD entries; saturates at 0xFFFF -/
  | CTX_HOLD_CNT
  /-- R304, 0x98 [15:0] RO: SUSPECT samples skipped; saturates at 0xFFFF -/
  | CTX_SKIP_CNT
  /-- R305, 0x0 [31:0] RO: Bit c = 1: context c in HOLD or EXT_HOLD -/
  | LG_HOLD_MAP
  /-- R305, 0x4 [31:0] RO: Bit c = 1: context c PARKING or PARKED -/
  | LG_PARK_MAP
  /-- R305, 0x10 [31] WO: 1 = start injection -/
  | LG_START
  /-- R305, 0x10 [30] WO: 1 = end injection -/
  | LG_STOP
  /-- R305, 0x10 [29:28] RW: 0 = sine; 1 = chirp; 2 = PRBS; 3 = reserved -/
  | LG_TYPE
  /-- R305, 0x10 [27] RW: 0 = target; 1 = output -/
  | LG_POINT
  /-- R305, 0x10 [26:22] RW: Context 0–31 -/
  | LG_INJ_CTX
  /-- R305, 0x14 [31:0] RW: Amplitude, unsigned Q16.16 -/
  | LG_AMP
  /-- R305, 0x18 [31:16] RW: Sine and chirp start period, or PRBS hold, in samples, valid 2–65,535 -/
  | LG_PER0
  /-- R305, 0x18 [15:0] RW: Chirp end period in samples, valid 2–65,535 -/
  | LG_PER1
  /-- R305, 0x1C [31:0] RW: Injection length in samples; 0 = until STOP -/
  | LG_LEN
  /-- R305, 0x20 [31] WO: 1 = arm capture -/
  | LG_ARM
  /-- R305, 0x20 [30:29] RW: 0 = at ARM; 1 = injection start; 2 = hold entry -/
  | LG_TRIG
  /-- R305, 0x20 [28:24] RW: Context 0–31 -/
  | LG_CAP_CTX
  /-- R305, 0x20 [23:21] RW: 0 = none; 1 = r; 2 = x; 3 = p; 4 = e; 5 = u; 6 = o; 7 = injected signal -/
  | LG_SIG_A
  /-- R305, 0x20 [20:18] RW: As SIG_A -/
  | LG_SIG_B
  /-- R305, 0x20 [17:12] RW: Record one sample in DEC + 1 -/
  | LG_DEC
  /-- R305, 0x20 [11:0] RW: Entries kept before the trigger -/
  | LG_PRE
  /-- R305, 0x24 [31] RO: Capture complete -/
  | LG_DONE
  /-- R305, 0x24 [30] RO: Waiting for the trigger -/
  | LG_ARMED
  /-- R305, 0x24 [12:0] RO: Entries recorded, 0–4,096 -/
  | LG_COUNT
  /-- R305, 0x28 [11:0] RW: Entry index; increments after each CAP_DATA read, wrapping from 4,095 to 0 -/
  | LG_CAP_ADDR
  /-- R305, 0x2C [31:0] RO: Entry at CAP_ADDR; r zero-extended, others Q16.16 -/
  | LG_CAP_DATA
  /-- R321, 0x0 [31:24] RWL: Laser-bias channel, global 0–159, owned by the group and named by no other lane; a write naming another … -/
  | LS_LASER_CD
  /-- R321, 0x0 [23:12] RWL: Bias ceiling, control DAC code -/
  | LS_BIAS_CEIL
  /-- R321, 0x0 [11:0] RWL: Monitor ceiling, 0.5 µA per count -/
  | LS_PWR_CEIL
  /-- R321, 0x4 [2] RW: 0 = laser off in APR_HOLD; 1 = reduced power -/
  | LS_APR_MODE
  /-- R321, 0x4 [1] RW: 1 = APR enabled -/
  | LS_APR_EN
  /-- R321, 0x4 [0] RW: 1 = laser may be enabled (R308) -/
  | LS_LASER_EN
  /-- R321, 0x8 [11:0] RW: Reduced-power monitor ceiling, 0.5 µA per count; at most PWR_CEIL, else the commit completes UNSAFE (R310) -/
  | LS_APR_PWR
  /-- R321, 0xC [31:0] RW: APC target in APR_HOLD, Q16.16 in the context's units -/
  | LS_APR_TGT
  /-- R321, 0x10 [31] RO: Pin state -/
  | LS_LASEN
  /-- R321, 0x10 [30:28] RO: 0 = OFF; 1 = ON; 2 = APR_HOLD; 3 = APR_PULSE; 4 = TRIPPED; 5–7 = reserved -/
  | LS_STATE
  /-- R321, 0x10 [27:24] RO: 0 = none; 1 = not locked; 2 = LASER_EN = 0; 3 = SAFE_OFF#; 4 = over-power; 5 = APR; 6 = fence; 7 = group … -/
  | LS_OFF_CAUSE
  /-- R321, 0x10 [23:22] RO: Trips since PORST#, 0–3 -/
  | LS_OVP_CNT
  /-- R321, 0x10 [9:0] RO: Time to the next restart pulse in APR_HOLD, 0.1 s per count; 0 otherwise -/
  | LS_NEXT_PULSE
  /-- R321, 0x14 [3] W1C: A code was clamped at BIAS_CEIL -/
  | LS_CLAMPED
  /-- R321, 0x14 [2] W1C: APR ended -/
  | LS_APR_OUT
  /-- R321, 0x14 [1] W1C: APR_HOLD entered -/
  | LS_APR_IN
  /-- R321, 0x14 [0] W1C: Over-power trip -/
  | LS_OVP_TRIP
  /-- R321, 0x18 [31:16] RO: Clamped codes; saturates at 0xFFFF -/
  | LS_CLAMP_CNT
  /-- R321, 0x18 [15:0] RO: APR_HOLD entries; saturates at 0xFFFF -/
  | LS_APR_CNT
  /-- R322, 0x0 [1] RWL: 1 = automatic release after SAFE_OFF# (R315) -/
  | LSH_SOFF_RESUME
  /-- R322, 0x0 [0] RWL: 1 = ceilings and this register locked until PORST# -/
  | LSH_LOCK
  /-- R322, 0x4 [31] RO: SAFE_OFF# level as seen by the half -/
  | LSH_SOFF_PIN
  /-- R322, 0x4 [30] RO: 1 = lasers held off by SAFE_OFF# pending release; 1 after every PORST# until the first release (R315) -/
  | LSH_SOFF_HELD
  /-- R322, 0x4 [15:0] RO: SAFE_OFF# assertions; saturates at 0xFFFF -/
  | LSH_SOFF_CNT
  /-- R322, 0x8 [0] WO: 1 = release after SAFE_OFF# when SOFF_RESUME = 0 -/
  | LSH_RESUME
  /-- R350, 0x0 [9:0] RW: Test DAC, 2.000 mV per count (R332) -/
  | MON_TDAC_CODE
  /-- R350, 0x4 [31:16] RO: Converter 1 over-range samples; saturates at 0xFFFF -/
  | MON_ORNG_CNT1
  /-- R350, 0x4 [15:0] RO: Converter 0 over-range samples; saturates at 0xFFFF -/
  | MON_ORNG_CNT0
  /-- R350, 0x0 [31] RW: 1 = sequence runs -/
  | SEQ_EN
  /-- R350, 0x0 [30:24] RW: Entries per run, valid 1–64 -/
  | SEQ_LEN
  /-- R350, 0x0 [22:20] RW: Start offset, 500 ns per count -/
  | SEQ_OFFSET
  /-- R350, 0x0 [15:0] RW: Frames of 4 µs, valid 1–65,535; reset gives 100 µs -/
  | SEQ_PERIOD
  /-- R350, 0x4 [31:16] RO: Completed runs; wraps -/
  | SEQ_RUNS
  /-- R350, 0x4 [15:0] RO: Runs lost (R327); saturates at 0xFFFF -/
  | SEQ_OVERRUN
  /-- R350, 0x0 [3] RW: 0 = voltage; 1 = current -/
  | MIN_TYPE
  /-- R350, 0x0 [2:0] RW: RS, valid 0–6 (R324) -/
  | MIN_SENSE
  /-- R351, 0x0 [31] RW: 1 = entry converted -/
  | ENT_EN
  /-- R351, 0x0 [30:23] RW: Input 0–255 (R323); reserved inputs invalid -/
  | ENT_INPUT
  /-- R351, 0x0 [22:20] RW: Added acquisition slots, 0–7 -/
  | ENT_ACQ_EXTRA
  /-- R351, 0x0 [19] RW: 1 = feeds chain CHAIN -/
  | ENT_CHAIN_EN
  /-- R351, 0x0 [18:14] RW: Chain 0–31 -/
  | ENT_CHAIN
  /-- R351, 0x0 [13] RW: 1 = test DAC replaces the pin (R332) -/
  | ENT_TEST
  /-- R351, 0x0 [12] RW: 1 = window comparator on -/
  | ENT_WIN_EN
  /-- R351, 0x0 [11:10] RW: 0 = INFO; 1 = NOTICE; 2 = WARN; 3 = reserved -/
  | ENT_WIN_SEV
  /-- R351, 0x0 [9:0] RW: Re-arm hysteresis in codes -/
  | ENT_HYST
  /-- R351, 0x4 [31:16] RW: Upper band limit -/
  | ENT_HI
  /-- R351, 0x4 [15:0] RW: Lower band limit; must not exceed HI -/
  | ENT_LO
  /-- R351, 0x8 [31:24] RO: Result writes; wraps -/
  | ENT_SEQNUM
  /-- R351, 0x8 [19] RO: Test DAC result -/
  | ENT_TESTED
  /-- R351, 0x8 [18] RO: Chain output valid (R338); 1 without chain -/
  | ENT_SETTLED
  /-- R351, 0x8 [17] RO: R330 or R325 -/
  | ENT_SUSPECT
  /-- R351, 0x8 [16] RO: Over-range (R329) -/
  | ENT_ORNG
  /-- R351, 0x8 [15:0] RO: Result -/
  | ENT_CODE
  /-- R351, 0xC [31:16] RO: SUSPECT results; saturates at 0xFFFF -/
  | ENT_SUSP_CNT
  /-- R351, 0xC [2] RO: Band left and not re-armed (R331) -/
  | ENT_OUTSIDE
  /-- R351, 0xC [1] W1C: Band left -/
  | ENT_WIN_EXIT
  /-- R351, 0xC [0] W1C: Sticky over-range -/
  | ENT_OVR
  /-- R352, 0x0 [31:29] RW: 0 = CUSTOM; 1 = QUICK; 2 = BALANCED; 3 = QUIET; 4 = STILL; 5–7 = reserved -/
  | CH_PRESET
  /-- R352, 0x0 [28] RW: 1 = DC block in use -/
  | CH_HP_EN
  /-- R352, 0x0 [27] RW: 1 = DC estimate held -/
  | CH_HP_FREEZE
  /-- R352, 0x0 [26:22] RW: DC block shift, valid 4–20 -/
  | CH_HP_SH
  /-- R352, 0x0 [21:20] RW: Stages, valid 1–3 -/
  | CH_N
  /-- R352, 0x0 [19:10] RW: L − 1, giving L = 1–1,024 -/
  | CH_LM1
  /-- R352, 0x4 [31:16] RW: Step restart threshold in codes; 0 = off -/
  | CH_STEP_THR
  /-- R352, 0x4 [14:10] RW: Stage shifts, 0–31 -/
  | CH_SH1
  /-- R352, 0x4 [9:5] RW: Stage shifts, 0–31 -/
  | CH_SH2
  /-- R352, 0x4 [4:0] RW: Stage shifts, 0–31 -/
  | CH_SH3
  /-- R352, 0x8 [31] RO: R338 -/
  | CH_SETTLED
  /-- R352, 0x8 [30] RO: Full-width mode (R339) -/
  | CH_FULLW
  /-- R352, 0x8 [27:16] RO: Inputs still needed before SETTLED -/
  | CH_FILL
  /-- R352, 0x8 [15:0] RO: Outputs produced; wraps -/
  | CH_OUT_CNT
  /-- R352, 0xC [31:0] RO: DC estimate d, Q16.16 codes -/
  | CH_HP_EST
  /-- R352, 0x10 [63:0] RO: Full-width result, read under R12 -/
  | CH_FW_RESULT
  /-- R352, 0x18 [0] WO: 1 = restart the chain -/
  | CH_RESTART
  /-- R353, 0x0 [31:30] RW: R340 -/
  | CD_MODE
  /-- R353, 0x0 [29] RW: 1 = slew limiter on -/
  | CD_SLEW_EN
  /-- R353, 0x0 [27:20] RW: Codes per tick, valid 1–255 -/
  | CD_STEP
  /-- R353, 0x0 [15:0] RW: Tick in µs, valid 1–65,535 -/
  | CD_TICK
  /-- R353, 0x4 [11:0] RW: Host request; reads return the last value written -/
  | CD_CODE
  /-- R353, 0x8 [11:0] RW: Clear code -/
  | CD_CLR_CODE
  /-- R353, 0xC [31] RO: Pin high impedance (R344) -/
  | CD_HIZ
  /-- R353, 0xC [30] RO: Disconnected for a mode change (R345) -/
  | CD_DISC
  /-- R353, 0xC [29] RO: At clear code, no request since (R341) -/
  | CD_AT_CLEAR
  /-- R353, 0xC [28] RO: Driven by an enabled context -/
  | CD_LOOP
  /-- R353, 0xC [27] RO: Cut by the supply limit (R342) -/
  | CD_HELD_ILIM
  /-- R353, 0xC [26] RO: Clamped at BIAS_CEIL -/
  | CD_HELD_CEIL
  /-- R353, 0xC [25] RO: Forced to 0 by LASEN low -/
  | CD_FORCED0
  /-- R353, 0xC [24] RO: OUT moving toward REQ -/
  | CD_SLEWING
  /-- R353, 0xC [23:12] RO: Request in force -/
  | CD_REQ
  /-- R353, 0xC [11:0] RO: Output code -/
  | CD_OUT
  /-- R353, 0x0 [25:16] RO: Budget in use, mA -/
  | BUD_USED
  /-- R353, 0x0 [9:0] RW: Budget, mA; reset gives 480 mA -/
  | BUD_ILIM
  /-- R353, 0x0 [31:16] RO: CLR# assertions; saturates at 0xFFFF -/
  | CLRH_CLR_CNT
  /-- R353, 0x0 [0] RO: 1 = CLR# of the half asserted -/
  | CLRH_CLR_PIN
  /-- R376, 0x0 [15:8] RW: Throttle start in °C, valid 85–101; reset gives 97 °C -/
  | THM_TT
  /-- R376, 0x4 [31] RO: Trip latched (R367) -/
  | THM_TRIP
  /-- R376, 0x4 [30] RO: 1 = THERMTRIP# low -/
  | THM_TT_PIN
  /-- R376, 0x4 [29] RO: 0 = own comparator; 1 = pin (R368) -/
  | THM_TRIP_SRC
  /-- R376, 0x4 [28:24] RO: Sensor that tripped, 0–15 -/
  | THM_TRIP_SENSOR
  /-- R376, 0x4 [15:0] RO: Highest valid on-die reading, 1/64 °C -/
  | THM_HOTTEST
  /-- R376, 0x8 [0] WO: 1 = clear the trip (R368) -/
  | THM_CLEAR
  /-- R376, 0x0 [31] RO: 1 = reading valid -/
  | DS_VALID
  /-- R376, 0x0 [30] RO: Faulted (R356) -/
  | DS_FAULT
  /-- R376, 0x0 [15:0] RO: DSs, 1/64 °C -/
  | DS_TEMP
  /-- R377, 0x0 [31:16] RO: R361, 1/64 °C -/
  | THG_TG
  /-- R377, 0x0 [15:0] RO: Te of R362, 1/64 °C -/
  | THG_TE
  /-- R377, 0x4 [31:30] RO: 0 = COOL; 1 = THROTTLE; 2 = FENCE; 3 = reserved -/
  | THG_STAGE
  /-- R377, 0x4 [29:24] RO: R363 -/
  | THG_C
  /-- R377, 0x4 [23:18] RO: R363 -/
  | THG_S
  /-- R377, 0x4 [17:12] RO: U of R363 -/
  | THG_USED
  /-- R377, 0x4 [11:8] RO: Thermally fenced ports, 0–8 -/
  | THG_TFENCED
  /-- R377, 0x8 [7:0] RW: Engine warning in °C; reset gives 85 °C -/
  | THG_ENG_HI
  /-- R377, 0xC [31:16] RO: Ticks with S > 0; saturates at 0xFFFF -/
  | THG_THR_TICKS
  /-- R377, 0xC [3] W1C: R366 -/
  | THG_ENG_HOT
  /-- R377, 0xC [2] W1C: R361 -/
  | THG_SENS_FAULT
  /-- R377, 0xC [1] W1C: R365 -/
  | THG_TFENCE
  /-- R377, 0xC [0] W1C: R366 -/
  | THG_STAGE_CHG
  /-- R378, 0x0 [31] RW: 1 = converted -/
  | ENG_EN
  /-- R378, 0x0 [30:16] RW: Thermistors: resistance at 25 °C, 10 Ω per count; reset gives 10 kΩ. Diodes: reserved -/
  | ENG_RES25
  /-- R378, 0x0 [15:0] RW: Thermistors: β in K; reset gives 3,435 K. Diodes: bits 7:0 NF (R357); reset gives 1.008 -/
  | ENG_BETA_NF
  /-- R378, 0x4 [31] RO: 1 = reading valid -/
  | ENG_VALID
  /-- R378, 0x4 [30:28] RO: 0 = none; 1 = open; 2 = short; 3 = out of range; 4–7 = reserved -/
  | ENG_FAULT
  /-- R378, 0x4 [15:0] RO: 1/64 °C -/
  | ENG_TEMP
  /-- R378, 0x8 [15:0] RO: Thermistors: Rth, 10 Ω per count, saturating. Diodes: reserved -/
  | ENG_RES
  /-- R379, 0x0 [31] RW: 1 = feed-forward on (R360) -/
  | FF_FF_EN
  /-- R379, 0x0 [30:29] RW: Sensor j of the lane's group, as in R378 -/
  | FF_FF_SRC
  /-- R379, 0x0 [15:0] RW: Signed, 2^−8 output unit per °C -/
  | FF_FF_K
  /-- R380, 0x0 [31:0] RO: Passing calibrations; wraps -/
  | CAL_CAL_CNT
  /-- R380, 0x4 [31:0] RO: Seconds [31:0] of the last calibration -/
  | CAL_LAST_SEC
  /-- R380, 0x8 [31] W1C: R371 -/
  | CAL_DISAGREE
  /-- R380, 0x8 [30] RO: R370 -/
  | CAL_INTERP_ONLY
  /-- R380, 0x8 [29:0] RO: Nanoseconds of the last calibration -/
  | CAL_LAST_NS
  /-- R380, 0xC [31:16] RO: Disagreements; saturates at 0xFFFF -/
  | CAL_DIS_CNT
  /-- R381, 0x0 [31:0] RO: Passing monitor ADC calibrations; wraps -/
  | CALH_MON_CAL_CNT
  /-- R381, 0x4 [31:16] RO: Drift detections; saturates at 0xFFFF -/
  | CALH_CDAC_DRIFT_CNT
  /-- R381, 0x4 [15:0] RO: Monitor ADC disagreements; saturates at 0xFFFF -/
  | CALH_MON_DIS_CNT
  /-- R381, 0x8 [10] W1C: Monitor ADC runs disagreed -/
  | CALH_MON_DIS
  /-- R381, 0x8 [9] W1C: R369 -/
  | CALH_CDAC_DRIFT
  /-- R381, 0x8 [8] W1C: R369 -/
  | CALH_CAL_STARVED
  /-- R381, 0x8 [6:0] RO: Local channel last flagged, 0–79 -/
  | CALH_DRIFT_CH
  /-- R405, 0x0 [31] WO: 1 = step to TIME_SET (R383) -/
  | TIME_STEP
  /-- R405, 0x0 [30] RW: 1 = step at the next NS wrap -/
  | TIME_AT_SECOND
  /-- R405, 0x0 [29] RW: 1 = PPS_OUT driven (half A) -/
  | TIME_PPS_OUT_EN
  /-- R405, 0x0 [28] RW: 1 = INFO event per PPS_IN edge -/
  | TIME_PPS_EVT_EN
  /-- R405, 0x0 [8:0] RW: Pulse width in ms, valid 1–500; reset gives 100 ms -/
  | TIME_PPS_WIDTH
  /-- R405, 0x4 [31:0] RW: Addend, 2^−28 ns per count; valid 0x3FFE5C92–0x4001A36E -/
  | TIME_ADDEND
  /-- R405, 0x8 [31:0] WO: Signed offset in ns, valid ±1,000,000,000; starts a slew -/
  | TIME_SLEW
  /-- R405, 0xC [31] RO: 1 = slew in progress -/
  | TIME_ACTIVE
  /-- R405, 0xC [7:0] RW: Slew rate in ppm, valid 1–50 -/
  | TIME_RATE
  /-- R405, 0x10 [15:0] RO: Current FRAC; a read latches 0x60014–0x6001C -/
  | TIME_FRAC
  /-- R405, 0x14 [29:0] RO: Latched NS; bits 31:30 reserved -/
  | TIME_NS
  /-- R405, 0x18 [31:0] RO: Latched SEC bits 31:0 -/
  | TIME_SEC_LO
  /-- R405, 0x1C [15:0] RO: Latched SEC bits 47:32; bits 31:16 reserved -/
  | TIME_SEC_HI
  /-- R405, 0x20 [29:0] RW: Step NS, valid 0–999,999,999 -/
  | TIME_SET_NS
  /-- R405, 0x24 [31:0] RW: Step SEC bits 31:0 -/
  | TIME_SET_SEC_LO
  /-- R405, 0x28 [15:0] RW: Step SEC bits 47:32 -/
  | TIME_SET_SEC_HI
  /-- R405, 0x2C [31:0] RO: Slew remaining, signed ns -/
  | TIME_REMAIN
  /-- R405, 0x30 [31:30] RO: 0 = LEADER; 1 = FOLLOWING; 2 = HOLDOVER; 3 = reserved -/
  | TIME_SYNC
  /-- R405, 0x30 [15:0] RO: Steps since PORST#; wraps -/
  | TIME_STEP_CNT
  /-- R405, 0x34 [31:0] RO: Half B: signed offset from half A, 1/16 ns; half A reads 0 -/
  | TIME_B_OFFSET
  /-- R405, 0x40 [15:0] RO: Captured FRAC; a read latches 0x60044–0x6004C (R387) -/
  | TIME_PPS_FRAC
  /-- R405, 0x44 [29:0] RO: Captured NS -/
  | TIME_PPS_NS
  /-- R405, 0x48 [31:0] RO: Captured SEC bits 31:0 -/
  | TIME_PPS_SEC_LO
  /-- R405, 0x4C [15:0] RO: Captured SEC bits 47:32 -/
  | TIME_PPS_SEC_HI
  /-- R405, 0x50 [15:0] RW: Signed PPS_OUT advance, 1/16 ns; bits 31:16 reserved -/
  | TIME_PPS_OUT_COMP
  /-- R405, 0x54 [5] W1C: A slew of non-zero offset ended with REMAIN reaching 0; a write of 0 does not set it (R383) -/
  | TIME_SLEW_DONE
  /-- R405, 0x54 [4] W1C: A step took place -/
  | TIME_STEP_DONE
  /-- R405, 0x54 [3] W1C: R394 -/
  | TIME_ONE_STEP_ERR
  /-- R405, 0x54 [2] W1C: R399 -/
  | TIME_TSQ_OVF
  /-- R405, 0x54 [1] W1C: R387 -/
  | TIME_PPS_LOST
  /-- R405, 0x54 [0] W1C: R387 -/
  | TIME_PPS_IN_EDGE
  /-- R405, 0x58 [31:24] RO: Records in the staging queue, 0–64 -/
  | TIME_TSQ_FILL
  /-- R405, 0x58 [23:16] RO: Pending scheduled actions, 0–128 -/
  | TIME_PEND_ALL
  /-- R405, 0x58 [15:8] RO: Pending scheduled commits, 0–64 -/
  | TIME_PEND_COMMIT
  /-- R405, 0x58 [7:0] RO: Pending scheduled snapshots, 0–4 -/
  | TIME_PEND_SNAP
  /-- R405, 0x5C [31:0] RO: Records dropped; saturates -/
  | TIME_DROP_CNT
  /-- R405, 0x60 [31:0] RO: Records written to the ring; wraps -/
  | TIME_REC_CNT
  /-- R406, 0x0 [31] RW: 1 = detection on (R389) -/
  | TSP_TS_EN
  /-- R406, 0x0 [30:29] RW: 0 = off; 1 = OVERWRITE; 2 = CORRECT; 3 = reserved -/
  | TSP_ONE_STEP
  /-- R406, 0x0 [28] RW: 1 = insertion (R396) -/
  | TSP_RX_INSERT
  /-- R406, 0x0 [27] RW: 1 = receive records -/
  | TSP_RX_REC
  /-- R406, 0x0 [26:23] RW: Bit t = 1: transmit record for messageType t; reset gives all but Sync -/
  | TSP_TX_REC
  /-- R406, 0x0 [22:20] RW: Bit 0 = Ethernet; bit 1 = IPv4; bit 2 = IPv6 -/
  | TSP_ENCAP
  /-- R406, 0x4 [31:16] RW: Signed, 1/16 ns -/
  | TSP_TX_CORR
  /-- R406, 0x4 [15:0] RW: Signed, 1/16 ns -/
  | TSP_RX_CORR
  /-- R406, 0x8 [31:16] RO: Transmit messages stamped; wraps -/
  | TSP_TX_CNT
  /-- R406, 0x8 [15:0] RO: Receive messages stamped; wraps -/
  | TSP_RX_CNT
  /-- R406, 0xC [31] RO: 1 = LAT_VALID on every lane of the port (R392) -/
  | TSP_ACC_OK
  /-- R406, 0xC [15:8] RO: Modified frames with bad FCS; saturates at 0xFF -/
  | TSP_FCS_BAD
  /-- R406, 0xC [7:0] RO: R394; saturates at 0xFF -/
  | TSP_ONE_STEP_ERR
  /-- R434, 0x0 [31:30] RO: Spare slices left, 0–1; 0 for k = 3 -/
  | SP_SLICE_SPARE
  /-- R434, 0x0 [29:28] RO: Spare group Kneaders (k 0–2) or system Kneaders (k = 3) left, 0–1 -/
  | SP_KND_SPARE
  /-- R434, 0x0 [27:24] RO: Sum over lanes of sub-ADC spares left under R84, 0–8; 0 for k = 3 -/
  | SP_SADC_SPARE
  /-- R434, 0x0 [23:19] RO: Sum over lanes of segment spares left under R84, 0–16; 0 for k = 3 -/
  | SP_SEG_SPARE
  /-- R434, 0x0 [7:0] RO: Arrays with no spare row left; saturates at 0xFF -/
  | SP_ROWS_ZERO
  /-- R434, 0x4 [31:16] RO: Spare rows left in the memory group -/
  | SP_ROWS_LEFT
  /-- R434, 0x4 [15:0] RO: STICKY rows awaiting repair -/
  | SP_STICKY_PEND
  /-- R435, 0x0 [11] W1C: R416 -/
  | REL_LOG_FULL
  /-- R435, 0x0 [10] W1C: R417, R429 -/
  | REL_ROW_EXHAUST
  /-- R435, 0x0 [9] W1C: R430 -/
  | REL_HOST_UE
  /-- R435, 0x0 [8] W1C: R428 -/
  | REL_SCRUB_SLOW
  /-- R435, 0x0 [7] W1C: R421 -/
  | REL_ZEROISED
  /-- R435, 0x0 [6] W1C: R424 -/
  | REL_ST_ABORT
  /-- R435, 0x0 [5] W1C: R425 -/
  | REL_ST_FAIL
  /-- R435, 0x0 [4] W1C: A spare Kneader or slice entered service -/
  | REL_SPARE_USED
  /-- R435, 0x0 [3] W1C: R414 -/
  | REL_KND_FAIL
  /-- R435, 0x0 [2] W1C: R432 -/
  | REL_DMA_UE
  /-- R435, 0x0 [1] W1C: R430 -/
  | REL_POISON
  /-- R435, 0x0 [0] W1C: R429 -/
  | REL_STICKY
  /-- R435, 0x4 [31] RW: 1 = scrubbers run (R428) -/
  | REL_EN
  /-- R435, 0x4 [15:0] RW: Lap limit in ms, valid 100–65,535; reset gives 10,000 ms -/
  | REL_LAP_LIM
  /-- R435, 0x8 [24:16] RO: Repair-log records, 0–256 -/
  | REL_LOG_USED
  /-- R435, 0x10 [31] RO: 1 = working key present -/
  | REL_KEY_LOADED
  /-- R435, 0x10 [30] RO: R422 -/
  | REL_KEY_LOCKED
  /-- R435, 0x10 [29] RO: 1 = TESTMODE or JTAG scan since PORST# -/
  | REL_SCAN_SEEN
  /-- R435, 0x10 [15:0] RO: Zeroisations; saturates at 0xFFFF -/
  | REL_ZERO_CNT
  /-- R436, 0x0 [31:0] RO: Corrected reads; wraps -/
  | ECC_CE_CNT
  /-- R436, 0x4 [31:16] RO: Uncorrectable reads; saturates at 0xFFFF -/
  | ECC_UE_CNT
  /-- R436, 0x4 [15:0] RO: Words poisoned; saturates at 0xFFFF -/
  | ECC_POISON_CNT
  /-- R436, 0x8 [31:16] RO: STICKY marks; saturates at 0xFFFF -/
  | ECC_STICKY_CNT
  /-- R436, 0x8 [15:0] RO: Last scrub lap in ms; saturates at 0xFFFF -/
  | ECC_LAP_MS
  /-- R436, 0xC [31:27] RO: Tracker entries in use, 0–16 -/
  | ECC_TRK_USED
  /-- R436, 0xC [26:17] RO: Array of the last uncorrectable word -/
  | ECC_LAST_ARRAY
  /-- R436, 0xC [16:0] RO: Word within that array -/
  | ECC_LAST_WORD
  /-- R437, 0x0 [31:29] RO: 0 = RUN; 1 = RELOAD; 2 = SUBSTITUTING; 3 = TEST; 4 = FAILED; 5–7 = reserved -/
  | KND_STATE
  /-- R437, 0x0 [28:26] RO: Last trap: 0 = none; 1 = FETCH_UE; 2 = DATA_UE; 3 = WATCHDOG; 4 = ILLEGAL; 5 = self-test fail; 6, 7 = reserved -/
  | KND_CAUSE
  /-- R437, 0x0 [25] RO: 1 = served by the physical spare -/
  | KND_SPARE_IN
  /-- R437, 0x0 [23:16] RO: Traps since PORST#; saturates at 0xFF -/
  | KND_TRAP_CNT
  /-- R438, 0x0 [31:29] RO: 0 = IDLE; 1 = SAVE; 2 = TEST; 3 = RESTORE; 4 = ABORTING; 5–7 = reserved -/
  | ST_STATE
  /-- R438, 0x0 [28:26] RO: 0 = slice; 1 = group Kneader; 2 = system Kneader; 3 = loop engine; 4–7 = reserved -/
  | ST_KIND
  /-- R438, 0x0 [25:20] RO: Lane index in the half (slice), j of R437 (Kneader) or local group (loop engine) -/
  | ST_UNIT
  /-- R438, 0x0 [19:18] RO: Last test: 0 = none; 1 = pass; 2 = fail; 3 = aborted -/
  | ST_RESULT
  /-- R438, 0x0 [17:0] RO: Remaining test time in µs -/
  | ST_REMAIN
  /-- R438, 0x4 [31:0] RO: Last MISR signature -/
  | ST_SIG
  /-- R438, 0x8 [31:16] RO: Tests completed; wraps -/
  | ST_ST_RUNS
  /-- R438, 0x8 [15:0] RO: Tests aborted (R424); saturates at 0xFFFF -/
  | ST_ABORT_CNT
  /-- R471, 0x0 [31] RW: 1 = ring engine of the half runs. On half B, set by promotion and cleared after demotion; host writes … -/
  | HIF_RUN
  /-- R471, 0x0 [20:16] RW: MSI-X vector for HIF_STAT flags -/
  | HIF_ERR_VEC
  /-- R471, 0x0 [1:0] RW: Event severity that sets SEV_HIT: 0 = NOTICE; 1 = WARN; 2 = FAULT; 3 = FATAL -/
  | HIF_ALERT_SEV
  /-- R471, 0x4 [31] RO: 1 = ALERT_A# or ALERT_B# of this half driven low -/
  | HIF_ALERT
  /-- R471, 0x4 [3] W1C: Half B promoted without ring set-up (R47) -/
  | HIF_NO_RINGS
  /-- R471, 0x4 [2] W1C: An event at or above ALERT_SEV was raised -/
  | HIF_SEV_HIT
  /-- R471, 0x4 [1] W1C: A ring halted (R464) -/
  | HIF_RING_HALT
  /-- R471, 0x4 [0] W1C: R442 -/
  | HIF_BAD_ACCESS
  /-- R471, 0x8 [31:6] RW: Status block address bits 31:6 -/
  | HIF_SB_LO
  /-- R471, 0xC [31:0] RW: Status block address bits 63:32 -/
  | HIF_SB_HI
  /-- R471, 0x10 [31:0] RO: Events dropped; wraps -/
  | HIF_EVT_LOST
  /-- R471, 0x14 [31:0] RO: Telemetry records dropped; wraps -/
  | HIF_TLM_LOST
  /-- R471, 0x18 [31] RW: 1 = MDIO slave answers -/
  | HIF_MDIO_EN
  /-- R471, 0x18 [4:0] RW: R445; ports above PRTAD 31 do not answer -/
  | HIF_PRTAD_BASE
  /-- R473, 0x0 [31:6] RW: Base address bits 31:6 -/
  | RING_BASE_LO
  /-- R473, 0x4 [31:0] RW: Base address bits 63:32 -/
  | RING_BASE_HI
  /-- R473, 0x8 [31] RW: 1 = ring enabled -/
  | RING_EN
  /-- R473, 0x8 [30] WO: 1 = reset the ring (R465) -/
  | RING_RESET
  /-- R473, 0x8 [20:16] RW: MSI-X vector; ignored for q 0–3 -/
  | RING_VEC
  /-- R473, 0x8 [3:0] RW: Depth 2^SIZE_LOG2, valid 4–12 -/
  | RING_SIZE_LOG2
  /-- R473, 0xC [31] RO: Ring running -/
  | RING_ACTIVE
  /-- R473, 0xC [30] RO: R464 -/
  | RING_HALTED
  /-- R473, 0xC [29:26] RO: 0 = none; 1–4 as R464 -/
  | RING_ERR
  /-- R473, 0xC [11:0] RO: Device index: head for q 0–3, tail for q 4–7 -/
  | RING_INDEX
  /-- R473, 0x10 [31:24] RW: Moderation count (R444); ignored for q 0–3 -/
  | RING_COUNT
  /-- R473, 0x10 [15:0] RW: Moderation time in µs; 0 = no time limit (R444); ignored for q 0–3 -/
  | RING_TIME
  /-- R524, 0x0 [31:30] RO: 0 = STARTING; 1 = RUN; 2 = STARTER; 3 = FATAL -/
  | BOOT_STATE
  /-- R524, 0x0 [29:27] RO: Start step 0–6 of R497 -/
  | BOOT_STEP
  /-- R524, 0x0 [26:25] RO: 0 = COLD; 1 = WARM; 2 = WARM_FULL (R500) -/
  | BOOT_START_KIND
  /-- R524, 0x0 [24] RO: Running slot: 0 = A; 1 = B -/
  | BOOT_SLOT
  /-- R524, 0x0 [23] RO: 1 = running on trial -/
  | BOOT_TRIAL
  /-- R524, 0x0 [22:20] RO: As the boot record at the start -/
  | BOOT_FAIL_CNT
  /-- R524, 0x0 [19:17] RO: 0 = IDLE; 1 = LOADING; 2 = VERIFYING; 3 = VERIFIED; 4 = PENDING; 5 = TRIAL -/
  | BOOT_UPD_STAGE
  /-- R524, 0x0 [16:15] RO: 0 = NORMAL; 1 = MIGRATED; 2 = DEGRADED -/
  | BOOT_SETTINGS
  /-- R524, 0x0 [14] RO: R500 -/
  | BOOT_PANTRY_VALID
  /-- R524, 0x0 [13] RO: 1 = minimal dump in the pantry -/
  | BOOT_DUMP_HELD
  /-- R524, 0x4 [31:0] RO: Running image VERSION -/
  | BOOT_VERSION
  /-- R524, 0x8 [7:0] RO: Last start or update error: 0 = none; 1 = OTP; 2 = no boot record; 3 = slot A verify; 4 = slot B verify; 5 … -/
  | BOOT_ERR
  /-- R524, 0xC [31:0] RO: Bytes of delta loaded -/
  | BOOT_LOADED
  /-- R524, 0x10 [31:16] WO: 0x5354 with REQ = 1 sets STARTER_REQ -/
  | BOOT_KEY
  /-- R524, 0x10 [0] WO: With KEY: Starter mode at the next start -/
  | BOOT_REQ
  /-- R524, 0x20 [31:6] RW: Image address bits 31:6; STARTER only -/
  | BOOT_ST_ADDR_LO
  /-- R524, 0x24 [31:0] RW: Image address bits 63:32 -/
  | BOOT_ST_ADDR_HI
  /-- R524, 0x28 [31:0] RW: Image length, 512–2,097,152 -/
  | BOOT_ST_LEN
  /-- R524, 0x2C [31] WO: 1 = load (R505) -/
  | BOOT_GO
  /-- R524, 0x2C [30] RW: 0 = A; 1 = B -/
  | BOOT_ST_SLOT
  /-- R524, 0x30 [31] RO: Load in progress -/
  | BOOT_BUSY
  /-- R524, 0x30 [30:28] RO: 0 = none; 1 = OK; 2 = VERIFY; 3 = FLASH; 4 = DMA; 5 = SIZE -/
  | BOOT_ST_RESULT
  /-- R542, 0x0 [31:29] RO: 0 = G-ACTIVE; 1 = G-REST; 2 = G-PROOF; 3 = G-DORMANT; 4 = WAKE_FAILED; 5 = ENTERING; 6 = WAKING; 7 = reserved -/
  | PG_STATE
  /-- R542, 0x0 [28] RO: 1 = pads latched (R526) -/
  | PG_PADS_HELD
  /-- R542, 0x0 [27:26] RO: Block being asked, coded as in R528 less 1 -/
  | PG_HS_BLOCK
  /-- R542, 0x0 [25:22] RO: Last refusal reason (R528) -/
  | PG_LAST_REASON
  /-- R542, 0x0 [21:20] RO: Block of the last refusal -/
  | PG_LAST_BLOCK
  /-- R542, 0x4 [31:16] RW: Proof period in ms, valid 10–65,535; reset gives 1,000 ms -/
  | PG_PERIOD
  /-- R542, 0x4 [15:8] RW: Window, 10 µs per count, valid 3–100; reset gives 100 µs -/
  | PG_WIN
  /-- R542, 0x4 [7:4] RW: Bit s = 1: sequence s runs in each window -/
  | PG_SEQ_MASK
  /-- R542, 0x4 [0] RW: 1 = window exit wakes the group -/
  | PG_AUTO_WAKE
  /-- R542, 0x8 [31:16] RO: Successful wakes; wraps -/
  | PG_WAKE_CNT
  /-- R542, 0x8 [15:0] RO: Proof windows run; wraps -/
  | PG_PROOF_CNT
  /-- R542, 0xC [3] W1C: A handshake was refused -/
  | PG_REFUSED
  /-- R542, 0xC [2] W1C: A wake attempt was repeated -/
  | PG_WAKE_RETRY
  /-- R542, 0xC [1] W1C: WAKE_FAILED entered -/
  | PG_WAKE_FAIL
  /-- R542, 0xC [0] W1C: A window comparator fired in G-PROOF -/
  | PG_PROOF_WAKE
  /-- R543, 0x0 [31:30] RO: 0 = D-ACTIVE; 1 = D-STANDBY; 2 = entering D-OFF; 3 = reserved -/
  | PH_DSTATE
  /-- R543, 0x0 [29:27] RO: 0 = PORST#; 1 = PERST; 2 = soft; 3 = half; 4 = PERST leaving D-OFF; 5–7 = reserved -/
  | PH_LAST_RESET
  /-- R543, 0x0 [26] RO: 1 = the function is in D3hot (R536) -/
  | PH_D3_HOT
  /-- R543, 0x0 [25] W1C: An entry to D-STANDBY requested through D3hot was refused (R536) -/
  | PH_D3_REFUSED
  /-- R543, 0x0 [15:0] RO: Half resets of any kind but PORST#; saturates at 0xFFFF -/
  | PH_RESET_CNT
  /-- R543, 0x4 [31] RO: Pantry valid (R500) -/
  | PH_VALID
  /-- R543, 0x4 [29:21] RO: One bit per area of R537, in table order from bit 21 -/
  | PH_AREA_OK
  /-- R543, 0x4 [8:0] RO: Pantry in use, KiB -/
  | PH_USED_KIB
  /-- R561, 0x0 [31:23] RW: Monitor entry 0–255 of the laser monitor; 0x1FF = none -/
  | TLM_TX_ENTRY
  /-- R561, 0x0 [22:14] RW: Monitor entry of the received-power tap; 0x1FF = none -/
  | TLM_RX_ENTRY
  /-- R561, 0x4 [31:16] RW: Monitor responsivity, 0.1 µA/mW per count, valid 1–65,535; reset gives 100 µA/mW -/
  | TLM_TX_RESP
  /-- R561, 0x4 [15:0] RW: As TX_RESP; reset gives 800 µA/mW -/
  | TLM_RX_RESP
  /-- R561, 0x8 [31:16] RW: Signed, 0.01 dB -/
  | TLM_TX_OFS
  /-- R561, 0x8 [15:0] RW: Signed, 0.01 dB -/
  | TLM_RX_OFS
  /-- R562, 0x0 [31] RW: 1 = BAR4 reads return values (R553) -/
  | PERF_USER_EN
  /-- R562, 0x0 [30] WO: R555 -/
  | PERF_SAMPLE
  /-- R562, 0x0 [29] WO: R550 -/
  | PERF_CLEAR
  /-- R562, 0x0 [15:8] W1C: Bit j: CNTj wrapped -/
  | PERF_OVF
  /-- R562, 0x0 [7:0] RW: Group blocks: bit i = lane index i; management: reserved -/
  | PERF_LANE_MASK
  /-- R562, 0x10 [31] RW: 1 = CNTj counts -/
  | PERF_SEL_EN
  /-- R562, 0x10 [30] RW: R550 -/
  | PERF_SEL_CHAIN
  /-- R562, 0x10 [7:0] RW: R551 -/
  | PERF_SEL_EVT
  /-- R562, 0x30 [31] RW: 1 = histograms record -/
  | PERF_H_EN
  /-- R562, 0x30 [30] WO: 1 = zero both histograms -/
  | PERF_H_CLR
  /-- R562, 0x30 [29:25] RW: BASE of H1, valid 0–17 -/
  | PERF_H1_BASE
  /-- R562, 0x30 [24:20] RW: BASE of H0, valid 0–17 -/
  | PERF_H0_BASE
  /-- R562, 0x30 [19:16] RW: R552 -/
  | PERF_H0_SEL
  /-- R563, 0x0 [63:0] RO: R549, low word first -/
  | PC_CYC
  /-- R563, 0x10 [31:0] RO: R550 -/
  | PC_CNT
  /-- R563, 0x40 [31:0] RO: R552 -/
  | PC_H0
  /-- R563, 0x80 [31:0] RO: R552 -/
  | PC_H1
  /-- R563, 0x100 [31:0] RO: Copy of 0x000–0x0BF (R555) -/
  | PC_SAMP
  /-- R563, 0x1C0 [31:0] RO: Samples taken; wraps -/
  | PC_SAMPLE_SEQ
  /-- R564, 0x0 [31] RO: R557 -/
  | FI_UNLOCKED
  /-- R564, 0x0 [30] WO: 1 = end all injections and lock -/
  | FI_RELOCK
  /-- R564, 0x0 [1] RWL: 1 = DISABLE and this bit locked until PORST# -/
  | FI_LOCK
  /-- R564, 0x0 [0] RWL: 1 = unlock refused -/
  | FI_DISABLE
  /-- R564, 0x4 [31:0] WO: R557 -/
  | FI_FI_KEY
  /-- R564, 0x8 [15:0] RO: Bit s: slot s active; bits 31:16 reserved -/
  | FI_ACTIVE_MAP
  /-- R564, 0x0 [31] RO: Slot in use -/
  | FIS_ACTIVE
  /-- R564, 0x0 [30:27] RO: R558 -/
  | FIS_KIND
  /-- R564, 0x0 [26:23] RO: As R452 -/
  | FIS_SCOPE
  /-- R564, 0x0 [22:17] RO: As R452 -/
  | FIS_ID
  /-- R564, 0x4 [31:0] RO: Symbols, codewords, words or samples injected; wraps -/
  | FIS_INJ_CNT
  /-- R564, 0x8 [31:0] RO: Tag of the FI_SET -/
  | FIS_HOST_TAG
  deriving DecidableEq, Repr

/-- R9: the access types. -/
inductive Acc | rw | ro | w1c | wo | rwl
  deriving DecidableEq, Repr

/-- Where a field lies and how it is accessed. `stride` and `subs` tell a register that repeats inside its block;
`shadow` says that its written value is shadow state (R27). -/
structure FInfo where
  blk : Blk
  off : Nat
  lo : Nat
  width : Nat
  acc : Acc
  shadow : Bool
  stride : Nat
  subs : Nat
  deriving DecidableEq, Repr

set_option maxRecDepth 4000 in
def Fld.info : Fld → FInfo
  | .TOP_PART => ⟨.TOP, 0x0, 16, 16, .ro, false, 0, 1⟩
  | .TOP_STEP_MAJ => ⟨.TOP, 0x0, 12, 4, .ro, false, 0, 1⟩
  | .TOP_STEP_MIN => ⟨.TOP, 0x0, 8, 4, .ro, false, 0, 1⟩
  | .TOP_HALF => ⟨.TOP, 0x0, 4, 4, .ro, false, 0, 1⟩
  | .BR_ISLAND_CNT => ⟨.BR, 0x0, 16, 16, .ro, false, 0, 1⟩
  | .BR_ROLE => ⟨.BR, 0x0, 8, 1, .ro, false, 0, 1⟩
  | .BR_MISSED => ⟨.BR, 0x0, 4, 4, .ro, false, 0, 1⟩
  | .BR_STATE => ⟨.BR, 0x0, 0, 2, .ro, false, 0, 1⟩
  | .FE_SEG_ROT_EN => ⟨.FE, 0x0, 11, 1, .rw, true, 0, 1⟩
  | .FE_ROT_EN => ⟨.FE, 0x0, 10, 1, .rw, true, 0, 1⟩
  | .FE_RX_POL => ⟨.FE, 0x0, 9, 1, .rw, true, 0, 1⟩
  | .FE_TX_POL => ⟨.FE, 0x0, 8, 1, .rw, true, 0, 1⟩
  | .FE_AGC_MODE => ⟨.FE, 0x0, 6, 2, .rw, true, 0, 1⟩
  | .FE_MANUAL_STEP => ⟨.FE, 0x0, 2, 4, .rw, true, 0, 1⟩
  | .FE_RX_EN => ⟨.FE, 0x0, 1, 1, .rw, true, 0, 1⟩
  | .FE_TX_EN => ⟨.FE, 0x0, 0, 1, .rw, true, 0, 1⟩
  | .FE_SWING => ⟨.FE, 0x4, 8, 6, .rw, true, 0, 1⟩
  | .FE_TARGET => ⟨.FE, 0x8, 24, 8, .rw, true, 0, 1⟩
  | .FE_STEP_MAX => ⟨.FE, 0x8, 20, 4, .rw, true, 0, 1⟩
  | .FE_STEP_MIN => ⟨.FE, 0x8, 16, 4, .rw, true, 0, 1⟩
  | .FE_LOS_THR => ⟨.FE, 0x8, 8, 8, .rw, true, 0, 1⟩
  | .FE_SADC_PERIOD => ⟨.FE, 0xC, 16, 16, .rw, true, 0, 1⟩
  | .FE_SEG_PERIOD => ⟨.FE, 0xC, 0, 16, .rw, true, 0, 1⟩
  | .FE_GAIN_STEP => ⟨.FE, 0x10, 28, 4, .ro, false, 0, 1⟩
  | .FE_LEVEL => ⟨.FE, 0x10, 20, 8, .ro, false, 0, 1⟩
  | .FE_SIG_DET => ⟨.FE, 0x10, 19, 1, .ro, false, 0, 1⟩
  | .FE_AGC_TRACK => ⟨.FE, 0x10, 18, 1, .ro, false, 0, 1⟩
  | .FE_SADC_FAILED => ⟨.FE, 0x10, 16, 2, .ro, false, 0, 1⟩
  | .FE_SEG_FAILED => ⟨.FE, 0x10, 14, 2, .ro, false, 0, 1⟩
  | .FE_SADC_ROT => ⟨.FE, 0x10, 13, 1, .ro, false, 0, 1⟩
  | .FE_SEG_ROT => ⟨.FE, 0x10, 12, 1, .ro, false, 0, 1⟩
  | .FE_HANDOVER => ⟨.FE, 0x10, 11, 1, .ro, false, 0, 1⟩
  | .FE_CLIP => ⟨.FE, 0x10, 10, 1, .ro, false, 0, 1⟩
  | .FE_SEG_FAIL => ⟨.FE, 0x14, 5, 1, .w1c, false, 0, 1⟩
  | .FE_SADC_FAIL => ⟨.FE, 0x14, 4, 1, .w1c, false, 0, 1⟩
  | .FE_HO_DISAGREE => ⟨.FE, 0x14, 3, 1, .w1c, false, 0, 1⟩
  | .FE_OVERLOAD_STEP => ⟨.FE, 0x14, 2, 1, .w1c, false, 0, 1⟩
  | .FE_SIG_CHG => ⟨.FE, 0x14, 1, 1, .w1c, false, 0, 1⟩
  | .FE_EVT_GAIN_STEP => ⟨.FE, 0x14, 0, 1, .w1c, false, 0, 1⟩
  | .FE_HO_CNT => ⟨.FE, 0x18, 0, 32, .ro, false, 0, 1⟩
  | .FE_HO_DEFER => ⟨.FE, 0x1C, 16, 16, .ro, false, 0, 1⟩
  | .FE_HO_DISAGREE_CNT => ⟨.FE, 0x1C, 0, 16, .ro, false, 0, 1⟩
  | .FE_GAIN_CNT => ⟨.FE, 0x20, 0, 32, .ro, false, 0, 1⟩
  | .EQ_EFFORT_MAX => ⟨.EQ, 0x0, 18, 2, .rw, true, 0, 1⟩
  | .EQ_LOCKSTEP => ⟨.EQ, 0x0, 17, 1, .rw, true, 0, 1⟩
  | .EQ_DFE_EN => ⟨.EQ, 0x0, 16, 1, .rw, true, 0, 1⟩
  | .EQ_VOLT_EN => ⟨.EQ, 0x0, 15, 1, .rw, true, 0, 1⟩
  | .EQ_AD_DFE => ⟨.EQ, 0x0, 10, 1, .rw, true, 0, 1⟩
  | .EQ_AD_VOLT => ⟨.EQ, 0x0, 9, 1, .rw, true, 0, 1⟩
  | .EQ_AD_FFE => ⟨.EQ, 0x0, 8, 1, .rw, true, 0, 1⟩
  | .EQ_MAIN => ⟨.EQ, 0x4, 26, 6, .rw, true, 0, 1⟩
  | .EQ_MU_ACQ => ⟨.EQ, 0x4, 20, 4, .rw, true, 0, 1⟩
  | .EQ_MU_TRACK => ⟨.EQ, 0x4, 16, 4, .rw, true, 0, 1⟩
  | .EQ_BLOCK_LOG2 => ⟨.EQ, 0x4, 11, 5, .rw, true, 0, 1⟩
  | .EQ_DECIM_LOG2 => ⟨.EQ, 0x4, 8, 3, .rw, true, 0, 1⟩
  | .EQ_MAX_STEP => ⟨.EQ, 0x4, 0, 8, .rw, true, 0, 1⟩
  | .EQ_KP_SHIFT => ⟨.EQ, 0x8, 28, 4, .rw, true, 0, 1⟩
  | .EQ_KI_SHIFT => ⟨.EQ, 0x8, 24, 4, .rw, true, 0, 1⟩
  | .EQ_MM_BIAS => ⟨.EQ, 0x8, 16, 8, .rw, true, 0, 1⟩
  | .EQ_LS_SHIFT => ⟨.EQ, 0x8, 12, 4, .rw, true, 0, 1⟩
  | .EQ_DIV_RATIO => ⟨.EQ, 0xC, 24, 8, .rw, true, 0, 1⟩
  | .EQ_DIV_BLOCKS => ⟨.EQ, 0xC, 16, 8, .rw, true, 0, 1⟩
  | .EQ_CKPT_PERIOD => ⟨.EQ, 0xC, 0, 16, .rw, true, 0, 1⟩
  | .EQ_EFFORT => ⟨.EQ, 0x10, 30, 2, .ro, false, 0, 1⟩
  | .EQ_THROTTLED => ⟨.EQ, 0x10, 29, 1, .ro, false, 0, 1⟩
  | .EQ_ADAPT => ⟨.EQ, 0x10, 27, 2, .ro, false, 0, 1⟩
  | .EQ_HOLD => ⟨.EQ, 0x10, 26, 1, .ro, false, 0, 1⟩
  | .EQ_CKPT_VALID => ⟨.EQ, 0x10, 25, 1, .ro, false, 0, 1⟩
  | .EQ_PARALLEL => ⟨.EQ, 0x10, 24, 1, .ro, false, 0, 1⟩
  | .EQ_SLICE_SWAP => ⟨.EQ, 0x14, 5, 1, .w1c, false, 0, 1⟩
  | .EQ_SLICE_ABANDON => ⟨.EQ, 0x14, 4, 1, .w1c, false, 0, 1⟩
  | .EQ_EFFORT_CHG => ⟨.EQ, 0x14, 3, 1, .w1c, false, 0, 1⟩
  | .EQ_FROZEN => ⟨.EQ, 0x14, 2, 1, .w1c, false, 0, 1⟩
  | .EQ_REVERT => ⟨.EQ, 0x14, 1, 1, .w1c, false, 0, 1⟩
  | .EQ_TLOCK_CHG => ⟨.EQ, 0x14, 0, 1, .w1c, false, 0, 1⟩
  | .EQ_SNR => ⟨.EQ, 0x18, 22, 10, .ro, false, 0, 1⟩
  | .EQ_VALID => ⟨.EQ, 0x18, 21, 1, .ro, false, 0, 1⟩
  | .EQ_EYE_HI => ⟨.EQ, 0x18, 14, 7, .ro, false, 0, 1⟩
  | .EQ_EYE_MID => ⟨.EQ, 0x18, 7, 7, .ro, false, 0, 1⟩
  | .EQ_EYE_LO => ⟨.EQ, 0x18, 0, 7, .ro, false, 0, 1⟩
  | .EQ_FREQ => ⟨.EQ, 0x1C, 16, 16, .ro, false, 0, 1⟩
  | .EQ_PHASE => ⟨.EQ, 0x1C, 8, 8, .ro, false, 0, 1⟩
  | .EQ_LS_MEMBER => ⟨.EQ, 0x1C, 1, 1, .ro, false, 0, 1⟩
  | .EQ_LOCK => ⟨.EQ, 0x1C, 0, 1, .ro, false, 0, 1⟩
  | .EQ_TXF_APPLIED => ⟨.EQ, 0x20, 20, 12, .ro, false, 4, 7⟩
  | .EQ_TXF_SHADOW => ⟨.EQ, 0x20, 0, 12, .rw, true, 4, 7⟩
  | .EQ_D1_APPLIED => ⟨.EQ, 0x3C, 22, 10, .ro, false, 0, 1⟩
  | .EQ_D1_SHADOW => ⟨.EQ, 0x3C, 0, 10, .rw, true, 0, 1⟩
  | .EQ_FFE_APPLIED => ⟨.EQ, 0x40, 18, 14, .ro, false, 4, 48⟩
  | .EQ_FFE_SHADOW => ⟨.EQ, 0x40, 0, 14, .rw, true, 4, 48⟩
  | .EQ_VOLT_APPLIED => ⟨.EQ, 0x100, 20, 12, .ro, false, 4, 12⟩
  | .EQ_VOLT_DB => ⟨.EQ, 0x100, 16, 3, .rw, true, 4, 12⟩
  | .EQ_VOLT_DA => ⟨.EQ, 0x100, 12, 3, .rw, true, 4, 12⟩
  | .EQ_VOLT_SHADOW => ⟨.EQ, 0x100, 0, 12, .rw, true, 4, 12⟩
  | .EQ_CAPTURE => ⟨.EQ, 0x130, 0, 1, .wo, false, 0, 1⟩
  | .EQ_SWAP_CNT => ⟨.EQ, 0x134, 16, 16, .ro, false, 0, 1⟩
  | .EQ_REVERT_CNT => ⟨.EQ, 0x134, 8, 8, .ro, false, 0, 1⟩
  | .EQ_TX_CLAMP => ⟨.EQ, 0x134, 0, 8, .ro, false, 0, 1⟩
  | .EQ_PRED0 => ⟨.EQ, 0x140, 0, 8, .rw, true, 4, 16⟩
  | .EQ_PRED1 => ⟨.EQ, 0x140, 8, 8, .rw, true, 4, 16⟩
  | .EQ_PRED2 => ⟨.EQ, 0x140, 16, 8, .rw, true, 4, 16⟩
  | .EQ_PRED3 => ⟨.EQ, 0x140, 24, 8, .rw, true, 4, 16⟩
  | .SROT_PERIOD => ⟨.SROT, 0x0, 16, 16, .rw, true, 0, 1⟩
  | .SROT_EN => ⟨.SROT, 0x0, 0, 1, .rw, true, 0, 1⟩
  | .FEC_REL_THR => ⟨.FEC, 0x0, 24, 8, .rw, true, 0, 1⟩
  | .FEC_ERASE_MAX => ⟨.FEC, 0x0, 18, 6, .rw, true, 0, 1⟩
  | .FEC_ERASE_EN => ⟨.FEC, 0x0, 17, 1, .rw, true, 0, 1⟩
  | .FEC_POISON_PARITY => ⟨.FEC, 0x0, 16, 1, .rw, true, 0, 1⟩
  | .FEC_RHO => ⟨.FEC, 0x0, 10, 6, .rw, true, 0, 1⟩
  | .FEC_FEC_MODE => ⟨.FEC, 0x0, 0, 1, .rw, true, 0, 1⟩
  | .FEC_PM_MARGIN => ⟨.FEC, 0x4, 16, 16, .ro, false, 0, 1⟩
  | .FEC_DEC => ⟨.FEC, 0x4, 14, 2, .ro, false, 0, 1⟩
  | .FEC_CW_LOCK => ⟨.FEC, 0x4, 13, 1, .ro, false, 0, 1⟩
  | .FEC_LAT_VALID => ⟨.FEC, 0x4, 12, 1, .ro, false, 0, 1⟩
  | .FEC_RX_LAT => ⟨.FEC, 0x8, 16, 16, .ro, false, 0, 1⟩
  | .FEC_TX_LAT => ⟨.FEC, 0x8, 0, 16, .ro, false, 0, 1⟩
  | .FEC_DEC_CHG => ⟨.FEC, 0xC, 4, 1, .w1c, false, 0, 1⟩
  | .FEC_UNCORR_HOST => ⟨.FEC, 0xC, 3, 1, .w1c, false, 0, 1⟩
  | .FEC_UNCORR_LINE => ⟨.FEC, 0xC, 2, 1, .w1c, false, 0, 1⟩
  | .FEC_CW_LOCK_CHG => ⟨.FEC, 0xC, 1, 1, .w1c, false, 0, 1⟩
  | .FEC_MARGIN_LOW => ⟨.FEC, 0xC, 0, 1, .w1c, false, 0, 1⟩
  | .FEC_CLEAR => ⟨.FEC, 0x10, 0, 1, .wo, false, 0, 1⟩
  | .FECS_CW => ⟨.FECS, 0x0, 0, 64, .ro, false, 0, 1⟩
  | .FECS_CORR_CW => ⟨.FECS, 0x8, 0, 64, .ro, false, 0, 1⟩
  | .FECS_UNCORR_CW => ⟨.FECS, 0x10, 0, 64, .ro, false, 0, 1⟩
  | .FECS_SYM_ERR => ⟨.FECS, 0x18, 0, 64, .ro, false, 0, 1⟩
  | .FECS_BIT_ERR => ⟨.FECS, 0x20, 0, 64, .ro, false, 0, 1⟩
  | .FECS_ERASE_CW => ⟨.FECS, 0x28, 0, 64, .ro, false, 0, 1⟩
  | .FEC_HIST => ⟨.FEC, 0xA0, 0, 32, .ro, false, 4, 17⟩
  | .FEC_PRE_DEC_ERR => ⟨.FEC, 0xE4, 0, 32, .ro, false, 0, 1⟩
  | .FEC_PARITY_FAIL => ⟨.FEC, 0xE8, 0, 32, .ro, false, 0, 1⟩
  | .DMT_MARGIN => ⟨.DMT, 0x0, 24, 8, .rw, true, 0, 1⟩
  | .DMT_SWAP_DELTA => ⟨.DMT, 0x0, 16, 8, .rw, true, 0, 1⟩
  | .DMT_BITS_CAP => ⟨.DMT, 0x0, 12, 4, .rw, true, 0, 1⟩
  | .DMT_GAIN_LIM => ⟨.DMT, 0x0, 8, 4, .rw, true, 0, 1⟩
  | .DMT_SWAP_AUTO => ⟨.DMT, 0x0, 0, 1, .rw, true, 0, 1⟩
  | .DMT_SNR_LOG2 => ⟨.DMT, 0x4, 27, 5, .rw, true, 0, 1⟩
  | .DMT_FEQ_LOG2 => ⟨.DMT, 0x4, 23, 4, .rw, true, 0, 1⟩
  | .DMT_FEQ_MU => ⟨.DMT, 0x4, 19, 4, .rw, true, 0, 1⟩
  | .DMT_SWAP_LEAD => ⟨.DMT, 0x4, 10, 9, .rw, true, 0, 1⟩
  | .DMT_RMS => ⟨.DMT, 0x8, 24, 8, .rw, true, 0, 1⟩
  | .DMT_PILOT_GAIN => ⟨.DMT, 0x8, 12, 12, .rw, true, 0, 1⟩
  | .DMT_OHC_GAIN => ⟨.DMT, 0x8, 0, 12, .rw, true, 0, 1⟩
  | .DMT_TX_ACT => ⟨.DMT, 0xC, 31, 1, .ro, false, 0, 1⟩
  | .DMT_RX_ACT => ⟨.DMT, 0xC, 30, 1, .ro, false, 0, 1⟩
  | .DMT_PEND_TX => ⟨.DMT, 0xC, 29, 1, .ro, false, 0, 1⟩
  | .DMT_PEND_RX => ⟨.DMT, 0xC, 28, 1, .ro, false, 0, 1⟩
  | .DMT_LOADED => ⟨.DMT, 0xC, 18, 10, .ro, false, 0, 1⟩
  | .DMT_MIN_MARGIN => ⟨.DMT, 0xC, 10, 8, .ro, false, 0, 1⟩
  | .DMT_MIN_TONE => ⟨.DMT, 0xC, 0, 10, .ro, false, 0, 1⟩
  | .DMT_TRIGGER => ⟨.DMT, 0x10, 6, 1, .w1c, false, 0, 1⟩
  | .DMT_ACT_WRITE => ⟨.DMT, 0x10, 5, 1, .w1c, false, 0, 1⟩
  | .DMT_FLAG_UNEXP => ⟨.DMT, 0x10, 4, 1, .w1c, false, 0, 1⟩
  | .DMT_LOAD_FAIL => ⟨.DMT, 0x10, 3, 1, .w1c, false, 0, 1⟩
  | .DMT_SWAP_FAIL => ⟨.DMT, 0x10, 2, 1, .w1c, false, 0, 1⟩
  | .DMT_SWAP_TX => ⟨.DMT, 0x10, 1, 1, .w1c, false, 0, 1⟩
  | .DMT_SWAP_RX => ⟨.DMT, 0x10, 0, 1, .w1c, false, 0, 1⟩
  | .DMT_SYM_IDX => ⟨.DMT, 0x14, 0, 32, .ro, false, 0, 1⟩
  | .DMT_LAST_RX => ⟨.DMT, 0x18, 0, 32, .ro, false, 0, 1⟩
  | .DMT_LAST_TX => ⟨.DMT, 0x1C, 0, 32, .ro, false, 0, 1⟩
  | .DMT_SWAP_CNT => ⟨.DMT, 0x20, 16, 16, .ro, false, 0, 1⟩
  | .DMT_SWAP_FAIL_CNT => ⟨.DMT, 0x20, 0, 16, .ro, false, 0, 1⟩
  | .DMT_TX_CLIP => ⟨.DMT, 0x24, 16, 16, .ro, false, 0, 1⟩
  | .DMT_MEAN_MARGIN => ⟨.DMT, 0x24, 8, 8, .ro, false, 0, 1⟩
  | .DMT_SF_APPLIED => ⟨.DMT, 0x40, 16, 16, .ro, false, 4, 16⟩
  | .DMT_SF_SHADOW => ⟨.DMT, 0x40, 0, 16, .rw, true, 4, 16⟩
  | .DTW_LANE => ⟨.DTW, 0x0, 26, 3, .rw, false, 0, 1⟩
  | .DTW_TABLE => ⟨.DTW, 0x0, 24, 2, .rw, false, 0, 1⟩
  | .DTW_AUTO_INC => ⟨.DTW, 0x0, 10, 1, .rw, false, 0, 1⟩
  | .DTW_TONE => ⟨.DTW, 0x0, 0, 10, .rw, false, 0, 1⟩
  | .PORT_EN => ⟨.PORT, 0x0, 31, 1, .rw, true, 0, 1⟩
  | .PORT_RATE => ⟨.PORT, 0x0, 28, 3, .rw, true, 0, 1⟩
  | .PORT_LMODE => ⟨.PORT, 0x0, 26, 2, .rw, true, 0, 1⟩
  | .PORT_HMODE => ⟨.PORT, 0x0, 24, 2, .rw, true, 0, 1⟩
  | .PORT_HOST_BASE => ⟨.PORT, 0x0, 20, 4, .rw, true, 0, 1⟩
  | .PORT_PRIORITY => ⟨.PORT, 0x0, 18, 2, .rw, true, 0, 1⟩
  | .PORT_STATE => ⟨.PORT, 0x4, 30, 2, .ro, false, 0, 1⟩
  | .PORT_HOST_UP => ⟨.PORT, 0x4, 29, 1, .ro, false, 0, 1⟩
  | .PORT_LINE_UP => ⟨.PORT, 0x4, 28, 1, .ro, false, 0, 1⟩
  | .PORT_HOST_SKEW => ⟨.PORT, 0x4, 20, 8, .ro, false, 0, 1⟩
  | .PORT_LINE_SKEW => ⟨.PORT, 0x4, 10, 10, .ro, false, 0, 1⟩
  | .PORT_SKEW_OVR_LINE => ⟨.PORT, 0x8, 3, 1, .w1c, false, 0, 1⟩
  | .PORT_SKEW_OVR_HOST => ⟨.PORT, 0x8, 2, 1, .w1c, false, 0, 1⟩
  | .PORT_UP_CHG => ⟨.PORT, 0x8, 1, 1, .w1c, false, 0, 1⟩
  | .PORT_REJECT => ⟨.PORT, 0x8, 0, 1, .w1c, false, 0, 1⟩
  | .HST_TRAIN_TO => ⟨.HST, 0x0, 9, 7, .rw, true, 0, 1⟩
  | .HST_RETRAIN => ⟨.HST, 0x0, 8, 1, .rw, true, 0, 1⟩
  | .HST_HCLASS => ⟨.HST, 0x0, 7, 1, .rw, true, 0, 1⟩
  | .HST_TRAIN_EN => ⟨.HST, 0x0, 6, 1, .rw, true, 0, 1⟩
  | .HST_DET_EN => ⟨.HST, 0x0, 5, 1, .rw, true, 0, 1⟩
  | .HST_RX_POL => ⟨.HST, 0x0, 4, 1, .rw, true, 0, 1⟩
  | .HST_TX_POL => ⟨.HST, 0x0, 3, 1, .rw, true, 0, 1⟩
  | .HST_EN => ⟨.HST, 0x0, 0, 1, .rw, true, 0, 1⟩
  | .HST_SWING => ⟨.HST, 0x4, 28, 4, .rw, true, 0, 1⟩
  | .HST_CM3 => ⟨.HST, 0x4, 18, 6, .rw, true, 0, 1⟩
  | .HST_CM2 => ⟨.HST, 0x4, 12, 6, .rw, true, 0, 1⟩
  | .HST_CM1 => ⟨.HST, 0x4, 6, 6, .rw, true, 0, 1⟩
  | .HST_CP1 => ⟨.HST, 0x4, 0, 6, .rw, true, 0, 1⟩
  | .HST_STAGE => ⟨.HST, 0x8, 29, 3, .ro, false, 0, 1⟩
  | .HST_DET => ⟨.HST, 0x8, 28, 1, .ro, false, 0, 1⟩
  | .HST_BIT_LOCK => ⟨.HST, 0x8, 27, 1, .ro, false, 0, 1⟩
  | .HST_SYM_LOCK => ⟨.HST, 0x8, 26, 1, .ro, false, 0, 1⟩
  | .HST_AM_LOCK => ⟨.HST, 0x8, 25, 1, .ro, false, 0, 1⟩
  | .HST_TRAIN_FALLBACK => ⟨.HST, 0x8, 24, 1, .ro, false, 0, 1⟩
  | .HST_LOCK_FAIL => ⟨.HST, 0x8, 23, 1, .ro, false, 0, 1⟩
  | .HST_CTLE => ⟨.HST, 0x8, 16, 7, .ro, false, 0, 1⟩
  | .HST_SNR => ⟨.HST, 0x8, 6, 10, .ro, false, 0, 1⟩
  | .HST_TX_C0 => ⟨.HST, 0x8, 0, 6, .ro, false, 0, 1⟩
  | .HST_CAP_MISMATCH => ⟨.HST, 0xC, 3, 1, .w1c, false, 0, 1⟩
  | .HST_TRAIN_TO_EVT => ⟨.HST, 0xC, 2, 1, .w1c, false, 0, 1⟩
  | .HST_DROP => ⟨.HST, 0xC, 1, 1, .w1c, false, 0, 1⟩
  | .HST_STAGE_CHG => ⟨.HST, 0xC, 0, 1, .w1c, false, 0, 1⟩
  | .HST_DROP_CNT => ⟨.HST, 0x10, 16, 16, .ro, false, 0, 1⟩
  | .HST_TRAIN_CNT => ⟨.HST, 0x10, 0, 16, .ro, false, 0, 1⟩
  | .ACQ_ACQ_TO => ⟨.ACQ, 0x0, 24, 8, .rw, true, 0, 1⟩
  | .ACQ_DET_THR => ⟨.ACQ, 0x0, 16, 8, .rw, true, 0, 1⟩
  | .ACQ_MIN_SNR => ⟨.ACQ, 0x0, 8, 8, .rw, true, 0, 1⟩
  | .ACQ_LOOP_OK => ⟨.ACQ, 0x0, 4, 1, .rw, true, 0, 1⟩
  | .ACQ_SHORT_AUTO => ⟨.ACQ, 0x0, 3, 1, .rw, true, 0, 1⟩
  | .ACQ_RHO_AUTO => ⟨.ACQ, 0x0, 2, 1, .rw, true, 0, 1⟩
  | .ACQ_REMOTE_FIR => ⟨.ACQ, 0x0, 1, 1, .rw, true, 0, 1⟩
  | .ACQ_PROTO => ⟨.ACQ, 0x0, 0, 1, .rw, true, 0, 1⟩
  | .ACQ_STATE => ⟨.ACQ, 0x4, 28, 4, .ro, false, 0, 1⟩
  | .ACQ_SUBSTATE => ⟨.ACQ, 0x4, 25, 3, .ro, false, 0, 1⟩
  | .ACQ_RX_READY => ⟨.ACQ, 0x4, 24, 1, .ro, false, 0, 1⟩
  | .ACQ_PEER_READY => ⟨.ACQ, 0x4, 23, 1, .ro, false, 0, 1⟩
  | .ACQ_TX_DATA => ⟨.ACQ, 0x4, 22, 1, .ro, false, 0, 1⟩
  | .ACQ_RX_DATA => ⟨.ACQ, 0x4, 21, 1, .ro, false, 0, 1⟩
  | .ACQ_PEER_SEEN => ⟨.ACQ, 0x4, 20, 1, .ro, false, 0, 1⟩
  | .ACQ_LOOPBACK => ⟨.ACQ, 0x4, 19, 1, .ro, false, 0, 1⟩
  | .ACQ_RHO_CHOSEN => ⟨.ACQ, 0x4, 13, 6, .ro, false, 0, 1⟩
  | .ACQ_MISMATCH => ⟨.ACQ, 0x4, 9, 4, .ro, false, 0, 1⟩
  | .ACQ_PEER_CAP => ⟨.ACQ, 0x8, 0, 32, .ro, false, 0, 1⟩
  | .ACQ_PEER_TAG => ⟨.ACQ, 0xC, 0, 32, .ro, false, 0, 1⟩
  | .ACQ_PEER_LANE => ⟨.ACQ, 0x10, 0, 6, .ro, false, 0, 1⟩
  | .ACQ_REFUSED_EVT => ⟨.ACQ, 0x14, 5, 1, .w1c, false, 0, 1⟩
  | .ACQ_LOOPBACK_EVT => ⟨.ACQ, 0x14, 4, 1, .w1c, false, 0, 1⟩
  | .ACQ_CAP_MISMATCH => ⟨.ACQ, 0x14, 3, 1, .w1c, false, 0, 1⟩
  | .ACQ_ACQ_FAIL => ⟨.ACQ, 0x14, 2, 1, .w1c, false, 0, 1⟩
  | .ACQ_LEAVE_DATA => ⟨.ACQ, 0x14, 1, 1, .w1c, false, 0, 1⟩
  | .ACQ_ENTER_DATA => ⟨.ACQ, 0x14, 0, 1, .w1c, false, 0, 1⟩
  | .ACQ_FALSE_DET => ⟨.ACQ, 0x18, 16, 16, .ro, false, 0, 1⟩
  | .ACQ_RESTART => ⟨.ACQ, 0x18, 0, 16, .ro, false, 0, 1⟩
  | .ACQ_HDR_FAIL => ⟨.ACQ, 0x1C, 16, 16, .ro, false, 0, 1⟩
  | .ACQ_CRC_FAIL => ⟨.ACQ, 0x1C, 0, 16, .ro, false, 0, 1⟩
  | .ACQ_PSTEP_ABORT => ⟨.ACQ, 0x20, 16, 16, .ro, false, 0, 1⟩
  | .ACQ_FOREIGN => ⟨.ACQ, 0x20, 0, 16, .ro, false, 0, 1⟩
  | .ACQ_FRAME_OK => ⟨.ACQ, 0x24, 0, 32, .ro, false, 0, 1⟩
  | .ACQ_FAIL_CNT => ⟨.ACQ, 0x28, 16, 16, .ro, false, 0, 1⟩
  | .ACQ_DATA_CNT => ⟨.ACQ, 0x28, 0, 16, .ro, false, 0, 1⟩
  | .ACQ_ACQ_TIME => ⟨.ACQ, 0x2C, 0, 32, .ro, false, 0, 1⟩
  | .CTX_EN => ⟨.CTX, 0x0, 31, 1, .rw, true, 0, 1⟩
  | .CTX_MODE => ⟨.CTX, 0x0, 30, 1, .rw, true, 0, 1⟩
  | .CTX_TYPE => ⟨.CTX, 0x0, 28, 2, .rw, true, 0, 1⟩
  | .CTX_DEMOD => ⟨.CTX, 0x0, 27, 1, .rw, true, 0, 1⟩
  | .CTX_DITH_EN => ⟨.CTX, 0x0, 26, 1, .rw, true, 0, 1⟩
  | .CTX_FENCE_EN => ⟨.CTX, 0x0, 25, 1, .rw, true, 0, 1⟩
  | .CTX_LANE => ⟨.CTX, 0x0, 21, 4, .rw, true, 0, 1⟩
  | .CTX_PERIOD => ⟨.CTX, 0x0, 0, 16, .rw, true, 0, 1⟩
  | .CTX_FB_SRC => ⟨.CTX, 0x4, 22, 10, .rw, true, 0, 1⟩
  | .CTX_OUT_KIND => ⟨.CTX, 0x4, 20, 2, .rw, true, 0, 1⟩
  | .CTX_OUT_CD => ⟨.CTX, 0x4, 12, 8, .rw, true, 0, 1⟩
  | .CTX_OUT_CTX => ⟨.CTX, 0x4, 7, 5, .rw, true, 0, 1⟩
  | .CTX_FB_OFFSET => ⟨.CTX, 0x8, 16, 16, .rw, true, 0, 1⟩
  | .CTX_FB_SH => ⟨.CTX, 0x8, 0, 5, .rw, true, 0, 1⟩
  | .CTX_FB_GAIN => ⟨.CTX, 0xC, 0, 32, .rw, true, 0, 1⟩
  | .CTX_KP_SH => ⟨.CTX, 0x10, 27, 5, .rw, true, 0, 1⟩
  | .CTX_KI_SH => ⟨.CTX, 0x10, 22, 5, .rw, true, 0, 1⟩
  | .CTX_KD_SH => ⟨.CTX, 0x10, 17, 5, .rw, true, 0, 1⟩
  | .CTX_EYE_SH => ⟨.CTX, 0x10, 12, 5, .rw, true, 0, 1⟩
  | .CTX_DEM_SH => ⟨.CTX, 0x10, 8, 4, .rw, true, 0, 1⟩
  | .CTX_B0_SH => ⟨.CTX, 0x14, 27, 5, .rw, true, 4, 2⟩
  | .CTX_B1_SH => ⟨.CTX, 0x14, 22, 5, .rw, true, 4, 2⟩
  | .CTX_B2_SH => ⟨.CTX, 0x14, 17, 5, .rw, true, 4, 2⟩
  | .CTX_A1_SH => ⟨.CTX, 0x14, 12, 5, .rw, true, 4, 2⟩
  | .CTX_A2_SH => ⟨.CTX, 0x14, 7, 5, .rw, true, 4, 2⟩
  | .CTX_KP => ⟨.CTX, 0x1C, 0, 32, .rw, true, 0, 1⟩
  | .CTX_KI => ⟨.CTX, 0x20, 0, 32, .rw, true, 0, 1⟩
  | .CTX_KD => ⟨.CTX, 0x24, 0, 32, .rw, true, 0, 1⟩
  | .CTX_EYE_G => ⟨.CTX, 0x28, 0, 32, .rw, true, 0, 1⟩
  | .CTX_BQ1 => ⟨.CTX, 0x2C, 0, 32, .rw, true, 4, 5⟩
  | .CTX_BQ2 => ⟨.CTX, 0x40, 0, 32, .rw, true, 4, 5⟩
  | .CTX_OUT_MIN => ⟨.CTX, 0x54, 0, 32, .rw, true, 0, 1⟩
  | .CTX_OUT_MAX => ⟨.CTX, 0x58, 0, 32, .rw, true, 0, 1⟩
  | .CTX_TARGET => ⟨.CTX, 0x5C, 0, 32, .rw, true, 0, 1⟩
  | .CTX_VMAX => ⟨.CTX, 0x60, 0, 32, .rw, true, 0, 1⟩
  | .CTX_AMAX => ⟨.CTX, 0x64, 0, 32, .rw, true, 0, 1⟩
  | .CTX_JMAX => ⟨.CTX, 0x68, 0, 32, .rw, true, 0, 1⟩
  | .CTX_DITH_AMP => ⟨.CTX, 0x6C, 16, 16, .rw, true, 0, 1⟩
  | .CTX_DITH_PER => ⟨.CTX, 0x6C, 8, 8, .rw, true, 0, 1⟩
  | .CTX_DITH_PH => ⟨.CTX, 0x6C, 0, 8, .rw, true, 0, 1⟩
  | .CTX_MIX => ⟨.CTX, 0x70, 24, 8, .rw, true, 0, 1⟩
  | .CTX_EYE_DLY => ⟨.CTX, 0x70, 16, 8, .rw, true, 0, 1⟩
  | .CTX_FE_LIM => ⟨.CTX, 0x74, 0, 32, .rw, true, 0, 1⟩
  | .CTX_FE_TIME => ⟨.CTX, 0x78, 22, 10, .rw, true, 0, 1⟩
  | .CTX_HOLD_TO => ⟨.CTX, 0x78, 12, 10, .rw, true, 0, 1⟩
  | .CTX_LOST_N => ⟨.CTX, 0x78, 8, 4, .rw, true, 0, 1⟩
  | .CTX_FREEZE_LOG2 => ⟨.CTX, 0x78, 4, 4, .rw, true, 0, 1⟩
  | .CTX_FREEZE_FLOOR => ⟨.CTX, 0x78, 0, 4, .rw, true, 0, 1⟩
  | .CTX_PARK => ⟨.CTX, 0x7C, 0, 32, .rw, true, 0, 1⟩
  | .CTX_STATE => ⟨.CTX, 0x80, 29, 3, .ro, false, 0, 1⟩
  | .CTX_CAUSE => ⟨.CTX, 0x80, 26, 3, .ro, false, 0, 1⟩
  | .CTX_AT_TARGET => ⟨.CTX, 0x80, 25, 1, .ro, false, 0, 1⟩
  | .CTX_CLAMP => ⟨.CTX, 0x80, 24, 1, .ro, false, 0, 1⟩
  | .CTX_CEIL => ⟨.CTX, 0x80, 23, 1, .ro, false, 0, 1⟩
  | .CTX_EYE_DROP => ⟨.CTX, 0x80, 22, 1, .ro, false, 0, 1⟩
  | .CTX_INJ => ⟨.CTX, 0x80, 21, 1, .ro, false, 0, 1⟩
  | .CTX_PARKED => ⟨.CTX, 0x84, 3, 1, .w1c, false, 0, 1⟩
  | .CTX_HOLD_CLR => ⟨.CTX, 0x84, 2, 1, .w1c, false, 0, 1⟩
  | .CTX_HOLD_IN => ⟨.CTX, 0x84, 1, 1, .w1c, false, 0, 1⟩
  | .CTX_EYE_EVT => ⟨.CTX, 0x84, 0, 1, .w1c, false, 0, 1⟩
  | .CTX_P_NOW => ⟨.CTX, 0x88, 0, 32, .ro, false, 0, 1⟩
  | .CTX_X_NOW => ⟨.CTX, 0x8C, 0, 32, .ro, false, 0, 1⟩
  | .CTX_E_NOW => ⟨.CTX, 0x90, 0, 32, .ro, false, 0, 1⟩
  | .CTX_O_NOW => ⟨.CTX, 0x94, 0, 32, .ro, false, 0, 1⟩
  | .CTX_HOLD_CNT => ⟨.CTX, 0x98, 16, 16, .ro, false, 0, 1⟩
  | .CTX_SKIP_CNT => ⟨.CTX, 0x98, 0, 16, .ro, false, 0, 1⟩
  | .LG_HOLD_MAP => ⟨.LG, 0x0, 0, 32, .ro, false, 0, 1⟩
  | .LG_PARK_MAP => ⟨.LG, 0x4, 0, 32, .ro, false, 0, 1⟩
  | .LG_START => ⟨.LG, 0x10, 31, 1, .wo, false, 0, 1⟩
  | .LG_STOP => ⟨.LG, 0x10, 30, 1, .wo, false, 0, 1⟩
  | .LG_TYPE => ⟨.LG, 0x10, 28, 2, .rw, false, 0, 1⟩
  | .LG_POINT => ⟨.LG, 0x10, 27, 1, .rw, false, 0, 1⟩
  | .LG_INJ_CTX => ⟨.LG, 0x10, 22, 5, .rw, false, 0, 1⟩
  | .LG_AMP => ⟨.LG, 0x14, 0, 32, .rw, false, 0, 1⟩
  | .LG_PER0 => ⟨.LG, 0x18, 16, 16, .rw, false, 0, 1⟩
  | .LG_PER1 => ⟨.LG, 0x18, 0, 16, .rw, false, 0, 1⟩
  | .LG_LEN => ⟨.LG, 0x1C, 0, 32, .rw, false, 0, 1⟩
  | .LG_ARM => ⟨.LG, 0x20, 31, 1, .wo, false, 0, 1⟩
  | .LG_TRIG => ⟨.LG, 0x20, 29, 2, .rw, false, 0, 1⟩
  | .LG_CAP_CTX => ⟨.LG, 0x20, 24, 5, .rw, false, 0, 1⟩
  | .LG_SIG_A => ⟨.LG, 0x20, 21, 3, .rw, false, 0, 1⟩
  | .LG_SIG_B => ⟨.LG, 0x20, 18, 3, .rw, false, 0, 1⟩
  | .LG_DEC => ⟨.LG, 0x20, 12, 6, .rw, false, 0, 1⟩
  | .LG_PRE => ⟨.LG, 0x20, 0, 12, .rw, false, 0, 1⟩
  | .LG_DONE => ⟨.LG, 0x24, 31, 1, .ro, false, 0, 1⟩
  | .LG_ARMED => ⟨.LG, 0x24, 30, 1, .ro, false, 0, 1⟩
  | .LG_COUNT => ⟨.LG, 0x24, 0, 13, .ro, false, 0, 1⟩
  | .LG_CAP_ADDR => ⟨.LG, 0x28, 0, 12, .rw, false, 0, 1⟩
  | .LG_CAP_DATA => ⟨.LG, 0x2C, 0, 32, .ro, false, 0, 1⟩
  | .LS_LASER_CD => ⟨.LS, 0x0, 24, 8, .rwl, false, 0, 1⟩
  | .LS_BIAS_CEIL => ⟨.LS, 0x0, 12, 12, .rwl, false, 0, 1⟩
  | .LS_PWR_CEIL => ⟨.LS, 0x0, 0, 12, .rwl, false, 0, 1⟩
  | .LS_APR_MODE => ⟨.LS, 0x4, 2, 1, .rw, true, 0, 1⟩
  | .LS_APR_EN => ⟨.LS, 0x4, 1, 1, .rw, true, 0, 1⟩
  | .LS_LASER_EN => ⟨.LS, 0x4, 0, 1, .rw, true, 0, 1⟩
  | .LS_APR_PWR => ⟨.LS, 0x8, 0, 12, .rw, true, 0, 1⟩
  | .LS_APR_TGT => ⟨.LS, 0xC, 0, 32, .rw, true, 0, 1⟩
  | .LS_LASEN => ⟨.LS, 0x10, 31, 1, .ro, false, 0, 1⟩
  | .LS_STATE => ⟨.LS, 0x10, 28, 3, .ro, false, 0, 1⟩
  | .LS_OFF_CAUSE => ⟨.LS, 0x10, 24, 4, .ro, false, 0, 1⟩
  | .LS_OVP_CNT => ⟨.LS, 0x10, 22, 2, .ro, false, 0, 1⟩
  | .LS_NEXT_PULSE => ⟨.LS, 0x10, 0, 10, .ro, false, 0, 1⟩
  | .LS_CLAMPED => ⟨.LS, 0x14, 3, 1, .w1c, false, 0, 1⟩
  | .LS_APR_OUT => ⟨.LS, 0x14, 2, 1, .w1c, false, 0, 1⟩
  | .LS_APR_IN => ⟨.LS, 0x14, 1, 1, .w1c, false, 0, 1⟩
  | .LS_OVP_TRIP => ⟨.LS, 0x14, 0, 1, .w1c, false, 0, 1⟩
  | .LS_CLAMP_CNT => ⟨.LS, 0x18, 16, 16, .ro, false, 0, 1⟩
  | .LS_APR_CNT => ⟨.LS, 0x18, 0, 16, .ro, false, 0, 1⟩
  | .LSH_SOFF_RESUME => ⟨.LSH, 0x0, 1, 1, .rwl, false, 0, 1⟩
  | .LSH_LOCK => ⟨.LSH, 0x0, 0, 1, .rwl, false, 0, 1⟩
  | .LSH_SOFF_PIN => ⟨.LSH, 0x4, 31, 1, .ro, false, 0, 1⟩
  | .LSH_SOFF_HELD => ⟨.LSH, 0x4, 30, 1, .ro, false, 0, 1⟩
  | .LSH_SOFF_CNT => ⟨.LSH, 0x4, 0, 16, .ro, false, 0, 1⟩
  | .LSH_RESUME => ⟨.LSH, 0x8, 0, 1, .wo, false, 0, 1⟩
  | .MON_TDAC_CODE => ⟨.MON, 0x0, 0, 10, .rw, false, 0, 1⟩
  | .MON_ORNG_CNT1 => ⟨.MON, 0x4, 16, 16, .ro, false, 0, 1⟩
  | .MON_ORNG_CNT0 => ⟨.MON, 0x4, 0, 16, .ro, false, 0, 1⟩
  | .SEQ_EN => ⟨.SEQ, 0x0, 31, 1, .rw, false, 0, 1⟩
  | .SEQ_LEN => ⟨.SEQ, 0x0, 24, 7, .rw, false, 0, 1⟩
  | .SEQ_OFFSET => ⟨.SEQ, 0x0, 20, 3, .rw, false, 0, 1⟩
  | .SEQ_PERIOD => ⟨.SEQ, 0x0, 0, 16, .rw, false, 0, 1⟩
  | .SEQ_RUNS => ⟨.SEQ, 0x4, 16, 16, .ro, false, 0, 1⟩
  | .SEQ_OVERRUN => ⟨.SEQ, 0x4, 0, 16, .ro, false, 0, 1⟩
  | .MIN_TYPE => ⟨.MIN, 0x0, 3, 1, .rw, false, 0, 1⟩
  | .MIN_SENSE => ⟨.MIN, 0x0, 0, 3, .rw, false, 0, 1⟩
  | .ENT_EN => ⟨.ENT, 0x0, 31, 1, .rw, false, 0, 1⟩
  | .ENT_INPUT => ⟨.ENT, 0x0, 23, 8, .rw, false, 0, 1⟩
  | .ENT_ACQ_EXTRA => ⟨.ENT, 0x0, 20, 3, .rw, false, 0, 1⟩
  | .ENT_CHAIN_EN => ⟨.ENT, 0x0, 19, 1, .rw, false, 0, 1⟩
  | .ENT_CHAIN => ⟨.ENT, 0x0, 14, 5, .rw, false, 0, 1⟩
  | .ENT_TEST => ⟨.ENT, 0x0, 13, 1, .rw, false, 0, 1⟩
  | .ENT_WIN_EN => ⟨.ENT, 0x0, 12, 1, .rw, false, 0, 1⟩
  | .ENT_WIN_SEV => ⟨.ENT, 0x0, 10, 2, .rw, false, 0, 1⟩
  | .ENT_HYST => ⟨.ENT, 0x0, 0, 10, .rw, false, 0, 1⟩
  | .ENT_HI => ⟨.ENT, 0x4, 16, 16, .rw, false, 0, 1⟩
  | .ENT_LO => ⟨.ENT, 0x4, 0, 16, .rw, false, 0, 1⟩
  | .ENT_SEQNUM => ⟨.ENT, 0x8, 24, 8, .ro, false, 0, 1⟩
  | .ENT_TESTED => ⟨.ENT, 0x8, 19, 1, .ro, false, 0, 1⟩
  | .ENT_SETTLED => ⟨.ENT, 0x8, 18, 1, .ro, false, 0, 1⟩
  | .ENT_SUSPECT => ⟨.ENT, 0x8, 17, 1, .ro, false, 0, 1⟩
  | .ENT_ORNG => ⟨.ENT, 0x8, 16, 1, .ro, false, 0, 1⟩
  | .ENT_CODE => ⟨.ENT, 0x8, 0, 16, .ro, false, 0, 1⟩
  | .ENT_SUSP_CNT => ⟨.ENT, 0xC, 16, 16, .ro, false, 0, 1⟩
  | .ENT_OUTSIDE => ⟨.ENT, 0xC, 2, 1, .ro, false, 0, 1⟩
  | .ENT_WIN_EXIT => ⟨.ENT, 0xC, 1, 1, .w1c, false, 0, 1⟩
  | .ENT_OVR => ⟨.ENT, 0xC, 0, 1, .w1c, false, 0, 1⟩
  | .CH_PRESET => ⟨.CH, 0x0, 29, 3, .rw, false, 0, 1⟩
  | .CH_HP_EN => ⟨.CH, 0x0, 28, 1, .rw, false, 0, 1⟩
  | .CH_HP_FREEZE => ⟨.CH, 0x0, 27, 1, .rw, false, 0, 1⟩
  | .CH_HP_SH => ⟨.CH, 0x0, 22, 5, .rw, false, 0, 1⟩
  | .CH_N => ⟨.CH, 0x0, 20, 2, .rw, false, 0, 1⟩
  | .CH_LM1 => ⟨.CH, 0x0, 10, 10, .rw, false, 0, 1⟩
  | .CH_STEP_THR => ⟨.CH, 0x4, 16, 16, .rw, false, 0, 1⟩
  | .CH_SH1 => ⟨.CH, 0x4, 10, 5, .rw, false, 0, 1⟩
  | .CH_SH2 => ⟨.CH, 0x4, 5, 5, .rw, false, 0, 1⟩
  | .CH_SH3 => ⟨.CH, 0x4, 0, 5, .rw, false, 0, 1⟩
  | .CH_SETTLED => ⟨.CH, 0x8, 31, 1, .ro, false, 0, 1⟩
  | .CH_FULLW => ⟨.CH, 0x8, 30, 1, .ro, false, 0, 1⟩
  | .CH_FILL => ⟨.CH, 0x8, 16, 12, .ro, false, 0, 1⟩
  | .CH_OUT_CNT => ⟨.CH, 0x8, 0, 16, .ro, false, 0, 1⟩
  | .CH_HP_EST => ⟨.CH, 0xC, 0, 32, .ro, false, 0, 1⟩
  | .CH_FW_RESULT => ⟨.CH, 0x10, 0, 64, .ro, false, 0, 1⟩
  | .CH_RESTART => ⟨.CH, 0x18, 0, 1, .wo, false, 0, 1⟩
  | .CD_MODE => ⟨.CD, 0x0, 30, 2, .rw, false, 0, 1⟩
  | .CD_SLEW_EN => ⟨.CD, 0x0, 29, 1, .rw, false, 0, 1⟩
  | .CD_STEP => ⟨.CD, 0x0, 20, 8, .rw, false, 0, 1⟩
  | .CD_TICK => ⟨.CD, 0x0, 0, 16, .rw, false, 0, 1⟩
  | .CD_CODE => ⟨.CD, 0x4, 0, 12, .rw, false, 0, 1⟩
  | .CD_CLR_CODE => ⟨.CD, 0x8, 0, 12, .rw, false, 0, 1⟩
  | .CD_HIZ => ⟨.CD, 0xC, 31, 1, .ro, false, 0, 1⟩
  | .CD_DISC => ⟨.CD, 0xC, 30, 1, .ro, false, 0, 1⟩
  | .CD_AT_CLEAR => ⟨.CD, 0xC, 29, 1, .ro, false, 0, 1⟩
  | .CD_LOOP => ⟨.CD, 0xC, 28, 1, .ro, false, 0, 1⟩
  | .CD_HELD_ILIM => ⟨.CD, 0xC, 27, 1, .ro, false, 0, 1⟩
  | .CD_HELD_CEIL => ⟨.CD, 0xC, 26, 1, .ro, false, 0, 1⟩
  | .CD_FORCED0 => ⟨.CD, 0xC, 25, 1, .ro, false, 0, 1⟩
  | .CD_SLEWING => ⟨.CD, 0xC, 24, 1, .ro, false, 0, 1⟩
  | .CD_REQ => ⟨.CD, 0xC, 12, 12, .ro, false, 0, 1⟩
  | .CD_OUT => ⟨.CD, 0xC, 0, 12, .ro, false, 0, 1⟩
  | .BUD_USED => ⟨.BUD, 0x0, 16, 10, .ro, false, 0, 1⟩
  | .BUD_ILIM => ⟨.BUD, 0x0, 0, 10, .rw, false, 0, 1⟩
  | .CLRH_CLR_CNT => ⟨.CLRH, 0x0, 16, 16, .ro, false, 0, 1⟩
  | .CLRH_CLR_PIN => ⟨.CLRH, 0x0, 0, 1, .ro, false, 0, 1⟩
  | .THM_TT => ⟨.THM, 0x0, 8, 8, .rw, false, 0, 1⟩
  | .THM_TRIP => ⟨.THM, 0x4, 31, 1, .ro, false, 0, 1⟩
  | .THM_TT_PIN => ⟨.THM, 0x4, 30, 1, .ro, false, 0, 1⟩
  | .THM_TRIP_SRC => ⟨.THM, 0x4, 29, 1, .ro, false, 0, 1⟩
  | .THM_TRIP_SENSOR => ⟨.THM, 0x4, 24, 5, .ro, false, 0, 1⟩
  | .THM_HOTTEST => ⟨.THM, 0x4, 0, 16, .ro, false, 0, 1⟩
  | .THM_CLEAR => ⟨.THM, 0x8, 0, 1, .wo, false, 0, 1⟩
  | .DS_VALID => ⟨.DS, 0x0, 31, 1, .ro, false, 0, 1⟩
  | .DS_FAULT => ⟨.DS, 0x0, 30, 1, .ro, false, 0, 1⟩
  | .DS_TEMP => ⟨.DS, 0x0, 0, 16, .ro, false, 0, 1⟩
  | .THG_TG => ⟨.THG, 0x0, 16, 16, .ro, false, 0, 1⟩
  | .THG_TE => ⟨.THG, 0x0, 0, 16, .ro, false, 0, 1⟩
  | .THG_STAGE => ⟨.THG, 0x4, 30, 2, .ro, false, 0, 1⟩
  | .THG_C => ⟨.THG, 0x4, 24, 6, .ro, false, 0, 1⟩
  | .THG_S => ⟨.THG, 0x4, 18, 6, .ro, false, 0, 1⟩
  | .THG_USED => ⟨.THG, 0x4, 12, 6, .ro, false, 0, 1⟩
  | .THG_TFENCED => ⟨.THG, 0x4, 8, 4, .ro, false, 0, 1⟩
  | .THG_ENG_HI => ⟨.THG, 0x8, 0, 8, .rw, false, 0, 1⟩
  | .THG_THR_TICKS => ⟨.THG, 0xC, 16, 16, .ro, false, 0, 1⟩
  | .THG_ENG_HOT => ⟨.THG, 0xC, 3, 1, .w1c, false, 0, 1⟩
  | .THG_SENS_FAULT => ⟨.THG, 0xC, 2, 1, .w1c, false, 0, 1⟩
  | .THG_TFENCE => ⟨.THG, 0xC, 1, 1, .w1c, false, 0, 1⟩
  | .THG_STAGE_CHG => ⟨.THG, 0xC, 0, 1, .w1c, false, 0, 1⟩
  | .ENG_EN => ⟨.ENG, 0x0, 31, 1, .rw, false, 0, 1⟩
  | .ENG_RES25 => ⟨.ENG, 0x0, 16, 15, .rw, false, 0, 1⟩
  | .ENG_BETA_NF => ⟨.ENG, 0x0, 0, 16, .rw, false, 0, 1⟩
  | .ENG_VALID => ⟨.ENG, 0x4, 31, 1, .ro, false, 0, 1⟩
  | .ENG_FAULT => ⟨.ENG, 0x4, 28, 3, .ro, false, 0, 1⟩
  | .ENG_TEMP => ⟨.ENG, 0x4, 0, 16, .ro, false, 0, 1⟩
  | .ENG_RES => ⟨.ENG, 0x8, 0, 16, .ro, false, 0, 1⟩
  | .FF_FF_EN => ⟨.FF, 0x0, 31, 1, .rw, false, 0, 1⟩
  | .FF_FF_SRC => ⟨.FF, 0x0, 29, 2, .rw, false, 0, 1⟩
  | .FF_FF_K => ⟨.FF, 0x0, 0, 16, .rw, false, 0, 1⟩
  | .CAL_CAL_CNT => ⟨.CAL, 0x0, 0, 32, .ro, false, 0, 1⟩
  | .CAL_LAST_SEC => ⟨.CAL, 0x4, 0, 32, .ro, false, 0, 1⟩
  | .CAL_DISAGREE => ⟨.CAL, 0x8, 31, 1, .w1c, false, 0, 1⟩
  | .CAL_INTERP_ONLY => ⟨.CAL, 0x8, 30, 1, .ro, false, 0, 1⟩
  | .CAL_LAST_NS => ⟨.CAL, 0x8, 0, 30, .ro, false, 0, 1⟩
  | .CAL_DIS_CNT => ⟨.CAL, 0xC, 16, 16, .ro, false, 0, 1⟩
  | .CALH_MON_CAL_CNT => ⟨.CALH, 0x0, 0, 32, .ro, false, 0, 1⟩
  | .CALH_CDAC_DRIFT_CNT => ⟨.CALH, 0x4, 16, 16, .ro, false, 0, 1⟩
  | .CALH_MON_DIS_CNT => ⟨.CALH, 0x4, 0, 16, .ro, false, 0, 1⟩
  | .CALH_MON_DIS => ⟨.CALH, 0x8, 10, 1, .w1c, false, 0, 1⟩
  | .CALH_CDAC_DRIFT => ⟨.CALH, 0x8, 9, 1, .w1c, false, 0, 1⟩
  | .CALH_CAL_STARVED => ⟨.CALH, 0x8, 8, 1, .w1c, false, 0, 1⟩
  | .CALH_DRIFT_CH => ⟨.CALH, 0x8, 0, 7, .ro, false, 0, 1⟩
  | .TIME_STEP => ⟨.TIME, 0x0, 31, 1, .wo, false, 0, 1⟩
  | .TIME_AT_SECOND => ⟨.TIME, 0x0, 30, 1, .rw, false, 0, 1⟩
  | .TIME_PPS_OUT_EN => ⟨.TIME, 0x0, 29, 1, .rw, false, 0, 1⟩
  | .TIME_PPS_EVT_EN => ⟨.TIME, 0x0, 28, 1, .rw, false, 0, 1⟩
  | .TIME_PPS_WIDTH => ⟨.TIME, 0x0, 0, 9, .rw, false, 0, 1⟩
  | .TIME_ADDEND => ⟨.TIME, 0x4, 0, 32, .rw, false, 0, 1⟩
  | .TIME_SLEW => ⟨.TIME, 0x8, 0, 32, .wo, false, 0, 1⟩
  | .TIME_ACTIVE => ⟨.TIME, 0xC, 31, 1, .ro, false, 0, 1⟩
  | .TIME_RATE => ⟨.TIME, 0xC, 0, 8, .rw, false, 0, 1⟩
  | .TIME_FRAC => ⟨.TIME, 0x10, 0, 16, .ro, false, 0, 1⟩
  | .TIME_NS => ⟨.TIME, 0x14, 0, 30, .ro, false, 0, 1⟩
  | .TIME_SEC_LO => ⟨.TIME, 0x18, 0, 32, .ro, false, 0, 1⟩
  | .TIME_SEC_HI => ⟨.TIME, 0x1C, 0, 16, .ro, false, 0, 1⟩
  | .TIME_SET_NS => ⟨.TIME, 0x20, 0, 30, .rw, false, 0, 1⟩
  | .TIME_SET_SEC_LO => ⟨.TIME, 0x24, 0, 32, .rw, false, 0, 1⟩
  | .TIME_SET_SEC_HI => ⟨.TIME, 0x28, 0, 16, .rw, false, 0, 1⟩
  | .TIME_REMAIN => ⟨.TIME, 0x2C, 0, 32, .ro, false, 0, 1⟩
  | .TIME_SYNC => ⟨.TIME, 0x30, 30, 2, .ro, false, 0, 1⟩
  | .TIME_STEP_CNT => ⟨.TIME, 0x30, 0, 16, .ro, false, 0, 1⟩
  | .TIME_B_OFFSET => ⟨.TIME, 0x34, 0, 32, .ro, false, 0, 1⟩
  | .TIME_PPS_FRAC => ⟨.TIME, 0x40, 0, 16, .ro, false, 0, 1⟩
  | .TIME_PPS_NS => ⟨.TIME, 0x44, 0, 30, .ro, false, 0, 1⟩
  | .TIME_PPS_SEC_LO => ⟨.TIME, 0x48, 0, 32, .ro, false, 0, 1⟩
  | .TIME_PPS_SEC_HI => ⟨.TIME, 0x4C, 0, 16, .ro, false, 0, 1⟩
  | .TIME_PPS_OUT_COMP => ⟨.TIME, 0x50, 0, 16, .rw, false, 0, 1⟩
  | .TIME_SLEW_DONE => ⟨.TIME, 0x54, 5, 1, .w1c, false, 0, 1⟩
  | .TIME_STEP_DONE => ⟨.TIME, 0x54, 4, 1, .w1c, false, 0, 1⟩
  | .TIME_ONE_STEP_ERR => ⟨.TIME, 0x54, 3, 1, .w1c, false, 0, 1⟩
  | .TIME_TSQ_OVF => ⟨.TIME, 0x54, 2, 1, .w1c, false, 0, 1⟩
  | .TIME_PPS_LOST => ⟨.TIME, 0x54, 1, 1, .w1c, false, 0, 1⟩
  | .TIME_PPS_IN_EDGE => ⟨.TIME, 0x54, 0, 1, .w1c, false, 0, 1⟩
  | .TIME_TSQ_FILL => ⟨.TIME, 0x58, 24, 8, .ro, false, 0, 1⟩
  | .TIME_PEND_ALL => ⟨.TIME, 0x58, 16, 8, .ro, false, 0, 1⟩
  | .TIME_PEND_COMMIT => ⟨.TIME, 0x58, 8, 8, .ro, false, 0, 1⟩
  | .TIME_PEND_SNAP => ⟨.TIME, 0x58, 0, 8, .ro, false, 0, 1⟩
  | .TIME_DROP_CNT => ⟨.TIME, 0x5C, 0, 32, .ro, false, 0, 1⟩
  | .TIME_REC_CNT => ⟨.TIME, 0x60, 0, 32, .ro, false, 0, 1⟩
  | .TSP_TS_EN => ⟨.TSP, 0x0, 31, 1, .rw, true, 0, 1⟩
  | .TSP_ONE_STEP => ⟨.TSP, 0x0, 29, 2, .rw, true, 0, 1⟩
  | .TSP_RX_INSERT => ⟨.TSP, 0x0, 28, 1, .rw, true, 0, 1⟩
  | .TSP_RX_REC => ⟨.TSP, 0x0, 27, 1, .rw, true, 0, 1⟩
  | .TSP_TX_REC => ⟨.TSP, 0x0, 23, 4, .rw, true, 0, 1⟩
  | .TSP_ENCAP => ⟨.TSP, 0x0, 20, 3, .rw, true, 0, 1⟩
  | .TSP_TX_CORR => ⟨.TSP, 0x4, 16, 16, .rw, true, 0, 1⟩
  | .TSP_RX_CORR => ⟨.TSP, 0x4, 0, 16, .rw, true, 0, 1⟩
  | .TSP_TX_CNT => ⟨.TSP, 0x8, 16, 16, .ro, false, 0, 1⟩
  | .TSP_RX_CNT => ⟨.TSP, 0x8, 0, 16, .ro, false, 0, 1⟩
  | .TSP_ACC_OK => ⟨.TSP, 0xC, 31, 1, .ro, false, 0, 1⟩
  | .TSP_FCS_BAD => ⟨.TSP, 0xC, 8, 8, .ro, false, 0, 1⟩
  | .TSP_ONE_STEP_ERR => ⟨.TSP, 0xC, 0, 8, .ro, false, 0, 1⟩
  | .SP_SLICE_SPARE => ⟨.SP, 0x0, 30, 2, .ro, false, 0, 1⟩
  | .SP_KND_SPARE => ⟨.SP, 0x0, 28, 2, .ro, false, 0, 1⟩
  | .SP_SADC_SPARE => ⟨.SP, 0x0, 24, 4, .ro, false, 0, 1⟩
  | .SP_SEG_SPARE => ⟨.SP, 0x0, 19, 5, .ro, false, 0, 1⟩
  | .SP_ROWS_ZERO => ⟨.SP, 0x0, 0, 8, .ro, false, 0, 1⟩
  | .SP_ROWS_LEFT => ⟨.SP, 0x4, 16, 16, .ro, false, 0, 1⟩
  | .SP_STICKY_PEND => ⟨.SP, 0x4, 0, 16, .ro, false, 0, 1⟩
  | .REL_LOG_FULL => ⟨.REL, 0x0, 11, 1, .w1c, false, 0, 1⟩
  | .REL_ROW_EXHAUST => ⟨.REL, 0x0, 10, 1, .w1c, false, 0, 1⟩
  | .REL_HOST_UE => ⟨.REL, 0x0, 9, 1, .w1c, false, 0, 1⟩
  | .REL_SCRUB_SLOW => ⟨.REL, 0x0, 8, 1, .w1c, false, 0, 1⟩
  | .REL_ZEROISED => ⟨.REL, 0x0, 7, 1, .w1c, false, 0, 1⟩
  | .REL_ST_ABORT => ⟨.REL, 0x0, 6, 1, .w1c, false, 0, 1⟩
  | .REL_ST_FAIL => ⟨.REL, 0x0, 5, 1, .w1c, false, 0, 1⟩
  | .REL_SPARE_USED => ⟨.REL, 0x0, 4, 1, .w1c, false, 0, 1⟩
  | .REL_KND_FAIL => ⟨.REL, 0x0, 3, 1, .w1c, false, 0, 1⟩
  | .REL_DMA_UE => ⟨.REL, 0x0, 2, 1, .w1c, false, 0, 1⟩
  | .REL_POISON => ⟨.REL, 0x0, 1, 1, .w1c, false, 0, 1⟩
  | .REL_STICKY => ⟨.REL, 0x0, 0, 1, .w1c, false, 0, 1⟩
  | .REL_EN => ⟨.REL, 0x4, 31, 1, .rw, false, 0, 1⟩
  | .REL_LAP_LIM => ⟨.REL, 0x4, 0, 16, .rw, false, 0, 1⟩
  | .REL_LOG_USED => ⟨.REL, 0x8, 16, 9, .ro, false, 0, 1⟩
  | .REL_KEY_LOADED => ⟨.REL, 0x10, 31, 1, .ro, false, 0, 1⟩
  | .REL_KEY_LOCKED => ⟨.REL, 0x10, 30, 1, .ro, false, 0, 1⟩
  | .REL_SCAN_SEEN => ⟨.REL, 0x10, 29, 1, .ro, false, 0, 1⟩
  | .REL_ZERO_CNT => ⟨.REL, 0x10, 0, 16, .ro, false, 0, 1⟩
  | .ECC_CE_CNT => ⟨.ECC, 0x0, 0, 32, .ro, false, 0, 1⟩
  | .ECC_UE_CNT => ⟨.ECC, 0x4, 16, 16, .ro, false, 0, 1⟩
  | .ECC_POISON_CNT => ⟨.ECC, 0x4, 0, 16, .ro, false, 0, 1⟩
  | .ECC_STICKY_CNT => ⟨.ECC, 0x8, 16, 16, .ro, false, 0, 1⟩
  | .ECC_LAP_MS => ⟨.ECC, 0x8, 0, 16, .ro, false, 0, 1⟩
  | .ECC_TRK_USED => ⟨.ECC, 0xC, 27, 5, .ro, false, 0, 1⟩
  | .ECC_LAST_ARRAY => ⟨.ECC, 0xC, 17, 10, .ro, false, 0, 1⟩
  | .ECC_LAST_WORD => ⟨.ECC, 0xC, 0, 17, .ro, false, 0, 1⟩
  | .KND_STATE => ⟨.KND, 0x0, 29, 3, .ro, false, 0, 1⟩
  | .KND_CAUSE => ⟨.KND, 0x0, 26, 3, .ro, false, 0, 1⟩
  | .KND_SPARE_IN => ⟨.KND, 0x0, 25, 1, .ro, false, 0, 1⟩
  | .KND_TRAP_CNT => ⟨.KND, 0x0, 16, 8, .ro, false, 0, 1⟩
  | .ST_STATE => ⟨.ST, 0x0, 29, 3, .ro, false, 0, 1⟩
  | .ST_KIND => ⟨.ST, 0x0, 26, 3, .ro, false, 0, 1⟩
  | .ST_UNIT => ⟨.ST, 0x0, 20, 6, .ro, false, 0, 1⟩
  | .ST_RESULT => ⟨.ST, 0x0, 18, 2, .ro, false, 0, 1⟩
  | .ST_REMAIN => ⟨.ST, 0x0, 0, 18, .ro, false, 0, 1⟩
  | .ST_SIG => ⟨.ST, 0x4, 0, 32, .ro, false, 0, 1⟩
  | .ST_ST_RUNS => ⟨.ST, 0x8, 16, 16, .ro, false, 0, 1⟩
  | .ST_ABORT_CNT => ⟨.ST, 0x8, 0, 16, .ro, false, 0, 1⟩
  | .HIF_RUN => ⟨.HIF, 0x0, 31, 1, .rw, false, 0, 1⟩
  | .HIF_ERR_VEC => ⟨.HIF, 0x0, 16, 5, .rw, false, 0, 1⟩
  | .HIF_ALERT_SEV => ⟨.HIF, 0x0, 0, 2, .rw, false, 0, 1⟩
  | .HIF_ALERT => ⟨.HIF, 0x4, 31, 1, .ro, false, 0, 1⟩
  | .HIF_NO_RINGS => ⟨.HIF, 0x4, 3, 1, .w1c, false, 0, 1⟩
  | .HIF_SEV_HIT => ⟨.HIF, 0x4, 2, 1, .w1c, false, 0, 1⟩
  | .HIF_RING_HALT => ⟨.HIF, 0x4, 1, 1, .w1c, false, 0, 1⟩
  | .HIF_BAD_ACCESS => ⟨.HIF, 0x4, 0, 1, .w1c, false, 0, 1⟩
  | .HIF_SB_LO => ⟨.HIF, 0x8, 6, 26, .rw, false, 0, 1⟩
  | .HIF_SB_HI => ⟨.HIF, 0xC, 0, 32, .rw, false, 0, 1⟩
  | .HIF_EVT_LOST => ⟨.HIF, 0x10, 0, 32, .ro, false, 0, 1⟩
  | .HIF_TLM_LOST => ⟨.HIF, 0x14, 0, 32, .ro, false, 0, 1⟩
  | .HIF_MDIO_EN => ⟨.HIF, 0x18, 31, 1, .rw, false, 0, 1⟩
  | .HIF_PRTAD_BASE => ⟨.HIF, 0x18, 0, 5, .rw, false, 0, 1⟩
  | .RING_BASE_LO => ⟨.RING, 0x0, 6, 26, .rw, false, 0, 1⟩
  | .RING_BASE_HI => ⟨.RING, 0x4, 0, 32, .rw, false, 0, 1⟩
  | .RING_EN => ⟨.RING, 0x8, 31, 1, .rw, false, 0, 1⟩
  | .RING_RESET => ⟨.RING, 0x8, 30, 1, .wo, false, 0, 1⟩
  | .RING_VEC => ⟨.RING, 0x8, 16, 5, .rw, false, 0, 1⟩
  | .RING_SIZE_LOG2 => ⟨.RING, 0x8, 0, 4, .rw, false, 0, 1⟩
  | .RING_ACTIVE => ⟨.RING, 0xC, 31, 1, .ro, false, 0, 1⟩
  | .RING_HALTED => ⟨.RING, 0xC, 30, 1, .ro, false, 0, 1⟩
  | .RING_ERR => ⟨.RING, 0xC, 26, 4, .ro, false, 0, 1⟩
  | .RING_INDEX => ⟨.RING, 0xC, 0, 12, .ro, false, 0, 1⟩
  | .RING_COUNT => ⟨.RING, 0x10, 24, 8, .rw, false, 0, 1⟩
  | .RING_TIME => ⟨.RING, 0x10, 0, 16, .rw, false, 0, 1⟩
  | .BOOT_STATE => ⟨.BOOT, 0x0, 30, 2, .ro, false, 0, 1⟩
  | .BOOT_STEP => ⟨.BOOT, 0x0, 27, 3, .ro, false, 0, 1⟩
  | .BOOT_START_KIND => ⟨.BOOT, 0x0, 25, 2, .ro, false, 0, 1⟩
  | .BOOT_SLOT => ⟨.BOOT, 0x0, 24, 1, .ro, false, 0, 1⟩
  | .BOOT_TRIAL => ⟨.BOOT, 0x0, 23, 1, .ro, false, 0, 1⟩
  | .BOOT_FAIL_CNT => ⟨.BOOT, 0x0, 20, 3, .ro, false, 0, 1⟩
  | .BOOT_UPD_STAGE => ⟨.BOOT, 0x0, 17, 3, .ro, false, 0, 1⟩
  | .BOOT_SETTINGS => ⟨.BOOT, 0x0, 15, 2, .ro, false, 0, 1⟩
  | .BOOT_PANTRY_VALID => ⟨.BOOT, 0x0, 14, 1, .ro, false, 0, 1⟩
  | .BOOT_DUMP_HELD => ⟨.BOOT, 0x0, 13, 1, .ro, false, 0, 1⟩
  | .BOOT_VERSION => ⟨.BOOT, 0x4, 0, 32, .ro, false, 0, 1⟩
  | .BOOT_ERR => ⟨.BOOT, 0x8, 0, 8, .ro, false, 0, 1⟩
  | .BOOT_LOADED => ⟨.BOOT, 0xC, 0, 32, .ro, false, 0, 1⟩
  | .BOOT_KEY => ⟨.BOOT, 0x10, 16, 16, .wo, false, 0, 1⟩
  | .BOOT_REQ => ⟨.BOOT, 0x10, 0, 1, .wo, false, 0, 1⟩
  | .BOOT_ST_ADDR_LO => ⟨.BOOT, 0x20, 6, 26, .rw, false, 0, 1⟩
  | .BOOT_ST_ADDR_HI => ⟨.BOOT, 0x24, 0, 32, .rw, false, 0, 1⟩
  | .BOOT_ST_LEN => ⟨.BOOT, 0x28, 0, 32, .rw, false, 0, 1⟩
  | .BOOT_GO => ⟨.BOOT, 0x2C, 31, 1, .wo, false, 0, 1⟩
  | .BOOT_ST_SLOT => ⟨.BOOT, 0x2C, 30, 1, .rw, false, 0, 1⟩
  | .BOOT_BUSY => ⟨.BOOT, 0x30, 31, 1, .ro, false, 0, 1⟩
  | .BOOT_ST_RESULT => ⟨.BOOT, 0x30, 28, 3, .ro, false, 0, 1⟩
  | .PG_STATE => ⟨.PG, 0x0, 29, 3, .ro, false, 0, 1⟩
  | .PG_PADS_HELD => ⟨.PG, 0x0, 28, 1, .ro, false, 0, 1⟩
  | .PG_HS_BLOCK => ⟨.PG, 0x0, 26, 2, .ro, false, 0, 1⟩
  | .PG_LAST_REASON => ⟨.PG, 0x0, 22, 4, .ro, false, 0, 1⟩
  | .PG_LAST_BLOCK => ⟨.PG, 0x0, 20, 2, .ro, false, 0, 1⟩
  | .PG_PERIOD => ⟨.PG, 0x4, 16, 16, .rw, false, 0, 1⟩
  | .PG_WIN => ⟨.PG, 0x4, 8, 8, .rw, false, 0, 1⟩
  | .PG_SEQ_MASK => ⟨.PG, 0x4, 4, 4, .rw, false, 0, 1⟩
  | .PG_AUTO_WAKE => ⟨.PG, 0x4, 0, 1, .rw, false, 0, 1⟩
  | .PG_WAKE_CNT => ⟨.PG, 0x8, 16, 16, .ro, false, 0, 1⟩
  | .PG_PROOF_CNT => ⟨.PG, 0x8, 0, 16, .ro, false, 0, 1⟩
  | .PG_REFUSED => ⟨.PG, 0xC, 3, 1, .w1c, false, 0, 1⟩
  | .PG_WAKE_RETRY => ⟨.PG, 0xC, 2, 1, .w1c, false, 0, 1⟩
  | .PG_WAKE_FAIL => ⟨.PG, 0xC, 1, 1, .w1c, false, 0, 1⟩
  | .PG_PROOF_WAKE => ⟨.PG, 0xC, 0, 1, .w1c, false, 0, 1⟩
  | .PH_DSTATE => ⟨.PH, 0x0, 30, 2, .ro, false, 0, 1⟩
  | .PH_LAST_RESET => ⟨.PH, 0x0, 27, 3, .ro, false, 0, 1⟩
  | .PH_D3_HOT => ⟨.PH, 0x0, 26, 1, .ro, false, 0, 1⟩
  | .PH_D3_REFUSED => ⟨.PH, 0x0, 25, 1, .w1c, false, 0, 1⟩
  | .PH_RESET_CNT => ⟨.PH, 0x0, 0, 16, .ro, false, 0, 1⟩
  | .PH_VALID => ⟨.PH, 0x4, 31, 1, .ro, false, 0, 1⟩
  | .PH_AREA_OK => ⟨.PH, 0x4, 21, 9, .ro, false, 0, 1⟩
  | .PH_USED_KIB => ⟨.PH, 0x4, 0, 9, .ro, false, 0, 1⟩
  | .TLM_TX_ENTRY => ⟨.TLM, 0x0, 23, 9, .rw, false, 0, 1⟩
  | .TLM_RX_ENTRY => ⟨.TLM, 0x0, 14, 9, .rw, false, 0, 1⟩
  | .TLM_TX_RESP => ⟨.TLM, 0x4, 16, 16, .rw, false, 0, 1⟩
  | .TLM_RX_RESP => ⟨.TLM, 0x4, 0, 16, .rw, false, 0, 1⟩
  | .TLM_TX_OFS => ⟨.TLM, 0x8, 16, 16, .rw, false, 0, 1⟩
  | .TLM_RX_OFS => ⟨.TLM, 0x8, 0, 16, .rw, false, 0, 1⟩
  | .PERF_USER_EN => ⟨.PERF, 0x0, 31, 1, .rw, false, 0, 1⟩
  | .PERF_SAMPLE => ⟨.PERF, 0x0, 30, 1, .wo, false, 0, 1⟩
  | .PERF_CLEAR => ⟨.PERF, 0x0, 29, 1, .wo, false, 0, 1⟩
  | .PERF_OVF => ⟨.PERF, 0x0, 8, 8, .w1c, false, 0, 1⟩
  | .PERF_LANE_MASK => ⟨.PERF, 0x0, 0, 8, .rw, false, 0, 1⟩
  | .PERF_SEL_EN => ⟨.PERF, 0x10, 31, 1, .rw, false, 4, 8⟩
  | .PERF_SEL_CHAIN => ⟨.PERF, 0x10, 30, 1, .rw, false, 4, 8⟩
  | .PERF_SEL_EVT => ⟨.PERF, 0x10, 0, 8, .rw, false, 4, 8⟩
  | .PERF_H_EN => ⟨.PERF, 0x30, 31, 1, .rw, false, 0, 1⟩
  | .PERF_H_CLR => ⟨.PERF, 0x30, 30, 1, .wo, false, 0, 1⟩
  | .PERF_H1_BASE => ⟨.PERF, 0x30, 25, 5, .rw, false, 0, 1⟩
  | .PERF_H0_BASE => ⟨.PERF, 0x30, 20, 5, .rw, false, 0, 1⟩
  | .PERF_H0_SEL => ⟨.PERF, 0x30, 16, 4, .rw, false, 0, 1⟩
  | .PC_CYC => ⟨.PC, 0x0, 0, 64, .ro, false, 0, 1⟩
  | .PC_CNT => ⟨.PC, 0x10, 0, 32, .ro, false, 4, 8⟩
  | .PC_H0 => ⟨.PC, 0x40, 0, 32, .ro, false, 4, 16⟩
  | .PC_H1 => ⟨.PC, 0x80, 0, 32, .ro, false, 4, 16⟩
  | .PC_SAMP => ⟨.PC, 0x100, 0, 32, .ro, false, 4, 48⟩
  | .PC_SAMPLE_SEQ => ⟨.PC, 0x1C0, 0, 32, .ro, false, 0, 1⟩
  | .FI_UNLOCKED => ⟨.FI, 0x0, 31, 1, .ro, false, 0, 1⟩
  | .FI_RELOCK => ⟨.FI, 0x0, 30, 1, .wo, false, 0, 1⟩
  | .FI_LOCK => ⟨.FI, 0x0, 1, 1, .rwl, false, 0, 1⟩
  | .FI_DISABLE => ⟨.FI, 0x0, 0, 1, .rwl, false, 0, 1⟩
  | .FI_FI_KEY => ⟨.FI, 0x4, 0, 32, .wo, false, 0, 1⟩
  | .FI_ACTIVE_MAP => ⟨.FI, 0x8, 0, 16, .ro, false, 0, 1⟩
  | .FIS_ACTIVE => ⟨.FIS, 0x0, 31, 1, .ro, false, 0, 1⟩
  | .FIS_KIND => ⟨.FIS, 0x0, 27, 4, .ro, false, 0, 1⟩
  | .FIS_SCOPE => ⟨.FIS, 0x0, 23, 4, .ro, false, 0, 1⟩
  | .FIS_ID => ⟨.FIS, 0x0, 17, 6, .ro, false, 0, 1⟩
  | .FIS_INJ_CNT => ⟨.FIS, 0x4, 0, 32, .ro, false, 0, 1⟩
  | .FIS_HOST_TAG => ⟨.FIS, 0x8, 0, 32, .ro, false, 0, 1⟩

def Fld.width (f : Fld) : Nat := f.info.width

/-- R129: the reset delays (DA, DB) of the Volterra terms. -/
def voltReset (j : Nat) : Nat × Nat :=
  match j with
  | 0 => (3, 3) | 1 => (2, 2) | 2 => (4, 4) | 3 => (2, 3) | 4 => (3, 4) | 5 => (2, 4)
  | 6 => (1, 3) | 7 => (3, 5) | 8 => (1, 1) | 9 => (5, 5) | 10 => (1, 2) | _ => (4, 5)

/-- R279: the first control DAC channel of group `g`. -/
def firstChan (g : Nat) : Nat := 24 * g + 8 * (g / 3)

set_option maxRecDepth 4000 in
/-- The reset value of a field, which at PORST# it holds. -/
def Fld.reset (f : Fld) (i : Nat) : Nat :=
  match f with
  | .TOP_PART => 0x4896
  | .TOP_STEP_MAJ => 0xB
  | .TOP_HALF => i
  | .BR_ROLE => 1 - i
  | .FE_SEG_ROT_EN => 0x1
  | .FE_ROT_EN => 0x1
  | .FE_MANUAL_STEP => 0x8
  | .FE_SWING => 0x1E
  | .FE_TARGET => 0xDC
  | .FE_STEP_MAX => 0xF
  | .FE_LOS_THR => 0x30
  | .FE_SADC_PERIOD => 0xC8
  | .FE_SEG_PERIOD => 0x32
  | .EQ_EFFORT_MAX => 0x3
  | .EQ_DFE_EN => 0x1
  | .EQ_VOLT_EN => 0x1
  | .EQ_AD_DFE => 0x1
  | .EQ_AD_VOLT => 0x1
  | .EQ_AD_FFE => 0x1
  | .EQ_MAIN => 0x8
  | .EQ_MU_ACQ => 0x2
  | .EQ_MU_TRACK => 0x5
  | .EQ_BLOCK_LOG2 => 0x14
  | .EQ_DECIM_LOG2 => 0x4
  | .EQ_MAX_STEP => 0x10
  | .EQ_KP_SHIFT => 0x6
  | .EQ_KI_SHIFT => 0xE
  | .EQ_LS_SHIFT => 0x4
  | .EQ_DIV_RATIO => 0x20
  | .EQ_DIV_BLOCKS => 0x8
  | .EQ_CKPT_PERIOD => 0x1
  | .EQ_EFFORT => 0x3
  | .EQ_TXF_SHADOW => if i % 7 = 3 then 0x400 else 0
  | .EQ_FFE_SHADOW => if i % 48 = 8 then 0x1000 else 0
  | .EQ_VOLT_DB => (voltReset (i % 12)).2
  | .EQ_VOLT_DA => (voltReset (i % 12)).1
  | .SROT_PERIOD => 0x7D0
  | .SROT_EN => 0x1
  | .FEC_REL_THR => 0x20
  | .FEC_ERASE_MAX => 0x10
  | .FEC_ERASE_EN => 0x1
  | .FEC_DEC => 0x3
  | .DMT_MARGIN => 0x1E
  | .DMT_SWAP_DELTA => 0xA
  | .DMT_BITS_CAP => 0x8
  | .DMT_GAIN_LIM => 0x5
  | .DMT_SWAP_AUTO => 0x1
  | .DMT_SNR_LOG2 => 0xE
  | .DMT_FEQ_LOG2 => 0xA
  | .DMT_FEQ_MU => 0x4
  | .DMT_SWAP_LEAD => 0x10
  | .DMT_RMS => 0x70
  | .DMT_PILOT_GAIN => 0x200
  | .DMT_OHC_GAIN => 0x200
  | .DMT_SF_SHADOW => if i % 16 = 3 then 0x4000 else 0
  | .DTW_AUTO_INC => 0x1
  | .PORT_RATE => 0x2
  | .PORT_LMODE => 0x2
  | .PORT_HMODE => 0x2
  | .PORT_HOST_BASE => 2 * (i % 8)
  | .PORT_PRIORITY => 0x3
  | .HST_TRAIN_TO => 0x1E
  | .HST_DET_EN => 0x1
  | .HST_EN => 0x1
  | .HST_SWING => 0xA
  | .HST_CM1 => 0x3C
  | .ACQ_ACQ_TO => 0x32
  | .ACQ_DET_THR => 0x80
  | .ACQ_SHORT_AUTO => 0x1
  | .ACQ_RHO_AUTO => 0x1
  | .ACQ_REMOTE_FIR => 0x1
  | .CTX_TYPE => i % 32 / 8
  | .CTX_FENCE_EN => 0x1
  | .CTX_LANE => if i % 32 < 24 then i % 8 else 8
  | .CTX_PERIOD => if i % 32 < 8 then 5 else if i % 32 < 16 then 25 else if i % 32 < 24 then 5 else 250
  | .CTX_FB_SRC => 0x3FF
  | .CTX_OUT_KIND => if i % 32 < 24 then 1 else 0
  | .CTX_OUT_CD => if i % 32 < 24 then firstChan (i / 32) + i % 32 else 0
  | .CTX_FB_GAIN => 0x8000
  | .CTX_DEM_SH => 0x6
  | .CTX_BQ1 => if i % 5 = 0 then 1 else 0
  | .CTX_BQ2 => if i % 5 = 0 then 1 else 0
  | .CTX_OUT_MAX => 0xFFF0000
  | .CTX_DITH_PER => 0x32
  | .CTX_FE_LIM => 0x1000000
  | .CTX_FE_TIME => 0xA
  | .CTX_HOLD_TO => 0x32
  | .CTX_LOST_N => 0x1
  | .CTX_FREEZE_LOG2 => 0xB
  | .CTX_FREEZE_FLOOR => 0x1
  | .LG_PER0 => 0x10
  | .LG_PER1 => 0x10
  | .LG_SIG_A => 0x2
  | .LS_LASER_CD => firstChan (i / 8) + 8 + i % 8
  | .LS_OFF_CAUSE => 0x1
  | .LSH_SOFF_HELD => 0x1
  | .SEQ_LEN => 0x40
  | .SEQ_PERIOD => 0x19
  | .ENT_WIN_SEV => 0x1
  | .ENT_HI => 0xFFFF
  | .CH_PRESET => 0x1
  | .CH_HP_SH => 0xC
  | .CH_N => 0x1
  | .CD_SLEW_EN => 0x1
  | .CD_STEP => 0x10
  | .CD_TICK => 0xA
  | .CD_HIZ => 0x1
  | .CD_AT_CLEAR => 0x1
  | .BUD_ILIM => 0x1E0
  | .THM_TT => 0x61
  | .THG_ENG_HI => 0x55
  | .ENG_EN => 0x1
  | .ENG_RES25 => 0x3E8
  | .ENG_BETA_NF => if i % 4 < 2 then 0x0074 else 0x0D6B
  | .TIME_PPS_WIDTH => 0x64
  | .TIME_ADDEND => 0x40000000
  | .TIME_RATE => 0x32
  | .TIME_SYNC => i
  | .TSP_TX_REC => 0xE
  | .TSP_ENCAP => 0x7
  | .SP_SLICE_SPARE => if i % 4 = 3 then 0 else 1
  | .SP_KND_SPARE => 0x1
  | .SP_SADC_SPARE => if i % 4 = 3 then 0 else 8
  | .SP_SEG_SPARE => if i % 4 = 3 then 0 else 16
  | .SP_ROWS_LEFT => Config.rowsLeft i % 65536
  | .REL_EN => 0x1
  | .REL_LAP_LIM => 0x2710
  | .HIF_ALERT_SEV => 0x2
  | .HIF_MDIO_EN => 0x1
  | .RING_SIZE_LOG2 => 0x4
  | .PG_PERIOD => 0x3E8
  | .PG_WIN => 0xA
  | .TLM_TX_ENTRY => 0x1FF
  | .TLM_RX_ENTRY => 0x1FF
  | .TLM_TX_RESP => 0x3E8
  | .TLM_RX_RESP => 0x1F40
  | .PERF_LANE_MASK => 0xFF
  | .PERF_H1_BASE => 0x8
  | .PERF_H0_BASE => 0x8
  | .PERF_H0_SEL => if i % 4 = 3 then 4 else 8
  | _ => 0

/-- The fields of a block, in the order of the tables. -/
def Blk.flds : Blk → List Fld
  | .TOP => [.TOP_PART, .TOP_STEP_MAJ, .TOP_STEP_MIN, .TOP_HALF]
  | .BR => [.BR_ISLAND_CNT, .BR_ROLE, .BR_MISSED, .BR_STATE]
  | .FE => [.FE_SEG_ROT_EN, .FE_ROT_EN, .FE_RX_POL, .FE_TX_POL, .FE_AGC_MODE, .FE_MANUAL_STEP, .FE_RX_EN,
      .FE_TX_EN, .FE_SWING, .FE_TARGET, .FE_STEP_MAX, .FE_STEP_MIN, .FE_LOS_THR, .FE_SADC_PERIOD,
      .FE_SEG_PERIOD, .FE_GAIN_STEP, .FE_LEVEL, .FE_SIG_DET, .FE_AGC_TRACK, .FE_SADC_FAILED, .FE_SEG_FAILED,
      .FE_SADC_ROT, .FE_SEG_ROT, .FE_HANDOVER, .FE_CLIP, .FE_SEG_FAIL, .FE_SADC_FAIL, .FE_HO_DISAGREE,
      .FE_OVERLOAD_STEP, .FE_SIG_CHG, .FE_EVT_GAIN_STEP, .FE_HO_CNT, .FE_HO_DEFER, .FE_HO_DISAGREE_CNT,
      .FE_GAIN_CNT]
  | .EQ => [.EQ_EFFORT_MAX, .EQ_LOCKSTEP, .EQ_DFE_EN, .EQ_VOLT_EN, .EQ_AD_DFE, .EQ_AD_VOLT, .EQ_AD_FFE, .EQ_MAIN,
      .EQ_MU_ACQ, .EQ_MU_TRACK, .EQ_BLOCK_LOG2, .EQ_DECIM_LOG2, .EQ_MAX_STEP, .EQ_KP_SHIFT, .EQ_KI_SHIFT,
      .EQ_MM_BIAS, .EQ_LS_SHIFT, .EQ_DIV_RATIO, .EQ_DIV_BLOCKS, .EQ_CKPT_PERIOD, .EQ_EFFORT, .EQ_THROTTLED,
      .EQ_ADAPT, .EQ_HOLD, .EQ_CKPT_VALID, .EQ_PARALLEL, .EQ_SLICE_SWAP, .EQ_SLICE_ABANDON, .EQ_EFFORT_CHG,
      .EQ_FROZEN, .EQ_REVERT, .EQ_TLOCK_CHG, .EQ_SNR, .EQ_VALID, .EQ_EYE_HI, .EQ_EYE_MID, .EQ_EYE_LO,
      .EQ_FREQ, .EQ_PHASE, .EQ_LS_MEMBER, .EQ_LOCK, .EQ_TXF_APPLIED, .EQ_TXF_SHADOW, .EQ_D1_APPLIED,
      .EQ_D1_SHADOW, .EQ_FFE_APPLIED, .EQ_FFE_SHADOW, .EQ_VOLT_APPLIED, .EQ_VOLT_DB, .EQ_VOLT_DA,
      .EQ_VOLT_SHADOW, .EQ_CAPTURE, .EQ_SWAP_CNT, .EQ_REVERT_CNT, .EQ_TX_CLAMP, .EQ_PRED0, .EQ_PRED1,
      .EQ_PRED2, .EQ_PRED3]
  | .SROT => [.SROT_PERIOD, .SROT_EN]
  | .FEC => [.FEC_REL_THR, .FEC_ERASE_MAX, .FEC_ERASE_EN, .FEC_POISON_PARITY, .FEC_RHO, .FEC_FEC_MODE,
      .FEC_PM_MARGIN, .FEC_DEC, .FEC_CW_LOCK, .FEC_LAT_VALID, .FEC_RX_LAT, .FEC_TX_LAT, .FEC_DEC_CHG,
      .FEC_UNCORR_HOST, .FEC_UNCORR_LINE, .FEC_CW_LOCK_CHG, .FEC_MARGIN_LOW, .FEC_CLEAR, .FEC_HIST,
      .FEC_PRE_DEC_ERR, .FEC_PARITY_FAIL]
  | .FECS => [.FECS_CW, .FECS_CORR_CW, .FECS_UNCORR_CW, .FECS_SYM_ERR, .FECS_BIT_ERR, .FECS_ERASE_CW]
  | .DMT => [.DMT_MARGIN, .DMT_SWAP_DELTA, .DMT_BITS_CAP, .DMT_GAIN_LIM, .DMT_SWAP_AUTO, .DMT_SNR_LOG2,
      .DMT_FEQ_LOG2, .DMT_FEQ_MU, .DMT_SWAP_LEAD, .DMT_RMS, .DMT_PILOT_GAIN, .DMT_OHC_GAIN, .DMT_TX_ACT,
      .DMT_RX_ACT, .DMT_PEND_TX, .DMT_PEND_RX, .DMT_LOADED, .DMT_MIN_MARGIN, .DMT_MIN_TONE, .DMT_TRIGGER,
      .DMT_ACT_WRITE, .DMT_FLAG_UNEXP, .DMT_LOAD_FAIL, .DMT_SWAP_FAIL, .DMT_SWAP_TX, .DMT_SWAP_RX,
      .DMT_SYM_IDX, .DMT_LAST_RX, .DMT_LAST_TX, .DMT_SWAP_CNT, .DMT_SWAP_FAIL_CNT, .DMT_TX_CLIP,
      .DMT_MEAN_MARGIN, .DMT_SF_APPLIED, .DMT_SF_SHADOW]
  | .DTW => [.DTW_LANE, .DTW_TABLE, .DTW_AUTO_INC, .DTW_TONE]
  | .PORT => [.PORT_EN, .PORT_RATE, .PORT_LMODE, .PORT_HMODE, .PORT_HOST_BASE, .PORT_PRIORITY, .PORT_STATE,
      .PORT_HOST_UP, .PORT_LINE_UP, .PORT_HOST_SKEW, .PORT_LINE_SKEW, .PORT_SKEW_OVR_LINE,
      .PORT_SKEW_OVR_HOST, .PORT_UP_CHG, .PORT_REJECT]
  | .HST => [.HST_TRAIN_TO, .HST_RETRAIN, .HST_HCLASS, .HST_TRAIN_EN, .HST_DET_EN, .HST_RX_POL, .HST_TX_POL,
      .HST_EN, .HST_SWING, .HST_CM3, .HST_CM2, .HST_CM1, .HST_CP1, .HST_STAGE, .HST_DET, .HST_BIT_LOCK,
      .HST_SYM_LOCK, .HST_AM_LOCK, .HST_TRAIN_FALLBACK, .HST_LOCK_FAIL, .HST_CTLE, .HST_SNR, .HST_TX_C0,
      .HST_CAP_MISMATCH, .HST_TRAIN_TO_EVT, .HST_DROP, .HST_STAGE_CHG, .HST_DROP_CNT, .HST_TRAIN_CNT]
  | .ACQ => [.ACQ_ACQ_TO, .ACQ_DET_THR, .ACQ_MIN_SNR, .ACQ_LOOP_OK, .ACQ_SHORT_AUTO, .ACQ_RHO_AUTO, .ACQ_REMOTE_FIR,
      .ACQ_PROTO, .ACQ_STATE, .ACQ_SUBSTATE, .ACQ_RX_READY, .ACQ_PEER_READY, .ACQ_TX_DATA, .ACQ_RX_DATA,
      .ACQ_PEER_SEEN, .ACQ_LOOPBACK, .ACQ_RHO_CHOSEN, .ACQ_MISMATCH, .ACQ_PEER_CAP, .ACQ_PEER_TAG,
      .ACQ_PEER_LANE, .ACQ_REFUSED_EVT, .ACQ_LOOPBACK_EVT, .ACQ_CAP_MISMATCH, .ACQ_ACQ_FAIL, .ACQ_LEAVE_DATA,
      .ACQ_ENTER_DATA, .ACQ_FALSE_DET, .ACQ_RESTART, .ACQ_HDR_FAIL, .ACQ_CRC_FAIL, .ACQ_PSTEP_ABORT,
      .ACQ_FOREIGN, .ACQ_FRAME_OK, .ACQ_FAIL_CNT, .ACQ_DATA_CNT, .ACQ_ACQ_TIME]
  | .CTX => [.CTX_EN, .CTX_MODE, .CTX_TYPE, .CTX_DEMOD, .CTX_DITH_EN, .CTX_FENCE_EN, .CTX_LANE, .CTX_PERIOD,
      .CTX_FB_SRC, .CTX_OUT_KIND, .CTX_OUT_CD, .CTX_OUT_CTX, .CTX_FB_OFFSET, .CTX_FB_SH, .CTX_FB_GAIN,
      .CTX_KP_SH, .CTX_KI_SH, .CTX_KD_SH, .CTX_EYE_SH, .CTX_DEM_SH, .CTX_B0_SH, .CTX_B1_SH, .CTX_B2_SH,
      .CTX_A1_SH, .CTX_A2_SH, .CTX_KP, .CTX_KI, .CTX_KD, .CTX_EYE_G, .CTX_BQ1, .CTX_BQ2, .CTX_OUT_MIN,
      .CTX_OUT_MAX, .CTX_TARGET, .CTX_VMAX, .CTX_AMAX, .CTX_JMAX, .CTX_DITH_AMP, .CTX_DITH_PER, .CTX_DITH_PH,
      .CTX_MIX, .CTX_EYE_DLY, .CTX_FE_LIM, .CTX_FE_TIME, .CTX_HOLD_TO, .CTX_LOST_N, .CTX_FREEZE_LOG2,
      .CTX_FREEZE_FLOOR, .CTX_PARK, .CTX_STATE, .CTX_CAUSE, .CTX_AT_TARGET, .CTX_CLAMP, .CTX_CEIL,
      .CTX_EYE_DROP, .CTX_INJ, .CTX_PARKED, .CTX_HOLD_CLR, .CTX_HOLD_IN, .CTX_EYE_EVT, .CTX_P_NOW,
      .CTX_X_NOW, .CTX_E_NOW, .CTX_O_NOW, .CTX_HOLD_CNT, .CTX_SKIP_CNT]
  | .LG => [.LG_HOLD_MAP, .LG_PARK_MAP, .LG_START, .LG_STOP, .LG_TYPE, .LG_POINT, .LG_INJ_CTX, .LG_AMP, .LG_PER0,
      .LG_PER1, .LG_LEN, .LG_ARM, .LG_TRIG, .LG_CAP_CTX, .LG_SIG_A, .LG_SIG_B, .LG_DEC, .LG_PRE, .LG_DONE,
      .LG_ARMED, .LG_COUNT, .LG_CAP_ADDR, .LG_CAP_DATA]
  | .LS => [.LS_LASER_CD, .LS_BIAS_CEIL, .LS_PWR_CEIL, .LS_APR_MODE, .LS_APR_EN, .LS_LASER_EN, .LS_APR_PWR,
      .LS_APR_TGT, .LS_LASEN, .LS_STATE, .LS_OFF_CAUSE, .LS_OVP_CNT, .LS_NEXT_PULSE, .LS_CLAMPED,
      .LS_APR_OUT, .LS_APR_IN, .LS_OVP_TRIP, .LS_CLAMP_CNT, .LS_APR_CNT]
  | .LSH => [.LSH_SOFF_RESUME, .LSH_LOCK, .LSH_SOFF_PIN, .LSH_SOFF_HELD, .LSH_SOFF_CNT, .LSH_RESUME]
  | .MON => [.MON_TDAC_CODE, .MON_ORNG_CNT1, .MON_ORNG_CNT0]
  | .SEQ => [.SEQ_EN, .SEQ_LEN, .SEQ_OFFSET, .SEQ_PERIOD, .SEQ_RUNS, .SEQ_OVERRUN]
  | .MIN => [.MIN_TYPE, .MIN_SENSE]
  | .ENT => [.ENT_EN, .ENT_INPUT, .ENT_ACQ_EXTRA, .ENT_CHAIN_EN, .ENT_CHAIN, .ENT_TEST, .ENT_WIN_EN, .ENT_WIN_SEV,
      .ENT_HYST, .ENT_HI, .ENT_LO, .ENT_SEQNUM, .ENT_TESTED, .ENT_SETTLED, .ENT_SUSPECT, .ENT_ORNG,
      .ENT_CODE, .ENT_SUSP_CNT, .ENT_OUTSIDE, .ENT_WIN_EXIT, .ENT_OVR]
  | .CH => [.CH_PRESET, .CH_HP_EN, .CH_HP_FREEZE, .CH_HP_SH, .CH_N, .CH_LM1, .CH_STEP_THR, .CH_SH1, .CH_SH2,
      .CH_SH3, .CH_SETTLED, .CH_FULLW, .CH_FILL, .CH_OUT_CNT, .CH_HP_EST, .CH_FW_RESULT, .CH_RESTART]
  | .CD => [.CD_MODE, .CD_SLEW_EN, .CD_STEP, .CD_TICK, .CD_CODE, .CD_CLR_CODE, .CD_HIZ, .CD_DISC, .CD_AT_CLEAR,
      .CD_LOOP, .CD_HELD_ILIM, .CD_HELD_CEIL, .CD_FORCED0, .CD_SLEWING, .CD_REQ, .CD_OUT]
  | .BUD => [.BUD_USED, .BUD_ILIM]
  | .CLRH => [.CLRH_CLR_CNT, .CLRH_CLR_PIN]
  | .THM => [.THM_TT, .THM_TRIP, .THM_TT_PIN, .THM_TRIP_SRC, .THM_TRIP_SENSOR, .THM_HOTTEST, .THM_CLEAR]
  | .DS => [.DS_VALID, .DS_FAULT, .DS_TEMP]
  | .THG => [.THG_TG, .THG_TE, .THG_STAGE, .THG_C, .THG_S, .THG_USED, .THG_TFENCED, .THG_ENG_HI, .THG_THR_TICKS,
      .THG_ENG_HOT, .THG_SENS_FAULT, .THG_TFENCE, .THG_STAGE_CHG]
  | .ENG => [.ENG_EN, .ENG_RES25, .ENG_BETA_NF, .ENG_VALID, .ENG_FAULT, .ENG_TEMP, .ENG_RES]
  | .FF => [.FF_FF_EN, .FF_FF_SRC, .FF_FF_K]
  | .CAL => [.CAL_CAL_CNT, .CAL_LAST_SEC, .CAL_DISAGREE, .CAL_INTERP_ONLY, .CAL_LAST_NS, .CAL_DIS_CNT]
  | .CALH => [.CALH_MON_CAL_CNT, .CALH_CDAC_DRIFT_CNT, .CALH_MON_DIS_CNT, .CALH_MON_DIS, .CALH_CDAC_DRIFT,
      .CALH_CAL_STARVED, .CALH_DRIFT_CH]
  | .TIME => [.TIME_STEP, .TIME_AT_SECOND, .TIME_PPS_OUT_EN, .TIME_PPS_EVT_EN, .TIME_PPS_WIDTH, .TIME_ADDEND,
      .TIME_SLEW, .TIME_ACTIVE, .TIME_RATE, .TIME_FRAC, .TIME_NS, .TIME_SEC_LO, .TIME_SEC_HI, .TIME_SET_NS,
      .TIME_SET_SEC_LO, .TIME_SET_SEC_HI, .TIME_REMAIN, .TIME_SYNC, .TIME_STEP_CNT, .TIME_B_OFFSET,
      .TIME_PPS_FRAC, .TIME_PPS_NS, .TIME_PPS_SEC_LO, .TIME_PPS_SEC_HI, .TIME_PPS_OUT_COMP, .TIME_SLEW_DONE,
      .TIME_STEP_DONE, .TIME_ONE_STEP_ERR, .TIME_TSQ_OVF, .TIME_PPS_LOST, .TIME_PPS_IN_EDGE, .TIME_TSQ_FILL,
      .TIME_PEND_ALL, .TIME_PEND_COMMIT, .TIME_PEND_SNAP, .TIME_DROP_CNT, .TIME_REC_CNT]
  | .TSP => [.TSP_TS_EN, .TSP_ONE_STEP, .TSP_RX_INSERT, .TSP_RX_REC, .TSP_TX_REC, .TSP_ENCAP, .TSP_TX_CORR,
      .TSP_RX_CORR, .TSP_TX_CNT, .TSP_RX_CNT, .TSP_ACC_OK, .TSP_FCS_BAD, .TSP_ONE_STEP_ERR]
  | .SP => [.SP_SLICE_SPARE, .SP_KND_SPARE, .SP_SADC_SPARE, .SP_SEG_SPARE, .SP_ROWS_ZERO, .SP_ROWS_LEFT,
      .SP_STICKY_PEND]
  | .REL => [.REL_LOG_FULL, .REL_ROW_EXHAUST, .REL_HOST_UE, .REL_SCRUB_SLOW, .REL_ZEROISED, .REL_ST_ABORT,
      .REL_ST_FAIL, .REL_SPARE_USED, .REL_KND_FAIL, .REL_DMA_UE, .REL_POISON, .REL_STICKY, .REL_EN,
      .REL_LAP_LIM, .REL_LOG_USED, .REL_KEY_LOADED, .REL_KEY_LOCKED, .REL_SCAN_SEEN, .REL_ZERO_CNT]
  | .ECC => [.ECC_CE_CNT, .ECC_UE_CNT, .ECC_POISON_CNT, .ECC_STICKY_CNT, .ECC_LAP_MS, .ECC_TRK_USED,
      .ECC_LAST_ARRAY, .ECC_LAST_WORD]
  | .KND => [.KND_STATE, .KND_CAUSE, .KND_SPARE_IN, .KND_TRAP_CNT]
  | .ST => [.ST_STATE, .ST_KIND, .ST_UNIT, .ST_RESULT, .ST_REMAIN, .ST_SIG, .ST_ST_RUNS, .ST_ABORT_CNT]
  | .HIF => [.HIF_RUN, .HIF_ERR_VEC, .HIF_ALERT_SEV, .HIF_ALERT, .HIF_NO_RINGS, .HIF_SEV_HIT, .HIF_RING_HALT,
      .HIF_BAD_ACCESS, .HIF_SB_LO, .HIF_SB_HI, .HIF_EVT_LOST, .HIF_TLM_LOST, .HIF_MDIO_EN, .HIF_PRTAD_BASE]
  | .RING => [.RING_BASE_LO, .RING_BASE_HI, .RING_EN, .RING_RESET, .RING_VEC, .RING_SIZE_LOG2, .RING_ACTIVE,
      .RING_HALTED, .RING_ERR, .RING_INDEX, .RING_COUNT, .RING_TIME]
  | .BOOT => [.BOOT_STATE, .BOOT_STEP, .BOOT_START_KIND, .BOOT_SLOT, .BOOT_TRIAL, .BOOT_FAIL_CNT, .BOOT_UPD_STAGE,
      .BOOT_SETTINGS, .BOOT_PANTRY_VALID, .BOOT_DUMP_HELD, .BOOT_VERSION, .BOOT_ERR, .BOOT_LOADED, .BOOT_KEY,
      .BOOT_REQ, .BOOT_ST_ADDR_LO, .BOOT_ST_ADDR_HI, .BOOT_ST_LEN, .BOOT_GO, .BOOT_ST_SLOT, .BOOT_BUSY,
      .BOOT_ST_RESULT]
  | .PG => [.PG_STATE, .PG_PADS_HELD, .PG_HS_BLOCK, .PG_LAST_REASON, .PG_LAST_BLOCK, .PG_PERIOD, .PG_WIN,
      .PG_SEQ_MASK, .PG_AUTO_WAKE, .PG_WAKE_CNT, .PG_PROOF_CNT, .PG_REFUSED, .PG_WAKE_RETRY, .PG_WAKE_FAIL,
      .PG_PROOF_WAKE]
  | .PH => [.PH_DSTATE, .PH_LAST_RESET, .PH_D3_HOT, .PH_D3_REFUSED, .PH_RESET_CNT, .PH_VALID, .PH_AREA_OK,
      .PH_USED_KIB]
  | .TLM => [.TLM_TX_ENTRY, .TLM_RX_ENTRY, .TLM_TX_RESP, .TLM_RX_RESP, .TLM_TX_OFS, .TLM_RX_OFS]
  | .PERF => [.PERF_USER_EN, .PERF_SAMPLE, .PERF_CLEAR, .PERF_OVF, .PERF_LANE_MASK, .PERF_SEL_EN, .PERF_SEL_CHAIN,
      .PERF_SEL_EVT, .PERF_H_EN, .PERF_H_CLR, .PERF_H1_BASE, .PERF_H0_BASE, .PERF_H0_SEL]
  | .PC => [.PC_CYC, .PC_CNT, .PC_H0, .PC_H1, .PC_SAMP, .PC_SAMPLE_SEQ]
  | .FI => [.FI_UNLOCKED, .FI_RELOCK, .FI_LOCK, .FI_DISABLE, .FI_FI_KEY, .FI_ACTIVE_MAP]
  | .FIS => [.FIS_ACTIVE, .FIS_KIND, .FIS_SCOPE, .FIS_ID, .FIS_INJ_CNT, .FIS_HOST_TAG]

end Sys2Proof.Machine
end

