-- ==== Sys2Proof/Machine/State.lean ====
section
/-! DEFINITION. The state of KD4896: the register fields, shadow and applied, in sparse stores; beside them the state that
the rules give the part without a register of its own, one structure for each kind of unit; the queues between the halves
and toward the host; and the queue of commands that wait. -/

namespace Sys2Proof.Machine

/-- A register field that differs from its reset value. -/
structure FCell where
  fld : Fld
  idx : Nat
  val : Nat
  deriving DecidableEq, Repr

/-- Fields in rising order of (field, index), none at its reset value. -/
abbrev FStore := List FCell

/-- One word of an addressed RAM (a table, a buffer): key, value; words that are 0 are not listed. -/
structure RCell where
  key : Nat
  val : Nat
  deriving DecidableEq, Repr

abbrev Ram := List RCell

/-- R494: the fence causes. -/
inductive Cause
  | feSeg | feSadc | slice | memUe | loop | laserOvp | thermal | knd | portLogic | groupPower | groupIo
  | halfPower | refclk | wakeFailed
  deriving DecidableEq, Repr

/-- R40: a unit that can be fenced. -/
inductive FUnit
  | lane (l : Lane)
  | port (p : Lane)
  | group (g : Group)
  | half (h : Half)
  deriving DecidableEq, Repr

/-- The opcodes of R479 to R493. -/
inductive Opc
  | identify | commit | schedCancel | timeFreq | timeSlew | timeStep | nop
  | cfgWrite | cfgDiscard | bitswap | retrain | fenceRelease | eqCapture
  | lsLock | safeResume | aprRestart | loopStatus
  | cntClear | monRead | eventFilter
  | subscribe | unsubscribe | snapshot
  | groupState | deviceState | padRelease | fenceReleaseGroup | reset
  | selftest | updLoad | updVerify | updActivate | updConfirm | updRollback | dumpBuf | dumpFetch | fiUnlock | fiSet | fiClear
  | attOpen | attQuote | attCert | attClose
  deriving DecidableEq, Repr

/-- A command after it has been taken (R456): its opcode and descriptor, the half whose command ring carried it, the half
that executes it, the 40-bit time of taking or firing, the lateness in ns when it is late (R400), the time in ns from
which DELAY counts (R459), for an immediate command the tick at which it was taken (R552), and its place in the order of acceptance
(R32, R401). -/
structure Cmd where
  op : Opc
  req : Req
  org : Half
  exe : Half
  t40 : Nat
  late : Nat
  base : Nat
  taken : Option Nat
  order : Nat := 0
  deriving DecidableEq, Repr

/-- A completion that is due (R458). -/
structure Cpl where
  ring : Fin 4
  index : BitVec 12
  tag : W32
  irqNow : Bool
  status : Nat
  reason : Nat
  lo : Nat
  hi : Nat
  taken : Option Nat
  deriving DecidableEq, Repr

/-- An event that has been raised and not yet written (R460). -/
structure Evt where
  sev : Nat
  half : Half
  code : Nat
  seq : Nat
  sec : Nat
  ns : Nat
  scope : Nat
  id : Nat
  cause : Nat
  tag : W32
  d0 : Nat
  d1 : Nat
  deriving DecidableEq, Repr

/-- A telemetry record that waits (R462): `lane` records carry 32 words; `snap` names the snapshot it belongs to, by the
order number of its command, and `last` marks SNAP_END. -/
structure Tlm where
  src : Half
  snap : Option Nat
  last : Bool
  words : List W32
  deriving DecidableEq, Repr

/-- R400: a pending scheduled action: its command, the 40-bit time W and, for a COMMIT, the shadow changes that it applies
(R466). -/
structure Sched where
  cmd : Cmd
  /-- W as a full time of the half, in ns -/
  w : Nat
  cells : List FCell
  deriving DecidableEq, Repr

/-- A commit that has passed its checks, or a RETRAIN, that waits for the boundaries of R28. Each cell stands beside the lane whose
boundary carries it (R216, R238). `inst` is the commit instant in ns; `instA` and `instB` are it
in time ticks of each half. `cmd` is none for
the implicit commit of R447. `ramp` lists lanes whose swing ramp still runs (R58). -/
structure PendCommit where
  cmd : Option Cmd
  inst : Nat
  instA : Nat
  instB : Nat
  order : Nat
  cells : List (Lane × FCell)
  lanes : List Lane
  ramp : List Lane
  ctxWait : List Group
  lastNs : Nat
  deriving DecidableEq, Repr

/-- A snapshot that is pending or in capture (R35, R38). `due` counts time ticks; `t` is T in ns: of a scheduled snapshot its time W,
of an immediate one none until its first part has latched (R36). -/
structure Snap where
  cmd : Cmd
  half : Half
  due : Nat
  lanes : List Lane
  latched : Bool
  t : Option Nat
  deriving DecidableEq, Repr

/-- R544: a subscription. `next` is its next instant in ns of the half's time. -/
structure Sub where
  id : Nat
  lanes : List Lane
  period : Nat
  next : Nat
  deriving DecidableEq, Repr

/-- R383: a step of the time base that waits for the next tick or the next NS wrap. -/
structure StepReq where
  sec : Nat
  ns : Nat
  atSecond : Bool
  cmds : List Cmd
  deriving DecidableEq, Repr

/-- A ring as the part runs it beside the registers of R473: the host's index, the phase, descriptors fetched and not taken
(index, the tick at which it was there, words), reads under way with the tick of each request (R552), whether a taken command of the ring still runs (R455), entries not yet signalled. -/
structure RingS where
  host : Nat := 0
  phase : Bool := true
  staged : List (Nat × Nat × List W32) := []
  reads : List (Nat × Nat) := []
  busy : Bool := false
  /-- R444: the entries written since the latest signal, the tick of the first of them -/
  unsig : Nat := 0
  unsigAt : Nat := 0
  deriving DecidableEq, Repr

/-- R528: the entry handshake of a group: the state it was in and the one asked for, the block being asked (4 while the save of
R530 runs), whether that block delays, the always-on tick at which it was first asked. -/
structure Handshake where
  target : Nat
  origin : Nat
  block : Nat
  delaying : Bool
  asked : Nat
  cmd : Option Cmd
  deriving DecidableEq, Repr

/-- R533: a wake in progress: its second attempt or not, whether rail and PLL were found good, the always-on tick at which the attempt began, the state
that follows. -/
structure Wake where
  second : Bool
  railGood : Bool
  began : Nat
  target : Nat
  cmd : Option Cmd
  deriving DecidableEq, Repr

/-- R370: a trim: its kind as R371 numbers the targets (0 sub-ADC, 1 segment, 2 slice, 3 monitor ADC), its unit and cell, the
five points and the residual. -/
structure Trim where
  kind : Nat
  unit : Nat
  cell : Nat
  pts : List Rat
  res : Rat
  deriving DecidableEq, Repr

/-- R507: a boot record. PENDING: 0 none, 1 slot A, 2 slot B; SET_TRIAL and SET_ACTIVE: 0 none, 1 record 0, 2 record 1. -/
structure BootRec where
  seq : Nat := 0
  starterReq : Bool := false
  setTrial : Nat := 0
  setActive : Nat := 0
  validA : Bool := true
  validB : Bool := false
  fail : Nat := 0
  trial : Bool := false
  pending : Nat := 0
  active : Nat := 0
  hashA : BitVec 384 := 0
  hashB : BitVec 384 := 0
  deriving DecidableEq, Repr

/-- R510: a settings record: SEQ, the schema of its body, VERSION of the image that wrote it; of the body the trims of the half and the acquisition
start points of its lanes. -/
structure SetRec where
  seq : Nat := 0
  schema : Nat := 0
  writer : Nat := 0
  trims : List Trim := []
  starts : List FCell := []
  deriving DecidableEq, Repr

/-- R515: a piece of a delta in transfer: its command, unless the other half has failed it; the place in the delta and the length. -/
structure DeltaPiece where
  cmd : Option Cmd
  off : Nat
  len : Nat
  deriving DecidableEq, Repr

/-- R522: a crumb dump: 64 header words and the words of sections 1 to 5, none where a section is absent. -/
structure Dump where
  header : List Nat
  sections : List (Option (List Nat))
  deriving DecidableEq, Repr

/-- R535: a change of a half's device state in progress: its target (1 D-STANDBY, 2 D-OFF), the state before it, and the command. -/
structure DevReq where
  target : Nat
  was : Nat
  cmd : Option Cmd
  refused : Bool
  deriving DecidableEq, Repr

/-- R356 and R366: a sensor: the latest readings of an on-die sensor, newest first; conversions in a row far from the peers, and
good ones in a row; whether an engine sensor is above ENG_HI. -/
structure SensS where
  last : List Int := []
  far : Nat := 0
  good : Nat := 0
  hot : Bool := false
  deriving DecidableEq, Repr

/-- R412 and R414: a Kneader: the ticks of its latest traps, whether its image failed verification once. -/
structure KndS where
  traps : List Nat := []
  badImage : Bool := false
  /-- R430: the words whose reads trapped it, which its reload clears -/
  ueWords : List (MemUnit × Nat × Nat) := []
  deriving DecidableEq, Repr

/-- R429: an entry of a repeat tracker, most recently used first in its list; the unit is numbered as in R436. -/
structure TrkE where
  unit : Nat
  arr : Nat
  word : Nat
  done : Bool
  deriving DecidableEq, Repr

/-- R558: an injection slot beside its registers: PARAM1 to PARAM3 of its FI_SET, and the codewords or samples since the latest
injected one; for kind 8 the value at which the feedback is held; the always-on tick at which it began. -/
structure FiS where
  p1 : Nat := 0
  p2 : Nat := 0
  p3 : Nat := 0
  n : Nat := 0
  held : Option Int := none
  began : Nat := 0
  deriving DecidableEq, Repr

/-- What leaves the part: ring entries, status blocks, interrupts, read data, DMA to host buffers, frames and codewords. -/
inductive Out
  | entry (h : Half) (q : Fin 8) (idx : Nat) (words : List W32)
  | status (h : Half) (words : List W32)
  | msix (h : Half) (vec : Nat)
  | read (h : Half) (off : Nat) (v : Nat)
  | readBar (h : Half) (bar : Bar) (off : Nat) (v : Nat)
  | mdio (h : Half) (v : Nat)
  | descRead (h : Half) (q : Fin 4) (idx : Nat)
  | dma (h : Half) (addr : Nat) (what : String) (bytes : Nat)
  | dump (h : Half) (addr : Nat) (d : Dump)
  | quote (h : Half) (addr bytes : Nat) (nonce topId : Nat) (image : BitVec 384) (settings : Option SetRec)
  | heartbeat (h : Half) (state : Nat) (time : Option (Nat × Nat × Nat))
  | frame (l : Lane) (fr : AcqFrame)
  | hostProbe (x : HLane)
  | hostFrame (x : HLane) (limit : Bool) (want : Option (Nat × Int)) (ready : Bool)
  | codeword (l : Lane) (toHost : Bool) (place : Nat) (word : List Nat)
  | line (l : Lane) (codes : List Nat)
  | hostSignal (x : HLane) (swing : Nat) (taps : List Int) (bits : List Bool)
  | ptp (l : Lane) (frame : List (BitVec 8))
  | pps (high : Bool)
  deriving DecidableEq, Repr

/-- The state of a half beside its registers. -/
structure HalfS where
  /-- PORST# released and its start begun; false while PERST# or PORST# holds the half. -/
  live : Bool := true
  /-- R382: the time base. -/
  ticks : Nat := 0
  /-- R306: the always-on clock, in units of 4 ns. -/
  aon : Nat := 0
  sec : Nat := 0
  ns : Nat := 0
  frac : Nat := 0
  addend : Nat := 0x40000000
  /-- R383: the slew remaining in 2^-28 ns. -/
  remain : Int := 0
  step : Option StepReq := none
  pendAddend : Option Nat := none
  pendSlew : Option Int := none
  /-- R385 and R386: the servo correction per tick in 2^-28 ns, the slew of half A that half B follows, whether records carry HOLDOVER. -/
  corr : Int := 0
  follow : Int := 0
  holdover : Bool := false
  /-- the corrections of the last second with their ticks, newest first -/
  corrs : List (Nat × Int) := []
  /-- R383: NS wrapped at the latest tick. -/
  wrapped : Bool := false
  /-- R387: the last captured edge, whether one was captured, the tick at which it came. -/
  ppsSec : Nat := 0
  ppsNs : Nat := 0
  ppsFrac : Nat := 0
  ppsSeen : Bool := false
  ppsEdge : Nat := 0
  /-- R388: PPS_OUT is high, since a tick. -/
  ppsHigh : Bool := false
  ppsAt : Nat := 0
  /-- R12: the latched high words with their offsets, one for each 64-bit quantity. -/
  latch : List (Nat × Nat) := []
  /-- R460 and R461: the next SEQ, the events that wait and the events dropped since the last EVENTS_LOST. -/
  evtSeq : Nat := 0
  evts : List Evt := []
  evtDrop : Nat := 0
  /-- R489: filters by code, and the filter for all codes. -/
  filters : List (Nat × Nat) := []
  filtAll : Nat := 0
  /-- Completions that are due and not yet written. -/
  cpls : List Cpl := []
  /-- R462 and R463: telemetry records that wait, records dropped since the last LOST record. -/
  tlms : List Tlm := []
  tlmDrop : Nat := 0
  /-- R330: for each converter, slots from its latest over-range sample to its latest sample, at most 3. -/
  orngAgo : List Nat := [3, 3]
  /-- R398: the time-stamp staging queue; R399: whether drops follow a drop. -/
  tsq : List (List W32) := []
  tsqDropping : Bool := false
  rings : Vector RingS 8 := Vector.replicate 8 {}
  /-- R454: completion entries reserved for descriptors that have been fetched. -/
  reserved : Nat := 0
  /-- R443: Bus Master Enable. -/
  bme : Bool := false
  /-- R441 and R444: the MSI-X table as 32-bit words, the pending bits, and the function mask (no row writes it). -/
  msixTbl : Ram := []
  msixPend : List Nat := []
  funMask : Bool := false
  /-- R451: a field of words 0 to 4 has changed since the last status block; SB_SEQ. -/
  sbDirty : Bool := false
  sbSeq : Nat := 0
  /-- R47: the ring set-up registers written since PORST#, by offset. -/
  setup : List Nat := []
  sched : List Sched := []
  commits : List PendCommit := []
  snaps : List Snap := []
  subs : List Sub := []
  /-- R457: commands half A has forwarded and that have not completed. -/
  fwd : List Cmd := []
  fences : List Cause := []
  /-- R120, R160: EQ_CAPTURE and CNT_CLEAR commands and the lanes they still wait for. -/
  capWait : List (Cmd × List Lane) := []
  clrWait : List (Cmd × List Lane) := []
  /-- R416: the repair log, as (kind, unit), and how many records flash holds. -/
  log : List (Nat × Nat) := []
  logFlash : Nat := 0
  /-- R506: the block of the flash that holds the latest copy, and how many records the other block holds. -/
  logAt : Fin 2 := 0
  logPrev : Nat := 0
  /-- R254: which draw of the entropy source DEV_TAG holds. -/
  tag : Nat := 0
  /-- R48: consecutive good heartbeats, and whether half B's time is being reconciled by slew. -/
  good : Nat := 0
  /-- R499: a heartbeat has arrived since release, and the tick of the release. -/
  heard : Bool := false
  releasedAt : Nat := 0
  /-- R45: the tick at which the running window began, or the latest heartbeat came. -/
  windowAt : Nat := 0
  rejoinSlew : Bool := false
  rejoinStepAt : Option Nat := none
  rejoinOffset : Int := 0
  /-- R46 and R51: half B runs its own rings. -/
  promoted : Bool := false
  /-- R315: the always-on tick at which SAFE_OFF# went high. R369: the tick of the latest calibration in an idle converter slot. -/
  soffAt : Nat := 0
  slotAt : Nat := 0
  /-- R359: the mean temperature of the latest retrim, where it put the always-on oscillator, in 0.01 % of nominal, and the internal 1.200 V
  reference, in 0.001 %. R368: the half may trip from the pin; the tick since which every sensor has read 110 °C or less. -/
  retrim : Option Int := none
  osc : Int := 0
  bandgap : Int := 0
  pinArmed : Bool := true
  coolSince : Option Nat := none
  /-- R497: the half's PLL is locked and its time ticks run. R486: REFCLK is present. R500: PERST# is low. R535: D-OFF. -/
  clock : Bool := false
  refOk : Bool := true
  perst : Bool := false
  off : Bool := false
  /-- R507 and R508: the boot record in force, the copy in flash that holds it, the record in the other copy, where that is valid. -/
  boot : BootRec := {}
  bootCopy : Fin 2 := 0
  bootOld : Option BootRec := none
  /-- R506: what the part has written into the image slots and the update store of its flash; a slot that it has not written holds what the factory
  put there. -/
  slots : Vector (Option (List (BitVec 8))) 2 := Vector.replicate 2 none
  store : List (BitVec 8) := []
  /-- R509, R503: the image that runs, and whether a trial was abandoned at this start. -/
  run : Option ImageInfo := none
  rolledBack : Bool := false
  /-- R505: the image came through Starter mode and has not been released yet. -/
  fromStarter : Bool := false
  /-- R510: the settings records in flash, where the part has written one. -/
  settings : Vector (Option SetRec) 2 := Vector.replicate 2 none
  /-- R511: the tick at which one was written last. R516: the record slot to which the settings that the half holds belong, 0 for none. -/
  setAt : Option Nat := none
  setUsed : Nat := 0
  /-- R420: the units that have passed logic self-test since PORST#; every array has been through the march test. R415: the units that a start
  found lost, which release fences. R497: what the foreground calibration of this start measured: kind, unit, cell, temperature, value. -/
  passed : List TestUnit := []
  marched : Bool := false
  lost : List (FUnit × Cause) := []
  startCals : List (Nat × Nat × Nat × Int × Int) := []
  /-- R535: a change of device state in progress, and the states that the groups held before it. -/
  dev : Option DevReq := none
  /-- R536: the always-on tick of the latest entry that D3hot asked for. -/
  d3At : Nat := 0
  held : List Nat := []
  /-- R541: DEVICE_STATE commands, with their targets, that wait for a change in progress. -/
  devWait : List (Nat × Cmd) := []
  /-- R537: the half area of the pantry: the RW fields of the monitor, control DAC, thermal, calibration and time half registers. -/
  halfArea : List FCell := []
  /-- R537: the image hash in the pantry's header. -/
  pantry : BitVec 384 := 0
  /-- R521: the minimal dump that the pantry holds. R522: the latest event records, newest first. -/
  pantryDump : Option Dump := none
  evtLog : List Evt := []
  /-- R521: the registered dump buffer: address and size. -/
  dumpBuf : Option (Nat × Nat) := none
  /-- R515: the commands of the piece in transfer (with its offset and length) and of the verification in progress. -/
  loadCmd : Option DeltaPiece := none
  updCmd : Option Cmd := none
  /-- R423: the command of the on-demand self-test, and the tick at which the test began. -/
  stCmd : Option Cmd := none
  stAt : Nat := 0
  /-- R412: the Kneaders whose reload waits or runs, in the order of their traps. -/
  reloads : List Nat := []
  /-- R493: the open attestation sessions, each with its nonce. -/
  sessions : List (Nat × Nat) := []
  /-- R491 and R516: resets that act once a completion, named by its tag, has been written: SCOPE and ID as R452 codes them. -/
  resets : List (W32 × Nat × Nat) := []
  deriving DecidableEq, Repr

/-- A coefficient bank of a slice (R100): the 48 FFE taps, the 12 Volterra terms and the DFE tap, each as its field holds it. -/
structure Bank where
  ffe : List Nat := []
  volt : List Nat := []
  d1 : Nat := 0
  deriving DecidableEq, Repr

/-- R98: the accumulators of an adaptation block as it ended: one correlator for each FFE tap, each Volterra term and the DFE tap, and
Σe². -/
structure Accum where
  ffe : List Rat := []
  volt : List Rat := []
  dfe : Rat := 0
  sse : Rat := 0
  deriving DecidableEq, Repr

/-- R164: the settings of the outer decoder that a codeword starts under. -/
structure FecSet where
  relThr : Nat
  eraseMax : Nat
  eraseEn : Bool
  poison : Bool
  deriving DecidableEq, Repr

/-- R139, R143, R146, R150: the TC18 decoder: the encoder state that its decided LSBs reach, the metrics of the paths into each node, the level
decided last and the one that the slicer decided last. -/
structure DecS where
  sigma : Nat := 0
  paths : List (Option Rat) := []
  q : Nat := 0
  hard : Nat := 0
  deriving DecidableEq, Repr

/-- R115: what a slice parallel run copies into the incoming slice: coefficient banks, hold store, checkpoint, the timing loop, the states
of the encoder and of the decoder, the settings of the codeword in decoding. -/
structure SliceCopy where
  bank : Bank
  swap : Option Bank
  held : Bank
  ckpt : Bank
  timing : Int × Int
  enc : Nat
  dec : DecS
  rs : Option FecSet
  deriving DecidableEq, Repr

/-- R257: the phase of a reception. -/
inductive RxPhase | search | header | body
  deriving DecidableEq, Repr

/-- R195: a bit-swap of the receive direction, with this end as RE: the index S, the tones it changes, whether the answer
has come, the command that asked for it, whether it goes on (R195 step 3) or waits for the loading. -/
structure RxSwap where
  s : Nat
  loading : List (Nat × Nat)
  fromHost : Bool
  sent : Bool
  acked : Bool
  cmd : Option Cmd
  deriving DecidableEq, Repr

/-- R316: the APR state of a lane. -/
inductive Apr | off | hold | pulse
  deriving DecidableEq, Repr

/-- R301 and R302: the injector and the capture of a group: whether the injection waits for its first sample, the sample number,
the phase in 2^-32 turns, the PRBS register; entries kept before the trigger, whether capture is triggered, the decimation count. -/
structure InjS where
  armed : Bool := false
  on : Bool := false
  k : Nat := 0
  phase : Nat := 0
  prbs : Nat := 0x7FF
  pre : List Nat := []
  run : Bool := false
  dec : Nat := 0
  deriving DecidableEq, Repr

/-- R537: a lane snapshot beside its registers: hold store, checkpoint with its MSE and whether there is one, timing frequency, transform
window. -/
structure LaneSave where
  held : Bank := {}
  ckpt : Bank := {}
  ckptMse : Rat := 0
  valid : Bool := false
  freq : Int := 0
  window : Nat := 0
  deriving DecidableEq, Repr

/-- R537: a group area of the pantry: the applied values of the group's shadow fields, its other RW fields, eight lane snapshots. -/
structure GroupArea where
  cells : List FCell := []
  plain : List FCell := []
  lanes : List LaneSave := []
  deriving DecidableEq, Repr

/-- The state of a group beside its registers. -/
structure GroupS where
  fences : List Cause := []
  hs : Option Handshake := none
  wake : Option Wake := none
  /-- R541: changes of state, with their commands, that wait for the one in progress. -/
  moves : List (Nat × Option Cmd) := []
  /-- R16: the crossbar: the physical slice, 0 to 8, of each of the eight lanes. The ninth is the spare, or the one that has failed. -/
  xbar : Vector (Fin 9) 8 := Vector.ofFn fun i => ⟨i.val, by omega⟩
  /-- R114 to R118: the lane on a slice parallel run, whether the spare slice has passed its latest test, its mismatches in a
  row, the lane index whose turn is next, the lane index whose abandoned rotation is to be retried, the tick at which the next rotation falls
  due. -/
  sliceRun : Option Lane := none
  /-- R115: the state of the incoming slice during a parallel run. -/
  copy : Option SliceCopy := none
  spareOk : Bool := true
  /-- R420: the tick at which the running background test of the spare slice began; whether the spare has passed one since it left service. -/
  sliceTest : Option Nat := none
  tested : Bool := false
  mismatch : Nat := 0
  nextRot : Nat := 0
  rotRetry : Option Nat := none
  rotDue : Nat := 0
  inj : InjS := {}
  /-- R532: a proof window is open; the always-on ticks at which the next one opens and at which this one closes. -/
  proof : Bool := false
  proofDue : Nat := 0
  proofEnd : Nat := 0
  /-- R538: a group reset runs. -/
  resetting : Bool := false
  /-- R372: the temperature for which the trims in service stand, and the TG of the latest application, which they approach in steps. -/
  trimTemp : Option Rat := none
  trimGoal : Int := 0
  /-- R537: the group area of the pantry. -/
  area : GroupArea := {}
  deriving DecidableEq, Repr

structure PortS where
  fences : List Cause := []
  /-- R108: the shared timing loop of a port in lock-step: its integrator (frequency) and its phase, as LaneS holds a lane's own. -/
  lsI : Int := 0
  lsP : Int := 0
  /-- R220: rounds sent and received since the port came UP. R220 and R223: the codewords received that wait for the rest of their round, the oldest
  first, each with its place in the round; in LM100 and LM200 the bits of line lanes that wait, each with its lane's place. -/
  txRound : Nat := 0
  rxRound : Nat := 0
  collect : List (Nat × List Nat) := []
  lineBits : List (Nat × List Bool) := []
  /-- R217 and R237: the PRIORITY in force before the latest commit that changed it, and the tick of that commit. -/
  prioWas : Option (Nat × Nat) := none
  /-- R446: the port has left UP since the last read of register 1.1. -/
  downSeen : Bool := false
  /-- R446: register 1.0 bit 15 has been written 1 and some lane of the port has not left IDLE since. -/
  pmaReset : Bool := false
  /-- R446: what register 1.9 was last written with. -/
  txDisable : Nat := 0
  deriving DecidableEq, Repr

/-- The ticks from which times of a lane count. -/
structure LaneClock where
  /-- R58: the latest step of the swing ramp; R60: the start of the segment swap. -/
  rampAt : Nat := 0
  segAt : Nat := 0
  /-- R198: the latest failure of a bit-swap and the start of the suspension. -/
  failAt : Nat := 0
  suspAt : Nat := 0
  /-- R266: the latest LOAD attempt; R268: the entry to HOLDOFF. -/
  loadAt : Nat := 0
  holdAt : Nat := 0
  /-- On the always-on clock: R310: LASEN rose; R316: the APR timer began to run, and the entry to the APR state. -/
  biasAt : Nat := 0
  darkAt : Option Nat := none
  aprAt : Nat := 0
  deriving DecidableEq, Repr

/-- The state of a line lane beside its registers. -/
structure LaneS where
  clk : LaneClock := {}
  /-- R430 and R431: the uncorrectable words of its slice memories, which its release rewrites -/
  ueWords : List (MemUnit × Nat × Nat) := []
  fences : List Cause := []
  /-- R58: the SWING code in force and whether a ramp runs toward the applied one. -/
  vsw : Nat := 30
  ramp : Bool := false
  /-- R60: the 130 segment positions: the position that drives each of the 128 unary weights, the calibration spare in the dummy load,
  the repair reserve, the weight whose segment is measured next. -/
  segs : List Nat := List.range 128
  segCal : Option Nat := some 128
  segRes : Option Nat := some 129
  segTurn : Nat := 0
  /-- R371: the two runs of the calibration spare's latest calibration agreed. -/
  segOk : Bool := true
  /-- R60: a segment swap runs; R61 and R76: one is to be retried; the tick at which the next falls due. -/
  segSwap : Bool := false
  segRetry : Bool := false
  segDue : Nat := 0
  /-- R63: the measured gain ratio of each PGA step to the nominal one, 2^15 for 1; R64 and R68: the compensation in force. -/
  pga : List Nat := []
  comp : Nat := 0x8000
  /-- R67: the gain step whose hold has ended, +1 or -1, which waits for its boundary; the tick from which the decision condition has
  held. R69: the tick of the latest overload step. -/
  gain : Option Int := none
  condAt : Option (Int × Nat) := none
  overAt : Option Nat := none
  /-- R71 to R73: the ring of the 65 sub-ADCs: the one that serves each of the 64 phases, the spare, how many neighbours the rotation
  has passed over. -/
  phases : List Nat := List.range 64
  spare : Option Nat := some 64
  skip : Nat := 0
  /-- R71: the spare's latest calibration has passed; a rotation waits to be retried; the tick at which the next falls due. R73:
  disagreements in a row of the incoming sub-ADC. R74: the sub-ADCs outside the limits at the latest comparison. -/
  sparePassed : Bool := true
  sadcRetry : Bool := false
  sadcDue : Nat := 0
  disagree : Nat := 0
  outside : List Nat := []
  /-- R39 and R298: the LOOP cause of the lane came from an APC context, which is in the laser path. -/
  loopApc : Bool := false
  /-- R98: the tick at which the running block started, none while the Kneader has one in hand; the accumulators of the block that ended. R99:
  blocks since the last effort change, 65 for more than 64; R100: the shadow bank that waits for its swap. -/
  block : Option Nat := none
  acc : Option Accum := none
  effBlocks : Nat := 65
  /-- R552: the tick of the latest swap. -/
  swapAt : Option Nat := none
  swap : Option Bank := none
  /-- R103: the checkpoint, its MSE, the tick at which the next one falls due, blocks in a row above the ratio, a revert that is due, ticks of the
  latest reverts; R112: the hold store. -/
  ckpt : Bank := {}
  ckptMse : Rat := 0
  ckptDue : Nat := 0
  above : Nat := 0
  revertDue : Bool := false
  reverts : List Nat := []
  held : Bank := {}
  /-- R96 to R98: the mean square errors of the latest blocks, newest first; the lane eye metric, its
  validity and staleness (R97). -/
  mse : List Rat := []
  /-- R106: the timing loop: the integrator and the phase in 2^-24 of 1/256 UI; R108: the lane's own offset from the shared phase. -/
  tlI : Int := 0
  tlP : Int := 0
  lsOff : Int := 0
  /-- R462: the tick at which the latest quality measures were formed, plus 1. -/
  eqAt : Nat := 0
  eye : Int := 0
  eyeValid : Bool := false
  eyeStale : Bool := false
  /-- R111 and R363: the throttle reduction, and an effort change that waits for its boundary. -/
  throttle : Nat := 0
  effortDue : Bool := false
  /-- R120: a capture waits for its boundary; R160: a clear waits for its boundary. -/
  capture : Bool := false
  clear : Bool := false
  /-- R158: uncorrectable line codewords in a row. -/
  uncorr : Nat := 0
  /-- R190 to R198: the bit-swaps of both directions; failures in a row, suspension, a retry that waits, a trigger that is
  held, the tones low at the last window, the equaliser update that waits. -/
  rxSwap : Option RxSwap := none
  txSwap : Option (Nat × List (Nat × Nat)) := none
  swapFails : Nat := 0
  suspended : Bool := false
  swapRetry : Bool := false
  trigHeld : Bool := false
  low : List Nat := []
  /-- R176: the ticks at which the receive and transmit SYM_IDX were 0. -/
  rxTick : Nat := 0
  txTick : Nat := 0
  feq : List (Nat × Int × Int) := []
  /-- R183 and R187: the symbol index from which the running equaliser block and the running SNR window count; R265: a window has ended since SUBSTATE 2
  began. R200: S of the latest bit-swap of the receive direction. -/
  feqFrom : Nat := 0
  snrFrom : Nat := 0
  snrDone : Bool := false
  switched : Option Nat := none
  /-- R144 and R183: the final decisions of the TC18 decoder, the latest pair first: its number, the level (0 to 3) of each frame symbol. -/
  finals : List (Nat × List Nat) := []
  /-- R257: the reception; whether it is on C3; |C| / (256 × FS) and the level of its preamble; its header; R258: SEARCH waits for the level. -/
  phase : RxPhase := .search
  rxC3 : Bool := false
  mc : Rat := 0
  level : Rat := 0
  hdr : Nat := 0
  stopped : Bool := false
  /-- R259: the latched partner: DEV_TAG and SRC_LANE. R260: a matching CAP was accepted since entry to LINK, one with PEER_SEEN = 1, CAP
  frames sent since; the notice of LINK was raised. -/
  partner : Option (Nat × Nat) := none
  matched : Bool := false
  seen : Bool := false
  caps : Nat := 0
  noticed : Bool := false
  /-- R275: the tick of the last entry to LINK or BLIND; R268: that of the last exit from LINK or entry to BLIND; failures in a row. -/
  start : Nat := 0
  trainAt : Nat := 0
  fails : Nat := 0
  /-- R250: the lane's own SEQ; R262: its own PRESET that waits for confirmation, the partner's that waits to be applied, what
  STATUS reports of it; R262: the RHO search is done. -/
  seq : Nat := 0
  preset : Option (Nat × List Nat) := none
  /-- the last slot carried a PRESET: STATUS is next -/
  presetSlot : Bool := false
  apply : Option (Nat × List Nat) := none
  /-- the tick at which that PRESET ended -/
  applyAt : Nat := 0
  appliedSeq : Nat := 0
  refused : Bool := false
  rhoDone : Bool := false
  /-- R264 and R266: the transmit countdown (COUNT, and FILL or in LM400D the symbol at which data starts) and what the receiver knows of the data
  start. -/
  count : Option (Nat × Nat) := none
  /-- a STATUS with RX_READY = 1 has been accepted in this TRAIN; R261: a STATUS has been accepted in it -/
  go : Bool := false
  slotSeen : Bool := false
  /-- R413: SEQ and payload of the STATUS frame sent last. -/
  lastStatus : Option (Nat × List (BitVec 8)) := none
  dataAt : Option (Nat × Nat) := none
  /-- R264: the partner's first data symbol has come, before codeword alignment was held -/
  rxBegun : Bool := false
  /-- R141: the states of the TC18 encoder and of the decoder; R93: the six levels sent last, newest first; R164: the settings of the codeword
  in decoding from the line and from the host; R176: the next transmit symbol of LM400D, frames that wait for it;
  codeword pairs received. -/
  enc : Nat := 0
  dec : DecS := {}
  hist : List Int := []
  fecLine : Option FecSet := none
  fecHost : Option FecSet := none
  txSym : Nat := 0
  txFrames : List (List (Bool × Bool)) := []
  /-- R558: the delay in force of kind 6, and the code sent last. -/
  skew : Nat := 0
  lastCode : Nat := 0
  rxPair : Nat := 0
  /-- R148: the sum of the smallest Λ of the frames decoded in the running block, and their number. -/
  lamSum : Rat := 0
  lamN : Nat := 0
  /-- R249: the register of the idle fill, the bits that wait on C3, the tick at which the carrier sent last. -/
  idle : Nat := 0x7FFF
  ohc : List (Option Bool) := []
  carrierAt : Nat := 0
  /-- R266: LOAD attempts made. -/
  loadTries : Nat := 0
  window : Nat := 0
  /-- R313: an over-power trip is latched. -/
  ovpTrip : Bool := false
  /-- R310: the 10 µs hold of the bias channel after LASEN rises. -/
  biasHold : Bool := false
  /-- R316: the APR state; the comparator threshold follows APR_PWR; the tick from which the pulses count. -/
  apr : Apr := .off
  aprLow : Bool := false
  pulseAt : Nat := 0
  /-- R364: SYM_ERR and CW of side 0 at the previous tick. -/
  symPrev : Nat := 0
  cwPrev : Nat := 0
  /-- R538: a lane reset waits for its boundary. -/
  resetDue : Bool := false
  /-- R537: restored from its snapshot since it last entered TRAIN. -/
  restored : Bool := false
  /-- R522: the latest telemetry record of the lane. -/
  lastTlm : List W32 := []
  deriving DecidableEq, Repr

structure HLaneS where
  /-- R227: the tick of the entry to the stage, or of the latest restart in it. -/
  since : Nat := 0
  /-- R227: timeouts in a row of TRAIN and LOCK. -/
  trainFails : Nat := 0
  lockFails : Nat := 0
  /-- R233: the lane's group left G-ACTIVE or was fenced; the lane re-enters at DETECT. -/
  away : Bool := false
  /-- R228: the transmit taps in use; the own receiver is ready; the far end has reported its receiver ready. -/
  tap : List Int := []
  ready : Bool := false
  farReady : Bool := false
  /-- R218 and R231: the PCS lanes located on the host lane by their markers. -/
  pcs : List Nat := []
  deriving DecidableEq, Repr

/-- A loop context beside its registers (R283 to R302). Positions of the profile have LSB 2^-32, as have its velocity per ms and
acceleration per ms²; all other quantities are Q16.16. -/
structure CtxS where
  /-- R286: it starts at its next sample; R297: it resumes at its next sample. -/
  fresh : Bool := false
  resume : Bool := false
  /-- R299: LASER_OFF or FENCE held during the external hold; R298: this context fenced its lane. -/
  restart : Bool := false
  mine : Bool := false
  /-- R290: the profile, and the target and limits its plan is made with. -/
  p : Int := 0
  v : Int := 0
  a : Int := 0
  tgt : Int := 0
  vmax : Nat := 0
  amax : Nat := 0
  jmax : Nat := 0
  /-- R283: the latest r; the integrator, the previous x, the delays of the biquads. -/
  r : Int := 0
  i : Int := 0
  xPrev : Int := 0
  u1 : Int := 0
  u2 : Int := 0
  y1 : Int := 0
  y2 : Int := 0
  z1 : Int := 0
  z2 : Int := 0
  /-- R287 to R289: samples of the dither, the demodulators, samples since the eye metric returned. -/
  k : Nat := 0
  d : Int := 0
  dEye : Int := 0
  eyeWait : Nat := 0
  /-- R276: the frame of the latest sample. R294 to R297: invalid samples in a row, good ones in a row, the window (count, Σr, Σr²), the frame from
  whose sample |e| has exceeded FE_LIM. -/
  last : Option Nat := none
  bad : Nat := 0
  good : Nat := 0
  winN : Nat := 0
  winS : Int := 0
  winQ : Int := 0
  follow : Option Nat := none
  /-- R297 and R298: the held output and the held u; the frame of the entry to HOLD; its fault has cleared and it resumes at its next sample; the second
  demodulators. R300: settings in use that a commit has changed since the entry to HOLD. -/
  held : Int := 0
  heldU : Int := 0
  since : Nat := 0
  clears : Bool := false
  before : List (Fld × Nat) := []
  hd : Int := 0
  hdEye : Int := 0
  /-- R360: the sensor that FF_SRC named at the previous sample and its temperature. -/
  temp : Option (Nat × Int) := none
  deriving DecidableEq, Repr

/-- R341 to R345: a control DAC channel: OUT rests until the next request; µs since the slew limiter last moved; the mode of the
pin, and a mode change in progress. -/
structure ChanS where
  rest : Bool := true
  us : Nat := 0
  mode : Nat := 0
  changing : Bool := false
  deriving DecidableEq, Repr

/-- R326 and R327: a monitor sequence: EN, PERIOD and OFFSET as the latest frame took them; whether a run waits; the entries of the
run in progress still to be converted, each with its words 0 and 1 as the run started; the tick of the start time of the run that waits. -/
structure SeqS where
  en : Bool := false
  period : Nat := 25
  offset : Nat := 0
  waiting : Bool := false
  ready : Nat := 0
  run : Option (List (Nat × Nat × Nat)) := none
  /-- R327: the tick at which the latest run ended. R338: the entries that were enabled when it started, each with its word 0. R330: no entry of the
  run in progress has been sampled yet. -/
  ended : Nat := 0
  took : List (Nat × Nat) := []
  fresh : Bool := false
  deriving DecidableEq, Repr

/-- R335 to R339: a decimation chain: the previous input, whether the next input is the first after a restart, the last L inputs
of each stage, inputs since the restart; the integrators and combs of full-width mode. -/
structure ChainS where
  prev : Option Nat := none
  first : Bool := true
  stages : List (List Int) := []
  count : Nat := 0
  ints : List Nat := []
  combs : List Nat := []
  deriving DecidableEq, Repr

/-- What travels over the bridge from half B to half A beside completions (R22, R460, R463, R398). -/
inductive BRec
  | evt (e : Evt)
  | tlm (t : Tlm)
  | ts (r : List W32)
  deriving DecidableEq, Repr

/-- R22: the bridge: commands on the way to half B, completions and records on the way to half A, and the snapshot
records that half A has not acknowledged (R468). -/
structure BridgeS where
  cmds : List Cmd := []
  cpls : List Cpl := []
  recs : List BRec := []
  /-- R22: the bytes of a delta piece on the way to half B. -/
  piece : Option (List (BitVec 8)) := none
  deriving DecidableEq, Repr

/-- The state of KD4896. `f` holds what each register field reads, the written (shadow) value for a shadow field (R27, R466);
`ap` the applied value of the shadow fields. -/
structure State where
  f : FStore
  ap : FStore
  /-- R27 and R102: the shadow fields that the host has written and no commit has applied since. -/
  written : List (Fld × Nat)
  halves : Vector HalfS 2
  groups : Vector GroupS 6
  ports : Vector PortS 48
  lanes : Vector LaneS 48
  /-- R188 and R210: the DMT tables: key ((lane × 4 + table) × 1,024 + tone). -/
  dmt : Ram
  hlanes : Vector HLaneS 96
  ctxs : Vector CtxS 192
  chans : Vector ChanS 160
  seqs : Vector SeqS 8
  chains : Vector ChainS 64
  dies : Vector SensS 32
  engs : Vector SensS 24
  knds : Vector KndS 128
  /-- R430 and R558: the words known to hold an error (unit, array, word; 0 a single bit, 1 a double bit, 2 poison). -/
  faulty : List (Nat × Nat × Nat × Nat)
  /-- R429: the repeat trackers, and the STICKY words (unit, array, word). -/
  trackers : List TrkE
  /-- R558: the injection slots, 16 × half + slot. -/
  fis : Vector FiS 32
  sticky : List (Nat × Nat × Nat)
  /-- R417: the rows that spare rows replace, and the failing rows that the next start will replace (unit of R436, array, row). -/
  rows : List (Nat × Nat × Nat)
  badRows : List (Nat × Nat × Nat)
  /-- R422: TESTMODE is high. R497: PORST# is low. -/
  testmode : Bool
  /-- R589: the TAPs hold EXTEST. -/
  extest : Bool
  porst : Bool
  /-- R276: loop-engine frames since PORST#. -/
  frame : Nat
  /-- The number of results of each monitor entry (key: entry) and of each engine sensor (key: 512 + sensor). -/
  results : Ram
  /-- R462: one more than the tick of the latest result of each monitor entry. -/
  resultAt : Ram
  /-- R325: one more than the tick of the last change of TYPE or SENSE of each input. -/
  senseAt : Ram
  /-- R302: the capture buffers (key: 4,096 × group + entry). -/
  capture : Ram
  bridge : BridgeS
  trims : List Trim
  /-- What has left the part, newest first. -/
  out : List Out
  /-- The model's own: how many free values have been drawn. -/
  free : Nat
  /-- R32 and R401: how many commands have been accepted: the order of acceptance. -/
  accepted : Nat
  /-- The commands that wait, the first in front. -/
  pending : List Instr
  deriving DecidableEq, Repr

/-- The faults of the model. -/
inductive Fault
  /-- Raised by nothing: no rule stops the part. Harmless: no step answers it. -/
  | none
  deriving DecidableEq, Repr

/-- The refusals of the model. -/
inductive Refusal
  /-- Raised by an arm of `exec` whose command has no meaning yet. Safe: the run stops. -/
  | notModelled (mnemonic : String)
  deriving DecidableEq, Repr

/-- The part right after PORST# is released (R497): every field at its reset value, nothing queued. -/
def State.reset : State where
  f := []
  ap := []
  written := []
  halves := Vector.replicate 2 {}
  groups := Vector.replicate 6 {}
  ports := Vector.replicate 48 {}
  lanes := Vector.replicate 48 {}
  dmt := []
  hlanes := Vector.replicate 96 {}
  ctxs := Vector.replicate 192 {}
  chans := Vector.replicate 160 {}
  seqs := Vector.replicate 8 {}
  chains := Vector.replicate 64 {}
  dies := Vector.replicate 32 {}
  engs := Vector.replicate 24 {}
  knds := Vector.replicate 128 {}
  faulty := []
  trackers := []
  fis := Vector.replicate 32 {}
  sticky := []
  rows := []
  badRows := []
  testmode := false
  extest := false
  porst := false
  frame := 0
  results := []
  resultAt := []
  senseAt := []
  capture := []
  bridge := {}
  trims := []
  out := []
  free := 0
  accepted := 0
  pending := []

end Sys2Proof.Machine
end

