-- ==== Sys2Proof/Machine/Ops.lean ====
section
/-! DEFINITION. The named operations over the state that every meaning is written with: reading and writing register fields
(each field has one home), the structures of the units, raising an event, fencing a unit, completing a command, what leaves
the part. -/

namespace Sys2Proof.Machine

/-! ### Numbers -/

/-- The two's-complement number that the low `w` bits of `v` hold. -/
def toSigned (w v : Nat) : Int := if v % 2 ^ w < 2 ^ (w - 1) then (v % 2 ^ w : Nat) else (v % 2 ^ w : Nat) - (2 ^ w : Nat)

/-- The low `w` bits of an integer in two's complement. -/
def ofSigned (w : Nat) (i : Int) : Nat := (i % (2 ^ w : Nat)).toNat

def clampInt (lo hi v : Int) : Int := max lo (min hi v)

/-- Round `a / b` to the nearest integer, ties away from zero (R88); `b` is positive. -/
def roundAway (a : Int) (b : Nat) : Int :=
  if 0 ≤ a then (2 * a + b) / (2 * b) else -((2 * -a + b) / (2 * b))

/-- Round `a / b` to the nearest integer, ties toward plus infinity (R282). -/
def roundUp (a : Int) (b : Nat) : Int := (2 * a + b) / (2 * b)

/-- A measured quotient as its register holds it: the whole number below or above it; which of them, no rule says. -/
def quantise (n : Int) (d : Nat) : Int :=
  if d = 0 then Config.meanOfNone n else n / d + if n % d ≠ 0 ∧ Config.roundsUp n d then 1 else 0

def quantiseQ (q : Rat) : Int := quantise q.num q.den

/-- Round a rational to the nearest integer, ties away from zero (R88, R99). -/
def roundAwayQ (q : Rat) : Int := roundAway q.num q.den

/-! ### The field store -/

def FCell.is (c : FCell) (f : Fld) (i : Nat) : Bool := c.idx == i && c.fld == f

/-- The value of field `f` at index `i`: its cell, else its reset value. -/
def FStore.get : FStore → Fld → Nat → Nat
  | [], f, i => f.reset i
  | c :: st, f, i => if c.is f i then c.val else FStore.get st f i

def FStore.erase (st : FStore) (f : Fld) (i : Nat) : FStore := st.filter fun c => !c.is f i

/-- Where (field, index) stands before another in the order of the store. -/
def FCell.before (c : FCell) (f : Fld) (i : Nat) : Bool :=
  c.fld.ctorIdx < f.ctorIdx || (c.fld.ctorIdx == f.ctorIdx && c.idx < i)

def FStore.insert : FStore → FCell → FStore
  | [], x => [x]
  | c :: st, x => if c.before x.fld x.idx then c :: FStore.insert st x else x :: c :: st

/-- Write field `f` at index `i`: the value is cut to the field's width; a value equal to the reset value is not listed. -/
def FStore.put (st : FStore) (f : Fld) (i v : Nat) : FStore :=
  let w := v % 2 ^ f.width
  if w = f.reset i then st.erase f i else (st.erase f i).insert ⟨f, i, w⟩

/-- The canonical form of a store: rising, and no cell at its reset value. -/
def FStore.wf : FStore → Bool
  | [] => true
  | [c] => c.val != c.fld.reset c.idx
  | c :: d :: st => c.val != c.fld.reset c.idx && c.before d.fld d.idx && FStore.wf (d :: st)

/-! ### Addressed RAM -/

def Ram.get : Ram → Nat → Nat
  | [], _ => 0
  | c :: m, k => if c.key = k then c.val else if k < c.key then 0 else Ram.get m k

/-- Write one word; a word that becomes 0 is not listed. -/
def Ram.set : Ram → Nat → Nat → Ram
  | [], k, v => if v = 0 then [] else [⟨k, v⟩]
  | c :: m, k, v =>
    if c.key < k then c :: Ram.set m k v
    else if c.key = k then (if v = 0 then m else ⟨k, v⟩ :: m)
    else if v = 0 then c :: m else ⟨k, v⟩ :: c :: m

/-- The canonical form of a RAM: keys strictly rising, no word 0. -/
def Ram.wf : Ram → Bool
  | [] => true
  | [c] => c.val != 0
  | c :: d :: m => c.val != 0 && c.key < d.key && Ram.wf (d :: m)

/-! ### Fields of the state -/

/-- What a read of the field gives; for a shadow field the value last written (R9, R79). -/
def State.get (s : State) (f : Fld) (i : Nat) : Nat := FStore.get s.f f i
/-- The applied value of a shadow field (R27); of every other field the same as `get`. -/
def State.app (s : State) (f : Fld) (i : Nat) : Nat := if f.info.shadow then FStore.get s.ap f i else FStore.get s.f f i
def State.put (s : State) (f : Fld) (i v : Nat) : State := { s with f := s.f.put f i v }
/-- Set the applied value of a shadow field. -/
def State.putApp (s : State) (f : Fld) (i v : Nat) : State := { s with ap := s.ap.put f i v }
/-- R27, R466: the host writes a shadow field: the value waits for a commit. -/
def State.writeShadow (s : State) (f : Fld) (i v : Nat) : State :=
  { s.put f i v with written := if (f, i) ∈ s.written then s.written else (f, i) :: s.written }
/-- A commit applies a value; a later write of the field still waits. -/
def State.takeCell (s : State) (c : FCell) : State :=
  let s := s.putApp c.fld c.idx c.val
  if s.get c.fld c.idx = c.val then { s with written := s.written.filter fun w => w != (c.fld, c.idx) } else s
def State.isSet (s : State) (f : Fld) (i : Nat) : Bool := s.get f i == 1
def State.appSet (s : State) (f : Fld) (i : Nat) : Bool := s.app f i == 1
def State.putBool (s : State) (f : Fld) (i : Nat) (b : Bool) : State := s.put f i (if b then 1 else 0)
/-- Set a flag. -/
def State.flag (s : State) (f : Fld) (i : Nat) : State := s.put f i 1
/-- Count up; a counter that wraps. -/
def State.inc (s : State) (f : Fld) (i : Nat) (n : Nat := 1) : State := s.put f i (s.get f i + n)
/-- Count up; a counter that saturates. -/
def State.incSat (s : State) (f : Fld) (i : Nat) (n : Nat := 1) : State :=
  s.put f i (min (s.get f i + n) (2 ^ f.width - 1))
/-- The value of a signed field. -/
def State.getS (s : State) (f : Fld) (i : Nat) : Int := toSigned f.width (s.get f i)
def State.appS (s : State) (f : Fld) (i : Nat) : Int := toSigned f.width (s.app f i)
def State.putS (s : State) (f : Fld) (i : Nat) (v : Int) : State := s.put f i (ofSigned f.width v)

/-! ### The structures of the units -/

def State.half (s : State) (h : Half) : HalfS := s.halves.get h
def State.group (s : State) (g : Group) : GroupS := s.groups.get g
def State.port (s : State) (p : Lane) : PortS := s.ports.get p
def State.lane (s : State) (l : Lane) : LaneS := s.lanes.get l
def State.hlane (s : State) (x : HLane) : HLaneS := s.hlanes.get x
def State.ctx (s : State) (x : Ctx) : CtxS := s.ctxs.get x
def State.chan (s : State) (c : Chan) : ChanS := s.chans.get c
def State.sequ (s : State) (q : SeqN) : SeqS := s.seqs.get q
def State.chain (s : State) (c : ChainN) : ChainS := s.chains.get c
def State.die (s : State) (d : DieSensor) : SensS := s.dies.get d
def State.eng (s : State) (e : EngSensor) : SensS := s.engs.get e
def State.knd (s : State) (k : Knd) : KndS := s.knds.get k
def State.fi (s : State) (i : Fin 32) : FiS := s.fis.get i
def State.modFi (s : State) (i : Fin 32) (u : FiS → FiS) : State := { s with fis := s.fis.set i (u (s.fi i)) }
def State.modHalf (s : State) (h : Half) (u : HalfS → HalfS) : State :=
  { s with halves := s.halves.set h (u (s.half h)) }
def State.modGroup (s : State) (g : Group) (u : GroupS → GroupS) : State :=
  { s with groups := s.groups.set g (u (s.group g)) }
def State.modPort (s : State) (p : Lane) (u : PortS → PortS) : State := { s with ports := s.ports.set p (u (s.port p)) }
def State.modLane (s : State) (l : Lane) (u : LaneS → LaneS) : State := { s with lanes := s.lanes.set l (u (s.lane l)) }
def State.modHlane (s : State) (x : HLane) (u : HLaneS → HLaneS) : State :=
  { s with hlanes := s.hlanes.set x (u (s.hlane x)) }
def State.modCtx (s : State) (x : Ctx) (u : CtxS → CtxS) : State := { s with ctxs := s.ctxs.set x (u (s.ctx x)) }
def State.modChan (s : State) (c : Chan) (u : ChanS → ChanS) : State := { s with chans := s.chans.set c (u (s.chan c)) }
def State.modSeq (s : State) (q : SeqN) (u : SeqS → SeqS) : State := { s with seqs := s.seqs.set q (u (s.sequ q)) }
def State.modChain (s : State) (c : ChainN) (u : ChainS → ChainS) : State := { s with chains := s.chains.set c (u (s.chain c)) }
def State.modDie (s : State) (d : DieSensor) (u : SensS → SensS) : State := { s with dies := s.dies.set d (u (s.die d)) }
def State.modEng (s : State) (e : EngSensor) (u : SensS → SensS) : State := { s with engs := s.engs.set e (u (s.eng e)) }
def State.modKnd (s : State) (k : Knd) (u : KndS → KndS) : State := { s with knds := s.knds.set k (u (s.knd k)) }
def State.modBridge (s : State) (u : BridgeS → BridgeS) : State := { s with bridge := u s.bridge }
def State.emit (s : State) (o : Out) : State := { s with out := o :: s.out }

/-- Fold an update over a list of units. -/
def State.each {α : Type} (s : State) (xs : List α) (u : State → α → State) : State := xs.foldl u s

/-- R498 and R520: the half has been released: its planes run. -/
def State.running (s : State) (h : Half) : Bool :=
  (s.half h).live && (s.get .BOOT_STATE h == 1 || s.get .BOOT_STATE h == 3)

/-- R520: the management plane of the half runs: it stops at a fatal error. -/
def State.managing (s : State) (h : Half) : Bool := s.running h && s.get .BOOT_STATE h == 1

/-- R536: the endpoint takes memory requests: in D3hot it answers only configuration requests. -/
def State.answers (s : State) (h : Half) : Bool := !s.isSet .PH_D3_HOT h

/-- R443 and R536: the half may master the bus. -/
def State.masters (s : State) (h : Half) : Bool := (s.half h).bme && s.answers h

/-- R498: until its release a half ignores host writes of BAR0. -/
def State.hostWrite (s : State) (h : Half) (u : State → State) : State := if s.running h && s.answers h then u s else s

/-- R498: until its release a half answers a read of BAR0 with 0, and nothing else comes of it. -/
def State.hostRead (s : State) (h : Half) (off : Nat) (u : State → State) : State :=
  if !s.answers h then s else if s.running h then u s else s.emit (.read h off 0)

/-! ### Time -/

/-- The half's time in whole ns. -/
def State.now (s : State) (h : Half) : Nat := (s.half h).sec * 1000000000 + (s.half h).ns
/-- A period of `ms` milliseconds in ticks. -/
def msTicks (ms : Nat) : Nat := ms * 250000

/-- R544: after a jump of the half's time its subscriptions latch at the first of their instants from there on. -/
def HalfS.planSubs (y : HalfS) : HalfS :=
  let t := y.sec * 1000000000 + y.ns
  { y with subs := y.subs.map fun x => { x with next := (t + x.period * 1000000 - 1) / (x.period * 1000000) * (x.period * 1000000) } }
/-- R400: the current 40-bit time. -/
def State.n40 (s : State) (h : Half) : Nat := s.now h % 2 ^ 40
/-- The time ticks of the half, the model's measure of passing time (4 ns each). -/
def State.ticks (s : State) (h : Half) : Nat := (s.half h).ticks

/-- R400: D of a pending action at a 40-bit time: −2^39 to 2^39 − 1. -/
def dOf (w n40 : Nat) : Int := toSigned 40 ((w + 2 ^ 40 - n40 % 2 ^ 40) % 2 ^ 40)

/-- The first multiple of a period after the schedule of `due` that lies beyond `now`, in ticks; a period is at least one tick. -/
def dueAfter (now due period : Nat) : Nat := due + ((now - due) / max 1 period + 1) * max 1 period

/-! ### Performance counters -/

/-- R550: counter `j` of a block adds `n`; each wrap sets its OVF bit and, where the next counter chains, adds 1 to it. -/
def State.perfAdd (s : State) (b : Nat) : Nat → Nat → Nat → State
  | 0, _, _ => s
  | fuel + 1, j, n =>
    let v := s.get .PC_CNT (b * 8 + j) + n
    let s := s.put .PC_CNT (b * 8 + j) v
    if v < 2 ^ 32 then s
    else
      let s := s.put .PERF_OVF b (s.get .PERF_OVF b ||| 2 ^ j)
      if j < 7 ∧ s.isSet .PERF_SEL_EN (b * 8 + j + 1) ∧ s.isSet .PERF_SEL_CHAIN (b * 8 + j + 1) then
        State.perfAdd s b fuel (j + 1) (v / 2 ^ 32)
      else s

/-- R550 and R551: event `evt` of a counter block occurs `n` times. -/
def State.perf (s : State) (b evt : Nat) (n : Nat := 1) : State :=
  (List.range 8).foldl (fun s j =>
    let i := b * 8 + j
    if s.isSet .PERF_SEL_EN i && (j == 0 || !s.isSet .PERF_SEL_CHAIN i) && s.get .PERF_SEL_EVT i == evt then s.perfAdd b 8 j n
    else s) s

/-- R549: the counter block of a group, and of the management plane of a half. -/
def Group.perfBlk (g : Group) : Nat := 4 * (g.val / 3) + g.val % 3
def Half.perfBlk (h : Half) : Nat := 4 * h.val + 3
/-- R434: the spare register of a group. -/
def Group.spIdx (g : Group) : Nat := 4 * (g.val / 3) + g.val % 3

/-- R434: the spare sub-ADCs and segments left in a group, one and two to a lane. -/
def State.countSpares (s : State) (g : Group) : State :=
  let left := fun (n : Nat) (f : Fld) => (g.lanes.map fun (l : Lane) => n - s.get f l).sum
  (s.put .SP_SADC_SPARE (Group.spIdx g) (left 1 .FE_SADC_FAILED)).put .SP_SEG_SPARE (Group.spIdx g) (left 2 .FE_SEG_FAILED)

/-- R551: an event of a lane counts where LANE_MASK names the lane. -/
def State.perfLane (s : State) (l : Lane) (evt : Nat) (n : Nat := 1) : State :=
  let b := Group.perfBlk l.group
  if (s.get .PERF_LANE_MASK b).testBit (l.val % 8) then s.perf b evt n else s
def State.perfHalf (s : State) (h : Half) (evt : Nat) (n : Nat := 1) : State := s.perf (Half.perfBlk h) evt n

/-- R552: the bin of a duration of `v` ticks. -/
def histBin (base v : Nat) : Nat :=
  if v < 2 ^ base then 0 else min 15 ((List.range 15).filter fun i => 2 ^ (base + i) ≤ v).length

/-- R552: histogram 0 or 1 of a block records a duration. -/
def State.hist (s : State) (b : Nat) (one : Bool) (v : Nat) : State :=
  if !s.isSet .PERF_H_EN b then s
  else if one then s.incSat .PC_H1 (b * 16 + histBin (s.get .PERF_H1_BASE b) v)
  else s.incSat .PC_H0 (b * 16 + histBin (s.get .PERF_H0_BASE b) v)

/-! ### Kneaders -/

/-- R408: group Kneader `j` of a group, and system Kneader `j` of a half (R409). -/
def grpKnd (g : Group) (j : Fin 20) : Knd := ⟨20 * g.val + j.val, by omega⟩
def sysKnd (h : Half) (j : Fin 4) : Knd := ⟨120 + 4 * h.val + j.val, by omega⟩

/-- R437: the Kneader that KND_STATj of a half shows. -/
def kndAt (h j : Nat) : Nat := if j < 60 then 60 * h + j else 60 + 4 * h + j

/-- R413: a Kneader is out of service: reloading, being substituted, or failed. -/
def State.kndOut (s : State) (k : Knd) : Bool :=
  s.get .KND_STATE k == 1 || s.get .KND_STATE k == 2 || s.get .KND_STATE k == 4

/-- R413: the calibration Kneader of a group serves: rotations, swaps and calibrations may start. -/
def State.calServed (s : State) (g : Group) : Bool := !s.kndOut (grpKnd g 14)

/-! ### The PCIe function -/

/-- R440: vendor, device, revision and class code of each function. -/
def pcieVendor : Nat := 0x1E5D
def pcieDevice : Nat := 0x4896
def pcieRevision : Nat := 0xB0
def pcieClass : Nat := 0x118000
/-- R440: the subsystem vendor and device of a part: a board maker's from OTP, else those of the ordering code of R593. -/
def pcieSubsystem (maker : Option (Nat × Nat)) : Nat × Nat := maker.getD (0x1E5D, 0x4896)

/-! ### MSI-X -/

/-- R444 and the MSI-X table of R441: whether a vector is masked, by its entry or by the function mask. The mask bit is 1 until the host clears it, so word 3 of an entry
is held with bit 0 inverted. -/
def HalfS.masked (y : HalfS) (vec : Nat) : Bool := y.funMask || !(y.msixTbl.get (4 * vec + 3)).testBit 0

/-- R443 and R444: a vector is signalled: a message when the half may master the bus and the vector is not masked, else the
pending bit. -/
def State.signal (s : State) (h : Half) (vec : Nat) : State :=
  let y := s.half h
  if s.masters h && !y.masked vec then (s.emit (.msix h vec)).perf (Half.perfBlk h) 0x0A
  else if vec ∈ y.msixPend then s
  else s.modHalf h fun y => { y with msixPend := y.msixPend ++ [vec] }

/-- R444: pending vectors that are not masked are sent. -/
def State.sendPending (s : State) (h : Half) : State :=
  let send := if s.answers h then (s.half h).msixPend.filter fun v => !(s.half h).masked v else []
  let s := s.modHalf h fun y => { y with msixPend := y.msixPend.filter fun v => !send.contains v }
  s.each send fun s v => s.signal h v

/-- R444: HIF_STAT gains a set flag: ERR_VEC is signalled. -/
def State.hifFlag (s : State) (h : Half) (f : Fld) : State :=
  if s.isSet f h then s else (s.flag f h).signal h (s.get .HIF_ERR_VEC h)

/-- R451: a field of words 0 to 4 of the status block has changed. While not promoted half B writes its block at promotion and
demotion only (R467). -/
def State.dirty (s : State) (h : Half) : State := s.modHalf h fun y => { y with sbDirty := y.sbDirty || h == halfA || y.promoted }

/-! ### Events -/

/-- What an event carries beside the half, SEQ and time (R460). `scope` and `id` are coded as in R452. -/
structure Ev where
  sev : Nat
  code : Nat
  scope : Nat
  id : Nat
  cause : Nat := 0
  tag : W32 := 0
  d0 : Nat := 0
  d1 : Nat := 0

/-- R489: the lowest severity that the half's filters let through for a code. -/
def HalfS.filter (hs : HalfS) (code : Nat) : Nat :=
  match hs.filters.find? (fun p => p.1 == code) with
  | some p => p.2
  | none => hs.filtAll

/-- R489: whether the filters of the half stop the event: never FAULT and FATAL, nor WIN_EXIT of WIN_SEV 2. -/
def HalfS.stops (hs : HalfS) (e : Ev) : Bool :=
  e.sev < 3 && !(e.code == 0x0401 && e.sev == 2) && e.sev < hs.filter e.code

/-- R46 and R51: the half runs its own rings: half A always, half B while promoted. -/
def State.manages (s : State) (h : Half) : Bool := h == halfA || (s.half h).promoted

/-- R460, R489, R471: raise an event on a half: filtered events are not raised; SEQ counts every event raised; SEV_HIT sets at
or above ALERT_SEV; half B's events travel to half A's ring while half B is not promoted. -/
def State.raise (s : State) (h : Half) (e : Ev) : State :=
  if (s.half h).stops e then s
  else
    let hs := s.half h
    let r : Evt := ⟨e.sev, h, e.code, hs.evtSeq, hs.sec, hs.ns, e.scope, e.id, e.cause, e.tag, e.d0 % 2 ^ 32, e.d1 % 2 ^ 32⟩
    let s := s.modHalf h fun x => { x with evtSeq := (x.evtSeq + 1) % 2 ^ 32, evtLog := (r :: x.evtLog).take 4096 }
    let s := s.perfHalf h 0x03
    let s := if s.get .HIF_ALERT_SEV h + 1 ≤ e.sev then s.hifFlag h .HIF_SEV_HIT else s
    if s.manages h then s.modHalf h fun x => { x with evts := x.evts ++ [r] }
    else (s.perfHalf h 0x0B).modBridge fun b => { b with recs := b.recs ++ [.evt r] }

/-- R594: the event of a write that is ignored with one NOTICE event. -/
def State.writeIgnored (s : State) (h : Half) (off reason : Nat) : State :=
  s.raise h { sev := 1, code := 0x0106, scope := 1, id := h, d0 := off, d1 := reason }

/-! ### Fences -/

/-- R494: the code of a fence cause. -/
def Cause.code : Cause → Nat
  | .feSeg => 1 | .feSadc => 2 | .slice => 3 | .memUe => 4 | .loop => 5 | .laserOvp => 6 | .thermal => 7 | .knd => 8
  | .portLogic => 9 | .groupPower => 10 | .groupIo => 11 | .halfPower => 12 | .refclk => 13 | .wakeFailed => 14

/-- R494: the causes that KD4896 releases itself. -/
def Cause.self : Cause → Bool
  | .slice | .memUe | .thermal => true
  | _ => false

def FUnit.owner : FUnit → Half
  | .lane l => l.half
  | .port p => p.half
  | .group g => g.half
  | .half h => h

/-- R452: SCOPE and ID of a unit. -/
def FUnit.scope : FUnit → Nat × Nat
  | .half h => (1, h)
  | .group g => (2, g)
  | .port p => (3, p)
  | .lane l => (4, l)

def State.causes (s : State) : FUnit → List Cause
  | .lane l => (s.lane l).fences
  | .port p => (s.port p).fences
  | .group g => (s.group g).fences
  | .half h => (s.half h).fences

def State.setCauses (s : State) (u : FUnit) (cs : List Cause) : State :=
  match u with
  | .lane l => s.modLane l fun x => { x with fences := cs }
  | .port p => s.modPort p fun x => { x with fences := cs }
  | .group g => s.modGroup g fun x => { x with fences := cs }
  | .half h => s.modHalf h fun x => { x with fences := cs }

def State.groupFenced (s : State) (g : Group) : Bool := !(s.group g).fences.isEmpty || !(s.half g.half).fences.isEmpty

/-- R537: the sizes of the pantry areas in KiB, in the order of its table. -/
def areaKib : List Nat := [4, 8, 16, 32, 32, 32, 16, 32, 64]

/-- R543: AREA_OK, and the KiB of the areas that are good. -/
def State.setAreas (s : State) (h : Half) (ok : Nat) : State :=
  let used := ((areaKib.zipIdx.filter fun p => ok.testBit p.2).map (·.1)).sum
  (s.put .PH_AREA_OK h ok).put .PH_USED_KIB h used

/-- R537 and R543: an area of the pantry is written. -/
def State.writeArea (s : State) (h : Half) (k : Nat) : State := s.setAreas h (s.get .PH_AREA_OK h ||| 2 ^ k)

/-- R534: the pantry holds an area. -/
def State.areaGood (s : State) (h : Half) (k : Nat) : Bool := (s.get .PH_AREA_OK h).testBit k

/-- R430 and R534: the pantry no longer holds an area. -/
def State.loseArea (s : State) (h : Half) (k : Nat) : State :=
  if s.areaGood h k then s.setAreas h (s.get .PH_AREA_OK h - 2 ^ k) else s

/-- R416: a repair made in service goes to the log of the half, which holds 256 records; past them LOG_FULL sets with one WARN
event. Kinds: 0 segment, 1 sub-ADC (48 × position + lane), 2 slice (group), 3 Kneader (from 128 on a spare one), 4 STICKY row (block, array and
word). -/
def State.logRepair (s : State) (h : Half) (kind unit : Nat) : State :=
  if (s.half h).log.length < 256 then
    let s := s.modHalf h fun x => { x with log := x.log ++ [(kind, unit)] }
    (s.put .REL_LOG_USED h (s.half h).log.length).writeArea h 1
  else if s.isSet .REL_LOG_FULL h then s
  else (s.flag .REL_LOG_FULL h).raise h { sev := 2, code := 0x0703, scope := 1, id := h }

/-! ### Completions -/

/-- A status and a reason of R474 and R475. -/
structure Res where
  status : Nat
  reason : Nat := 0
  lo : Nat := 0
  hi : Nat := 0
  deriving DecidableEq, Repr

def Res.ok (lo hi : Nat) : Res := ⟨0, 0, lo, hi⟩
def Res.rejected (r : Nat) : Res := ⟨3, r, 0, 0⟩
def Res.notSafe (r : Nat) : Res := ⟨6, r, 0, 0⟩
def Res.failed (r : Nat) : Res := ⟨9, r, 0, 0⟩
/-- BUSY with the retry-after hint of R459, which no rule gives a value. -/
def Res.busy (r hint : Nat) : Res := ⟨2, r, hint, 0⟩

/-- R459: the timed RESULT of a command that executed: TIME is the time of taking or firing, or the lateness; DELAY counts
from there to `at` and saturates. -/
def Cmd.timed (c : Cmd) (at' : Nat) : Res :=
  let delay := min (at' - c.base) 0xFFFFFF
  let time := if c.late = 0 then c.t40 else c.late
  ⟨if c.late = 0 then 0 else 1, 0, time % 2 ^ 32, time / 2 ^ 32 % 2 ^ 8 + delay * 2 ^ 8⟩

/-- R459: RESULT of a timed command that executed nothing: TIME as for an executed one, DELAY 0. -/
def Cmd.notExecuted (c : Cmd) (r : Res) : Res :=
  let time := if c.late = 0 then c.t40 else c.late
  { r with lo := time % 2 ^ 32, hi := time / 2 ^ 32 % 2 ^ 8 }

def Cmd.cpl (c : Cmd) (r : Res) : Cpl := ⟨c.req.ring, c.req.index, c.req.tag, c.req.irqNow, r.status, r.reason, r.lo, r.hi, c.taken⟩

/-- R46: the FWD_EXECUTED event of a forwarded command that half B executed without half A learning of it. -/
def Cpl.fwdExecuted (c : Cpl) : Ev := { sev := 1, code := 0x0104, scope := 1, id := 1, tag := c.tag, d0 := c.status }

/-- Let the ring of a command take its next descriptor (R455). -/
def State.freeRing (s : State) (h : Half) (q : Nat) : State :=
  s.modHalf h fun x => { x with rings := x.rings.setIfInBounds q { (x.rings[q]?.getD {}) with busy := false } }

/-- R455, R457, R46: a command completes: on the half whose ring carried it; over the bridge when that is the other half, and
with the event FWD_EXECUTED when half B has been promoted meanwhile. -/
def State.complete (s : State) (c : Cmd) (r : Res) : State :=
  if c.org = c.exe ∨ c.exe = halfA then
    let s := s.modHalf c.org fun x => { x with cpls := x.cpls ++ [c.cpl r] }
    s.freeRing c.org c.req.ring
  else if (s.half c.exe).promoted then s.raise c.exe (c.cpl r).fwdExecuted
  else (s.perfHalf c.exe 0x0B).modBridge fun b => { b with cpls := b.cpls ++ [c.cpl r] }

/-! ### What a command spans -/

/-- R452: the lanes that a descriptor names on each half, for SCOPE = LANES. -/
def reqLanesOn (r : Req) (h : Half) : Bool := r.scope == 5 && (r.mask.toNat / 2 ^ (24 * h.val)) % 2 ^ 24 != 0

/-- R452: the scope of a command reaches a half. -/
def reqReaches (r : Req) (h : Half) : Bool :=
  match r.scope.toNat with
  | 0 => true
  | 1 => r.id.toNat == h.val
  | 2 => r.id.toNat / 3 == h.val
  | 5 => reqLanesOn r h
  | _ => r.id.toNat / 24 == h.val

/-- R452: the scope spans both halves. -/
def reqSpans (r : Req) : Bool := reqReaches r halfA && reqReaches r halfB

/-! ### Outcomes -/

/-- The next value of the free source: the counter steps, so that no two draws share a value by the model's choice. -/
def State.draw (s : State) : Nat × State := (s.free, { s with free := s.free + 1 })

/-- R32 and R401: the next place in the order of acceptance. -/
def State.nextOrder (s : State) : Nat × State := (s.accepted, { s with accepted := s.accepted + 1 })

end Sys2Proof.Machine
end

