-- ==== Sys2Proof/Machine/Formation.lean ====
section
/-! DEFINITION. Port formation (R211 to R214) and what follows from it: the lanes and host lanes of a port, the port of a
lane, and whether a lane, port, group or half is fenced. Each is read from the applied state or from a state under
evaluation, through a reading function for the fields. -/

namespace Sys2Proof.Machine

/-- A way to read a shadow field: applied, written, or as a commit would leave it. -/
abbrev Reader := Fld → Nat → Nat

/-- R212: the line lanes of a port by RATE and LMODE. -/
def lineCount (rate lmode : Nat) : Option Nat :=
  match rate, lmode with
  | 0, 0 => some 1
  | 1, 0 => some 2 | 1, 1 => some 1
  | 2, 0 => some 4 | 2, 1 => some 2 | 2, 2 => some 1 | 2, 3 => some 1
  | 3, 0 => some 8 | 3, 1 => some 4 | 3, 2 => some 2 | 3, 3 => some 2
  | 4, 1 => some 8 | 4, 2 => some 4 | 4, 3 => some 4
  | _, _ => none

/-- R212: the host lanes of a port by RATE and HMODE. -/
def hostCount (rate hmode : Nat) : Option Nat :=
  match rate, hmode with
  | 0, 0 => some 2 | 0, 1 => some 1
  | 1, 0 => some 4 | 1, 1 => some 2 | 1, 2 => some 1
  | 2, 0 => some 8 | 2, 1 => some 4 | 2, 2 => some 2
  | 3, 0 => some 16 | 3, 1 => some 8 | 3, 2 => some 4
  | 4, 1 => some 16 | 4, 2 => some 8
  | _, _ => none

/-- R218 and R231: the PCS lanes of a rate code. PRESUMED: IEEE 802.3 gives 200GbE 8, 400GbE 16, 800GbE 32, 1.6TbE 16; of 100GbE the number is a
free value. -/
def pcsLanes (rate : Nat) : Nat :=
  match rate with
  | 1 => 8
  | 2 => 16
  | 3 => 32
  | 4 => 16
  | _ => Config.pcsLanes100

/-- R213: the line lanes of the port at slot `p` when it is enabled; none beyond its group. -/
def portLanes (r : Reader) (p : Lane) : List Lane :=
  if r .PORT_EN p = 1 then
    match lineCount (r .PORT_RATE p) (r .PORT_LMODE p) with
    | some m => p.group.lanes.filter fun l => p.val ≤ l.val && l.val < p.val + m
    | none => []
  else []

/-- R213: the host lanes of the port at slot `p` when it is enabled. -/
def portHlanes (r : Reader) (p : Lane) : List HLane :=
  if r .PORT_EN p = 1 then
    match hostCount (r .PORT_RATE p) (r .PORT_HMODE p) with
    | some n =>
      let b := 16 * p.group.val + r .PORT_HOST_BASE p
      p.group.hlanes.filter fun x => b ≤ x.val && x.val < b + n
    | none => []
  else []

/-- R211: the enabled port that holds a line lane. -/
def portOfLane (r : Reader) (l : Lane) : Option Lane := l.group.lanes.find? fun p => l ∈ portLanes r p

/-- The enabled port that holds a host lane. -/
def portOfHlane (r : Reader) (x : HLane) : Option Lane := x.group.lanes.find? fun p => x ∈ portHlanes r p

/-- R254: the index of a lane within its port. -/
def posInPort (p l : Lane) : Nat := l.val - p.val

def State.portOf (s : State) (l : Lane) : Option Lane := portOfLane s.app l
def State.hportOf (s : State) (x : HLane) : Option Lane := portOfHlane s.app x
def State.portLanes (s : State) (p : Lane) : List Lane := Machine.portLanes s.app p
def State.portHlanes (s : State) (p : Lane) : List HLane := Machine.portHlanes s.app p
/-- The lanes that share a lane's port, or the lane alone. -/
def State.portMates (s : State) (l : Lane) : List Lane :=
  match s.portOf l with
  | some p => s.portLanes p
  | none => [l]
/-- R211: the line mode of a lane, that of its port: 0 LM100, 1 LM200, 2 LM400T, 3 LM400D. A lane of no port is read by the
slot at its own index. -/
def State.lmode (s : State) (l : Lane) : Nat := s.app .PORT_LMODE ((s.portOf l).getD l)
def State.hmode (s : State) (x : HLane) : Nat :=
  match s.hportOf x with
  | some p => s.app .PORT_HMODE p
  | none => 0

/-- R39 and R240: the port, its group or its half is under a fence. -/
def State.portFenced (s : State) (p : Lane) : Bool := !(s.port p).fences.isEmpty || s.groupFenced p.group
/-- R39: the lane is fenced itself or with its port, group or half. -/
def State.laneFenced (s : State) (l : Lane) : Bool :=
  !(s.lane l).fences.isEmpty || s.groupFenced l.group || ((s.portOf l).map s.portFenced).getD false

/-! ### Injections -/

/-- R558: a slot's scope holds a lane. -/
def State.slotCovers (s : State) (i : Fin 32) (l : Lane) : Bool :=
  let id := s.get .FIS_ID i
  match s.get .FIS_SCOPE i with
  | 1 => l.half.val == id
  | 2 => l.group.val == id
  | 3 => (s.portOf l).any fun p => p.val == id
  | _ => l.val == id

/-- R558: the slots of a half. -/
def fiHalf (i : Fin 32) : Half := ⟨i.val / 16, by omega⟩
def fiSlots (h : Half) : List (Fin 32) := (List.finRange 16).map fun k => ⟨16 * h.val + k.val, by omega⟩

/-- R558: the active slot of a kind that acts on a lane, on a side (0 line, 1 host) where the kind has sides. -/
def State.fiOn (s : State) (l : Lane) (kind side : Nat) : Option (Fin 32) :=
  (fiSlots l.half).find? fun i => s.isSet .FIS_ACTIVE i && s.get .FIS_KIND i == kind && (s.fi i).p1 % 2 == side && s.slotCovers i l

/-- R558: the active slot of a kind without sides that acts on a lane. -/
def State.fiAny (s : State) (l : Lane) (kind : Nat) : Option (Fin 32) :=
  (fiSlots l.half).find? fun i => s.isSet .FIS_ACTIVE i && s.get .FIS_KIND i == kind && s.slotCovers i l

/-- R558: the active slot of a kind that acts on the host side of a host lane, through the port that holds it. -/
def State.fiHost (s : State) (x : HLane) (kind : Nat) : Bool :=
  match s.hportOf x with
  | some p => (s.portLanes p).any fun l => (s.fiOn l kind 1).isSome
  | none => false

/-- R558: a slot ends. -/
def State.endSlot (s : State) (i : Fin 32) : State :=
  let h := i.val / 16
  let s := ((s.put .FIS_ACTIVE i 0).put .FIS_KIND i 0).put .FIS_SCOPE i 0
  let s := ((s.put .FIS_ID i 0).put .FIS_HOST_TAG i 0).modFi i fun _ => {}
  s.put .FI_ACTIVE_MAP h (s.get .FI_ACTIVE_MAP h &&& (0xFFFF - 2 ^ (i.val % 16)))

/-- R41: the lanes that a unit holds. -/
def State.unitLanes (s : State) (u : FUnit) : List Lane :=
  match u with
  | .lane l => [l]
  | .port p => Machine.portLanes s.app p
  | .group g => g.lanes
  | .half h => h.lanes

/-- R558: the injections of a half whose unit lies within a set of lanes end. -/
def State.endSlotsIn (s : State) (h : Half) (ls : List Lane) : State :=
  s.each (fiSlots h) fun s i =>
    if s.isSet .FIS_ACTIVE i ∧ h.lanes.all fun l => !s.slotCovers i l || l ∈ ls then s.endSlot i else s

/-! ### Fences -/

/-- R39, R42, R558: a unit gains a fence cause: its injections end; one FAULT event, FENCE_IN, for each cause gained. -/
def State.fenceIn (s : State) (u : FUnit) (c : Cause) : State :=
  if c ∈ s.causes u then s
  else
    let s := (s.setCauses u (s.causes u ++ [c])).endSlotsIn u.owner (s.unitLanes u)
    s.raise u.owner
      { sev := 3, code := 0x0101, scope := u.scope.1, id := u.scope.2, cause := c.code,
        d1 := (s.causes u).length }

/-- R42: a fence cause ends: one NOTICE event, FENCE_OUT, with the number of causes that remain. -/
def State.fenceOut (s : State) (u : FUnit) (c : Cause) (byPart : Bool) : State :=
  if c ∈ s.causes u then
    let s := s.setCauses u ((s.causes u).erase c)
    let s := match u, c with
      | .lane l, .loop => s.modLane l fun x => { x with loopApc := false }
      | _, _ => s
    s.raise u.owner
      { sev := 1, code := 0x0102, scope := u.scope.1, id := u.scope.2, cause := c.code,
        d0 := if byPart then 1 else 0, d1 := (s.causes u).length }
  else s

/-- R528: the entry handshake of the group has not yet stopped its loop engine. -/
def State.notYetStopped (s : State) (g : Group) : Bool := s.get .PG_STATE g == 5 && s.get .PG_HS_BLOCK g ≤ 1

/-- R526 and R538: the group is in G-ACTIVE with its pads released, and no group reset runs. -/
def State.groupOn (s : State) (g : Group) : Bool :=
  (s.get .PG_STATE g == 0 || s.notYetStopped g) && !s.isSet .PG_PADS_HELD g && !(s.group g).resetting

/-- R272: the states of a lane in LN_ACQ_STAT. -/
def acqIdle := 0
def acqLink := 1
def acqTrain := 2
def acqData := 3
def acqHoldoff := 4
def acqBlind := 5

def State.inData (s : State) (l : Lane) : Bool := s.get .ACQ_STATE l == acqData

end Sys2Proof.Machine
end

