-- ==== Sys2Proof/Machine/Lane.lean ====
section
/-! DEFINITION. What a line lane goes through between the states of R268: the end of DATA with all that it cancels (R58, R76,
R119, R158, R163, R200), the entries to IDLE, LINK, BLIND, TRAIN and DATA, and a failed acquisition. -/

namespace Sys2Proof.Machine

/-- R143 and R186: the decoder in service by line mode and effort, as LN_FEC_STAT.DEC codes it (R167). -/
def decoderFor (lmode effort : Nat) : Nat :=
  match lmode with
  | 2 => if effort = 0 then 0 else if effort = 1 then 1 else 2
  | 3 => if effort = 0 then 0 else 1
  | _ => 3

/-- R141 and R149: the metrics of a trellis at a start: from any of the code states and any of the levels before it that are given. -/
def startPaths (sigmas qs : List Nat) : List (Option Rat) :=
  (List.range 64).map fun n => if n < 32 ∧ n % 8 ∈ sigmas ∧ n / 8 ∈ qs then some 0 else none

/-- R141: the decoder of a lane starts from state 0 at its first frame. The level before it is not known, and nothing has been decided. -/
def State.startDecoder (s : State) (l : Lane) : State :=
  let qs := if s.lmode l = 2 ∧ 2 ≤ s.get .EQ_EFFORT l then List.range 4 else [0]
  s.modLane l fun x => { x with dec := { paths := startPaths [0] qs, q := x.dec.q, hard := x.dec.hard }, fecLine := none, rxPair := 0, finals := [] }

/-- R149: the decoder of a lane changes: the new one starts from the state that the old one decided; from E0 with equal metrics on every
state. -/
def State.handDecoder (s : State) (l : Lane) (old new : Nat) : State :=
  if old = new then s
  else s.modLane l fun x => { x with dec := { x.dec with
    paths := startPaths (if old = 0 then List.range 8 else [x.dec.sigma]) (if new ≠ 2 then [0] else if old = 0 then List.range 4 else [x.dec.q]) } }

/-- R143 and R167: the decoder in service follows the lane; a change sets DEC_CHG. DESIGN CHOICE: R169 names only the effort change; here it sets too where the
decoder comes into service at entry to DATA and goes out of it (log 214). -/
def State.setDecoder (s : State) (l : Lane) (d : Nat) : State :=
  if s.get .FEC_DEC l = d then s else (s.put .FEC_DEC l d).flag .FEC_DEC_CHG l

/-- R158: CW_LOCK takes a value; every change sets CW_LOCK_CHG. -/
def State.setCwLock (s : State) (l : Lane) (b : Bool) : State :=
  if s.isSet .FEC_CW_LOCK l = b then s else (s.putBool .FEC_CW_LOCK l b).flag .FEC_CW_LOCK_CHG l

/-- R176: the receive symbol index of a lane in LM400D now: symbols of 2,160 samples at 225 GS/s, 9.6 ns each, since it was 0. -/
def State.symIdx (s : State) (l : Lane) : Nat := (s.ticks l.half - (s.lane l).rxTick) * 5 / 12 % 2 ^ 32
/-- R176: the transmit symbol index of a lane. -/
def State.txIdx (s : State) (l : Lane) : Nat := (s.ticks l.half - (s.lane l).txTick) * 5 / 12 % 2 ^ 32
/-- R176: how far index `a` is ahead of index `b`, modulo 2^32; negative when it is behind. -/
def idxAhead (a b : Nat) : Int := toSigned 32 (a + 2 ^ 32 - b % 2 ^ 32)

/-- R58: the applied SWING as a code of V_SW: 61 to 63 give 900 mV, as 60 does. -/
def State.swingCode (s : State) (l : Lane) : Nat := min 60 (s.app .FE_SWING l)

/-- R58: the ramp of a lane ends now: the commits that wait for it stop waiting. -/
def State.endRamp (s : State) (l : Lane) : State :=
  let s := s.modLane l fun x => { x with ramp := false }
  let t := s.now l.half
  let off := fun (c : PendCommit) => if l ∈ c.ramp then { c with ramp := c.ramp.filter (· != l), lastNs := max c.lastNs t } else c
  s.each (List.finRange 2) fun s h => s.modHalf h fun x => { x with commits := x.commits.map off }

/-- R19, R76: the sub-ADC parallel run of the lane is abandoned and retried. -/
def State.abandonHandover (s : State) (l : Lane) : State :=
  if s.isSet .FE_HANDOVER l then
    ((s.put .FE_HANDOVER l 0).incSat .FE_HO_DEFER l).modLane l fun x => { x with sadcRetry := true }
  else s

/-- R19, R119: the slice rotation of the lane's group is abandoned if it is on this lane; it is retried. -/
def State.abandonSlice (s : State) (l : Lane) : State :=
  if (s.group l.group).sliceRun = some l then
    let s := s.modGroup l.group fun x => { x with sliceRun := none, copy := none, rotRetry := some (l.val % 8) }
    (s.put .EQ_PARALLEL l 0).flag .EQ_SLICE_ABANDON l
  else s

/-- R200, R496: the bit-swaps of the lane are cancelled; a BITSWAP command completes REJECTED STATE. -/
def State.cancelSwaps (s : State) (l : Lane) : State :=
  let cmd := (s.lane l).rxSwap.bind (·.cmd)
  let s := s.modLane l fun x => { x with rxSwap := none, txSwap := none, trigHeld := false, swapRetry := false, feq := [] }
  let s := (s.put .DMT_PEND_RX l 0).put .DMT_PEND_TX l 0
  match cmd with
  | some c => s.complete c (.rejected 0x03)
  | none => s

/-- What ends when a lane leaves DATA, whatever the cause. DESIGN CHOICE: R158 gives the two causes for which CW_LOCK falls and raises CW_LOCK_LOST;
of a lane that leaves DATA for another cause it says nothing: here CW_LOCK falls with CW_LOCK_CHG and without the WARN event (log 141). -/
def State.endData (s : State) (l : Lane) : State :=
  if s.inData l then
    let s := s.flag .ACQ_LEAVE_DATA l
    let s := s.modLane l fun x => { x with vsw := s.swingCode l, segSwap := false, uncorr := 0, eyeValid := false,
                                           gain := none, condAt := none, above := 0, revertDue := false, swap := none }
    let s := s.endRamp l
    let s := if s.isSet .FE_HANDOVER l then (s.put .FE_HANDOVER l 0).incSat .FE_HO_DEFER l else s
    let s := (s.abandonSlice l).cancelSwaps l
    let s := (s.setCwLock l false).setDecoder l 3
    let s := ((s.put .FEC_LAT_VALID l 0).put .FE_AGC_TRACK l 0).put .EQ_LS_MEMBER l 0
    let s := (s.put .EQ_VALID l 0).modLane l fun x => { x with block := none, acc := none }
    (s.put .ACQ_TX_DATA l 0).put .ACQ_RX_DATA l 0
  else s

/-- What every change of acquisition state clears: readiness, countdowns, requests, the reception, the running block and updates that wait (R104). -/
def State.clearAcq (s : State) (l : Lane) : State :=
  let s := (((s.put .ACQ_RX_READY l 0).put .ACQ_PEER_READY l 0).put .ACQ_TX_DATA l 0).put .ACQ_RX_DATA l 0
  let s := s.put .ACQ_SUBSTATE l 0
  s.modLane l fun x => { x with phase := .search, stopped := false, count := none, go := false, lastStatus := none, slotSeen := false, dataAt := none, rxBegun := false,
                                preset := none, presetSlot := false, apply := none, loadTries := 0, rhoDone := false, ohc := [],
                                swap := none, feq := [], block := none, acc := none }

/-- R268 row 1: a lane goes to IDLE: squelch, latch cleared. -/
def State.toIdle (s : State) (l : Lane) : State :=
  let s := ((s.endData l).clearAcq l).setCwLock l false
  let s := ((s.put .ACQ_STATE l acqIdle).put .ACQ_PEER_SEEN l 0).put .EQ_ADAPT l 0
  s.modLane l fun x => { x with partner := none, matched := false, seen := false }

/-- R247: the lane starts in BLIND. -/
def State.startsBlind (s : State) (l : Lane) : Bool := s.lmode l ≤ 1 && s.app .ACQ_PROTO l == 0

/-- R98, R125 and R148: acquisition starts adaptation with a fresh block. -/
def State.startAdapt (s : State) (l : Lane) : State :=
  let t := s.ticks l.half
  (s.put .EQ_ADAPT l 1).modLane l fun x => { x with block := some t, acc := none, swap := none, lamSum := 0, lamN := 0 }

/-- R158: in LM400 codeword alignment is held in DATA only; in LM100 and LM200 it follows the line. -/
def State.freshLock (s : State) (l : Lane) : State := if 2 ≤ s.lmode l then s.setCwLock l false else s

/-- R268: entry to LINK: CAP frames start, the latch clears (R259). -/
def State.toLink (s : State) (l : Lane) : State :=
  let s := ((s.endData l).clearAcq l).freshLock l
  let s := (((s.put .ACQ_STATE l acqLink).put .ACQ_PEER_SEEN l 0).put .ACQ_LOOPBACK l 0).startAdapt l
  let t := s.ticks l.half
  s.modLane l fun x => { x with partner := none, matched := false, seen := false, caps := 0, noticed := false, start := t,
                                idle := 0x7FFF, carrierAt := t }

/-- R267: entry to BLIND. -/
def State.toBlind (s : State) (l : Lane) : State :=
  let s := ((s.endData l).clearAcq l).freshLock l
  let s := (s.put .ACQ_STATE l acqBlind).startAdapt l
  let t := s.ticks l.half
  s.modLane l fun x => { x with start := t, trainAt := t, mse := [] }

/-- R268: the lane starts acquisition: LINK or BLIND. -/
def State.acquire (s : State) (l : Lane) : State := if s.startsBlind l then s.toBlind l else s.toLink l

/-- R260 and R261: entry to TRAIN. -/
def State.toTrain (s : State) (l : Lane) : State :=
  let s := (s.clearAcq l).freshLock l
  let s := (s.put .ACQ_STATE l acqTrain).startAdapt l
  let s := if (s.lane l).restored && s.lmode l == 3 then s.put .ACQ_SUBSTATE l 1 else s
  let t := s.ticks l.half
  let n := s.symIdx l
  s.modLane l fun x => { x with mse := [], appliedSeq := 0, refused := false, restored := false, trainAt := t, feqFrom := n, snrFrom := n,
                                snrDone := false }

/-- R268 row 9: a lane leaves DATA for LINK or BLIND: LEAVE_DATA and one NOTICE event with its reason (R495). -/
def State.leaveData (s : State) (l : Lane) (reason : Nat) : State :=
  if s.inData l then
    let s := s.acquire l
    s.raise l.half { sev := 1, code := 0x020D, scope := 4, id := l, d0 := reason }
  else s

/-- R268: acquisition fails: ACQ_FAIL with NOTICE, or WARN from the third failure in a row; TRAIN goes to HOLDOFF, BLIND
restarts at once. -/
def State.acqFail (s : State) (l : Lane) : State :=
  let n := (s.lane l).fails + 1
  let blind := s.get .ACQ_STATE l = acqBlind
  let s := s.modLane l fun x => { x with fails := n }
  let s := (s.flag .ACQ_ACQ_FAIL l).incSat .ACQ_FAIL_CNT l
  let s := s.raise l.half { sev := if 3 ≤ n then 2 else 1, code := 0x020E, scope := 4, id := l, d0 := n }
  if blind then s.toBlind l
  else
    let t := s.ticks l.half
    ((s.clearAcq l).put .ACQ_STATE l acqHoldoff).modLane l fun x => { x with carrierAt := t, clk.holdAt := t }

/-- R189: a half of a table copy is valid; `bits` and `gain` are read by tone. -/
def loadingValid (bits gain : Nat → Nat) : Bool :=
  let pilots := [0, 40, 64, 192, 320, 448, 576, 704, 832, 960]
  pilots.all (fun t => bits t == 0)
    && (List.range 1024).all (fun t => bits t ≤ 8 && (bits t == 0 || (0x100 ≤ gain t && gain t ≤ 0x400)))
    && ((List.range 1024).map bits).sum == 4320

/-- The key of a DMT table word (R210). -/
def dmtKey (l : Lane) (table tone : Nat) : Nat := (l.val * 4 + table) * 1024 + tone
def State.dmtWord (s : State) (l : Lane) (table tone : Nat) : Nat := s.dmt.get (dmtKey l table tone)
def State.setDmt (s : State) (l : Lane) (table tone v : Nat) : State :=
  { s with dmt := s.dmt.set (dmtKey l table tone) (v % 2 ^ 32) }
/-- R188 and R210: the halves of a loading word. -/
def rxBits (w : Nat) : Nat := w / 2 ^ 28 % 16
def rxGain (w : Nat) : Nat := w / 2 ^ 16 % 4096
def txBits (w : Nat) : Nat := w / 2 ^ 12 % 16
def txGain (w : Nat) : Nat := w % 4096
/-- R189: the receive half of a copy is valid. -/
def State.rxValid (s : State) (l : Lane) (copy : Nat) : Bool :=
  loadingValid (fun t => rxBits (s.dmtWord l copy t)) (fun t => rxGain (s.dmtWord l copy t))
def State.txValid (s : State) (l : Lane) (copy : Nat) : Bool :=
  loadingValid (fun t => txBits (s.dmtWord l copy t)) (fun t => txGain (s.dmtWord l copy t))

/-- R109: at its entry to DATA a lane with LOCK on a port in lock-step rejoins the shared loop, its offset its phase less the shared phase. -/
def State.rejoin (s : State) (l : Lane) : State :=
  match s.portOf l, s.appSet .EQ_LOCKSTEP l && s.isSet .EQ_LOCK l && !s.laneFenced l with
  | some p, true =>
    let shared := (s.port p).lsP
    (s.put .EQ_LS_MEMBER l 1).modLane l fun x => { x with lsOff := x.tlP - shared }
  | _, _ => s.put .EQ_LS_MEMBER l 0

/-- R268 row 9: a lane in DATA without SIG_DET, LOCK or CW_LOCK leaves it. -/
def State.keepData (s : State) (l : Lane) : State :=
  if !s.isSet .FE_SIG_DET l then s.leaveData l 1
  else if !s.isSet .EQ_LOCK l then s.leaveData l 2
  else if !s.isSet .FEC_CW_LOCK l then s.leaveData l 3
  else s

/-- R264, R268, R158: entry to DATA: ENTER_DATA, one INFO event, ACQ_TIME; codeword alignment holds; in LM400D an invalid in-use
half fails acquisition (R189). R187: SNR windows run from here. A lane that may not stay in DATA leaves it at once. -/
def State.enterData (s : State) (l : Lane) : State :=
  if s.lmode l = 3 ∧ !(s.rxValid l (s.get .DMT_RX_ACT l) && s.txValid l (s.get .DMT_TX_ACT l)) then s.acqFail l
  else
    let us := (s.ticks l.half - (s.lane l).start) * 4 / 1000
    let s := (((s.put .ACQ_STATE l acqData).put .ACQ_SUBSTATE l 0).put .ACQ_TX_DATA l 1).put .ACQ_RX_DATA l 1
    let s := ((s.flag .ACQ_ENTER_DATA l).inc .ACQ_DATA_CNT l).put .ACQ_ACQ_TIME l us
    let n := s.symIdx l
    let s := s.modLane l fun x => { x with fails := 0, uncorr := 0, count := none, dataAt := none, above := 0, low := [],
                                           phase := .search, snrFrom := n }
    let s := (s.put .EQ_ADAPT l 2).putBool .FE_AGC_TRACK l (s.app .FE_AGC_MODE l == 0)
    let s := s.rejoin l
    let s := if s.lmode l ≤ 1 then s else s.setCwLock l true
    let s := s.setDecoder l (decoderFor (s.lmode l) (s.get .EQ_EFFORT l))
    (s.raise l.half { sev := 0, code := 0x020C, scope := 4, id := l, d0 := us }).keepData l

/-- R268: a lane of TRAIN with both directions in DATA enters DATA; not while its acquisition Kneader is out of service (R413). -/
def State.bothInData (s : State) (l : Lane) : State :=
  if s.get .ACQ_STATE l = acqTrain ∧ s.isSet .ACQ_TX_DATA l ∧ s.isSet .ACQ_RX_DATA l ∧ ¬ s.kndOut l.acqKnd then s.enterData l else s

/-- R267: a lane in BLIND enters DATA when LOCK and the codeword alignment are both held; not while its acquisition Kneader is out of service
(R413). -/
def State.blindDone (s : State) (l : Lane) : State :=
  if s.get .ACQ_STATE l = acqBlind ∧ s.isSet .EQ_LOCK l ∧ s.isSet .FEC_CW_LOCK l ∧ ¬ s.kndOut l.acqKnd then s.enterData l else s

/-- R268 row 1: what sends a lane to IDLE and keeps it there. -/
def State.heldIdle (s : State) (l : Lane) : Bool :=
  (s.portOf l).isNone || s.laneFenced l || !s.groupOn l.group || s.app .FE_RX_EN l == 0 || !s.running l.half

/-- R57, R214 and R268: the TX DAC is in squelch: with TX_EN = 0, and in whatever holds the lane in IDLE. -/
def State.squelched (s : State) (l : Lane) : Bool :=
  s.heldIdle l || s.app .FE_TX_EN l == 0 || (s.fiOn l 1 0).isSome

end Sys2Proof.Machine
end

