-- ==== Sys2Proof/Machine/LoopState.lean ====
section
/-! DEFINITION. The states of loop contexts that follow from the rest of the part (R286, R298, R299, R527): OFF, the external holds and
their end, the start of a context, and the maps of R305. -/

namespace Sys2Proof.Machine

/-- R304: the states of a context. -/
def ctxOff := 0
def ctxRun := 1
def ctxHold := 2
def ctxParking := 3
def ctxParked := 4
def ctxExt := 5

/-- R304: the lane that LANE names. -/
def State.ctxLane (s : State) (x : Ctx) : Option Lane :=
  let i := s.app .CTX_LANE x
  if h : i < 8 then some (x.group.lane ⟨i, h⟩) else none

/-- R279: an APC context. -/
def State.isApc (s : State) (x : Ctx) : Bool := s.app .CTX_TYPE x == 1

/-- R281: the context that OUT_CTX names, with OUT_KIND = 2. -/
def State.ctxBelow (s : State) (x : Ctx) : Option Ctx :=
  if s.app .CTX_OUT_KIND x = 2 then some (x.group.ctx ⟨s.app .CTX_OUT_CTX x % 32, by omega⟩) else none

/-- R299: the causes that name a lane: 4 LASER_OFF, 5 FENCE; 0 for none. -/
def State.laneCause (s : State) (x : Ctx) : Nat :=
  match s.ctxLane x with
  | none => 0
  | some l => if !s.isSet .LS_LASEN l || (s.lane l).biasHold then 4 else if s.laneFenced l then 5 else 0

/-- R299: DOWNSTREAM holds. -/
def State.belowStops (s : State) (x : Ctx) : Bool :=
  match s.ctxBelow x with
  | some y => s.get .CTX_STATE y != ctxRun
  | none => false

/-- R300: a setting of a context as it is in use: in HOLD, PARKING and PARKED as it was at the entry to HOLD. -/
def State.inUse (s : State) (f : Fld) (x : Ctx) : Nat :=
  match (s.ctx x).before.find? fun e => e.1 == f with
  | some e => e.2
  | none => s.app f x

/-- A signed 32-bit setting of a context as it is in use. -/
def State.cs (s : State) (f : Fld) (x : Ctx) : Int := toSigned 32 (s.inUse f x)

/-- R290 and R316: the target of the profile; APR_TGT while APR holds the lane of an APC context at reduced power. -/
def State.target (s : State) (x : Ctx) : Int :=
  match s.ctxLane x with
  | some l =>
    if s.isApc x && (s.lane l).apr == .hold && s.appSet .LS_APR_MODE l then toSigned 32 (s.app .LS_APR_TGT l)
    else s.cs .CTX_TARGET x
  | none => s.cs .CTX_TARGET x

/-- R293: AT_TARGET. -/
def State.atTarget (s : State) (x : Ctx) : State :=
  let y := s.ctx x
  s.putBool .CTX_AT_TARGET x (y.p == s.target x * 65536 && y.v == 0 && y.a == 0)

/-- R299: the first cause that holds, in the order of its table. -/
def State.extCauseOf (s : State) (x : Ctx) : Nat :=
  let c := s.laneCause x
  if c ≠ 0 then c else if s.belowStops x then 6 else 0

def State.setCtxState (s : State) (x : Ctx) (st cause : Nat) : State := (s.put .CTX_STATE x st).put .CTX_CAUSE x cause

/-- R300: an injection on the context ends with its run. -/
def State.endInjection (s : State) (x : Ctx) : State :=
  if s.isSet .CTX_INJ x then (s.put .CTX_INJ x 0).modGroup x.group fun y => { y with inj := { y.inj with armed := false, on := false, k := 0 } } else s

/-- R302: what triggers a capture that waits: 1 the start of an injection, 2 the entry to a hold; the entries kept go first. -/
def State.capTrigger (s : State) (x : Ctx) (what : Nat) : State :=
  let g := x.group
  if s.isSet .LG_ARMED g ∧ s.get .LG_TRIG g = what ∧ s.get .LG_CAP_CTX g = x.val % 32 then
    let pre := (s.group g).inj.pre
    let s := s.each pre.zipIdx fun s e => { s with capture := s.capture.set (4096 * g.val + e.2) e.1 }
    let s := (s.put .LG_ARMED g 0).put .LG_COUNT g pre.length
    s.modGroup g fun y => { y with inj := { y.inj with run := true, pre := [], dec := 0 } }
  else s

/-- R286: the present output: the code of the channel, else the latest output. -/
def State.presentOut (s : State) (x : Ctx) : Int :=
  if s.app .CTX_OUT_KIND x = 1 then (s.get .CD_OUT (s.app .CTX_OUT_CD x % 160) : Int) * 65536
  else toSigned 32 (s.get .CTX_O_NOW x)

/-- R286: the context starts: the dither at phase 0, the demodulators and the supervision cleared; the rest at its first used sample. -/
def State.startCtx (s : State) (x : Ctx) : State :=
  let o := s.presentOut x
  (s.setCtxState x ctxRun 0).modCtx x fun y =>
    { y with
      fresh := true, resume := false, restart := false, mine := false, k := 0, d := 0, dEye := 0, eyeWait := 0, bad := 0, good := 0
      winN := 0, winS := 0, winQ := 0, follow := none, held := o, clears := false, before := [] }

/-- R299: the context enters an external hold. -/
def State.holdExt (s : State) (x : Ctx) (cause : Nat) : State :=
  (((s.endInjection x).capTrigger x 2).setCtxState x ctxExt cause).modCtx x fun y =>
    { y with restart := y.restart || y.fresh || cause != 6, bad := 0, good := 0, follow := none, clears := false, before := [] }

/-- R299, R525 and R538: the loop engine of a group has stopped without keeping its contexts. -/
def State.engineOff (s : State) (g : Group) : Bool :=
  s.groupFenced g || !s.running g.half || (s.group g).resetting || (2 ≤ s.get .PG_STATE g && s.get .PG_STATE g != 5)

/-- R525 and R529: the loop engine of a group has stopped and keeps its contexts: in G-REST, and once its handshake has passed it. -/
def State.engineKept (s : State) (g : Group) : Bool := s.get .PG_STATE g == 1 || (s.get .PG_STATE g == 5 && !s.notYetStopped g)

/-- R298: the fence that a parked context set has ended. -/
def State.loopReleased (s : State) (x : Ctx) : Bool :=
  (s.ctx x).mine && match s.ctxLane x with
    | some l => !(s.lane l).fences.any fun c => c.code == 5
    | none => false

/-- The state of a context in a group whose engine keeps its contexts. -/
def State.settleRunning (s : State) (x : Ctx) : State :=
  let st := s.get .CTX_STATE x
  let s := if st = ctxOff || ((st = ctxParking || st = ctxParked) && s.loopReleased x) then s.startCtx x else s
  let st := s.get .CTX_STATE x
  if st = ctxRun ∨ st = ctxHold then
    let c := s.laneCause x
    if c ≠ 0 then s.holdExt x c else s
  else if st = ctxExt then
    let c := s.extCauseOf x
    if c ≠ 0 then (s.put .CTX_CAUSE x c).modCtx x fun y => { y with restart := y.restart || c != 6 }
    else if (s.ctx x).restart then s.startCtx x
    else (s.setCtxState x ctxRun 0).modCtx x fun y => { y with resume := true }
  else s

/-- R286, R298, R299: EN = 0, a fence of the group or half and a gated group put a context OFF; else it runs or holds. -/
def State.settleCtx (s : State) (x : Ctx) : State :=
  if s.app .CTX_EN x ≠ 1 ∨ s.engineOff x.group then
    if s.get .CTX_STATE x = ctxOff then s
    else ((s.endInjection x).setCtxState x ctxOff 0).modCtx x fun y => { y with clears := false, before := [], temp := none }
  else if s.engineKept x.group then s
  else s.settleRunning x

/-- R305: the maps of a group. -/
def State.settleMaps (s : State) (g : Group) : State :=
  let bits := fun (f : Nat → Bool) =>
    (g.ctxs.map fun (x : Ctx) => if f (s.get .CTX_STATE x) then 2 ^ (x.val % 32) else 0).sum
  let h := bits fun st => st == ctxHold || st == ctxExt
  let p := bits fun st => st == ctxParking || st == ctxParked
  (s.put .LG_HOLD_MAP g h).put .LG_PARK_MAP g p

end Sys2Proof.Machine
end

