-- ==== Sys2Proof/Machine/Flags.lean ====
section
/-! DEFINITION. The status that follows from the rest of the state after every step: port status (R240 to R242), the lanes'
entry to and exit from IDLE (R268), host lanes held or let go (R214, R227, R233), the end of APR (R316), the laser enables with
their causes and the forced bias code (R308 to R310), the loop contexts (R286, R299), commits that are complete (R31), ALERT (R472). -/

namespace Sys2Proof.Machine

def allHalves : List Half := List.finRange 2
def allGroups : List Group := List.finRange 6
def allLanes : List Lane := List.finRange 48
def allCtxs : List Ctx := List.finRange 192
def allHlanes : List HLane := List.finRange 96

/-! ### Lanes and host lanes -/

def State.settleLane (s : State) (l : Lane) : State :=
  if s.heldIdle l then (if s.get .ACQ_STATE l = acqIdle then s else s.toIdle l)
  else if s.get .ACQ_STATE l = acqIdle then s.acquire l
  else s

/-- R245: the stages of a host lane. -/
def hsDetect := 1
def hsTrain := 2
def hsLock := 3
def hsCap := 4
def hsActive := 5

/-- A host lane runs: its group is in G-ACTIVE and neither the group nor its half is fenced (R233). -/
def State.hostRuns (s : State) (x : HLane) : Bool := s.groupOn x.group && !s.groupFenced x.group && !(s.hlane x).away

/-- R214 and R233: what a host lane transmits. -/
inductive HostTx | idle | training | portSignal
  deriving DecidableEq, Repr

/-- R214, R233, R39, R558: electrical idle in DISABLED and DETECT, without a port, while the group is away, or under TX_SQUELCH; training frames
in TRAIN; the port's host signal in LOCK, CAP and ACTIVE. -/
def State.hostTx (s : State) (x : HLane) : HostTx :=
  if (s.hportOf x).isNone || !s.hostRuns x || s.fiHost x 1 then .idle
  else if s.get .HST_STAGE x = hsTrain then .training
  else if 3 ≤ s.get .HST_STAGE x then .portSignal
  else .idle

/-- R227 and R245: a host lane changes stage; each change sets STAGE_CHG. DESIGN CHOICE: DET, BIT_LOCK, SYM_LOCK and AM_LOCK, for which no rule names
the moment, clear on entry to DETECT and to DISABLED, and the PCS lanes found are forgotten there. -/
def State.setStage (s : State) (x : HLane) (st : Nat) : State :=
  if s.get .HST_STAGE x = st then s
  else
    let t := s.ticks x.group.half
    let s := ((s.put .HST_STAGE x st).flag .HST_STAGE_CHG x).modHlane x fun y => { y with since := t }
    if st ≤ 1 then
      ((((s.put .HST_DET x 0).put .HST_BIT_LOCK x 0).put .HST_SYM_LOCK x 0).put .HST_AM_LOCK x 0).modHlane x
      fun y => { y with pcs := [], ready := false, farReady := false }
    else s

/-- R227, R214, R233: a host lane without a port or with EN = 0 is DISABLED; one that may leave DISABLED enters DETECT; one
whose group was away re-enters at DETECT. DESIGN CHOICE: the timeouts in a row of TRAIN and LOCK outlive both; re-forming the port ends them. -/
def State.settleHost (s : State) (x : HLane) : State :=
  let on := s.groupOn x.group && !s.groupFenced x.group
  if (s.hportOf x).isNone || !s.appSet .HST_EN x || !s.running x.group.half then
    (s.setStage x 0).modHlane x fun y => { y with away := false }
  else if !on then s.modHlane x fun y => { y with away := true }
  else if s.get .HST_STAGE x = 0 || (s.hlane x).away then
    let t := s.ticks x.group.half
    (s.setStage x 1).modHlane x fun y => { y with away := false, since := t }
  else s

/-- R84: SADC_ROT and SEG_ROT: the rotations of a lane are active: that of the receiver in DATA, that of the DAC in DATA without squelch. -/
def State.settleRot (s : State) (l : Lane) : State :=
  let sadc := s.appSet .FE_ROT_EN l && s.inData l && s.get .FE_SADC_FAILED l == 0
  let seg := s.appSet .FE_SEG_ROT_EN l && s.inData l && !s.squelched l && decide (s.get .FE_SEG_FAILED l < 2)
  (s.putBool .FE_SADC_ROT l sadc).putBool .FE_SEG_ROT l seg

/-! ### Ports -/

/-- R240: every host lane ACTIVE and the host skew within R223. -/
def State.hostUp (s : State) (p : Lane) : Bool :=
  !(s.portHlanes p).isEmpty && (s.portHlanes p).all (fun x => s.get .HST_STAGE x == 5) && s.get .PORT_HOST_SKEW p ≤ 160
/-- R240: every line lane in DATA and the line skew within R223. -/
def State.lineUp (s : State) (p : Lane) : Bool :=
  !(s.portLanes p).isEmpty && (s.portLanes p).all s.inData && s.get .PORT_LINE_SKEW p ≤ 512

/-- R223 and R240: when the last line lane of a port enters DATA the line skew is measured: a free value within the limit (a
skew beyond it is SKEW_OVR's); one lane has none. -/
def State.measureSkew (s : State) (p : Lane) : State :=
  let ls := s.portLanes p
  if ls.isEmpty || !ls.all s.inData || s.isSet .PORT_LINE_UP p then s
  else if ls.length = 1 then s.put .PORT_LINE_SKEW p 0
  else
    let d := s.draw
    d.2.put .PORT_LINE_SKEW p (Config.lineSkew d.1 % 513)

/-- R392: LAT_VALID on every lane of the port. -/
def State.accurate (s : State) (p : Lane) : Bool := !(s.portLanes p).isEmpty && (s.portLanes p).all fun l => s.isSet .FEC_LAT_VALID l

def State.settlePort (s : State) (p : Lane) : State :=
  let s := s.measureSkew p
  let h := s.hostUp p
  let n := s.lineUp p
  let st := if s.app .PORT_EN p ≠ 1 then 0 else if s.portFenced p then 3 else if h && n then 2 else 1
  let was := s.get .PORT_STATE p
  let s := (((s.putBool .PORT_HOST_UP p h).putBool .PORT_LINE_UP p n).put .PORT_STATE p st).putBool .TSP_ACC_OK p (s.accurate p)
  let s := if (was = 2) ≠ (st = 2) then s.flag .PORT_UP_CHG p else s
  let s := if was = 2 ∧ st ≠ 2 then s.modPort p fun x => { x with downSeen := true } else s
  if (s.port p).pmaReset ∧ (s.portLanes p).all (fun l => s.get .ACQ_STATE l != acqIdle) then
    s.modPort p fun x => { x with pmaReset := false }
  else s

/-- R222: the port sends Local Fault toward both sides. -/
def State.localFault (s : State) (p : Lane) : Bool := s.get .PORT_STATE p != 2

/-! ### Automatic power reduction -/

/-- R316 and R319: the conditions under which the APR timer of a lane runs, but for SIG_DET. DESIGN CHOICE: an over-power trip is one more, so that it ends
APR_HOLD and APR_PULSE, which STATE = TRIPPED replaces, with APR_OUT and its event (log 226). -/
def State.aprRuns (s : State) (l : Lane) : Bool :=
  s.appSet .LS_APR_EN l && (s.portOf l).isSome && s.appSet .FE_RX_EN l && s.get .PG_STATE l.group == 0
    && s.appSet .LS_LASER_EN l && !s.isSet .THM_TRIP l.half && !(s.lane l).ovpTrip

/-- R316: every exit from APR_HOLD or APR_PULSE sets APR_OUT and raises one INFO event; the threshold returns. -/
def State.settleApr (s : State) (l : Lane) : State :=
  if (s.lane l).apr ≠ .off ∧ (s.isSet .FE_SIG_DET l ∨ ¬ s.aprRuns l) then
    let s' := s.modLane l fun x => { x with apr := .off, aprLow := false }
    (s'.flag .LS_APR_OUT l).raise l.half
      { sev := 0, code := 0x0306, scope := 4, id := l, d0 := if s.isSet .FE_SIG_DET l then 0 else 1 }
  else s

/-- R316: the APR timer runs from the moment at which its conditions begin to hold; a break resets it. -/
def State.settleDark (s : State) (l : Lane) : State :=
  let t := if s.isSet .FE_SIG_DET l || !s.aprRuns l then none else some (((s.lane l).clk.darkAt).getD (s.half l.half).aon)
  s.modLane l fun x => { x with clk.darkAt := t }

/-- R306 and R321: NEXT_PULSE in APR_HOLD, in 0.1 s, by the always-on clock. -/
def State.settlePulse (s : State) (l : Lane) : State :=
  s.put .LS_NEXT_PULSE l (if (s.lane l).apr = .hold then ((s.lane l).pulseAt + 25000000000 - (s.half l.half).aon) / 25000000 else 0)

/-! ### Laser enable -/

/-- R39: a fence of the lane for a cause in the laser path, or of its group or half. -/
def State.laserFenced (s : State) (l : Lane) : Bool :=
  ((s.lane l).fences.any fun c => c == .laserOvp || (c == .loop && (s.lane l).loopApc)) || s.groupFenced l.group

/-- R308: every condition under which LASEN may be high, as OFF_CAUSE of R321 numbers what fails: 0 when all hold. -/
def State.offCause (s : State) (l : Lane) : Nat :=
  if !s.isSet .LSH_LOCK l.half then 1
  else if !s.appSet .LS_LASER_EN l then 2
  else if !s.isSet .LSH_SOFF_PIN l.half || s.isSet .LSH_SOFF_HELD l.half then 3
  else if (s.lane l).ovpTrip then 4
  else if (s.lane l).apr == .hold && !s.appSet .LS_APR_MODE l then 5
  else if s.laserFenced l then 6
  else if !s.groupOn l.group || !s.running l.half then 7
  else if s.isSet .THM_TRIP l.half then 8
  else 0

/-- R321: STATE of LN_LS_STAT. -/
def State.laserState (s : State) (l : Lane) (on : Bool) : Nat :=
  if (s.lane l).ovpTrip then 4
  else match (s.lane l).apr with
    | .hold => 2
    | .pulse => 3
    | .off => if on then 1 else 0

/-- The laser-bias channel of a lane (R321). -/
def State.laserCd (s : State) (l : Lane) : Chan := ⟨s.get .LS_LASER_CD l % 160, by omega⟩

/-- R309 and R341: the bias channel is forced to code 0, and rests there. -/
def State.forceBias (s : State) (c : Chan) : State :=
  ((s.put .CD_OUT c 0).put .CD_FORCED0 c 1).modChan c fun x => { x with rest := true }

/-- R308 to R310: LASEN of a lane, low too under EXTEST (R589); while it is low the bias channel is forced to code 0, and for the 10 µs after it rises that
BIAS_HOLD_END ends. -/
def State.settleLaser (s : State) (l : Lane) : State :=
  let cause := s.offCause l
  let on := cause == 0 && !s.extest
  let was := s.isSet .LS_LASEN l
  let s := (s.put .LS_OFF_CAUSE l cause).put .LS_STATE l (s.laserState l on)
  let s := s.putBool .LS_LASEN l on
  if !on then (s.forceBias (s.laserCd l)).modLane l fun x => { x with biasHold := false }
  else if !was then (s.forceBias (s.laserCd l)).modLane l fun x => { x with biasHold := true, clk.biasAt := (s.half l.half).aon }
  else s

/-! ### Commits and ALERT -/

/-- R31: a commit completes with the time of its application on the last lane. -/
def State.finishCommit (s : State) (c : PendCommit) : State :=
  match c.cmd with
  | some cmd => s.complete cmd (cmd.timed c.lastNs)
  | none => s

/-- R31: commits applied on every lane, with no ramp running (R58), complete. -/
def State.settleCommits (s : State) (h : Half) : State :=
  let done := (s.half h).commits.filter fun c => c.lanes.isEmpty && c.ramp.isEmpty && c.ctxWait.isEmpty
  let s := s.modHalf h fun x => { x with
    commits := x.commits.filter fun c => !(c.lanes.isEmpty && c.ramp.isEmpty && c.ctxWait.isEmpty) }
  s.each done State.finishCommit

/-- R472: the half drives ALERT while one of its causes holds. -/
def State.alert (s : State) (h : Half) : Bool :=
  s.isSet .HIF_NO_RINGS h || s.isSet .HIF_SEV_HIT h || s.isSet .HIF_RING_HALT h || s.isSet .REL_DMA_UE h
    || s.get .BOOT_STATE h == 2 || s.get .BOOT_STATE h == 3

def State.settleAlert (s : State) (h : Half) : State := s.putBool .HIF_ALERT h (s.alert h)

/-- The state after a step, with the status that follows from it. -/
def settle (s : State) : State :=
  let s := s.each allLanes State.settleLane
  let s := s.each allHlanes State.settleHost
  let s := s.each allLanes State.settlePort
  let s := s.each allLanes State.settleRot
  let s := (s.each allLanes State.settleApr).each allLanes State.settleDark
  let s := s.each allLanes State.settlePulse
  let s := s.each allHalves State.settleCommits
  let s := s.each allLanes State.settleLaser
  let s := s.each allCtxs State.settleCtx
  let s := s.each allGroups State.settleMaps
  s.each allHalves State.settleAlert

/-- The answer of a command: the settled state. -/
def done (s : State) : Host.Outcome State Fault Refusal := .next (settle s)

end Sys2Proof.Machine
end

