-- ==== Sys2Proof/Machine/Trims.lean ====
section
/-! DEFINITION. Trims and the calibrations that set them (R369 to R373): interpolation over five points plus a residual, the
repeat check, the calibration records. -/

namespace Sys2Proof.Machine

/-- R370: the temperatures of the points in 1/64 °C. -/
def trimTemps : List Int := [-5 * 64, 25 * 64, 55 * 64, 85 * 64, 105 * 64]

/-- R370: linear interpolation of the points at `t` (1/64 °C), with `t` clamped to −5 °C to 105 °C. -/
def interpolate (pts : List Rat) (t : Rat) : Rat :=
  let t := max (-5 * 64) (min (105 * 64) t)
  let i := if t < 25 * 64 then 0 else if t < 55 * 64 then 1 else if t < 85 * 64 then 2 else 3
  let t0 := trimTemps.getD i 0
  let t1 := trimTemps.getD (i + 1) 0
  let p0 := pts.getD i 0
  let p1 := pts.getD (i + 1) 0
  p0 + (p1 - p0) * (t - t0) / ((t1 - t0 : Int) : Rat)

/-- The trim of a cell (three to a cell: offset or current, gain, skew), with the factory points while no calibration has moved it. -/
def State.trim (s : State) (kind unit cell : Nat) : Trim :=
  match s.trims.find? fun x => x.kind == kind && x.unit == unit && x.cell == cell with
  | some x => x
  | none => ⟨kind, unit, cell, (List.range 5).map (Config.factoryPoint kind unit cell), 0⟩

/-- R370: the in-service value of a trim at a temperature. -/
def Trim.value (x : Trim) (t : Rat) : Rat := interpolate x.pts t + x.res

/-- R370: a calibration that passes at temperature `t` with the measured value `v`. -/
def Trim.pass (x : Trim) (t v : Int) : Trim :=
  let r := (v : Rat) - interpolate x.pts t
  match (List.range 5).find? fun i => (trimTemps.getD i 0 - t).natAbs ≤ 5 * 64 with
  | some i => { x with pts := x.pts.set i (x.pts.getD i 0 + r), res := 0 }
  | none => { x with res := r }

def State.setTrim (s : State) (x : Trim) : State :=
  { s with trims := x :: s.trims.filter fun y => !(y.kind == x.kind && y.unit == x.unit && y.cell == x.cell) }

/-! ### The repeat check -/

/-- R371: the two runs of a calibration agree, by the target of its table: 0 sub-ADC, 1 segment, 2 slice, 3 monitor ADC. -/
def calAgrees (c : CalResult) (kind : Nat) : Bool :=
  let off := (c.run1.offset - c.run2.offset).natAbs
  let gain := (c.run1.gain - c.run2.gain).natAbs
  let front := off ≤ 250 && gain ≤ 200 && (c.run1.skew - c.run2.skew).natAbs ≤ 30
  match kind with
  | 0 => front
  | 1 => off ≤ 30
  | 2 => c.run1.sig == c.run2.sig && front
  | _ => off ≤ 2000 && gain ≤ 20

/-- R73: an offset and a gain outside the limits of a sub-ADC, each as its distance from the reference. -/
def sadcOff (offset gain : Int) : Bool := 2000 < offset.natAbs || 2000 < gain.natAbs

/-- R62 and R73: both runs put the cell outside its limits: a sub-ADC more than 2 LSB or 2 % from the median of the lane's, a segment more
than 3 % from the mean current of those in service. -/
def calBad (c : CalResult) (kind : Nat) : Bool :=
  [c.run1, c.run2].all fun r =>
    match kind with
    | 0 => sadcOff (r.offset - c.refOffset) (r.gain - c.refGain)
    | 1 => 3 * c.refOffset.natAbs < 100 * (r.offset - c.refOffset).natAbs
    | _ => false

/-- R369: the trims that a calibration of a target sets, from its second run: a segment has its current, a monitor ADC its offset and gain,
the others offset, gain and skew. -/
def calValues (c : CalResult) (kind : Nat) : List Int :=
  match kind with
  | 1 => [c.run2.offset]
  | 3 => [c.run2.offset, c.run2.gain]
  | _ => [c.run2.offset, c.run2.gain, c.run2.skew]

/-- R370: a calibration that passes at temperature `t` moves every trim of its cell. -/
def State.passTrims (s : State) (kind unit cell : Nat) (t : Int) (vs : List Int) : State :=
  s.each vs.zipIdx fun s v => s.setTrim ((s.trim kind unit (3 * cell + v.2)).pass t v.1)

/-- R371 and R373: a repeated measurement ends: on agreement the trims are set, CAL_CNT counts and the time is recorded; on
disagreement nothing moves, DISAGREE sets, DIS_CNT counts and one NOTICE event is raised. `rec` is the record's index in the
blocks of R380; `kind` is the target of R371. -/
def State.calibrate (s : State) (h : Half) (kind unit rec : Nat) (t : Int) (scope id cell : Nat) (cal : CalResult) : State :=
  if !calAgrees cal kind then
    let s := (s.flag .CAL_DISAGREE rec).incSat .CAL_DIS_CNT rec
    s.raise h { sev := 1, code := 0x0407, scope := scope, id := id, d0 := kind, d1 := s.get .CAL_DIS_CNT rec }
  else
    let s := (s.passTrims kind unit cell t (calValues cal kind)).writeArea h 7
    let s := s.inc .CAL_CAL_CNT rec
    (s.put .CAL_LAST_SEC rec ((s.half h).sec % 2 ^ 32)).put .CAL_LAST_NS rec (s.half h).ns

/-- R369 to R373: a calibration of the half's monitor ADC. -/
def State.calMonitor (s : State) (h : Half) (cal : CalResult) : State :=
  if !calAgrees cal 3 then
    let s := (s.flag .CALH_MON_DIS h).incSat .CALH_MON_DIS_CNT h
    s.raise h { sev := 1, code := 0x0407, scope := 1, id := h, d0 := 3, d1 := s.get .CALH_MON_DIS_CNT h }
  else ((s.passTrims 3 h 0 (s.getS .THM_HOTTEST h) (calValues cal 3)).writeArea h 7).inc .CALH_MON_CAL_CNT h

/-- The temperature TG of a lane's group in 1/64 °C (R361). -/
def State.tg (s : State) (g : Group) : Int := s.getS .THG_TG g

/-- R372: the temperature for which the trims of a group in service stand. -/
def State.servedTemp (s : State) (g : Group) : Rat := (s.group g).trimTemp.getD (s.tg g)

/-- A calibration of a lane's cells: kind 0 a sub-ADC, 1 a segment. -/
def State.calLane (s : State) (l : Lane) (kind cell : Nat) (cal : CalResult) : State :=
  s.calibrate l.half kind l l (s.tg l.group) 4 l cell cal

end Sys2Proof.Machine
end

