-- ==== Sys2Proof/Machine/FrontEnd.lean ====
section
/-! DEFINITION. The line front end (R56 to R86): the swing ramp, TX segments, gain control, signal detect and the rotating
spare sub-ADC. Levels and errors come in 0.25 dB, as LN_FE_AGC counts them. -/

namespace Sys2Proof.Machine

/-! ### Swing -/

/-- R58: every 100 µs one code of the ramp toward the applied SWING; the ramp ends when it is reached. -/
def execSwingRampStep (l : Lane) (s : State) : Host.Outcome State Fault Refusal :=
  let x := s.lane l
  if !x.ramp ∨ s.ticks l.half < x.clk.rampAt + 25000 then done s
  else
    let t := s.swingCode l
    let v := if x.vsw < t then x.vsw + 1 else if t < x.vsw then x.vsw - 1 else x.vsw
    let s := s.modLane l fun x => { x with vsw := v, clk.rampAt := x.clk.rampAt + 25000 }
    done (if v = t then s.endRamp l else s)

/-! ### TX segments -/

/-- R83: a rotation period in ms, clamped to 10 to 10,000. -/
def clampPeriod (ms : Nat) : Nat := max 10 (min 10000 ms)

/-- R62: segment position `k` leaves service and `by'` takes what it did: the weight it drives, or the role of calibration spare. -/
def LaneS.replaceSeg (x : LaneS) (k : Nat) (by' : Option Nat) : LaneS :=
  match x.segs.findIdx? (· == k), by' with
  | some j, some n => { x with segs := x.segs.set j n }
  | none, n => if x.segCal = some k then { x with segCal := n, segOk := true } else x
  | _, none => x

/-- R62: what the `n`th failed segment, at position `k`, does to the positions. -/
def LaneS.loseSeg (x : LaneS) (n k : Nat) : LaneS :=
  if n = 1 then { x.replaceSeg k x.segRes with segRes := none }
  else if n = 2 then (if x.segCal = some k then { x with segCal := none } else { x.replaceSeg k x.segCal with segCal := none })
  else x

/-- R62: a segment fails: the repair reserve, then the calibration spare replaces it, with which rotation stops (R20); the third failure
fences the lane. -/
def State.segFail (s : State) (l : Lane) (k : Nat) : State :=
  let n := min (s.get .FE_SEG_FAILED l + 1) 3
  let s := s.modLane l fun x => x.loseSeg n k
  let s := ((s.put .FE_SEG_FAILED l n).countSpares l.group).flag .FE_SEG_FAIL l
  let s := if n = 2 then s.put .CAL_INTERP_ONLY l 1 else s
  let s := s.raise l.half { sev := 1, code := 0x0201, scope := 4, id := l, d0 := n }
  let s := s.logRepair l.half 0 (48 * k + l)
  if n = 3 then s.fenceIn (.lane l) .feSeg else s

/-- R61 and R371: what a segment swap needs to start; a spare whose calibration disagreed does not enter service. -/
def State.segReady (s : State) (l : Lane) : Bool :=
  s.appSet .FE_SEG_ROT_EN l && s.inData l && s.get .FE_SEG_FAILED l < 2 && !s.squelched l && !(s.lane l).segSwap
    && (s.lane l).segCal.isSome && (s.lane l).segOk && s.calServed l.group

/-- R369 and R371: the segment in the dummy load is calibrated; one outside its limit in both runs fails (R62). -/
def State.calSeg (s : State) (l : Lane) (cal : CalResult) : State :=
  match (s.lane l).segCal with
  | none => s
  | some k =>
    let s := (s.calLane l 1 k cal).modLane l fun x => { x with segOk := calAgrees cal 1 }
    if calBad cal 1 then s.segFail l k else s

/-- R83: the segment swap period of a lane in ticks. -/
def State.segPeriod (s : State) (l : Lane) : Nat := msTicks (clampPeriod (s.app .FE_SEG_PERIOD l))

/-- R61 and R76: a segment swap falls due every SEG_PERIOD, or is retried; during a swing ramp it is retried later. R371: a calibration spare that
disagreed is calibrated again before. -/
def execSegmentSwapStart (t : SegStart) (s : State) : Host.Outcome State Fault Refusal :=
  let l := t.lane
  let s := match (s.lane l).segOk, t.cal with
    | false, some c => if s.calServed l.group then s.calSeg l c else s
    | _, _ => s
  let now := s.ticks l.half
  let x := s.lane l
  if now < x.segDue ∧ ¬ x.segRetry then done s
  else
    let p := s.segPeriod l
    let s := if now < x.segDue then s else s.modLane l fun x => { x with segDue := dueAfter now x.segDue p }
    if !s.segReady l then done s
    else if x.ramp then done (s.modLane l fun x => { x with segRetry := true })
    else done (s.modLane l fun x => { x with segSwap := true, segRetry := false, clk.segAt := now })

/-- R60 step 2: the incoming segment takes the drive of the outgoing one, which goes to the dummy load and is the next calibration
spare: its position. -/
def LaneS.moveSeg (x : LaneS) : LaneS :=
  match x.segCal with
  | some c => { x with segs := x.segs.set x.segTurn c, segCal := some (x.segs.getD x.segTurn 0), segTurn := (x.segTurn + 1) % 128 }
  | none => x

/-- R60 step 2: the incoming segment matches and takes the drive; the outgoing one is measured twice in the dummy load (R369, R371). A
segment outside its limit in both runs fails (R62). -/
def execSegmentSwapComplete (l : Lane) (cal : CalResult) (s : State) : Host.Outcome State Fault Refusal :=
  if !(s.lane l).segSwap then done s
  else
    done ((s.modLane l fun x => { x.moveSeg with segSwap := false }).calSeg l cal)

/-- R60: no match within 20 µs: the swap is abandoned; a trim that fails in both runs fails the incoming segment (R62). -/
def execSegmentSwapTimeout (l : Lane) (bothRuns : Bool) (s : State) : Host.Outcome State Fault Refusal :=
  if !(s.lane l).segSwap ∨ s.ticks l.half < (s.lane l).clk.segAt + 5000 then done s
  else
    let s := s.modLane l fun x => { x with segSwap := false }
    match bothRuns, (s.lane l).segCal with
    | true, some k => done (s.segFail l k)
    | _, _ => done s

/-! ### Gain control -/

/-- R66: AUTO in DATA is TRACK, AUTO outside DATA is ACQUIRE, and MANUAL decides nothing. -/
def State.agcManual (s : State) (l : Lane) : Bool := s.app .FE_AGC_MODE l == 1

/-- R66 and R67: the step that a level error asks for: down above +1.5 dB, up below −1.5 dB, within STEP_MIN to STEP_MAX. -/
def State.gainWanted (s : State) (l : Lane) (q : Int) : Option Int :=
  let k := s.get .FE_GAIN_STEP l
  if 6 < q then (if s.app .FE_STEP_MIN l < k then some (-1) else none)
  else if q < -6 then (if k < s.app .FE_STEP_MAX l then some 1 else none)
  else none

/-- R67: the decision condition under a level error: held since it first held, restarted by a break, a step or the other direction. -/
def State.holdSince (s : State) (l : Lane) (q : Int) : Option (Int × Nat) :=
  (s.gainWanted l q).map fun d =>
    match (s.lane l).condAt with
    | some p => if p.1 = d then p else (d, s.ticks l.half)
    | none => (d, s.ticks l.half)

/-- R84 and R67: LEVEL holds the level error in 0.25 dB, saturating; the decision condition follows it. -/
def State.setLevel (s : State) (l : Lane) (q : Int) : State :=
  let c := if s.agcManual l then none else s.holdSince l q
  (s.putS .FE_LEVEL l (clampInt (-128) 127 q)).modLane l fun x => { x with condAt := c }

/-- R67: a step within STEP_MIN to STEP_MAX. -/
def State.stepInRange (s : State) (l : Lane) (k : Int) : Nat :=
  (clampInt (s.app .FE_STEP_MIN l) (s.app .FE_STEP_MAX l) k).toNat

/-- R64 and R68: the PGA takes a step, and the digital compensation takes the step's measured ratio on the same sample. -/
def State.setGainStep (s : State) (l : Lane) (k : Nat) : State :=
  (s.put .FE_GAIN_STEP l k).modLane l fun x => { x with comp := x.pga.getD k 0x8000 }

/-- R66: the hold in ticks: 1 ms in TRACK, 2 µs in ACQUIRE. -/
def State.gainHold (s : State) (l : Lane) : Nat := if s.inData l then msTicks 1 else 500

/-- R67: the decision condition of a lane has held for the hold of R66. -/
def State.heldLong (s : State) (l : Lane) : Bool := (s.lane l).condAt.any fun p => p.2 + s.gainHold l ≤ s.ticks l.half

/-- R67: the level error is `errQ` (0.25 dB), where a hold may end: a condition that has held without a break for its hold schedules a step; one that
holds for the first time, or again after a break, begins its hold. In MANUAL nothing is scheduled. -/
def execGainHoldExpiry (l : Lane) (errQ : Int) (s : State) : Host.Outcome State Fault Refusal :=
  let s := s.setLevel l errQ
  if s.agcManual l || !s.appSet .FE_RX_EN l || !s.heldLong l then done s
  else done (s.modLane l fun x => { x with gain := s.gainWanted l errQ })

/-- R66, R67, R68: a gain step takes effect and restarts the hold. In TRACK it sets the flag and counts (R85, R86). -/
def State.takeGain (s : State) (l : Lane) (d : Int) : State :=
  let k := s.get .FE_GAIN_STEP l
  let n := s.stepInRange l (k + d)
  let s := s.modLane l fun x => { x with gain := none, condAt := none }
  if n = k then s
  else
    let s := ((s.setGainStep l n).setLevel l (s.getS .FE_LEVEL l + 6 * ((n : Int) - k))).perfLane l 0x08
    if s.inData l then (s.flag .FE_EVT_GAIN_STEP l).inc .FE_GAIN_CNT l else s

/-- R76 and R200: a bit-swap of the receive direction takes place at the present DMT symbol, or has just taken place at it. -/
def State.swapNow (s : State) (l : Lane) : Bool :=
  (s.lane l).rxSwap.any (fun w => w.sent && w.s == s.symIdx l) || (s.lane l).switched == some (s.symIdx l)

/-- R66, R258 and R200: the scheduled step takes effect at its boundary: not during a reception outside DATA; in LM400D a step
at the symbol of a bit-swap moves to the next symbol, which is the event's next occurrence. -/
def execGainStepApply (l : Lane) (s : State) : Host.Outcome State Fault Refusal :=
  match (s.lane l).gain with
  | none => done s
  | some d =>
    if !s.inData l && (s.lane l).phase != .search then done s
    else if s.inData l && s.lmode l == 3 && s.swapNow l then done s
    else done (s.takeGain l d)

/-- R69: an overload step may be taken: in TRACK, above STEP_MIN, and not within 10 µs of the one before. -/
def State.overloadReady (s : State) (l : Lane) : Bool :=
  s.inData l && !s.agcManual l && decide (s.app .FE_STEP_MIN l < s.get .FE_GAIN_STEP l)
    && (s.lane l).overAt.all fun t => t + 2500 ≤ s.ticks l.half

/-- R69: more than 10⁻³ of the samples of a window are clips: a step down is scheduled for the next boundary of R66, without the hold, which
restarts; a sub-ADC parallel run is abandoned (R76). -/
def execOverloadStep (l : Lane) (clips samples : Nat) (s : State) : Host.Outcome State Fault Refusal :=
  if s.overloadReady l && samples < clips * 1000 then
    let now := s.ticks l.half
    let s := (s.abandonHandover l).modLane l fun x => { x with gain := some (-1), condAt := none, overAt := some now }
    done (s.flag .FE_OVERLOAD_STEP l)
  else done s

/-! ### Signal detect -/

/-- R70 and R268: SIG_DET clears: a lane in DATA leaves it, a lane in TRAIN returns to LINK. -/
def State.loseSignal (s : State) (l : Lane) : State :=
  let s := (s.put .FE_SIG_DET l 0).flag .FE_SIG_CHG l
  let s := s.leaveData l 1
  if s.get .ACQ_STATE l = acqTrain then s.toLink l else s

/-- R70: the level has been more than LOS_THR below TARGET for 100 µs at STEP_MAX: SIG_DET clears. A lane in DATA leaves it, a
lane in TRAIN returns to LINK (R268). -/
def execSigDetClear (l : Lane) (levelQ : Int) (s : State) : Host.Outcome State Fault Refusal :=
  let err := levelQ - s.appS .FE_TARGET l
  if s.isSet .FE_SIG_DET l && s.get .FE_GAIN_STEP l == s.app .FE_STEP_MAX l && err < -(s.app .FE_LOS_THR l : Int) then
    done ((s.setLevel l err).loseSignal l)
  else done s

/-- R70: the level has been within LOS_THR − 3 dB of TARGET for 100 µs: SIG_DET sets; APR ends in `settle` (R316). -/
def execSigDetSet (l : Lane) (levelQ : Int) (s : State) : Host.Outcome State Fault Refusal :=
  let err := levelQ - s.appS .FE_TARGET l
  if !s.isSet .FE_SIG_DET l && s.appSet .FE_RX_EN l && err.natAbs + 12 ≤ s.app .FE_LOS_THR l && (s.fiOn l 2 0).isNone then
    done (((s.put .FE_SIG_DET l 1).flag .FE_SIG_CHG l).setLevel l err)
  else done s

/-! ### The rotating spare sub-ADC -/

/-- R452: a command names a lane: by its scope, by the port that holds it, or by its mask. -/
def State.reqHolds (s : State) (r : Req) (l : Lane) : Bool :=
  let k := r.id.toNat
  match r.scope.toNat with
  | 0 => true
  | 1 => l.half.val == k
  | 2 => l.group.val == k
  | 3 => l.val == k || (s.portOf l).any fun p => p.val == k
  | 4 => l.val == k
  | _ => r.mask.getLsbD l.val

/-- R19: a scheduled commit or bit-swap of the lane fires within `ns`. -/
def State.schedWithin (s : State) (l : Lane) (ns : Nat) : Bool :=
  allHalves.any fun h => (s.half h).sched.any fun a =>
    (a.cmd.op == .commit || a.cmd.op == .bitswap) && s.reqHolds a.cmd.req l && decide (a.w ≤ s.now h + ns)

/-- R19: the symbol of a bit-swap of the lane, in either direction, lies within `ns` (9.6 ns to a symbol). -/
def State.swapWithin (s : State) (l : Lane) (ns : Nat) : Bool :=
  let near := fun (at' now : Nat) => decide (idxAhead at' now * 48 ≤ 5 * (ns : Int))
  (s.lane l).rxSwap.any (fun w => w.sent && near w.s (s.symIdx l)) || (s.lane l).txSwap.any fun w => near w.1 (s.txIdx l)

/-- R67 and R76: a gain step of the lane takes effect within `ns`: it waits for its boundary, or its hold of 1 ms ends by then. -/
def State.gainWithin (s : State) (l : Lane) (ns : Nat) : Bool :=
  (s.lane l).gain.isSome || (s.lane l).condAt.any fun p => p.2 + msTicks 1 ≤ s.ticks l.half + (ns + 3) / 4

/-- R19 and R76: a commit, a bit-swap or a gain step of the lane is scheduled within `ns`. A commit that waits for its boundary is applied
within 152 ns (R28). -/
def State.actionSoon (s : State) (l : Lane) (ns : Nat) : Bool :=
  allHalves.any (fun h => (s.half h).commits.any fun c => l ∈ c.lanes) || s.schedWithin l ns || s.swapWithin l ns || s.gainWithin l ns

/-- R72: the parallel run of a handover in ns, by line mode: 262,144 sample periods. -/
def sadcRun (lmode : Nat) : Nat := if lmode = 0 then 4935 else if lmode = 1 then 2311 else 1166

/-- R72: the sub-ADC that the spare relieves next, with its phase: the spare's next neighbour round the ring, past those passed over. -/
def LaneS.outgoing (x : LaneS) : Option (Nat × Nat) :=
  x.spare.bind fun p => (List.range 65).findSome? fun i =>
    let n := (p + 1 + x.skip + i) % 65
    (x.phases.findIdx? (· == n)).map fun k => (k, n)

/-- R71: a rotation may start: enabled, in DATA, a spare that has passed, no sub-ADC failed. -/
def State.sadcReady (s : State) (l : Lane) : Bool :=
  s.appSet .FE_ROT_EN l && s.inData l && (s.lane l).sparePassed && s.get .FE_SADC_FAILED l == 0 && !s.isSet .FE_HANDOVER l
    && s.calServed l.group

/-- R72 step 1: the trims of the phase go to the incoming sub-ADC. -/
def State.handTrims (s : State) (l : Lane) : State :=
  match (s.lane l).spare, (s.lane l).outgoing with
  | some p, some o => s.each (List.range 3) fun s c => s.setTrim { s.trim 0 l (3 * o.2 + c) with cell := 3 * p + c }
  | _, _ => s

/-- R71, R72, R76: a rotation starts, or waits to be retried; one that R19 defers is counted. -/
def State.startRotation (s : State) (l : Lane) : State :=
  if !s.sadcReady l then s.modLane l fun x => { x with sadcRetry := true }
  else if s.actionSoon l (sadcRun (s.lmode l)) then (s.incSat .FE_HO_DEFER l).modLane l fun x => { x with sadcRetry := true }
  else ((s.put .FE_HANDOVER l 1).handTrims l).modLane l fun x => { x with sadcRetry := false }

/-- R369 and R371: the calibration of the spare sub-ADC. -/
def State.calSpare (s : State) (l : Lane) (cal : CalResult) : State :=
  match (s.lane l).spare with
  | some p => (s.calLane l 0 p cal).modLane l fun x => { x with sparePassed := calAgrees cal 0 }
  | none => s

/-- R71 and R83: a sub-ADC rotation falls due every SADC_PERIOD; `cal` is the calibration of the spare since the one before. -/
def execSubadcRotationStart (l : Lane) (cal : CalResult) (s : State) : Host.Outcome State Fault Refusal :=
  let now := s.ticks l.half
  if now < (s.lane l).sadcDue then done s
  else
    let p := msTicks (clampPeriod (s.app .FE_SADC_PERIOD l))
    let s := s.modLane l fun x => { x with sadcDue := dueAfter now x.sadcDue p }
    done ((s.calSpare l cal).startRotation l)

/-- R71: 10 µs after the blocking condition ended the rotation is tried again; `cal` is a calibration of the spare since, if one was
made. The schedule does not move. -/
def execSubadcRotationRetry (l : Lane) (cal : Option CalResult) (s : State) : Host.Outcome State Fault Refusal :=
  if (s.lane l).sadcRetry then
    let s := match cal with
      | some c => s.calSpare l c
      | none => s
    done (s.startRotation l)
  else done s

/-- R73 and R74: sub-ADC `n` leaves the ring; the spare, if there is one, takes its phase. -/
def LaneS.removeSub (x : LaneS) (n : Nat) : LaneS :=
  if x.spare = some n then { x with spare := none }
  else
    match x.phases.findIdx? (· == n), x.spare with
    | some k, some p => { x with phases := x.phases.set k p, spare := none }
    | _, _ => x

/-- R73 to R75: a sub-ADC fails: the first leaves the lane without a spare, the second fences it. -/
def State.sadcFail (s : State) (l : Lane) (sub : Nat) : State :=
  let n := min (s.get .FE_SADC_FAILED l + 1) 2
  let s := s.modLane l fun x => x.removeSub sub
  let s := ((s.put .FE_SADC_FAILED l n).countSpares l.group).flag .FE_SADC_FAIL l
  let s := (s.put .CAL_INTERP_ONLY l 1).raise l.half { sev := 1, code := 0x0202, scope := 4, id := l, d0 := n }
  let s := s.logRepair l.half 1 (48 * sub + l)
  if n = 2 then s.fenceIn (.lane l) .feSadc else s

/-- R72: the outputs agree: at least 2,048 pairs, the mean within ±0.125 LSB, the rms at most 0.6 LSB. -/
def handoverAgrees (c : HandoverCmp) : Bool :=
  2048 ≤ c.pairs && c.meanMilli.natAbs ≤ 125 && c.rmsMilli ≤ 600

/-- R72 step 4: the incoming sub-ADC serves the phase and the outgoing one is the spare. -/
def LaneS.handOver (x : LaneS) : LaneS :=
  match x.spare, x.outgoing with
  | some p, some o => { x with phases := x.phases.set o.1 p, spare := some o.2, skip := 0, disagree := 0 }
  | _, _ => x

/-- R73: the third disagreement in a row of one incoming sub-ADC calibrates both in spare time and declares failed what is outside the
limits; when neither is, rotation goes on with the next neighbour. -/
def State.examinePair (s : State) (l : Lane) (inSub outSub : Nat) (cmp : HandoverCmp) : State :=
  let s := (s.calLane l 0 inSub cmp.incoming).calLane l 0 outSub cmp.outgoing
  let s := if calBad cmp.incoming 0 then s.sadcFail l inSub else s
  let s := if calBad cmp.outgoing 0 then s.sadcFail l outSub else s
  if calBad cmp.incoming 0 || calBad cmp.outgoing 0 then s else s.modLane l fun x => { x with skip := (x.skip + 1) % 64 }

/-- R72 steps 3 and 4, R73: the parallel run ends. -/
def execHandoverEnd (l : Lane) (cmp : HandoverCmp) (s : State) : Host.Outcome State Fault Refusal :=
  if !s.isSet .FE_HANDOVER l then done s
  else
    let s := s.put .FE_HANDOVER l 0
    if handoverAgrees cmp then done (((s.inc .FE_HO_CNT l).perfLane l 0x09).modLane l LaneS.handOver)
    else
      let n := (s.lane l).disagree + 1
      let s := (s.flag .FE_HO_DISAGREE l).incSat .FE_HO_DISAGREE_CNT l
      let s := s.modLane l fun x => { x with disagree := n % 3 }
      match decide (n < 3), (s.lane l).spare, (s.lane l).outgoing with
      | false, some p, some o => done (s.examinePair l p o.2 cmp)
      | _, _, _ => done s

/-- R74: the sub-ADCs in service that a comparison puts outside the limits of R73. -/
def LaneS.outsideNow (x : LaneS) (devs : List SubAdcDev) : List Nat :=
  (devs.filter fun d => x.phases.contains d.sub.val && sadcOff d.offset d.gain).map fun d => d.sub.val

/-- R74: each 1 ms, between rotations, the in-service sub-ADCs are held against the ensemble: one outside the limits for the second time in a
row has failed. R84: CLIP shows whether more than 10⁻⁴ of the samples of that 1 ms were clips. -/
def execSubadcEnsembleCheck (l : Lane) (m : EnsembleMeasure) (s : State) : Host.Outcome State Fault Refusal :=
  let s := s.putBool .FE_CLIP l (m.samples < m.clips * 10000)
  if s.isSet .FE_HANDOVER l then done s
  else
    let now := (s.lane l).outsideNow m.devs
    let bad := now.filter fun n => (s.lane l).outside.contains n
    let s := s.modLane l fun x => { x with outside := now.filter fun n => !bad.contains n }
    done (s.each bad fun s n => s.sadcFail l n)

end Sys2Proof.Machine
end

