-- ==== Sys2Proof/Machine/Decibel.lean ====
section
/-! DEFINITION. Comparisons in decibels, exact over whole numbers: 10 × log10(a / b) against a bound in a fraction of a dB. -/

namespace Sys2Proof.Machine

/-- 10 × log10(a / b) ≥ n / d dB, for positive `b` and `d`. -/
def dbGe (a b : Nat) (n : Int) (d : Nat) : Bool :=
  if 0 ≤ n then 10 ^ n.toNat * b ^ (10 * d) ≤ a ^ (10 * d) else b ^ (10 * d) ≤ 10 ^ (-n).toNat * a ^ (10 * d)

/-- The largest k in `lo … lo + 2^fuel − 1` with 10 × log10(a / b) ≥ (2k − 1) / 20 dB; `lo` where none is. -/
def dbSearch (a b : Nat) (lo : Int) : Nat → Int
  | 0 => lo
  | n + 1 =>
    let mid := lo + 2 ^ n
    dbSearch a b (if dbGe a b (2 * mid - 1) 20 then mid else lo) n

/-- 10 × log10(a / b) to the nearest 0.1 dB, between −102.4 dB and +102.3 dB. -/
def dbTenths (a b : Nat) : Int := if a = 0 then -1024 else if b = 0 then 1023 else dbSearch a b (-1024) 11

end Sys2Proof.Machine
end

