-- ==== Sys2Proof/Machine/Profile.lean ====
section
/-! DEFINITION. The profile generator of the loop engines (R290 to R293): one sample of the time-optimal motion of a position to a
target under limits of velocity, acceleration and jerk. Time is in ms; a limit of 0 is no limit. Roots are taken to 2^-40 and
the state is kept to 2^-32. -/

namespace Sys2Proof.Machine

/-- The integer square root of `n`, found from bit `b` down. -/
def isqrtFrom (n : Nat) : Nat → Nat → Nat
  | 0, r => r
  | b + 1, r =>
    let t := r + 2 ^ b
    isqrtFrom n b (if t * t ≤ n then t else r)

/-- The square root of a rational to 2^-40; 0 below 0. -/
def sqrtQ (x : Rat) : Rat := if x ≤ 0 then 0 else (isqrtFrom (x * 2 ^ 80).floor.toNat 96 0 : Nat) / 2 ^ 40

def ratAbs (x : Rat) : Rat := if x < 0 then -x else x
def ratSign (x : Rat) : Rat := if x < 0 then -1 else if 0 < x then 1 else 0

/-- A piece of motion: how long, with which acceleration at its start and which jerk. -/
structure Piece where
  dur : Rat
  acc : Rat
  jerk : Rat

/-- A state of motion: position, velocity, acceleration. -/
structure Motion where
  p : Rat
  v : Rat
  a : Rat

/-- The motion after `t` of a piece that starts with acceleration `acc`. -/
def Motion.after (m : Motion) (acc jerk t : Rat) : Motion :=
  ⟨m.p + m.v * t + acc * t * t / 2 + jerk * t * t * t / 6, m.v + acc * t + jerk * t * t / 2, acc + jerk * t⟩

/-- Run pieces to their end. -/
def Motion.through (m : Motion) (ps : List Piece) : Motion := ps.foldl (fun m q => m.after q.acc q.jerk q.dur) m

/-- Run pieces for a time; none when they end before. -/
def Motion.at? (m : Motion) : List Piece → Rat → Option Motion
  | [], _ => none
  | q :: ps, t => if t < q.dur then some (m.after q.acc q.jerk t) else (m.after q.acc q.jerk q.dur).at? ps (t - q.dur)

/-- R291: the fastest change from velocity `v` with acceleration `a` to velocity `v1` with acceleration 0. Without a jerk limit the
acceleration is chosen at once; without an acceleration limit too, so is the velocity. -/
def changeSpeed (v a v1 : Rat) (amax jmax : Option Rat) : List Piece :=
  match jmax with
  | none =>
    match amax with
    | none => []
    | some am => let dv := v1 - v; [⟨ratAbs dv / am, ratSign dv * am, 0⟩]
  | some j =>
    let s : Rat := if v + a * ratAbs a / (2 * j) ≤ v1 then 1 else -1
    let dv := s * (v1 - v)
    let a0 := s * a
    let free := sqrtQ (j * dv + a0 * a0 / 2)
    match amax with
    | none => [⟨(free - a0) / j, s * a0, s * j⟩, ⟨free / j, s * free, -(s * j)⟩]
    | some am =>
      if am < a0 then
        [⟨(a0 - am) / j, s * a0, -(s * j)⟩, ⟨max 0 ((dv - a0 * a0 / (2 * j)) / am), s * am, 0⟩, ⟨am / j, s * am, -(s * j)⟩]
      else if free ≤ am then [⟨(free - a0) / j, s * a0, s * j⟩, ⟨free / j, s * free, -(s * j)⟩]
      else
        [⟨(am - a0) / j, s * a0, s * j⟩, ⟨max 0 ((dv - (2 * am * am - a0 * a0) / (2 * j)) / am), s * am, 0⟩,
          ⟨am / j, s * am, -(s * j)⟩]

/-- The velocity with which the pieces of a change of speed are run: at once the new one where nothing limits it. -/
def startSpeed (v v1 : Rat) (amax jmax : Option Rat) : Rat := if amax.isNone && jmax.isNone then v1 else v

/-- The distance of a change of speed. -/
def changeDist (v a v1 : Rat) (amax jmax : Option Rat) : Rat :=
  ((⟨0, startSpeed v v1 amax jmax, a⟩ : Motion).through (changeSpeed v a v1 amax jmax)).p

/-- The distance to come to rest by way of speed `w`. -/
def viaDist (v a w : Rat) (amax jmax : Option Rat) : Rat := changeDist v a w amax jmax + changeDist w 0 0 amax jmax

/-- The greatest speed from `lo` to `hi` by way of which the motion stops within `dist`, by halving. -/
def peakSpeed (v a dist : Rat) (amax jmax : Option Rat) : Nat → Rat → Rat → Rat
  | 0, lo, _ => lo
  | n + 1, lo, hi =>
    let w := (lo + hi) / 2
    if viaDist v a w amax jmax ≤ dist then peakSpeed v a dist amax jmax n w hi else peakSpeed v a dist amax jmax n lo w

/-- A speed by way of which the motion does not stop within `dist`, by doubling. -/
def tooFast (v a dist : Rat) (amax jmax : Option Rat) : Nat → Rat → Rat
  | 0, w => w
  | n + 1, w => if viaDist v a w amax jmax ≤ dist then tooFast v a dist amax jmax n (2 * w) else w

/-- R290 and R291: speeding up for a time: the acceleration goes to AMAX at JMAX and stays there. -/
def speedUp (a t : Rat) (amax jmax : Option Rat) : List Piece :=
  match jmax, amax with
  | none, none => []
  | none, some am => [⟨t, am, 0⟩]
  | some j, none => [⟨t, a, j⟩]
  | some j, some am =>
    let t1 := ratAbs (am - a) / j
    let up : Rat := ratSign (am - a) * j
    if t ≤ t1 then [⟨t, a, up⟩] else [⟨t1, a, up⟩, ⟨t - t1, am, 0⟩]

/-- Speeding up for a time and then braking to rest. -/
def pushPieces (v a t : Rat) (amax jmax : Option Rat) : List Piece :=
  let up := speedUp a t amax jmax
  let m := (⟨0, v, a⟩ : Motion).through up
  up ++ changeSpeed m.v m.a 0 amax jmax

/-- The distance of that motion. -/
def pushDist (v a t : Rat) (amax jmax : Option Rat) : Rat := ((⟨0, v, a⟩ : Motion).through (pushPieces v a t amax jmax)).p

/-- The longest time from `lo` to `hi` of speeding up after which the motion stops within `dist`, by halving. -/
def pushTime (v a dist : Rat) (amax jmax : Option Rat) : Nat → Rat → Rat → Rat
  | 0, lo, _ => lo
  | n + 1, lo, hi =>
    let t := (lo + hi) / 2
    if pushDist v a t amax jmax ≤ dist then pushTime v a dist amax jmax n t hi else pushTime v a dist amax jmax n lo t

/-- A time of speeding up after which the motion does not stop within `dist`, by doubling. -/
def pushTooLong (v a dist : Rat) (amax jmax : Option Rat) : Nat → Rat → Rat
  | 0, t => t
  | n + 1, t => if pushDist v a t amax jmax ≤ dist then pushTooLong v a dist amax jmax n (2 * t) else t

/-- The greatest speed of a motion that speeds up no more. -/
def topSpeed (v a : Rat) (jmax : Option Rat) : Rat :=
  match jmax with
  | some j => if 0 < a then v + a * a / (2 * j) else v
  | none => v

/-- R290 and R291: the pieces that bring a motion along the positive direction to rest `dist` ahead, in the least time; with the speed at the
start. Where the way is long enough the motion goes by way of VMAX; else it speeds up as long as it can still stop in time; one that is too fast
for VMAX is first brought within it. -/
def headFor (v a dist : Rat) (vmax amax jmax : Option Rat) : Rat × List Piece :=
  let down := fun (w : Rat) => if amax.isNone && jmax.isNone then [] else changeSpeed w 0 0 amax jmax
  let cruise := fun (w : Rat) =>
    let t : Rat := if w ≤ 0 then 0 else (dist - viaDist v a w amax jmax) / w
    (startSpeed v w amax jmax, changeSpeed v a w amax jmax ++ ⟨max 0 t, 0, 0⟩ :: down w)
  let push := fun (_ : Unit) =>
    (v, pushPieces v a (pushTime v a dist amax jmax 56 0 (pushTooLong v a dist amax jmax 48 1)) amax jmax)
  match vmax with
  | none => push ()
  | some top =>
    if viaDist v a top amax jmax ≤ dist then cruise top
    else if top < topSpeed v a jmax then cruise (peakSpeed v a dist amax jmax 56 0 top)
    else push ()

/-- A motion along the positive direction does not reverse when it is brought to rest. -/
def neverReverses (v a : Rat) (jmax : Option Rat) : Bool :=
  match jmax with
  | some j => decide (0 ≤ v + a * ratAbs a / (2 * j))
  | none => true

/-- Pieces run along the other direction. -/
def Piece.mirrored (q : Piece) : Piece := ⟨q.dur, -q.acc, -q.jerk⟩

/-- R292: the plan from a motion to rest `dist` away: straight ahead where that needs no reversal, else to rest first and on from there; with the speed at
the start. Where nothing limits the speed's change the motion there has counts for nothing. -/
def planTo (v a dist : Rat) (vmax amax jmax : Option Rat) : Rat × List Piece :=
  if amax.isNone && jmax.isNone then
    let w := vmax.getD 0
    if w = 0 then (0, []) else (ratSign dist * w, [⟨ratAbs dist / w, 0, 0⟩])
  else
    let stop := changeDist v a 0 amax jmax
    if neverReverses v a jmax && stop ≤ dist then headFor v a dist vmax amax jmax
    else
      let left := dist - stop
      let on := (headFor 0 0 (ratAbs left) vmax amax jmax).2
      (v, changeSpeed v a 0 amax jmax ++ if 0 ≤ left then on else on.map Piece.mirrored)

/-- The positions at the ends of the pieces that end within a time. -/
def Motion.stations (m : Motion) : List Piece → Rat → List Rat
  | [], _ => []
  | q :: ps, t => if t < q.dur then [] else let n := m.after q.acc q.jerk q.dur; n.p :: n.stations ps (t - q.dur)

def limitQ (n : Nat) : Option Rat := if n = 0 then none else some ((n : Rat) / 65536)

/-- R290 and R292: the position, velocity and acceleration (LSB 2^-32) one sample of `ms` later, on the plan of this sample. A plan that ends within the
sample, or brings the position to the target or past it, gives the target at rest; a plan counts as ended within a millionth of a sample. -/
def profileStep (p v a tgt : Int) (vmax amax jmax : Nat) (ms : Rat) : Int × Int × Int :=
  let rest := (tgt, 0, 0)
  if p = tgt ∧ v = 0 ∧ a = 0 then rest
  else if vmax = 0 ∧ amax = 0 ∧ jmax = 0 then rest
  else
    let q := fun (x : Int) => (x : Rat) / 2 ^ 32
    let dir : Rat := if v ≠ 0 then ratSign v else if a ≠ 0 then ratSign a else ratSign (tgt - p)
    let dist := dir * (q tgt - q p)
    let plan := planTo (dir * q v) (dir * q a) dist (limitQ vmax) (limitQ amax) (limitQ jmax)
    let m : Motion := ⟨0, plan.1, dir * q a⟩
    let back := fun (x : Rat) => (dir * x * 2 ^ 32 + 1 / 2).floor
    match m.at? plan.2 (ms * (1 + 1 / 2 ^ 20)), m.at? plan.2 ms with
    | some _, some n =>
      let p' := p + back n.p
      let crosses := fun (x : Rat) => (0 < dist && dist ≤ x) || (dist < 0 && x ≤ dist)
      let there := (p < tgt && tgt ≤ p') || (tgt < p && p' ≤ tgt)
      if there || (m.stations plan.2 ms).any crosses then rest else (p', back n.v, back n.a)
    | _, _ => rest

end Sys2Proof.Machine
end

