-- ==== Sys2Proof/Machine/Chain.lean ====
section
/-! DEFINITION. The chains of the PAM modes between the pins and the symbols (R56, R59, R63, R64, R87 to R94, R106, R108): DAC and ADC codes, FIR and
predistortion, FFE, Volterra terms, slicer, the correlators of a block and the timing loop. -/

namespace Sys2Proof.Machine

/-! ### The converters -/

/-- R58: the swing in mV of a SWING code. -/
def swingMv (code : Nat) : Nat := 300 + 10 * min code 60

/-- R56: the differential output of a code in units of V_SW / 510: (2 × code − 255). -/
def dacLevel (code : Nat) : Int := 2 * code - 255

/-- R56, R57, R59: the differential output of a lane in mV for a code: 0 in squelch; TX_POL inverts. -/
def State.lineOut (s : State) (l : Lane) (code : Nat) : Rat :=
  if s.squelched l then 0
  else
    let c := if s.appSet .FE_TX_POL l then 255 - code else code
    dacLevel c * swingMv (s.lane l).vsw / 510

/-- R59: RX_POL inverts the receive code. -/
def State.rxCode (s : State) (l : Lane) (code : Nat) : Nat := if s.appSet .FE_RX_POL l then 255 - code else code

/-- R64: a code of 0 or 255 is a clip. -/
def isClip (code : Nat) : Bool := code == 0 || code == 255

/-- R63: the nominal PGA gain at a step in 0.5 dB. -/
def pgaHalfDb (step : Nat) : Int := -12 + 3 * step

/-- R370: the in-service trims of sub-ADC `n` at a temperature: offset in 1/1,000 LSB, gain error in 1/1,000 %, skew in fs. -/
def State.subTrimsAt (s : State) (l : Lane) (n : Nat) (t : Rat) : Rat × Rat × Rat :=
  let v := fun (c : Nat) => (s.trim 0 l (3 * n + c)).value t
  (v 0, v 1, v 2)

/-- R64: a code freed of its sub-ADC's offset, gain and skew and of the PGA step's ratio, in 1/16 LSB. -/
def sampleOf (t : Rat × Rat × Rat) (c r : Nat) : Rat :=
  16 * (((2 * c - 255 : Int) / 2 - t.1 / 1000) / (1 + t.2.1 / 100000) * 32768 / (max 1 r : Nat)) + Config.skewTerm t.2.2 c r

/-- R64: the corrected sample of a code at a phase, served by the sub-ADC that the phase has: a signed number of 12 bits. -/
def State.corrected (s : State) (l : Lane) (phase code : Nat) : Int :=
  let t := s.subTrimsAt l ((s.lane l).phases.getD phase 0) (s.servedTemp l.group)
  clampInt (-2048) 2047 (roundAwayQ (sampleOf t (s.rxCode l code) (s.lane l).comp))

/-! ### Transmit chain -/

/-- R93: the FIR output in 2^-10, from seven levels: place k holds a[n + 3 − k]. -/
def State.txFir (s : State) (l : Lane) (a : List Int) : Int :=
  ((List.range 7).map fun k => s.appS .EQ_TXF_SHADOW (l.val * 7 + k) * a.getD k 0).sum

/-- R94: the table index of a symbol, from the levels as `txFir` takes them. -/
def predIndex (a : List Int) : Nat :=
  let q := fun (k : Nat) => ((a.getD k 0 + 3) / 2).toNat % 4
  16 * q 4 + 4 * q 3 + q 2

/-- R94: entry `i` of the predistortion table. -/
def State.predEntry (s : State) (l : Lane) (i : Nat) : Int :=
  let f := [Fld.EQ_PRED0, .EQ_PRED1, .EQ_PRED2, .EQ_PRED3].getD (i % 4) .EQ_PRED0
  s.appS f (l.val * 16 + i / 4)

/-- R94: the DAC code of a symbol before the clamp. -/
def State.rawCode (s : State) (l : Lane) (a : List Int) : Int := 128 + 85 * s.txFir l a / 2048 + s.predEntry l (predIndex a)

/-- R94: the DAC code of a symbol. -/
def State.txCode (s : State) (l : Lane) (a : List Int) : Nat := (clampInt 0 255 (s.rawCode l a)).toNat

/-- R93 and R94: levels in the order in which they are sent, newest history first: the DAC codes that they complete, how many were clamped, and
the last six levels. A code leaves once the three symbols that follow its own are known. -/
def State.txLevels (s : State) (l : Lane) : List Int → List Int → List Nat × Nat × List Int
  | hist, [] => ([], 0, hist)
  | hist, a :: as =>
    let w := a :: hist
    let raw := s.rawCode l w
    let r := State.txLevels s l (w.take 6) as
    (s.txCode l w :: r.1, (if raw < 0 ∨ 255 < raw then 1 else 0) + r.2.1, r.2.2)

/-! ### Levels -/

/-- R90, R137: a level 0 to 3 (−3 to +3) and its label. -/
def msbOf (q : Nat) : Bool := decide (2 ≤ q)
def lsbOf (q : Nat) : Bool := q == 1 || q == 2
def levelOf (msb lsb : Bool) : Nat :=
  match msb, lsb with
  | false, false => 0
  | false, true => 1
  | true, true => 2
  | true, false => 3

/-- The number −3 to +3 of a level. -/
def levelNum (q : Nat) : Int := 2 * q - 3

/-- R261: one step of the PRBS13 generator: r1 is bit 0; the output bit and the next register. -/
def prbs13 (r : Nat) : Bool × Nat :=
  let b := (r.testBit 12).xor ((r.testBit 11).xor ((r.testBit 1).xor (r.testBit 0)))
  (b, (2 * r + b.toNat) % 8192)

/-- R261: training symbols in order, two bits each, MSB first, as levels 0 to 3. -/
def trainSymbols : Nat → Nat → List Nat
  | 0, _ => []
  | n + 1, r =>
    let m := prbs13 r
    let b := prbs13 m.2
    levelOf m.1 b.1 :: trainSymbols n b.2

/-- R261: the same as levels −3 to +3. -/
def trainLevels (n r : Nat) : List Int := (trainSymbols n r).map levelNum

/-- R261: the register after `n` steps. -/
def prbs13Run : Nat → Nat → Nat
  | 0, r => r
  | n + 1, r => prbs13Run n (prbs13 r).2

/-- R261: symbol `n` of a training section, which has 61,440; the generator repeats after 8,191 bits. -/
def trainSymbol (n : Nat) : Nat := (trainSymbols 1 (prbs13Run (2 * (n % 61440) % 8191) 8191)).getD 0 0

/-! ### Receive chain -/

/-- R110: the FFE window of an effort level: first tap and number of taps. -/
def effortWindow (effort main : Nat) : Nat × Nat :=
  let n := if effort = 3 then 48 else if effort = 2 then 32 else if effort = 1 then 24 else 16
  let st := main - n / 4
  (if 48 < st + n then 48 - n else st, n)

def inWindow (effort main k : Nat) : Bool :=
  let w := effortWindow effort main
  w.1 ≤ k && k < w.1 + w.2

/-- R89: the Volterra terms are active. -/
def State.voltOn (s : State) (l : Lane) : Bool := s.appSet .EQ_VOLT_EN l && s.get .EQ_EFFORT l == 3

/-- R88 and R110: the FFE output at the lane's effort level, in 2^-12; place k of `x` holds x[n + MAIN − k]. -/
def State.ffeSum (s : State) (l : Lane) (x : List Int) : Int :=
  ((List.range 48).map fun k =>
    if inWindow (s.get .EQ_EFFORT l) (s.app .EQ_MAIN l) k then s.appS .EQ_FFE_SHADOW (l.val * 48 + k) * x.getD k 0 else 0).sum

/-- R89: the product of a Volterra term; place d of `v` holds x[n + 3 − d]. -/
def State.voltProduct (s : State) (l : Lane) (v : List Int) (j : Nat) : Int :=
  v.getD (s.app .EQ_VOLT_DA (l.val * 12 + j)) 0 * v.getD (s.app .EQ_VOLT_DB (l.val * 12 + j)) 0

/-- R89: the Volterra terms in 2^-23, active at E3 with VOLT_EN = 1. -/
def State.voltSum (s : State) (l : Lane) (v : List Int) : Int :=
  if s.voltOn l then ((List.range 12).map fun j => s.appS .EQ_VOLT_SHADOW (l.val * 12 + j) * s.voltProduct l v j).sum else 0

/-- R88 and R89: y[n]: rounded, ties away from zero, and saturated. -/
def State.equalised (s : State) (l : Lane) (x v : List Int) : Int :=
  clampInt (-8192) 8191 (roundAway (2 ^ 11 * s.ffeSum l x + s.voltSum l v) (2 ^ 23))

/-- R90: the targets of the four levels, −3 to +3 as 0 to 3. -/
def targetOf (q : Nat) : Int := 1024 * q - 1536

/-- R90: the slicer on `z` in units of 1 / k; a value at a threshold decides for the upper level. -/
def slice (k : Nat) (z : Int) : Nat := if z < -1024 * k then 0 else if z < 0 then 1 else if z < 1024 * k then 2 else 3

/-- R90: the decision on y[n] after the previous one, with the DFE tap in LM100. -/
def State.decide90 (s : State) (l : Lane) (y : Int) (prev : Nat) : Nat :=
  if s.lmode l = 0 ∧ s.appSet .EQ_DFE_EN l then slice 512 (512 * y - s.appS .EQ_D1_SHADOW l * targetOf prev) else slice 1 y

/-! ### Correlators -/

/-- R96 and R144: the error of a decision in LM400T in 1/64: RHO of the previous level belongs to the target. -/
def trellisError (y : Int) (q prev rho : Nat) : Int := 64 * y - (64 * targetOf q + rho * targetOf prev)

/-- R98, R183, R187: the pairs whose final decisions a lane keeps: those of the longest window, 2^18 DMT symbols, which begin within the first and end
within the last. -/
def keptPairs : Nat := 3 * 2 ^ 15 + 2

/-- R144: the final decision of the trellis decoder on symbol `n` since the first data symbol of a lane in LM400T: pair n / 5,760. -/
def LaneS.finalLevel (x : LaneS) (n : Nat) : Option Nat :=
  (x.finals.find? fun p => p.1 == n / 5760 % (3 * 2 ^ 29)).bind fun p => p.2[n % 5760]?

/-- R98, R144 and R261: the level of symbol `n` where it does not come from the slicer: the known symbol of a training section; in LM400T the trellis
decoder's final decision. -/
def State.knownLevel (s : State) (l : Lane) (n : Nat) : Option Nat :=
  if s.get .ACQ_STATE l = acqTrain ∧ ¬ s.isSet .ACQ_RX_DATA l then some (trainSymbol n)
  else if s.lmode l = 2 then (s.lane l).finalLevel n
  else none

/-- R90 and R144: the level of the symbol before. -/
def State.prevLevel (s : State) (l : Lane) (x : EqSample) : Nat :=
  if x.n = 0 then x.qPrev else (s.knownLevel l (x.n - 1)).getD x.qPrev

/-- R96, R98, R144, R261: y, the level and the error of a sample: against the known symbol in TRAIN; in DATA and BLIND against the slicer's decision in
LM100 and LM200 and the trellis decoder's in LM400T. DESIGN CHOICE: where the trellis decoder has decided nothing, the slicer's stands in (log 162). -/
def State.sampleErr (s : State) (l : Lane) (x : EqSample) : Int × Nat × Rat :=
  let y := s.equalised l x.x x.v
  match s.knownLevel l x.n with
  | some q => (y, q, (trellisError y q (s.prevLevel l x) (if s.lmode l = 2 then s.app .FEC_RHO l else 0) : Rat) / 64)
  | none =>
    let q := s.decide90 l y x.qPrev
    (y, q, (y - targetOf q : Int))

/-- R98: an accumulator is of 56 bits, signed, and saturates. -/
def sat56 (v : Rat) : Rat := max (-(2 ^ 55 : Int)) (min ((2 ^ 55 - 1 : Int) : Rat) v)

/-- R98: one sample enters the accumulators. -/
def State.accumulate (s : State) (l : Lane) (a : Accum) (x : EqSample) : Accum :=
  let e := (s.sampleErr l x).2.2
  { ffe := (List.range 48).map fun k => sat56 (a.ffe.getD k 0 + e * x.x.getD k 0)
    volt := (List.range 12).map fun j => sat56 (a.volt.getD j 0 + e * (s.voltProduct l x.v j : Rat) / 2048)
    dfe := sat56 (a.dfe + e * (targetOf (s.prevLevel l x) : Rat) / 512)
    sse := sat56 (a.sse + e * e) }

/-- R98: the accumulators of a block. -/
def State.blockSums (s : State) (l : Lane) (xs : List EqSample) : Accum := xs.foldl (s.accumulate l) {}

/-- R96: mean and deviation (to 2^-40) of y over the samples decided for a level; none where there are none. -/
def State.levelStats (s : State) (l : Lane) (xs : List EqSample) (q : Nat) : Option (Rat × Rat) :=
  let ys := ((xs.map (s.sampleErr l)).filter fun r => r.2.1 == q).map fun r => (r.1 : Rat)
  if ys.isEmpty then none
  else
    let n : Rat := ys.length
    let mu := ys.sum / n
    some (mu, sqrtQ ((ys.map fun y => (y - mu) * (y - mu)).sum / n))

/-- R96 and R127: the eye opening of a level pair in percent, floored at 0; a free value where a level did not occur. DESIGN CHOICE: one above 100 % reads
100, the end of the field's range (log 15). -/
def eyeOpening (upper lower : Option (Rat × Rat)) : Nat :=
  match upper, lower with
  | some u, some w => (clampInt 0 100 (quantiseQ (((u.1 - 3 * u.2) - (w.1 + 3 * w.2)) * 100 / 1024))).toNat
  | _, _ => (Config.meanOfNone 0).toNat % 101

/-! ### Timing -/

/-- R106: the Mueller-Müller detector on two symbols in order, each as its y and its decided level. -/
def detector (prev cur : Int × Nat) : Int := cur.1 * targetOf prev.2 - prev.1 * targetOf cur.2

/-- R106: the detector outputs of symbols in order. -/
def detectorOuts (ys : List (Int × Nat)) : List Int := (ys.zip (ys.drop 1)).map fun p => detector p.1 p.2

/-- R106 and R184: ±300 ppm over one step of the loop of `span` sample periods, in 2^-24 of 1/256 UI. -/
def ppm300 (span : Nat) : Int := 300 * 2 ^ 32 * span / 1000000

/-- R184: the sample periods between two steps of a lane's loop: a DMT symbol in LM400D, else a symbol. -/
def State.loopSpan (s : State) (l : Lane) : Nat := if s.lmode l = 3 then 2160 else 1

/-- R106: one step of the second-order loop: the integrator within ±300 ppm, and the phase. `kp` and `ki` are the shifts, `u` is the timing error
with MM_BIAS in 1/256 UI. -/
def timingStep (span kp ki : Nat) (st : Int × Int) (u : Int) : Int × Int :=
  let i := clampInt (-ppm300 span) (ppm300 span) (st.1 + u * 2 ^ (24 - ki))
  (i, st.2 + u * 2 ^ (24 - kp) + i)

/-- R106: the timing errors that a block's symbols give a lane's loop. -/
def State.timingErrors (s : State) (l : Lane) (xs : List EqSample) : List Int :=
  let ys := (xs.map (s.sampleErr l)).map fun r => (r.1, r.2.1)
  (detectorOuts ys).map fun z => Config.detectorUi z + s.appS .EQ_MM_BIAS l

/-- R106 and R128: FREQ in 0.01 ppm and PHASE in 1/256 UI. DESIGN CHOICE, for R128 names no rounding: FREQ to the nearest, ties away from zero; PHASE
without its fraction (log 212). -/
def State.showTiming (s : State) (l : Lane) (i p : Int) : State :=
  ((s.modLane l fun x => { x with tlI := i, tlP := p }).putS .EQ_FREQ l (roundAway (i * 100000000) (2 ^ 32 * s.loopSpan l))).put .EQ_PHASE l
    (p / 2 ^ 24 % 256).toNat

/-- R108: a member's part of the shared loop: the mean of the detector outputs of `n` members drives it. -/
def sharedStep (kp ki n : Nat) (st : Int × Int) (u : Int) : Int × Int :=
  let i := clampInt (-ppm300 1) (ppm300 1) (st.1 + u * 2 ^ (24 - ki) / (n : Int))
  (i, st.2 + (u * 2 ^ (24 - kp) + i) / (n : Int))

/-- R109: the lanes of a port that contribute to its shared loop. -/
def State.lsMembers (s : State) (p : Lane) : List Lane := (s.portLanes p).filter fun l => s.isSet .EQ_LS_MEMBER l

/-- R106 and R108: the timing loop of a lane runs over timing errors: its own, or in lock-step the shared one with the lane's offset, which tracks
at 2^-LS_SHIFT of the proportional gain. -/
def State.runLoop (s : State) (l : Lane) (us : List Int) : State :=
  let kp := s.app .EQ_KP_SHIFT l
  let ki := s.app .EQ_KI_SHIFT l
  match s.portOf l, s.isSet .EQ_LS_MEMBER l with
  | some p, true =>
    let n := (s.lsMembers p).length
    let y := s.port p
    let r := us.foldl (sharedStep kp ki n) (y.lsI, y.lsP)
    let off := us.foldl (fun o u => o + u * 2 ^ (24 - kp) / (2 : Int) ^ s.app .EQ_LS_SHIFT l) (s.lane l).lsOff
    let s := (s.modPort p fun y => { y with lsI := r.1, lsP := r.2 }).modLane l fun x => { x with lsOff := off }
    s.showTiming l r.1 (r.2 + off)
  | _, _ =>
    let r := us.foldl (timingStep (s.loopSpan l) kp ki) ((s.lane l).tlI, (s.lane l).tlP)
    s.showTiming l r.1 r.2

/-- R106: the loop of a PAM mode over the symbols of a block. -/
def State.runTiming (s : State) (l : Lane) (ys : List EqSample) : State := s.runLoop l (s.timingErrors l ys)

/-- R108 and R109: a lane joins the shared loop: its offset is its phase less the shared phase. -/
def State.joinShared (s : State) (l p : Lane) : State :=
  let shared := (s.port p).lsP
  s.modLane l fun x => { x with lsOff := x.tlP - shared }

/-- R108: lock-step begins on a port: the shared frequency is the mean of the members', the shared phase that of the first, and every lane takes its
offset. -/
def State.startShared (s : State) (p : Lane) : State :=
  let ms := match s.lsMembers p with
    | [] => s.portLanes p
    | ls => ls
  let i := (ms.map fun m => (s.lane m).tlI).sum / ((max 1 ms.length : Nat) : Int)
  let ph := (ms.head?.map fun m => (s.lane m).tlP).getD 0
  let s := s.modPort p fun y => { y with lsI := i, lsP := ph }
  s.each (s.portLanes p) fun s m => s.joinShared m p

end Sys2Proof.Machine
end

