-- ==== Sys2Proof/Machine/Equaliser.lean ====
section
/-! DEFINITION. The PAM equaliser of a lane (R87 to R131): coefficient banks and their adaptation, quality measures,
checkpoints, timing lock, effort levels, slice rotation. -/

namespace Sys2Proof.Machine

/-! ### Coefficients -/

/-- R100: the active bank of a lane. -/
def State.bank (s : State) (l : Lane) : Bank where
  ffe := (List.range 48).map fun k => s.app .EQ_FFE_SHADOW (l * 48 + k)
  volt := (List.range 12).map fun j => s.app .EQ_VOLT_SHADOW (l * 12 + j)
  d1 := s.app .EQ_D1_SHADOW l

/-- R100: make a bank active. -/
def State.loadBank (s : State) (l : Lane) (b : Bank) : State :=
  let s := s.each (List.range 48) fun s k => s.putApp .EQ_FFE_SHADOW (l * 48 + k) (b.ffe.getD k 0)
  let s := s.each (List.range 12) fun s j => s.putApp .EQ_VOLT_SHADOW (l * 12 + j) (b.volt.getD j 0)
  s.putApp .EQ_D1_SHADOW l b.d1

/-- R99: the update of one coefficient: the step in LSB, rounded away from zero, clamped to ±MAX_STEP, added and saturated. `frac`
is the number of fractional bits of the coefficient, `w` its width. -/
def updateCoeff (mu n maxStep frac w : Nat) (old : Nat) (corr : Rat) : Nat :=
  let step := roundAwayQ (-(corr * 2 ^ frac) / (2 ^ mu * n * 2 ^ 22))
  let v := toSigned w old + clampInt (-(maxStep : Int)) maxStep step
  ofSigned w (clampInt (-(2 ^ (w - 1))) (2 ^ (w - 1) - 1) v)

/-- R99: MU_ACQ in acquisition and in the first 64 blocks after an effort change, MU_TRACK otherwise. -/
def State.muNow (s : State) (l : Lane) : Nat :=
  if s.inData l && 65 ≤ (s.lane l).effBlocks then s.app .EQ_MU_TRACK l else s.app .EQ_MU_ACQ l

/-- R98: correlator samples of a block. -/
def State.blockSamples (s : State) (l : Lane) : Nat := 2 ^ (s.app .EQ_BLOCK_LOG2 l - s.app .EQ_DECIM_LOG2 l)

/-- R99 and R101: the bank that the Kneader computes from the correlators of a block. -/
def State.adapted (s : State) (l : Lane) (c : Accum) : Bank :=
  let b := s.bank l
  let mu := s.muNow l
  let n := s.blockSamples l
  let mx := s.app .EQ_MAX_STEP l
  let main := s.app .EQ_MAIN l
  let ffe := (List.range 48).map fun k =>
    let old := b.ffe.getD k 0
    if s.appSet .EQ_AD_FFE l && inWindow (s.get .EQ_EFFORT l) main k && !(s.inData l && k + 1 == main) then
      updateCoeff mu n mx 12 14 old (c.ffe.getD k 0)
    else old
  let volt := (List.range 12).map fun j =>
    let old := b.volt.getD j 0
    if s.appSet .EQ_AD_VOLT l && s.voltOn l then updateCoeff mu n mx 12 12 old (c.volt.getD j 0) else old
  let d1 := if s.appSet .EQ_AD_DFE l && s.appSet .EQ_DFE_EN l && s.lmode l == 0 then updateCoeff mu n mx 9 10 b.d1 c.dfe else b.d1
  ⟨ffe, volt, d1⟩

/-- R101: in DATA the FFE tap at MAIN − 1 keeps its applied value in whatever bank is swapped in. -/
def State.pinned (s : State) (l : Lane) (b : Bank) : Bank :=
  let k := s.app .EQ_MAIN l - 1
  if s.inData l then { b with ffe := b.ffe.set k (s.app .EQ_FFE_SHADOW (l * 48 + k)) } else b

/-- R120 and R129: the Kneader writes a bank: the SHADOW fields show it, but for those that the host has written since and no commit has
applied. -/
def State.showBank (s : State) (l : Lane) (b : Bank) : State :=
  let w := fun (s : State) (f : Fld) (i v : Nat) => if (f, i) ∈ s.written then s else s.put f i v
  let s := s.each (List.range 48) fun s k => w s .EQ_FFE_SHADOW (l * 48 + k) (b.ffe.getD k 0)
  let s := s.each (List.range 12) fun s j => w s .EQ_VOLT_SHADOW (l * 12 + j) (b.volt.getD j 0)
  w s .EQ_D1_SHADOW l b.d1

/-- R115: both slices of a parallel run hold the same state: the incoming one takes the lane's. -/
def State.mirror (s : State) (l : Lane) : State :=
  if (s.group l.group).sliceRun = some l then
    let x := s.lane l
    let b := s.bank l
    s.modGroup l.group fun y => { y with copy := some ⟨b, x.swap, x.held, x.ckpt, (x.tlI, x.tlP), x.enc, x.dec, x.fecLine⟩ }
  else s

/-! ### Quality measures -/

/-- R263: eight blocks in a row with an MSE within ±0.2 dB of their mean: each ratio to the mean lies within 10^(±1/50). -/
def stable8 (xs : List Rat) : Bool :=
  let ms := xs.take 8
  let mean := ms.sum / 8
  ms.length == 8 && 0 < mean && ms.all fun m => (m / mean) ^ 50 ≤ 10 && 1 ≤ 10 * (m / mean) ^ 50

/-- R263: RX_READY in the PAM modes. -/
def State.readyNow (s : State) (l : Lane) : Bool :=
  s.isSet .EQ_LOCK l && stable8 (s.lane l).mse && s.app .ACQ_MIN_SNR l ≤ s.get .EQ_SNR l && (s.lane l).preset.isNone

/-- R263: in TRAIN and in DATA of a PAM mode RX_READY follows its conditions. -/
def State.updateReady (s : State) (l : Lane) : State :=
  if (s.get .ACQ_STATE l = acqTrain ∨ s.inData l) ∧ s.lmode l ≠ 3 then s.putBool .ACQ_RX_READY l (s.readyNow l) else s

/-- R97: the lane eye metric goes to the loop engine, with its validity; while HOLD the last value stays, marked stale. -/
def State.deliverEye (s : State) (l : Lane) : State :=
  if s.isSet .EQ_HOLD l then s.modLane l fun x => { x with eyeStale := true }
  else
    let v : Int := if s.lmode l = 3 then s.getS .DMT_MEAN_MARGIN l
      else min (s.get .EQ_EYE_HI l) (min (s.get .EQ_EYE_MID l) (s.get .EQ_EYE_LO l))
    let ok := s.inData l && s.get .EQ_ADAPT l != 0 && s.get .EQ_ADAPT l != 3
    s.modLane l fun x => { x with eye := v, eyeValid := ok, eyeStale := false }

/-- The mean square error `a` exceeds `num / 16` times the mean square error `b`. -/
def mseAbove (a b : Rat) (num : Nat) : Bool := num * b < 16 * a

/-- R97, R99 and R104: an update, and so a swap, follows the end of a block. -/
def State.updates (s : State) (l : Lane) : Bool :=
  (s.get .EQ_ADAPT l == 1 || s.get .EQ_ADAPT l == 2) && !s.isSet .EQ_HOLD l && s.lmode l != 3

/-- R96 and R127: SNR in 0.1 dB, from 0 to 1,023. -/
def snrOf (mse : Rat) : Nat := (clampInt 0 1023 (dbTenths (1310720 * mse.den) mse.num.natAbs)).toNat

/-- R96 and R127: the measures of a block in a PAM mode. -/
def State.putQuality (s : State) (l : Lane) (xs : List EqSample) (mse : Rat) : State :=
  let eye := fun (u w : Nat) => eyeOpening (s.levelStats l xs u) (s.levelStats l xs w)
  (((s.put .EQ_SNR l (snrOf mse)).put .EQ_EYE_HI l (eye 3 2)).put .EQ_EYE_MID l (eye 2 1)).put .EQ_EYE_LO l (eye 1 0)

/-- R148, R151 and R169: PM_MARGIN, the mean over the block of the smallest Λ of each frame; MARGIN_LOW sets at every block that ends with it below
REL_THR (DESIGN CHOICE: not only when it falls below). -/
def State.putMargin (s : State) (l : Lane) : State :=
  if s.lmode l ≤ 1 then s
  else
    let x := s.lane l
    let v := if x.lamN = 0 then Config.meanOfNone 0 else quantiseQ (256 * x.lamSum / x.lamN)
    let s := (s.put .FEC_PM_MARGIN l (clampInt 0 65535 v).toNat).modLane l fun x => { x with lamSum := 0, lamN := 0 }
    if s.get .FEC_PM_MARGIN l < 4 * s.app .FEC_REL_THR l then s.flag .FEC_MARGIN_LOW l else s

/-- R103: the divergence test of a block in a PAM mode. -/
def State.testDivergence (s : State) (l : Lane) (mse : Rat) : State :=
  let div := s.isSet .EQ_CKPT_VALID l && s.inData l && mseAbove mse (s.lane l).ckptMse (s.app .EQ_DIV_RATIO l)
  let n := if div then (s.lane l).above + 1 else 0
  let due := div && s.app .EQ_DIV_BLOCKS l ≤ n
  s.modLane l fun x => { x with above := if due then 0 else n, revertDue := x.revertDue || due }

/-- R98: a block ends for the correlators: they wait for the Kneader, or the next block starts at once. -/
def State.closeBlock (s : State) (l : Lane) (a : Accum) : State :=
  let t := s.ticks l.half
  let go := s.updates l
  s.modLane l fun x => { x with
    block := if go then none else some t, acc := if go then some a else none, effBlocks := min 65 (x.effBlocks + 1) }

/-- R96 to R98, R103, R106: an adaptation block of a PAM mode ends. -/
def State.endBlock (s : State) (l : Lane) (m : BlockMeasures) : State :=
  let a := s.blockSums l m.samples
  let mse := a.sse / s.blockSamples l
  let s := (s.putQuality l m.samples mse).putBool .EQ_VALID l (s.inData l && s.get .EQ_ADAPT l != 3)
  let s := ((s.testDivergence l mse).closeBlock l a).modLane l fun x => { x with mse := (mse :: x.mse).take 8 }
  s.runTiming l m.timing

/-- R96 to R98, R148, R103, R263: an adaptation block ends: in a PAM mode after N correlator samples. The eye metric is delivered when no swap
follows (R97). While the Kneader has a block in hand the timing loop alone runs on. DESIGN CHOICE: R98's blocks do not run in LM400D; there PM_MARGIN is the
mean since the latest of these rows, or since an equaliser block began anew (log 213). -/
def execAdaptBlockEnd (l : Lane) (m : BlockMeasures) (s : State) : Host.Outcome State Fault Refusal :=
  let t := s.ticks l.half
  let pam := s.lmode l != 3
  if s.get .EQ_ADAPT l = 0 then done s
  else if pam && (s.lane l).block.isNone then done (s.runTiming l m.timing)
  else if pam && m.samples.length != s.blockSamples l then done s
  else
    let s := s.modLane l fun x => { x with eqAt := t + 1 }
    let s := if pam then s.endBlock l m
      else (((s.put .EQ_EYE_HI l 0).put .EQ_EYE_MID l 0).put .EQ_EYE_LO l 0).putBool .EQ_VALID l (s.inData l && s.get .EQ_ADAPT l != 3)
    let s := (s.putMargin l).updateReady l
    done (if s.updates l then s else s.deliverEye l)

/-- R99, R120 and R408: the lane's adaptation Kneader computes the update from the block's correlators, writes the shadow bank and requests a swap; not
while it is unavailable (R104) or adaptation is off or frozen. No other Kneader's work is an update of the lane. -/
def execKneaderUpdate (l : Lane) (k : Knd) (s : State) : Host.Outcome State Fault Refusal :=
  match k == l.adaptKnd && s.updates l, (s.lane l).acc with
  | true, some a =>
    let b := s.adapted l a
    done (((s.showBank l b).modLane l fun x => { x with swap := some b, acc := none }).mirror l)
  | _, _ => done s

/-- R183: the equaliser word of a tone as TABLE 3 holds it (R210). -/
def feqWord (re im : Int) : Nat :=
  ofSigned 16 (clampInt (-32768) 32767 im) * 2 ^ 16 + ofSigned 16 (clampInt (-32768) 32767 re)

/-- R551 and R552: a bank swap is counted, and the time since the lane's latest one recorded. -/
def State.countSwap (s : State) (l : Lane) : State :=
  let now := s.ticks l.half
  let b := Group.perfBlk l.group
  let sel := s.get .PERF_H0_SEL b
  let s := s.perfLane l 0x06
  let s := match (s.lane l).swapAt with
    | some t => if sel = l.val % 8 ∨ sel = 8 then s.hist b false (now - t) else s
    | none => s
  s.modLane l fun x => { x with swapAt := some now }

/-- R98 and R148: the next block starts now. -/
def State.openBlock (s : State) (l : Lane) : State :=
  let t := s.ticks l.half
  s.modLane l fun x => { x with block := some t, acc := none, lamSum := 0, lamN := 0 }

/-- R183 and R196: an equaliser block of LM400D starts with the symbol of now. -/
def State.openFeq (s : State) (l : Lane) : State :=
  let n := s.symIdx l
  s.modLane l fun x => { x with feq := [], feqFrom := n }

/-- R97, R98 and R119: an update of the Kneader that waits for its swap is discarded: no swap follows its block, and the next block starts. So is one of the
per-tone equaliser (R183, R200). -/
def State.dropUpdate (s : State) (l : Lane) : State :=
  if (s.lane l).swap.isSome ∨ (s.lane l).feq ≠ [] then
    ((((s.modLane l fun x => { x with swap := none }).openFeq l).openBlock l).perfLane l 0x07).deliverEye l
  else s

/-- R100: the banks are exchanged at the codeword boundary; the next block starts (R98) and the eye metric is delivered (R97). In LM400D the
per-tone equaliser bank is exchanged (R183). -/
def State.swapBanks (s : State) (l : Lane) : State :=
  if s.lmode l = 3 then
    let ts := (s.lane l).feq
    if ts.isEmpty then s
    else
      let s := (s.each ts fun s t => s.setDmt l 3 t.1 (feqWord t.2.1 t.2.2)).countSwap l
      (s.openFeq l).deliverEye l
  else
    match (s.lane l).swap with
    | none => s
    | some b =>
      let s := (s.loadBank l (s.pinned l b)).countSwap l
      (((s.modLane l fun x => { x with swap := none }).openBlock l).mirror l).deliverEye l

/-! ### Checkpoints -/

/-- R103 and R124: at CKPT_PERIOD the active bank becomes the checkpoint when the latest MSE is at most 1.25 times the checkpoint's. LM400D has
none (R92). DESIGN CHOICE: checkpoints are kept and reverts fall due in DATA only (log 232). -/
def execCheckpointTimer (l : Lane) (s : State) : Host.Outcome State Fault Refusal :=
  let now := s.ticks l.half
  if now < (s.lane l).ckptDue then done s
  else
    let p := msTicks (s.app .EQ_CKPT_PERIOD l)
    let s := s.modLane l fun x => { x with ckptDue := dueAfter now x.ckptDue p }
    match (s.lane l).mse with
    | [] => done s
    | m :: _ =>
      if !s.inData l || s.lmode l == 3 || (s.isSet .EQ_CKPT_VALID l && mseAbove m (s.lane l).ckptMse 20) then done s
      else
        let b := s.bank l
        done (((s.put .EQ_CKPT_VALID l 1).modLane l fun x => { x with ckpt := b, ckptMse := m }).mirror l)

/-- R103: the checkpoint is swapped in; the fourth revert within 100 ms freezes adaptation, and the measures are no longer valid (R97). DESIGN
CHOICE: blocks of a frozen lane count on, and a further revert within 100 ms raises WARN again (log 233). -/
def State.revert (s : State) (l : Lane) : State :=
  let now := s.ticks l.half
  let recent := now :: (s.lane l).reverts.filter fun t => now - t < 25000000
  let s := (s.dropUpdate l).loadBank l (s.pinned l (s.lane l).ckpt)
  let s := (s.modLane l fun x => { x with revertDue := false, above := 0, reverts := recent }).openBlock l
  let s := (s.flag .EQ_REVERT l).incSat .EQ_REVERT_CNT l
  let s := (s.mirror l).raise l.half { sev := 1, code := 0x0203, scope := 4, id := l, d0 := s.get .EQ_REVERT_CNT l }
  if recent.length < 4 then s.deliverEye l
  else
    let s := ((s.put .EQ_ADAPT l 3).flag .EQ_FROZEN l).put .EQ_VALID l 0
    (s.deliverEye l).raise l.half { sev := 2, code := 0x0204, scope := 4, id := l }

/-! ### Timing lock -/

/-- R107: LOCK sets; TLOCK_CHG. -/
def execTimingLockSet (l : Lane) (s : State) : Host.Outcome State Fault Refusal :=
  if s.isSet .EQ_LOCK l || s.get .ACQ_STATE l == acqIdle then done s
  else
    let s := (s.put .EQ_LOCK l 1).flag .EQ_TLOCK_CHG l
    done ((s.updateReady l).blindDone l)

/-- R107: LOCK clears; a lane in DATA returns to acquisition. -/
def execTimingLockLoss (l : Lane) (s : State) : Host.Outcome State Fault Refusal :=
  if !s.isSet .EQ_LOCK l then done s
  else
    let s := ((s.put .EQ_LOCK l 0).flag .EQ_TLOCK_CHG l).put .EQ_LS_MEMBER l 0
    done ((s.updateReady l).leaveData l 2)

/-- R141, R264: the first data symbol has been received: RX_DATA, the decoder starts, the index of a symbol counts from here (R176, R187). -/
def State.rxData (s : State) (l : Lane) : State :=
  let t := s.ticks l.half
  (((s.put .ACQ_RX_DATA l 1).startDecoder l).modLane l fun x => { x with rxTick := t, feqFrom := 0, snrFrom := 0 }).bothInData l

/-- R267, R158, R264: in LM100 and LM200 the codeword alignment is gained: CW_LOCK follows it; a lane of TRAIN whose partner has begun with data
sets RX_DATA. -/
def execCodewordAlignmentGained (l : Lane) (s : State) : Host.Outcome State Fault Refusal :=
  if s.lmode l ≤ 1 ∧ s.get .ACQ_STATE l ≠ acqIdle then
    let s := (s.setCwLock l true).blindDone l
    done (if s.get .ACQ_STATE l = acqTrain ∧ (s.lane l).rxBegun ∧ ¬ s.isSet .ACQ_RX_DATA l then s.rxData l else s)
  else done s

/-! ### Effort -/

/-- R111: the level of a lane: EFFORT_MAX less the throttle reduction, floored at E0. -/
def State.effortLevel (s : State) (l : Lane) : Nat := s.app .EQ_EFFORT_MAX l - (s.lane l).throttle

/-- R112: taps leaving the window are kept in the hold store and set to 0; taps that re-enter are restored; likewise the
Volterra terms at E3. -/
def State.resizeBank (s : State) (l : Lane) (old new : Nat) : State :=
  let b := s.bank l
  let hd := (s.lane l).held
  let main := s.app .EQ_MAIN l
  let leave := fun k => inWindow old main k && !inWindow new main k
  let enter := fun k => !inWindow old main k && inWindow new main k
  let hffe := (List.range 48).map fun k => if leave k then b.ffe.getD k 0 else hd.ffe.getD k 0
  let ffe := (List.range 48).map fun k =>
    if leave k then 0 else if enter k then hd.ffe.getD k 0 else b.ffe.getD k 0
  let hvolt := if old = 3 ∧ new ≠ 3 then b.volt else hd.volt
  let volt := if old = 3 ∧ new ≠ 3 then List.replicate 12 0
    else if old ≠ 3 ∧ new = 3 then (List.range 12).map fun j => hd.volt.getD j 0 else b.volt
  let s := s.modLane l fun x => { x with held := ⟨hffe, hvolt, hd.d1⟩ }
  s.loadBank l ⟨ffe, volt, b.d1⟩

/-- R112, R149, R119, R269: the lane's effort level takes effect at a boundary: a pending Kneader update is discarded, a slice
parallel run is abandoned, the decoder changes; in TRAIN RX_READY is evaluated again, over blocks at the new level. -/
def State.applyEffort (s : State) (l : Lane) : State :=
  let old := s.get .EQ_EFFORT l
  let new := s.effortLevel l
  let s := (s.modLane l fun x => { x with effortDue := false }).putBool .EQ_THROTTLED l (new < s.app .EQ_EFFORT_MAX l)
  if old = new then s
  else
    let s := s.abandonSlice l
    let s := if s.lmode l = 3 then s else s.resizeBank l old new
    let s := ((s.dropUpdate l).openBlock l).modLane l fun x => { x with effBlocks := 0 }
    let s := if s.get .ACQ_STATE l = acqTrain then (s.modLane l fun x => { x with mse := [] }).updateReady l else s
    let s := ((s.put .EQ_EFFORT l new).flag .EQ_EFFORT_CHG l).perfLane l 0x0D
    let s := if s.isSet .ACQ_RX_DATA l then s.handDecoder l (decoderFor (s.lmode l) old) (decoderFor (s.lmode l) new) else s
    let s := if s.inData l then s.setDecoder l (decoderFor (s.lmode l) new) else s
    if s.lmode l = 3 then s else s.deliverEye l

/-! ### Slices -/

/-- R16: the slice that serves no lane of the group. -/
def GroupS.freeSlice (x : GroupS) : Fin 9 := ((List.finRange 9).find? fun n => !x.xbar.contains n).getD 8

/-- R16: the crossbar moves a lane to the slice that served none. -/
def GroupS.moveLane (x : GroupS) (i : Fin 8) : GroupS := { x with xbar := x.xbar.set i x.freeSlice }

/-- R16: the crossbar exchanges the slices of two lanes. -/
def GroupS.swapLanes (x : GroupS) (i j : Fin 8) : GroupS := { x with xbar := (x.xbar.set i (x.xbar.get j)).set j (x.xbar.get i) }

def Lane.index (l : Lane) : Fin 8 := ⟨l.val % 8, by omega⟩

/-- R214: a lane of no port, in the group of lane `l`, whose slice works: that slice stays available as a spare. -/
def State.idleLane (s : State) (l : Lane) : Option Lane :=
  l.group.lanes.find? fun m => m != l && (s.portOf m).isNone && !(s.lane m).fences.contains .slice

/-! ### Capture -/

/-- R120: the active bank is captured into the APPLIED fields; EQ_CAPTURE commands that wait for it complete. -/
def State.captureBank (s : State) (l : Lane) : State :=
  let s := s.each (List.range 7) fun s k => s.put .EQ_TXF_APPLIED (l * 7 + k) (s.app .EQ_TXF_SHADOW (l * 7 + k))
  let s := s.each (List.range 48) fun s k => s.put .EQ_FFE_APPLIED (l * 48 + k) (s.app .EQ_FFE_SHADOW (l * 48 + k))
  let s := s.each (List.range 12) fun s k => s.put .EQ_VOLT_APPLIED (l * 12 + k) (s.app .EQ_VOLT_SHADOW (l * 12 + k))
  let s := s.each (List.range 16) fun s k => s.put .DMT_SF_APPLIED (l * 16 + k) (s.app .DMT_SF_SHADOW (l * 16 + k))
  let s := s.put .EQ_D1_APPLIED l (s.app .EQ_D1_SHADOW l)
  let s := s.modLane l fun x => { x with capture := false }
  s.each allHalves fun s h =>
    let w := (s.half h).capWait.map fun p => (p.1, p.2.filter (· != l))
    let s := s.modHalf h fun x => { x with capWait := w.filter fun p => !p.2.isEmpty }
    s.each (w.filter fun p => p.2.isEmpty) fun s p => s.complete p.1 (.ok 0 0)

/-- R120: a capture is asked for: at the next boundary in DATA, at once outside. -/
def State.askCapture (s : State) (l : Lane) : State :=
  if s.inData l then s.modLane l fun x => { x with capture := true } else s.captureBank l

/-- R130: a write to LN_EQ_LATCH. -/
def State.latchWrite (s : State) (l : Lane) (v : Nat) : State := if v.testBit 0 then s.askCapture l else s

def execCaptureWrite (l : Lane) (v : W32) (s : State) : Host.Outcome State Fault Refusal :=
  done (s.hostWrite l.half fun s => s.latchWrite l v.toNat)

/-- R119 and R120: the boundary at which a capture takes place: a swap that waits for it goes first. -/
def execEqBankCapture (l : Lane) (s : State) : Host.Outcome State Fault Refusal :=
  if (s.lane l).capture then done ((s.swapBanks l).captureBank l) else done s

end Sys2Proof.Machine
end

