-- ==== Sys2Proof/Machine/Codes.lean ====
section
/-! DEFINITION. The codes of a line lane (R132 to R151, R155): RS(544,514) with its decoder, serialisation, PAM4 labels, TC18 and its
decoders. -/

namespace Sys2Proof.Machine

/-! ### The field of the outer code -/

/-- R133: multiplication by α in GF(2^10) with x^10 + x^3 + 1. -/
def gfDouble (a : Nat) : Nat := if 512 ≤ a then (2 * a) ^^^ 0x409 else 2 * a

/-- Multiplication in GF(2^10), over the bits of `b` from bit `n` − 1 down. -/
def gfMulBits (a b : Nat) : Nat → Nat
  | 0 => 0
  | n + 1 => gfDouble (gfMulBits a (b / 2) n) ^^^ (if b % 2 = 1 then a else 0)

def gfMul (a b : Nat) : Nat := gfMulBits a b 10

/-- R133: α to a power. -/
def gfPow : Nat → Nat
  | 0 => 1
  | n + 1 => gfDouble (gfPow n)

/-- The inverse of an element: its power 1,022. -/
def gfInv (a : Nat) : Nat :=
  ((List.range 9).foldl (fun (p : Nat × Nat) _ => (gfMul p.1 p.1, gfMul p.2 (gfMul p.1 p.1))) (a, 1)).2

/-- The value of a polynomial, lowest power first. -/
def polyEval (p : List Nat) (x : Nat) : Nat := p.foldr (fun c acc => c ^^^ gfMul acc x) 0

/-- The sum of two polynomials. -/
def polyAdd (p q : List Nat) : List Nat :=
  (List.range (max p.length q.length)).map fun i => p.getD i 0 ^^^ q.getD i 0

def polyScale (c : Nat) (p : List Nat) : List Nat := p.map (gfMul c)

/-- The coefficient of x^k in the product of two polynomials. -/
def polyCoeff (p q : List Nat) (k : Nat) : Nat :=
  (List.range (k + 1)).foldl (fun acc i => acc ^^^ gfMul (p.getD i 0) (q.getD (k - i) 0)) 0

/-! ### The outer code -/

/-- R133: the generator polynomial without its leading 1, highest power first, from its roots α^0 to α^(n − 1). -/
def rsGenerator : Nat → List Nat
  | 0 => []
  | n + 1 =>
    let g := rsGenerator n
    let r := gfPow n
    (g ++ [0]).zipWith (fun a b => a ^^^ b) ((1 :: g).map fun c => gfMul c r)

/-- R133: one message symbol enters the encoder's register (highest power first). -/
def rsStep (gen reg : List Nat) (m : Nat) : List Nat :=
  let f := m ^^^ reg.headD 0
  (reg.drop 1 ++ [0]).zipWith (fun a g => a ^^^ gfMul g f) gen

/-- R133: the 30 parity symbols of 514 message symbols; the first symbol is that of the highest power (PRESUMED: the order of IEEE
802.3). -/
def rsParity (msg : List Nat) : List Nat := msg.foldl (rsStep (rsGenerator 30)) (List.replicate 30 0)

/-- R133: the codeword of a message. -/
def rsEncode (msg : List Nat) : List Nat := msg ++ rsParity msg

/-- The syndromes of a word: its value at α^0 to α^29. -/
def rsSyndromes (word : List Nat) : List Nat :=
  (List.range 30).map fun j => let x := gfPow j; word.foldl (fun acc c => c ^^^ gfMul acc x) 0

/-- The locator of the symbol at an index. -/
def rsLocator (i : Nat) : Nat := gfPow (543 - i)

/-- One round of the iteration that finds the errata locator: round number, current and previous polynomials, number of errata. -/
def rsRound (syn : List Nat) (f : Nat) (st : List Nat × List Nat × Nat) (r : Nat) : List Nat × List Nat × Nat :=
  let d := polyCoeff st.1 syn (r - 1)
  let xb := 0 :: st.2.1
  let next := polyAdd st.1 (polyScale d xb)
  if d ≠ 0 ∧ 2 * st.2.2 ≤ r + f - 1 then (next, polyScale (gfInv d) st.1, r + f - st.2.2) else (next, xb, st.2.2)

/-- The errata locator for erased indices, and the number of errata it stands for. -/
def rsErrata (syn erased : List Nat) : List Nat × Nat :=
  let f := erased.length
  let g := erased.foldl (fun p i => polyAdd p (0 :: polyScale (rsLocator i) p)) [1]
  let r := ((List.range (30 - f)).map fun k => f + 1 + k).foldl (rsRound syn f) (g, g, f)
  (r.1, r.2.2)

/-- The indices that an errata locator names. -/
def rsPositions (loc : List Nat) : List Nat := (List.range 544).filter fun i => polyEval loc (gfInv (rsLocator i)) == 0

/-- The value to be added to the symbol at an index. -/
def rsValue (syn loc : List Nat) (i : Nat) : Nat :=
  let x := rsLocator i
  let y := gfInv x
  let om := (List.range 30).map (polyCoeff syn loc)
  let dl := (loc.drop 1).zipIdx.map fun p => if p.2 % 2 = 0 then p.1 else 0
  gfMul x (gfMul (polyEval om y) (gfInv (polyEval dl y)))

/-- R133 and R155: errors-and-erasures decoding: the codeword with 2e + f at most `limit`, where e counts the errors outside the f erased
indices; none where the decoder finds no such codeword. -/
def rsDecode (limit : Nat) (word erased : List Nat) : Option (List Nat) :=
  let syn := rsSyndromes word
  if syn.all (· == 0) then some word
  else
    let r := rsErrata syn erased
    let pos := rsPositions r.1
    let fixed := word.zipIdx.map fun p => if pos.contains p.2 then p.1 ^^^ rsValue syn r.1 p.2 else p.1
    if pos.length = r.2 ∧ 2 * (r.2 - erased.length) + erased.length ≤ limit ∧ (rsSyndromes fixed).all (· == 0) then some fixed else none

/-- R159: the symbols and the bits in which two words differ. -/
def symDiff (a b : List Nat) : Nat := ((a.zip b).filter fun p => p.1 != p.2).length
def bitDiff (a b : List Nat) : Nat := ((a.zip b).map fun p => ((List.range 10).filter fun r => (p.1 ^^^ p.2).testBit r).length).sum

/-- R156: the parity of a marked codeword with POISON_PARITY = 1. -/
def poisonParity (parity : List Nat) : List Nat := parity.map fun p => 1023 - p

/-- R156: what an uncorrectable codeword is sent on as. -/
def markedWord (poison : Bool) (word : List Nat) : List Nat :=
  let msg := Config.markMessage (word.take 514)
  let par := rsParity msg
  msg ++ if poison then poisonParity par else par

/-! ### Serialisation -/

/-- R135: the bit stream of one codeword: bit r of symbol i is bit 10 i + r. -/
def wordBits (syms : List Nat) : List Bool := syms.flatMap fun x => (List.range 10).map x.testBit

/-- R135: the symbols of two codewords in turn. -/
def interleave (s0 s1 : List Nat) : List Nat := (s0.zip s1).flatMap fun p => [p.1, p.2]

/-- R135: the bit stream of a codeword pair. -/
def pairBits (s0 s1 : List Nat) : List Bool := wordBits (interleave s0 s1)

/-- The value of a symbol from its bits, the lowest first. -/
def symOf (bs : List Bool) : Nat := bs.foldr (fun b acc => 2 * acc + b.toNat) 0

/-- R135 reversed: the elements of a stream in runs of ten. -/
def runsOfTen {α : Type} (n : Nat) (xs : List α) : List (List α) := (List.range n).map fun i => (xs.drop (10 * i)).take 10

/-- R135 reversed: the symbols at even places, and those at odd places. -/
def everySecond {α : Type} (odd : Bool) (xs : List α) : List α := (xs.zipIdx.filter fun p => (p.2 % 2 == 1) == odd).map (·.1)

/-! ### PAM4 -/

/-- R135: the standard's Gray mapping, two bits to a level, the first bit being the MSB (PRESUMED: IEEE 802.3). -/
def grayLevels : List Bool → List Nat
  | m :: n :: bs => levelOf m n :: grayLevels bs
  | _ => []

def grayBits (qs : List Nat) : List Bool := qs.flatMap fun q => [msbOf q, lsbOf q]

/-- R135: the precoder of the standard: each level less the one sent before it, modulo 4; and its reverse (PRESUMED: IEEE 802.3). -/
def precode : Nat → List Nat → List Nat
  | _, [] => []
  | p, q :: qs => let x := (q + 4 - p % 4) % 4; x :: precode x qs

def unprecode : Nat → List Nat → List Nat
  | _, [] => []
  | p, q :: qs => (q + p) % 4 :: unprecode q qs

/-! ### TC18 -/

/-- R139: the encoder's next state and parity. -/
def tcStep (st : Nat) (u : Bool) : Nat × Bool :=
  let s1 := st.testBit 2
  let s2 := st.testBit 1
  let s3 := st.testBit 0
  let a := (u.xor s2).xor s3
  (4 * a.toNat + 2 * s1.toNat + s2.toNat, (a.xor s1).xor s3)

/-- R139: the state and the latest parity after inputs. -/
def tcRun (st : Nat) (us : List Bool) : Nat × Bool := us.foldl (fun r u => tcStep r.1 u) (st, false)

/-- R136 and R138: a frame of 17 payload bits as nine labels, MSB and LSB, and the state after it. -/
def tcFrame (st : Nat) (p : List Bool) : List (Bool × Bool) × Nat :=
  let r := tcRun st ((p.drop 9).take 8)
  ((p.take 9).zip ((p.drop 9).take 8 ++ [r.2]), r.1)

/-- R136 and R141: the frames of a bit stream, 17 bits each, with the state running on. -/
def tcFrames (st : Nat) : Nat → List Bool → List (List (Bool × Bool)) × Nat
  | 0, _ => ([], st)
  | n + 1, bs =>
    let r := tcFrame st (bs.take 17)
    let rest := tcFrames r.2 n (bs.drop 17)
    (r.1 :: rest.1, rest.2)

/-! ### The trellis -/

/-- A soft bit: its hard value and its Λ in (2A)² (R146). -/
abbrev Soft := Bool × Rat

/-- The cost of a level after the level before it. -/
abbrev Branch := Nat → Nat → Rat

/-- R144: the branch metric of a hypothesis in (2A)²: levels as 0 to 3, RHO in 1/64. -/
def branchMetric (y : Int) (q prev rho : Nat) : Rat :=
  ((64 * y - 64 * targetOf q - rho * targetOf prev) ^ 2 : Int) / 2 ^ 32

/-- R143: the node of the trellis: the code state, the level before (32 states; 0 in the trellis of 8) and, after the eighth input of a frame, its
parity. -/
def node (sigma q par : Nat) : Nat := sigma + 8 * q + 32 * par

/-- R138 and R139: the node that a level leads to at a place 0 to 8 of its frame; none where the parity forbids it. -/
def nextNode (isi : Bool) (pos n q : Nat) : Option Nat :=
  let keep := if isi then q else 0
  if pos = 8 then (if lsbOf q == decide (32 ≤ n) then some (node (n % 8) keep 0) else none)
  else
    let r := tcStep (n % 8) (lsbOf q)
    some (node r.1 keep (if pos = 7 then r.2.toNat else 0))

/-- The smaller of two metrics. -/
def minMetric (a b : Option Rat) : Option Rat :=
  match a, b with
  | none, y => y
  | x, none => x
  | some x, some y => some (min x y)

def minAll (xs : List (Option Rat)) : Option Rat := xs.foldl minMetric none

/-- The edges of a place: from, level, to. -/
def edges (isi : Bool) (pos : Nat) : List (Nat × Nat × Nat) :=
  (List.range 64).flatMap fun n => (List.range 4).filterMap fun q => (nextNode isi pos n q).map fun m => (n, q, m)

/-- The metrics of the paths into the nodes after one more symbol. -/
def forward (isi : Bool) (pos : Nat) (b : Branch) (ms : List (Option Rat)) : List (Option Rat) :=
  let es := edges isi pos
  (List.range 64).map fun t =>
    minAll ((es.filter fun e => e.2.2 == t).map fun e => (ms.getD e.1 none).map (· + b (e.1 / 8 % 4) e.2.1))

/-- The metrics of the best paths out of the nodes over the symbols that follow. -/
def backward (isi : Bool) : List (Nat × Branch) → List (Option Rat)
  | [] => List.replicate 64 (some 0)
  | (pos, b) :: rest =>
    let ms := backward isi rest
    let es := edges isi pos
    (List.range 64).map fun n =>
      minAll ((es.filter fun e => e.1 == n).map fun e => (ms.getD e.2.2 none).map (· + b (n / 8 % 4) e.2.1))

/-- R146: the best metric of each level of a symbol, over all paths of the window. -/
def levelMetrics (isi : Bool) (pos : Nat) (b : Branch) (ms rest : List (Option Rat)) : List (Option Rat) :=
  let es := edges isi pos
  (List.range 4).map fun q => minAll ((es.filter fun e => e.2.1 == q).map fun e =>
    match ms.getD e.1 none, rest.getD e.2.2 none with
    | some x, some y => some (x + b (e.1 / 8 % 4) q + y)
    | _, _ => none)

/-- The levels of least metric; which one is decided among several, no rule says. -/
def decideLevel (ms : List (Option Rat)) : Nat :=
  let best := minAll ms
  let qs := (List.range 4).filter fun q => best.isSome && ms.getD q none == best
  qs.getD (Config.tie qs.length % max 1 qs.length) 0

/-- R146: the ceiling of Λ. -/
def lambdaCeiling : Rat := 65535 / 256

/-- R146: Λ of a bit that splits the levels into those that agree with the decision and those that differ. -/
def lambdaOf (ms : List (Option Rat)) (bit : Nat → Bool) (dec : Nat) : Rat :=
  match minAll ((List.range 4).filter (fun q => bit q != bit dec) |>.map fun q => ms.getD q none), ms.getD dec none with
  | some x, some y => min lambdaCeiling (x - y)
  | _, _ => lambdaCeiling

/-- R143, R146: the decisions on the first `n` symbols, each after a traceback of 96: the level with Λ of its MSB and its LSB; and the metrics at
their end. -/
def trellis (isi : Bool) : Nat → List (Option Rat) → List (Nat × Branch) → List (Nat × Rat × Rat) × List (Option Rat)
  | 0, ms, _ => ([], ms)
  | _, ms, [] => ([], ms)
  | n + 1, ms, (pos, b) :: rest =>
    let lm := levelMetrics isi pos b ms (backward isi (rest.take 96))
    let q := decideLevel lm
    let r := trellis isi n (forward isi pos b ms) rest
    ((q, lambdaOf lm msbOf q, lambdaOf lm lsbOf q) :: r.1, r.2)

/-- Metrics relative to the best of them. -/
def relative (ms : List (Option Rat)) : List (Option Rat) :=
  match minAll ms with
  | some b => ms.map fun m => m.map (· - b)
  | none => ms

/-! ### The slicer of E0 -/

/-- R143 and R146: the input of the slicer in 1/64. -/
def e0Input (y : Int) (prev rho : Nat) : Int := 64 * y - rho * targetOf prev

/-- R146: at E0, Λ of the MSB or the LSB: the distance to the nearest threshold that changes the bit, over 512. -/
def e0Lambda (z : Int) (msb : Bool) : Rat :=
  ((if msb then z.natAbs else min (z + 65536).natAbs (z - 65536).natAbs : Nat) : Rat) / 32768

/-- R143: the slicer's decisions on symbols after the level before: the level, and its input. -/
def hardLevels (rho : Nat) : Nat → List Int → List (Nat × Int)
  | _, [] => []
  | prev, y :: ys =>
    let z := e0Input y prev rho
    let q := slice 64 z
    (q, z) :: hardLevels rho q ys

/-! ### Frames -/

/-- R136: the decisions of a frame as its payload bits p0 to p16 with their Λ. -/
def framePayload (f : List (Nat × Rat × Rat)) : List Soft :=
  (f.map fun d => (msbOf d.1, d.2.1)) ++ (f.take 8).map fun d => (lsbOf d.1, d.2.2)

/-- Decisions in runs of nine. -/
def runsOfNine {α : Type} (n : Nat) (xs : List α) : List (List α) := (List.range n).map fun i => (xs.drop (9 * i)).take 9

/-- R148: the smallest Λ of a frame. -/
def minLambda (f : List Soft) : Rat := (f.map (·.2)).foldl min lambdaCeiling

/-- R150: the decided LSBs of frames run through the encoder of R139: its state afterwards, and the frames whose parity differs. -/
def parityRun : Nat → List (List Bool) → Nat × Nat
  | st, [] => (st, 0)
  | st, f :: fs =>
    let r := tcRun st (f.take 8)
    let rest := parityRun r.1 fs
    (rest.1, rest.2 + if r.2 == f.getD 8 false then 0 else 1)

/-- What a decoder gives: the payload frames, the level of each symbol, the decoder afterwards, the parity failures and the slicer's
disagreements. -/
structure Decided where
  frames : List (List Soft)
  levels : List Nat
  dec : DecS
  parityFail : Nat
  preDecErr : Nat

/-- R143 to R150: a pair of `n` frames of LM400T from its y, which run on through the traceback: at decoder 0 (E0), 1 (8 states), 2 (32). -/
def decodeTc (dec n rho : Nat) (d : DecS) (ys : List Int) : Decided :=
  let hard := hardLevels rho d.hard ys
  let mine := hard.take (9 * n)
  let prevs := d.hard :: hard.map (·.1)
  let branches : List (Nat × Branch) := (ys.zip prevs).zipIdx.map fun p =>
    (p.2 % 9, if dec = 2 then fun prev q => branchMetric p.1.1 q prev rho else fun _ q => branchMetric p.1.1 q p.1.2 rho)
  let r := if dec = 0 then (mine.map fun h => (h.1, e0Lambda h.2 true, e0Lambda h.2 false), []) else trellis (dec == 2) (9 * n) d.paths branches
  let frames := runsOfNine n r.1
  let par := parityRun d.sigma (frames.map fun f => f.map fun x => lsbOf x.1)
  ⟨frames.map framePayload, r.1.map (·.1), ⟨par.1, relative r.2, (r.1.getLast?.map (·.1)).getD d.q, (mine.getLast?.map (·.1)).getD d.hard⟩,
    if dec = 0 then par.2 else 0, ((mine.zip r.1).filter fun p => p.1.1 != p.2.1).length⟩

/-- R185 and R186: the decisions of LM400D on frames of nine soft labels, MSB and LSB: the 8-state trellis over the protected bits, or at E0 the
demapper's. -/
def decodeDmt (dec n : Nat) (d : DecS) (fs : List (List (Soft × Soft))) : Decided :=
  let cost := fun (x : Soft) (b : Bool) => if x.1 == b then 0 else x.2
  let syms := fs.flatMap id
  let branches : List (Nat × Branch) := syms.zipIdx.map fun p => (p.2 % 9, fun _ q => cost p.1.1 (msbOf q) + cost p.1.2 (lsbOf q))
  let r := if dec = 0 then ((syms.take (9 * n)).map fun x => (levelOf x.1.1 x.2.1, x.1.2, x.2.2), []) else trellis false (9 * n) d.paths branches
  let frames := runsOfNine n r.1
  let par := parityRun d.sigma (frames.map fun f => f.map fun x => lsbOf x.1)
  ⟨frames.map framePayload, r.1.map (·.1), ⟨par.1, relative r.2, 0, 0⟩, if dec = 0 then par.2 else 0, 0⟩

/-- R135 and R147: the two codewords of a pair from its soft bits: each symbol with the smallest Λ of its ten bits. -/
def pairWords (frames : List (List Soft)) : List (List (Nat × Rat)) :=
  let syms := (runsOfTen 1088 (frames.flatMap id)).map fun bs => (symOf (bs.map (·.1)), minLambda bs)
  [everySecond false syms, everySecond true syms]

end Sys2Proof.Machine
end

