-- ==== Sys2Proof/Machine/Tones.lean ====
section
/-! DEFINITION. The DMT symbol of LM400D (R173 to R187, R265): tones, pilots and constellations, coded bits on tones, the transform at both
ends, the per-tone equaliser and the demapper. -/

namespace Sys2Proof.Machine

/-- A complex number. -/
abbrev Cx := Rat × Rat

def cmul (a b : Cx) : Cx := (a.1 * b.1 - a.2 * b.2, a.1 * b.2 + a.2 * b.1)
def cconj (a : Cx) : Cx := (a.1, -a.2)
def cadd (a b : Cx) : Cx := (a.1 + b.1, a.2 + b.2)
def csub (a b : Cx) : Cx := (a.1 - b.1, a.2 - b.2)
def cscale (r : Rat) (a : Cx) : Cx := (r * a.1, r * a.2)
/-- The square of the modulus. -/
def cnorm (a : Cx) : Rat := a.1 * a.1 + a.2 * a.2

/-! ### Tones -/

/-- R173: the pilots P0 to P7. Tone 40 is the OHC; tone 0 is unused. -/
def pilotTones : List Nat := [64, 192, 320, 448, 576, 704, 832, 960]
def isDataTone (t : Nat) : Bool := 0 < t && t < 1024 && t != 40 && !pilotTones.contains t
/-- R173: the data tones in ascending order. -/
def dataTones : List Nat := (List.range 1024).filter isDataTone

/-- R175: one step of the PRBS9 generator: r1 is bit 0; the output bit and the next register. -/
def prbs9 (r : Nat) : Bool × Nat :=
  let b := (r.testBit 8).xor (r.testBit 4)
  (b, (2 * r + b.toNat) % 512)

/-- R175: the next bits of the generator, and its register after them. -/
def prbsBits : Nat → Nat → List Bool × Nat
  | 0, r => ([], r)
  | n + 1, r =>
    let x := prbs9 r
    let y := prbsBits n x.2
    (x.1 :: y.1, y.2)

/-- R175: w0 to w7 of a DMT symbol: the generator repeats after 511 bits. -/
def pilotBits (idx : Nat) : List Bool := (prbsBits 8 (prbsBits (8 * idx % 511) 511).2).1

/-- +1 for a 0 and −1 for a 1. -/
def sign (b : Bool) : Rat := if b then -1 else 1

/-- 1 / √2 and 1 / √2,046 (to 2^-40). -/
def invRoot2 : Rat := sqrtQ (1 / 2)
def invRoot2046 : Rat := sqrtQ (1 / 2046)

/-! ### Constellations -/

/-- R177: label bits on the I and the Q axis. -/
def bitsI (b : Nat) : Nat := (b + 1) / 2
def bitsQ (b : Nat) : Nat := b / 2

/-- R177: the level index whose Gray word is `g`. -/
def unGray (m g : Nat) : Nat := ((List.range (2 ^ m)).find? fun v => v ^^^ (v / 2) == g).getD 0

/-- R177: the coordinate of an axis word of `m` bits. -/
def axisPoint (m g : Nat) : Int := if m = 0 then 0 else 2 * unGray m g - (2 ^ m - 1)

/-- R178: the fold of 5 and 7 bits. -/
def fold (b : Nat) (p : Int × Int) : Int × Int :=
  let h : Int := 2 ^ (bitsQ b - 1)
  if b = 5 ∨ b = 7 then
    if 3 * h < p.1 then (p.2, p.1 - h) else if p.1 < -(3 * h) then (p.2, p.1 + h) else p
  else p

/-- R177 and R178: the point of `b` bits with axis words `gi` and `gq`. -/
def constellation (b gi gq : Nat) : Int × Int := fold b (axisPoint (bitsI b) gi, axisPoint (bitsQ b) gq)

/-- R179: the mean energy of a constellation. -/
def meanEnergy (b : Nat) : Nat := [0, 1, 2, 6, 10, 20, 42, 82, 170].getD b 0

/-- R179: c_b (to 2^-40). -/
def cb (b : Nat) : Rat := if b = 0 then 0 else sqrtQ (1 / meanEnergy b)

/-- A point of a constellation: its axis words and its coordinates. -/
structure Point where
  gi : Nat
  gq : Nat
  at' : Int × Int
  deriving DecidableEq, Repr

/-- R177 and R178: the points of `b` bits. -/
def points (b : Nat) : List Point :=
  (List.range (2 ^ bitsI b)).flatMap fun gi => (List.range (2 ^ bitsQ b)).map fun gq => ⟨gi, gq, constellation b gi gq⟩

/-- The label bit of a point on an axis (false is I) in a class. -/
def Point.bit (p : Point) (q : Bool) (k : Nat) : Bool := (if q then p.gq else p.gi).testBit k

/-! ### Coded bits to tones -/

/-- R180: P and U of a symbol's frames, each frame as its nine (MSB, LSB) labels. -/
def interleaveP (frames : List (List (Bool × Bool))) : List Bool :=
  (List.range 9).flatMap fun k => frames.map fun f => (f.getD k (false, false)).2
def interleaveU (frames : List (List (Bool × Bool))) : List Bool :=
  (List.range 9).flatMap fun k => frames.map fun f => (f.getD k (false, false)).1

/-- R181: the label positions of a loading in order: the tone, its axis (false is I), the class. -/
def labelPositions (bits : Nat → Nat) : List (Nat × Bool × Nat) :=
  (List.range 4).flatMap fun k => dataTones.flatMap fun t =>
    (if k < bitsI (bits t) then [(t, false, k)] else []) ++ (if k < bitsQ (bits t) then [(t, true, k)] else [])

/-- R181: the axis word of a tone that a filled list gives. -/
def axisWord (filled : List ((Nat × Bool × Nat) × Bool)) (t : Nat) (q : Bool) : Nat :=
  ((filled.filter fun x => x.1.1 == t && x.1.2.1 == q && x.2).map fun x => 2 ^ x.1.2.2).sum

/-- R181: the point of each loaded tone, from the label bits in list order. -/
def placeBits (bits : Nat → Nat) (labels : List Bool) (t : Nat) : Int × Int :=
  let filled := (labelPositions bits).zip labels
  constellation (bits t) (axisWord filled t false) (axisWord filled t true)

/-- R180 and R181 reversed: what stands at the 4,320 positions, as 240 frames of nine (MSB, LSB). -/
def framesOf {α : Type} [Inhabited α] (labels : List α) : List (List (α × α)) :=
  let p := labels.take 2160
  let u := labels.drop 2160
  (List.range 240).map fun f => (List.range 9).map fun k => (u.getD (240 * k + f) default, p.getD (240 * k + f) default)

/-! ### The transmitter -/

/-- R175: a pilot or a monitor tone: gain, bit, inverted or not. -/
def flagTone (gain : Nat) (w inverted : Bool) : Cx :=
  let v := (gain : Rat) / 512 * sign (w.xor inverted) * invRoot2
  (v, v)

/-- R173, R175 and R179: X of a tone in DATA: loading by tone (bits, gain), points by tone, pilot and OHC gains, w0 to w7, whether the pilots
are inverted, the OHC bit. -/
def dataTone (load : Nat → Nat × Nat) (pts : Nat → Int × Int) (pilotGain ohcGain : Nat) (w : List Bool) (inverted ohc : Bool) (t : Nat) : Cx :=
  if t = 40 then ((ohcGain : Rat) / 512 * sign ohc, 0)
  else match pilotTones.findIdx? (· == t) with
    | some p => flagTone pilotGain (w.getD p false) inverted
    | none =>
      if !isDataTone t then (0, 0)
      else
        let x := load t
        if x.1 = 0 then flagTone x.2 (w.getD 0 false) false
        else cscale ((x.2 : Rat) / 512 * cb x.1) ((pts t).1, (pts t).2)

/-- R249: one step of the PRBS15 generator: r1 is bit 0; the output bit and the next register. -/
def prbs15 (r : Nat) : Bool × Nat :=
  let b := (r.testBit 14).xor (r.testBit 13)
  (b, (2 * r + b.toNat) % 32768)

/-- The next bits of the generator, and its register after them. -/
def idleBits : Nat → Nat → List Bool × Nat
  | 0, r => ([], r)
  | n + 1, r =>
    let x := prbs15 r
    let y := idleBits n x.2
    (x.1 :: y.1, y.2)

/-- R265: X of a tone of a training symbol. -/
def trainTone (ohcGain : Nat) (ohc : Bool) (t : Nat) : Cx :=
  if t = 40 then ((ohcGain : Rat) / 512 * sign ohc, 0)
  else if pilotTones.contains t then (invRoot2, invRoot2)
  else match dataTones.findIdx? (· == t) with
    | some k =>
      let r := (idleBits 2 (idleBits (2 * k) 0x7FFF).2).1
      (sign (r.getD 0 false) * invRoot2, sign (r.getD 1 false) * invRoot2)
    | none => (0, 0)

/-- Half the angle of a point of the upper half of the unit circle, to 2^-40. -/
def halfAngle (c : Cx) : Cx :=
  let x := sqrtQ ((1 + c.1) / 2)
  (x, if x = 0 then 1 else c.2 / (2 * x))

/-- e^(j2π/2^i) for i = 1 to n + 1, the last first: half a turn, halved n times. -/
def halfTurns : Nat → List Cx
  | 0 => [(-1, 0)]
  | n + 1 =>
    let ts := halfTurns n
    halfAngle (ts.headD (1, 0)) :: ts

/-- e^(j2πk/2,048), the product over the bits of `k`; each factor to 2^-40. -/
def turn (k : Nat) : Cx :=
  (halfTurns 10).zipIdx.foldl (fun acc p => if k.testBit p.2 then cmul acc p.1 else acc) (1, 0)

/-- R174: sample `n` of a symbol. -/
def dmtSample (x : Nat → Cx) (n : Nat) : Rat :=
  invRoot2046 * ((List.range 1023).map fun k => 2 * (cmul (x (k + 1)) (turn ((k + 1) * n))).1).sum

/-- R174: the 2,160 samples of a symbol: the cyclic prefix first. -/
def dmtSamples (x : Nat → Cx) : List Rat :=
  let body := (List.range 2048).map (dmtSample x)
  body.drop 1936 ++ body

/-- R174: the DAC code of a sample before the clamp. -/
def State.dmtRaw (s : State) (l : Lane) (x : Rat) : Int := (128 + (s.app .DMT_RMS l : Rat) / 4 * x).floor

/-- R174: the DAC codes of a symbol, and how many were clamped. -/
def State.dmtCodes (s : State) (l : Lane) (x : Nat → Cx) : List Nat × Nat :=
  let raw := (dmtSamples x).map (s.dmtRaw l)
  (raw.map fun v => (clampInt 0 255 v).toNat, (raw.filter fun v => decide (v < 0) || decide (255 < v)).length)

/-! ### The receiver -/

/-- R64: the corrected samples of codes, from a sub-ADC phase on. -/
def State.samples (s : State) (l : Lane) (phase : Nat) (codes : List Nat) : List Int :=
  codes.zipIdx.map fun p => s.corrected l ((phase + p.2) % 64) p.1

/-- R182: the shortening filter in 2^-14, `r` holding r[n − 12] at place n; the taps beyond the effort level's are not used (R186). -/
def State.shorten (s : State) (l : Lane) (r : List Int) (n : Nat) : Int :=
  let k := if 2 ≤ s.get .EQ_EFFORT l then 16 else 8
  ((List.range k).map fun j => s.appS .DMT_SF_SHADOW (l.val * 16 + j) * r.getD (n + 15 - j) 0).sum

/-- R182 and R183: Y of each tone of a received symbol, over the transform window that acquisition has set. -/
def State.tones (s : State) (l : Lane) (y : DmtSymbol) : List Cx :=
  let r := s.samples l y.phase y.codes
  let z := (List.range 2048).map fun n => (s.shorten l r ((s.lane l).window + n) : Rat) / 2 ^ 14
  (List.range 1024).map fun t =>
    cscale Config.toneScale (z.zipIdx.foldl (fun acc p => cadd acc (cscale p.1 (cconj (turn (t * p.2))))) (0, 0))

/-- R183: W of a tone, from its table word. -/
def feqOf (w : Nat) : Cx := ((toSigned 16 w : Rat) / 4096, (toSigned 16 (w / 2 ^ 16) : Rat) / 4096)

/-- R183: the value of the pilots at unit gain. -/
def pilotRef (w : List Bool) (t : Nat) : Cx := flagTone 512 (w.getD ((pilotTones.findIdx? (· == t)).getD 0) false) false

/-- R183 and R196: the correlation of the received pilots with their expected values. -/
def pilotCorr (ref : Nat → Cx) (z : List Cx) : Cx :=
  pilotTones.foldl (fun acc t => cadd acc (cmul (z.getD t (0, 0)) (cconj (ref t)))) (0, 0)

/-- R183: the tones rotated by the common phase that the pilots estimate; inverted pilots, a turn of half a circle, are read as the flag of
R195. -/
def derotate (ref : Nat → Cx) (z : List Cx) : List Cx :=
  let u := pilotCorr ref z
  let u := if u.1 < 0 then (-u.1, -u.2) else u
  let m := sqrtQ (cnorm u)
  if m = 0 then z else z.map fun x => cscale (1 / m) (cmul x (cconj u))

/-- The points of least distance to a value in units of c_b; the one decided among several, no rule says. -/
def nearestPoint (ps : List Point) (u : Cx) : Option Point :=
  let d := fun (p : Point) => cnorm (csub u (p.at'.1, p.at'.2))
  match ps with
  | [] => none
  | p :: rest =>
    let best := rest.foldl (fun m x => min m (d x)) (d p)
    let xs := ps.filter fun x => d x == best
    some (xs.getD (Config.tie xs.length % max 1 xs.length) p)

/-- R185 and R186: the points over which a demapper looks for d_f: all of them at E3; at E2 and E1 those on the decided point's row or column, where
one of them differs. -/
def demapCands (effort : Nat) (ps : List Point) (dec : Point) (q : Bool) (k : Nat) : List Point :=
  let diff := ps.filter fun p => p.bit q k != dec.bit q k
  let near := diff.filter fun p => p.at'.1 == dec.at'.1 || p.at'.2 == dec.at'.2
  if effort = 3 ∨ near.isEmpty then diff else near

/-- R185 and R186: a label bit of a tone of `b` bits: its hard value and Λ; d_min is 2 × c_b. -/
def demapBit (effort b : Nat) (z : Cx) (q : Bool) (k : Nat) : Soft :=
  let ps := points b
  let u := cscale (1 / (if cb b = 0 then 1 else cb b)) z
  let d := fun (p : Point) => cnorm (csub u (p.at'.1, p.at'.2))
  match nearestPoint ps u with
  | none => (false, 0)
  | some dec =>
    match demapCands effort ps dec q k with
    | [] => (dec.bit q k, 0)
    | p :: rest =>
      (dec.bit q k, if effort = 0 then Config.hardLambda (d dec) else (rest.foldl (fun m x => min m (d x)) (d p) - d dec) / 4)

end Sys2Proof.Machine
end

