-- ==== Sys2Proof/Machine/Frames.lean ====
section
/-! DEFINITION. What a lane sends on its pins, and acquisition frames (R248 to R256): carriers, idle fill, the preamble, the header, the CRCs, and
sending and receiving a frame. -/

namespace Sys2Proof.Machine

/-- The bits of the low `w` bits of `v`, most significant first (R251). -/
def bitsOf (w v : Nat) : List Bool := (List.range w).map fun i => v.testBit (w - 1 - i)

/-- A CRC register of width `w` with polynomial `poly`, run over bits in transmission order, without reflection. -/
def crcBits (w poly : Nat) (init : Nat) (bs : List Bool) : Nat :=
  bs.foldl (fun c b =>
    let top := c.testBit (w - 1)
    let sh := (c * 2) % 2 ^ w
    if top != b then sh ^^^ poly else sh) init

/-- R251: HCRC. -/
def crc16 (bs : List Bool) : Nat := crcBits 16 0x1021 0xFFFF bs
/-- R251: CRC-32, the final value inverted. -/
def crc32 (bs : List Bool) : Nat := crcBits 32 0x04C11DB7 0xFFFFFFFF bs ^^^ 0xFFFFFFFF

/-- R250: bits 63:16 of the header. -/
def headerTop (fr : AcqFrame) : Nat :=
  fr.type.toNat * 2 ^ 40 + fr.ver.toNat * 2 ^ 36 + fr.arg.toNat * 2 ^ 32 + fr.seq.toNat * 2 ^ 24
    + fr.srcLane.toNat * 2 ^ 18 + fr.rsvd.toNat * 2 ^ 12 + fr.payload.length % 4096

/-- R250: the header with its HCRC. -/
def headerWord (fr : AcqFrame) : Nat := headerTop fr * 2 ^ 16 + crc16 (bitsOf 48 (headerTop fr))

/-- R251: the CRC-32 of a frame, over header and payload. -/
def frameCrc (fr : AcqFrame) : Nat :=
  crc32 (bitsOf 64 (headerWord fr) ++ fr.payload.flatMap fun b => bitsOf 8 b.toNat)

/-- R250: b0 to b255 of the preamble. -/
def preamble : List Bool :=
  let step := fun (p : List Bool × List Bool) (_ : Nat) =>
    let new := (p.1.getD 7 false).xor ((p.1.getD 5 false).xor ((p.1.getD 4 false).xor (p.1.getD 3 false)))
    (new :: p.1.take 7, p.2 ++ [new])
  ((List.range 255).foldl step (List.replicate 8 true, [])).2 ++ [false]

/-- The number of ones of a word. -/
def popcount (w v : Nat) : Nat := ((List.range w).filter v.testBit).length

/-- R252: the sync word is accepted. -/
def syncOk (v : W32) : Bool := popcount 32 (v.toNat ^^^ 0xB5E23C47) ≤ 2

/-- R250: HCRC of a received header passes. -/
def headerOk (h : BitVec 64) : Bool := h.toNat % 2 ^ 16 == crc16 (bitsOf 48 (h.toNat / 2 ^ 16))

/-- Big-endian bytes of a number (R251). -/
def bytesOf (n v : Nat) : List (BitVec 8) := (List.range n).map fun i => BitVec.ofNat 8 (v / 2 ^ (8 * (n - 1 - i)))
/-- The number that `n` payload bytes from `at'` spell. -/
def payloadNum (p : List (BitVec 8)) (at' n : Nat) : Nat :=
  ((p.drop at').take n).foldl (fun a b => a * 256 + b.toNat) 0

/-- R250 and R251: the bits of a frame in transmission order. -/
def frameBits (fr : AcqFrame) : List Bool :=
  preamble ++ bitsOf 32 0xB5E23C47 ++ bitsOf 64 (headerWord fr) ++ (fr.payload.flatMap fun b => bitsOf 8 b.toNat) ++ bitsOf 32 fr.crc.toNat

/-! ### The line -/

/-- R558 kind 5: the lane of the port that transmits a lane's signal. -/
def State.outLane (s : State) (l : Lane) : Lane :=
  match s.fiAny l 5, s.portOf l with
  | some i, some p => ((s.portLanes p).find? fun m => (s.fi i).p1 / 16 ^ posInPort p m % 16 == posInPort p l).getD l
  | _, _ => l

/-- R57: DAC codes leave a lane, unless its DAC is in squelch. -/
def State.sendLine (s : State) (l : Lane) (codes : List Nat) : State :=
  let s := s.modLane l fun x => { x with lastCode := codes.getLast?.getD x.lastCode }
  let m := s.outLane l
  if s.squelched m then s else s.emit (.line m codes)

/-- R558 kind 6: the codes of a codeword, delayed by repeating the one before them; when the delay ends as many are dropped. -/
def State.sendDelayed (s : State) (l : Lane) (codes : List Nat) : State :=
  let want := if s.isSet .ACQ_TX_DATA l then ((s.fiAny l 6).map fun i => (s.fi i).p1 % 128).getD 0 else 0
  let y := s.lane l
  let codes := List.replicate (want - y.skew) y.lastCode ++ codes.drop (if s.isSet .ACQ_TX_DATA l then y.skew - want else 0)
  (s.modLane l fun x => { x with skew := want }).sendLine l codes

/-- R93, R94 and R130: levels −3 to +3 are sent; each clamp counts. -/
def State.sendLevels (s : State) (l : Lane) (levels : List Int) : State :=
  let r := s.txLevels l (s.lane l).hist levels
  let s := (s.incSat .EQ_TX_CLAMP l r.2.1).modLane l fun x => { x with hist := r.2.2 }
  s.sendDelayed l r.1

/-! ### The carriers -/

/-- R248: the bits of C1 in 4 ns, by line mode, in 1/16. -/
def carrierRate (lmode : Nat) : Nat := if lmode = 0 then 850 else if lmode = 1 then 1815 else 3600

/-- R249: the codes of bits on C1 and C2: each for four sample periods. -/
def carrierCodes (bs : List Bool) : List Nat := bs.flatMap fun b => List.replicate 4 (if b then 255 else 0)

/-- R249: `n` bits of idle fill; the generator runs through the frames too. -/
def State.idleFill (s : State) (l : Lane) (n : Nat) : List Bool × State :=
  let r := idleBits n (s.lane l).idle
  (r.1, s.modLane l fun x => { x with idle := r.2 })

/-- R249: a frame on C1: behind the idle fill since the last, at least 32 bits. -/
def State.sendC1 (s : State) (l : Lane) (bs : List Bool) : State :=
  let now := s.ticks l.half
  let n := max 32 ((now - (s.lane l).carrierAt) * carrierRate (s.lmode l) / 16 - bs.length)
  let a := s.idleFill l n
  let b := a.2.idleFill l bs.length
  (b.2.modLane l fun x => { x with carrierAt := now }).sendLine l (carrierCodes (a.1 ++ bs))

/-- R249: C1 carries idle fill from its last frame until now. -/
def State.runC1 (s : State) (l : Lane) : State :=
  let now := s.ticks l.half
  let a := s.idleFill l ((now - (s.lane l).carrierAt) * carrierRate (s.lmode l) / 16)
  (a.2.modLane l fun x => { x with carrierAt := now }).sendLine l (carrierCodes a.1)

/-- R249 and R261: a slot of C2: the frame, and idle fill to its 1,024 bits; the generator runs on through the block, 16,384 bits of the carrier. -/
def State.sendC2 (s : State) (l : Lane) (bs : List Bool) : State :=
  let a := s.idleFill l 16384
  a.2.sendLine l (carrierCodes (bs ++ (a.1.take 1024).drop bs.length))

/-- R175 and R249: the next bit on C3. -/
def State.nextOhc (s : State) (l : Lane) : Bool × State :=
  let a := s.idleFill l 1
  let b := ((s.lane l).ohc.headD none).getD (a.1.headD false)
  (b, a.2.modLane l fun x => { x with ohc := x.ohc.drop 1 })

/-- R175 and R249: the next `n` bits on C3. -/
def State.ohcBits (s : State) (l : Lane) : Nat → List Bool × State
  | 0 => ([], s)
  | n + 1 =>
    let a := s.nextOhc l
    let b := State.ohcBits a.2 l n
    (a.1 :: b.1, b.2)

/-- R174: DMT symbols that have begun until a tick: one every 9.6 ns. -/
def symbolsAt (t : Nat) : Nat := t * 5 / 12

/-- R265: the training symbols of LM400D that carry bits of C3. -/
def State.sendTrainSymbols (s : State) (l : Lane) (bits : List Bool) : State :=
  let codes := fun (b : Bool) => s.dmtCodes l (trainTone (s.app .DMT_OHC_GAIN l) b)
  let ones := codes true
  let zeros := codes false
  let clips := (bits.map fun b => if b then ones.2 else zeros.2).sum
  (s.incSat .DMT_TX_CLIP l clips).sendLine l (bits.flatMap fun b => if b then ones.1 else zeros.1)

/-- R248, R249 and R265: in TRAIN of LM400D the training symbols that were due since the last have left, each with a bit of C3. -/
def State.runC3 (s : State) (l : Lane) : State :=
  let now := s.ticks l.half
  let a := s.ohcBits l (symbolsAt now - symbolsAt (s.lane l).carrierAt)
  (a.2.modLane l fun x => { x with carrierAt := now }).sendTrainSymbols l a.1

/-- R249: a frame on C3 waits for its symbols, 32 idle bits before it. -/
def State.sendC3 (s : State) (l : Lane) (bs : List Bool) : State :=
  let s := if s.get .ACQ_STATE l = acqTrain ∧ ¬ s.isSet .ACQ_TX_DATA l then s.runC3 l else s
  s.modLane l fun x => { x with ohc := x.ohc ++ List.replicate 32 none ++ bs.map some }

/-- R248 and R250: a lane sends a frame on the carrier of its state. -/
def State.sendFrame (s : State) (l : Lane) (type arg seq : Nat) (payload : List (BitVec 8)) : State :=
  let fr : AcqFrame := ⟨BitVec.ofNat 8 type, 1, BitVec.ofNat 4 arg, BitVec.ofNat 8 seq, BitVec.ofNat 6 l, 0, payload, 0⟩
  let fr := { fr with crc := BitVec.ofNat 32 (frameCrc fr) }
  let s := s.emit (.frame l fr)
  let bs := frameBits fr
  let st := s.get .ACQ_STATE l
  if st = acqTrain ∨ st = acqData then (if s.lmode l = 3 then s.sendC3 l bs else s.sendC2 l bs) else s.sendC1 l bs

/-- R257: the reception under way is in BODY and its header is that of the frame. -/
def State.inBody (s : State) (l : Lane) (fr : AcqFrame) : Bool :=
  (s.lane l).phase == .body && headerWord fr == (s.lane l).hdr && fr.payload.length < 4096

/-- R257, R259: the end of a BODY: a frame with a bad CRC-32 or of another lane than the latched partner is discarded and
counted; the reception returns to SEARCH. A frame that is not in reception, or whose reception was aborted (R258), is not taken. While the acquisition
Kneader is out of service the lane keeps its state (R413). The second result says whether the frame is accepted. -/
def State.endBody (s : State) (l : Lane) (fr : AcqFrame) : State × Bool :=
  if !s.inBody l fr then (s, false)
  else
    let s := s.modLane l fun x => { x with phase := .search }
    if fr.crc.toNat ≠ frameCrc fr then (s.incSat .ACQ_CRC_FAIL l, false)
    else
      let s := s.inc .ACQ_FRAME_OK l
      if s.kndOut l.acqKnd then (s, false)
      else if (s.lane l).partner.any fun p => p.2 != fr.srcLane.toNat then (s.incSat .ACQ_FOREIGN l, false)
      else (s, true)

/-- R253: the lane receives frames at all: not idle. -/
def State.receives (s : State) (l : Lane) : Bool := s.get .ACQ_STATE l != acqIdle

end Sys2Proof.Machine
end

