-- ==== Sys2Proof/Machine/Coding.lean ====
section
/-! DEFINITION. Codewords on a lane (R132 to R172, R218 to R222): receiving them from the line and from the host, the decoding procedure, its
counters and flags, what is sent on, codeword lock, the counter clear, latency. -/

namespace Sys2Proof.Machine

/-- R155: what the decoder does with a codeword. -/
inductive Verdict | delivered | erased | uncorrectable
  deriving DecidableEq, Repr

/-- R132: the codeword streams of a lane by line mode. -/
def streamsOf (lmode : Nat) : Nat := if lmode ≤ 1 then 1 else 2

/-! ### The outer code -/

/-- R155: flagged symbols, each its index and Λ, in the order in which they are erased: smallest Λ first, ties by lower index. -/
def eraseBefore (a b : Nat × Rat) : Bool := a.2 < b.2 || (a.2 == b.2 && a.1 ≤ b.1)

/-- A flagged symbol put at its place in that order. -/
def placeFlagged (x : Nat × Rat) : List (Nat × Rat) → List (Nat × Rat)
  | [] => [x]
  | y :: ys => if eraseBefore x y then x :: y :: ys else y :: placeFlagged x ys

/-- R155: flagged symbols in the order in which they are erased. -/
def eraseOrder (fl : List (Nat × Rat)) : List (Nat × Rat) := fl.foldr placeFlagged []

/-- R147: the flagged symbols of a codeword: those whose smallest Λ is below REL_THR / 64. -/
def flaggedOf (relThr : Nat) (word : List (Nat × Rat)) : List (Nat × Rat) :=
  (word.zipIdx.map fun p => (p.2, p.1.2)).filter fun x => x.2 < (relThr : Rat) / 64

/-- R153 to R155: the decoding of a codeword whose symbols carry their smallest Λ: the verdict and, unless it is uncorrectable, the corrected word.
`erase` says that the erasure step applies. -/
def decodeWord (fs : FecSet) (erase : Bool) (word : List (Nat × Rat)) : Verdict × List Nat :=
  let syms := word.map (·.1)
  match rsDecode 30 syms [] with
  | some w => (.delivered, w)
  | none =>
    if erase then
      let er := ((eraseOrder (flaggedOf fs.relThr word)).take fs.eraseMax).map (·.1)
      match rsDecode 28 syms er with
      | some w => (.erased, w)
      | none => (.uncorrectable, syms)
    else (.uncorrectable, syms)

/-- R164: the settings of the outer decoder that hold now. -/
def State.fecNow (s : State) (l : Lane) : FecSet :=
  ⟨s.app .FEC_REL_THR l, s.app .FEC_ERASE_MAX l, s.appSet .FEC_ERASE_EN l, s.appSet .FEC_POISON_PARITY l⟩

/-- R155: the erasure step applies on a side. -/
def State.eraseOn (s : State) (l : Lane) (side : Fin 2) (fs : FecSet) : Bool :=
  s.app .FEC_FEC_MODE l == 1 && fs.eraseEn && side == 0 && 2 ≤ s.lmode l

/-! ### Counters -/

/-- R159: the counters of one codeword, added together: its verdict, symbols and bits in error. -/
def State.countCodeword (s : State) (l : Lane) (side : Fin 2) (v : Verdict) (symErr bitErr : Nat) : State :=
  let i := l.val * 2 + side.val
  let s := (s.inc .FECS_CW i).perfLane l (if side = 0 then 0x01 else 0x04)
  let s := match v with
    | .uncorrectable => (s.inc .FECS_UNCORR_CW i).perfLane l (if side = 0 then 0x03 else 0x05)
    | _ =>
      let s := if symErr = 0 then s else s.inc .FECS_CORR_CW i
      let s := (s.inc .FECS_SYM_ERR i symErr).inc .FECS_BIT_ERR i bitErr
      let s := if side = 0 then s.perfLane l 0x02 symErr else s
      if v = .erased then s.inc .FECS_ERASE_CW i else s
  if side ≠ 0 then s else s.incSat .FEC_HIST (l.val * 17 + if v = .uncorrectable then 16 else min symErr 15)

/-- R159: the counters that the inner decoder of a lane adds. -/
def State.countInner (s : State) (l : Lane) (preDecErr parityFail : Nat) : State :=
  let s := if s.lmode l = 1 ∨ s.lmode l = 2 then s.incSat .FEC_PRE_DEC_ERR l preDecErr else s
  if 2 ≤ s.lmode l ∧ s.get .EQ_EFFORT l = 0 then s.incSat .FEC_PARITY_FAIL l parityFail else s

/-! ### Injections -/

/-- R558 kind 3: symbol `k` of a codeword is hit, with `n` symbols since the latest burst began. -/
def burstHits (interval burst n k : Nat) : Bool := (n + k) % max 1 interval < burst

/-- R558: SYM_ERR XORs a non-zero value into each symbol that it hits. -/
def State.injectSymbols (s : State) (l : Lane) (side : Fin 2) (word : List (Nat × Rat)) : State × List (Nat × Rat) :=
  match s.fiOn l 3 side with
  | none => (s, word)
  | some i =>
    let y := s.fi i
    let d := s.draw
    let hit := fun (k : Nat) => if y.p3.testBit 8 then Config.randomHit d.1 k else burstHits y.p2 (y.p3 % 256) y.n k
    let s := (d.2.inc .FIS_INJ_CNT i ((List.range 544).filter hit).length).modFi i fun y => { y with n := (y.n + 544) % max 1 y.p2 }
    (s, word.zipIdx.map fun p => if hit p.2 then (p.1.1 ^^^ (1 + Config.injected d.1 p.2 % 1023), p.1.2) else p.1)

/-- R558 and R559: UNCORR declares one codeword in each interval uncorrectable, and in FEC-THROUGH inverts 16 of its symbols; at its count the
injection ends. -/
def State.injectUncorr (s : State) (l : Lane) (side : Fin 2) (word : List (Nat × Rat)) : State × Bool × List (Nat × Rat) :=
  match s.fiOn l 4 side with
  | none => (s, false, word)
  | some i =>
    let y := s.fi i
    if y.n + 1 < y.p2 then (s.modFi i fun y => { y with n := y.n + 1 }, false, word)
    else
      let d := s.draw
      let s := (d.2.inc .FIS_INJ_CNT i).modFi i fun y => { y with n := 0 }
      let s := if y.p3 ≠ 0 ∧ y.p3 ≤ s.get .FIS_INJ_CNT i then s.endSlot i else s
      let hit := fun (k : Nat) => s.app .FEC_FEC_MODE l == 0 && (k + 544 - Config.invertedFrom d.1 % 544) % 544 < 16
      (s, true, word.zipIdx.map fun p => if hit p.2 then (1023 - p.1.1, p.1.2) else p.1)

/-! ### One codeword -/

/-- R153 to R156 and R159: a codeword ends on a side: it is decoded under its settings, counted, and given on: unchanged in FEC-THROUGH; in FEC-SPLIT
its message with fresh parity, marked where it is uncorrectable. -/
def State.takeWord (s : State) (l : Lane) (side : Fin 2) (fs : FecSet) (word : List (Nat × Rat)) : State × List Nat :=
  let a := s.injectSymbols l side word
  let b := a.1.injectUncorr l side a.2
  let s := b.1
  let word := b.2.2
  let syms := word.map (·.1)
  let r := decodeWord fs (s.eraseOn l side fs) word
  let v := if b.2.1 then .uncorrectable else r.1
  let bad := v == .uncorrectable
  let s := s.countCodeword l side v (symDiff syms r.2) (bitDiff syms r.2)
  let s := if bad then s.flag (if side = 0 then .FEC_UNCORR_LINE else .FEC_UNCORR_HOST) l else s
  let s := if side = 0 then s.modLane l fun x => { x with uncorr := if bad then x.uncorr + 1 else 0 } else s
  (s, if s.app .FEC_FEC_MODE l = 0 then syms else if bad then markedWord fs.poison syms else rsEncode (r.2.take 514))

/-- The codewords of a lane that end at one boundary, one for each stream. -/
def State.takeWords (s : State) (l : Lane) (side : Fin 2) (fs : FecSet) : List (List (Nat × Rat)) → State × List (List Nat)
  | [] => (s, [])
  | w :: ws =>
    let a := s.takeWord l side fs w
    let b := State.takeWords a.1 l side fs ws
    (b.1, a.2 :: b.2)

/-- R164: the codewords of a lane end on a side under the settings that held when they started; those that start now take the settings of now. -/
def State.endWords (s : State) (l : Lane) (side : Fin 2) (ws : List (List (Nat × Rat))) : State × List (List Nat) :=
  let x := s.lane l
  let fs := (if side = 0 then x.fecLine else x.fecHost).getD (s.fecNow l)
  let r := s.takeWords l side fs ws
  let now := s.fecNow l
  (r.1.modLane l fun x => if side = 0 then { x with fecLine := some now } else { x with fecHost := some now }, r.2)

/-! ### Toward the line -/

/-- R195: the loading copy that symbol `idx` is sent from, and whether its pilots are inverted. -/
def State.txCopy (s : State) (l : Lane) (idx : Nat) : Nat × Bool :=
  let act := s.get .DMT_TX_ACT l
  match (s.lane l).txSwap with
  | some w =>
    let d := idxAhead w.1 idx
    (if d ≤ 0 then 1 - act else act, 1 ≤ d && d ≤ 8)
  | none => (act, false)

/-- R174 to R181: the next DMT symbol leaves with 240 frames. -/
def State.sendSymbol (s : State) (l : Lane) : State :=
  let x := s.lane l
  let idx := x.txSym
  let c := s.txCopy l idx
  let o := s.nextOhc l
  let s := o.2
  let fr := x.txFrames.take 240
  let load := fun (t : Nat) => let w := s.dmtWord l c.1 t; (txBits w, txGain w)
  let pts := placeBits (fun t => (load t).1) (interleaveP fr ++ interleaveU fr)
  let r := s.dmtCodes l (dataTone load pts (s.app .DMT_PILOT_GAIN l) (s.app .DMT_OHC_GAIN l) (pilotBits idx) c.2 o.1)
  let s := (s.incSat .DMT_TX_CLIP l r.2).modLane l fun x => { x with txSym := (x.txSym + 1) % 2 ^ 32, txFrames := x.txFrames.drop 240 }
  s.sendDelayed l r.1

/-- R176: symbols leave while there are frames for them. -/
def State.sendSymbols (s : State) (l : Lane) : Nat → State
  | 0 => s
  | n + 1 => if 240 ≤ (s.lane l).txFrames.length then State.sendSymbols (s.sendSymbol l) l n else s

/-- R220: the places that a lane's streams hold in a round of its port. -/
def State.placesOf (s : State) (p l : Lane) : List Nat :=
  let n := streamsOf (s.lmode l)
  (List.range n).map fun i => n * posInPort p l + i

/-- R220: the codewords of a round of a port. -/
def State.roundSize (s : State) (p : Lane) : Nat := streamsOf (s.lmode p) * (s.portLanes p).length

/-- R222: a round of codewords of Local Fault. -/
def State.faultRound (s : State) (p : Lane) : List (List Nat) × State :=
  let d := s.draw
  ((List.range (s.roundSize p)).map fun k => Config.localFault (s.app .PORT_RATE p) k d.1, d.2)

/-- R132, R135, R219: in LM100 and LM200 a lane sends the levels of its physical lane of the PMA signal: Gray-mapped, or with the inner code; both
with the precoder where it is negotiated. -/
def State.pmaLevels (s : State) (p l : Lane) (round : List (List Nat)) : List Nat :=
  let bits := Config.pmaSend (s.app .PORT_RATE p) (s.portLanes p).length (posInPort p l) (round.flatMap wordBits)
  let qs := if s.lmode l = 0 then grayLevels bits else Config.innerEncode bits
  if Config.precoder l then precode (((s.lane l).hist.headD 0 + 3).toNat / 2) qs else qs

/-- R132, R135, R136, R142, R219, R220: what a lane of a port sends of a round on the line. -/
def State.sendRound (s : State) (p l : Lane) (round : List (List Nat)) : State :=
  let m := s.lmode l
  if m ≤ 1 then s.sendLevels l ((s.pmaLevels p l round).map levelNum)
  else
    let ws := (s.placesOf p l).map fun k => round.getD k []
    let r := tcFrames (s.lane l).enc 640 (pairBits (ws.getD 0 []) (ws.getD 1 []))
    let s := s.modLane l fun x => { x with enc := r.2 }
    if m = 2 then s.sendLevels l (r.1.flatMap fun f => f.map fun q => levelNum (levelOf q.1 q.2))
    else (s.modLane l fun x => { x with txFrames := x.txFrames ++ r.1 }).sendSymbols l 4

/-- R222, R267: a lane sends data symbols: its transmit direction is in DATA, or it is in BLIND. -/
def State.sendsData (s : State) (l : Lane) : Bool := s.isSet .ACQ_TX_DATA l || s.get .ACQ_STATE l == acqBlind

/-- R153, R154: the codewords of a round end on the host side of the lanes that carry them; the round in the order of the sequence. -/
def State.endHostWords (s : State) (p : Lane) (ws : List (List Nat)) : List Lane → State × List (List Nat)
  | [] => (s, [])
  | l :: ls =>
    let a := s.endWords l 1 ((s.placesOf p l).map fun k => (ws.getD k []).map fun x => (x, 0))
    let b := State.endHostWords a.1 p ws ls
    (b.1, a.2 ++ b.2)

/-- R153, R154, R164, R220 to R222: a round of a port from the host goes to the lanes that send data: while the port is UP the codewords, else Local
Fault. A host side that is not UP takes no codewords, and the first codeword after the gap starts under the settings of its own start. -/
def State.hostRound (s : State) (p : Lane) (ws : List (List Nat)) : State :=
  let s := s.modPort p fun y => { y with txRound := y.txRound + 1 }
  let ls := s.portLanes p
  let up := s.hostUp p
  let r := if up then s.endHostWords p ws ls else (s.each ls fun s l => s.modLane l fun x => { x with fecHost := none }, [])
  let data := up && !r.1.localFault p
  let f := if data then (r.2, r.1) else r.1.faultRound p
  f.2.each ls fun s l =>
    if !s.sendsData l then s.mirror l
    else
      let s := if data then s.each (s.placesOf p l) fun s k => s.emit (.codeword l false k (f.1.getD k [])) else s
      (s.sendRound p l f.1).mirror l

/-- R243: the PAM4 levels of a signal inverted: with the Gray mapping the first bit of each level. -/
def invertPam4 : List Bool → List Bool
  | m :: n :: bs => (!m) :: n :: invertPam4 bs
  | bs => bs

/-- R218 and R243: the codewords of a port that the signals of its host lanes carry: each PCS lane is found on whichever host lane its markers named
(R231), and the sequence is rebuilt from the PCS lanes in the order of their identities. -/
def State.hostWords (s : State) (p : Lane) (signals : List (List Bool)) : List (List Nat) :=
  let rate := s.app .PORT_RATE p
  let xs := s.portHlanes p
  let found := (xs.zip signals).flatMap fun e =>
    (s.hlane e.1).pcs.zip (Config.pmaDemux rate xs.length (if s.appSet .HST_RX_POL e.1 then invertPam4 e.2 else e.2))
  Config.pcsWords rate ((List.range (pcsLanes rate)).filterMap fun k => (found.find? fun e => e.1 == k).map (·.2))

/-! ### Toward the host -/

/-- R234 and R244: the transmit swing of a host lane in mVppd. -/
def State.swingMv (s : State) (x : HLane) : Nat := 400 + 40 * s.app .HST_SWING x

/-- R234, R243, R244: what a host lane transmits: its swing, its taps beside the main tap in 1/64 and the levels' bits, inverted with TX_POL = 1. -/
def State.emitHost (s : State) (x : HLane) (bits : List Bool) : State :=
  s.emit (.hostSignal x (s.swingMv x) (s.hlane x).tap (if s.appSet .HST_TX_POL x then invertPam4 bits else bits))

/-- R218, R222, R233: codewords go to the host: physical lane k of the PMA signal on host lane k, where its stage sends the port's signal. -/
def State.sendHost (s : State) (p : Lane) (ws : List (List Nat)) : State :=
  let xs := s.portHlanes p
  s.each xs.zipIdx fun s e =>
    if s.hostTx e.1 = .portSignal then
      s.emitHost e.1 (Config.pmaSend (s.app .PORT_RATE p) xs.length e.2 (ws.flatMap wordBits))
    else s

/-- R220, R223: what waits for the other lanes, by place: with an entry for each of `n` places, the oldest of each in the order of the places, and
the rest, which wait on. -/
def takeRound {α : Type} (n : Nat) (xs : List (Nat × α)) : Option (List α × List (Nat × α)) :=
  let firsts := (List.range n).filterMap fun k => xs.find? fun e => e.1 == k
  if firsts.length = n then
    some (firsts.map (·.2), (List.range n).foldl (fun ys k => ys.eraseP fun e => e.1 == k) xs)
  else none

/-- R220, R223: the codewords of a lane join those that wait for the port's other lanes; a complete round goes to the host in the order of the
sequence. -/
def State.collectWords (s : State) (p l : Lane) (ws : List (List Nat)) : State :=
  let mine := (s.placesOf p l).zip ws
  let s := s.each mine fun s e => s.emit (.codeword l true e.1 e.2)
  let all := (s.port p).collect ++ mine
  match takeRound (s.roundSize p) all with
  | some r => (s.modPort p fun y => { y with collect := r.2, rxRound := y.rxRound + 1 }).sendHost p r.1
  | none => s.modPort p fun y => { y with collect := all }

/-- R157, R222: while a port is not UP, Local Fault goes to the host in place of its codewords, a round at each codeword boundary of the port's first
line lane, whose timing the host transmit side follows (R236). -/
def State.faultToHost (s : State) (p l : Lane) : State :=
  let s := s.modPort p fun y => { y with collect := [], lineBits := [] }
  if l = p then
    let f := s.faultRound p
    f.2.sendHost p f.1
  else s

/-- R154, R157: the codewords of a lane that have ended on the line go on. -/
def State.deliver (s : State) (l : Lane) (ws : List (List Nat)) : State :=
  match s.portOf l with
  | none => s
  | some p => if s.localFault p || s.laneFenced l then s.faultToHost p l else s.collectWords p l ws

/-! ### From the line -/

/-- R88, R89: y of `n` symbols from a lane's codes. -/
def State.outputs (s : State) (l : Lane) (n : Nat) (phase : Nat) (codes : List Nat) : List Int :=
  let x := s.samples l phase codes
  let main := s.app .EQ_MAIN l
  (List.range n).map fun m =>
    s.equalised l ((List.range 48).map fun k => x.getD (m + main + 47 - k) 0) ((List.range 16).map fun d => x.getD (m + 50 - d) 0)

/-- R90: the slicer's decisions on y after the level before. -/
def State.slices (s : State) (l : Lane) : Nat → List Int → List Nat
  | _, [] => []
  | prev, y :: ys => let q := s.decide90 l y prev; q :: State.slices s l q ys

/-- R135 reversed: a codeword from its bits, with no Λ (the ceiling). -/
def bareWord (bs : List Bool) : List (Nat × Rat) := (runsOfTen 544 bs).map fun r => (symOf r, lambdaCeiling)

/-- R144, R148 and R150: what a TC18 decoder gives of a pair enters the lane: its state, its counters, Λ of its frames, its final decisions; the
codewords of the pair. -/
def State.takeDecided (s : State) (l : Lane) (d : Decided) : State × List (List (Nat × Rat)) :=
  let s := (s.countInner l d.preDecErr d.parityFail).modLane l fun x => { x with
    dec := d.dec, lamSum := x.lamSum + (d.frames.map minLambda).sum, lamN := x.lamN + d.frames.length,
    finals := ((x.rxPair % (3 * 2 ^ 29), d.levels) :: x.finals).take keptPairs, rxPair := x.rxPair + 1 }
  (s, pairWords d.frames)

/-- R87, R91, R135: in LM100 and LM200 the bits that a lane's codes carry, the precoder undone where it is negotiated. -/
def State.pmaHalf (s : State) (l : Lane) (codes : List Nat) (phase : Nat) : State × List Bool :=
  let d := (s.lane l).dec
  let ys := s.outputs l (if s.lmode l = 0 then 2720 else codes.length - 95) phase codes
  let qs := if s.lmode l = 0 then s.slices l d.q ys else Config.innerDecide ys
  let s := if s.lmode l = 0 then s else s.countInner l ((ys.zip qs).filter fun p => slice 1 p.1 != p.2).length 0
  let s := s.modLane l fun x => { x with dec := { x.dec with q := qs.getLast?.getD x.dec.q } }
  let bare := if Config.precoder l then unprecode d.q qs else qs
  (s, if s.lmode l = 0 then grayBits bare else Config.innerBits bare)

/-- R219, R223: the bits of a lane join those that wait for the port's other lanes; from the signals of all of them the PMA gives the codewords of a
round, one to a lane. -/
def State.pmaRound (s : State) (p l : Lane) (bits : List Bool) : State × List (Lane × List (List (Nat × Rat))) :=
  let all := (s.port p).lineBits ++ [(posInPort p l, bits)]
  match takeRound (s.portLanes p).length all with
  | some r =>
    let got := Config.pmaReceive (s.app .PORT_RATE p) r.1
    (s.modPort p fun y => { y with lineBits := r.2 }, (s.portLanes p).zipIdx.map fun e => (e.1, [bareWord (got.getD e.2 [])]))
  | none => (s.modPort p fun y => { y with lineBits := all }, [])

/-- R87, R91, R135, R143: the codewords that a PAM lane's ADC codes end: its pair in LM400T, a round in LM100 and LM200. -/
def State.pamWords (s : State) (p l : Lane) (codes : List Nat) (phase : Nat) : State × List (Lane × List (List (Nat × Rat))) :=
  if s.lmode l ≤ 1 then
    let a := s.pmaHalf l codes phase
    a.1.pmaRound p l a.2
  else
    let ys := s.outputs l (codes.length - 95) phase codes
    let a := s.takeDecided l (decodeTc (decoderFor 2 (s.get .EQ_EFFORT l)) 640 (s.app .FEC_RHO l) (s.lane l).dec ys)
    (a.1, [(l, a.2)])

/-- R183: Z of each tone of a symbol in DATA. -/
def State.zOf (s : State) (l : Lane) (ref : Nat → Cx) (y : DmtSymbol) : List Cx :=
  derotate ref ((s.tones l y).zipIdx.map fun p => cmul (feqOf (s.dmtWord l 3 p.2)) p.1)

/-- R181 reversed, R185: the soft labels of a received symbol, in the order of R181, with the loading in use. -/
def State.softLabels (s : State) (l : Lane) (idx : Nat) (y : DmtSymbol) : List Soft :=
  let copy := s.get .DMT_RX_ACT l
  let bits := fun (t : Nat) => rxBits (s.dmtWord l copy t)
  let z := s.zOf l (pilotRef (pilotBits idx)) y
  (labelPositions bits).map fun e => demapBit (s.get .EQ_EFFORT l) (bits e.1) (z.getD e.1 (0, 0)) e.2.1 e.2.2

/-- R176, R180, R185: the codewords of a lane in LM400D, from the DMT symbols that hold its pair: of three pairs in a superframe the first begins with
frame 0 of its symbol, the second with frame 160, the third with frame 80. -/
def State.dmtWords (s : State) (l : Lane) (syms : List DmtSymbol) : State × List (Lane × List (List (Nat × Rat))) :=
  let x := s.lane l
  let first := 640 * x.rxPair / 240
  let frames := syms.zipIdx.flatMap fun p => framesOf (s.softLabels l ((first + p.2) % 2 ^ 32) p.1)
  let a := s.takeDecided l (decodeDmt (decoderFor 3 (s.get .EQ_EFFORT l)) 640 x.dec (frames.drop (640 * x.rxPair % 240)))
  (a.1, [(l, a.2)])

/-- R155, R157: codewords end on the line: while the receive direction is in DATA, in LM100 and LM200 that of every lane of the port, they are decoded,
counted and go on. -/
def State.lineWords (s : State) (l : Lane) (take : State → Lane → State × List (Lane × List (List (Nat × Rat)))) : State :=
  match s.portOf l with
  | none => s
  | some p =>
    if !(if s.lmode l ≤ 1 then s.portLanes p else [l]).all fun x => s.isSet .ACQ_RX_DATA x then s.faultToHost p l
    else
      let a := take s p
      a.1.each a.2 fun s e =>
        let b := s.endWords e.1 0 e.2
        (b.1.deliver e.1 b.2).mirror e.1

/-- R132, R153 to R160, R218 to R222: codewords end on a side of a lane. What is not of the lane's line mode has no effect. -/
def execCodewordReceive (l : Lane) (cw : RxCodeword) (s : State) : Host.Outcome State Fault Refusal :=
  match cw with
  | .host lanes =>
    if s.portOf l = some l ∧ lanes.length = (s.portHlanes l).length then done (s.hostRound l (s.hostWords l lanes)) else done s
  | .line codes phase => if s.lmode l = 3 then done s else done (s.lineWords l fun s p => s.pamWords p l codes phase)
  | .dmt syms => if s.lmode l ≠ 3 then done s else done (s.lineWords l fun s _ => s.dmtWords l syms)

/-- R158: 64 uncorrectable line codewords in a row, or in LM100 and LM200 the loss of codeword alignment: CW_LOCK falls, one WARN
event, and the lane leaves DATA. -/
def execCwLockLoss (l : Lane) (s : State) : Host.Outcome State Fault Refusal :=
  if s.isSet .FEC_CW_LOCK l ∧ (s.lmode l ≤ 1 ∨ 64 ≤ (s.lane l).uncorr) then
    let s := (s.setCwLock l false).raise l.half { sev := 2, code := 0x0205, scope := 4, id := l }
    done (s.leaveData l 3)
  else done s

/-- R160: a write to LN_FEC_CLR asks for a clear at the next codeword boundary. -/
def State.fecClearWrite (s : State) (l : Lane) (v : Nat) : State :=
  if v.testBit 0 then s.modLane l fun x => { x with clear := true } else s

def execFecClearWrite (l : Lane) (v : W32) (s : State) : Host.Outcome State Fault Refusal :=
  done (s.hostWrite l.half fun s => s.fecClearWrite l v.toNat)

/-- R160: every counter of the lane is zeroed; CNT_CLEAR commands whose last lane this is complete (R488). -/
def State.clearCounters (s : State) (l : Lane) : State :=
  let s := s.each [0, 1] fun s d =>
    s.each [Fld.FECS_CW, .FECS_CORR_CW, .FECS_UNCORR_CW, .FECS_SYM_ERR, .FECS_BIT_ERR, .FECS_ERASE_CW] fun s f =>
      s.put f (l.val * 2 + d) 0
  let s := s.each (List.range 17) fun s b => s.put .FEC_HIST (l.val * 17 + b) 0
  let s := (s.put .FEC_PRE_DEC_ERR l 0).put .FEC_PARITY_FAIL l 0
  let s := s.modLane l fun x => { x with clear := false }
  s.each allHalves fun s h =>
    let w := (s.half h).clrWait.map fun p => (p.1, p.2.filter (· != l))
    let s := s.modHalf h fun x => { x with clrWait := w.filter fun p => !p.2.isEmpty }
    s.each (w.filter fun p => p.2.isEmpty) fun s p => s.complete p.1 (p.1.timed (s.now p.1.exe))

/-! ### Latency -/

/-- R162: the range of a lane's latency in ns by line mode, FEC mode, host mode and direction. -/
def latencyRange (lmode fec hmode : Nat) (lineToHost : Bool) : Nat × Nat :=
  let base : Nat := match lmode, fec, lineToHost with
    | 0, 0, false => 112 | 0, 0, true => 148 | 0, _, false => 214 | 0, _, true => 250
    | 1, 0, false => 96 | 1, 0, true => 164 | 1, _, false => 158 | 1, _, true => 226
    | 2, 0, false => 118 | 2, 0, true => 152 | 2, _, false => 180 | 2, _, true => 214
    | _, 0, false => 196 | _, 0, true => 268 | _, _, false => 258 | _, _, true => 330
  let b := if lmode = 0 then (if hmode = 0 then base + 10 else if hmode = 2 then base - 4 else base)
    else if hmode = 0 then base + 10 else if hmode = 1 then base + 4 else base
  (b, b + 8)

/-- R163: a value in 1/16 ns that a measurement to ±0.25 ns can give for a latency in the range of R162. -/
def State.latencyOk (s : State) (l : Lane) (lineToHost : Bool) (v : Nat) : Bool :=
  let hm := ((s.portOf l).map fun p => s.app .PORT_HMODE p).getD 0
  let r := latencyRange (s.lmode l) (s.app .FEC_FEC_MODE l) hm lineToHost
  r.1 * 16 ≤ v + 4 && v ≤ r.2 * 16 + 4

/-- R163: the latencies fixed at entry to DATA have been measured. -/
def execLatencyMeasured (l : Lane) (txLat rxLat : BitVec 16) (s : State) : Host.Outcome State Fault Refusal :=
  if s.inData l && !s.isSet .FEC_LAT_VALID l && s.latencyOk l false txLat.toNat && s.latencyOk l true rxLat.toNat
      && (s.fiAny l 6).isNone then
    done (((s.put .FEC_TX_LAT l txLat.toNat).put .FEC_RX_LAT l rxLat.toNat).put .FEC_LAT_VALID l 1)
  else done s

end Sys2Proof.Machine
end

