-- ==== Sys2Proof/Machine/Loading.lean ====
section
/-! DEFINITION. Loadings of LM400D (R187 to R193): required SNRs, margins, and the procedure by which the Kneader computes a
loading. SNRs and margins are in 0.1 dB. -/

namespace Sys2Proof.Machine

/-- R191: the unit-gain SNR that a number of bits requires. -/
def sReq (b : Nat) : Int :=
  match b with
  | 1 => 60 | 2 => 90 | 3 => 128 | 4 => 158 | 5 => 189 | 6 => 219 | 7 => 249 | 8 => 279 | _ => 0

/-- R192: the largest b in 0 … cap with b = 0 or s ≥ S_req(b) + margin. -/
def firstBits (cap : Nat) (margin s : Int) : Nat :=
  ((List.range (cap + 1)).filter fun b => b == 0 || sReq b + margin ≤ s).foldl max 0

/-- A tone in the computation: number, unit-gain SNR, bits. -/
structure ToneBits where
  tone : Nat
  s : Int
  b : Nat
  deriving DecidableEq, Repr

/-- The element of a list that is best under `better a b`, the first among equals. -/
def pickFirst (better : ToneBits → ToneBits → Bool) : List ToneBits → Option ToneBits
  | [] => none
  | x :: xs =>
    match pickFirst better xs with
    | none => some x
    | some y => if better y x then some y else some x

def setBits (ts : List ToneBits) (tone b : Nat) : List ToneBits := ts.map fun x => if x.tone = tone then { x with b := b } else x

def totalBits (ts : List ToneBits) : Nat := (ts.map (·.b)).sum

/-- R192: take bits off the loaded tone of smallest margin, or put bits on the tone of largest, until the total is 4,320. -/
def balance (cap : Nat) : Nat → List ToneBits → List ToneBits
  | 0, ts => ts
  | n + 1, ts =>
    let total := totalBits ts
    if 4320 < total then
      match pickFirst (fun y x => y.s - sReq y.b < x.s - sReq x.b) (ts.filter fun x => 0 < x.b) with
      | some x => balance cap n (setBits ts x.tone (x.b - 1))
      | none => ts
    else if total < 4320 then
      match pickFirst (fun y x => x.s - sReq (x.b + 1) < y.s - sReq (y.b + 1)) (ts.filter fun x => x.b < cap) with
      | some x => balance cap n (setBits ts x.tone (x.b + 1))
      | none => ts
    else ts

/-- The root search: the largest whole number below `lo + 2^fuel` whose power 100 is at most `a`. -/
def root100 (a lo : Nat) : Nat → Nat
  | 0 => lo
  | n + 1 => root100 a (if (lo + 2 ^ n) ^ 100 ≤ a then lo + 2 ^ n else lo) n

/-- 10^(k / 100), the power ratio of k in 0.1 dB, to 2^-60. -/
def tenPow (k : Int) : Rat := (root100 (10 ^ (k % 100).toNat * 2 ^ 6000) 0 64 : Rat) / 2 ^ 60 * (10 : Rat) ^ (k / 100)

/-- R192: 512 × the square root of a power ratio, rounded to the nearest, ties up. -/
def gainWord (p : Rat) : Nat :=
  (List.range 12).foldl (fun lo i =>
    let n := lo + 2 ^ (11 - i)
    if ((2 * n - 1 : Nat) : Rat) ^ 2 ≤ 1024 ^ 2 * p then n else lo) 0

/-- R192: |g − current| < 0.1 dB, where the current gain is the word `cur`. -/
def nearGain (p : Rat) (cur : Nat) : Bool :=
  let c : Rat := ((cur : Rat) / 512) ^ 2
  tenPow (-1) * c < p && p < tenPow 1 * c

/-- R192: the computed loading: the common margin M as a power ratio and, by tone, bits and gain. -/
structure Loading where
  ratio : Rat
  words : List (Nat × Nat × Nat)
  deriving DecidableEq, Repr

/-- R192: M as a power ratio: N over the sum of 10^((S_req − s) / 10) of the loaded tones. -/
def commonRatio (ts : List ToneBits) : Rat :=
  let xs := ts.filter fun x => 0 < x.b
  (xs.length : Rat) / (xs.map fun x => tenPow (sReq x.b - x.s)).sum

/-- R192: the whole procedure. `snr t` is the unit-gain SNR of a tone, `cur t` its current (bits, gain) for a bit-swap. -/
def computeLoading (snr : Nat → Int) (margin : Int) (cap gainLim : Nat) (swap : Bool) (cur : Nat → Nat × Nat) : Loading :=
  let ts := dataTones.map fun t => ⟨t, snr t, firstBits cap margin (snr t)⟩
  let ts := balance cap 9000 ts
  let m := commonRatio ts
  let lim : Int := 5 * gainLim
  ⟨m, ts.map fun x =>
    if x.b = 0 then (x.tone, 0, 0x100)
    else
      let p := max (tenPow (-lim)) (min (tenPow lim) (tenPow (sReq x.b - x.s) * m))
      let c := cur x.tone
      (x.tone, x.b, if swap && c.1 == x.b && nearGain p c.2 then c.2 else gainWord p)⟩

/-- R187: the unit-gain SNR of a tone, from its measured SNR and the far gain in use, which is 1 in TRAIN (R265); 0 dB where none was measured. DESIGN
CHOICE: the gain's part is taken to the nearest 0.1 dB, as the SNR is (log 219). -/
def State.unitSnr (s : State) (l : Lane) (t : Nat) : Int :=
  let w := s.dmtWord l 2 t
  let g := if s.inData l then rxGain (s.dmtWord l (s.get .DMT_RX_ACT l) t) else 512
  if w / 2 ^ 15 % 2 = 0 then 0 else (w % 1024 : Nat) - dbTenths (g * g) (512 * 512)

/-- R192 for a lane: `swap` for a bit-swap, whose unchanged gains stay. -/
def State.loading (s : State) (l : Lane) (swap : Bool) : Loading :=
  let cur := fun t => let w := s.dmtWord l (s.get .DMT_RX_ACT l) t; (rxBits w, rxGain w)
  computeLoading (s.unitSnr l) (s.app .DMT_MARGIN l) (s.app .DMT_BITS_CAP l) (s.app .DMT_GAIN_LIM l) swap cur

/-- R193: the loading is rejected. -/
def State.loadingBad (s : State) (l : Lane) (x : Loading) : Bool :=
  x.ratio < tenPow ((s.app .DMT_MARGIN l : Int) - s.app .DMT_SWAP_DELTA l)

/-- R192: M in 0.1 dB. -/
def Loading.margin (x : Loading) : Int := dbTenths x.ratio.num.toNat x.ratio.den

/-- Write the receive half of a table word. -/
def State.setRx (s : State) (l : Lane) (copy tone bits gain : Nat) : State :=
  let w := s.dmtWord l copy tone
  s.setDmt l copy tone (bits % 16 * 2 ^ 28 + gain % 4096 * 2 ^ 16 + w % 2 ^ 16)
/-- Write the transmit half of a table word. -/
def State.setTx (s : State) (l : Lane) (copy tone bits gain : Nat) : State :=
  let w := s.dmtWord l copy tone
  s.setDmt l copy tone (w / 2 ^ 16 * 2 ^ 16 + bits % 16 * 2 ^ 12 + gain % 4096)

end Sys2Proof.Machine
end

