-- ==== Sys2Proof/Machine/Dmt.lean ====
section
/-! DEFINITION. The DMT line mode (R182 to R210): the per-tone equaliser and SNR windows, loadings, the online bit-swap at both
ends, the table window. -/

namespace Sys2Proof.Machine

/-! ### Errors of tones -/

/-- R183 and R265: a tone carries something known or decided: every tone of a training symbol, of a data symbol the pilots, the OHC and the data tones with GAIN ≠ 0. -/
def State.toneActive (s : State) (l : Lane) (t : Nat) : Bool :=
  t == 40 || pilotTones.contains t || (isDataTone t && (!(s.inData l || s.isSet .ACQ_RX_DATA l) || rxGain (s.dmtWord l (s.get .DMT_RX_ACT l) t) != 0))

/-- R136, R176 and R183: the final decisions on frame `f` of the lane's frame sequence, as nine (MSB, LSB) labels: pair f / 640 holds it. -/
def LaneS.finalFrame (x : LaneS) (f : Nat) : Option (List (Bool × Bool)) :=
  (x.finals.find? fun p => p.1 == f / 640 % (3 * 2 ^ 29)).map fun p =>
    ((p.2.drop (9 * (f % 640))).take 9).map fun q => (msbOf q, lsbOf q)

/-- R176, R180 and R183: the final decisions on symbol `idx` in the order of R181, where its 240 frames have all been decided. -/
def State.finalLabels (s : State) (l : Lane) (idx : Nat) : Option (List Bool) :=
  let fs := (List.range 240).map fun k => (s.lane l).finalFrame (240 * idx + k)
  if fs.all Option.isSome then
    let fs := fs.filterMap id
    some (interleaveP fs ++ interleaveU fs)
  else none

/-- R183 and R265: the lane receives data symbols; before, every tone of a training symbol is known. -/
def State.dataSyms (s : State) (l : Lane) : Bool := s.inData l || s.isSet .ACQ_RX_DATA l

/-- R175: what the pilots of symbol `idx` carry at unit gain. -/
def State.pilotsOf (s : State) (l : Lane) (idx : Nat) : Nat → Cx := if s.dataSyms l then pilotRef (pilotBits idx) else trainTone 512 false

/-- R183: the reference of a tone of symbol `idx` at unit gain: known for pilots and monitor tones; for the OHC the decision `ohc`, for data tones the
decoder's final decisions, where there are any. -/
def State.toneRef (s : State) (l : Lane) (idx : Nat) (ohc : Bool) (labels : Option (List Bool)) (t : Nat) : Option Cx :=
  if !s.dataSyms l then some (trainTone 512 ohc t)
  else
    let bits := fun (t : Nat) => rxBits (s.dmtWord l (s.get .DMT_RX_ACT l) t)
    if isDataTone t && bits t != 0 && labels.isNone then none
    else some (dataTone (fun t => (bits t, 512)) (placeBits bits (labels.getD [])) 512 512 (pilotBits idx) false ohc t)

/-- R183: Y and e of each active tone of a symbol. DESIGN CHOICE: a data tone whose symbol the decoder has not decided adds nothing (log 216). -/
def State.toneErrors (s : State) (l : Lane) (idx : Nat) (y : DmtSymbol) : List (Nat × Cx × Cx) :=
  let ys := s.tones l y
  let z := s.zOf l (s.pilotsOf l idx) y
  let ref := s.toneRef l idx (decide ((z.getD 40 (0, 0)).1 < 0)) (s.finalLabels l idx)
  ((List.range 1024).filter (s.toneActive l)).filterMap fun t =>
    (ref t).map fun r => (t, ys.getD t (0, 0), csub (z.getD t (0, 0)) r)

/-- R174 and R183: the symbols of a block, which follow one another every 2,160 samples: the codes of each, the sub-ADC phase of the first code. -/
def blockSymbols (codes : List (List Nat)) (phase : Fin 64) : List DmtSymbol :=
  codes.zipIdx.map fun p => ⟨p.1, ⟨(phase.val + 2160 * p.2) % 64, by omega⟩⟩

/-- R176: symbols that follow one another from index `first`, each with its index. -/
def indexed (first : Nat) (syms : List DmtSymbol) : List (Nat × DmtSymbol) := syms.zipIdx.map fun p => ((first + p.2) % 2 ^ 32, p.1)

/-- The errors of a block from index `first`, symbol by symbol. -/
def State.blockErrors (s : State) (l : Lane) (first : Nat) (syms : List DmtSymbol) : List (List (Nat × Cx × Cx)) :=
  (indexed first syms).map fun p => s.toneErrors l p.1 p.2

/-- R176 and R187: `n` symbols from index `first` have been received. -/
def State.received (s : State) (l : Lane) (first n : Nat) : Bool := 0 ≤ idxAhead (s.symIdx l) ((first + n) % 2 ^ 32)

/-- The entries of one tone over a block. -/
def ofTone (es : List (List (Nat × Cx × Cx))) (t : Nat) : List (Cx × Cx) := es.flatMap fun xs => (xs.filter fun x => x.1 == t).map (·.2)

/-- R183: W of a tone after a block, with A and P; as it stood where P is 0. -/
def feqUpdate (mu : Nat) (w : Cx) (xs : List (Cx × Cx)) : Cx :=
  let a := xs.foldl (fun acc x => cadd acc (cmul x.2 (cconj x.1))) (0, 0)
  let p := (xs.map fun x => cnorm x.1).sum
  if p = 0 then w else csub w (cscale (1 / (2 ^ mu * p)) a)

/-- The mean of |e|² over entries. -/
def meanError (xs : List (Cx × Cx)) : Rat := if xs.isEmpty then 0 else (xs.map fun x => cnorm x.2).sum / xs.length

/-! ### Timing -/

/-- R184: the pilots that timing recovery uses: not those measured below 10.0 dB. -/
def State.pilotsUsed (s : State) (l : Lane) : List Nat :=
  pilotTones.filter fun t => let w := s.dmtWord l 2 t; w / 2 ^ 15 % 2 = 0 || 100 ≤ w % 1024

/-- R184: the timing error of a symbol from the phase slope across the pilots. -/
def State.slopeError (s : State) (l : Lane) (idx : Nat) (y : DmtSymbol) : Int :=
  let ref := s.pilotsOf l idx
  let z := (s.tones l y).zipIdx.map fun p => cmul (feqOf (s.dmtWord l 3 p.2)) p.1
  Config.pilotSlope ((s.pilotsUsed l).map fun t => (t, cmul (z.getD t (0, 0)) (cconj (ref t)))) + s.appS .EQ_MM_BIAS l

/-- R184: LOCK clears when fewer than three pilots remain; a lane in DATA leaves it (R268). -/
def State.checkPilots (s : State) (l : Lane) : State :=
  if 3 ≤ (s.pilotsUsed l).length ∨ !s.isSet .EQ_LOCK l then s
  else (((s.put .EQ_LOCK l 0).flag .EQ_TLOCK_CHG l).put .EQ_LS_MEMBER l 0).leaveData l 2

/-! ### Equaliser blocks and SNR windows -/

/-- R265: two mean square errors differ by less than 0.2 dB. -/
def closeMse (a b : Rat) : Bool := a < tenPow 2 * b && b < tenPow 2 * a

/-- R265: two blocks in a row that change the MSE by less than 0.2 dB end SUBSTATE 1. -/
def State.feqSettled (s : State) (l : Lane) : Bool :=
  match (s.lane l).mse with
  | a :: b :: c :: _ => s.get .ACQ_STATE l == acqTrain && s.get .ACQ_SUBSTATE l == 1 && closeMse a b && closeMse b c
  | _ => false

/-- R183 and R196: the running equaliser block of a lane began with symbol `first` and has `n` symbols, all received; no update waits for its swap. -/
def State.feqReady (s : State) (l : Lane) (first n : Nat) : Bool :=
  (s.lane l).feq.isEmpty && first == (s.lane l).feqFrom && n == 2 ^ s.app .DMT_FEQ_LOG2 l && s.received l first n

/-- R265: SUBSTATE 2 begins with a fresh SNR window. -/
def State.toSnr (s : State) (l : Lane) : State :=
  let n := s.symIdx l
  (s.put .ACQ_SUBSTATE l 2).modLane l fun x => { x with snrFrom := n, snrDone := false }

/-- R183, R184 and R265: the equaliser block of 2^FEQ_LOG2 symbols from index `first` on ends: the Kneader computes ΔW for every active tone and requests a
swap, with which the next block starts; without an update it follows at once. The timing loop has run over its symbols. -/
def execFeqBlockEnd (l : Lane) (codes : List (List Nat)) (phase : Fin 64) (first : W32) (s : State) : Host.Outcome State Fault Refusal :=
  let st := s.get .ACQ_STATE l
  let syms := blockSymbols codes phase
  let n := syms.length
  let first := first.toNat
  if s.lmode l ≠ 3 ∨ (st ≠ acqData ∧ st ≠ acqTrain) ∨ !s.feqReady l first n then done s
  else
    let es := s.blockErrors l first syms
    let us := (indexed first syms).map fun p => s.slopeError l p.1 p.2
    let mu := s.app .DMT_FEQ_MU l
    let upd := ((List.range 1024).filter (s.toneActive l)).map fun t =>
      let w := feqUpdate mu (feqOf (s.dmtWord l 3 t)) (ofTone es t)
      (t, quantiseQ (4096 * w.1), quantiseQ (4096 * w.2))
    let s := if s.isSet .EQ_HOLD l || s.get .EQ_ADAPT l == 3 then s.modLane l fun x => { x with feqFrom := (first + n) % 2 ^ 32 }
      else s.modLane l fun x => { x with feq := upd }
    let mse := meanError (es.flatMap fun xs => xs.map (·.2))
    let s := (s.modLane l fun x => { x with mse := (mse :: x.mse).take 8 }).runLoop l us
    done (if s.feqSettled l then s.toSnr l else s)

/-- R182 and R265 SUBSTATE 0: the shortening taps and the transform window are fixed: with SHORT_AUTO = 1 the part sets the taps, else the applied ones
stand; the window it sets in both. -/
def execDmtShortenComplete (l : Lane) (taps : List Int) (window : BitVec 12) (s : State) : Host.Outcome State Fault Refusal :=
  if s.lmode l ≠ 3 ∨ s.get .ACQ_STATE l ≠ acqTrain ∨ s.get .ACQ_SUBSTATE l ≠ 0 then done s
  else
    let s := if s.appSet .ACQ_SHORT_AUTO l then
        s.each (List.range 16) fun s j => s.putApp .DMT_SF_SHADOW (l * 16 + j) (ofSigned 16 (taps.getD j 0))
      else s
    let n := s.symIdx l
    done ((s.put .ACQ_SUBSTATE l 1).modLane l fun x => { x with mse := [], window := window.toNat, feqFrom := n })

/-- R194: the margin of a loaded tone. -/
def State.toneMargin (s : State) (l : Lane) (t : Nat) : Int :=
  (s.dmtWord l 2 t % 1024 : Nat) - sReq (rxBits (s.dmtWord l (s.get .DMT_RX_ACT l) t))

/-- R187 and R205: LOADED, MIN_MARGIN, MIN_TONE, MEAN_MARGIN and the mean SNR of the loaded tones. DESIGN CHOICE: of tones with the same margin
MIN_TONE names the lowest, the margins saturate at −12.8 and +12.7 dB, and without a loaded tone MIN_MARGIN, MIN_TONE, MEAN_MARGIN and SNR keep what they
read before (log 217). -/
def State.summarise (s : State) (l : Lane) : State :=
  let copy := s.get .DMT_RX_ACT l
  let loaded := dataTones.filter fun t => 0 < rxBits (s.dmtWord l copy t)
  let worst := loaded.foldl (fun (o : Option (Nat × Int)) t =>
    let m := s.toneMargin l t
    match o with
    | none => some (t, m)
    | some p => if m < p.2 then some (t, m) else some p) none
  let s := s.put .DMT_LOADED l loaded.length
  match worst with
  | none => s
  | some p =>
    let mean := quantise ((loaded.map (s.toneMargin l)).sum) loaded.length
    let snr := quantise ((loaded.map fun t => ((s.dmtWord l 2 t % 1024 : Nat) : Int)).sum) loaded.length
    let s := (s.putS .DMT_MIN_MARGIN l (clampInt (-128) 127 p.2)).put .DMT_MIN_TONE l p.1
    (s.putS .DMT_MEAN_MARGIN l (clampInt (-128) 127 mean)).put .EQ_SNR l snr.toNat

/-- R195: the RE begins a bit-swap; its loading is computed next. -/
def State.beginSwap (s : State) (l : Lane) (fromHost : Bool) (cmd : Option Cmd) : State :=
  let s := s.modLane l fun x => { x with rxSwap := some ⟨0, [], fromHost, false, false, cmd⟩, swapRetry := false }
  s.put .DMT_PEND_RX l 1

/-- R187 and R210: SNR of a tone in 0.1 dB. DESIGN CHOICE: it reads 0 below 0 dB and 1,023 above 102.3 dB. -/
def toneSnr (mse : Rat) : Nat := (clampInt 0 1023 (dbTenths mse.den mse.num.natAbs)).toNat

/-- R187: table 2 after a window: the SNR of every active tone, VALID = 0 for the others. -/
def State.putSnrs (s : State) (l : Lane) (es : List (List (Nat × Cx × Cx))) : State :=
  s.each (List.range 1024) fun s t =>
    s.setDmt l 2 t (if s.toneActive l t then 2 ^ 15 + toneSnr (meanError (ofTone es t)) else 0)

/-- R194: the loaded tones whose margin is below MARGIN − SWAP_DELTA. -/
def State.lowTones (s : State) (l : Lane) : List Nat :=
  let bound : Int := (s.app .DMT_MARGIN l : Int) - s.app .DMT_SWAP_DELTA l
  dataTones.filter fun t => 0 < rxBits (s.dmtWord l (s.get .DMT_RX_ACT l) t) && s.toneMargin l t < bound

/-- R194: an automatic trigger. DESIGN CHOICE: the same tone is low in both windows, and TRIGGER of a trigger that is held sets when it is
released. -/
def State.trigger (s : State) (l : Lane) : State :=
  if (s.lane l).rxSwap.isSome || s.isSet .EQ_HOLD l then s.modLane l fun x => { x with trigHeld := true }
  else (s.flag .DMT_TRIGGER l).beginSwap l false none

/-- R187 and R194: an SNR window of 2^SNR_LOG2 symbols ends, and the next begins with the symbol after it; in DATA the second window in a row with a low
loaded tone triggers a bit-swap. -/
def execSnrWindowEnd (l : Lane) (syms : List DmtSymbol) (s : State) : Host.Outcome State Fault Refusal :=
  let st := s.get .ACQ_STATE l
  let first := (s.lane l).snrFrom
  let n := syms.length
  if s.lmode l ≠ 3 ∨ (st ≠ acqData ∧ st ≠ acqTrain) ∨ n ≠ 2 ^ s.app .DMT_SNR_LOG2 l ∨ !s.received l first n then done s
  else
    let s := (s.putSnrs l (s.blockErrors l first syms)).modLane l fun x => { x with snrFrom := (first + n) % 2 ^ 32, snrDone := true }
    let s := (s.summarise l).checkPilots l
    if !s.inData l then done s
    else
      let low := s.lowTones l
      let fire := s.appSet .DMT_SWAP_AUTO l && !(s.lane l).suspended && low.any fun t => (s.lane l).low.contains t
      let s := s.modLane l fun x => { x with low := low }
      done (if fire then s.trigger l else s)

/-! ### Bit-swap, receiving end -/

/-- R194, R198 and R413: a trigger that was held starts when nothing holds it any more: no swap of the direction is pending, the Kneader serves, triggers are
not suspended. -/
def State.releaseTrigger (s : State) (l : Lane) : State :=
  if (s.lane l).trigHeld && (s.lane l).rxSwap.isNone && !s.isSet .EQ_HOLD l && !(s.lane l).suspended && s.inData l then
    ((s.modLane l fun x => { x with trigHeld := false }).flag .DMT_TRIGGER l).beginSwap l false none
  else s

/-- The swap of the receive direction ends without more effect; a command completes. -/
def State.dropSwap (s : State) (l : Lane) (r : Res) : State :=
  let cmd := (s.lane l).rxSwap.bind (·.cmd)
  let s := (s.modLane l fun x => { x with rxSwap := none }).put .DMT_PEND_RX l 0
  match cmd with
  | some c => s.complete c r
  | none => s

/-- R198: the swap fails: SWAP_FAIL, counted, retried 1 ms later; after the third failure in a row automatic triggers are suspended with one WARN
event. A trigger that was held starts now, or when the suspension ends (R194). -/
def State.swapFail (s : State) (l : Lane) (reason : Nat) : State :=
  let s := s.dropSwap l (.rejected reason)
  let s := (s.flag .DMT_SWAP_FAIL l).incSat .DMT_SWAP_FAIL_CNT l
  let n := (s.lane l).swapFails + 1
  if 3 ≤ n then
    let s := s.modLane l fun x => { x with swapFails := 0, suspended := true, swapRetry := true, clk.failAt := s.ticks l.half, clk.suspAt := s.ticks l.half }
    s.raise l.half { sev := 2, code := 0x0207, scope := 4, id := l, d0 := 0 }
  else (s.modLane l fun x => { x with swapFails := n, swapRetry := true, clk.failAt := s.ticks l.half }).releaseTrigger l

/-- R193: a loading is rejected. -/
def State.loadFail (s : State) (l : Lane) (m : Int) : State :=
  (s.flag .DMT_LOAD_FAIL l).raise l.half { sev := 2, code := 0x0206, scope := 4, id := l, d0 := ofSigned 32 m }

/-- R195 step 2: S, the first multiple of 8 at or after SYM_IDX plus SWAP_LEAD. -/
def State.swapIndex (s : State) (l : Lane) : Nat := (s.symIdx l + 1024 * s.app .DMT_SWAP_LEAD l + 7) / 8 * 8 % 2 ^ 32

/-- R256: the payload of SWAP_REQ. -/
def swapReqPayload (S seq : Nat) (ch : List (Nat × Nat × Nat)) : List (BitVec 8) :=
  bytesOf 4 S ++ bytesOf 4 (seq % 256 * 2 ^ 16 + ch.length)
    ++ ch.flatMap fun e => bytesOf 4 (e.1 * 2 ^ 22 + e.2.1 * 2 ^ 18 + e.2.2)

/-- R195: the receive loading of a copy as (tone, bits, gain), every tone. -/
def State.rxWords (s : State) (l : Lane) (copy : Nat) : List (Nat × Nat × Nat) :=
  (List.range 1024).map fun t => let w := s.dmtWord l copy t; (t, rxBits w, rxGain w)

/-- R195 steps 2 and 3: the request goes out with S and the tones that differ from the in-use half. -/
def State.requestSwap (s : State) (l : Lane) (new : List (Nat × Nat × Nat)) : State :=
  let act := s.get .DMT_RX_ACT l
  let ch := new.filter fun e => let w := s.dmtWord l act e.1; e.2.1 ≠ rxBits w || e.2.2 ≠ rxGain w
  let S := s.swapIndex l
  let seq := ((s.lane l).seq + 1) % 256
  let s := s.modLane l fun x => { x with
    seq := seq, rxSwap := x.rxSwap.map fun w => { w with s := S, sent := true, loading := ch.map fun e => (e.1, e.2.2) } }
  s.sendFrame l 0x06 0 seq (swapReqPayload S seq ch)

/-- R266: the payload of LOAD. -/
def loadPayload (word : Nat → Nat) : List (BitVec 8) := (List.range 1024).flatMap fun t => bytesOf 2 (word t)

/-- R266: the receiving end sends its loading, with the SEQ of the attempt. -/
def State.sendLoad (s : State) (l : Lane) : State :=
  let act := s.get .DMT_RX_ACT l
  let s := s.modLane l fun x => { x with clk.loadAt := s.ticks l.half }
  s.sendFrame l 0x04 0 (s.lane l).seq (loadPayload fun t => let w := s.dmtWord l act t; rxBits w * 4096 + rxGain w)

/-- R192, R193, R195, R265: the loading that a bit-swap or SUBSTATE 2 waits for, after a window of R187, has been computed. -/
def execLoadingComputed (l : Lane) (s : State) : Host.Outcome State Fault Refusal :=
  if s.lmode l ≠ 3 then done s
  else if s.get .ACQ_STATE l = acqTrain ∧ s.get .ACQ_SUBSTATE l = 2 ∧ (s.lane l).snrDone then
    let x := s.loading l false
    if s.loadingBad l x then done ((s.loadFail l x.margin).toSnr l)
    else
      let act := s.get .DMT_RX_ACT l
      let s := (s.each x.words fun s e => s.setRx l act e.1 e.2.1 e.2.2).summarise l
      let s := s.modLane l fun y => { y with seq := (y.seq + 1) % 256, loadTries := 1 }
      done ((s.put .ACQ_SUBSTATE l 3).sendLoad l)
  else
    match (s.lane l).rxSwap with
    | none => done s
    | some w =>
      if w.sent then done s
      else if w.fromHost then
        let other := 1 - s.get .DMT_RX_ACT l
        done (if s.rxValid l other then s.requestSwap l (s.rxWords l other) else s.swapFail l 0x20)
      else
        let x := s.loading l true
        if s.loadingBad l x then done (((s.loadFail l x.margin).dropSwap l (.rejected 0x21)).releaseTrigger l)
        else
          let other := 1 - s.get .DMT_RX_ACT l
          let s := s.each (s.rxWords l (s.get .DMT_RX_ACT l)) fun s e => s.setRx l other e.1 e.2.1 e.2.2
          let s := s.each x.words fun s e => s.setRx l other e.1 e.2.1 e.2.2
          done (s.requestSwap l x.words)

/-- R195 step 5, R198: the answer of the transmitting end. -/
def execSwapRespReceive (l : Lane) (fr : AcqFrame) (s : State) : Host.Outcome State Fault Refusal :=
  if !s.receives l then done s
  else
    let r := s.endBody l fr
    let s := r.1
    match (s.lane l).rxSwap with
    | none => done s
    | some w =>
      if !r.2 || !s.inData l || fr.type != 0x07 || !w.sent || payloadNum fr.payload 0 4 != w.s then done s
      else if fr.arg = 0 then done (s.modLane l fun x => { x with rxSwap := some { w with acked := true } })
      else done (s.swapFail l (if fr.arg = 1 then 0x22 else if fr.arg = 2 then 0x23 else 0x24))

/-- R196 and R266: W of a tone is scaled by the ratio of the old to the new RX_GAIN. DESIGN CHOICE: for a new gain of 0 there is no ratio, and W stays
(log 218). -/
def State.rescale (s : State) (l : Lane) (t old new : Nat) : State :=
  if new = 0 then s
  else
    let w := s.dmtWord l 3 t
    s.setDmt l 3 t (feqWord (quantise (toSigned 16 w * old) new) (quantise (toSigned 16 (w / 2 ^ 16) * old) new))

/-- R196: of symbols that end with index `last`, how many show a negative correlation of the received pilots with their expected values. -/
def State.invertedPilots (s : State) (l : Lane) (last : Nat) (syms : List DmtSymbol) : Nat :=
  let first := last + 2 ^ 32 + 1 - syms.length % 2 ^ 32
  (syms.zipIdx.filter fun p =>
    let ref := pilotRef (pilotBits ((first + p.2) % 2 ^ 32))
    let z := (s.tones l p.1).zipIdx.map fun q => cmul (feqOf (s.dmtWord l 3 q.2)) q.1
    decide ((pilotCorr ref z).1 < 0)).length

/-- R196: the RE switches at S, from which SNR window and equaliser block start anew. -/
def State.rxSwitch (s : State) (l : Lane) (w : RxSwap) : State :=
  let s := (s.abandonHandover l).abandonSlice l
  let act := s.get .DMT_RX_ACT l
  let s := s.each w.loading fun s e => s.rescale l e.1 (rxGain (s.dmtWord l act e.1)) e.2
  let s := (s.put .DMT_RX_ACT l (1 - act)).summarise l
  let s := s.modLane l fun x => { x with feq := [], low := [], mse := [], swapFails := 0, feqFrom := w.s, snrFrom := w.s, switched := some w.s }
  let s := ((s.flag .DMT_SWAP_RX l).put .DMT_LAST_RX l w.s).inc .DMT_SWAP_CNT l
  (s.dropSwap l (.ok w.s 0)).releaseTrigger l

/-- R196: a pilot inversion on five or more of the symbols that end now, with no swap pending, sets FLAG_UNEXP. -/
def execPilotFlagUnexpected (l : Lane) (syms : List DmtSymbol) (s : State) : Host.Outcome State Fault Refusal :=
  if s.lmode l = 3 ∧ s.inData l ∧ (s.lane l).rxSwap.isNone ∧ 5 ≤ s.invertedPilots l (s.symIdx l + 2 ^ 32 - 1) syms then
    done (s.flag .DMT_FLAG_UNEXP l)
  else done s

/-- R198: 1 ms after a failure the RE tries again with a fresh loading. -/
def execBitswapRetry (l : Lane) (s : State) : Host.Outcome State Fault Refusal :=
  if (s.lane l).swapRetry && (s.lane l).clk.failAt + msTicks 1 ≤ s.ticks l.half && s.inData l && (s.lane l).rxSwap.isNone then done (s.beginSwap l false none) else done s

/-- R198: the suspension of 1 s ends; a trigger held meanwhile starts. -/
def execSwapSuspendEnd (l : Lane) (s : State) : Host.Outcome State Fault Refusal :=
  if (s.lane l).suspended ∧ (s.lane l).clk.suspAt + msTicks 1000 ≤ s.ticks l.half then
    done ((s.modLane l fun x => { x with suspended := false }).releaseTrigger l)
  else done s

/-! ### Bit-swap, transmitting end -/

/-- R256: the entries of a SWAP_REQ as (tone, bits, gain). -/
def swapEntries (p : List (BitVec 8)) : List (Nat × Nat × Nat) :=
  (List.range (payloadNum p 4 4 % 2 ^ 16)).map fun i =>
    let w := payloadNum p (8 + 4 * i) 4
    (w / 2 ^ 22, w / 2 ^ 18 % 16, w % 4096)

/-- R195 step 4: the TE transmits symbol S − 8 at least 2 µs from the end of the request, `ago` ticks before now. -/
def State.swapInTime (s : State) (l : Lane) (S ago : Nat) : Bool :=
  let since := s.ticks l.half - (s.lane l).txTick
  let n := since * 5 / 12
  5 * (since + 500 - ago : Int) ≤ 12 * (n + idxAhead ((S + 2 ^ 32 - 8) % 2 ^ 32) (n % 2 ^ 32))

/-- R195 step 4: the TE checks the request and answers: BUSY while a swap of the direction is pending, INVALID, LATE, or an acknowledgement. DESIGN
CHOICE: where several reasons hold, the first of these goes out. -/
def execSwapReqReceive (l : Lane) (fr : AcqFrame) (ago : Nat) (s : State) : Host.Outcome State Fault Refusal :=
  if !s.receives l then done s
  else
    let r := s.endBody l fr
    let s := r.1
    if !r.2 || !s.inData l || s.lmode l != 3 || fr.type != 0x06 then done s
    else
      let S := payloadNum fr.payload 0 4
      let es := swapEntries fr.payload
      let act := s.get .DMT_TX_ACT l
      let find := fun t => es.find? fun e => e.1 == t
      let bits := fun t => ((find t).map (·.2.1)).getD (txBits (s.dmtWord l act t))
      let gain := fun t => ((find t).map (·.2.2)).getD (txGain (s.dmtWord l act t))
      let arg := if (s.lane l).txSwap.isSome then 3 else if !loadingValid bits gain then 1 else if !s.swapInTime l S ago then 2 else 0
      let s := s.sendFrame l 0x07 arg (s.lane l).seq (bytesOf 4 S)
      if arg ≠ 0 then done s
      else
        let s := s.each (List.range 1024) fun s t => s.setTx l (1 - act) t (bits t) (gain t)
        let s := s.modLane l fun x => { x with txSwap := some (S, es.map fun e => (e.1, e.2.1)) }
        done (s.put .DMT_PEND_TX l 1)

/-! ### The table window -/

/-- R209: TONE after an access. -/
def State.windowStep (s : State) (g : Group) : State :=
  if s.isSet .DTW_AUTO_INC g then s.put .DTW_TONE g ((s.get .DTW_TONE g + 1) % 1024) else s

def State.windowLane (s : State) (g : Group) : Lane := g.lane ⟨s.get .DTW_LANE g % 8, by omega⟩

/-- R209 and R190: a write through the table window; a half in use in DATA is kept, and ACT_WRITE sets. -/
def State.tableWrite (s : State) (g : Group) (v : Nat) : State :=
  let l := s.windowLane g
  let table := s.get .DTW_TABLE g
  let tone := s.get .DTW_TONE g
  if 2 ≤ table then s.windowStep g
  else
    let data := s.inData l
    let rxUse := data && s.get .DMT_RX_ACT l == table
    let txUse := data && s.get .DMT_TX_ACT l == table
    let old := s.dmtWord l table tone
    let hi := if rxUse then old / 2 ^ 16 else v / 2 ^ 16
    let lo := if txUse then old % 2 ^ 16 else v % 2 ^ 16
    let s := s.setDmt l table tone (hi * 2 ^ 16 + lo)
    let s := if s.get .DMT_RX_ACT l = table then s.summarise l else s
    (if rxUse || txUse then s.flag .DMT_ACT_WRITE l else s).windowStep g

def execTableWindowWrite (g : Group) (v : W32) (s : State) : Host.Outcome State Fault Refusal :=
  done (s.hostWrite g.half fun s => s.tableWrite g v.toNat)

/-- R209: a read through the table window. -/
def windowOff (g : Group) : Nat := 0x10000 * (1 + g.val % 3) + 0x104

def State.tableRead (s : State) (g : Group) : State :=
  (s.emit (.read g.half (windowOff g) (s.dmtWord (s.windowLane g) (s.get .DTW_TABLE g) (s.get .DTW_TONE g)))).windowStep g

def execTableWindowRead (g : Group) (s : State) : Host.Outcome State Fault Refusal :=
  done (s.hostRead g.half (windowOff g) fun s => s.tableRead g)

end Sys2Proof.Machine
end

