-- ==== Sys2Proof/Machine/Acquisition.lean ====
section
/-! DEFINITION. Line acquisition (R247 to R275): reception of acquisition frames, LINK, TRAIN in the PAM modes and in LM400D, the
start of data in each direction, timeouts. -/

namespace Sys2Proof.Machine

/-! ### Reception -/

/-- R253: the carriers: the lane trains or runs on C3. -/
def State.onC3 (s : State) (l : Lane) : Bool :=
  s.lmode l == 3 && (s.get .ACQ_STATE l == acqTrain || s.inData l)

/-- R253: the greatest LEN of a frame type; SWAP_REQ holds an entry for each tone at most. -/
def typeLen (t : Nat) : Option Nat :=
  match t with
  | 1 => some 12 | 2 => some 4 | 3 => some 14 | 4 => some 2048 | 5 => some 4 | 6 => some (8 + 4 * 1024) | 7 => some 4
  | _ => none

/-- R253 and R257: the greatest LEN on the carrier of the reception under way: CAP on C1, 80 bytes on C2, on C3 LOAD in TRAIN and SWAP_REQ in DATA. -/
def State.carrierLen (s : State) (l : Lane) : Nat :=
  if (s.lane l).rxC3 then (if s.inData l then 8 + 4 * 1024 else 2048)
  else if s.get .ACQ_STATE l = acqTrain ∧ s.lmode l ≠ 3 then 80
  else 12

/-- R257: a header names more payload than R253 gives its type, or than the carrier takes. -/
def State.tooLong (s : State) (l : Lane) (type len : Nat) : Bool := min ((typeLen type).getD (s.carrierLen l)) (s.carrierLen l) < len

/-- R257: C of 256 bit values against the preamble, and the sum of their squares. -/
def correlate (xs : List Int) : Int × Int :=
  let p := preamble.zip xs
  ((p.map fun e => if e.1 then e.2 else -e.2).sum, (p.map fun e => e.2 * e.2).sum)

/-- R257: C² / (256 × Σx²). -/
def corrValue (xs : List Int) : Rat := let c := correlate xs; (c.1 * c.1 : Rat) / (256 * c.2)

/-- R257: the correlator fires on the middle of 260 bit values: its value reaches DET_THR / 256 and is the largest within ±2 bits. -/
def State.fires (s : State) (l : Lane) (xs : List Int) : Bool :=
  let v := fun (j : Nat) => corrValue ((xs.drop j).take 256)
  (s.app .ACQ_DET_THR l : Rat) / 256 ≤ v 2 && [0, 1, 3, 4].all fun j => v j ≤ v 2

/-- R257: |C| / (256 × FS): FS is 8,188 on C1 and C2, and 1.0 on C3, whose bit values have LSB 2^-12. -/
def corrMetric (c3 : Bool) (xs : List Int) : Rat :=
  ((correlate ((xs.drop 2).take 256)).1.natAbs : Rat) / (256 * if c3 then 4096 else 8188)

/-- R257: a metric lies at least 3.0 dB above another: the square of their ratio is at least 10^0.3. -/
def threeDbAbove (a b : Rat) : Bool := tenPow 30 * (b * b) ≤ a * a

/-- R258: the level of a preamble: the mean x² on C1 and C2, the power of the pilots on C3. -/
def preambleLevel (c3 : Bool) (xs : List Int) (pilot : Nat) : Rat :=
  if c3 then pilot else (correlate ((xs.drop 2).take 256)).2 / 256

/-- R248 and R265: what the lane listens to: C3 in LM400D, and C1 or C2; C1 too in TRAIN of LM400D. -/
def State.listens (s : State) (l : Lane) (c3 : Bool) : Bool := if c3 then s.onC3 l else !(s.lmode l == 3 && s.inData l)

/-- R257: bit values reach the correlator, 260 of them around the bit position: where it fires, SEARCH enters HEADER; HEADER restarts on a candidate
at least 3.0 dB stronger; BODY ignores it. -/
def execPreambleDetect (l : Lane) (rx : PreambleRx) (s : State) : Host.Outcome State Fault Refusal :=
  let x := s.lane l
  if !s.receives l || x.stopped || !s.listens l rx.c3 || !s.fires l rx.xs then done s
  else
    let mc := corrMetric rx.c3 rx.xs
    let take := fun (s : State) => s.modLane l fun x =>
      { x with phase := .header, rxC3 := rx.c3, mc := mc, level := preambleLevel rx.c3 rx.xs rx.pilot }
    match x.phase with
    | .search => done (take s)
    | .header => if threeDbAbove mc x.mc then done ((take s).incSat .ACQ_RESTART l) else done s
    | .body => done s

/-- R252 and R257: the sync word and the header are complete. -/
def execHeaderReceive (l : Lane) (sync : W32) (hdr : BitVec 64) (s : State) : Host.Outcome State Fault Refusal :=
  if (s.lane l).phase ≠ .header then done s
  else
    let back := s.modLane l fun x => { x with phase := .search }
    if !syncOk sync then done (back.incSat .ACQ_FALSE_DET l)
    else if !headerOk hdr then done (back.incSat .ACQ_HDR_FAIL l)
    else if s.tooLong l (hdr.toNat / 2 ^ 56) (hdr.toNat / 2 ^ 16 % 4096) then done back
    else done (s.modLane l fun x => { x with phase := .body, hdr := hdr.toNat })

/-- R258: the level of a block: the mean x² of 64 bits on C1 and C2, the mean pilot power of 8 symbols on C3. -/
def blockLevel (c3 : Bool) (block : List Int) : Rat :=
  (if c3 then (block.take 8).sum else ((block.take 64).map fun x => x * x).sum : Int) / (if c3 then 8 else 64)

/-- R258: two levels differ by more than 6.0 dB. -/
def levelStep (a b : Rat) : Bool := tenPow 60 * a < b || tenPow 60 * b < a

/-- R258: a block whose level differs by more than 6.0 dB from that of the preamble aborts the reception; on C1 and C2 SEARCH waits for
SEARCH_RESUME. -/
def execReceptionLevelAbort (l : Lane) (block : List Int) (s : State) : Host.Outcome State Fault Refusal :=
  let x := s.lane l
  if x.phase = .search ∨ !levelStep (blockLevel x.rxC3 block) x.level then done s
  else done ((s.modLane l fun y => { y with phase := .search, stopped := !x.rxC3 }).incSat .ACQ_PSTEP_ABORT l)

/-- R258: the level error has stayed within ±1.5 dB for 2 µs: SEARCH resumes. -/
def execSearchResume (l : Lane) (s : State) : Host.Outcome State Fault Refusal :=
  done (s.modLane l fun x => { x with stopped := false })

/-- R253: a frame of an unlisted type, or of a state that the table does not list for its type. -/
def State.unlisted (s : State) (l : Lane) (type : Nat) : Bool :=
  let st := s.get .ACQ_STATE l
  !(match type with
    | 1 => st == acqLink || st == acqTrain
    | 2 => st == acqTrain || (st == acqLink && (s.lane l).matched)
    | 3 => st == acqTrain && s.lmode l != 3
    | 4 | 5 => st == acqTrain && s.lmode l == 3
    | 6 | 7 => st == acqData && s.lmode l == 3
    | _ => false)

/-- R253: such a frame is discarded after its CRC-32 check. -/
def execUnlistedFrameReceive (l : Lane) (fr : AcqFrame) (s : State) : Host.Outcome State Fault Refusal :=
  if s.receives l && s.unlisted l fr.type.toNat then done (s.endBody l fr).1 else done s

/-! ### LINK -/

/-- R254: DEV_TAG of a half. -/
def State.devTag (s : State) (h : Half) : Nat := Config.devTag h (s.half h).tag % 2 ^ 32

/-- R254: bytes 0 to 3 of a lane's own CAP. -/
def State.capWord (s : State) (l : Lane) : Nat :=
  let p := (s.portOf l).getD l
  0x010F0000 + (s.lmode l * 64 + s.app .FEC_FEC_MODE l % 2 * 32 + s.get .ACQ_PEER_SEEN l * 16) * 2 ^ 8
    + (s.app .PORT_RATE p * 32 + posInPort p l * 4)

/-- R254: the CAP payload. -/
def State.capPayload (s : State) (l : Lane) : List (BitVec 8) :=
  bytesOf 4 (s.capWord l) ++ bytesOf 4 (s.devTag l.half) ++ bytesOf 4 (l.val * 2 ^ 24)

/-- R260: a CAP frame every 1 µs in LINK. -/
def execCapFrameSend (l : Lane) (s : State) : Host.Outcome State Fault Refusal :=
  if s.get .ACQ_STATE l ≠ acqLink ∨ s.kndOut l.acqKnd then done s
  else
    let s := s.sendFrame l 1 0 (s.lane l).seq (s.capPayload l)
    done (s.modLane l fun x => { x with caps := if x.seen then x.caps + 1 else x.caps })

/-- R260: a frame is the lane's own signal. -/
def State.ownSignal (s : State) (l : Lane) (p : List (BitVec 8)) : Bool :=
  payloadNum p 4 4 == s.devTag l.half && payloadNum p 8 1 == l.val

/-- R260 and R272: the first item of the match that fails; 0 when the CAP matches. -/
def State.capFault (s : State) (l : Lane) (p : List (BitVec 8)) : Nat :=
  let port := (s.portOf l).getD l
  if payloadNum p 0 1 ≠ 1 then 1
  else if ¬ (payloadNum p 1 1).testBit (s.lmode l) then 2
  else if payloadNum p 2 1 / 64 ≠ s.lmode l then 3
  else if payloadNum p 3 1 / 32 ≠ s.app .PORT_RATE port then 4
  else if payloadNum p 3 1 / 4 % 8 ≠ posInPort port l then 5
  else if s.ownSignal l p && !s.appSet .ACQ_LOOP_OK l then 6
  else 0

/-- R260: a CAP that does not match. -/
def State.capMismatch (s : State) (l : Lane) (item : Nat) : State :=
  let was := s.get .ACQ_MISMATCH l
  let s := (s.flag .ACQ_CAP_MISMATCH l).put .ACQ_MISMATCH l item
  if was = item then s else s.raise l.half { sev := 2, code := 0x020F, scope := 4, id := l, d0 := item }

/-- R259, R260, R268, R273: a CAP frame. In TRAIN a matching one with PEER_SEEN = 0 returns the lane to LINK. -/
def execCapFrameReceive (l : Lane) (fr : AcqFrame) (s : State) : Host.Outcome State Fault Refusal :=
  if !s.receives l then done s
  else
    let r := s.endBody l fr
    let s := r.1
    if !r.2 || fr.type != 0x01 || s.unlisted l 1 then done s
    else
      let p := fr.payload
      let s := if s.ownSignal l p then (s.put .ACQ_LOOPBACK l 1).flag .ACQ_LOOPBACK_EVT l else s
      let bad := s.capFault l p
      if bad ≠ 0 then done (s.capMismatch l bad)
      else
        let s := ((s.put .ACQ_PEER_CAP l (payloadNum p 0 4)).put .ACQ_PEER_TAG l (payloadNum p 4 4)).put .ACQ_PEER_LANE l
          (payloadNum p 8 1)
        let seen := (payloadNum p 2 1).testBit 4
        if s.get .ACQ_STATE l = acqTrain then done (if seen then s else s.toLink l)
        else done ((s.put .ACQ_PEER_SEEN l 1).modLane l fun x =>
          { x with partner := x.partner.or (some (payloadNum p 4 4, payloadNum p 8 1)), matched := true, seen := x.seen || seen })

/-- R249, R261, R265 and R268: entry to TRAIN: C1 ends, and in LM400D training symbols leave from now on. A lane without SIG_DET returns to LINK. -/
def State.startTrain (s : State) (l : Lane) : State :=
  let s := (s.runC1 l).toTrain l
  if s.isSet .FE_SIG_DET l then s else s.toLink l

/-- R260: a matching CAP with PEER_SEEN = 1 and eight further CAP frames sent: TRAIN; not while the acquisition Kneader is out of service (R413). -/
def execEnterTrain (l : Lane) (s : State) : Host.Outcome State Fault Refusal :=
  if s.get .ACQ_STATE l = acqLink ∧ (s.lane l).seen ∧ 8 ≤ (s.lane l).caps ∧ ¬ s.kndOut l.acqKnd then done (s.startTrain l) else done s

/-- R260: 1 s in LINK without a matching CAP: one NOTICE event for the entry. -/
def execLinkWaitTimer (l : Lane) (s : State) : Host.Outcome State Fault Refusal :=
  if s.get .ACQ_STATE l = acqLink ∧ ¬ (s.lane l).matched ∧ ¬ (s.lane l).noticed ∧ (s.lane l).start + msTicks 1000 ≤ s.ticks l.half then
    let s := s.modLane l fun x => { x with noticed := true }
    done (s.raise l.half { sev := 1, code := 0x0210, scope := 4, id := l })
  else done s

/-! ### TRAIN -/

/-- R93: the taps meet Σ|ck| ≤ 1.0. -/
def firOk (taps : List Nat) : Bool := (taps.map fun t => (toSigned 12 t).natAbs).sum ≤ 1024

/-- R262 and R95: at the first block at least 200 ns after it the partner's PRESET is acted on: applied, or refused. -/
def State.actOnPreset (s : State) (l : Lane) : State :=
  match (s.lane l).apply with
  | none => s
  | some p =>
    if s.ticks l.half < (s.lane l).applyAt + 50 then s
    else
      let ok := s.appSet .ACQ_REMOTE_FIR l && s.lmode l == 2 && firOk p.2
      let s := s.modLane l fun x => { x with apply := none, appliedSeq := p.1, refused := !ok }
      if ok then s.each (List.range 7) fun s k => s.putApp .EQ_TXF_SHADOW (l * 7 + k) (p.2.getD k 0) else s

/-- R266: the DMT symbol that follows the last bit of a STATUS which joins C3 now, behind what waits there: 32 idle bits and the 416 of the frame. -/
def State.afterStatus (s : State) (l : Lane) : Nat := symbolsAt (s.ticks l.half) + (s.lane l).ohc.length + 448

/-- R255: the STATUS payload; in LM400D with GO = 1 the distance D from the symbol after its last bit to the first data symbol (R266). -/
def State.statusWord (s : State) (l : Lane) : Nat :=
  let x := s.lane l
  let go := match x.count with
    | some c => 2 ^ 30 + (if s.lmode l = 3 then 0 else c.1 % 8) * 2 ^ 27 + (if s.lmode l = 3 then c.2 - s.afterStatus l else c.2) % 8192 * 2 ^ 14
    | none => 0
  s.get .ACQ_RX_READY l * 2 ^ 31 + go + x.appliedSeq % 256 * 2 ^ 6 + (if x.refused then 32 else 0)

def State.sendStatus (s : State) (l : Lane) : State :=
  let p := ((s.lane l).seq, bytesOf 4 (s.statusWord l))
  (s.modLane l fun x => { x with lastStatus := some p }).sendFrame l 2 0 p.1 p.2

/-- R413: while the lane's acquisition Kneader is out of service the carrier repeats the last STATUS frame, or sends idle fill. -/
def State.repeatStatus (s : State) (l : Lane) : State :=
  match (s.lane l).lastStatus with
  | some p => s.sendFrame l 2 0 p.1 p.2
  | none => if s.lmode l = 3 then s else s.sendC2 l []

/-- R256: the PRESET payload: seven taps, sign-extended to 16 bits. -/
def presetPayload (taps : List Nat) : List (BitVec 8) :=
  (List.range 7).flatMap fun k => bytesOf 2 (ofSigned 16 (toSigned 12 (taps.getD k 0)))

/-- R262: in LM400T a receiver with no PRESET pending, not yet ready and with no countdown under way may ask for taps. -/
def State.mayPreset (s : State) (l : Lane) : State :=
  let x := s.lane l
  if s.lmode l = 2 ∧ x.preset.isNone ∧ x.count.isNone ∧ ¬ s.isSet .ACQ_RX_READY l then
    let d := s.draw
    match Config.presetWish d.1 with
    | some taps => d.2.modLane l fun x => { x with seq := (x.seq + 1) % 256, preset := some ((x.seq + 1) % 256, taps) }
    | none => d.2
  else s

/-- R220 and R264: the further training symbols after eight blocks from a UI on, so that data starts with a pair on the round grid of the port: a pair is
5,760 UI. DESIGN CHOICE: no rule places that grid; here it runs from tick 0 of the half (log 215). -/
def gridFill (ui : Nat) : Nat := (5760 - (ui + 8 * 65536) % 5760) % 5760

/-- R264: the countdown: it starts at the first block after a STATUS with RX_READY = 1, and steps at each block. The block starts `ui` UI into the tick;
at 225 GBd a tick has 900. FILL is 0 in LM100 and LM200. -/
def State.stepCountdown (s : State) (l : Lane) (ui : Nat) : State :=
  let fill := if s.lmode l = 2 then gridFill (900 * s.ticks l.half + ui % 900) else 0
  s.modLane l fun x =>
    { x with count := match x.count with
        | some c => some (c.1 - 1, c.2)
        | none => if x.go && !s.isSet .ACQ_TX_DATA l then some (7, fill) else none }

/-- R261: the slot of a block: PRESET while one is pending, alternating with STATUS, else STATUS; a countdown sends STATUS. -/
def State.sendSlot (s : State) (l : Lane) : State :=
  let x := s.lane l
  match x.preset with
  | some p =>
    if x.presetSlot || x.count.isSome then (s.sendStatus l).modLane l fun x => { x with presetSlot := false }
    else (s.sendFrame l 3 0 p.1 (presetPayload p.2)).modLane l fun x => { x with presetSlot := true }
  | none => s.sendStatus l

/-- R265 and R266: a gap on C3: STATUS fills it. -/
def State.fillGap (s : State) (l : Lane) : State :=
  let s := s.runC3 l
  if (s.lane l).ohc.isEmpty then s.sendStatus l else s

/-- R261, R262, R264: a training block of a PAM mode starts, `ui` UI into the tick: its slot, and its training section through FIR and predistortion; once
the lane sends data there are no more blocks. In LM400D the lane fills the gap of C3. R413: without its acquisition Kneader it repeats the last
STATUS. -/
def execTrainingBlockStart (l : Lane) (ui : Nat) (s : State) : Host.Outcome State Fault Refusal :=
  if s.get .ACQ_STATE l ≠ acqTrain ∨ s.isSet .ACQ_TX_DATA l then done s
  else if s.lmode l = 3 then done (if s.kndOut l.acqKnd then s.repeatStatus l else s.fillGap l)
  else
    let s := if s.kndOut l.acqKnd then s.repeatStatus l else (((s.actOnPreset l).mayPreset l).stepCountdown l ui).sendSlot l
    done (s.sendLevels l (trainLevels 61440 8191))

/-- R262: the partner reports a PRESET of the lane as acted on. -/
def State.confirmPreset (s : State) (l : Lane) (w : Nat) : State :=
  match (s.lane l).preset with
  | some p =>
    if p.1 = w / 2 ^ 6 % 256 then
      let s := s.modLane l fun x => { x with preset := none, presetSlot := false }
      if w.testBit 5 then s.flag .ACQ_REFUSED_EVT l else s
    else s
  | none => s

/-- R176 and R266: the symbol at which data starts: the first of a superframe of 8 symbols, 2,048 to 4,095 symbols behind the first STATUS with GO = 1;
which of them, no rule says. DESIGN CHOICE: the superframe grid runs from tick 0 of the half (log 215). -/
def State.dataSymbol (s : State) (l : Lane) (k : Nat) : Nat := (s.afterStatus l + 2048 + 7) / 8 * 8 + 8 * (k % 256)

/-- R266: an LM400D transmitter that accepts RX_READY = 1 sends STATUS with GO = 1 and the distance D, the first from 2,048 to
4,095. -/
def State.startDistance (s : State) (l : Lane) : State :=
  if s.lmode l = 3 ∧ (s.lane l).count.isNone ∧ ¬ s.isSet .ACQ_TX_DATA l then
    let d := s.draw
    let s := d.2.runC3 l
    let first := s.dataSymbol l (Config.dataDistance d.1)
    (s.modLane l fun x => { x with count := some (0, first) }).sendStatus l
  else s

/-- R261: on C2, after the first STATUS, a STATUS or PRESET is accepted only within ±64 bits of the expected slot start. -/
def State.inSlot (s : State) (l : Lane) (slot : Int) : Bool := s.onC3 l || !(s.lane l).slotSeen || (-64 ≤ slot && slot ≤ 64)

/-- R255, R260, R262 to R266: a STATUS frame in its slot; in LINK after a matching CAP it takes the lane to TRAIN. -/
def execStatusFrameReceive (l : Lane) (f : SlotFrame) (s : State) : Host.Outcome State Fault Refusal :=
  let fr := f.fr
  if !s.receives l then done s
  else
    let r := s.endBody l fr
    let s := r.1
    if !r.2 || fr.type != 0x02 || s.unlisted l 2 || !s.inSlot l f.slot then done s
    else
      let s := if s.get .ACQ_STATE l = acqLink then s.startTrain l else s
      let w := payloadNum fr.payload 0 4
      let ready := w.testBit 31
      let s := s.putBool .ACQ_PEER_READY l ready
      let s := s.modLane l fun x => { x with
        go := x.go || ready
        slotSeen := true
        dataAt := if w.testBit 30 then some (w / 2 ^ 27 % 8, w / 2 ^ 14 % 8192) else x.dataAt }
      let s := (s.confirmPreset l w).updateReady l
      done (if ready then s.startDistance l else s)

/-- R262: a PRESET of the partner; it is acted on at a block start. -/
def execPresetFrameReceive (l : Lane) (f : SlotFrame) (s : State) : Host.Outcome State Fault Refusal :=
  let fr := f.fr
  if !s.receives l then done s
  else
    let r := s.endBody l fr
    let s := r.1
    if !r.2 || fr.type != 0x03 || s.unlisted l 3 || !s.inSlot l f.slot then done s
    else
      let taps := (List.range 7).map fun k => payloadNum fr.payload (2 * k) 2 % 4096
      let t := s.ticks l.half
      done (s.modLane l fun x => { x with apply := some (fr.seq.toNat, taps), applyAt := t })

/-- The index of the first greatest element. -/
def argMax (xs : List Nat) : Nat := xs.findIdx (· == xs.foldl max 0)

/-- R262: the RHO search in LM400T is over: the value with the highest PM_MARGIN of 0, 4, … 32 is applied; among equals the
lowest. -/
def execRhoSearchComplete (l : Lane) (margins : List Nat) (s : State) : Host.Outcome State Fault Refusal :=
  if s.get .ACQ_STATE l = acqTrain ∧ s.lmode l = 2 ∧ s.appSet .ACQ_RHO_AUTO l ∧ ¬ (s.lane l).rhoDone then
    let rho := 4 * argMax (margins.take 9)
    let s := s.modLane l fun x => { x with rhoDone := true }
    done ((s.put .ACQ_RHO_CHOSEN l rho).putApp .FEC_RHO l rho)
  else done s

/-! ### The start of data -/

/-- R264 and R266: the countdown of a lane has run out: COUNT is 0, or in LM400D the symbol at which data starts has come. -/
def State.countOver (s : State) (l : Lane) : Bool :=
  (s.lane l).count.any fun c => if s.lmode l = 3 then c.2 ≤ symbolsAt (s.ticks l.half) else c.1 == 0

/-- R141, R249, R264 and R266: FILL further training symbols, then the first data symbol is sent: TX_DATA; the encoder starts from state 0, transmit
SYM_IDX is 0. In LM400D the training symbols before it have left, and what still waits for C3 is not sent. -/
def execTxDataStart (l : Lane) (s : State) : Host.Outcome State Fault Refusal :=
  if s.get .ACQ_STATE l = acqTrain ∧ s.countOver l ∧ ¬ s.isSet .ACQ_TX_DATA l then
    let t := s.ticks l.half
    let fill := ((s.lane l).count.map (·.2)).getD 0
    let s := if s.lmode l = 3 then s.runC3 l else s.sendLevels l ((trainLevels (61440 + fill) 8191).drop 61440)
    let s := s.modLane l fun x => { x with txTick := t, count := none, enc := 0, txSym := 0, txFrames := [], ohc := [] }
    done ((s.put .ACQ_TX_DATA l 1).bothInData l)
  else done s

/-- R266: every W of the per-tone equaliser is scaled by 512 / RX_GAIN. -/
def State.scaleFeq (s : State) (l : Lane) : State :=
  let act := s.get .DMT_RX_ACT l
  s.each (List.range 1024) fun s t => s.rescale l t 512 (rxGain (s.dmtWord l act t))

/-- R141, R264 and R266: the first data symbol is received: RX_DATA, and the decoder starts from state 0; in LM100 and LM200 only with codeword
alignment. -/
def execRxDataStart (l : Lane) (s : State) : Host.Outcome State Fault Refusal :=
  if s.get .ACQ_STATE l = acqTrain ∧ (s.lane l).dataAt.isSome ∧ ¬ s.isSet .ACQ_RX_DATA l then
    if s.lmode l ≤ 1 ∧ ¬ s.isSet .FEC_CW_LOCK l then done (s.modLane l fun x => { x with rxBegun := true })
    else done ((if s.lmode l = 3 then s.scaleFeq l else s).rxData l)
  else done s

/-! ### The transfer of the loading -/

/-- R266: a LOAD frame: the transmitting end checks the table, writes the TX half of its TX_ACT copy and answers. -/
def execLoadFrameReceive (l : Lane) (fr : AcqFrame) (s : State) : Host.Outcome State Fault Refusal :=
  if !s.receives l then done s
  else
    let r := s.endBody l fr
    let s := r.1
    if !r.2 || fr.type != 0x04 || s.unlisted l 4 then done s
    else
      let word := fun t => payloadNum fr.payload (2 * t) 2
      let ok := fr.payload.length == 2048 && loadingValid (fun t => word t / 4096) (fun t => word t % 4096)
      let act := s.get .DMT_TX_ACT l
      let s := if ok then s.each (List.range 1024) fun s t => s.setTx l act t (word t / 4096) (word t % 4096) else s
      done (s.sendFrame l 5 0 (s.lane l).seq (bytesOf 4 (4 * 2 ^ 24 + fr.seq.toNat * 2 ^ 16 + if ok then 0 else 256)))

/-- R266: an ACK for the LOAD under way: OK gives SUBSTATE 4 and RX_READY; INVALID goes back to SUBSTATE 2. -/
def execAckFrameReceive (l : Lane) (fr : AcqFrame) (s : State) : Host.Outcome State Fault Refusal :=
  if !s.receives l then done s
  else
    let r := s.endBody l fr
    let s := r.1
    if !r.2 || fr.type != 0x05 || s.unlisted l 5 || s.get .ACQ_SUBSTATE l != 3 || payloadNum fr.payload 0 1 != 4
        || payloadNum fr.payload 1 1 != (s.lane l).seq then done s
    else if payloadNum fr.payload 2 1 = 0 then done ((s.put .ACQ_SUBSTATE l 4).put .ACQ_RX_READY l 1)
    else if payloadNum fr.payload 2 1 = 1 then done (s.toSnr l)
    else done s

/-- R266: another attempt every 1 ms; after the eighth acquisition fails. Neither while the acquisition Kneader is out of service (R413). -/
def execLoadRetry (l : Lane) (s : State) : Host.Outcome State Fault Refusal :=
  if s.get .ACQ_STATE l ≠ acqTrain ∨ s.lmode l ≠ 3 ∨ s.get .ACQ_SUBSTATE l ≠ 3 ∨ s.kndOut l.acqKnd
    ∨ s.ticks l.half < (s.lane l).clk.loadAt + msTicks 1 then done s
  else if (s.lane l).loadTries < 8 then
    done ((s.modLane l fun x => { x with loadTries := x.loadTries + 1 }).sendLoad l)
  else done (s.acqFail l)

/-! ### Timeouts -/

/-- R268 and R271: ACQ_TO has elapsed since the last exit from LINK or the entry to BLIND. -/
def State.acqOver (s : State) (l : Lane) : Bool :=
  (s.lane l).trainAt + msTicks (10 * s.app .ACQ_ACQ_TO l) ≤ s.ticks l.half

/-- R268: ACQ_TO elapses in TRAIN or BLIND. -/
def execAcqTimeout (l : Lane) (s : State) : Host.Outcome State Fault Refusal :=
  if (s.get .ACQ_STATE l = acqTrain ∨ s.get .ACQ_STATE l = acqBlind) ∧ s.acqOver l then done (s.acqFail l) else done s

/-- R268: 1 ms of idle fill on C1 has been sent in HOLDOFF: LINK. -/
def execHoldoffEnd (l : Lane) (s : State) : Host.Outcome State Fault Refusal :=
  if s.get .ACQ_STATE l = acqHoldoff ∧ (s.lane l).clk.holdAt + msTicks 1 ≤ s.ticks l.half then
    done ((s.runC1 l).toLink l)
  else done s

end Sys2Proof.Machine
end

