-- ==== Sys2Proof/Machine/Regs.lean ====
section
/-! DEFINITION. The register map of a half's BAR0 (R3, R9 to R12 and the register sections): which fields lie in a word, their
valid ranges, and what a host write does to them. -/

namespace Sys2Proof.Machine

/-! ### Where the blocks lie -/

/-- Offset `off` lies in entry `n` of `count` blocks of `size` bytes, `stride` apart, from `base`: the entry and the offset in
it. -/
def within (off base stride count size : Nat) : Option (Nat × Nat) :=
  if base ≤ off ∧ off < base + stride * count ∧ (off - base) % stride < size then
    some ((off - base) / stride, (off - base) % stride)
  else none

def place (b : Blk) (idx : Nat → Nat) : Option (Nat × Nat) → List (Blk × Nat × Nat)
  | some p => [(b, idx p.1, p.2)]
  | none => []

/-- The blocks of group `k` of a half at offset `o` of its group block. -/
def locateGroup (h k o : Nat) : List (Blk × Nat × Nat) :=
  let g := 3 * h + k
  let lane := fun n => 8 * g + n
  place .SROT (fun _ => g) (within o 0x80 4 1 4) ++ place .DTW (fun _ => g) (within o 0x100 8 1 8)
    ++ place .PORT lane (within o 0x200 0x10 8 0x10) ++ place .FE lane (within o 0x2000 0x40 8 0x40)
    ++ place .ACQ lane (within o 0x3000 0x80 8 0x80) ++ place .EQ lane (within o 0x4000 0x200 8 0x200)
    ++ place .FEC lane (within o 0x6000 0x100 8 0x100)
    ++ place .FECS (fun n => lane (n / 4) * 2 + n % 4) (within o 0x6020 0x40 32 0x40 |>.filter fun p => p.1 % 4 < 2)
    ++ place .DMT lane (within o 0x7000 0x100 8 0x100) ++ place .HST (fun n => 16 * g + n) (within o 0x8000 0x80 16 0x80)
    ++ place .CTX (fun n => 32 * g + n) (within o 0xA000 0x100 32 0x100) ++ place .LG (fun _ => g) (within o 0xC000 0x30 1 0x30)
    ++ place .LS lane (within o 0xD000 0x20 8 0x20) ++ place .PERF (fun _ => 4 * h + k) (within o 0xE000 0x40 1 0x40)
    ++ place .TLM lane (within o 0xE100 0x10 8 0x10) ++ place .PC (fun _ => 4 * h + k) (within o 0xE800 0x200 1 0x200)

/-- The blocks of a half outside its groups. -/
def locateHalf (h off : Nat) : List (Blk × Nat × Nat) :=
  let one := fun (_ : Nat) => h
  let lane := fun n => 24 * h + n
  place .TOP one (within off 0 4 1 4) ++ place .BR one (within off 0x40 4 1 4) ++ place .BOOT one (within off 0x100 0x40 1 0x40)
    ++ place .PERF (fun _ => 4 * h + 3) (within off 0x1000 0x40 1 0x40)
    ++ place .PC (fun _ => 4 * h + 3) (within off 0x1800 0x200 1 0x200)
    ++ place .HIF one (within off 0x40000 0x20 1 0x20) ++ place .RING (fun q => 8 * h + q) (within off 0x40100 0x20 8 0x20)
    ++ place .MON one (within off 0x50000 0x10 1 0x10) ++ place .SEQ (fun n => 4 * h + n) (within off 0x50010 0x10 4 0x10)
    ++ place .MIN (fun n => 104 * h + n) (within off 0x50100 4 104 4)
    ++ place .ENT (fun n => 256 * h + n) (within off 0x51000 0x10 256 0x10)
    ++ place .CH (fun n => 32 * h + n) (within off 0x52000 0x20 32 0x20)
    ++ place .CD (fun n => 80 * h + n) (within off 0x54000 0x10 80 0x10)
    ++ place .BUD (fun n => 4 * h + n) (within off 0x54800 4 4 4) ++ place .CLRH one (within off 0x54810 4 1 4)
    ++ place .TIME one (within off 0x60000 0x80 1 0x80) ++ place .TSP lane (within off 0x60100 0x10 24 0x10)
    ++ place .THM one (within off 0x70000 0x10 1 0x10) ++ place .DS (fun n => 16 * h + n) (within off 0x70010 4 16 4)
    ++ place .THG (fun n => 3 * h + n) (within off 0x70060 0x10 3 0x10)
    ++ place .ENG (fun n => 12 * h + n) (within off 0x70100 0x10 12 0x10)
    ++ place .FF lane (within off 0x70200 4 24 4) ++ place .CAL lane (within off 0x70400 0x10 24 0x10)
    ++ place .CAL (fun n => 48 + 3 * h + n) (within off 0x70600 0x10 3 0x10) ++ place .CALH one (within off 0x70640 0x10 1 0x10)
    ++ place .LSH one (within off 0x70800 0x10 1 0x10) ++ place .PG (fun n => 3 * h + n) (within off 0x70900 0x10 3 0x10)
    ++ place .PH one (within off 0x70940 8 1 8) ++ place .SP (fun n => 4 * h + n) (within off 0x80000 0x10 4 0x10)
    ++ place .REL one (within off 0x80040 0x20 1 0x20)
    ++ place .ECC (fun n => 28 * h + n) (within off 0x80100 0x20 28 0x20)
    ++ place .KND (kndAt h) (within off 0x80800 4 64 4) ++ place .ST one (within off 0x80A00 0x10 1 0x10)
    ++ place .FI one (within off 0xA0000 0x10 1 0x10) ++ place .FIS (fun n => 16 * h + n) (within off 0xA0010 0x10 16 0x10)

/-- The blocks at a BAR0 offset of a half. -/
def locate (h : Half) (off : Nat) : List (Blk × Nat × Nat) :=
  if 0x10000 ≤ off ∧ off < 0x40000 then locateGroup h (off / 0x10000 - 1) (off % 0x10000) else locateHalf h off

/-- A field in a word: the field, its index, and its low bit in the word (a field of 64 bits shows its half at `part`). -/
structure Slot where
  fld : Fld
  idx : Nat
  lo : Nat
  part : Nat
  deriving DecidableEq, Repr

/-- The slot of a field of block instance `n` in the word at offset `o` of the block. -/
def Fld.slot (f : Fld) (n o : Nat) : Option Slot :=
  let x := f.info
  if x.subs ≤ 1 then
    if o = x.off then some ⟨f, n, x.lo, 0⟩ else if x.width = 64 ∧ o = x.off + 4 then some ⟨f, n, 0, 1⟩ else none
  else if x.off ≤ o ∧ o < x.off + x.stride * x.subs ∧ (o - x.off) % x.stride = 0 then
    some ⟨f, n * x.subs + (o - x.off) / x.stride, x.lo, 0⟩
  else none

/-- R10: the instances of a field that the register tables call reserved: RES25 and RES of the remote diodes (R378), LANE_MASK of the
management blocks (R562). They read 0 and take no write. -/
def Fld.reservedAt (f : Fld) (i : Nat) : Bool :=
  match f with
  | .ENG_RES25 | .ENG_RES => i % 4 < 2
  | .PERF_LANE_MASK => i % 4 == 3
  | _ => false

/-- The fields of the word at a BAR0 offset. -/
def slots (h : Half) (off : Nat) : List Slot :=
  ((locate h off).flatMap fun p => p.1.flds.filterMap fun f => f.slot p.2.1 p.2.2).filter fun x => !x.fld.reservedAt x.idx

/-! ### Valid ranges -/

/-- The valid range of a field of the register tables, as the numbers its bits spell; every value where the table names none.
TARGET (R82) and the predistortion entries (R94) are signed. -/
def Fld.inRange (f : Fld) (v : Nat) : Bool :=
  let r := fun (a b : Nat) => decide (a ≤ v) && decide (v ≤ b)
  match f with
  | .FE_AGC_MODE => r 0 1 | .FE_TARGET => r 176 244 | .FE_LOS_THR => r 24 120
  | .EQ_MAIN => r 1 40 | .EQ_BLOCK_LOG2 => r 16 24 | .EQ_DECIM_LOG2 => r 0 6 | .EQ_MAX_STEP => r 1 255
  | .EQ_PRED0 | .EQ_PRED1 | .EQ_PRED2 | .EQ_PRED3 => v < 64 || 192 ≤ v
  | .EQ_DIV_RATIO => r 20 255 | .EQ_DIV_BLOCKS => r 1 255 | .EQ_CKPT_PERIOD => r 1 1000
  | .FEC_ERASE_MAX => r 0 28 | .FEC_RHO => r 0 32
  | .DMT_MARGIN => r 0 150 | .DMT_SWAP_DELTA => r 3 50 | .DMT_BITS_CAP => r 5 8 | .DMT_GAIN_LIM => r 0 6
  | .DMT_SNR_LOG2 => r 10 18 | .DMT_FEQ_LOG2 => r 8 14 | .DMT_SWAP_LEAD => r 4 256 | .DMT_RMS => r 40 160
  | .HST_TRAIN_TO => r 1 127
  | .ACQ_ACQ_TO => r 1 255 | .ACQ_DET_THR => r 32 250
  | .CTX_LANE => r 0 8 | .CTX_PERIOD => r 1 65535 | .CTX_OUT_KIND => r 0 2 | .CTX_OUT_CD => r 0 159 | .CTX_DITH_PER => r 4 255
  | .CTX_FE_TIME => r 1 1023 | .CTX_HOLD_TO => r 1 1000 | .CTX_LOST_N => r 1 15 | .CTX_FREEZE_LOG2 => r 8 15
  | .LG_TYPE => r 0 2 | .LG_PER0 => r 2 65535 | .LG_PER1 => r 2 65535
  | .SEQ_LEN => r 1 64 | .SEQ_PERIOD => r 1 65535 | .MIN_SENSE => r 0 6 | .ENT_WIN_SEV => r 0 2
  | .CH_PRESET => r 0 4 | .CH_HP_SH => r 4 20 | .CH_N => r 1 3 | .CD_STEP => r 1 255 | .CD_TICK => r 1 65535
  | .THM_TT => r 85 101
  | .TIME_PPS_WIDTH => r 1 500 | .TIME_ADDEND => r 0x3FFE5C92 0x4001A36E | .TIME_RATE => r 1 50 | .TIME_SET_NS => r 0 999999999
  | .TSP_ONE_STEP => r 0 2
  | .REL_LAP_LIM => r 100 65535 | .RING_SIZE_LOG2 => r 4 12
  | .BOOT_ST_LEN => r 512 2097152 | .PG_PERIOD => r 10 65535 | .PG_WIN => r 3 100
  | .TLM_TX_ENTRY => r 0 255 || v == 0x1FF | .TLM_RX_ENTRY => r 0 255 || v == 0x1FF
  | .TLM_TX_RESP => r 1 65535 | .TLM_RX_RESP => r 1 65535
  | .PERF_H1_BASE => r 0 17 | .PERF_H0_BASE => r 0 17
  | _ => true

/-! ### Host writes -/

/-- R9: the lock bit of the block that holds an RWL field. -/
def State.locked (s : State) (h : Half) (f : Fld) : Bool :=
  match f.info.blk with
  | .FI => s.isSet .FI_LOCK h
  | _ => s.isSet .LSH_LOCK h

def Slot.value (x : Slot) (v : Nat) : Nat := v / 2 ^ x.lo % 2 ^ x.fld.info.width

/-- The BAR0 offset, of the half, of a lane's block at `base` with `stride`, for the events of R594. -/
def laneOff (l : Lane) (base stride reg : Nat) : Nat := 0x10000 * (1 + l.val % 24 / 8) + base + stride * (l.val % 8) + reg

/-- A host write of a word takes effect: RW fields are set, RWL fields unless the lock was set before the write, W1C bits written 1
clear. -/
def State.setWord (s : State) (h : Half) (fs : List Slot) (v : Nat) : State :=
  let old := s
  s.each fs fun s x =>
    let f := x.fld
    match f.info.acc with
    | .rw => if f.info.shadow then s.writeShadow f x.idx (x.value v) else s.put f x.idx (x.value v)
    | .rwl => if old.locked h f then s else s.put f x.idx (x.value v)
    | .w1c =>
      let old := s.get f x.idx
      s.put f x.idx (old - (old &&& x.value v))
    | _ => s

/-- The range rules: a write sets a field that is not shadow state, and is not locked, outside its valid range. -/
def State.wordBad (s : State) (h : Half) (off v : Nat) : Bool :=
  (slots h off).any fun x => (x.fld.info.acc == .rw || (x.fld.info.acc == .rwl && !s.locked h x.fld))
    && !x.fld.info.shadow && !x.fld.inRange (x.value v)

/-- R9 to R11, R594 and the range rules: a host write of one word of BAR0 that has no other effect. A write that sets a
field which is not shadow state outside its valid range is ignored as a whole; a write to a locked RWL field is ignored. Each
raises WRITE_IGNORED. -/
def State.writeWord (s : State) (h : Half) (off v : Nat) : State :=
  let fs := slots h off
  let lock := fs.any fun x => x.fld.info.acc == .rwl && s.locked h x.fld
  if s.wordBad h off v then s.writeIgnored h off 0x01
  else
    let s := s.setWord h fs v
    if lock then s.writeIgnored h off 0x08 else s

/-! ### Reads of wide quantities -/

/-- R418: the longest duration of a test in µs, by kind. -/
def testTime (kind : Nat) : Nat := [2000, 1000, 1000, 500].getD kind 0

/-- The lane, Kneader or group that KIND and UNIT of a test name (R438). -/
def testLane (h : Half) (unit : Nat) : Lane := ⟨24 * h.val + unit % 24, by omega⟩
def testKnd (h : Half) (unit : Nat) : Knd := ⟨kndAt h.val (unit % 64) % 128, by omega⟩
def testGroup (h : Half) (unit : Nat) : Group := ⟨3 * h.val + unit % 3, by omega⟩

/-- R438: the unit that KIND and UNIT name. -/
def testUnit (h : Half) (kind unit : Nat) : TestUnit :=
  match kind with
  | 0 => .slice (testLane h unit)
  | 3 => .loopEngine (testGroup h unit)
  | _ => .kneader (testKnd h unit)

/-- R423: an on-demand self-test runs on the half. -/
def State.onTest (s : State) (h : Half) : Bool := s.get .ST_STATE h != 0 && (s.half h).stCmd.isSome

/-- R438: the tick at which the test that REL_ST shows began: the on-demand one, else the background test of a spare slice. -/
def State.testStart (s : State) (h : Half) : Nat :=
  if s.onTest h then (s.half h).stAt else (h.groups.findSome? fun g => (s.group g).sliceTest).getD 0

/-- R438: the remaining time of that test in µs, from the longest duration of its kind. -/
def State.testRemain (s : State) (h : Half) : Nat :=
  if s.get .ST_STATE h = 0 then 0 else testTime (s.get .ST_KIND h) - (s.ticks h - s.testStart h) / 250

/-- R176, R207 and R438: what a field shows now: SYM_IDX follows the time since the lane's first symbol in DATA of LM400D, REMAIN the time since a
test began; every other field its home. -/
def State.shown (s : State) (f : Fld) (i : Nat) : Nat :=
  if f = .ST_REMAIN then s.testRemain ⟨i % 2, by omega⟩
  else if f = .DMT_SYM_IDX then
    match allLanes.find? fun (l : Lane) => l.val == i with
    | some l => if s.lmode l = 3 && s.isSet .ACQ_RX_DATA l then s.symIdx l else s.get f i
    | none => s.get f i
  else s.get f i

/-- What one word shows of the fields of the store; WO fields read 0 (R9). -/
def State.readFields (s : State) (h : Half) (off : Nat) : Nat :=
  ((slots h off).map fun x =>
    if x.fld.info.acc == .wo then 0
    else if x.part = 1 then s.get x.fld x.idx / 2 ^ 32
    else s.shown x.fld x.idx % 2 ^ 32 * 2 ^ x.lo).sum

/-- R12 and R554: a read of the low word of a 64-bit quantity latches the high word, but for CYC; a read of any other word shows its
fields. DESIGN CHOICE: a 64-bit address that the host writes into two registers (SB, BASE, ST_ADDR) is latched by no read (log 231). -/
def State.latchLow (s : State) (h : Half) (off : Nat) : State :=
  match (slots h off).find? fun x => x.fld.info.width == 64 && x.part == 0 && x.fld != .PC_CYC with
  | some x =>
    let v := s.get x.fld x.idx
    let s := s.modHalf h fun y => { y with latch := (off + 4, v / 2 ^ 32) :: y.latch.filter fun p => p.1 != off + 4 }
    s.emit (.read h off (v % 2 ^ 32))
  | none =>
    match (s.half h).latch.find? fun p => p.1 == off with
    | some p => (s.modHalf h fun y => { y with latch := y.latch.filter fun p => p.1 != off }).emit (.read h off p.2)
    | none => s.emit (.read h off (s.readFields h off))

end Sys2Proof.Machine
end

