-- ==== Sys2Proof/Machine/Cdac.lean ====
section
/-! DEFINITION. The control DAC channels (R340 to R348): requests, the slew limiter, the supply-current budgets, the overrides, mode
changes, CLR# and the valid threshold of VCTL. -/

namespace Sys2Proof.Machine

/-- R2: the group that owns a channel; none for the half-level channels. -/
def chanGroup (c : Chan) : Option Group :=
  if h : c.index < 72 then some ⟨3 * c.half.val + c.index / 24, by omega⟩ else none

/-- R321: the lane whose LASER_CD names the channel. -/
def State.laserOf (s : State) (c : Chan) : Option Lane :=
  match chanGroup c with
  | some g => g.lanes.find? fun l => s.laserCd l == c
  | none => none

/-- R281: an enabled context of the half drives the channel. -/
def State.driven (s : State) (c : Chan) : Bool :=
  c.half.groups.any fun g => g.ctxs.any fun x =>
    s.app .CTX_EN x == 1 && s.app .CTX_OUT_KIND x == 1 && s.app .CTX_OUT_CD x == c.val

/-- R346: LOOP of a channel follows the enabled contexts. -/
def State.showLoop (s : State) (v : Nat) : State :=
  if h : v < 160 then s.putBool .CD_LOOP v (s.driven ⟨v, h⟩) else s

/-- R346: LOOP of the channels that contexts of a group may drive. -/
def State.showLoops (s : State) (g : Group) : State :=
  s.each (g.half.chans.filter fun (c : Chan) => g.owns c || c.set == 3) fun s c => s.showLoop c

/-- What an override of R341 does to a channel: forced to 0 with LASEN low, or to its clear code. -/
inductive Override | none | laser | clear
  deriving DecidableEq, Repr

/-- R341 step 4, R343, R345, R39 and R525: the override in force, but for a mode change. -/
def State.overrideOf (s : State) (c : Chan) : Override :=
  match s.laserOf c with
  | some l => if !s.isSet .LS_LASEN l || (s.lane l).biasHold then .laser
    else if s.isSet .CLRH_CLR_PIN c.half then .clear else .none
  | none =>
    let gated := s.porst || match chanGroup c with
      | some g => s.groupFenced g || (2 ≤ s.get .PG_STATE g && s.get .PG_STATE g != 5)
      | none => !(s.half c.half).fences.isEmpty
    if s.isSet .CLRH_CLR_PIN c.half || gated then .clear else .none

/-- R341 and R345: the code an override forces: 0 on a laser-bias channel, else the clear code. -/
def State.clearCode (s : State) (c : Chan) : Nat := if (s.laserOf c).isSome then 0 else s.get .CD_CLR_CODE c

/-- An override acts on a channel, which then rests at the forced code. -/
def State.override (s : State) (c : Chan) : State :=
  match s.overrideOf c with
  | .laser => s.forceBias c
  | .clear => (((s.put .CD_OUT c (s.clearCode c)).put .CD_AT_CLEAR c 1).put .CD_FORCED0 c 0).modChan c fun x => { x with rest := true }
  | .none => s.put .CD_FORCED0 c 0

/-- R341 and R311: a request on a channel; on a laser-bias channel a code above BIAS_CEIL is clamped and counted. The first request
with no override in force ends the channel's rest. -/
def State.request (s : State) (c : Chan) (code : Nat) : State :=
  let s := match s.laserOf c with
    | some l => if s.get .LS_BIAS_CEIL l < code then (s.flag .LS_CLAMPED l).incSat .LS_CLAMP_CNT l else s
    | none => s
  let s := s.put .CD_REQ c code
  if s.overrideOf c = .none ∧ ¬ (s.chan c).changing then (s.put .CD_AT_CLEAR c 0).modChan c fun x => { x with rest := false } else s

/-! ### The update of every 1 µs -/

/-- R341 step 1: the request as BIAS_CEIL leaves it. -/
def State.clamped (s : State) (c : Chan) : Nat :=
  match s.laserOf c with
  | some l => min (s.get .CD_REQ c) (s.get .LS_BIAS_CEIL l)
  | none => s.get .CD_REQ c

/-- R284: the channel that a context drives is held below the requested code: by BIAS_CEIL, or by the supply-current limit of its set. -/
def State.heldDown (s : State) (x : Ctx) : Bool :=
  let c : Chan := ⟨s.app .CTX_OUT_CD x % 160, by omega⟩
  s.app .CTX_OUT_KIND x == 1 && (decide (s.clamped c < s.get .CD_REQ c) || s.isSet .CD_HELD_ILIM c)

/-- R284: CEIL reports that. -/
def State.showCeil (s : State) (x : Ctx) : State := s.putBool .CTX_CEIL x (s.heldDown x)

/-- R525: a channel of a group in G-REST is held. -/
def State.chanHeld (s : State) (c : Chan) : Bool :=
  s.isSet .CD_HIZ c || (s.chan c).changing || match chanGroup c with
    | some g => s.engineKept g
    | none => false

/-- R341 steps 1 and 2: the code a channel would move to in this µs; `us` counts since the slew limiter last moved. -/
def State.slewed (s : State) (c : Chan) : Nat :=
  let out := s.get .CD_OUT c
  let x := s.chan c
  let goal := if x.rest then (if s.isSet .CD_AT_CLEAR c then s.clearCode c else out) else s.clamped c
  if s.get .CD_SLEW_EN c = 0 then goal
  else if x.us + 1 < s.get .CD_TICK c then out
  else if out < goal then min goal (out + s.get .CD_STEP c) else max goal (out - s.get .CD_STEP c)

/-- A channel in the supply-current step: its present and wanted code, and the weight of a code in quarter mA / 4,095. -/
structure Draw where
  chan : Chan
  old : Nat
  want : Nat
  weight : Nat
  fixed : Bool
  held : Bool

/-- R342: the budget of a set in the same unit. -/
def budget (ilim : Nat) : Nat := ilim * 4 * 4095
def drawSum (f : Draw → Nat) (ds : List Draw) : Nat := (ds.map fun d => f d * d.weight).sum

/-- R342: increases are taken in ascending index, each cut to the largest code that keeps the sum within the budget. -/
def raiseDraws (limit : Nat) : List Draw → Nat → List Draw
  | [], _ => []
  | d :: ds, sum =>
    if d.fixed ∨ d.want ≤ d.old ∨ d.weight = 0 then d :: raiseDraws limit ds sum
    else
      let room := (limit - sum) / d.weight
      let w := min d.want (d.old + room)
      { d with want := w, held := w < d.want } :: raiseDraws limit ds (sum + (w - d.old) * d.weight)

/-- R342: while the sum exceeds the budget channels are lowered in descending index; `ds` comes with the highest first. -/
def lowerDraws (limit : Nat) : List Draw → Nat → List Draw
  | [], _ => []
  | d :: ds, sum =>
    if sum ≤ limit ∨ d.weight = 0 ∨ d.fixed then d :: lowerDraws limit ds sum
    else
      let excess := sum - limit
      let cut := min d.want ((excess + d.weight - 1) / d.weight)
      { d with want := d.want - cut, held := true } :: lowerDraws limit ds (sum - cut * d.weight)

/-- R342: one evaluation of a set: decreases first, then increases, then the lowering. -/
def settleDraws (limit : Nat) (ds : List Draw) : List Draw :=
  let start := drawSum (fun d => min d.old d.want) ds
  let fixedUp := drawSum (fun d => if d.fixed then d.want - min d.old d.want else 0) ds
  let up := raiseDraws limit ds (start + fixedUp)
  (lowerDraws limit up.reverse (drawSum (·.want) up)).reverse

/-- R340: the full scale of a mode: in µV in modes 0 and 1, in nA in modes 2 and 3. -/
def fullScale (mode : Nat) : Nat :=
  match mode with
  | 0 => 1500000
  | 1 => 3000000
  | 2 => 6250000
  | _ => 25000000

/-- R340, R344, R345: the output of a channel's pin in µV or nA; none while the pin is not driven. -/
def State.pinOutput (s : State) (c : Chan) : Option Rat :=
  if s.isSet .CD_HIZ c || s.isSet .CD_DISC c then none else some (s.get .CD_OUT c * fullScale (s.chan c).mode / 4095)

/-- R342: the weight of a code of the channel in 1/4 mA over 4,095. -/
def State.weight (s : State) (c : Chan) : Nat := if (s.chan c).mode < 2 then 0 else fullScale (s.chan c).mode / 250000

/-- R341 and R342: one channel takes its code. HELD_ILIM stays while the channel is below its request and its slew limiter does not move. -/
def State.setOut (s : State) (d : Draw) : State :=
  let c := d.chan
  let out := s.get .CD_OUT c
  let tick := s.get .CD_TICK c
  let still := s.isSet .CD_HELD_ILIM c && s.isSet .CD_SLEW_EN c && decide ((s.chan c).us + 1 < tick) && d.want == out && decide (out < s.clamped c)
  let s := s.modChan c fun x => { x with us := if tick ≤ x.us + 1 then 0 else x.us + 1 }
  let s := (s.put .CD_OUT c d.want).putBool .CD_HELD_ILIM c (d.held || still)
  let s := s.putBool .CD_HELD_CEIL c (s.clamped c < s.get .CD_REQ c)
  s.putBool .CD_SLEWING c (!(s.chan c).rest && !d.fixed && !d.held && s.isSet .CD_SLEW_EN c && d.want != s.clamped c
    && (out != d.want || d.want != s.clamped c))

/-- R342: the set of channels `k` of a half. -/
def State.updateSet (s : State) (h : Half) (k : Nat) : State :=
  let cs := h.chans.filter fun c => c.set == k
  let ds := cs.map fun c =>
    let fixed := s.overrideOf c != .none || s.chanHeld c
    let old := s.get .CD_OUT c
    (⟨c, old, if fixed then old else s.slewed c, s.weight c, fixed, false⟩ : Draw)
  let i := 4 * h.val + k
  let ds := settleDraws (budget (s.get .BUD_ILIM i)) ds
  let s := s.each ds State.setOut
  let s := s.put .BUD_USED i ((drawSum (·.want) ds + 4 * 4095 - 1) / (4 * 4095))
  s.each (h.groups.flatMap fun g => g.ctxs.filter fun x =>
    s.app .CTX_EN x == 1 && s.app .CTX_OUT_KIND x == 1 && cs.any fun c => c.val == s.app .CTX_OUT_CD x) State.showCeil

/-- R341 and R342: the update of the half's channels: overrides, then the sets. -/
def execCdacUpdate (h : Half) (s : State) : Host.Outcome State Fault Refusal :=
  let s := s.each h.chans fun s c => if s.isSet .CD_HIZ c || (s.chan c).changing then s else s.override c
  done (s.each [0, 1, 2, 3] fun s k => s.updateSet h k)

/-! ### Host writes -/

/-- R353: the BAR0 offset of a channel's register. -/
def cdOff (c : Chan) (reg : Nat) : Nat := 0x54000 + 0x10 * c.index + reg

/-- R346: a write of a channel register that is ignored, with its reason. -/
def State.chanLocked (s : State) (c : Chan) : Bool := (s.laserOf c).isSome && s.isSet .LSH_LOCK c.half

/-- R346: a write of CODE. -/
def State.codeWrite (s : State) (c : Chan) (v : Nat) : State :=
  if s.chanLocked c then s.writeIgnored c.half (cdOff c 4) 0x08
  else if s.driven c then s.writeIgnored c.half (cdOff c 4) 0x0B
  else (s.put .CD_CODE c (v % 4096)).request c (v % 4096)

def execCdacCodeWrite (c : Chan) (v : W32) (s : State) : Host.Outcome State Fault Refusal := done (s.hostWrite c.half fun s => s.codeWrite c v.toNat)

/-- R344 and R346: a write of CLR_CODE; while the channel rests at its clear code OUT moves to the new one (R341). -/
def State.clrCodeWrite (s : State) (c : Chan) (v : Nat) : State :=
  if s.chanLocked c then s.writeIgnored c.half (cdOff c 8) 0x08 else s.put .CD_CLR_CODE c (v % 4096)

def execCdacClrCodeWrite (c : Chan) (v : W32) (s : State) : Host.Outcome State Fault Refusal :=
  done (s.hostWrite c.half fun s => s.clrCodeWrite c v.toNat)

/-- R345: MODE has changed: OUT at the clear code, the pin disconnected, unless that sequence runs already. -/
def State.changeMode (s : State) (c : Chan) : State :=
  if (s.chan c).changing then s
  else (((s.put .CD_OUT c (s.clearCode c)).put .CD_DISC c 1).put .CD_AT_CLEAR c 1).modChan c fun x => { x with changing := true }

/-- R345, R346, R349: a write of the word that holds MODE. -/
def State.modeWrite (s : State) (c : Chan) (v : Nat) : State :=
  let fs := slots c.half (cdOff c 0)
  if s.chanLocked c then s.writeIgnored c.half (cdOff c 0) 0x08
  else if s.driven c then s.writeIgnored c.half (cdOff c 0) 0x0B
  else if fs.any fun x => !x.fld.inRange (x.value v) then s.writeIgnored c.half (cdOff c 0) 0x01
  else
    let old := s.get .CD_MODE c
    let s := s.setWord c.half fs v
    if s.get .CD_MODE c = old then s else s.changeMode c

def execCdacModeWrite (c : Chan) (v : W32) (s : State) : Host.Outcome State Fault Refusal := done (s.hostWrite c.half fun s => s.modeWrite c v.toNat)

/-- R345: the pin is reconnected in the mode written last; OUT then moves toward REQ, unless another override holds it. -/
def execCdacReconnect (c : Chan) (s : State) : Host.Outcome State Fault Refusal :=
  if !(s.chan c).changing then done s
  else
    let m := s.get .CD_MODE c
    let s := (s.put .CD_DISC c 0).modChan c fun x => { x with changing := false, mode := m, us := 0 }
    done (if s.overrideOf c = .none then (s.put .CD_AT_CLEAR c 0).modChan c fun x => { x with rest := false } else s.override c)

/-! ### Pins -/

/-- R343: CLR# of the half goes low. -/
def execClrAssert (h : Half) (s : State) : Host.Outcome State Fault Refusal :=
  if s.isSet .CLRH_CLR_PIN h then done s
  else
    let s := (s.put .CLRH_CLR_PIN h 1).incSat .CLRH_CLR_CNT h
    let s := s.raise h { sev := 1, code := 0x0402, scope := 1, id := h, d0 := s.get .CLRH_CLR_CNT h }
    done (s.each h.chans fun s c => if (s.chan c).changing || s.isSet .CD_HIZ c then s else s.override c)

/-- R343: CLR# returns high; each channel stays where it is until its next request. -/
def execClrDeassert (h : Half) (s : State) : Host.Outcome State Fault Refusal := done (s.put .CLRH_CLR_PIN h 0)

/-- R344: VCTL is valid: every pin of the half goes from high impedance to its clear code. -/
def State.driveChans (s : State) (h : Half) : State :=
  s.each h.chans fun s c =>
    if s.isSet .CD_HIZ c then
      let m := s.get .CD_MODE c
      ((((s.put .CD_HIZ c 0).put .CD_OUT c (s.clearCode c)).put .CD_AT_CLEAR c 1).put .CD_DISC c 0).modChan c fun x =>
        { x with rest := true, mode := m, changing := false, us := 0 }
    else s

/-- R344: VCTL falls below valid: every pin returns to high impedance. -/
def State.floatChans (s : State) (h : Half) : State :=
  s.each h.chans fun s c => (s.put .CD_HIZ c 1).modChan c fun x => { x with rest := true }

end Sys2Proof.Machine
end

