-- ==== Sys2Proof/Machine/Loops.lean ====
section
/-! DEFINITION. The loop engines (R276 to R305): a sample of a context with its feedback, law, dither, demodulation and supervision;
holds and parking; the injector and the capture. -/

namespace Sys2Proof.Machine

/-! ### Arithmetic of R282 -/

def sat32 (v : Int) : Int := clampInt (-(2 ^ 31)) (2 ^ 31 - 1) v
def sat48 (v : Int) : Int := clampInt (-(2 ^ 47)) (2 ^ 47 - 1) v

/-- R282: a term C × 2^-s × a, rounded to nearest with ties toward plus infinity. -/
def term (c : Int) (sh : Nat) (a : Int) : Int := roundUp (c * a) (2 ^ sh)

/-- The terms of a sum, added in order with saturation at every addition. -/
def accum (ts : List Int) : Int := ts.foldl (fun a t => sat48 (a + t)) 0

/-- sin(2π × num / den) with LSB 2^-15, rounded to nearest (R287). -/
def sin16 (num den : Nat) : Int :=
  let r := 4 * (num % den)
  let quad := r / den
  let f := r % den
  let t : Int := 1811004864519280711 * ((if quad % 2 = 0 then f else den - f : Nat) : Int) / den
  let sq := t * t / 2 ^ 60
  let series := ((List.range 11).foldl (fun (a : Int × Int) n =>
    (a.1 + a.2, -(a.2 * sq / 2 ^ 60) / ((2 * n + 2) * (2 * n + 3)))) (0, t)).1
  let v := roundAway series (2 ^ 45)
  if quad < 2 then v else -v

/-! ### Feedback -/

/-- R280: what a sample finds at its source. -/
inductive Feedback
  | invalid
  | suspect
  | ok (r : Int)
  deriving DecidableEq, Repr

/-- R280: the newest value of the source with this number in the store of results has come within a time, in ticks of 4 ns. -/
def State.newResult (s : State) (h : Half) (n within : Nat) : Bool :=
  s.results.get n != 0 && decide (s.ticks h + 1 ≤ s.resultAt.get n + within)

/-- R280: the eye metric × 256 of a lane: percent, or dB in LM400D. -/
def State.eyeSource (s : State) (l : Lane) : Feedback :=
  let y := s.lane l
  if !y.eyeValid || y.eyeStale then .invalid
  else .ok (if s.lmode l = 3 then roundUp (y.eye * 256) 10 else y.eye * 256)

/-- R280: the value of the source that FB_SRC names. -/
def State.source (s : State) (x : Ctx) (src : Nat) : Feedback :=
  let h := x.group.half
  if src < 0x100 then
    let n := 256 * (x.val / 96) + src
    if s.get .ENT_EN n = 0 ∨ ¬ s.newResult h n (2000 * s.inUse .CTX_PERIOD x) ∨ s.isSet .ENT_ORNG n then .invalid
    else if s.isSet .ENT_SUSPECT n then .suspect
    else if s.isSet .ENT_CHAIN_EN n ∧ ¬ s.isSet .ENT_SETTLED n then .invalid
    else .ok (s.get .ENT_CODE n)
  else if _h : 0x100 ≤ src ∧ src < 0x108 then s.eyeSource (x.group.lane ⟨src - 0x100, by omega⟩)
  else if 0x110 ≤ src ∧ src < 0x114 then
    let n := 4 * x.group.val + (src - 0x110)
    if ¬ s.newResult h (512 + n) 2500000 ∨ s.get .ENG_FAULT n ≠ 0 ∨ ¬ s.isSet .ENG_VALID n then .invalid
    else .ok (s.getS .ENG_TEMP n)
  else if _h : 0x120 ≤ src ∧ src < 0x140 then
    let y := x.group.ctx ⟨src - 0x120, by omega⟩
    if s.get .CTX_STATE y = ctxRun then .ok (toSigned 32 (s.get .CTX_O_NOW y)) else .invalid
  else .invalid

/-- R283: the scaled feedback. -/
def State.scaled (s : State) (x : Ctx) (r : Int) : Int :=
  let src := s.inUse .CTX_FB_SRC x
  let off : Int := if 0x120 ≤ src ∧ src < 0x140 then 0 else s.inUse .CTX_FB_OFFSET x
  sat32 (term (s.cs .CTX_FB_GAIN x) (s.inUse .CTX_FB_SH x) (r - off))

/-! ### Dither and demodulation -/

/-- R287: the dither of sample `k`. -/
def State.dither (s : State) (x : Ctx) : Int :=
  if s.inUse .CTX_DITH_EN x = 1 then
    roundUp ((s.inUse .CTX_DITH_AMP x : Int) * 256 * sin16 (s.ctx x).k (s.inUse .CTX_DITH_PER x)) (2 ^ 15)
  else 0

/-- R288: one step of a demodulator with the reference delayed by `dly` samples. -/
def State.demod (s : State) (x : Ctx) (d v : Int) (dly : Nat) : Int :=
  let per := s.inUse .CTX_DITH_PER x
  let ref := sin16 ((s.ctx x).k + per * 256 - dly) per
  let product := sat32 (roundUp (v * ref) (2 ^ 15))
  sat32 (d + roundUp (product - d) (2 ^ s.inUse .CTX_DEM_SH x))

/-- R289: the eye metric of the context's lane, scaled; none while it is invalid or stale. -/
def State.eyeScaled (s : State) (x : Ctx) : Option Int :=
  match s.ctxLane x with
  | none => none
  | some l =>
    match s.eyeSource l with
    | .ok r => some (sat32 (term (s.cs .CTX_EYE_G x) (s.inUse .CTX_EYE_SH x) r))
    | _ => none

/-- R288 and R289: the demodulators after a sample: d, d_eye and the feedback that the law takes. `on` says that the weight of the
eye branch is in force. -/
def State.demodulate (s : State) (x : Ctx) (v d dEye : Int) (on : Bool) : Int × Int × Int :=
  let ph := s.inUse .CTX_DITH_PH x
  let d' := s.demod x d v ph
  let mix := s.inUse .CTX_MIX x
  match s.eyeScaled x with
  | none => (d', dEye, d')
  | some w =>
    if mix = 0 then (d', dEye, d')
    else
      let e' := s.demod x dEye w (ph + s.inUse .CTX_EYE_DLY x)
      (d', e', if on then sat32 (roundUp ((256 - mix : Int) * d' + mix * e') 256) else d')

/-- R289: EYE_DROP while the eye metric is away, and for 4 × 2^DEM_SH samples after it returns; d_eye, frozen meanwhile, restarts at 0 on the
return: the law's, or in HOLD that of the evaluation (R297). -/
def State.eyeWeight (s : State) (x : Ctx) (hold : Bool) : State :=
  if s.inUse .CTX_MIX x = 0 ∨ ¬ s.inUse .CTX_DEMOD x = 1 then s.put .CTX_EYE_DROP x 0
  else if (s.eyeScaled x).isNone then
    let s := if s.isSet .CTX_EYE_DROP x then s else (s.put .CTX_EYE_DROP x 1).flag .CTX_EYE_EVT x
    s.modCtx x fun y => { y with eyeWait := 0 }
  else if s.isSet .CTX_EYE_DROP x then
    let n := (s.ctx x).eyeWait + 1
    let back := n == 1
    s.modCtx x fun y =>
      { y with eyeWait := n, dEye := if back && !hold then 0 else y.dEye, hdEye := if back && hold then 0 else y.hdEye }
  else s

/-- R289: after 4 × 2^DEM_SH samples with the metric back EYE_DROP clears: the next sample takes the weight MIX. -/
def State.eyeRestore (s : State) (x : Ctx) : State :=
  if s.isSet .CTX_EYE_DROP x ∧ 4 * 2 ^ s.inUse .CTX_DEM_SH x ≤ (s.ctx x).eyeWait then s.put .CTX_EYE_DROP x 0 else s

/-! ### Output -/

/-- R283 and R285: the output goes to its destination; CEIL reports that a channel holds the code down (R284). -/
def State.drive (s : State) (x : Ctx) (o : Int) : State :=
  let s := s.put .CTX_O_NOW x (ofSigned 32 o)
  if s.app .CTX_OUT_KIND x = 1 then
    let c : Chan := ⟨s.app .CTX_OUT_CD x % 160, by omega⟩
    let code := (clampInt 0 4095 (roundUp o 65536)).toNat
    (s.request c code).showCeil x
  else
    match s.ctxBelow x with
    | some y => ((s.putApp .CTX_TARGET y (ofSigned 32 o)).atTarget y).showCeil x
    | none => s.showCeil x

/-- R283: the clamp between OUT_MIN and OUT_MAX. -/
def State.clampOut (s : State) (x : Ctx) (o : Int) : Int := clampInt (s.cs .CTX_OUT_MIN x) (s.cs .CTX_OUT_MAX x) o

/-! ### Injection and capture -/

/-- R301: the signal of a group's injector at its sample `k`, in Q16.16. -/
def State.injected (s : State) (x : Ctx) : Int :=
  let g := x.group
  let j := (s.group g).inj
  let len := s.get .LG_LEN g
  if !s.isSet .CTX_INJ x || (len ≠ 0 && len ≤ j.k) then 0
  else
    let amp : Int := s.get .LG_AMP g
    let per := max 1 (s.get .LG_PER0 g)
    match s.get .LG_TYPE g with
    | 0 => sat32 (roundUp (amp * sin16 j.k per) (2 ^ 15))
    | 1 => sat32 (roundUp (amp * sin16 j.phase (2 ^ 32)) (2 ^ 15))
    | _ => sat32 (if j.prbs.testBit 10 then amp else -amp)

/-- R301: the PRBS11 register after a bit: x^11 + x^9 + 1. -/
def prbs11 (r : Nat) : Nat := (r * 2 + (if (r.testBit 10).xor (r.testBit 8) then 1 else 0)) % 2048

/-- R301: the injector moves to its next sample. The period of a chirp moves linearly from PER0 to PER1. -/
def State.stepInjection (s : State) (x : Ctx) : State :=
  if !s.isSet .CTX_INJ x then s
  else
    let g := x.group
    let p0 := s.get .LG_PER0 g
    let p1 := s.get .LG_PER1 g
    let len := s.get .LG_LEN g
    s.modGroup g fun y =>
      let j := y.inj
      let turn : Nat := if len = 0 then 2 ^ 32 / max 1 p0 else 2 ^ 32 * len / max 1 (p0 * (len - j.k) + p1 * j.k)
      { y with inj := { j with
        k := j.k + 1
        phase := (j.phase + turn) % 2 ^ 32
        prbs := if (j.k + 1) % max 1 p0 = 0 then prbs11 j.prbs else j.prbs } }

/-- R301: a started injection begins at the next sample of INJ_CTX in RUN; one that runs and whose INJ_CTX was rewritten goes on there. -/
def State.beginInjection (s : State) (x : Ctx) : State :=
  let g := x.group
  let j := (s.group g).inj
  if s.get .LG_INJ_CTX g ≠ x.val % 32 then s
  else if j.armed then
    let s := s.modGroup g fun y => { y with inj := { y.inj with armed := false, on := true, k := 0, phase := 0, prbs := 0x7FF } }
    (s.put .CTX_INJ x 1).capTrigger x 1
  else if j.on then s.put .CTX_INJ x 1
  else s

/-- The signals of a sample that capture can record (R302). -/
structure Signals where
  r : Int := 0
  x : Int := 0
  p : Int := 0
  e : Int := 0
  u : Int := 0
  o : Int := 0
  j : Int := 0

def Signals.pick (y : Signals) (n : Nat) : Nat :=
  ofSigned 32 (match n with
    | 1 => y.r | 2 => y.x | 3 => y.p | 4 => y.e | 5 => y.u | 6 => y.o | _ => y.j)

/-- R305: r as CAP_DATA shows it, zero-extended: a context's output has 32 bits. PRESUMED: every other source has 16 (log 222). -/
def State.shownRaw (s : State) (x : Ctx) (r : Int) : Int :=
  let src := s.inUse .CTX_FB_SRC x
  if 0x120 ≤ src ∧ src < 0x140 then r else (ofSigned 16 r : Nat)

/-- R302: the signals of a context as its latest sample left them. -/
def State.signals (s : State) (x : Ctx) : Signals :=
  let y := s.ctx x
  let now := fun (f : Fld) => toSigned 32 (s.get f x)
  { r := s.shownRaw x y.r, x := now .CTX_X_NOW, p := now .CTX_P_NOW, e := now .CTX_E_NOW, u := y.heldU, o := now .CTX_O_NOW }

/-- R302: one sample of CAP_CTX is recorded in every DEC + 1. DESIGN CHOICE: every sample of a context that is not OFF counts, and a signal that
it does not compute is recorded as it last was. -/
def State.record (s : State) (x : Ctx) (y : Signals) : State :=
  let g := x.group
  let j := (s.group g).inj
  if s.get .LG_CAP_CTX g ≠ x.val % 32 ∨ ¬ (j.run ∨ s.isSet .LG_ARMED g) then s
  else
    let dec := s.get .LG_DEC g
    let s := s.modGroup g fun z => { z with inj := { z.inj with dec := (z.inj.dec + 1) % (dec + 1) } }
    if j.dec ≠ 0 then s
    else
      let vs := ([s.get .LG_SIG_A g, s.get .LG_SIG_B g].filter (· ≠ 0)).map y.pick
      if j.run then
        s.each vs fun s v =>
          let n := s.get .LG_COUNT g
          if n < 4096 then { s with capture := s.capture.set (4096 * g.val + n) v }.put .LG_COUNT g (n + 1) else s
      else
        let keep := s.get .LG_PRE g
        s.modGroup g fun z => { z with inj := { z.inj with pre := (z.inj.pre ++ vs).drop ((z.inj.pre ++ vs).length - keep) } }

/-! ### A sample in RUN -/

/-- The sample period in ms. -/
def State.periodMs (s : State) (x : Ctx) : Rat := (s.inUse .CTX_PERIOD x : Rat) / 250

/-- R290 and R292: the profile after one sample, on the plan made at the previous one, which is then made anew. -/
def State.stepProfile (s : State) (x : Ctx) : State :=
  let y := s.ctx x
  let m := profileStep y.p y.v y.a (y.tgt * 65536) y.vmax y.amax y.jmax (s.periodMs x)
  s.modCtx x fun y => { y with p := m.1, v := m.2.1, a := m.2.2 }

/-- The plan of the next sample takes the target and limits in force. -/
def State.replan (s : State) (x : Ctx) (tgt : Int) : State :=
  s.modCtx x fun y => { y with tgt := tgt, vmax := s.inUse .CTX_VMAX x, amax := s.inUse .CTX_AMAX x, jmax := s.inUse .CTX_JMAX x }

def CtxS.pos (y : CtxS) : Int := sat32 (roundUp y.p 65536)

/-- R286: the profile starts at the present x, or the present output in OPEN; the delays and I at the channel's code. -/
def State.initStart (s : State) (x : Ctx) (v : Int) : State :=
  let code := s.presentOut x
  let open' := s.inUse .CTX_MODE x = 1
  s.modCtx x fun y =>
    { y with
      fresh := false, resume := false, p := (if open' then code else v) * 65536, v := 0, a := 0, i := code
      xPrev := v, u1 := code, u2 := code, y1 := code, y2 := code, z1 := code, z2 := code }

/-- R360: the sensor that FF_SRC names for a RING_LOCK context's lane, with its temperature; none while it is faulted. -/
def State.ffReading (s : State) (x : Ctx) : Option (Nat × Int) :=
  match s.ctxLane x with
  | none => none
  | some l =>
    let n := 4 * x.group.val + s.get .FF_FF_SRC l
    if s.app .CTX_TYPE x = 0 ∧ s.isSet .ENG_VALID n ∧ s.get .ENG_FAULT n = 0 then some (n, s.getS .ENG_TEMP n) else none

/-- R360: the feed-forward of a sample: FF_K times the change of the sensor since the previous sample. DESIGN CHOICE: the first sample of a sensor, after
OFF, a fault or a change of FF_SRC, adds nothing (log 223). -/
def State.feedForward (s : State) (x : Ctx) : Int :=
  match s.ctxLane x, s.ffReading x, (s.ctx x).temp with
  | some l, some a, some b => if s.isSet .FF_FF_EN l ∧ a.1 = b.1 then s.getS .FF_FF_K l * (a.2 - b.2) * 4 else 0
  | _, _, _ => 0

/-- R284: an addition to the integrator of this sign is skipped: the output stands at a limit, or its channel is held down now. -/
def State.blocked (s : State) (x : Ctx) (v : Int) : Bool :=
  let o := toSigned 32 (s.get .CTX_O_NOW x)
  ((o == s.cs .CTX_OUT_MAX x || s.heldDown x) && decide (0 < v)) || (o == s.cs .CTX_OUT_MIN x && decide (v < 0))

/-- R283: one biquad on input `u`: coefficients B0, B1, B2, A1, A2 with their shifts. -/
def State.biquad (s : State) (x : Ctx) (first : Bool) (u u1 u2 y1 y2 : Int) : Int :=
  let f := if first then Fld.CTX_BQ1 else .CTX_BQ2
  let k := if first then 0 else 1
  let c := fun j => toSigned 32 (s.app f (5 * x.val + j))
  let sh := fun (g : Fld) => s.app g (2 * x.val + k)
  sat32 (accum [term (c 0) (sh .CTX_B0_SH) u, term (c 1) (sh .CTX_B1_SH) u1, term (c 2) (sh .CTX_B2_SH) u2,
    -term (c 3) (sh .CTX_A1_SH) y1, -term (c 4) (sh .CTX_A2_SH) y2])

/-- R283, R284, R297: the control law: u and w2 with the state that follows. -/
def State.law (s : State) (x : Ctx) (e v : Int) : Int × Int × State :=
  let ff := s.feedForward x
  let s := if ff ≠ 0 ∧ ¬ s.blocked x ff then s.modCtx x fun y => { y with i := sat48 (y.i + ff) } else s
  let ki := s.cs .CTX_KI x
  let kp := term (s.cs .CTX_KP x) (s.inUse .CTX_KP_SH x) e
  let kd := term (s.cs .CTX_KD x) (s.inUse .CTX_KD_SH x) (v - (s.ctx x).xPrev)
  let s := if (s.ctx x).resume then s.modCtx x fun y => { y with resume := false, i := sat48 (y.heldU - kp + kd) }
    else if s.blocked x (ki * e) then s
    else s.modCtx x fun y => { y with i := sat48 (y.i + term ki (s.inUse .CTX_KI_SH x) e) }
  let y := s.ctx x
  let u := sat32 (accum [kp, y.i, -kd])
  let w1 := s.biquad x true u y.u1 y.u2 y.y1 y.y2
  let w2 := s.biquad x false w1 y.y1 y.y2 y.z1 y.z2
  (u, w2, s.modCtx x fun y => { y with u1 := u, u2 := y.u1, y1 := w1, y2 := y.y1, z1 := w2, z2 := y.z1, heldU := u })

/-- R298: the event of a context names its group. -/
def State.ctxEvent (s : State) (x : Ctx) (sev code d1 : Nat) : State :=
  s.raise x.group.half { sev := sev, code := code, scope := 2, id := x.group, d0 := x.val % 32, d1 := d1 }

/-- R294 to R298: the context enters HOLD. -/
def State.enterHold (s : State) (x : Ctx) (cause : Nat) : State :=
  let s := (((s.endInjection x).capTrigger x 2).setCtxState x ctxHold cause).flag .CTX_HOLD_IN x
  let s := s.incSat .CTX_HOLD_CNT x
  let s := s.modCtx x fun y => { y with hd := y.d, hdEye := y.dEye, since := s.frame, bad := 0, good := 0, winN := 0, winS := 0, winQ := 0, follow := none }
  s.ctxEvent x 1 0x0301 cause

/-- R295: a used sample enters the window; at its end the second result says whether the variance is below the floor. -/
def State.window (s : State) (x : Ctx) (r : Int) : State × Option Bool :=
  let y := s.ctx x
  let n := y.winN + 1
  let sum := y.winS + r
  let sq := y.winQ + r * r
  if n < 2 ^ s.inUse .CTX_FREEZE_LOG2 x then (s.modCtx x fun y => { y with winN := n, winS := sum, winQ := sq }, none)
  else
    let low := decide ((n : Int) * sq - sum * sum < (s.inUse .CTX_FREEZE_FLOOR x : Int) * n * n)
    (s.modCtx x fun y => { y with winN := 0, winS := 0, winQ := 0 }, some low)

/-- R296: the following-error check of a sample; the second result says that the time is up. -/
def State.following (s : State) (x : Ctx) (e : Int) : State × Bool :=
  let lim := s.inUse .CTX_FE_LIM x
  let n := s.frame
  if lim = 0 ∨ s.isSet .CTX_INJ x ∨ e.natAbs ≤ lim then (s.modCtx x fun y => { y with follow := none }, false)
  else
    let from' := (s.ctx x).follow.getD n
    (s.modCtx x fun y => { y with follow := some from' },
      decide (s.inUse .CTX_FE_TIME x * 1000 ≤ (n - from') * 4))

/-- R294 to R296: supervision of a used sample in CLOSED, in the order of R300. -/
def State.supervise (s : State) (x : Ctx) (r e : Int) : State :=
  let w := s.window x r
  let f := w.1.following x e
  if w.2 = some true ∧ s.inUse .CTX_FREEZE_FLOOR x ≠ 0 then f.1.enterHold x 2
  else if f.2 then f.1.enterHold x 3
  else f.1

/-- R283: a used sample: profile, law, output, supervision. -/
def State.usedSample (s : State) (x : Ctx) (r : Int) (seen : Bool) : State :=
  let s := s.eyeWeight x false
  let v := s.scaled x r
  let s :=
    if s.inUse .CTX_DEMOD x = 1 && seen then
      let d := s.demodulate x v (s.ctx x).d (s.ctx x).dEye (!s.isSet .CTX_EYE_DROP x)
      ((s.modCtx x fun y => { y with d := d.1, dEye := d.2.1 }).put .CTX_X_NOW x (ofSigned 32 d.2.2)).eyeRestore x
    else if seen then s.put .CTX_X_NOW x (ofSigned 32 v)
    else s
  let v := toSigned 32 (s.get .CTX_X_NOW x)
  let s := if (s.ctx x).fresh then s.initStart x v else s.stepProfile x
  let tgt := s.target x
  let s := s.replan x tgt
  let s := s.beginInjection x
  let inj := s.injected x
  let point := s.get .LG_POINT x.group
  let pos := (s.ctx x).pos
  let p := if point = 0 then sat32 (pos + inj) else pos
  let e := sat32 (p - v)
  let l := if s.inUse .CTX_MODE x = 1 then (p, p, s) else s.law x e v
  let s := l.2.2
  let w2 := if point = 0 then l.2.1 else l.2.1 + inj
  let o := s.clampOut x (w2 + s.dither x)
  let s := s.putBool .CTX_CLAMP x (o != w2 + s.dither x)
  let hold := s.clampOut x w2
  let per := s.inUse .CTX_DITH_PER x
  let s := s.modCtx x fun y => { y with xPrev := v, held := hold, k := (y.k + 1) % max 1 per, r := if seen then r else y.r, bad := 0, resume := false }
  let s := ((s.put .CTX_P_NOW x (ofSigned 32 p)).put .CTX_E_NOW x (ofSigned 32 e)).atTarget x
  let s := (s.drive x o).perf (Group.perfBlk x.group) 0x0A
  let s := (s.record x { s.signals x with u := l.1, j := inj }).stepInjection x
  if s.inUse .CTX_MODE x = 1 then s else s.supervise x r e

/-- R294: a sample that is not used: invalid ones count toward LOST, SUSPECT ones are counted. -/
def State.skippedSample (s : State) (x : Ctx) (f : Feedback) : State :=
  let s := (s.perf (Group.perfBlk x.group) 0x0B).record x (s.signals x)
  if f = .suspect then s.incSat .CTX_SKIP_CNT x
  else
    let n := (s.ctx x).bad + 1
    let s := s.modCtx x fun y => { y with bad := n }
    if s.inUse .CTX_LOST_N x ≤ n then s.enterHold x 1 else s

/-- A sample in RUN. In OPEN the feedback is only measured (R293). -/
def State.runSample (s : State) (x : Ctx) (f : Feedback) : State :=
  match f with
  | .ok r => s.usedSample x r true
  | _ => if s.inUse .CTX_MODE x = 1 then s.usedSample x 0 false else s.skippedSample x f

/-! ### Samples in HOLD, PARKING and the external holds -/

/-- R297: the held output, with the dither that runs on. -/
def State.holdOutput (s : State) (x : Ctx) : State :=
  let o := s.clampOut x ((s.ctx x).held + s.dither x)
  let per := s.inUse .CTX_DITH_PER x
  let s := (s.modCtx x fun y => { y with k := (y.k + 1) % max 1 per }).drive x o
  s.record x (s.signals x)

/-- R297: the fault clears. -/
def State.clearHold (s : State) (x : Ctx) : State :=
  let s := (s.flag .CTX_HOLD_CLR x).modCtx x fun y => { y with clears := true }
  s.ctxEvent x 0 0x0302 0

/-- R297, R298 and R300: the sample after the fault has cleared: STATE = RUN; the context resumes, or starts where MODE has changed meanwhile, with the
settings in force. -/
def State.leaveHold (s : State) (x : Ctx) : State :=
  if (s.ctx x).restart then s.startCtx x
  else (s.setCtxState x ctxRun 0).modCtx x fun y =>
    { y with resume := true, clears := false, before := [], bad := 0, good := 0, winN := 0, winS := 0, winQ := 0, follow := none }

/-- R297: a sample in HOLD. -/
def State.holdSample (s : State) (x : Ctx) (f : Feedback) : State :=
  match f with
  | .suspect => (s.incSat .CTX_SKIP_CNT x).holdOutput x
  | .invalid => (s.modCtx x fun y => { y with good := 0 }).holdOutput x
  | .ok r =>
    let s := (s.eyeWeight x true).modCtx x fun y => { y with r := r }
    let v := s.scaled x r
    let s :=
      if s.inUse .CTX_DEMOD x = 1 then
        let d := s.demodulate x v (s.ctx x).hd (s.ctx x).hdEye (!s.isSet .CTX_EYE_DROP x)
        ((s.modCtx x fun y => { y with hd := d.1, hdEye := d.2.1 }).put .CTX_X_NOW x (ofSigned 32 d.2.2)).eyeRestore x
      else s.put .CTX_X_NOW x (ofSigned 32 v)
    let e := sat32 ((s.ctx x).pos - toSigned 32 (s.get .CTX_X_NOW x))
    let s := (s.put .CTX_E_NOW x (ofSigned 32 e)).atTarget x
    let cause := s.get .CTX_CAUSE x
    let w := s.window x r
    let ok := if cause = 3 then decide (2 * e.natAbs ≤ s.inUse .CTX_FE_LIM x) else true
    let n := if ok then (s.ctx x).good + 1 else 0
    let s := (if cause = 2 then w.1 else s).modCtx x fun y => { y with good := n }
    let s := s.holdOutput x
    if (if cause = 2 then w.2 = some false else 64 ≤ n) then s.clearHold x else s

/-- R298: a sample in PARKING: the profile generator moves the output toward PARK. -/
def State.parkSample (s : State) (x : Ctx) : State :=
  let s := (s.stepProfile x).replan x (s.cs .CTX_PARK x)
  let o := (s.ctx x).pos
  let s := ((s.put .CTX_P_NOW x (ofSigned 32 o)).atTarget x).drive x o
  s.record x (s.signals x)

/-- R558 kind 8: the raw value of the context that an injection names is held at its last value. -/
def State.freeze (s : State) (x : Ctx) (f : Feedback) : State × Feedback :=
  let slot := (fiSlots x.group.half).find? fun (i : Fin 32) =>
    s.isSet .FIS_ACTIVE i && s.get .FIS_KIND i == 8 && s.get .FIS_ID i == x.group.val && (s.fi i).p1 % 32 == x.val % 32
  match slot, f with
  | some i, .ok r =>
    match (s.fi i).held with
    | some v => (s.inc .FIS_INJ_CNT i, .ok v)
    | none => ((s.inc .FIS_INJ_CNT i).modFi i fun y => { y with held := some r }, f)
  | _, _ => (s, f)

/-- R276: the frame is one in which a context samples, and it has not sampled in it. DEDUCED: every PERIOD-th frame is one whose number from PORST# is a
multiple of PERIOD, as R326 has it for the sequences (log 224). -/
def State.samples276 (s : State) (x : Ctx) : Bool :=
  s.frame % max 1 (s.inUse .CTX_PERIOD x) == 0 && (s.ctx x).last != some s.frame

/-- R283, R293, R297 to R299: the sample of a context in its state. -/
def State.sampleNow (s : State) (x : Ctx) (f : Feedback) : State :=
  let st := s.get .CTX_STATE x
  if st = ctxRun ∨ st = ctxHold then
    if s.belowStops x then s.holdExt x 6 else if st = ctxRun then s.runSample x f else s.holdSample x f
  else if st = ctxParking then s.parkSample x
  else (s.atTarget x).record x (s.signals x)

/-- R277 and R283: a context samples. -/
def execLoopSample (x : Ctx) (s : State) : Host.Outcome State Fault Refusal :=
  if s.engineKept x.group ∨ s.engineOff x.group ∨ s.get .CTX_STATE x = ctxOff ∨ ¬ s.samples276 x then done s
  else
    let s := s.modCtx x fun y => { y with last := some s.frame }
    let s := if s.get .CTX_STATE x = ctxHold ∧ (s.ctx x).clears ∧ ¬ s.belowStops x then s.leaveHold x else s
    let z := s.freeze x (s.source x (s.inUse .CTX_FB_SRC x))
    let s := z.1.sampleNow x z.2
    let t := s.ffReading x
    done (s.modCtx x fun y => { y with temp := t })

/-- R298: HOLD_TO has passed since the entry to HOLD. -/
def State.holdOver (s : State) (x : Ctx) : Bool :=
  let y := s.ctx x
  decide (s.inUse .CTX_HOLD_TO x * 1000 ≤ (s.frame - y.since) * 4)

/-- R298: the first sample at or after HOLD_TO: the context parks; the lane is fenced, or one WARN event is raised. -/
def execHoldTimeout (x : Ctx) (s : State) : Host.Outcome State Fault Refusal :=
  if s.get .CTX_STATE x ≠ ctxHold ∨ !s.holdOver x ∨ (s.ctx x).clears ∨ s.engineKept x.group then done s
  else
    let cause := s.get .CTX_CAUSE x
    let s := s.setCtxState x ctxParking cause
    let s := ((s.modCtx x fun y => { y with p := y.held * 65536, v := 0, a := 0 }).replan x (s.cs .CTX_PARK x)).atTarget x
    match s.ctxLane x with
    | some l =>
      if s.inUse .CTX_FENCE_EN x = 1 then
        let apc := s.isApc x || (s.lane l).loopApc && (s.lane l).fences.contains .loop
        done (((s.modCtx x fun y => { y with mine := true }).modLane l fun y => { y with loopApc := apc }).fenceIn (.lane l) .loop)
      else done (s.ctxEvent x 2 0x0303 0)
    | none => done (s.ctxEvent x 2 0x0303 0)

/-- R298: the ramp has reached PARK. -/
def execParkComplete (x : Ctx) (s : State) : Host.Outcome State Fault Refusal :=
  let y := s.ctx x
  if s.get .CTX_STATE x = ctxParking ∧ y.p = s.cs .CTX_PARK x * 65536 ∧ y.v = 0 ∧ y.a = 0 then
    done ((s.setCtxState x ctxParked (s.get .CTX_CAUSE x)).flag .CTX_PARKED x)
  else done s

/-! ### Frames, injector and capture commands -/

/-- R527: the timers of a context in HOLD stand while the loop engine of its group keeps its contexts. -/
def State.standTimer (s : State) (x : Ctx) : State :=
  if s.engineKept x.group ∧ s.get .CTX_STATE x = ctxHold then s.modCtx x fun y => { y with since := y.since + 1 } else s

/-- R276 and R326: a loop-engine frame starts; each sequence takes its EN, PERIOD and OFFSET. -/
def execLoopFrame (s : State) : Host.Outcome State Fault Refusal :=
  let s := ({ s with frame := s.frame + 1 } : State).each (List.finRange 192) State.standTimer
  done (s.each (List.finRange 8) fun s (q : SeqN) =>
    let en := s.isSet .SEQ_EN q
    let per := s.get .SEQ_PERIOD q
    let off := s.get .SEQ_OFFSET q
    s.modSeq q fun y => { y with en := en, period := per, offset := off })

/-- R301: the injector leaves its context; what ran may go on on another. -/
def State.injectorMoves (s : State) (g : Group) : State := s.each g.ctxs fun s x => s.put .CTX_INJ x 0

/-- R301: START is written 1. -/
def State.injectionStart (s : State) (g : Group) : State :=
  (s.injectorMoves g).modGroup g fun y => { y with inj := { y.inj with armed := true, on := false, k := 0, phase := 0, prbs := 0x7FF } }

def execInjectionStart (g : Group) (s : State) : Host.Outcome State Fault Refusal :=
  done (s.hostWrite g.half fun s => s.injectionStart g)

/-- The context that INJ_CTX names. -/
def State.injCtx (s : State) (g : Group) : Ctx := g.ctx ⟨s.get .LG_INJ_CTX g % 32, by omega⟩

/-- R301: STOP is written 1. -/
def State.injectionStop (s : State) (g : Group) : State :=
  (s.injectorMoves g).modGroup g fun y => { y with inj := { y.inj with armed := false, on := false, k := 0 } }

def execInjectionStop (g : Group) (s : State) : Host.Outcome State Fault Refusal :=
  done (s.hostWrite g.half fun s => s.injectionStop g)

/-- R301: an injection of LEN samples has ended. -/
def execInjectionEnd (g : Group) (s : State) : Host.Outcome State Fault Refusal :=
  let len := s.get .LG_LEN g
  if len ≠ 0 ∧ len ≤ (s.group g).inj.k then done (s.injectionStop g) else done s

/-- R302: ARM is written 1; with TRIG = 0 that is the trigger. -/
def State.captureArm (s : State) (g : Group) : State :=
  let now := s.get .LG_TRIG g == 0
  let s := ((s.put .LG_DONE g 0).put .LG_COUNT g 0).putBool .LG_ARMED g !now
  s.modGroup g fun y => { y with inj := { y.inj with run := now, pre := [], dec := 0 } }

def execCaptureArm (g : Group) (s : State) : Host.Outcome State Fault Refusal :=
  done (s.hostWrite g.half fun s => s.captureArm g)

/-- R302: the buffer is full. -/
def execCaptureDone (g : Group) (s : State) : Host.Outcome State Fault Refusal :=
  if (s.group g).inj.run ∧ s.get .LG_COUNT g = 4096 then
    done ((s.put .LG_DONE g 1).modGroup g fun y => { y with inj := { y.inj with run := false } })
  else done s

/-- R302: a read of CAP_DATA; CAP_ADDR increments. -/
def captureOff (g : Group) : Nat := 0x10000 * (1 + g.val % 3) + 0xC02C

def State.captureRead (s : State) (g : Group) : State :=
  let a := s.get .LG_CAP_ADDR g
  (s.emit (.read g.half (captureOff g) (s.capture.get (4096 * g.val + a)))).put .LG_CAP_ADDR g ((a + 1) % 4096)

def execCaptureDataRead (g : Group) (s : State) : Host.Outcome State Fault Refusal :=
  done (s.hostRead g.half (captureOff g) fun s => s.captureRead g)

end Sys2Proof.Machine
end

