-- ==== Sys2Proof/Machine/Laser.lean ====
section
/-! DEFINITION. The laser safety supervisor (R306 to R322): ceilings and lock, the over-power trip, SAFE_OFF# and automatic power
reduction. LASEN itself follows from the state (Flags.lean). -/

namespace Sys2Proof.Machine

/-! ### Ceilings and their lock -/

/-- R312 and R322: a write of SOFF_RESUME and LOCK. -/
def State.lockWrite (s : State) (h : Half) (v : Nat) : State := s.writeWord h 0x70800 v

def execLsLockWrite (h : Half) (v : W32) (s : State) : Host.Outcome State Fault Refusal :=
  done (s.hostWrite h fun s => s.lockWrite h v.toNat)

/-- R312: the channel may become the laser-bias channel of a lane. -/
def State.laserCdOk (s : State) (l : Lane) (c : Nat) : Bool :=
  if h : c < 160 then
    let c : Chan := ⟨c, h⟩
    (Lane.group l).owns c && !(Lane.group l).lanes.any fun m => m != l && s.laserCd m == c
  else false

/-- R312 and R321: a write of LN_LS_CEIL; the channel no longer named becomes an ordinary one. -/
def State.ceilWrite (s : State) (l : Lane) (v : Nat) : State :=
  let off := laneOff l 0xD000 0x20 0
  if s.isSet .LSH_LOCK l.half then s.writeIgnored l.half off 0x08
  else if !s.laserCdOk l (v / 2 ^ 24 % 256) then s.writeIgnored l.half off 0x01
  else
    let old := s.laserCd l
    let s := s.writeWord l.half off v
    if s.laserCd l = old then s else s.put .CD_FORCED0 old 0

def execLsCeilWrite (l : Lane) (v : W32) (s : State) : Host.Outcome State Fault Refusal :=
  done (s.hostWrite l.half fun s => s.ceilWrite l v.toNat)

/-- R310: the 10 µs in which the bias channel stays at code 0 end. -/
def execBiasHoldEnd (l : Lane) (s : State) : Host.Outcome State Fault Refusal :=
  if (s.lane l).biasHold ∧ (s.lane l).clk.biasAt + 2500 ≤ (s.half l.half).aon then
    done ((s.modLane l fun x => { x with biasHold := false }).put .CD_FORCED0 (s.laserCd l) 0)
  else done s

/-! ### Over-power shutdown -/

/-- R313: the comparator threshold of a lane in 0.5 µA before the factor 1.2. -/
def State.ovpCeil (s : State) (l : Lane) : Nat :=
  if (s.lane l).aprLow then min (s.app .LS_APR_PWR l) (s.get .LS_PWR_CEIL l) else s.get .LS_PWR_CEIL l

/-- R313: a photocurrent in µA is an excess; a threshold of 0 counts any above 2 µA. -/
def State.isExcess (s : State) (l : Lane) (microAmps : Nat) : Bool :=
  if s.ovpCeil l = 0 then 2 < microAmps else 6 * s.ovpCeil l < 10 * microAmps

/-- R313: an excess of 20 µs: the trip latches and the lane is fenced. -/
def execOverPowerTrip (l : Lane) (microAmps : Nat) (s : State) : Host.Outcome State Fault Refusal :=
  if s.isExcess l microAmps ∧ ¬ (s.lane l).ovpTrip then
    let s := s.modLane l fun x => { x with ovpTrip := true }
    let s := (s.flag .LS_OVP_TRIP l).incSat .LS_OVP_CNT l
    done (s.fenceIn (.lane l) .laserOvp)
  else done s

/-! ### SAFE_OFF# -/

/-- R315: SAFE_OFF# goes low at the half. -/
def execSafeOffAssert (h : Half) (s : State) : Host.Outcome State Fault Refusal :=
  if s.isSet .LSH_SOFF_PIN h then
    let s := ((s.put .LSH_SOFF_PIN h 0).put .LSH_SOFF_HELD h 1).incSat .LSH_SOFF_CNT h
    done (s.raise h { sev := 2, code := 0x0304, scope := 1, id := h, d0 := s.get .LSH_SOFF_CNT h })
  else done s

/-- R315: SAFE_OFF# is seen high; the lasers stay held off. -/
def execSafeOffDeassert (h : Half) (s : State) : Host.Outcome State Fault Refusal := 
  done (if s.isSet .LSH_SOFF_PIN h then s else (s.put .LSH_SOFF_PIN h 1).modHalf h fun y => { y with soffAt := y.aon })

/-- R315: with SOFF_RESUME = 1 the pin has stayed high for 1 ms. -/
def execSafeOffAutoRelease (h : Half) (s : State) : Host.Outcome State Fault Refusal :=
  if s.isSet .LSH_SOFF_PIN h ∧ s.isSet .LSH_SOFF_RESUME h ∧ (s.half h).soffAt + msTicks 1 ≤ (s.half h).aon then done (s.put .LSH_SOFF_HELD h 0) else done s

/-- R315: a write of RESUME: it releases with SOFF_RESUME = 0 while the pin is high. -/
def State.resumeWrite (s : State) (h : Half) (v : Nat) : State :=
  if v.testBit 0 ∧ s.isSet .LSH_SOFF_PIN h ∧ ¬ s.isSet .LSH_SOFF_RESUME h then s.put .LSH_SOFF_HELD h 0 else s

def execSafeOffResumeWrite (h : Half) (v : W32) (s : State) : Host.Outcome State Fault Refusal :=
  done (s.hostWrite h fun s => s.resumeWrite h v.toNat)

/-! ### Automatic power reduction -/

/-- R316: a time of APR has passed since a tick of the always-on clock: all of them are ±2 %. -/
def State.aprOver (s : State) (l : Lane) (since ms : Nat) : Bool := since + msTicks ms * 98 / 100 ≤ (s.half l.half).aon

/-- R316: entry to APR_HOLD, from ON or from a pulse. -/
def State.enterAprHold (s : State) (l : Lane) : State :=
  let s := s.modLane l fun x => { x with apr := .hold, aprLow := false, clk.aprAt := (s.half l.half).aon }
  let s := (s.flag .LS_APR_IN l).incSat .LS_APR_CNT l
  s.raise l.half { sev := 1, code := 0x0305, scope := 4, id := l, d0 := s.get .LS_APR_CNT l }

/-- R316: no light for the APR timer's 500 ms. -/
def execAprHoldEntry (l : Lane) (s : State) : Host.Outcome State Fault Refusal :=
  if s.aprRuns l ∧ ¬ s.isSet .FE_SIG_DET l ∧ (s.lane l).apr = .off ∧ ((s.lane l).clk.darkAt.any fun t => s.aprOver l t 500) then
    let t := (s.half l.half).aon
    done ((s.enterAprHold l).modLane l fun x => { x with pulseAt := t })
  else done s

/-- R316: 50 ms after the entry to APR_HOLD with APR_MODE = 1 the threshold follows APR_PWR. -/
def execAprThresholdLower (l : Lane) (s : State) : Host.Outcome State Fault Refusal :=
  if (s.lane l).apr = .hold ∧ s.appSet .LS_APR_MODE l ∧ s.aprOver l (s.lane l).clk.aprAt 50 then done (s.modLane l fun x => { x with aprLow := true }) else done s

/-- R316 and R317: a restart pulse starts; the threshold is 1.2 × PWR_CEIL again. -/
def State.startPulse (s : State) (l : Lane) : State :=
  s.modLane l fun x => { x with apr := .pulse, aprLow := false, clk.aprAt := (s.half l.half).aon }

/-- R316: the scheduled restart pulse, from which the next 100 s count. -/
def execAprRestartPulse (l : Lane) (s : State) : Host.Outcome State Fault Refusal :=
  if (s.lane l).apr ≠ .off ∧ s.aprOver l (s.lane l).pulseAt 100000 then
    let t := (s.half l.half).aon
    done ((s.startPulse l).modLane l fun x => { x with pulseAt := t })
  else done s

/-- R316: a pulse of 2 s has brought no light. -/
def execAprPulseEnd (l : Lane) (s : State) : Host.Outcome State Fault Refusal :=
  if (s.lane l).apr = .pulse ∧ s.aprOver l (s.lane l).clk.aprAt 2000 then done (s.enterAprHold l) else done s

end Sys2Proof.Machine
end

