-- ==== Sys2Proof/Machine/Monitor.lean ====
section
/-! DEFINITION. The monitor (R323 to R339): sequences and runs, the conversion of an entry with its over-range and suspect marks, the
window comparators, the test DAC and the decimation chains. -/

namespace Sys2Proof.Machine

/-! ### Where an entry reads -/

/-- R323: the group that an input of half `h` lies on, a read-back channel's group among them. -/
def inputGroup (h : Half) (i : Nat) : Option Group :=
  let k := if i < 96 then i / 32 else if 128 ≤ i ∧ i < 200 then (i - 128) / 24 else 3
  if hk : k < 3 then some ⟨3 * h.val + k, by omega⟩ else none

/-- R323: reserved inputs. -/
def inputReserved (i : Nat) : Bool := (104 ≤ i && i < 128) || 212 ≤ i

/-- R328, R526 and R529: a group is in G-ACTIVE with pads released, in which an entry handshake or a group reset leaves it. -/
def State.groupActive (s : State) (g : Group) : Bool :=
  let st := s.get .PG_STATE g
  (st == 0 || (st == 5 && (s.group g).hs.any fun x => x.origin == 0)) && !s.isSet .PG_PADS_HELD g

/-- R328 and R532: an input is converted: its group in G-ACTIVE, or in an open proof window. -/
def State.inputLive (s : State) (h : Half) (i : Nat) : Bool :=
  match inputGroup h i with
  | some g => s.groupActive g || (s.get .PG_STATE g == 2 && (s.group g).proof)
  | none => true

/-- Words 0 and 1 of an entry (R351). -/
def State.entryWord (s : State) (n : EntryN) (word : Nat) : Nat :=
  s.readFields n.half (0x51000 + 0x10 * (n.val % 256) + 4 * word)

/-- Fields of word 0 of an entry as a run took it. -/
def entEn (w : Nat) : Bool := w.testBit 31
def entInput (w : Nat) : Nat := w / 2 ^ 23 % 256
def entChainEn (w : Nat) : Bool := w.testBit 19
def entTest (w : Nat) : Bool := w.testBit 13

/-! ### Runs -/

/-- R326: a run of the sequence waits; its start time lies OFFSET × 500 ns after the frame's start. -/
def State.makeReady (s : State) (q : SeqN) (offset : Nat) : State :=
  let t := s.ticks q.half + 125 * offset
  s.modSeq q fun y => { y with waiting := true, ready := t }

/-- R326 and R327: the sequence falls due in this frame; it loses the run while one waits or runs. -/
def execSequenceDue (q : SeqN) (s : State) : Host.Outcome State Fault Refusal :=
  let y := s.sequ q
  if !y.en || s.frame % y.period != 0 then done s
  else if y.waiting || y.run.isSome then done (s.incSat .SEQ_OVERRUN q)
  else done (s.makeReady q (s.sequ q).offset)

/-- R326: the entries of a run, in order, as they stand at its start. -/
def State.runEntries (s : State) (q : SeqN) : List (Nat × Nat × Nat) :=
  (List.range (min (s.get .SEQ_LEN q) 64)).filterMap fun e =>
    if h : 64 * q.val + e < 512 then
      let n : EntryN := ⟨64 * q.val + e, h⟩
      let w := s.entryWord n 0
      if entEn w && s.inputLive q.half (entInput w) then some (n.val, w, s.entryWord n 1) else none
    else none

/-- R326: a run with no entry left is complete. -/
def State.endRun (s : State) (q : SeqN) : State :=
  if (s.sequ q).run = some [] then
    let t := s.ticks q.half
    (s.modSeq q fun y => { y with run := none, ended := t }).inc .SEQ_RUNS q
  else s

/-- R327: when the waiting run of a sequence may start: at its start time, or when the converter becomes free after it. -/
def State.runAt (s : State) (q : SeqN) : Nat := max (s.sequ q).ready (max (s.sequ q).ended (s.sequ q.mate).ended)

/-- R327: the run of a sequence starts: its time has come, the converter is free, and the other sequence does not go first: the one that may start
earlier, at the same time the lower-numbered one. -/
def State.mayRun (s : State) (q : SeqN) : Bool :=
  let m := s.sequ q.mate
  let own := s.runAt q
  let other := s.runAt q.mate
  (s.sequ q).waiting && m.run.isNone && decide (own ≤ s.ticks q.half)
    && !(m.waiting && (decide (other < own) || (other == own && decide (q.mate.val < q.val))))

/-! ### Decimation chains -/

/-- R336 and R337: N, L and the shifts in force. -/
def State.chainCfg (s : State) (c : ChainN) : Nat × Nat × List Nat :=
  match s.get .CH_PRESET c with
  | 0 => (s.get .CH_N c, s.get .CH_LM1 c + 1, [s.get .CH_SH1 c, s.get .CH_SH2 c, s.get .CH_SH3 c])
  | 1 => (1, 4, [2])
  | 2 => (2, 16, [4, 4])
  | 3 => (3, 64, [6, 6, 6])
  | _ => (3, 1024, [10, 10, 10])

/-- R338: a chain restarts. -/
def State.restartChain (s : State) (c : ChainN) : State :=
  let k := s.chainCfg c
  let s := ((s.put .CH_SETTLED c 0).put .CH_FILL c (k.1 * k.2.1)).put .CH_OUT_CNT c 0
  s.modChain c fun x => { x with first := true, stages := [], count := 0, ints := [], combs := [] }

/-! ### A run starts -/

/-- The chain of half `h` that word 0 of an entry names. -/
def entChain (h : Half) (w : Nat) : ChainN := ⟨32 * h.val + w / 2 ^ 14 % 32, by omega⟩

/-- R326: the enabled entries of a sequence as they stand at the start of a run, each with its word 0. -/
def State.enabledEntries (s : State) (q : SeqN) : List (Nat × Nat) :=
  (List.range 64).filterMap fun e =>
    if h : 64 * q.val + e < 512 then
      let w := s.entryWord ⟨64 * q.val + e, h⟩ 0
      if entEn w then some (64 * q.val + e, w) else none
    else none

/-- R326 and R338: an entry feeds its chain as it did in the run before: enabled, with the same input. -/
def feedsAsBefore (h : Half) (took : List (Nat × Nat)) (e : Nat × Nat) : Bool :=
  took.any fun b => b.1 == e.1 && entChainEn b.2 && entInput b.2 == entInput e.2 && entChain h b.2 == entChain h e.2

/-- R326, R327, R338: a run starts with the entries as they stand now; the chain of an entry that is newly enabled, or whose INPUT has changed,
restarts. -/
def execSequenceRunStart (q : SeqN) (s : State) : Host.Outcome State Fault Refusal :=
  if s.mayRun q then
    let es := s.runEntries q
    let en := s.enabledEntries q
    let new := en.filter fun e => entChainEn e.2 && !feedsAsBefore q.half (s.sequ q).took e
    let s := s.each new fun s e => s.restartChain (entChain q.half e.2)
    done ((s.modSeq q fun y => { y with waiting := false, run := some es, took := en, fresh := true }).endRun q)
  else done s

/-! ### The stages of a chain -/

/-- R335: the DC block on input `x`: what it puts out, and the estimate. -/
def State.dcBlock (s : State) (c : ChainN) (x : Nat) : Int × State :=
  let s := if (s.chain c).first ∧ s.get .CH_HP_FREEZE c = 0 then s.put .CH_HP_EST c (x * 65536) else s
  if s.get .CH_HP_EN c = 0 then (x, s)
  else
    let d : Int := s.get .CH_HP_EST c
    let d' := if s.isSet .CH_HP_FREEZE c then d else d + roundUp (x * 65536 - d) (2 ^ s.get .CH_HP_SH c)
    (x - roundUp d 65536, s.put .CH_HP_EST c d'.toNat)

def satInt32 (v : Int) : Int := clampInt (-(2 ^ 31)) (2 ^ 31 - 1) v

/-- R336: the moving-sum stages on one input: the windows after it and the output of the last. -/
def sumStages (len : Nat) : List Nat → List (List Int) → Int → List (List Int) × Int
  | [], _, x => ([], x)
  | sh :: shs, st, x =>
    let w := (x :: st.headD []).take len
    let y := satInt32 (roundUp (w.sum) (2 ^ sh))
    let r := sumStages len shs st.tail y
    (w :: r.1, r.2)

/-- R339: the integrators on one input, modulo 2^64. -/
def integrate : Nat → List Nat → Nat → List Nat
  | 0, _, _ => []
  | n + 1, is, x =>
    let v := (is.headD 0 + x) % 2 ^ 64
    v :: integrate n is.tail v

/-- R339: the combs on one output: their stored values after it and the result. -/
def comb : Nat → List Nat → Nat → List Nat × Nat
  | 0, _, x => ([], x)
  | n + 1, cs, x =>
    let r := comb n cs.tail ((x + 2 ^ 64 - cs.headD 0) % 2 ^ 64)
    (x :: r.1, r.2)

/-- R336: the code of a chain output. -/
def State.chainCode (s : State) (c : ChainN) (v : Int) : Nat :=
  (clampInt 0 65535 (if s.isSet .CH_HP_EN c then 32768 + v else v)).toNat

/-- R336, R338, R339: the stages take an input; with an output due, its code. -/
def State.chainStages (s : State) (c : ChainN) (y : Int) : State × Option Nat :=
  let k := s.chainCfg c
  let n := k.1
  let len := k.2.1
  let shs := k.2.2.take n
  let m := (s.chain c).count + 1
  let due := m % len == 0
  let settled := due && n * len ≤ m
  let s := (s.modChain c fun x => { x with first := false, count := m }).put .CH_FILL c (s.get .CH_FILL c - 1)
  let s := if settled then s.put .CH_SETTLED c 1 else s
  let s := if due then s.inc .CH_OUT_CNT c else s
  if s.isSet .CH_FULLW c then
    let is := integrate n (s.chain c).ints (ofSigned 64 y)
    let s := s.modChain c fun x => { x with ints := is }
    if due then
      let r := comb n (s.chain c).combs (is.getLastD 0)
      let s := (s.modChain c fun x => { x with combs := r.1 }).put .CH_FW_RESULT c r.2
      (s, if settled then some (s.chainCode c (roundUp (toSigned 64 r.2) (2 ^ shs.sum))) else none)
    else (s, none)
  else
    let r := sumStages len shs (s.chain c).stages y
    let s := s.modChain c fun x => { x with stages := r.1 }
    (s, if settled then some (s.chainCode c r.2) else none)

/-- R335 and R338: an input that is not over-range, with the restart of STEP_THR; the input that restarts the chain is its first. -/
def State.chainInput (s : State) (c : ChainN) (x : Nat) : State × Option Nat :=
  let thr := s.get .CH_STEP_THR c
  let stepped := match (s.chain c).prev with
    | some p => thr != 0 && decide (thr < ((x : Int) - p).natAbs)
    | none => false
  let s := if stepped then s.restartChain c else s
  let s := s.modChain c fun y => { y with prev := some x }
  let r := s.dcBlock c x
  r.2.chainStages c r.1

/-! ### Results -/

/-- R533: a wake of the group starts. -/
def State.startWake (s : State) (g : Group) (target : Nat) (cmd : Option Cmd) : State :=
  (s.put .PG_STATE g 6).modGroup g fun y => { y with wake := some ⟨false, false, (s.half g.half).aon, target, cmd⟩, proof := false }

/-- R532: a comparator of a group in G-PROOF has left its band. -/
def State.proofHit (s : State) (g : Group) : State :=
  if s.get .PG_STATE g ≠ 2 then s
  else
    let s := s.flag .PG_PROOF_WAKE g
    if s.isSet .PG_AUTO_WAKE g then s.startWake g 0 none else s

/-- R331: the window comparator on a result, with the words that the run took. -/
def State.windowCompare (s : State) (n : EntryN) (w0 w1 code : Nat) : State :=
  if !w0.testBit 12 then s
  else
    let hi := w1 / 65536
    let lo := w1 % 65536
    let hyst := w0 % 1024
    if hi < code ∨ code < lo then
      if s.isSet .ENT_OUTSIDE n then s
      else
        let s := (s.put .ENT_OUTSIDE n 1).flag .ENT_WIN_EXIT n
        let s := s.raise n.half
          { sev := w0 / 1024 % 4, code := 0x0401, scope := 1, id := n.half, d0 := n.val % 256, d1 := code }
        match inputGroup n.half (entInput w0) with
        | some g => s.proofHit g
        | none => s
    else if lo + hyst ≤ code ∧ code + hyst ≤ hi then s.put .ENT_OUTSIDE n 0 else s

/-- R328: one result write: CODE (none leaves it), ORNG, SUSPECT, SETTLED and TESTED. -/
def State.writeResult (s : State) (n : EntryN) (code : Option Nat) (orng suspect settled tested : Bool) : State :=
  let s := match code with
    | some v => s.put .ENT_CODE n v
    | none => s
  let s := ((s.putBool .ENT_ORNG n orng).putBool .ENT_SUSPECT n suspect).putBool .ENT_SETTLED n settled
  let s := (s.putBool .ENT_TESTED n tested).inc .ENT_SEQNUM n
  let s := match inputGroup n.half (s.get .ENT_INPUT n) with
    | some g => s.perf (Group.perfBlk g) 0x0C
    | none => s
  { s with results := s.results.set n (s.results.get n + 1), resultAt := s.resultAt.set n (s.ticks n.half + 1) }

/-- R324: the sense resistor in kΩ. -/
def senseKohm (k : Nat) : Nat := [1, 2, 5, 10, 20, 50, 100].getD k 100

/-- The index of an external input's registers, for input `i` of half `h` (R350). -/
def minIdx (h : Half) (i : Nat) : Nat := 104 * h.val + i

/-- R332: the voltage that a TEST sample converts, in µV. -/
def State.testVolts (s : State) (h : Half) (i : Nat) : Int :=
  let t := s.get .MON_TDAC_CODE h
  if i < 104 ∧ s.isSet .MIN_TYPE (minIdx h i) then (t * 2000 * senseKohm (s.get .MIN_SENSE (minIdx h i)) / 10 : Nat)
  else (t * 2000 : Nat)

/-- R323 and R324: the voltage at the converter in 1/16 µV. `x` is what the environment applies: the pin's voltage in µV, or its current in nA
where the input or the channel read back works in current; of VCTL the voltage; of the internal reference, ground and the test DAC, direct or in a
TEST entry, the deviation from the ideal output: 1.200 V, 0, or that of R332 (R334). -/
def State.seen (s : State) (h : Half) (test : Bool) (i : Nat) (x : Int) : Int :=
  if test then 16 * (s.testVolts h i + x)
  else if i < 104 then 16 * (if s.isSet .MIN_TYPE (minIdx h i) then x * senseKohm (s.get .MIN_SENSE (minIdx h i)) else x)
  else if hc : 128 ≤ i ∧ i < 208 then
    if 2 ≤ (s.chan (⟨80 * h.val + (i - 128), by omega⟩ : Chan)).mode then x else 8 * x
  else if i = 208 then 8 * x
  else if i = 209 then 16 * (1200000 + x)
  else if i = 211 then 16 * (s.get .MON_TDAC_CODE h * 2000 + x)
  else 16 * x

/-- R324: the code of a voltage: 31.25 µV to a code, rounded down. -/
def codeOf (v : Int) : Nat := (clampInt 0 65535 (v / 500)).toNat

/-- R330: slots from the latest over-range sample of converter `k` of a half, up to 3. -/
def State.orngAgo (s : State) (h : Half) (k : Nat) : Nat := (s.half h).orngAgo.getD k 3

/-- R325: the configuration of the input changed less than 50 µs ago. -/
def State.recentSense (s : State) (h : Half) (i : Nat) : Bool :=
  if i < 104 then
    let t := s.senseAt.get (minIdx h i)
    t != 0 && s.ticks h + 1 < t + 12500
  else false

/-- R326 and R330: the slots from the converter's previous sample to this one: in a run those of the entry itself; at the first entry of a run at least
those, and as many as have passed. -/
def slotsSince (fresh : Bool) (w0 slots : Nat) : Nat :=
  let own := 1 + w0 / 2 ^ 20 % 8
  if fresh then max slots own else own

/-- R325, R328 to R331, R335, R338: a sample on an entry of what `x` applies to its input, `gap` slots after the converter's previous one. A SUSPECT result
of a chained entry shows that it is SUSPECT and leaves CODE, SETTLED and the chain as they are. -/
def State.convert (s : State) (q : SeqN) (n : EntryN) (w0 w1 : Nat) (x : Int) (gap : Nat) : State :=
  let h := n.half
  let test := entTest w0
  let v := s.seen h test (entInput w0) x
  let k := q.val % 4 / 2
  let ago := min 3 (s.orngAgo h k + gap)
  let orng := decide (v < 0) || decide (32768000 < v)
  let code := codeOf v
  let suspect := decide (ago < 3) || s.recentSense h (entInput w0)
  let s := s.modHalf h fun y => { y with orngAgo := y.orngAgo.set k (if orng then 0 else ago) }
  let s := if orng then (s.flag .ENT_OVR n).incSat (if k = 0 then .MON_ORNG_CNT0 else .MON_ORNG_CNT1) h else s
  let s := if suspect then s.incSat .ENT_SUSP_CNT n else s
  if entChainEn w0 then
    let c := entChain h w0
    if suspect then s.writeResult n none orng true (s.isSet .CH_SETTLED c) test
    else if orng then (s.restartChain c).writeResult n none true false false test
    else
      let was := s.isSet .CH_SETTLED c
      let r := s.chainInput c code
      match r.2 with
      | some v => (r.1.writeResult n (some v) false false true test).windowCompare n w0 w1 v
      | none => if was && r.1.isSet .CH_SETTLED c then r.1 else r.1.writeResult n none false false false test
  else
    let s := s.writeResult n (some code) orng suspect true test
    if suspect then s else s.windowCompare n w0 w1 code

/-- R326 and R328: the entry at the head of the sequence's run is sampled and its result written; an entry of a group whose
inputs are no longer powered receives none. -/
def execMonitorConversion (q : SeqN) (applied : Int) (slots : Nat) (s : State) : Host.Outcome State Fault Refusal :=
  match (s.sequ q).run with
  | some ((k, w0, w1) :: rest) =>
    let gap := slotsSince (s.sequ q).fresh w0 slots
    let s := s.modSeq q fun y => { y with run := some rest }
    if h : k < 512 then
      let s := if s.inputLive q.half (entInput w0) then (s.convert q ⟨k, h⟩ w0 w1 applied gap).modSeq q fun y => { y with fresh := false } else s
      done (s.endRun q)
    else done (s.endRun q)
  | _ => done s

/-! ### Host writes -/

/-- R325 and R338: the chains fed from an input of half `h`, by the entries as the latest runs took them, restart. -/
def State.restartFed (s : State) (h : Half) (i : Nat) : State :=
  let fed := (s.seqs.toList.flatMap fun y => y.took).filter fun e => e.1 / 256 == h.val && entChainEn e.2 && entInput e.2 == i
  s.each fed fun s e => s.restartChain (entChain h e.2)

/-- R325 and R350: a write of an input's TYPE and SENSE. -/
def State.inputWrite (s : State) (i : InputN) (v : Nat) : State :=
  let h := i.half
  let old := (s.get .MIN_TYPE i, s.get .MIN_SENSE i)
  let s := s.writeWord h (0x50100 + 4 * (i.val % 104)) v
  if (s.get .MIN_TYPE i, s.get .MIN_SENSE i) = old then s
  else
    let t := s.ticks h + 1
    ({ s with senseAt := s.senseAt.set i t } : State).restartFed h (i.val % 104)

def execInputConfigWrite (i : InputN) (v : W32) (s : State) : Host.Outcome State Fault Refusal :=
  done (s.hostWrite i.half fun s => s.inputWrite i v.toNat)

/-- R333: an enabled loop context of the half reads the entry. -/
def State.entryRead (s : State) (n : EntryN) : Bool :=
  n.half.groups.any fun g => g.ctxs.any fun x => s.app .CTX_EN x == 1 && s.app .CTX_FB_SRC x == n.val % 256

/-- R335: another entry of the half feeds the chain. -/
def State.chainTaken (s : State) (n : EntryN) (c : Nat) : Bool :=
  (List.range 256).any fun e =>
    let m := 256 * n.half.val + e
    m != n.val && s.isSet .ENT_CHAIN_EN m && s.get .ENT_CHAIN m == c

/-- R351: the registers of an entry. -/
def entOff (n : EntryN) (word : Nat) : Nat := 0x51000 + 0x10 * (n.val % 256) + 4 * word

/-- R326, R331, R333, R335, R349, R351: a write of word 0 of an entry, which takes effect at the next run. -/
def State.entryConfigWrite (s : State) (n : EntryN) (v : Nat) : State :=
  let h := n.half
  let off := entOff n 0
  if inputReserved (entInput v) ∨ v / 1024 % 4 = 3 then s.writeIgnored h off 0x01
  else if entTest v ∧ s.entryRead n then s.writeIgnored h off 0x0B
  else if entChainEn v ∧ s.chainTaken n (v / 2 ^ 14 % 32) then s.writeIgnored h off 0x0B
  else
    (s.writeWord h off v).put .ENT_OUTSIDE n 0

/-- R331, R349, R351: a write of a word of an entry. -/
def State.entryWrite (s : State) (n : EntryN) (word : Nat) (v : Nat) : State :=
  match word with
  | 0 => s.entryConfigWrite n v
  | 1 => if v / 65536 < v % 65536 then s.writeIgnored n.half (entOff n 1) 0x01 else (s.writeWord n.half (entOff n 1) v).put .ENT_OUTSIDE n 0
  | w => s.writeWord n.half (entOff n w) v

def execMonitorEntryWrite (n : EntryN) (word : Fin 4) (v : W32) (s : State) : Host.Outcome State Fault Refusal :=
  done (s.hostWrite n.half fun s => s.entryWrite n word v.toNat)

/-- R338, R349, R352: a write of MON_CH_CFG or MON_CH_SH restarts the chain. -/
def State.chainWrite (s : State) (c : ChainN) (word : Nat) (v : Nat) : State :=
  let off := 0x52000 + 0x20 * (c.val % 32) + 4 * word
  if (slots c.half off).any fun x => x.fld.info.acc == .rw && !x.fld.inRange (x.value v) then s.writeIgnored c.half off 0x01
  else (s.writeWord c.half off v).restartChain c

def execChainConfigWrite (c : ChainN) (word : Fin 2) (v : W32) (s : State) : Host.Outcome State Fault Refusal :=
  done (s.hostWrite c.half fun s => s.chainWrite c word v.toNat)

/-- R338 and R352: RESTART is written 1. -/
def State.chainRestartWrite (s : State) (c : ChainN) (v : Nat) : State := if v.testBit 0 then s.restartChain c else s

def execChainRestartWrite (c : ChainN) (v : W32) (s : State) : Host.Outcome State Fault Refusal :=
  done (s.hostWrite c.half fun s => s.chainRestartWrite c v.toNat)

/-- R333: a write of TDAC_CODE, ignored while an entry with TEST = 1 is read by an enabled context. -/
def State.tdacWrite (s : State) (h : Half) (v : Nat) : State :=
  let busy := (List.range 256).any fun e =>
    if he : 256 * h.val + e < 512 then
      s.isSet .ENT_TEST (256 * h.val + e) && s.entryRead ⟨256 * h.val + e, he⟩
    else false
  if busy then s.writeIgnored h 0x50000 0x0B else s.writeWord h 0x50000 v

/-- R339: the chains of a half enter or leave full-width mode; each restarts. -/
def State.setFullWidth (s : State) (h : Half) (on : Bool) : State :=
  s.each (List.range 32) fun s k =>
    let c : ChainN := ⟨32 * h.val + k % 32, by omega⟩
    if s.isSet .CH_FULLW c = on then s else (s.putBool .CH_FULLW c on).restartChain c

end Sys2Proof.Machine
end

