-- ==== Sys2Proof/Machine/Survive.lean ====
section
/-! DEFINITION. What becomes of each class of setting at a reset or in a power state (R539): which half and group a field belongs to,
which fields are counters, and the classes of the table. -/

namespace Sys2Proof.Machine

/-! ### Where a field belongs -/

/-- The half of field `f` at index `i`, and its group (6 for the fields that the table of R539 counts to the half). -/
def Fld.home (f : Fld) (i : Nat) : Nat × Nat :=
  let n := i / max 1 f.info.subs
  let lane := fun l : Nat => (l / 24, l / 8)
  match f.info.blk with
  | .FE | .EQ | .FEC | .DMT | .PORT | .ACQ | .LS | .TSP | .TLM => lane n
  | .FECS => lane (n / 2)
  | .SROT | .DTW | .LG => (n / 3, n)
  | .HST => (n / 48, n / 16)
  | .CTX => (n / 96, n / 32)
  | .PERF | .PC => (n / 4, if n % 4 = 3 then 6 else 3 * (n / 4) + n % 4)
  | .PG | .THG => (n / 3, 6)
  | .FF => (n / 24, 6)
  | .SEQ | .BUD | .SP => (n / 4, 6)
  | .MIN => (n / 104, 6)
  | .ENT => (n / 256, 6)
  | .CH => (n / 32, 6)
  | .CD => (n / 80, 6)
  | .DS | .FIS => (n / 16, 6)
  | .ENG => (n / 12, 6)
  | .CAL => (if n < 48 then n / 24 else (n - 48) / 3, 6)
  | .ECC => (n / 28, 6)
  | .KND => (if n < 120 then n / 60 else (n - 120) / 4, 6)
  | .RING => (n / 8, 6)
  | _ => (n, 6)

/-- The counters, and with the W1C flags what the counter rows of R539 cover. -/
def Fld.counts (f : Fld) : Bool :=
  f.info.acc == .w1c || match f with
  | .FE_HO_CNT | .FE_HO_DEFER | .FE_HO_DISAGREE_CNT | .FE_GAIN_CNT | .EQ_SWAP_CNT | .EQ_REVERT_CNT | .EQ_TX_CLAMP => true
  | .FECS_CW | .FECS_CORR_CW | .FECS_UNCORR_CW | .FECS_SYM_ERR | .FECS_BIT_ERR | .FECS_ERASE_CW | .FEC_HIST => true
  | .FEC_PRE_DEC_ERR | .FEC_PARITY_FAIL | .DMT_SWAP_CNT | .DMT_SWAP_FAIL_CNT | .DMT_TX_CLIP | .HST_DROP_CNT | .HST_TRAIN_CNT => true
  | .ACQ_FALSE_DET | .ACQ_RESTART | .ACQ_HDR_FAIL | .ACQ_CRC_FAIL | .ACQ_PSTEP_ABORT | .ACQ_FOREIGN | .ACQ_FRAME_OK => true
  | .ACQ_FAIL_CNT | .ACQ_DATA_CNT | .CTX_HOLD_CNT | .CTX_SKIP_CNT | .LS_CLAMP_CNT | .LS_APR_CNT | .MON_ORNG_CNT1 => true
  | .MON_ORNG_CNT0 | .SEQ_RUNS | .SEQ_OVERRUN | .ENT_SUSP_CNT | .CH_OUT_CNT | .CLRH_CLR_CNT | .THG_THR_TICKS | .CAL_CAL_CNT => true
  | .CAL_DIS_CNT | .CALH_MON_CAL_CNT | .CALH_CDAC_DRIFT_CNT | .CALH_MON_DIS_CNT | .TIME_STEP_CNT | .TIME_DROP_CNT => true
  | .TIME_REC_CNT | .TSP_TX_CNT | .TSP_RX_CNT | .TSP_FCS_BAD | .TSP_ONE_STEP_ERR | .REL_ZERO_CNT | .ECC_CE_CNT | .ECC_UE_CNT => true
  | .ECC_POISON_CNT | .ECC_STICKY_CNT | .KND_TRAP_CNT | .ST_ST_RUNS | .ST_ABORT_CNT | .HIF_EVT_LOST | .HIF_TLM_LOST => true
  | .PC_CNT | .PC_H0 | .PC_H1 | .PC_SAMP | .PC_SAMPLE_SEQ => true
  | _ => false

/-- The laser supervisor's own flag, which the counters' row does not cover (R539). -/
def Fld.supervisor (f : Fld) : Bool :=
  f.info.acc == .rwl || match f with
  | .LS_OVP_TRIP | .LS_OVP_CNT | .LSH_SOFF_CNT | .LSH_SOFF_PIN | .LSH_SOFF_HELD => true
  | _ => false

/-- The host's own settings: RW fields. -/
def Fld.setting (f : Fld) : Bool := f.info.acc == .rw

/-! ### Operations on classes -/

/-- Fields return to their reset values, shadow and applied. -/
def State.wipe (s : State) (p : Fld → Nat → Bool) : State :=
  { s with
    f := s.f.filter fun c => !p c.fld c.idx
    ap := s.ap.filter fun c => !p c.fld c.idx
    written := s.written.filter fun w => !p w.1 w.2 }

/-- The indices at which a shadow field differs from its reset value in either store. -/
def State.cellsOf (s : State) (p : Fld → Nat → Bool) : List (Fld × Nat) :=
  ((s.f ++ s.ap).filter fun c => c.fld.info.shadow && p c.fld c.idx).map fun c => (c.fld, c.idx)

/-- Every shadow field in scope is set to its applied value (R484, R533, R539). -/
def State.syncShadow (s : State) (p : Fld → Nat → Bool) : State :=
  let s := (s.cellsOf p).foldl (fun s c => s.put c.1 c.2 (s.app c.1 c.2)) s
  { s with written := s.written.filter fun w => !p w.1 w.2 }

/-- The blocks of the monitor, control DAC, thermal, calibration and time half registers (R539). -/
def Blk.ioHalf (b : Blk) : Bool :=
  match b with
  | .MON | .SEQ | .MIN | .ENT | .CH | .CD | .BUD | .CLRH | .THM | .DS | .THG | .ENG | .FF | .CAL | .CALH | .TIME => true
  | _ => false

/-- The half-level blocks whose counters and flags R539 names. -/
def Blk.countHalf (b : Blk) : Bool :=
  b.ioHalf || match b with
  | .REL | .ECC | .KND | .ST | .HIF | .PERF | .PC => true
  | _ => false

def inGroup (g : Nat) (f : Fld) (i : Nat) : Bool := (f.home i).2 == g
def inHalf (h : Nat) (f : Fld) (i : Nat) : Bool := (f.home i).1 == h

/-- Counters and W1C flags of a group. -/
def State.wipeGroupCounts (s : State) (g : Group) : State :=
  s.wipe fun f i => inGroup g f i && f.counts && !f.supervisor

/-- R539: adaptation of a lane restarts from the applied register values: measures, checkpoint and hold store go. -/
def State.restartLane (s : State) (l : Lane) : State :=
  ((s.put .EQ_CKPT_VALID l 0).put .EQ_VALID l 0).modLane l fun x =>
    { x with
      swap := none, acc := none, block := none, ckpt := {}, ckptMse := 0, above := 0, revertDue := false, held := {}, mse := []
      eyeValid := false, effBlocks := 65, feq := [], restored := false }

def State.restartAdaptation (s : State) (g : Group) : State := s.each g.lanes State.restartLane

/-! ### The group and half areas of the pantry -/

/-- R537: the fields that a lane snapshot holds: coefficients, TX FIR, RHO, shortening taps. -/
def Fld.adaptive (f : Fld) : Bool :=
  match f with
  | .EQ_FFE_SHADOW | .EQ_VOLT_SHADOW | .EQ_D1_SHADOW | .EQ_TXF_SHADOW | .FEC_RHO | .DMT_SF_SHADOW => true
  | _ => false

def groupSetting (g : Group) (f : Fld) (i : Nat) : Bool := f.setting && inGroup g f i

def halfSetting (h : Half) (f : Fld) (i : Nat) : Bool := f.setting && f.info.blk.ioHalf && inHalf h f i

/-- R537: the snapshot of a lane. -/
def State.laneSave (s : State) (l : Lane) : LaneSave :=
  let x := s.lane l
  ⟨x.held, x.ckpt, x.ckptMse, s.isSet .EQ_CKPT_VALID l, x.tlI, x.window⟩

/-- R530 and R537: the area of a group is written. -/
def State.saveGroup (s : State) (g : Group) : State :=
  let a : GroupArea :=
    { cells := s.ap.filter fun c => groupSetting g c.fld c.idx
      plain := s.f.filter fun c => !c.fld.info.shadow && groupSetting g c.fld c.idx
      lanes := g.lanes.map s.laneSave }
  (s.modGroup g fun y => { y with area := a }).writeArea g.half (3 + g.val % 3)

/-- R537: the half area is written. -/
def State.saveHalf (s : State) (h : Half) : State :=
  let cells := s.f.filter fun c => halfSetting h c.fld c.idx
  (s.modHalf h fun y => { y with halfArea := cells }).writeArea h 6

/-- R537: a lane takes its snapshot. -/
def State.restoreLane (s : State) (p : Lane × LaneSave) : State :=
  let v := p.2
  ((s.restartLane p.1).putBool .EQ_CKPT_VALID p.1 v.valid).modLane p.1 fun x =>
    { x with held := v.held, ckpt := v.ckpt, ckptMse := v.ckptMse, tlI := v.freq, window := v.window, restored := true }

/-- R534 and R539: what a group takes from its area: configuration, adaptation and shadow; without the area, reset values and adaptation from
the committed values. -/
def State.restoreGroup (s : State) (g : Group) : State :=
  let a := (s.group g).area
  let good := s.areaGood g.half (3 + g.val % 3)
  let s := s.wipe (groupSetting g)
  if good then
    let s := (s.each a.cells fun s c => s.putApp c.fld c.idx c.val).showLoops g
    let s := (s.each a.plain fun s c => s.put c.fld c.idx c.val).syncShadow (inGroup g)
    s.each (g.lanes.zip a.lanes) State.restoreLane
  else (s.restartAdaptation g).showLoops g

/-- R539: the adaptation of a group from its area, its configuration as applied. -/
def State.restoreAdaptation (s : State) (g : Group) : State :=
  let a := (s.group g).area
  if s.areaGood g.half (3 + g.val % 3) then
    let s := { s with ap := s.ap.filter fun c => !(c.fld.adaptive && groupSetting g c.fld c.idx) }
    let s := s.each (a.cells.filter fun c => c.fld.adaptive) fun s c => s.putApp c.fld c.idx c.val
    (s.syncShadow (inGroup g)).each (g.lanes.zip a.lanes) State.restoreLane
  else (s.syncShadow (inGroup g)).restartAdaptation g

/-- R388: PPS_OUT is low with PPS_OUT_EN = 0. -/
def State.dropPps (s : State) (h : Half) : State :=
  if s.isSet .TIME_PPS_OUT_EN h ∨ ¬ (s.half h).ppsHigh then s else (s.modHalf h fun y => { y with ppsHigh := false }).emit (.pps false)

/-- R534 and R539: the half-level registers from the half area, or their reset values. The rate of the time base follows its register. -/
def State.restoreHalf (s : State) (h : Half) : State :=
  let cells := if s.areaGood h 6 then (s.half h).halfArea else []
  let s := (s.wipe (halfSetting h)).each cells fun s c => s.put c.fld c.idx c.val
  (s.modHalf h fun y => { y with addend := s.get .TIME_ADDEND h }).dropPps h

/-- R286 and R539: every context of a group starts anew, when it runs at all; the capture buffer is empty. -/
def State.restartContexts (s : State) (g : Group) : State :=
  let s := s.each g.ctxs fun s x => (s.setCtxState x ctxOff 0).modCtx x fun _ => {}
  let s := (s.put .LG_DONE g 0).put .LG_ARMED g 0
  let s := (s.put .LG_COUNT g 0).modGroup g fun y => { y with inj := {} }
  { s with capture := s.capture.filter fun c => c.key / 4096 != g.val }

/-- R268 and R227: every lane of a group to IDLE, every host lane to DISABLED. -/
def State.idleGroup (s : State) (g : Group) : State :=
  let s := s.each g.lanes State.toIdle
  s.each g.hlanes fun s x => (s.setStage x 0).modHlane x fun _ => {}

/-- R412, R533 and R538: Kneaders that a start, a wake or a group reset has reloaded run again. -/
def State.reloadKnds (s : State) (ks : List Knd) : State :=
  s.each ks fun s k =>
    if s.get .KND_STATE k ≠ 1 then s
    else
      let s := s.put .KND_STATE k 0
      match Knd.group? k with
      | some g => if h : Knd.role k < 8 then s.put .EQ_HOLD (g.lane ⟨Knd.role k, h⟩) 0 else s
      | none => s

/-- The Kneaders of a group. -/
def groupKnds (g : Group) : List Knd := (List.finRange 20).map (grpKnd g)

/-- R539: pending scheduled actions and snapshots of a half are discarded, with no completion. -/
def State.dropPending (s : State) (h : Half) : State :=
  ((s.modHalf h fun y => { y with sched := [], snaps := [] }).put .TIME_PEND_ALL h 0).put .TIME_PEND_COMMIT h 0
    |>.put .TIME_PEND_SNAP h 0

end Sys2Proof.Machine
end

