-- ==== Sys2Proof/Machine/SelfTest.lean ====
section
/-! DEFINITION. Self-test and repair at a start (R415 to R420): logic self-test by signature, the March C− test, the spare rows. -/

namespace Sys2Proof.Machine

/-! ### What a Kneader serves -/

/-- The fenced unit, half and spare register of a Kneader: its group, or its half (R20, R40). -/
def kndUnit (k : Knd) : FUnit :=
  match k.group? with
  | some g => .group g
  | none => .half k.half

/-- R434: the spare register that counts a Kneader's spare. -/
def kndSpare (k : Knd) : Nat :=
  match k.group? with
  | some g => Group.spIdx g
  | none => 4 * k.half.val + 3

/-- R17: the spare that a Kneader shares. -/
def kndSpareUnit (k : Knd) : SpareUnit :=
  match k.group? with
  | some g => .group g
  | none => .half k.half

/-- R434: the spare register of a spare Kneader. -/
def spareIdx (u : SpareUnit) : Nat :=
  match u with
  | .group g => Group.spIdx g
  | .half h => 4 * h.val + 3

/-! ### Logic self-test -/

/-- R418: the units of a half that logic self-test covers. -/
def testUnits (h : Half) : List TestUnit :=
  h.lanes.map .slice ++ ((List.finRange 128).filter fun k : Knd => k.half == h).map .kneader ++ h.groups.map .loopEngine
    ++ h.groups.map .spareSlice ++ h.groups.map (fun g => .spareKneader (.group g)) ++ [.spareKneader (.half h)]

/-- R418: a unit passes when its signature is the golden one. -/
def passes (u : TestUnit) (sig : W32) : Bool := sig == Config.golden u

/-- R438: KIND and UNIT of a unit; a spare Kneader's number is a free value. -/
def kindUnit (u : TestUnit) (draw : Nat) : Nat × Nat :=
  match u with
  | .slice l => (0, l.val % 24)
  | .kneader k => if k.val < 120 then (1, k.val % 60) else (2, 60 + k.val % 4)
  | .loopEngine g => (3, g.val % 3)
  | .spareSlice _ => (0, Config.spareUnit draw % 64)
  | .spareKneader (.group _) => (1, Config.spareUnit draw % 64)
  | .spareKneader (.half _) => (2, Config.spareUnit draw % 64)

/-- R425: ST_FAIL with its event: DATA0 is KIND × 64 + UNIT, DATA1 the signature. -/
def State.testFail (s : State) (h : Half) (kind unit sig : Nat) : State :=
  (s.flag .REL_ST_FAIL h).raise h { sev := 2, code := 0x0705, scope := 1, id := h, d0 := kind * 64 + unit, d1 := sig }

/-- A spare unit takes the place of a failing one: it is the failing one that is spare now, and has not passed. -/
def HalfS.tradePlaces (y : HalfS) (u spare : TestUnit) : HalfS :=
  { y with passed := (if y.passed.contains spare then [u] else []) ++ y.passed.filter fun x => x != u && x != spare }

/-- R20 and R371: the spare slice of a group leaves service, and what it calibrated keeps its points. -/
def State.dropSpareSlice (s : State) (g : Group) : State :=
  ((s.put .SP_SLICE_SPARE (Group.spIdx g) 0).put .CAL_INTERP_ONLY (48 + g) 1).modGroup g fun x =>
    { x with spareOk := false, tested := false, sliceTest := none }

/-- R415 step 3 and R20: a unit that fails at a start is retired: its spare takes its place (of a lane without one the slice of a lane of no port,
R214), or release fences what has lost it. -/
def State.retireAtStart (s : State) (h : Half) (u : TestUnit) : State :=
  let lose := fun (s : State) (x : FUnit) (c : Cause) => s.modHalf h fun y => { y with lost := y.lost ++ [(x, c)] }
  match u with
  | .slice l =>
    if s.get .SP_SLICE_SPARE (Group.spIdx l.group) = 0 then
      match s.idleLane l with
      | some m => lose ((s.modGroup l.group fun x => x.swapLanes (Lane.index l) (Lane.index m)).flag .REL_SPARE_USED h) (.lane m) .slice
      | none => lose s (.lane l) .slice
    else
      let s := ((s.dropSpareSlice l.group).flag .REL_SPARE_USED h).modGroup l.group fun x => x.moveLane (Lane.index l)
      s.modHalf h fun y => y.tradePlaces u (.spareSlice l.group)
  | .kneader k =>
    let s := (s.flag .REL_KND_FAIL h).put .KND_CAUSE k 5
    if s.get .SP_KND_SPARE (kndSpare k) = 0 then lose (s.put .KND_STATE k 4) (kndUnit k) .knd
    else
      let s := ((s.put .SP_KND_SPARE (kndSpare k) 0).put .KND_SPARE_IN k 1).flag .REL_SPARE_USED h
      s.modHalf h fun y => y.tradePlaces u (.spareKneader (kndSpareUnit k))
  | .loopEngine g => lose s (.group g) .loop
  | .spareSlice g => s.dropSpareSlice g
  | .spareKneader v => s.put .SP_KND_SPARE (spareIdx v) 0

/-- A spare unit. -/
def TestUnit.isSpare : TestUnit → Bool
  | .spareSlice _ | .spareKneader _ => true
  | _ => false

/-- R420: the units that a start tests: all of them, or at a warm start those that have not passed since PORST# and retired ones. -/
def State.underTest (s : State) (h : Half) (full : Bool) (u : TestUnit) : Bool :=
  full || !(s.half h).passed.contains u || match u with
    | .spareSlice g => s.get .SP_SLICE_SPARE (Group.spIdx g) == 0
    | .spareKneader v => s.get .SP_KND_SPARE (spareIdx v) == 0
    | _ => false

/-- R415 step 3 and R418: logic self-test of a start, from the signatures compared. A unit without one has the golden one. A spare that fails is no
spare for what else fails. -/
def State.logicTest (s : State) (h : Half) (full : Bool) (sigs : List (TestUnit × W32)) : State :=
  let us := (testUnits h).filter (s.underTest h full)
  let bad := sigs.filter fun p => us.contains p.1 && !passes p.1 p.2
  let s := s.modHalf h fun y =>
    { y with passed := (testUnits h).filter fun u => !(bad.any fun p => p.1 == u) && (us.contains u || y.passed.contains u) }
  s.each ((bad.filter fun p => TestUnit.isSpare p.1) ++ bad.filter fun p => !TestUnit.isSpare p.1) fun s p =>
    let d := s.draw
    let ku := kindUnit p.1 d.1
    (d.2.retireAtStart h p.1).testFail h ku.1 ku.2 p.2.toNat

/-- R414, R420, R501: at a warm start a retired unit that passed this start's self-test returns as a spare, after row repair. At a cold start
what the repair log retired stays retired. -/
def State.returnSpares (s : State) (h : Half) : State :=
  let ok := fun (s : State) (u : TestUnit) => (s.half h).passed.contains u
  if s.get .BOOT_START_KIND h = 0 then s
  else
    let s := s.each h.groups fun s g =>
      if ok s (.spareSlice g) then
        ((s.put .SP_SLICE_SPARE (Group.spIdx g) 1).put .CAL_INTERP_ONLY (48 + g) 0).modGroup g fun y =>
          { y with spareOk := true, tested := false, mismatch := 0 }
      else s
    s.each (h.groups.map SpareUnit.group ++ [SpareUnit.half h]) fun s u =>
      if ok s (.spareKneader u) then s.put .SP_KND_SPARE (spareIdx u) 1 else s

/-! ### March test -/

/-- R426: the width of a word of a class with its check bits. -/
def codeWidth (cls : Nat) : Nat := if cls = 1 ∨ cls = 2 then 39 else 72

/-- R419: the background of a pass over words of a width: 0x00, then 0x55 repeated. -/
def background (pass w : Nat) : Nat := if pass = 0 then 0 else ((List.range ((w + 1) / 2)).map fun i => 4 ^ i).sum % 2 ^ w

/-- R419: the elements of March C−: whether the words are taken in falling order, and the accesses to each: a read or a write, of the
background or of its complement. -/
def marchElements : List (Bool × List (Bool × Bool)) :=
  [ (false, [(false, false)])
  , (false, [(true, false), (false, true)]), (false, [(true, true), (false, false)])
  , (true, [(true, false), (false, true)]), (true, [(true, true), (false, false)])
  , (false, [(true, false)]) ]

/-- R419: the accesses of a pass over an array of `n` words: word, read or write, data written or expected. -/
def marchAccesses (n w bg : Nat) : List (Nat × Bool × Nat) :=
  marchElements.flatMap fun e =>
    (if e.1 then (List.range n).reverse else List.range n).flatMap fun a =>
      e.2.map fun r => (a, r.1, if r.2 then 2 ^ w - 1 - bg else bg)

/-- R419: the words of an array that fail a pass: a read returned something else than was written. -/
def marchFails (n w bg : Nat) (got : List Nat) : List Nat :=
  ((((marchAccesses n w bg).filter fun a => a.2.1).zip got).filter fun p => p.2 != p.1.2.2).map fun p => p.1.1

/-- R419: the words that fail either pass, check bits tested as data. -/
def marchTest (r : MarchRead) : List Nat :=
  let w := codeWidth r.mem.cls.val
  marchFails r.words w (background 0 w) r.pass0 ++ marchFails r.words w (background 1 w) r.pass1

/-! ### Rows -/

/-- R436: the block of a class and memory group of a half. -/
def memIdx (m : MemUnit) : Nat := 28 * m.half.val + 4 * m.cls.val + m.grp.val

/-- R426: the class exists in the memory group. -/
def memHere (m : MemUnit) : Bool :=
  if m.cls.val ≤ 1 then true else if m.cls.val ≤ 3 then m.grp.val ≤ 2 else m.grp.val == 3

/-- R417: the spare rows of an array that are still free. -/
def State.rowsFree (s : State) (u arr : Nat) : Nat :=
  Config.spareRows u arr - (s.rows.filter fun r => r.1 == u && r.2.1 == arr).length

/-- R434: ROWS_LEFT and ROWS_ZERO of a half. -/
def State.showRows (s : State) (h : Half) : State :=
  s.each (List.range 4) fun s j =>
    let mine := s.rows.filter fun r => r.1 / 28 == h.val && r.1 % 4 == j
    let arrays := (mine.map fun r => (r.1, r.2.1)).dedup
    (s.put .SP_ROWS_LEFT (4 * h.val + j) (Config.rowsLeft (4 * h.val + j) % 65536 - mine.length)).put .SP_ROWS_ZERO (4 * h.val + j)
      (min 255 (arrays.filter fun a => s.rowsFree a.1 a.2 == 0).length)

/-- R417 and R430: what an array that has lost a row holds: a unit that fails, or content that may not fit what remains. -/
inductive RowLoss
  | unit (u : TestUnit)
  | excluded
  deriving DecidableEq, Repr

def rowLoss (m : MemUnit) (arr : Nat) : RowLoss :=
  let unit := Config.arrayUnit m.half.val m.grp.val m.cls.val arr
  let g : Group := ⟨(3 * m.half.val + m.grp.val % 3) % 6, by omega⟩
  if 4 ≤ m.cls.val then .excluded
  else if m.cls.val ≤ 1 then
    .unit (.kneader (if m.grp.val = 3 then sysKnd m.half ⟨unit % 4, by omega⟩ else grpKnd g ⟨unit % 20, by omega⟩))
  else if m.cls.val = 2 then .unit (.slice (g.lane ⟨unit % 8, by omega⟩))
  else .unit (.loopEngine g)

/-- R417 and R429: ROW_EXHAUST with its event. -/
def State.rowExhaust (s : State) (m : MemUnit) (arr : Nat) : State :=
  (s.flag .REL_ROW_EXHAUST m.half).raise m.half
    { sev := 2, code := 0x0704, scope := 1, id := m.half, d0 := 4 * m.cls.val + m.grp.val, d1 := arr }

/-- The memory unit of a block number of R436. -/
def memOf (u : Nat) : MemUnit := ⟨⟨u / 28 % 2, by omega⟩, ⟨u % 28 / 4, by omega⟩, ⟨u % 4, by omega⟩⟩

/-- R415 step 4, R417: a failing row takes a spare row of its array; without one the unit that holds the array has failed, or the row is
excluded, and release fences the half when the rest cannot hold the content. DESIGN CHOICE: that fence has the cause HALF_POWER, which
covers the fabric. -/
def State.repairRow (s : State) (m : MemUnit) (arr row : Nat) : State :=
  let u := memIdx m
  if (u, arr, row) ∈ s.rows then s
  else if s.rowsFree u arr ≠ 0 then { s with rows := (u, arr, row) :: s.rows }
  else match rowLoss m arr with
    | .unit t => s.retireAtStart m.half t
    | .excluded =>
      let s := { (s.rowExhaust m arr) with badRows := (u, arr, row) :: s.badRows }
      if Config.holds u (s.badRows.filter fun r => r.1 == u).length then s
      else s.modHalf m.half fun y => { y with lost := y.lost ++ [(.half m.half, .halfPower)] }

/-- R420 and R501: the march test covers an array: every array at a full start; else one not passed since PORST#, one with a STICKY row or a row
found failing, and those of a retired unit. -/
def State.marchCovers (s : State) (h : Half) (full : Bool) (r : MarchRead) : Bool :=
  let u := memIdx r.mem
  r.mem.half == h && memHere r.mem && (full || !(s.half h).marched
    || s.sticky.any (fun x => x.1 == u && x.2.1 == r.array.toNat) || s.badRows.any (fun x => x.1 == u && x.2.1 == r.array.toNat)
    || match r.mem.cls.val with
      | 0 | 1 => s.get .SP_KND_SPARE (4 * h.val + r.mem.grp.val) == 0
      | 2 => s.get .SP_SLICE_SPARE (4 * h.val + r.mem.grp.val) == 0
      | _ => false)

/-- R415 step 4: the march test with row repair, and the failing rows that the part in service has met. -/
def State.marchRepair (s : State) (h : Half) (full : Bool) (rs : List MarchRead) : State :=
  let rs := rs.filter (s.marchCovers h full)
  let met := s.badRows.filter fun x => x.1 / 28 == h.val
  let s := { s with badRows := s.badRows.filter fun x => x.1 / 28 != h.val }
  let s := s.each rs fun s r => s.each (marchTest r) fun s w =>
    s.repairRow r.mem r.array.toNat (Config.rowOf (memIdx r.mem) r.array.toNat w)
  (s.each met fun s x => s.repairRow (memOf x.1) x.2.1 x.2.2).modHalf h fun y => { y with marched := true }

/-- R415 step 5 and R429: each STICKY row of the half is replaced by a spare row and its mark clears; without one ROW_EXHAUST sets, and
the row stays in use. -/
def State.repairSticky (s : State) (h : Half) : State :=
  s.each (s.sticky.filter fun x => x.1 / 28 == h.val) fun s x =>
    let m := memOf x.1
    let row := Config.rowOf x.1 x.2.1 x.2.2
    if s.rowsFree x.1 x.2.1 = 0 ∧ (x.1, x.2.1, row) ∉ s.rows then s.rowExhaust m x.2.1
    else
      let k := 4 * h.val + x.1 % 4
      let s := if (x.1, x.2.1, row) ∈ s.rows then s else { s with rows := (x.1, x.2.1, row) :: s.rows }
      ({ s with sticky := s.sticky.filter fun y => y != x } : State).put .SP_STICKY_PEND k (s.get .SP_STICKY_PEND k - 1)

/-! ### The repair log -/

/-- R416: a STICKY row in the repair log, by its word: unit of R436, array, word. -/
def logRow (u arr word : Nat) : Nat := (u * 2 ^ 10 + arr) * 2 ^ 17 + word

/-- R415 step 2 and R416: the repair log is applied again at a cold start: lost cells, retired slices and Kneaders, rows marked STICKY. -/
def State.applyLog (s : State) (h : Half) : State :=
  s.each (s.half h).log fun s r =>
    match r.1 with
    | 0 =>
      let l : Lane := ⟨r.2 % 48, by omega⟩
      let n := min 3 (s.get .FE_SEG_FAILED l + 1)
      let s := ((s.put .FE_SEG_FAILED l n).countSpares l.group).modLane l fun x => x.loseSeg n (r.2 / 48)
      if n = 2 then s.put .CAL_INTERP_ONLY l 1 else s
    | 1 =>
      let l : Lane := ⟨r.2 % 48, by omega⟩
      let s := ((s.put .FE_SADC_FAILED l (min 2 (s.get .FE_SADC_FAILED l + 1))).countSpares l.group).modLane l fun x => x.removeSub (r.2 / 48)
      s.put .CAL_INTERP_ONLY l 1
    | 2 => if hg : r.2 < 6 then s.dropSpareSlice ⟨r.2, hg⟩ else s
    | 3 => if hk : r.2 < 128 then s.put .SP_KND_SPARE (kndSpare ⟨r.2, hk⟩) 0 else if r.2 < 136 then s.put .SP_KND_SPARE (r.2 - 128) 0 else s
    | _ =>
      let u := r.2 / 2 ^ 27
      let x := (u, r.2 / 2 ^ 17 % 2 ^ 10, r.2 % 2 ^ 17)
      if s.sticky.contains x then s else ({ s with sticky := s.sticky ++ [x] } : State).incSat .SP_STICKY_PEND (4 * (u / 28) + u % 4)

/-- R415: at release each unit that has lost a cell, a slice or a Kneader with no spare left is fenced. -/
def State.fenceLost (s : State) (h : Half) : State :=
  let s := s.each h.lanes fun s l =>
    let s := if s.get .FE_SEG_FAILED l = 3 then s.fenceIn (.lane l) .feSeg else s
    if s.get .FE_SADC_FAILED l = 2 then s.fenceIn (.lane l) .feSadc else s
  (s.each (s.half h).lost fun s p => s.fenceIn p.1 p.2).modHalf h fun y => { y with lost := [] }

end Sys2Proof.Machine
end

