-- ==== Sys2Proof/Machine/Flash.lean ====
section
/-! DEFINITION. The flash of a half and what lies in it (R506 to R514): the map, boot records, images, settings records, and a delta with its
operations. -/

namespace Sys2Proof.Machine

/-! ### Bytes -/

/-- A little-endian word of a list of bytes; bytes past its end are 0. -/
def leWord (bs : List (BitVec 8)) (off : Nat) : Nat := ((List.range 4).map fun i => (bs.getD (off + i) 0).toNat * 256 ^ i).sum

/-- The four bytes of a little-endian word. -/
def wordBytes (w : Nat) : List (BitVec 8) := (List.range 4).map fun i => BitVec.ofNat 8 (w / 256 ^ i)

/-- The number that bytes spell, the first most significant: a hash is a byte string. -/
def bytesNum (bs : List (BitVec 8)) : Nat := bs.foldl (fun a b => a * 256 + b.toNat) 0

/-! ### Boot records -/

/-- R507: word 0x08 of a boot record. -/
def BootRec.flagWord (b : BootRec) : Nat :=
  let bit := fun (x : Bool) (k : Nat) => if x then 2 ^ k else 0
  bit b.starterReq 14 + b.setTrial % 4 * 2 ^ 12 + b.setActive % 4 * 2 ^ 10 + bit b.validB 9 + bit b.validA 8 + b.fail % 8 * 2 ^ 5 + bit b.trial 4
    + b.pending % 4 * 2 ^ 2 + b.active % 2

/-- R507: bytes 0x00 to 0xFB of a boot record. -/
def BootRec.body (b : BootRec) : List (BitVec 8) :=
  wordBytes 0x5442444B ++ wordBytes b.seq ++ wordBytes b.flagWord ++ wordBytes 0 ++ bytesOf 48 b.hashA.toNat ++ bytesOf 48 b.hashB.toNat
    ++ List.replicate 140 0

/-- R507: the 256 bytes of a boot record, the CRC last. -/
def BootRec.bytes (b : BootRec) : List (BitVec 8) := b.body ++ wordBytes (crc32 (b.body.flatMap fun x => bitsOf 8 x.toNat))

/-- R507: a copy is valid when MAGIC and CRC check. -/
def bootValid (bs : List (BitVec 8)) : Bool :=
  leWord bs 0 == 0x5442444B && leWord bs 0xFC == crc32 ((bs.take 252).flatMap fun x => bitsOf 8 x.toNat)

/-- R507: of two valid copies the one with the higher SEQ, compared modulo 2^32, is the boot record. -/
def laterRec (a b : BootRec) : BootRec := if idxAhead b.seq a.seq < 0 then a else b

/-- R507 and R508: a new boot record is written over the copy that is not the boot record, which is then the older one. -/
def State.writeBoot (s : State) (h : Half) (u : BootRec → BootRec) : State :=
  s.modHalf h fun y =>
    { y with boot := { u y.boot with seq := (y.boot.seq + 1) % 2 ^ 32 }, bootCopy := 1 - y.bootCopy, bootOld := some y.boot }

def BootRec.valid (b : BootRec) (slot : Nat) : Bool := if slot = 0 then b.validA else b.validB
def BootRec.hash (b : BootRec) (slot : Nat) : BitVec 384 := if slot = 0 then b.hashA else b.hashB
def BootRec.mark (b : BootRec) (slot : Nat) (ok : Bool) : BootRec :=
  if slot = 0 then { b with validA := ok } else { b with validB := ok }
def BootRec.setHash (b : BootRec) (slot : Nat) (x : BitVec 384) : BootRec :=
  if slot = 0 then { b with hashA := x } else { b with hashB := x }

/-! ### Settings records -/

/-- R510: the header words of a settings record that no body decides; the others, and the body, belong to the firmware. -/
def SetRec.word (r : SetRec) (off : Nat) : Option Nat :=
  match off with
  | 0x00 => some 0x5453444B
  | 0x04 => some (r.seq % 2 ^ 32)
  | 0x08 => some (r.schema % 2 ^ 16)
  | 0x10 => some (r.writer % 2 ^ 32)
  | _ => none

/-- R510: what a settings record holds of a half: its trims and the acquisition start points of its lanes. -/
def State.takeSettings (s : State) (h : Half) (old : Option SetRec) (schema writer : Nat) : SetRec :=
  { seq := ((old.map (·.seq)).getD 0 + 1) % 2 ^ 32, schema := schema, writer := writer
    trims := s.trims.filter fun x => match x.kind with
      | 3 => x.unit == h.val
      | 2 => x.unit / 3 == h.val
      | _ => x.unit / 24 == h.val
    starts := s.ap.filter fun c => inHalf h c.fld c.idx
      && ([.EQ_FFE_SHADOW, .EQ_VOLT_SHADOW, .EQ_D1_SHADOW, .FEC_RHO, .DMT_SF_SHADOW] : List Fld).contains c.fld }

/-! ### The map -/

/-- R506: the areas of the flash. -/
inductive FlashArea
  | boot (copy : Fin 2)
  | log (block : Fin 2)
  | settings (n : Fin 2)
  | reserved
  | slot (n : Fin 2)
  | store
  | unused
  deriving DecidableEq, Repr

/-- R506: offset, size and contents. -/
def flashMap : List (Nat × Nat × FlashArea) :=
  [ (0x0000000, 0x0010000, .boot 0), (0x0010000, 0x0010000, .boot 1)
  , (0x0020000, 0x0010000, .log 0), (0x0030000, 0x0010000, .log 1)
  , (0x0040000, 0x0040000, .settings 0), (0x0080000, 0x0040000, .settings 1), (0x00C0000, 0x0040000, .reserved)
  , (0x0100000, 0x0400000, .slot 0), (0x0500000, 0x0400000, .slot 1), (0x0900000, 0x1000000, .store) ]

/-- R506: the area of a byte address, and the offset in it. -/
def flashAt (a : Nat) : FlashArea × Nat :=
  match flashMap.find? fun e => e.1 ≤ a && a < e.1 + e.2.1 with
  | some e => (e.2.2, a - e.1)
  | none => (.unused, a - 0x1900000)

/-- R506: the bytes of an image slot: what the part wrote there, else what the factory did. -/
def State.slotBytes (s : State) (h : Half) (k : Fin 2) : List (BitVec 8) := ((s.half h).slots.get k).getD (Config.factoryImage h k)

/-- R416 and R506: the records in a block of the repair log: the last copy in one block, the one before in the other. -/
def HalfS.logBlock (y : HalfS) (k : Fin 2) : List (Nat × Nat) := y.log.take (if k = y.logAt then y.logFlash else y.logPrev)

/-- R506, R507, R510: what the flash of a half holds at a byte address, where a rule says it. -/
def State.flashByte (s : State) (h : Half) (a : Nat) : Option (BitVec 8) :=
  let y := s.half h
  let p := flashAt a
  match p.1 with
  | .boot k => ((if k = y.bootCopy then some y.boot else y.bootOld).map BootRec.bytes).bind fun bs => bs[p.2]?
  | .log k => ((y.logBlock k).flatMap fun r => (Config.logWords r.1 r.2).flatMap wordBytes)[p.2]?
  | .settings k => ((y.settings.get k).bind fun r => r.word (p.2 / 4 * 4)).bind fun w => (wordBytes w)[p.2 % 4]?
  | .slot k => (s.slotBytes h k)[p.2]?
  | .store => y.store[p.2]?
  | _ => none

/-! ### Images -/

def ImageInfo.word (i : ImageInfo) (off : Nat) : Nat := leWord i.bytes off
/-- R509: VERSION, and WRITES and READS_MIN of SCHEMA. -/
def imageVersion (i : ImageInfo) : Nat := leWord i.bytes 0x008
def imageWrites (i : ImageInfo) : Nat := leWord i.bytes 0x010 / 65536
def imageReadsMin (i : ImageInfo) : Nat := leWord i.bytes 0x010 % 65536

/-- R509: full verification: MAGIC and PART fit the half, the lengths hold, and the cryptographic checks pass. -/
def State.verifies (s : State) (h : Half) (i : ImageInfo) : Bool :=
  let len := 512 + leWord i.bytes 0x00C
  leWord i.bytes 0 == 0x474D494B && leWord i.bytes 4 / 65536 == s.get .TOP_PART h
    && decide (leWord i.bytes 4 / 256 % 256 ≤ 16 * s.get .TOP_STEP_MAJ h + s.get .TOP_STEP_MIN h)
    && decide (len ≤ 2097152) && decide (len ≤ i.bytes.length) && i.checks.keyOk && i.checks.sigOk && i.checks.bodyOk

/-! ### Deltas -/

/-- R513: one operation of a delta on what has been built so far: the result and the operations that follow; none where it reads outside the
running image, writes past RESULT_LEN, or is no operation of the table. -/
def deltaOp (base : List (BitVec 8)) (rlen : Nat) (ops out : List (BitVec 8)) : Option (List (BitVec 8) × List (BitVec 8)) :=
  let w0 := leWord ops 0
  let w1 := leWord ops 4
  let n := w0 % 2 ^ 28
  let rest := ops.drop 8
  if ops.length < 8 ∨ n = 0 ∨ rlen < out.length + n then none
  else match w0 / 2 ^ 28 with
    | 1 => if base.length < w1 + n then none else some (out ++ (base.drop w1).take n, rest)
    | 2 => if rest.length < n then none else some (out ++ rest.take n, rest.drop ((n + 3) / 4 * 4))
    | 3 => some (out ++ List.replicate n (BitVec.ofNat 8 w1), rest)
    | _ => none

/-- R513: operations in order: the result as far as it goes, and whether every operation held. -/
def deltaOps (base : List (BitVec 8)) (rlen : Nat) : Nat → List (BitVec 8) → List (BitVec 8) → List (BitVec 8) × Bool
  | 0, _, out => (out, true)
  | n + 1, ops, out =>
    match deltaOp base rlen ops out with
    | some p => deltaOps base rlen n p.2 p.1
    | none => (out, false)

/-- R512: the total length of a delta, from its header. -/
def deltaTotal (st : List (BitVec 8)) : Nat := 128 + leWord st 0x10 + 96

/-- R512 and R514: the delta in the update store applied to the running image: the result as written into the slot, and the error
of R524, 0 for none. DESIGN CHOICE: a wrong MAGIC or FORMAT has the error of BASE_HASH, and a result of another length than RESULT_LEN that of an
operation out of range, since R524 names no other. -/
def State.applyDelta (s : State) (h : Half) (slot : Nat) (c : ApplyChecks) : List (BitVec 8) × Nat :=
  let st := (s.half h).store
  let rlen := leWord st 0x0C
  if st.length < 128 ∨ st.length < deltaTotal st then ([], 6)
  else if leWord st 0 ≠ 0x544C444B ∨ leWord st 4 ≠ 1
      ∨ (s.half h).run.map (fun i => i.checks.hash.toNat) ≠ some (bytesNum ((st.drop 0x14).take 48)) then ([], 7)
  else
    let r := deltaOps (((s.half h).run.map (·.bytes)).getD []) rlen (leWord st 8) ((st.drop 0x80).take (leWord st 0x10)) []
    if !c.flashOk then (r.1, 5)
    else if !r.2 ∨ r.1.length ≠ rlen then (r.1, 8)
    else if c.result.hash.toNat ≠ bytesNum ((st.drop 0x44).take 48) then (r.1, 9)
    else if !c.sigOk then (r.1, 10)
    else if !s.verifies h ⟨r.1, c.result⟩ then (r.1, 3 + slot)
    else (r.1, 0)

end Sys2Proof.Machine
end

