-- ==== Sys2Proof/Machine/Dump.lean ====
section
/-! DEFINITION. The crumb dump (R520 to R522): its sections, its header, and where it goes. -/

namespace Sys2Proof.Machine

/-- R460: an event as words. -/
def Evt.words (e : Evt) : List W32 :=
  let n := BitVec.ofNat 32
  [n (e.sev * 2 ^ 28 + e.half.val * 2 ^ 27 + e.code), n e.seq, n e.ns, n e.sec,
    n (e.scope * 2 ^ 28 + e.id * 2 ^ 22 + e.cause * 2 ^ 16 + e.sec / 2 ^ 32), e.tag, n e.d0, n e.d1]

/-- R522: section 1: BAR0 of the half, 1 MiB. -/
def State.dumpRegs (s : State) (h : Half) : List Nat := (List.range 0x40000).map fun i => s.readFields h (4 * i)

/-- R522: section 2: 4 KiB for each Kneader of the half, or for the system Kneaders alone. -/
def State.dumpKnds (s : State) (h : Half) (full : Bool) (draw : Nat) : List Nat :=
  ((List.finRange 128).filter fun k : Knd => k.half == h && (full || 120 ≤ k.val)).flatMap fun k =>
    (List.range 1024).map fun i => Config.kneaderWord k (s.get .KND_STATE k) (s.get .KND_CAUSE k) i draw % 2 ^ 32

/-- R522: section 3: the last event records, in order. -/
def State.dumpEvents (s : State) (h : Half) (n : Nat) : List Nat :=
  (((s.half h).evtLog.take n).reverse.flatMap Evt.words).map BitVec.toNat

/-- R522: section 4: the last lane record of each lane. -/
def State.dumpTlm (s : State) (h : Half) : List Nat := (h.lanes.flatMap fun l => (s.lane l).lastTlm).map BitVec.toNat

/-- R522: section 5: the repair log. -/
def State.dumpLog (s : State) (h : Half) : List Nat := (s.half h).log.flatMap fun r => Config.logWords r.1 r.2

/-- R522: the offset and length words of the sections in order, from a byte offset. DESIGN CHOICE: they follow one another behind the header, section `k`
of the table has entry `k` − 1, and an absent one reads 0. -/
def sectionTable : Nat → List (Option (List Nat)) → List Nat
  | _, [] => []
  | at', none :: xs => 0 :: 0 :: sectionTable at' xs
  | at', some ws :: xs => at' :: 4 * ws.length :: sectionTable (at' + 4 * ws.length) xs

/-- R522: the 64 words of the header. -/
def State.dumpHeader (s : State) (h : Half) (cause kn : Nat) (secs : List (Option (List Nat))) : List Nat :=
  let y := s.half h
  let len := 256 + 4 * (secs.map fun x => (x.getD []).length).sum
  let head := [0x4D52434B, 1, len, s.readFields h 0, (y.run.map imageVersion).getD 0, kn % 256 * 256 + cause % 256, y.ns, y.sec % 2 ^ 32, y.sec / 2 ^ 32,
    (secs.filter (·.isSome)).length] ++ List.replicate 6 0 ++ sectionTable 256 secs
  (head ++ List.replicate (63 - head.length) 0) ++ [0x454E4F44]

/-- R522: a full dump. -/
def State.fullDump (s : State) (h : Half) (cause kn : Nat) : Dump :=
  let secs := [some (s.dumpRegs h), some (s.dumpKnds h true s.free), some (s.dumpEvents h 4096), some (s.dumpTlm h), some (s.dumpLog h)]
  ⟨s.dumpHeader h cause kn secs, secs⟩

/-- R522: a minimal dump. -/
def State.minimalDump (s : State) (h : Half) (cause kn : Nat) : Dump :=
  let secs := [none, some (s.dumpKnds h false s.free), some (s.dumpEvents h 1024), some (s.dumpTlm h), none]
  ⟨s.dumpHeader h cause kn secs, secs⟩

/-- R521: the dump goes to the registered buffer when Bus Master Enable is 1 and K121 (K125) can serve; else the minimal dump goes to
the pantry. -/
def State.dump (s : State) (h : Half) (cause kn : Nat) : State :=
  let s := s.draw.2
  let held := (((s.writeArea h 8).put .BOOT_DUMP_HELD h 1).modHalf h fun y => { y with pantryDump := some (s.minimalDump h cause kn) })
  match (s.half h).dumpBuf with
  | some b =>
    if s.masters h && !s.kndOut (sysKnd h 1) && s.get .KND_STATE (sysKnd h 1) != 3 then
      (s.emit (.dump h b.1 (s.fullDump h cause kn))).modHalf h fun y => { y with dumpBuf := none }
    else held
  | none => held

end Sys2Proof.Machine
end

