-- ==== Sys2Proof/Machine/Power.lean ====
section
/-! DEFINITION. Power states and resets (R525 to R543): the entry handshake, gating and wake of a group, the device states of a half,
and the resets. -/

namespace Sys2Proof.Machine

/-- R111: EQ_EFFORT and THROTTLED follow EFFORT_MAX where no boundary is awaited. -/
def State.showEffort (s : State) (l : Lane) : State :=
  let new := s.effortLevel l
  (s.put .EQ_EFFORT l new).putBool .EQ_THROTTLED l (new < s.app .EQ_EFFORT_MAX l)

/-! ### Events and completions -/

/-- R495: POWER_STATE of a group or a half. -/
def State.powerState (s : State) (u : FUnit) (st : Nat) : State :=
  s.raise u.owner { sev := 0, code := 0x0602, scope := u.scope.1, id := u.scope.2, d0 := st }

/-- A command that may be absent completes at the present time (R459). -/
def State.finish (s : State) (c : Option Cmd) : State :=
  match c with
  | some c => s.complete c (c.timed (s.now c.exe))
  | none => s

/-- A command that may be absent completes without effect. -/
def State.refuse (s : State) (c : Option Cmd) (r : Res) : State :=
  match c with
  | some c => s.complete c (c.notExecuted r)
  | none => s

/-! ### The entry handshake -/

/-- R528: what a block answers. -/
inductive Answer | accept | delay | refuse (reason : Nat)
  deriving DecidableEq, Repr

/-- R452: the scope of a command names lanes of a group. -/
def reqOnGroup (r : Req) (g : Group) : Bool :=
  match r.scope.toNat with
  | 2 => r.id.toNat == g.val
  | 3 | 4 => r.id.toNat / 8 == g.val
  | 5 => g.lanes.any fun l => r.mask.getLsbD l.val
  | _ => reqReaches r g.half

/-- R528: a commit, a scheduled action or a slice parallel run on the group's lanes falls within 10 ms. -/
def State.actionDue (s : State) (g : Group) : Bool :=
  (s.group g).sliceRun.isSome || allHalves.any fun h =>
    (s.half h).commits.any (fun c => c.lanes.any fun l => (Lane.group l) == g)
      || (s.half h).sched.any fun a => reqOnGroup a.cmd.req g && a.w ≤ s.now h + 10000000

/-- R528: a command of the group is executing. -/
def State.groupBusy (s : State) (g : Group) : Bool :=
  g.lanes.any (fun l => (s.lane l).rxSwap.any fun x => x.cmd.isSome)
    || allHalves.any fun h => (s.half h).capWait.any (fun p => p.2.any fun l => (Lane.group l) == g)
      || (s.half h).clrWait.any fun p => p.2.any fun l => (Lane.group l) == g

/-- R528: a self-test runs on a unit of the group. -/
def State.groupUnderTest (s : State) (g : Group) : Bool :=
  let h := g.half
  let u := s.get .ST_UNIT h
  let k := g.val % 3
  (s.group g).sliceTest.isSome || s.onTest h && match s.get .ST_KIND h with
    | 0 => u / 8 == k
    | 1 => u / 20 == k
    | 3 => u == k
    | _ => false

/-- R462: the lane of a telemetry record. -/
def Tlm.lane (t : Tlm) : Nat := (t.words.headD 0).toNat / 2 ^ 16 % 64

/-- R528: records of the group's lanes wait to be written. -/
def State.recordsWait (s : State) (g : Group) : Bool :=
  allHalves.any fun h => (s.half h).tlms.any (fun t => t.words.length == 32 && t.lane / 8 == g.val)
    || (s.half h).snaps.any fun y => y.latched && y.lanes.any fun l => (Lane.group l) == g

/-- R528: what block `b` of a group answers. -/
def State.askBlock (s : State) (g : Group) (b : Nat) : Answer :=
  match b with
  | 0 => if s.groupFenced g then .refuse 3
    else if g.lanes.any fun l => (s.portOf l).isSome then .refuse 1
    else if s.actionDue g then .delay else .accept
  | 1 => if g.lanes.any fun l => s.isSet .LS_LASEN l then .refuse 2
    else if g.ctxs.any (fun x => s.isSet .CTX_INJ x) || (s.group g).inj.run then .delay else .accept
  | 2 => if s.groupUnderTest g then .refuse 4 else if s.groupBusy g then .delay else .accept
  | _ => if !s.recordsWait g then .accept
    else if s.isSet .RING_HALTED (8 * (if s.manages g.half then g.half.val else 0) + 6) then .refuse 7 else .delay

/-- R527: leaving G-REST: each context that was in RUN continues as one leaving HOLD does. -/
def State.resumeContexts (s : State) (g : Group) : State :=
  s.each g.ctxs fun s x => if s.get .CTX_STATE x = ctxRun then s.modCtx x fun y => { y with resume := true } else s

/-- R529: the group is left in the state it was in; a loop engine that had stopped for the handshake resumes as in R527. -/
def State.undoHandshake (s : State) (g : Group) (hs : Handshake) : State :=
  let s := ((s.put .PG_STATE g hs.origin).put .PG_HS_BLOCK g 0).modGroup g fun y => { y with hs := none }
  if hs.origin = 0 ∧ 2 ≤ hs.block then s.resumeContexts g else s

/-- R529: a block refuses. A change of device state that asked for the handshake is refused with it. -/
def State.refuseHandshake (s : State) (g : Group) (hs : Handshake) (reason : Nat) : State :=
  let s := s.undoHandshake g hs
  let s := ((s.put .PG_LAST_BLOCK g hs.block).put .PG_LAST_REASON g reason).flag .PG_REFUSED g
  let s := s.raise g.half { sev := 1, code := 0x0601, scope := 2, id := g, d0 := hs.block, d1 := reason }
  let s := if hs.cmd.isSome then s else s.modHalf g.half fun y => { y with dev := y.dev.map fun d => { d with refused := true } }
  s.refuse hs.cmd (.rejected 0x50)

/-- R530: every block has accepted: G-REST is entered, or the save starts. -/
def State.allAccepted (s : State) (g : Group) (hs : Handshake) : State :=
  let s := s.endSlotsIn g.half g.lanes
  if hs.target = 1 then
    let s := ((s.put .PG_STATE g 1).put .PG_HS_BLOCK g 0).modGroup g fun y => { y with hs := none }
    (s.powerState (.group g) 1).finish hs.cmd
  else (s.put .PG_HS_BLOCK g 3).modGroup g fun y => { y with hs := some { hs with block := 4, delaying := false } }

/-- R528: the blocks from `hs.block` on are asked in turn. -/
def State.askBlocks (s : State) (g : Group) : Nat → Handshake → State
  | 0, hs => s.allAccepted g hs
  | n + 1, hs =>
    if 4 ≤ hs.block then s.allAccepted g hs
    else
      let s := s.put .PG_HS_BLOCK g hs.block
      match s.askBlock g hs.block with
      | .accept => State.askBlocks s g n { hs with block := hs.block + 1, asked := (s.half g.half).aon }
      | .refuse r => s.refuseHandshake g hs r
      | .delay => s.modGroup g fun y => { y with hs := some { hs with delaying := true } }

/-- R528 and R531: the handshake starts; from G-REST only the DMA channels still run. -/
def State.startHandshake (s : State) (g : Group) (target : Nat) (cmd : Option Cmd) : State :=
  let origin := s.get .PG_STATE g
  let first := if origin = 1 then 3 else 0
  (s.put .PG_STATE g 5).askBlocks g 5 ⟨target, origin, first, false, (s.half g.half).aon, cmd⟩

/-! ### Gating -/

/-- R525: engine sensors of a gated group are not converted and read VALID = 0. -/
def State.muteSensors (s : State) (g : Group) : State := s.each (List.range 4) fun s j => s.put .ENG_VALID (4 * g.val + j) 0

/-- R532: on entry to G-PROOF the first window opens PERIOD ms later. -/
def State.planProof (s : State) (g : Group) : State :=
  s.modGroup g fun y => { y with proof := false, proofDue := (s.half g.half).aon + msTicks (s.get .PG_PERIOD g) }

/-- R318, R530, R539: the group is saved and power-gated: pads latched, lanes idle, contexts and counters gone, uncommitted values lost. A domain
that is gated already keeps what it has saved. -/
def State.gateGroup (s : State) (g : Group) (target : Nat) : State :=
  let s := if 2 ≤ s.get .PG_STATE g ∧ s.get .PG_STATE g ≤ 4 then s else s.saveGroup g
  let s := ((s.endSlotsIn g.half g.lanes).idleGroup g).restartContexts g
  let s := (s.wipeGroupCounts g).syncShadow (inGroup g)
  let s := ((s.put .PG_STATE g target).put .PG_PADS_HELD g 1).put .PG_HS_BLOCK g 0
  ((s.muteSensors g).planProof g).modGroup g fun y => { y with hs := none, wake := none, sliceRun := none, sliceTest := none, tested := false }

/-- R530: the save and the gating are complete. -/
def State.saveComplete (s : State) (g : Group) : State :=
  match (s.group g).hs with
  | some hs => if hs.block = 4 then ((s.gateGroup g hs.target).powerState (.group g) hs.target).finish hs.cmd else s
  | none => s

/-! ### Wake -/

/-- R533: the wake has failed for the second time. -/
def State.wakeFailed (s : State) (g : Group) (w : Wake) : State :=
  let s := (((s.put .PG_STATE g 4).put .PG_PADS_HELD g 1).flag .PG_WAKE_FAIL g).modGroup g fun y => { y with wake := none }
  (s.fenceIn (.group g) .wakeFailed).refuse w.cmd (.failed 0x51)

/-- R533: rail and PLL are found good, or either is missing 2 ms after the start of an attempt. -/
def State.railCheck (s : State) (g : Group) (good : Bool) : State :=
  match (s.group g).wake with
  | none => s
  | some w =>
    if w.railGood then s
    else if good then s.modGroup g fun y => { y with wake := some { w with railGood := true } }
    else if (s.half g.half).aon < w.began + msTicks 2 then s
    else if w.second then s.wakeFailed g w
    else (s.flag .PG_WAKE_RETRY g).modGroup g fun y => { y with wake := some { w with second := true, began := (s.half g.half).aon } }

/-- R533, R531 and R534: the wake ends in G-ACTIVE with pads held, the registers and snapshots taken from the pantry area; toward G-REST the
handshake follows. -/
def State.wakeComplete (s : State) (g : Group) : State :=
  match (s.group g).wake with
  | none => s
  | some w =>
    if !w.railGood then s
    else
      let s := (s.restoreGroup g).each g.lanes State.showEffort
      let s := (s.inc .PG_WAKE_CNT g).reloadKnds (groupKnds g)
      let s := ((s.put .PG_STATE g 0).put .PG_PADS_HELD g 1).modGroup g fun y => { y with wake := none }
      let s := s.powerState (.group g) 0
      if w.target = 1 then s.startHandshake g 1 w.cmd else s.finish w.cmd

/-! ### GROUP_STATE -/

/-- R530, R531, R533: the group moves to a state: 0 G-ACTIVE, 1 G-REST, 2 G-PROOF, 3 G-DORMANT; R541: a change under way
comes first. -/
def State.moveGroup (s : State) (g : Group) (target : Nat) (cmd : Option Cmd) : State :=
  let st := s.get .PG_STATE g
  if st = 5 ∨ st = 6 then s.modGroup g fun y => { y with moves := y.moves ++ [(target, cmd)] }
  else if st = target then s.finish cmd
  else if st = 0 then s.startHandshake g target cmd
  else if st = 1 then
    if target = 0 then (((s.put .PG_STATE g 0).resumeContexts g).powerState (.group g) 0).finish cmd
    else s.startHandshake g target cmd
  else if target = 0 then s.startWake g 0 cmd
  else if target = 1 then (if st = 4 then s.refuse cmd (.rejected 0x03) else s.startWake g 1 cmd)
  else ((s.put .PG_STATE g target).planProof g) |>.powerState (.group g) target |>.finish cmd

/-! ### Device states -/

/-- R535: a group returns to the state it held; what the device state asked of it and has not begun is dropped, a handshake of its own goes on. -/
def State.returnGroup (s : State) (g : Group) (was : Nat) : State :=
  let s := s.modGroup g fun y => { y with moves := y.moves.filter fun m => m.2.isSome }
  let st := s.get .PG_STATE g
  match (s.group g).hs with
  | some hs => if hs.cmd.isSome then s else s.undoHandshake g hs
  | none =>
    if st = was ∨ st ≠ 3 then s
    else if was ≤ 1 then s.startWake g was none
    else (s.put .PG_STATE g was).planProof g

/-- The groups of a half with the states they held. -/
def State.heldGroups (s : State) (h : Half) : List (Group × Nat) := h.groups.zip (s.half h).held

/-- R535 and R536: a refusal rolls the entry back. -/
def State.rollBack (s : State) (h : Half) (d : DevReq) : State :=
  let gs := s.heldGroups h
  let s := (s.put .PH_DSTATE h d.was).modHalf h fun y => { y with dev := none, held := [] }
  let s := s.each gs fun s p => s.returnGroup p.1 p.2
  let s := if s.isSet .PH_D3_HOT h ∧ d.cmd.isNone then s.flag .PH_D3_REFUSED h else s
  s.refuse d.cmd (.rejected 0x50)

/-- R535: every group is gated: the device state is entered. K123 or K127 halts, so the sessions end. D-OFF acts once the completion of its
command has been written; without a command at once. -/
def State.enterDevice (s : State) (h : Half) (target : Nat) (cmd : Option Cmd) : State :=
  let s := (s.put .PH_DSTATE h target).modHalf h fun y => { y with dev := none, sessions := [] }
  let s := if target = 2 then
      let s := s.saveHalf h
      match cmd with
      | some c => s.modHalf c.org fun y => { y with resets := y.resets ++ [(c.req.tag, 15, h.val)] }
      | none => s.modHalf h fun y => { y with off := true, live := false }
    else s
  s.powerState (.half h) target

/-- Every group of the half is in G-DORMANT. -/
def State.allDormant (s : State) (h : Half) : Bool := h.groups.all fun g => s.get .PG_STATE g == 3

/-- R541: a change of a group's state that waited begins once the one before it has ended. -/
def State.nextMove (s : State) (g : Group) : State :=
  let st := s.get .PG_STATE g
  match (s.group g).moves with
  | [] => s
  | (t, c) :: rest =>
    if st = 5 ∨ st = 6 then s else (s.modGroup g fun y => { y with moves := rest }).moveGroup g t c

/-- R535: a change of device state goes on as its groups do. A command that moves both halves completes when both have entered, or is
refused on both. -/
def State.stepDevice (s : State) (h : Half) : State :=
  let s := s.each h.groups State.nextMove
  let o := otherHalf h
  match (s.half h).dev with
  | none => s
  | some d =>
    let mate := (s.half o).dev.filter fun e => d.cmd.isSome && e.cmd == d.cmd
    if d.refused then
      let s := s.rollBack h d
      match mate with
      | some e => s.rollBack o { e with cmd := none }
      | none => s
    else if !s.allDormant h then s
    else
      match mate with
      | some e => if !s.allDormant o then s
        else (((s.enterDevice halfA d.target d.cmd).enterDevice halfB e.target d.cmd)).finish d.cmd
      | none => (s.enterDevice h d.target d.cmd).finish d.cmd

/-- R535: the state that a group holds, or is on its way to. -/
def State.heldState (s : State) (g : Group) : Nat :=
  match (s.group g).hs, (s.group g).wake with
  | some hs, _ => hs.target
  | _, some w => w.target
  | _, _ => s.get .PG_STATE g

/-- R535 and R536: the groups of a half start toward D-STANDBY (1) or D-OFF (2). R543: DSTATE reads 2 from here on toward D-OFF. -/
def State.startGroups (s : State) (h : Half) (target : Nat) (cmd : Option Cmd) : State :=
  let states := h.groups.map s.heldState
  let was := s.get .PH_DSTATE h
  let s := if target = 2 then s.put .PH_DSTATE h 2 else s
  let s := s.modHalf h fun y =>
    { y with dev := some ⟨target, was, cmd, false⟩, held := if y.held = [] then states else y.held }
  s.each h.groups fun s g => if ((s.half h).dev.map (·.refused)).getD true then s else s.moveGroup g 3 none

def State.startDevice (s : State) (h : Half) (target : Nat) (cmd : Option Cmd) : State := (s.startGroups h target cmd).stepDevice h

/-- R535: the half leaves D-STANDBY. -/
def State.leaveStandby (s : State) (h : Half) : State :=
  let gs := s.heldGroups h
  let s := (s.put .PH_DSTATE h 0).modHalf h fun y => { y with held := [] }
  let s := s.each gs fun s p => s.returnGroup p.1 p.2
  s.powerState (.half h) 0

/-- R535: DEVICE_STATE moves both halves. R541: it waits for a change in progress. -/
def State.moveDevice (s : State) (target : Nat) (c : Cmd) : State :=
  let away := allHalves.filter fun (h : Half) => s.get .PH_DSTATE h != target
  if allHalves.any fun h => (s.half h).dev.isSome then s.modHalf halfA fun y => { y with devWait := y.devWait ++ [(target, c)] }
  else if target = 0 then (s.each away fun s h => s.leaveStandby h).finish (some c)
  else if away.isEmpty then s.finish (some c)
  else
    let s := s.each away fun s h =>
      if allHalves.any fun k => ((s.half k).dev.map (·.refused)).getD false then s else s.startGroups h target (some c)
    s.each away fun s h => s.stepDevice h

/-- R535 and R541: a change of device state goes on; when it has ended, those that wait begin in order. -/
def State.settleDevice (s : State) (h : Half) : State :=
  let s := s.stepDevice h
  let waiting := (s.half halfA).devWait
  (s.modHalf halfA fun y => { y with devWait := [] }).each waiting fun s p => s.moveDevice p.1 p.2

/-! ### Rows -/

/-- R528: the condition behind a DELAY has ended; the block is asked again. -/
def execHandshakeDelayEnd (g : Group) (s : State) : Host.Outcome State Fault Refusal :=
  match (s.group g).hs with
  | some hs => if hs.delaying then done ((s.askBlocks g 5 { hs with delaying := false }).settleDevice g.half) else done s
  | none => done s

/-- R528: a block still delaying at 10 ms refuses. -/
def execHandshakeTimeout (g : Group) (s : State) : Host.Outcome State Fault Refusal :=
  match (s.group g).hs with
  | some hs =>
    if hs.delaying ∧ hs.asked + msTicks 10 ≤ (s.half g.half).aon then done ((s.refuseHandshake g hs 5).settleDevice g.half) else done s
  | none => done s

def execPowerSaveComplete (g : Group) (s : State) : Host.Outcome State Fault Refusal :=
  done ((s.saveComplete g).settleDevice g.half)

/-- R532: a proof window opens every PERIOD ms: the runs of the sequences of SEQ_MASK start 20 µs, 40 slots, later. The settings written since the
previous one act from here. -/
def execProofWindowOpen (g : Group) (s : State) : Host.Outcome State Fault Refusal :=
  let t := (s.half g.half).aon
  if s.get .PG_STATE g ≠ 2 ∨ s.isSet .THM_TRIP g.half ∨ t < (s.group g).proofDue then done s
  else
    let due := (s.group g).proofDue + msTicks (s.get .PG_PERIOD g)
    let stop := t + 2500 * s.get .PG_WIN g
    let s := (s.inc .PG_PROOF_CNT g).modGroup g fun y => { y with proof := true, proofDue := due, proofEnd := stop }
    done (s.each (List.range 4) fun s k =>
      if (s.get .PG_SEQ_MASK g).testBit k then
        let q : SeqN := ⟨(4 * (g.val / 3) + k) % 8, by omega⟩
        if (s.sequ q).waiting || (s.sequ q).run.isSome then s.incSat .SEQ_OVERRUN q
        else s.makeReady q 40
      else s)

/-- R532: the window closes, WIN counts of 10 µs after it opened. -/
def execProofWindowClose (g : Group) (s : State) : Host.Outcome State Fault Refusal :=
  if (s.group g).proof ∧ (s.group g).proofEnd ≤ (s.half g.half).aon then done (s.modGroup g fun y => { y with proof := false }) else done s

def execWakeRailCheck (g : Group) (good : Bool) (s : State) : Host.Outcome State Fault Refusal :=
  done ((s.railCheck g good).settleDevice g.half)

def execWakeComplete (g : Group) (s : State) : Host.Outcome State Fault Refusal :=
  done ((s.wakeComplete g).settleDevice g.half)

/-- R536: a half in D-ACTIVE starts the entry to D-STANDBY. -/
def State.sleepD3 (s : State) (h : Half) : State :=
  if s.running h ∧ s.get .PH_DSTATE h = 0 ∧ (s.half h).dev.isNone then
    (s.modHalf h fun y => { y with d3At := y.aon }).startDevice h 1 none
  else s

/-- R536: the function enters D3hot. -/
def execD3hotEntry (h : Half) (s : State) : Host.Outcome State Fault Refusal :=
  done ((s.put .PH_D3_HOT h 1).sleepD3 h)

/-- R536: the entry is repeated every 100 ms ± 1 ms while the function stays in D3hot. -/
def execD3hotRetry (h : Half) (s : State) : Host.Outcome State Fault Refusal :=
  if s.isSet .PH_D3_HOT h ∧ (s.half h).d3At + msTicks 99 ≤ (s.half h).aon then done (s.sleepD3 h) else done s

/-- R536: the function returns to D0; MSI-X vectors that waited are sent. -/
def execD0Return (h : Half) (s : State) : Host.Outcome State Fault Refusal :=
  let s := s.put .PH_D3_HOT h 0
  let s := if (s.half h).bme then s.sendPending h else s
  if s.get .PH_DSTATE h = 1 then done (s.leaveStandby h) else done s

/-! ### Resets -/

/-- R534 and R491: the pads of a group are released. -/
def State.releasePads (s : State) (g : Group) : State := s.put .PG_PADS_HELD g 0

/-- R538: a group reset starts: lanes to IDLE, host lanes to DISABLED, contexts anew, counters gone, adaptation from the applied
register values. R541: an entry whose save has started completes first. -/
def State.groupReset (s : State) (g : Group) : State :=
  let s := s.saveComplete g
  let s := (((s.endSlotsIn g.half g.lanes).idleGroup g).restartContexts g).wipeGroupCounts g
  (s.restartAdaptation g).modGroup g fun y => { y with resetting := true, sliceRun := none, sliceTest := none, tested := false }

/-- R541: a handshake whose save has started completes first; one that has not is dropped. -/
def State.endHandshake (s : State) (g : Group) : State :=
  match (s.group g).hs with
  | some hs => if hs.block = 4 then s.saveComplete g else s.undoHandshake g hs
  | none => s

/-- R538: the group Kneaders are reloaded and the loop engine restarted. -/
def execGroupResetComplete (g : Group) (s : State) : Host.Outcome State Fault Refusal :=
  if (s.group g).resetting then done ((s.modGroup g fun y => { y with resetting := false }).reloadKnds (groupKnds g)) else done s

/-- R538: a lane reset: IDLE, then acquisition; its contexts start anew (R539). -/
def State.laneReset (s : State) (l : Lane) : State :=
  let s := (((s.endSlotsIn l.half [l]).toIdle l).restartLane l).modLane l fun x => { x with resetDue := false }
  s.each (Lane.group l).ctxs fun s x =>
    if s.ctxLane x = some l ∧ s.get .CTX_STATE x ≠ ctxOff then s.startCtx x else s

/-- The kinds of R543's LAST_RESET. -/
def rstPerst := 1
def rstSoft := 2
def rstHalf := 3
def rstOff := 4

/-- R539: the blocks that a half's rings and host interface hold return to reset. -/
def State.wipeRings (s : State) (h : Half) : State :=
  let s := s.wipe fun f i => (f.info.blk == .HIF || f.info.blk == .RING) && inHalf h f i && !f.counts
  s.modHalf h fun y =>
    { y with
      rings := Vector.replicate 8 {}, reserved := 0, setup := [], msixTbl := [], msixPend := [], cpls := [], evts := [], evtDrop := 0, tlms := []
      tlmDrop := 0, tsq := [], tsqDropping := false, sbDirty := false, fwd := [], capWait := [], clrWait := [], commits := [] }

/-- R539: the time base of a half restarts at 0. -/
def State.restartTime (s : State) (h : Half) : State :=
  s.modHalf h fun y => { y with sec := 0, ns := 0, frac := 0, remain := 0, step := none, pendAddend := none, pendSlew := none }.planSubs

/-- R539: the column of a half reset for the groups of the half. -/
def State.resetGroups (s : State) (h : Half) (kind : Nat) : State :=
  s.each h.groups fun s g =>
    let s := (((s.endHandshake g).modGroup g fun y => { y with moves := [], sliceTest := none, tested := false }).idleGroup g).restartContexts g
    let s := if kind = rstSoft then s else s.wipeGroupCounts g
    let s := if kind = rstPerst then ((s.wipe (groupSetting g)).wipe fun f i => f == .CD_LOOP && i / 80 == h.val).restartAdaptation g
      else if kind = rstSoft then s.restoreAdaptation g
      else s.restoreGroup g
    s.each g.lanes State.showEffort

/-- A reset of the half ends its on-demand test: a Kneader that the test had freed is loaded again with the rest. -/
def State.dropTest (s : State) (h : Half) : State :=
  let k := testKnd h (s.get .ST_UNIT h)
  let freed := s.onTest h && (s.get .ST_KIND h == 1 || s.get .ST_KIND h == 2) && (s.get .KND_STATE k == 2 || s.get .KND_STATE k == 3)
  (((if freed then s.put .KND_STATE k 1 else s).put .ST_STATE h 0).setFullWidth h false).modHalf h fun y => { y with stCmd := none }

/-- R557: every injection of a half ends and the half is locked. -/
def State.relock (s : State) (h : Half) : State := (s.each (fiSlots h) State.endSlot).put .FI_UNLOCKED h 0

/-- R539: one column of the survival table, for PERST, the soft reset, the half reset and PERST that leaves D-OFF. -/
def State.resetHalf (s : State) (h : Half) (kind : Nat) : State :=
  let s := (((s.dropTest h).relock h).resetGroups h kind).dropPending h
  let s := if kind = rstHalf ∨ kind = rstOff then
      let s := s.wipe fun f i => inHalf h f i && f.info.blk.countHalf && f.counts && !f.supervisor
      ((s.modHalf h fun y => { y with filters := [], filtAll := 0 }).restoreHalf h).restartTime h
    else s
  let s := if kind = rstHalf then s else s.wipeRings h
  let s := if kind = rstHalf ∨ kind = rstSoft then s else s.modHalf h fun y => { y with bme := false }
  -- R547: the half reset keeps the subscriptions
  let s := s.modHalf h fun y =>
    { y with sessions := [], subs := if kind = rstHalf then y.subs else [], dev := none, devWait := [], resets := [], loadCmd := none, updCmd := none, latch := [], dumpBuf := none }
  (s.put .PH_LAST_RESET h kind).incSat .PH_RESET_CNT h

end Sys2Proof.Machine
end

