-- ==== Sys2Proof/Machine/Start.lean ====
section
/-! DEFINITION. Start-up, the boot record, Starter mode, settings records, fatal errors (R497 to R524), and what starts a half or
takes its supplies and clocks away: PORST#, PERST#, FLR, the supply monitors (R577), REFCLK (R54) and the PLLs. -/

namespace Sys2Proof.Machine

/-- R524: the states of TOP_BOOT_STAT. -/
def bootStarting := 0
def bootRun := 1
def bootStarter := 2
def bootFatal := 3

/-! ### The boot record -/

/-- R515: the stage that the boot record gives with slot `run` running. -/
def BootRec.stage (b : BootRec) (run : Nat) : Nat :=
  if b.pending = run + 1 then 5
  else if b.pending ≠ 0 then 4
  else if b.valid (1 - b.active) ∧ b.hash (1 - b.active) ≠ b.hash b.active then 3
  else 0

/-- R515: a change of stage, with its event; `code` is what DATA0 gives. -/
def State.setStage515 (s : State) (h : Half) (stage code : Nat) : State :=
  (s.put .BOOT_UPD_STAGE h stage).raise h { sev := 0, code := 0x070B, scope := 1, id := h, d0 := code }

/-- R524: the update stages. -/
def stgIdle := 0
def stgLoading := 1
def stgVerifying := 2
def stgVerified := 3
def stgPending := 4
def stgTrial := 5

/-- R514, R515, R523: an apply fails or is abandoned: the stage is LOADING; a command on both halves fails with its first part. -/
def State.verifyFail (s : State) (h : Half) : State :=
  if s.get .BOOT_UPD_STAGE h ≠ stgVerifying then s
  else
    let cmd := (s.half h).updCmd
    let s := (s.setStage515 h stgLoading stgLoading).modHalf h fun y => { y with updCmd := none }
    match cmd with
    | some c =>
      let s := s.modHalf (otherHalf h) fun y => { y with updCmd := if y.updCmd = some c then none else y.updCmd }
      s.complete c (.failed 0x60)
    | none => s

/-! ### Starting -/

/-- R497, R500, R339: a start begins at a step, with the chains in full-width mode. `kind`: 0 COLD, 1 WARM, 2 WARM_FULL. -/
def State.beginStart (s : State) (h : Half) (kind step : Nat) : State :=
  let s := ((s.put .BOOT_STATE h bootStarting).put .BOOT_STEP h step).put .BOOT_START_KIND h kind
  let s := ((s.put .BOOT_ERR h 0).put .BOOT_BUSY h 0).put .BOOT_LOADED h 0
  (s.modHalf h fun y => { y with live := true, off := false, latch := [] }).setFullWidth h true

/-- R500 and R501: a warm start, or the full start with an invalid pantry. -/
def State.warmStart (s : State) (h : Half) : State :=
  if s.isSet .PH_VALID h then s.beginStart h 1 2 else s.beginStart h 2 1

/-- R421: the secrets of a half are zeroised. -/
def State.zeroise (s : State) (h : Half) : State :=
  (((s.flag .REL_ZEROISED h).incSat .REL_ZERO_CNT h).put .REL_KEY_LOADED h 0).modHalf h fun y => { y with sessions := [] }

/-- R421: a start tests the Kneader of the security domain: it has not passed since PORST#. -/
def State.testsSecurity (s : State) (h : Half) : Bool := s.underTest h false (.kneader (sysKnd h 3))

/-- R421 and R422: the working key is loaded from OTP, unless its reads are blocked. -/
def State.loadKey (s : State) (h : Half) : State := if s.isSet .REL_KEY_LOCKED h then s else s.put .REL_KEY_LOADED h 1

/-- R434: the spares of a half before repair, at a start from PORST#. -/
def State.countSparesOf (s : State) (h : Half) : State := (s.each h.groups fun s g => s.countSpares g).showRows h

/-- R63 and R369: the foreground calibration measures the gain ratio of every PGA step of a lane. -/
def State.measurePga (s : State) (l : Lane) : State :=
  let r := (List.range 16).foldl (fun (p : List Nat × State) _ => let d := p.2.draw; (p.1 ++ [Config.pgaRatio d.1 % 65536], d.2)) ([], s)
  r.2.modLane l fun x => { x with pga := r.1, comp := r.1.getD (r.2.get .FE_GAIN_STEP l) 0x8000 }

/-- R369, R371, R373: a measurement of the foreground calibration. What passed is kept for the settings of R518. A segment outside its limit in both
runs fails, and counts from release (R62). -/
def State.foreground (s : State) (h : Half) (c : StartCal) : State :=
  let k := c.kind.val
  let t := if k = 3 then s.getS .THM_HOTTEST h else if k = 2 then s.getS .THG_TG (c.unit.val % 6) else s.tg (Lane.group c.unit)
  let s := match k with
    | 2 => s.calibrate h 2 (c.unit.val % 6) (48 + c.unit.val % 6) t 2 (c.unit.val % 6) c.cell c.cal
    | 3 => s.calMonitor h c.cal
    | 1 =>
      let s := s.calLane c.unit 1 c.cell c.cal
      if calBad c.cal 1 then s.segFail c.unit c.cell else s
    | _ => s.calLane c.unit k c.cell c.cal
  if calAgrees c.cal k then
    s.modHalf h fun y => { y with
      startCals := y.startCals ++ (calValues c.cal k).zipIdx.map fun v => (k, if k = 3 then h.val else c.unit.val, 3 * c.cell + v.2, t, v.1) }
  else s

/-- R369, R497 step 4: foreground calibration of the targets of the half. -/
def State.calibrateAll (s : State) (h : Half) (cs : List StartCal) : State :=
  let mine := cs.filter fun c => match c.kind.val with
    | 2 => c.unit.val % 6 / 3 == h.val
    | 3 => c.unit.val % 2 == h.val
    | _ => c.unit.val / 24 == h.val
  (s.each h.lanes State.measurePga).each mine fun s c => s.foreground h c

/-- R504: the half enters Starter mode. -/
def State.toStarter (s : State) (h : Half) : State := s.put .BOOT_STATE h bootStarter

/-- R503 step 5: a slot is loaded and verified. -/
def State.runSlot (s : State) (h : Half) (slot : Nat) (img : ImageInfo) : State :=
  let s := (s.modHalf h fun y => { y with run := some img }).put .BOOT_SLOT h slot
  let onTrial := (s.half h).boot.trial && (s.half h).boot.pending == slot + 1
  ((s.putBool .BOOT_TRIAL h onTrial).put .BOOT_VERSION h (imageVersion img)).put .BOOT_STEP h 6

/-- R503: the slot that the boot record selects, with the record as the loader leaves it, and the slot abandoned. -/
def chooseSlot (b : BootRec) : BootRec × Nat × Option Nat :=
  if b.pending ≠ 0 ∧ b.trial ∧ 1 ≤ b.fail then
    ({ b with pending := 0, trial := false, setTrial := 0 }, b.active, some (b.pending - 1))
  else if b.pending ≠ 0 then ({ b with trial := true }, b.pending - 1, none)
  else (b, b.active, none)

/-- R501: a warm start on the slot that ran keeps the image in the image store, whose hash is the pantry's, without a signature check. -/
def State.keepsImage (s : State) (h : Half) (slot : Nat) (hash : BitVec 384) : Bool :=
  s.get .BOOT_START_KIND h == 1 && s.get .BOOT_SLOT h == slot && hash == (s.half h).pantry && (s.half h).run.isSome

/-- R503: step 5 of a start. -/
def State.chooseAndLoad (s : State) (h : Half) (r : StartResult) : State :=
  let b := (s.half h).boot
  let s := s.put .BOOT_FAIL_CNT h b.fail
  if b.starterReq ∨ 3 ≤ b.fail then s.toStarter h
  else
    let c := chooseSlot b
    let img := fun k : Nat => if k = 0 then (⟨s.slotBytes h 0, r.slotA⟩ : ImageInfo) else ⟨s.slotBytes h 1, r.slotB⟩
    let s := s.writeBoot h fun _ => { c.1 with fail := min 7 (b.fail + 1) }
    let s := s.modHalf h fun y => { y with rolledBack := c.2.2.isSome }
    if s.keepsImage h c.2.1 r.storeHash then s.runSlot h c.2.1 ((s.half h).run.getD (img c.2.1))
    else if s.verifies h (img c.2.1) then s.runSlot h c.2.1 (img c.2.1)
    else
      let s := (s.writeBoot h fun b => b.mark c.2.1 false).put .BOOT_ERR h (3 + c.2.1)
      let o := 1 - c.2.1
      if (s.half h).boot.valid o ∧ c.2.2 ≠ some o ∧ s.verifies h (img o) then s.runSlot h o (img o)
      else
        let s := if (s.half h).boot.valid o ∧ c.2.2 ≠ some o then (s.writeBoot h fun b => b.mark o false).put .BOOT_ERR h (3 + o) else s
        s.toStarter h

/-- R415 and R430: a warm start takes the repair log from the pantry; without it, what flash holds. -/
def State.pantryLog (s : State) (h : Half) : State :=
  if s.areaGood h 1 then s
  else
    let s := s.modHalf h fun y => { y with log := y.log.take y.logFlash }
    (s.put .REL_LOG_USED h (s.half h).log.length).writeArea h 1

/-- R497 and R501: the step of a start that ends now, in the order of R415. -/
def State.startStep (s : State) (h : Half) (r : StartResult) : State :=
  let full := s.get .BOOT_START_KIND h ≠ 1
  match s.get .BOOT_STEP h with
  | 0 => ((s.setFullWidth h true).modHalf h fun y => { y with sec := 0, ns := 0, frac := 0 }).put .BOOT_STEP h 1
  | 1 =>
    let s := s.loadKey h
    (if s.get .BOOT_START_KIND h = 0 then (s.countSparesOf h).applyLog h else s.pantryLog h).put .BOOT_STEP h 2
  | 2 =>
    let s := if full ∨ s.testsSecurity h then (s.zeroise h).loadKey h else s
    (s.logicTest h full r.signatures).put .BOOT_STEP h 3
  | 3 =>
    let s := (((s.marchRepair h full r.march).repairSticky h).showRows h).returnSpares h
    s.put .BOOT_STEP h (if full || !s.areaGood h 7 then 4 else 5)
  | 4 => (s.calibrateAll h r.cals).put .BOOT_STEP h 5
  | 5 => s.chooseAndLoad h r
  | _ => s

/-- R498: a step of the start ends. DESIGN CHOICE: a half whose REFCLK is absent waits in its step until REFCLK_RESTORED (R55 is silent, log 143). -/
def execStartStepComplete (h : Half) (r : StartResult) (s : State) : Host.Outcome State Fault Refusal :=
  if s.get .BOOT_STATE h ≠ bootStarting ∨ ¬ (s.half h).live ∨ ¬ (s.half h).refOk then done s
  else if r.ok then done ((s.modHalf h fun y => { y with clock := true }).startStep h r)
  else
    let s := s.put .BOOT_ERR h r.err
    done (if s.get .BOOT_STEP h = 5 ∧ r.err = 2 then s.toStarter h else s)

/-! ### Settings records -/

/-- The record slot 1 or 2 of SET_ACTIVE and SET_TRIAL. -/
def recSlot (n : Nat) : Fin 2 := if n = 2 then 1 else 0

/-- R510: the record in a slot of SET_ACTIVE or SET_TRIAL. -/
def HalfS.record (y : HalfS) (n : Nat) : Option SetRec := if n = 0 then none else y.settings.get (recSlot n)

/-- R510 and R511: a record is written into a slot, with what the half holds now. -/
def State.writeRecord (s : State) (h : Half) (n : Nat) : State :=
  let img := (s.half h).run
  let r := s.takeSettings h ((s.half h).record (s.half h).boot.setActive) ((img.map imageWrites).getD 0) ((img.map imageVersion).getD 0)
  s.modHalf h fun y => { y with settings := y.settings.set (recSlot n) (some r), setAt := some y.ticks, setUsed := n }

/-- R510: factory defaults: the OTP calibration points, over which the calibrations of this start pass again, and the reset values of the start
points. -/
def State.factoryDefaults (s : State) (h : Half) : State :=
  let r := s.takeSettings h none 0 0
  let s := { s with trims := s.trims.filter fun x => !r.trims.contains x }
  let s := s.each (s.half h).startCals fun s c => s.setTrim ((s.trim c.1 c.2.1 c.2.2.1).pass c.2.2.2.1 c.2.2.2.2)
  s.each r.starts fun s c => s.putApp c.fld c.idx (c.fld.reset c.idx)

/-- R370, R510, R518: a record is used: its trims, over which the calibrations of this start pass again, and its start points. -/
def State.useRecord (s : State) (h : Half) (r : SetRec) : State :=
  let s := s.each r.trims State.setTrim
  let s := s.each (s.half h).startCals fun s c => s.setTrim ((s.trim c.1 c.2.1 c.2.2.1).pass c.2.2.2.1 c.2.2.2.2)
  s.each r.starts fun s c => s.putApp c.fld c.idx c.val

/-- R501, R516 and R518: the settings of a record slot at release; an invalid one gives factory defaults. After a warm start the pantry holds those
of the record in use, which is not read again; a warm start onto another record, as after a rollback, reads that one. -/
def State.readRecord (s : State) (h : Half) (n : Nat) (valid : Bool) : State :=
  let y := s.half h
  if s.get .BOOT_START_KIND h = 1 ∧ y.setUsed = n then s
  else
    (match if valid then y.record n else none with
      | some r => (s.factoryDefaults h).useRecord h r
      | none => s.factoryDefaults h).modHalf h fun y => { y with setUsed := n }

/-- R518: the schema of an old record against the image that runs: migrated, or defaults. The result goes to the other slot. -/
def State.migrate (s : State) (h : Half) (valid : Bool) : State :=
  let img := (s.half h).run.getD ⟨[], 0, false, false, false⟩
  let active := (s.half h).boot.setActive
  let other := if active = 1 then 2 else 1
  let old := if valid then ((s.half h).record active).map (·.schema) else none
  let ok := old.any fun v => imageReadsMin img ≤ v && v ≤ imageWrites img
  let s := (if ok then s.readRecord h active true else s.factoryDefaults h).writeRecord h other
  let s := if (s.half h).fromStarter then s.writeBoot h fun b => { b with setActive := other, setTrial := 0 }
    else s.writeBoot h fun b => { b with setTrial := other }
  if ok then s.put .BOOT_SETTINGS h 1
  else (s.put .BOOT_SETTINGS h 2).raise h
    { sev := 2, code := 0x070C, scope := 1, id := h, d0 := old.getD 0, d1 := imageWrites img }

/-- R518: the settings at release: only a trial, or an image from Starter mode, migrates. -/
def State.settings (s : State) (h : Half) (r : ReleaseInfo) : State :=
  let b := (s.half h).boot
  if (s.half h).fromStarter then s.migrate h r.activeOk
  else if ¬ s.isSet .BOOT_TRIAL h then (s.readRecord h b.setActive r.activeOk).put .BOOT_SETTINGS h 0
  else if b.setTrial ≠ 0 ∧ r.trialOk ∧ ((s.half h).record b.setTrial).isSome then (s.readRecord h b.setTrial true).put .BOOT_SETTINGS h 0
  else s.migrate h r.activeOk

/-- R511: the content of the settings has changed since the record in a slot; without one they stand against factory defaults. -/
def State.settingsMoved (s : State) (h : Half) (n : Nat) : Bool :=
  let old := ((s.half h).record n).getD {}
  let new := s.takeSettings h none 0 0
  new.trims != old.trims || new.starts != old.starts

/-- R511: a record may be written: none in the last 60 s. -/
def State.settingsDue (s : State) (h : Half) : Bool := (s.half h).setAt.all fun t => t + msTicks 60000 ≤ s.ticks h

/-- R511: a settings record is written while the half runs, its content has changed and none was written for 60 s: the SET_TRIAL slot in a
trial, else the slot that is not SET_ACTIVE, which then becomes it. -/
def execSettingsRecordWrite (h : Half) (s : State) : Host.Outcome State Fault Refusal :=
  let b := (s.half h).boot
  if s.get .BOOT_STATE h ≠ bootRun ∨ s.kndOut (sysKnd h 2) ∨ !s.settingsDue h
    ∨ !s.settingsMoved h (if s.isSet .BOOT_TRIAL h then b.setTrial else b.setActive) then done s
  else if s.isSet .BOOT_TRIAL h then done (if b.setTrial = 0 then s else s.writeRecord h b.setTrial)
  else
    let n := if b.setActive = 1 then 2 else 1
    done ((s.writeRecord h n).writeBoot h fun b => { b with setActive := n })

/-! ### Release -/

/-- R497 step 6, R502, R515, R518, R537: release. -/
def execStartRelease (h : Half) (r : ReleaseInfo) (s : State) : Host.Outcome State Fault Refusal :=
  if s.get .BOOT_STATE h ≠ bootStarting ∨ s.get .BOOT_STEP h ≠ 6 then done s
  else
    let s := (s.put .BOOT_STATE h bootRun).writeBoot h fun b => { b with fail := 0 }
    let s := (s.settings h r).modHalf h fun y => { y with fromStarter := false }
    let stage := (s.half h).boot.stage (s.get .BOOT_SLOT h)
    let s := if s.get .BOOT_UPD_STAGE h = stage then s else s.setStage515 h stage stage
    let s := if (s.half h).rolledBack then s.setStage515 h stage 7 else s
    let s := s.modHalf h fun y =>
      { y with heard := false, releasedAt := y.ticks, rolledBack := false, startCals := [], pantry := (y.run.map (·.checks.hash)).getD 0 }
    let s := ((s.put .PH_VALID h 1).put .BOOT_PANTRY_VALID h 1)
    let s := (s.each [0, 1, 7] fun s k => s.writeArea h k).each h.groups fun s g => s.saveGroup g
    let s := s.saveHalf h
    let s := s.reloadKnds ((List.finRange 128).filter fun k : Knd => k.half == h)
    done ((s.setFullWidth h false).fenceLost h)

/-! ### Starter mode -/

/-- R524: a write of KEY and REQ. -/
def State.starterRequest (s : State) (h : Half) (v : Nat) : State :=
  if v / 65536 = 0x5354 ∧ v.testBit 0 then s.writeBoot h fun b => { b with starterReq := true } else s

def execStarterRequestWrite (h : Half) (v : W32) (s : State) : Host.Outcome State Fault Refusal :=
  done (s.hostWrite h fun s => s.starterRequest h v.toNat)

/-- R505: a write of GO and SLOT in Starter mode. -/
def State.starterGo (s : State) (h : Half) (v : Nat) : State :=
  if s.get .BOOT_STATE h ≠ bootStarter ∨ s.isSet .BOOT_BUSY h then s
  else
    let s := s.putBool .BOOT_ST_SLOT h (v.testBit 30)
    if v.testBit 31 then
      let addr := s.get .BOOT_ST_ADDR_HI h * 2 ^ 32 + s.get .BOOT_ST_ADDR_LO h * 64
      ((s.put .BOOT_BUSY h 1).put .BOOT_ST_RESULT h 0).emit (.dma h addr "image" (s.get .BOOT_ST_LEN h))
    else s

def execStarterLoadGo (h : Half) (v : W32) (s : State) : Host.Outcome State Fault Refusal :=
  done (if s.answers h then s.starterGo h v.toNat else s)

/-- R505 and R524: the result of a load: 5 SIZE, 4 DMA, 2 VERIFY, 3 FLASH, 1 OK. -/
def State.starterResult (s : State) (h : Half) (dmaOk flashOk : Bool) (img : ImageInfo) : Nat :=
  let len := s.get .BOOT_ST_LEN h
  if len < 512 ∨ 2097152 < len then 5 else if !dmaOk then 4 else if !s.verifies h img then 2 else if !flashOk then 3 else 1

/-- R505: the load ends; on success the slot holds the image, the boot record names it and the half starts from step 5. -/
def execStarterLoadComplete (h : Half) (r : LoadEnd) (img : ImageInfo) (s : State) : Host.Outcome State Fault Refusal :=
  if ¬ s.isSet .BOOT_BUSY h then done s
  else
    let result := s.starterResult h r.dmaOk r.flashOk img
    let s := (s.put .BOOT_BUSY h 0).put .BOOT_ST_RESULT h result
    if result ≠ 1 then done s
    else
      let slot := s.get .BOOT_ST_SLOT h % 2
      let s := s.modHalf h fun y => { y with slots := y.slots.set slot (some img.bytes) (Nat.mod_lt _ (by decide)) }
      let s := s.writeBoot h fun b =>
        ({ b with active := slot, pending := 0, trial := false, fail := 0, starterReq := false }.mark slot true).setHash slot img.checks.hash
      done ((s.beginStart h (s.get .BOOT_START_KIND h) 5).modHalf h fun y => { y with fromStarter := true })

/-! ### Fatal errors -/

def FatalCause.num : FatalCause → Nat
  | .sysKnd => 1
  | .image => 2
  | .assert => 3

/-- R520: a fatal error; R523: an update apply is abandoned. -/
def State.fatal (s : State) (h : Half) (cause kn : Nat) : State :=
  let s := (s.verifyFail h).raise h { sev := 4, code := 0x010A, scope := 1, id := h, d0 := cause, d1 := kn }
  (s.put .BOOT_STATE h bootFatal).dump h cause kn

def execFatalError (h : Half) (cause : FatalCause) (kn : Knd) (s : State) : Host.Outcome State Fault Refusal :=
  if s.get .BOOT_STATE h = bootRun then done (s.fatal h (FatalCause.num cause) kn) else done s

/-! ### PORST#, PERST#, FLR and the supplies -/

/-- What of a half survives PORST#: the flash, the entropy source, the board's pins and clocks. -/
def HalfS.afterPorst (y : HalfS) : HalfS :=
  { live := false, refOk := y.refOk, perst := y.perst, tag := y.tag, boot := y.boot, bootCopy := y.bootCopy, bootOld := y.bootOld
    slots := y.slots, store := y.store, settings := y.settings, log := y.log.take y.logFlash, logFlash := y.logFlash, logAt := y.logAt
    logPrev := y.logPrev }

/-- R539: everything at its PORST# value; channel pins that VCTL drives go to their clear codes (R575). -/
def State.powerOnReset (s : State) : State :=
  let driven := (List.finRange 160).filter fun c : Chan => !s.isSet .CD_HIZ c
  let locked := allHalves.filter fun h => s.testmode && s.isSet .REL_KEY_LOCKED h
  let pins := allHalves.filter fun h => s.isSet .LSH_SOFF_PIN h
  let clr := allHalves.filter fun h => s.isSet .CLRH_CLR_PIN h
  let halves := s.halves.map HalfS.afterPorst
  let s := { State.reset with halves := halves, testmode := s.testmode, porst := s.porst, out := s.out, free := s.free, pending := s.pending }
  let s := s.each driven fun s c => s.put .CD_HIZ c 0
  let s := s.each locked fun s h => (s.put .REL_KEY_LOCKED h 1).put .REL_SCAN_SEEN h 1
  let s := s.each pins fun s h => s.put .LSH_SOFF_PIN h 1
  let s := s.each clr fun s h => s.put .CLRH_CLR_PIN h 1
  s.each allHalves fun s h => s.put .REL_LOG_USED h (s.half h).log.length

/-- R575: PORST# falls. -/
def execPorstAssert (s : State) : Host.Outcome State Fault Refusal := done ({ s with porst := true } : State).powerOnReset

/-- R497 and R254: each half starts, with a fresh DEV_TAG. -/
def State.coldStarts (s : State) : State :=
  s.each allHalves fun s h => (s.modHalf h fun y => { y with tag := y.tag + 1 }).beginStart h 0 0

/-- R497: PORST# rises. -/
def execPorstDeassert (s : State) : Host.Outcome State Fault Refusal :=
  if s.porst then done ({ s with porst := false } : State).coldStarts else done s

/-- R577: VDD_AON or VDDIO out of range: an internal power-on reset; the pantry becomes invalid. -/
def execAonSupplyLoss (s : State) : Host.Outcome State Fault Refusal := done s.powerOnReset

/-- R577: both back in range: a cold start with PORST# high. -/
def execAonSupplyRestored (s : State) : Host.Outcome State Fault Refusal :=
  if s.porst ∨ allHalves.any fun h => (s.half h).live then done s else done s.coldStarts

/-- R500: PERST# asserts: the half resets. -/
def execPerstAssert (h : Half) (s : State) : Host.Outcome State Fault Refusal :=
  if (s.half h).perst then done s
  else
    let off := (s.half h).off
    let s := s.resetHalf h (if off then rstOff else rstPerst)
    done (s.modHalf h fun y => { y with perst := true, live := false, off := off })

/-- R500, R535, R576: PERST# releases: a warm start; the half comes out of D-OFF with its groups as they were. DESIGN CHOICE:
with REFCLK absent the start begins all the same, unfenced, and the time base stands until a start step ends after REFCLK_RESTORED (log 230). -/
def execPerstDeassert (h : Half) (s : State) : Host.Outcome State Fault Refusal :=
  if ¬ (s.half h).perst then done s
  else if s.porst then done (s.modHalf h fun y => { y with perst := false })
  else
    let off := (s.half h).off
    let s := (s.modHalf h fun y => { y with perst := false, clock := y.refOk }).warmStart h
    done (if off then (s.put .PH_DSTATE h 0).each (s.heldGroups h) (fun s p => s.returnGroup p.1 p.2) |>.modHalf h fun y => { y with held := [] }
      else s)

/-- R538: a soft reset of a half. -/
def State.softReset (s : State) (h : Half) : State := (s.resetHalf h rstSoft).warmStart h

/-- R538: Function Level Reset; Bus Master Enable clears as the PCIe base specification says. -/
def execFlr (h : Half) (s : State) : Host.Outcome State Fault Refusal :=
  done ((s.softReset h).modHalf h fun y => { y with bme := false })

/-- R538 and R41: the half reset that ends a half fence: PLL relock, then a warm start. -/
def State.halfReset (s : State) (h : Half) : State :=
  ((s.resetHalf h rstHalf).modHalf h fun y => { y with clock := y.refOk }).warmStart h

/-- R577: a rail of stages 2 to 4 fails while PORST# is high; D-OFF ignores it. -/
def execRailUndervoltage (s : State) : Host.Outcome State Fault Refusal :=
  if s.porst then done s
  else done (s.each allHalves fun s h => if (s.half h).off then s else s.fenceIn (.half h) .halfPower)

/-- R344: VCTL is valid: the channels of the half are driven at their clear codes. -/
def execVctlValid (h : Half) (s : State) : Host.Outcome State Fault Refusal := done (s.driveChans h)

/-- R577 and R344: VCTL is invalid: pins at high impedance; with PORST# high every group is fenced. -/
def execVctlInvalid (h : Half) (s : State) : Host.Outcome State Fault Refusal :=
  let s := s.floatChans h
  if s.porst ∨ (s.half h).off then done s else done (s.each h.groups fun s g => s.fenceIn (.group g) .groupIo)

/-- R54 and R40: REFCLK is lost: the half is fenced and its synthesised clocks stop. DESIGN CHOICE: R55 bids the host supply REFCLK before PORST# rises and
does not say what a half does without it: here a loss while PORST# is low, and the release itself, raise no fence (log 143). -/
def execRefclkLoss (h : Half) (s : State) : Host.Outcome State Fault Refusal :=
  let s := s.modHalf h fun y => { y with refOk := false, clock := false }
  if (s.half h).off ∨ s.porst then done s else done (s.fenceIn (.half h) .refclk)

/-- R486: REFCLK is back at the input. -/
def execRefclkRestored (h : Half) (s : State) : Host.Outcome State Fault Refusal :=
  done (s.modHalf h fun y => { y with refOk := true })

/-- R40: a PLL loses lock in service. -/
def execPllLockLoss (u : PllUnit) (s : State) : Host.Outcome State Fault Refusal :=
  match u with
  | .group g => if s.get .PG_STATE g ≤ 1 then done (s.fenceIn (.group g) .groupPower) else done s
  | .half h => if (s.half h).off then done s
    else done ((s.modHalf h fun y => { y with clock := false }).fenceIn (.half h) .halfPower)

end Sys2Proof.Machine
end

