-- ==== Sys2Proof/Machine/TimeBase.lean ====
section
/-! DEFINITION. The time base (R382 to R388): the tick, frequency, slew and step, half B's servo, PPS. -/

namespace Sys2Proof.Machine

/-! ### The tick -/

/-- R383: the slew term of a tick, in 2^-28 ns. -/
def slewTerm (remain : Int) (rate addend : Nat) : Int :=
  let m : Int := min remain.natAbs (rate * addend / 1000000)
  if remain < 0 then -m else m

/-- R382, R385, R386: the advance of the time base at a tick, in 2^-28 ns. -/
def HalfS.advance (y : HalfS) (rate : Nat) : Int := y.addend + slewTerm y.remain rate y.addend + y.corr + y.follow

/-- R382: one tick. -/
def HalfS.tick (y : HalfS) (rate : Nat) : HalfS :=
  let acc := y.frac + y.advance rate
  let ns := (y.ns + acc / 2 ^ 28).toNat
  let wrap := 1000000000 ≤ ns
  { y with
    ticks := y.ticks + 1, frac := (acc % 2 ^ 28).toNat, ns := if wrap then ns - 1000000000 else ns
    sec := if wrap then (y.sec + 1) % 2 ^ 48 else y.sec, remain := y.remain - slewTerm y.remain rate y.addend, wrapped := wrap }

/-- R383: the writes that waited for this tick. -/
def HalfS.takeWrites (y : HalfS) : HalfS :=
  { y with
    addend := y.pendAddend.getD y.addend, remain := (y.pendSlew.map (· * 2 ^ 28)).getD y.remain, pendAddend := none, pendSlew := none }

/-- R388: PPS_OUT rises as the time, advanced by PPS_OUT_COMP (1/16 ns), passes a second. -/
def State.ppsOut (s : State) (before : Nat) : State :=
  let comp := toSigned 16 (s.get .TIME_PPS_OUT_COMP halfA)
  let at' := fun t : Nat => ((t * 16 : Nat) + comp) / 16000000000
  if s.isSet .TIME_PPS_OUT_EN halfA ∧ at' before < at' (s.now halfA) then
    (s.modHalf halfA fun y => { y with ppsHigh := true, ppsAt := y.ticks }).emit (.pps true)
  else s

/-- R405: REMAIN in whole ns, rounded toward zero, and ACTIVE. -/
def State.showSlew (s : State) (h : Half) : State :=
  let r := (s.half h).remain
  (s.putS .TIME_REMAIN h (Int.tdiv r (2 ^ 28))).putBool .TIME_ACTIVE h (r != 0)

/-- R48 step 5: half B's time is reconciled: half A posts REJOIN with the offset found and the method; both halves are joined. -/
def State.finishRejoin (s : State) (stepped : Bool) : State :=
  let off := Int.tdiv (s.half halfB).rejoinOffset 16
  let s := s.modHalf halfB fun y => { y with rejoinSlew := false, rejoinStepAt := none, holdover := false }
  let s := ((s.put .BR_STATE halfA 0).put .BR_STATE halfB 0).put .TIME_SYNC halfB 1
  (s.dirty halfA).raise halfA
    { sev := 1, code := 0x0105, scope := 0, id := 0, d0 := ofSigned 32 off, d1 := if stepped then 1 else 0 }

/-- R385: in JOINED half B runs at half A's ADDEND and follows its slew, so that it stays within 1.0 ns between heartbeats (log 229). -/
def State.followA (s : State) : State :=
  let a := s.half halfA
  if s.get .BR_STATE halfB = 0 ∧ a.clock then
    (s.put .TIME_ADDEND halfB a.addend).modHalf halfB fun y =>
      { y with addend := a.addend, follow := slewTerm a.remain (s.get .TIME_RATE halfA) a.addend }
  else s.modHalf halfB fun y => { y with follow := 0 }

/-- R306, R382, R383, R385, R388, R549: 4 ns pass at a half: the always-on clock moves on, and with a clock that runs it is a time tick (log 227). -/
def execTimeTick (h : Half) (s : State) : Host.Outcome State Fault Refusal :=
  let s := s.modHalf h fun y => { y with aon := y.aon + 1 }
  if ¬ (s.half h).clock then done s
  else
    let before := s.now h
    let s := s.modHalf h HalfS.takeWrites
    let s := if h = halfB then s.followA else s
    let slewing := (s.half h).remain ≠ 0
    let rate := s.get .TIME_RATE h
    let s := s.modHalf h fun y => y.tick rate
    let s := if ¬ slewing ∨ (s.half h).remain ≠ 0 then s
      else if (s.half h).rejoinSlew then s.finishRejoin false else s.flag .TIME_SLEW_DONE h
    let s := s.each (List.range 4) fun s k => s.inc .PC_CYC (4 * h.val + k) 3
    done ((if h = halfA then s.ppsOut before else s).showSlew h)

/-! ### Adjustments by the host -/

/-- R384 and R594: why a write to the time base of a half is ignored: half B always, half A in ISLAND. -/
def State.timeBlocked (s : State) (h : Half) : Option Nat :=
  if h = halfB then some 0x53 else if s.get .BR_STATE h = 1 then some 0x03 else none

/-- R383: a new ADDEND, from the next tick. -/
def State.setAddend (s : State) (h : Half) (v : Nat) : State :=
  (s.put .TIME_ADDEND h v).modHalf h fun y => { y with pendAddend := some v }

/-- R383: a slew by a signed number of ns, from the next tick. -/
def State.setSlew (s : State) (h : Half) (ns : Int) : State := s.modHalf h fun y => { y with pendSlew := some ns }

/-- R383: a step that waits for the next tick or the next NS wrap; one that waits already takes the new values. -/
def State.setStep (s : State) (h : Half) (r : StepReq) : State :=
  s.modHalf h fun y => { y with wrapped := false, step := some { r with cmds := ((y.step.map (·.cmds)).getD []) ++ r.cmds } }

/-- R383, R384, R404: a write of TIME_ADDEND. -/
def State.addendWrite (s : State) (h : Half) (v : Nat) : State :=
  match s.timeBlocked h with
  | some r => s.writeIgnored h 0x60004 r
  | none => if Fld.inRange .TIME_ADDEND v then s.setAddend h v else s.writeIgnored h 0x60004 0x01

def execTimeAddendWrite (h : Half) (v : W32) (s : State) : Host.Outcome State Fault Refusal :=
  done (s.hostWrite h fun s => s.addendWrite h v.toNat)

/-- R383, R384, R404: a write of TIME_SLEW. -/
def State.slewWrite (s : State) (h : Half) (v : Nat) : State :=
  match s.timeBlocked h with
  | some r => s.writeIgnored h 0x60008 r
  | none => if (toSigned 32 v).natAbs ≤ 1000000000 then s.setSlew h (toSigned 32 v) else s.writeIgnored h 0x60008 0x01

def execTimeSlewWrite (h : Half) (v : W32) (s : State) : Host.Outcome State Fault Refusal :=
  done (s.hostWrite h fun s => s.slewWrite h v.toNat)

/-- R383, R384, R388, R404: a write of TIME_CTRL. -/
def State.timeCtrlWrite (s : State) (h : Half) (v : Nat) : State :=
  let w := v % 2 ^ 9
  if w < 1 ∨ 500 < w then s.writeIgnored h 0x60000 0x01
  else
    let s := s.writeWord h 0x60000 v
    let s := s.dropPps h
    if !v.testBit 31 then s
    else
      match s.timeBlocked h with
      | some r => s.writeIgnored h 0x60000 r
      | none =>
        s.setStep h ⟨s.get .TIME_SET_SEC_LO h + 2 ^ 32 * s.get .TIME_SET_SEC_HI h, s.get .TIME_SET_NS h, s.isSet .TIME_AT_SECOND h, []⟩

def execTimeStepWrite (h : Half) (v : W32) (s : State) : Host.Outcome State Fault Refusal :=
  done (s.hostWrite h fun s => s.timeCtrlWrite h v.toNat)

/-! ### The step -/

/-- The full time of the half that a 40-bit time W names, the nearest to now (R400). -/
def State.fullTime (s : State) (h : Half) (w : Nat) : Nat := ((s.now h : Int) + dOf w (s.n40 h)).toNat

/-- R34, R38, R401: the scheduled actions that are pending on a half: its own, and those of the other half that span both. -/
def State.pendingOn (s : State) (h : Half) : List Sched :=
  (s.half h).sched ++ (s.half (otherHalf h)).sched.filter fun a => reqSpans a.cmd.req

/-- R405: the counts of pending actions of a half. -/
def State.countPending (s : State) (h : Half) : State :=
  let a := s.pendingOn h
  ((s.put .TIME_PEND_ALL h a.length).put .TIME_PEND_COMMIT h (a.filter fun x => x.cmd.op == .commit).length).put .TIME_PEND_SNAP h
    (a.filter fun x => x.cmd.op == .snapshot).length

/-- R405: the counts of both halves, after a change on one. -/
def State.showPending (s : State) (h : Half) : State := (s.countPending h).countPending (otherHalf h)

/-- R402: what a step to `new` makes of an action whose time is `w`: nothing; it fires at once, late by so many ns; or it is removed, REJECTED. -/
inductive Restep
  | stays
  | late (ns : Nat)
  | gone (r : Res)
  deriving DecidableEq, Repr

def restepOf (c : Cmd) (w new : Nat) : Restep :=
  if new + (2 ^ 39 - 1) < w then .gone (c.notExecuted (.rejected 0x0D))
  else if new ≤ w then .stays
  else if c.req.discard then .gone ({ c with late := new - w }.notExecuted (.rejected 0x0C))
  else .late (new - w)

/-- R402: the pending actions of a half after a step. -/
def State.restep (s : State) (h : Half) : State :=
  let new := s.now h
  let of := fun (a : Sched) => restepOf a.cmd a.w new
  let gone := (s.half h).sched.filterMap fun a => match of a with
    | .gone c => some (a.cmd, c)
    | _ => none
  let kept := (s.half h).sched.filterMap fun a => match of a with
    | .stays => some a
    | .late n => some { a with cmd := { a.cmd with late := n } }
    | .gone _ => none
  let s := s.modHalf h fun y => { y with sched := kept }
  (s.each gone fun s x => s.complete x.1 x.2).showPending h

/-- R36: a scheduled snapshot of which no part has latched. -/
def State.snapOpen (s : State) (x : Snap) : Bool :=
  x.cmd.req.sched && !allHalves.any fun k => (s.half k).snaps.any fun z => z.cmd.order == x.cmd.order && z.latched

/-- R402 and R403: the scheduled snapshots of a half that wait to latch, after a step: one whose T it has passed latches at once. -/
def State.restepSnaps (s : State) (h : Half) : State :=
  let new := s.now h
  s.each ((s.half h).snaps.filter s.snapOpen) fun s x =>
    match x.t with
    | none => s
    | some w => match restepOf x.cmd w new with
      | .stays => s
      | .late n => s.modHalf h fun y =>
          { y with snaps := y.snaps.map fun z => if z.cmd.order = x.cmd.order then { z with t := none, cmd := { z.cmd with late := n } } else z }
      | .gone c =>
        if (s.half h).snaps.any fun z => z.cmd.order == x.cmd.order then
          (s.each allHalves fun s k => s.modHalf k fun y => { y with snaps := y.snaps.filter fun z => z.cmd.order != x.cmd.order }).complete x.cmd c
        else s

/-- R383: SEC and NS take set values, the fraction becomes 0, a slew is cancelled; R544: the instants of subscriptions follow. -/
def State.stepTo (s : State) (h : Half) (sec ns : Nat) : State :=
  let s := s.modHalf h fun y => { y with sec := sec, ns := ns, frac := 0, remain := 0, pendSlew := none, step := none }.planSubs
  ((s.restep h).restepSnaps h).showSlew h

/-- R383: the step takes place: at the next tick, or once NS has wrapped. In JOINED half B, which follows half A within 1 ns
(R385), takes the stepped time. -/
def State.takeStep (s : State) (h : Half) : State :=
  match (s.half h).step with
  | none => s
  | some r =>
    if ¬ (s.half h).clock ∨ (r.atSecond ∧ ¬ (s.half h).wrapped) then s
    else
      let s := s.each r.cmds fun s c => s.finish (some c)
      let s := (s.stepTo h r.sec r.ns).inc .TIME_STEP_CNT h
      let s := s.flag .TIME_STEP_DONE h
      if h = halfA ∧ s.get .BR_STATE halfB = 0 ∧ (s.half halfB).clock then s.stepTo halfB r.sec r.ns else s

def execTimeStepApply (h : Half) (s : State) : Host.Outcome State Fault Refusal := done (s.takeStep h)

/-! ### Half B -/

/-- R385: half B steers toward half A with each heartbeat: `off16` is its offset in 1/16 ns. Beyond 1 µs it takes half A's time,
as after its own restart (R539). -/
def State.servo (s : State) (off16 : Int) : State :=
  let s := s.putS .TIME_B_OFFSET halfB (clampInt (-(2 ^ 31)) (2 ^ 31 - 1) off16)
  let a := s.half halfA
  if 16000 < off16.natAbs then s.modHalf halfB fun y => { y with sec := a.sec, ns := a.ns, frac := a.frac, corr := 0 }.planSubs
  else
    let c := roundUp (-(off16 * 2 ^ 24)) 2500
    s.modHalf halfB fun y => { y with corr := c, corrs := ((y.ticks, c) :: y.corrs).filter fun p => y.ticks < p.1 + 250000000 }

/-- R386: half B goes into holdover: ADDEND plus the mean correction of the last second. -/
def State.holdoverB (s : State) : State :=
  (s.put .TIME_SYNC halfB 2).modHalf halfB fun y =>
    { y with holdover := true, corr := if y.corrs.isEmpty then 0 else roundUp (y.corrs.map (·.2)).sum y.corrs.length }

/-! ### Reads and PPS -/

/-- R405: a read of TIME_FRAC latches NS and SEC. -/
def State.fracRead (s : State) (h : Half) : State :=
  let y := s.half h
  let s := ((s.put .TIME_FRAC h (y.frac / 2 ^ 12)).put .TIME_NS h y.ns).put .TIME_SEC_LO h (y.sec % 2 ^ 32)
  (s.put .TIME_SEC_HI h (y.sec / 2 ^ 32)).emit (.read h 0x60010 (y.frac / 2 ^ 12))

def execTimeFracRead (h : Half) (s : State) : Host.Outcome State Fault Refusal :=
  done (s.hostRead h 0x60010 fun s => s.fracRead h)

/-- R387: an edge of PPS_IN: half A's time is captured. -/
def execPpsInEdge (s : State) : Host.Outcome State Fault Refusal :=
  let y := s.half halfA
  let s := s.modHalf halfA fun x => { x with ppsSec := y.sec, ppsNs := y.ns, ppsFrac := y.frac / 2 ^ 12, ppsSeen := true, ppsEdge := y.ticks }
  let s := (s.flag .TIME_PPS_IN_EDGE halfA).put .TIME_PPS_LOST halfA 0
  done (if s.isSet .TIME_PPS_EVT_EN halfA then s.raise halfA { sev := 0, code := 0x010B, scope := 1, id := 0 } else s)

/-- R387: no edge for 1.1 s after the previous one. -/
def execPpsLost (s : State) : Host.Outcome State Fault Refusal :=
  if (s.half halfA).ppsSeen ∧ (s.half halfA).ppsEdge + msTicks 1100 ≤ s.ticks halfA then
    let s := (s.flag .TIME_PPS_LOST halfA).modHalf halfA fun x => { x with ppsSeen := false }
    done (s.raise halfA { sev := 1, code := 0x010C, scope := 1, id := 0 })
  else done s

/-- R387: a read of PPS_FRAC latches the captured time. -/
def State.ppsRead (s : State) (h : Half) : State :=
  let y := s.half h
  let s := ((s.put .TIME_PPS_FRAC h y.ppsFrac).put .TIME_PPS_NS h y.ppsNs).put .TIME_PPS_SEC_LO h (y.ppsSec % 2 ^ 32)
  (s.put .TIME_PPS_SEC_HI h (y.ppsSec / 2 ^ 32)).emit (.read h 0x60040 y.ppsFrac)

def execPpsFracRead (h : Half) (s : State) : Host.Outcome State Fault Refusal :=
  done (s.hostRead h 0x60040 fun s => s.ppsRead h)

/-- R388: PPS_WIDTH after its rise PPS_OUT falls. -/
def execPpsOutPulseEnd (s : State) : Host.Outcome State Fault Refusal :=
  let y := s.half halfA
  if y.ppsHigh ∧ y.ppsAt + msTicks (s.get .TIME_PPS_WIDTH halfA) ≤ y.ticks then done ((s.modHalf halfA fun y => { y with ppsHigh := false }).emit (.pps false)) else done s

end Sys2Proof.Machine
end

