-- ==== Sys2Proof/Machine/Ptp.lean ====
section
/-! DEFINITION. IEEE 1588 event messages on FEC-SPLIT ports (R389 to R399): detection, the time-stamp, one-step Sync, insertion, and
the records. Times are in 2^-16 ns. -/

namespace Sys2Proof
namespace Machine

/-! ### The frame -/

/-- R389: where the EtherType stands after up to `n` VLAN tags (TPID 0x8100 or 0x88A8) at an offset. -/
def etherTypeAt (f : List (BitVec 8)) : Nat → Nat → Nat
  | 0, i => i
  | n + 1, i => if payloadNum f i 2 = 0x8100 ∨ payloadNum f i 2 = 0x88A8 then etherTypeAt f n (i + 4) else i

end Machine

open Machine

/-- R389: the encapsulation of a PTP message and where its header stands: 0 Ethernet with EtherType 0x88F7, 1 IPv4 with IHL 5 and UDP destination port
319, 2 IPv6 with no extension header and that port. PRESUMED: the layout of the Ethernet, IPv4, IPv6 and UDP headers (log 228). -/
def PtpMsg.encap (m : PtpMsg) : Option (Nat × Nat) :=
  let f := m.octets
  let i := etherTypeAt f 2 12
  match payloadNum f i 2 with
  | 0x88F7 => some (0, i + 2)
  | 0x0800 => if payloadNum f (i + 2) 1 = 0x45 ∧ payloadNum f (i + 11) 1 = 17 ∧ payloadNum f (i + 24) 2 = 319 then some (1, i + 30) else none
  | 0x86DD =>
    if payloadNum f (i + 2) 1 / 16 = 6 ∧ payloadNum f (i + 8) 1 = 17 ∧ payloadNum f (i + 44) 2 = 319 then some (2, i + 50) else none
  | _ => none

/-- Where the PTP header stands. -/
def PtpMsg.header (m : PtpMsg) : Nat := (m.encap.map (·.2)).getD 0
/-- The message is carried over IPv4 (1) or IPv6 (2). -/
def PtpMsg.over (m : PtpMsg) (e : Nat) : Bool := m.encap.any fun x => x.1 == e
/-- A number of `n` octets at an offset of the PTP header. PRESUMED: the layout of that header (log 228). -/
def PtpMsg.num (m : PtpMsg) (i n : Nat) : Nat := payloadNum m.octets (m.header + i) n

/-- R389: versionPTP and messageType. R394: twoStepFlag, originTimestamp, correctionField. -/
def PtpMsg.version (m : PtpMsg) : Nat := m.num 1 1 % 16
def PtpMsg.msgType (m : PtpMsg) : Nat := m.num 0 1 % 16
def PtpMsg.twoStep (m : PtpMsg) : Bool := (m.num 6 1).testBit 1
def PtpMsg.seqId (m : PtpMsg) : Nat := m.num 30 2
def PtpMsg.originSec (m : PtpMsg) : Nat := m.num 34 6
def PtpMsg.originNs (m : PtpMsg) : Nat := m.num 40 4
def PtpMsg.correction (m : PtpMsg) : Nat := m.num 8 8

/-- R395: the FCS of a frame's other octets. PRESUMED: the FCS of IEEE 802.3 (log 228). -/
def fcsOf (f : List (BitVec 8)) : List (BitVec 8) :=
  let c := crc32 (f.flatMap fun b => (List.range 8).map b.getLsbD)
  (List.range 4).map fun k => BitVec.ofNat 8 ((List.range 8).map fun i => if c.testBit (31 - 8 * k - i) then 2 ^ i else 0).sum

/-- The octets before the FCS, and the FCS. -/
def PtpMsg.body (m : PtpMsg) : List (BitVec 8) := m.octets.take (m.octets.length - 4)
def PtpMsg.fcs (m : PtpMsg) : List (BitVec 8) := m.octets.drop (m.octets.length - 4)
/-- R395: the frame arrived with a bad FCS. -/
def PtpMsg.fcsBad (m : PtpMsg) : Bool := m.fcs != fcsOf m.body

/-- Octets written over a list from an offset. -/
def writeOctets (f : List (BitVec 8)) (i : Nat) (xs : List (BitVec 8)) : List (BitVec 8) := f.take i ++ xs ++ f.drop (i + xs.length)

/-- The sum of the 16-bit words that octets form, as the UDP checksum takes it. -/
def wordSum : List (BitVec 8) → Nat
  | a :: b :: t => a.toNat * 256 + b.toNat + wordSum t
  | [a] => a.toNat * 256
  | [] => 0

/-- R395: the two octets after a PTP message that has changed from `old` to `new`, so that the words' sum modulo 2^16 - 1 stays: where the message has
an odd number of octets they stand across two words. -/
def trailerFix (old new : List (BitVec 8)) (t : Nat) : Nat :=
  let d := (wordSum old + 65535 * (wordSum new + 1) - wordSum new) % 65535
  (t + if old.length % 2 = 0 then d else d % 256 * 256 + d / 256) % 65535

/-- R395: the frame after a modification of its PTP message: the UDP checksum 0 over IPv4, the two octets after the message over IPv6, and the FCS of
what results, inverted where it arrived bad. -/
def PtpMsg.modified (m : PtpMsg) (writes : List (Nat × List (BitVec 8))) : List (BitVec 8) :=
  let f := writes.foldl (fun f w => writeOctets f (m.header + w.1) w.2) m.body
  let n := m.num 2 2
  let e := m.header + n
  let part := fun (x : List (BitVec 8)) => (x.drop m.header).take n
  let f := if m.over 1 then writeOctets f (m.header - 2) [0, 0]
    else if m.over 2 ∧ e + 2 ≤ f.length then writeOctets f e (bytesOf 2 (trailerFix (part m.body) (part f) (payloadNum f e 2)))
    else f
  f ++ (if m.fcsBad then (fcsOf f).map (~~~ ·) else fcsOf f)

namespace Machine

/-! ### Detection and the stamp -/

/-- R389: the frame is an event message that ENCAP enables. DESIGN CHOICE: one too short for a PTP header and a time-stamp is none (log 228). -/
def State.isEvent (s : State) (p : Lane) (m : PtpMsg) : Bool :=
  m.encap.any fun e => (s.app .TSP_ENCAP p).testBit e.1 && e.2 + 48 ≤ m.octets.length && m.version == 2 && m.msgType ≤ 3

/-- R389, R390, R403: the message is stamped: on a lane in DATA of a port in FEC-SPLIT with TS_EN = 1 that is not fenced, and not in
an uncorrectable codeword. -/
def State.stamps (s : State) (l : Lane) (m : PtpMsg) : Option Lane :=
  match s.portOf l with
  | none => none
  | some p =>
    if s.inData l && !s.laneFenced l && s.appSet .FEC_FEC_MODE l && s.appSet .TSP_TS_EN p && s.isEvent p m && !m.uncorrectable then some p
    else none

/-- R391 and R392: the latency of a direction in 2^-16 ns, or the centre of its range. -/
def State.stampLatency (s : State) (p l : Lane) (rx : Bool) : Nat :=
  if s.accurate p then s.get (if rx then .FEC_RX_LAT else .FEC_TX_LAT) l * 4096
  else
    let r := latencyRange (s.lmode l) (s.app .FEC_FEC_MODE l) (s.app .PORT_HMODE p) rx
    (r.1 + r.2) * 32768

/-- R391: TS in 2^-16 ns: the time base at the codeword boundary, the lane's latency, the bit's offset and the port's correction. -/
def State.stamp (s : State) (p l : Lane) (m : PtpMsg) (rx : Bool) : Int :=
  let y := s.half l.half
  let base : Int := (y.sec * 1000000000 + y.ns) * 65536 + y.frac / 4096
  let corr := s.appS (if rx then .TSP_RX_CORR else .TSP_TX_CORR) p * 4096
  base + s.stampLatency p l rx + m.offset + (if rx then -corr else corr)

/-- SEC, NS and FRAC of a time in 2^-16 ns. -/
def splitTime (t : Int) : Nat × Nat × Nat :=
  let n := t.toNat
  (n / 65536 / 1000000000 % 2 ^ 48, n / 65536 % 1000000000, n % 65536)

/-- R397: a record; its phase bit is set when it is written to the ring. -/
def tsRecord (rx : Bool) (p : Lane) (m : PtpMsg) (t : Nat × Nat × Nat) (holdover reduced oneStep : Bool) : List W32 :=
  let b := fun (x : Bool) (k : Nat) => if x then 2 ^ k else 0
  [BitVec.ofNat 32 (b rx 30 + t.2.1), BitVec.ofNat 32 t.1, BitVec.ofNat 32 (t.1 / 2 ^ 32 * 65536 + t.2.2),
    BitVec.ofNat 32 (m.seqId * 65536 + m.msgType * 4096 + p.val * 64 + b holdover 5 + b reduced 4 + b oneStep 3)]

/-- R398 and R399: a record enters the staging queue, or is dropped. -/
def State.pushRecord (s : State) (h : Half) (r : List W32) : State :=
  let q := (s.half h).tsq
  if q.length < 64 then
    (s.modHalf h fun y => { y with tsq := y.tsq ++ [r], tsqDropping := false }).put .TIME_TSQ_FILL h (q.length + 1)
  else
    let first := !(s.half h).tsqDropping
    let s := ((s.incSat .TIME_DROP_CNT h).flag .TIME_TSQ_OVF h).modHalf h fun y => { y with tsqDropping := true }
    if first then s.raise h { sev := 2, code := 0x010E, scope := 1, id := h, d0 := s.get .TIME_DROP_CNT h } else s

/-- What R394 makes of a transmitted Sync: unchanged, refused for a difference of 1 s or more, or with a new origin and correction. -/
inductive OneStep
  | same
  | error
  | change (sec ns : Nat) (corr : Int)
  deriving DecidableEq, Repr

/-- R394: ONE_STEP on a Sync with twoStepFlag 0. -/
def State.oneStep (s : State) (p : Lane) (m : PtpMsg) (ts : Int) : OneStep :=
  if m.msgType ≠ 0 ∨ m.twoStep then .same
  else
    match s.app .TSP_ONE_STEP p with
    | 1 => let t := splitTime ts; .change t.1 t.2.1 (m.correction + t.2.2)
    | 2 =>
      let d := ts - (m.originSec * 1000000000 + m.originNs : Nat) * 65536
      if 1000000000 * 65536 ≤ d.natAbs then .error else .change m.originSec m.originNs (m.correction + d)
    | _ => .same

/-- R394: the frame with its originTimestamp and its correctionField changed. -/
def synced (m : PtpMsg) (sec ns : Nat) (corr : Int) : List (BitVec 8) :=
  m.modified [(34, bytesOf 6 sec ++ bytesOf 4 ns), (8, bytesOf 8 (corr % 2 ^ 64).toNat)]

/-- R396: the frame with its receive time-stamp in messageTypeSpecific. -/
def inserted (m : PtpMsg) (sec ns : Nat) : List (BitVec 8) := m.modified [(16, bytesOf 4 (sec % 4 * 2 ^ 30 + ns))]

/-- R395: a modified frame that came with a bad FCS is counted. -/
def State.countBadFcs (s : State) (p : Lane) (m : PtpMsg) : State := if m.fcsBad then s.incSat .TSP_FCS_BAD p else s

/-- R389, R394 to R396: the frame as it leaves. A fenced lane sends none: Local Fault stands in its place (R403). -/
def State.emitPtp (s : State) (l : Lane) (f : List (BitVec 8)) : State := if s.laneFenced l then s else s.emit (.ptp l f)


def execPtpTransmitMessage (l : Lane) (m : PtpMsg) (s : State) : Host.Outcome State Fault Refusal :=
  match s.stamps l m with
  | none => done (s.emitPtp l m.octets)
  | some p =>
    let ts := s.stamp p l m false
    let s := s.inc .TSP_TX_CNT p
    let o := s.oneStep p m ts
    let s := match o with
      | .same => s.emitPtp l m.octets
      | .change sec ns c => (s.countBadFcs p m).emitPtp l (synced m sec ns c)
      | .error =>
        let s := ((s.incSat .TSP_ONE_STEP_ERR p).flag .TIME_ONE_STEP_ERR l.half).raise l.half
          { sev := 1, code := 0x010D, scope := 3, id := p, d0 := m.seqId }
        s.emitPtp l m.octets
    let modified := match o with
      | .change _ _ _ => true
      | _ => false
    if (s.app .TSP_TX_REC p).testBit m.msgType then
      done (s.pushRecord l.half (tsRecord false p m (splitTime ts) (s.half l.half).holdover (!s.accurate p) modified))
    else done s

/-- R396 and R397: a message on the receive side. -/
def execPtpReceiveMessage (l : Lane) (m : PtpMsg) (s : State) : Host.Outcome State Fault Refusal :=
  match s.stamps l m with
  | none => done (s.emitPtp l m.octets)
  | some p =>
    let ts := s.stamp p l m true
    let t := splitTime ts
    let s := s.inc .TSP_RX_CNT p
    let s := if s.appSet .TSP_RX_INSERT p && !m.over 2 then (s.countBadFcs p m).emitPtp l (inserted m t.1 t.2.1) else s.emitPtp l m.octets
    if s.appSet .TSP_RX_REC p then
      done (s.pushRecord l.half (tsRecord true p m t (s.half l.half).holdover (!s.accurate p) false))
    else done s

end Machine
end Sys2Proof
end

