-- ==== Sys2Proof/Machine/Rings.lean ====
section
/-! DEFINITION. The Laong rings of a half (R443 to R473): doorbells, fetch, entries written to the host, moderation, the status block,
halts and resets. -/

namespace Sys2Proof.Machine

/-! ### A ring -/

/-- The index of ring `q` of a half in its register blocks. -/
def ringIdx (h : Half) (q : Fin 8) : Nat := 8 * h.val + q.val
/-- A command ring as a ring. -/
def cmdRing (q : Fin 4) : Fin 8 := ⟨q.val, by omega⟩
def State.ring (s : State) (h : Half) (q : Fin 8) : RingS := (s.half h).rings.get q
def State.modRing (s : State) (h : Half) (q : Fin 8) (u : RingS → RingS) : State :=
  s.modHalf h fun y => { y with rings := y.rings.set q (u (y.rings.get q)) }

def State.depth (s : State) (h : Half) (q : Fin 8) : Nat := 2 ^ s.get .RING_SIZE_LOG2 (ringIdx h q)
/-- The device index: head of a command ring, tail of the others (R473). -/
def State.devIndex (s : State) (h : Half) (q : Fin 8) : Nat := s.get .RING_INDEX (ringIdx h q)

/-- R473 and R451: ACTIVE: enabled, the ring engine of the half runs, not halted. -/
def State.ringOn (s : State) (h : Half) (q : Fin 8) : Bool :=
  let i := ringIdx h q
  s.isSet .RING_EN i && s.isSet .HIF_RUN h && !s.isSet .RING_HALTED i

/-- R473: ACTIVE of every ring of a half follows EN, RUN and HALTED. -/
def State.settleRings (s : State) (h : Half) : State :=
  s.each (List.finRange 8) fun s q => s.putBool .RING_ACTIVE (ringIdx h q) (s.ringOn h q)

/-- R443: the ring moves entries: it runs, the half is in service and masters the bus. DESIGN CHOICE: after a fatal error (R520) only the event
ring, which brings FW_FATAL, goes on (log 235). -/
def State.ringMoves (s : State) (h : Half) (q : Fin 8) : Bool :=
  s.ringOn h q && s.running h && s.masters h && (q == 5 || s.managing h)

/-- R448: entries that a device-to-host ring can still take. -/
def State.ringSpace (s : State) (h : Half) (q : Fin 8) : Nat :=
  let d := s.depth h q
  d - 1 - (s.devIndex h q + d - (s.ring h q).host % d) % d

/-! ### Halts and resets -/

/-- R464: a ring halts. -/
def State.haltRing (s : State) (h : Half) (q : Fin 8) (err : Nat) : State :=
  let i := ringIdx h q
  if s.isSet .RING_HALTED i then s
  else
    let s := (((s.put .RING_HALTED i 1).put .RING_ERR i err).settleRings h).hifFlag h .HIF_RING_HALT
    (s.dirty h).raise h { sev := 2, code := 0x0108, scope := 1, id := h, d0 := q, d1 := err }

/-- R465: a ring is reset; it stays stopped until EN is written 1. -/
def State.resetRing (s : State) (h : Half) (q : Fin 8) : State :=
  let i := ringIdx h q
  let r := s.ring h q
  let n := r.staged.length + r.reads.length
  let s := (s.modRing h q fun r => { r with host := 0, phase := true, staged := [], reads := [], unsig := 0 }).modHalf h fun y =>
    { y with reserved := y.reserved - n }
  let s := (((s.put .RING_INDEX i 0).put .RING_HALTED i 0).put .RING_ERR i 0).put .RING_EN i 0
  (s.settleRings h).dirty h

/-- R449 and R473: a ring is enabled: PHASE is 1 on its first pass, from the index it holds. -/
def State.enableRing (s : State) (h : Half) (q : Fin 8) : State :=
  let i := ringIdx h q
  if s.isSet .RING_EN i then s else (s.put .RING_EN i 1).modRing h q fun r => { r with phase := true }

/-- The BAR0 offset of a word of a ring's block (R473). -/
def ringOff (q : Fin 8) (o : Nat) : Nat := 0x40100 + 0x20 * q.val + o

/-- R465 and R473: SIZE_LOG2 is written: ignored while EN = 1 when it differs, and outside its range. -/
def State.sizeWrite (s : State) (h : Half) (q : Fin 8) (v : Nat) : State :=
  let i := ringIdx h q
  if v = s.get .RING_SIZE_LOG2 i then s
  else if s.isSet .RING_EN i then s.writeIgnored h (ringOff q 8) 0x54
  else s.put .RING_SIZE_LOG2 i v

/-- R467 and R47: RUN and EN of half B are written only by promotion and demotion. -/
def State.mayRunRings (s : State) (h : Half) : Bool := s.manages h

/-- R465, R464, R467, R473: a write of a ring's control word. An enable with SIZE_LOG2 outside 4 to 12 halts the ring (SETUP); any
other write of such a value is ignored. -/
def State.ringCtrlWrite (s : State) (h : Half) (q : Fin 8) (v : Nat) : State :=
  let i := ringIdx h q
  let size := v % 16
  let ok := Fld.inRange .RING_SIZE_LOG2 size
  let s := s.modHalf h fun y => { y with setup := (ringOff q 8) :: y.setup.filter (· != ringOff q 8) }
  if v.testBit 30 then
    let s := if ok then s.sizeWrite h q size else s.writeIgnored h (ringOff q 8) 0x01
    let s := if v.testBit 31 ∧ !s.mayRunRings h then s.writeIgnored h (ringOff q 8) 0x53 else s
    (s.put .RING_VEC i (v / 2 ^ 16 % 32)).resetRing h q
  else if !v.testBit 31 ∨ !s.mayRunRings h then
    if !ok then s.writeIgnored h (ringOff q 8) 0x01
    else
      let s := (s.sizeWrite h q size).put .RING_VEC i (v / 2 ^ 16 % 32)
      if v.testBit 31 then s.writeIgnored h (ringOff q 8) 0x53
      else if s.mayRunRings h then ((s.put .RING_EN i 0).settleRings h).dirty h
      else s
  else
    let s := (if ok then s.sizeWrite h q size else s).put .RING_VEC i (v / 2 ^ 16 % 32)
    let s := ((s.enableRing h q).settleRings h).dirty h
    if ok then s else s.haltRing h q 4

def execRingReset (h : Half) (q : Fin 8) (v : W32) (s : State) : Host.Outcome State Fault Refusal :=
  done (s.hostWrite h fun s => s.ringCtrlWrite h q v.toNat)

def execRingEnable (h : Half) (q : Fin 8) (v : W32) (s : State) : Host.Outcome State Fault Refusal :=
  done (s.hostWrite h fun s => s.ringCtrlWrite h q v.toNat)

/-! ### Bus mastering -/

/-- R443: Bus Master Enable is cleared. -/
def execBusMasterDisable (h : Half) (s : State) : Host.Outcome State Fault Refusal :=
  done (s.modHalf h fun y => { y with bme := false })

/-- R443: Bus Master Enable is set. -/
def execBusMasterEnable (h : Half) (s : State) : Host.Outcome State Fault Refusal :=
  done ((s.modHalf h fun y => { y with bme := true }).sendPending h)

/-! ### Doorbells -/

/-- R450: a doorbell of a ring: the host's index; at or above the depth it halts the ring; a repeated value has no effect. -/
def State.doorbell (s : State) (h : Half) (q : Fin 8) (v : Nat) : State :=
  let x := v % 65536
  if s.depth h q ≤ x then s.haltRing h q 1
  else
    let s := s.perfHalf h 0x09
    if (s.ring h q).host = x then s else s.modRing h q fun r => { r with host := x }

/-- R450 and R467: a command doorbell; on half B while not promoted it is ignored. -/
def State.commandDoorbell (s : State) (h : Half) (q : Fin 4) (v : Nat) : State :=
  if s.manages h then s.doorbell h (cmdRing q) v else s.writeIgnored h q 0x53

def execCommandDoorbell (h : Half) (q : Fin 4) (v : W32) (s : State) : Host.Outcome State Fault Refusal :=
  done (if s.answers h then s.commandDoorbell h q v.toNat else s)

def execCompletionDoorbell (h : Half) (v : W32) (s : State) : Host.Outcome State Fault Refusal :=
  done (if s.answers h then s.doorbell h 4 v.toNat else s)

/-- R461: when space appears, one NOTICE event with the number dropped since the previous one goes in front. -/
def State.noteLost (s : State) (h : Half) : State :=
  let n := (s.half h).evtDrop
  if n = 0 ∨ s.ringSpace h 5 = 0 then s
  else
    let old := (s.half h).evts
    let s := (s.modHalf h fun y => { y with evts := [], evtDrop := 0 }).raise h { sev := 1, code := 0x0107, scope := 1, id := h, d0 := n }
    s.modHalf h fun y => { y with evts := y.evts ++ old }

def execEventDoorbell (h : Half) (v : W32) (s : State) : Host.Outcome State Fault Refusal :=
  done (if s.answers h then (s.doorbell h 5 v.toNat).noteLost h else s)

def execTelemetryDoorbell (h : Half) (v : W32) (s : State) : Host.Outcome State Fault Refusal :=
  done (if s.answers h then s.doorbell h 6 v.toNat else s)

def execTimestampDoorbell (h : Half) (v : W32) (s : State) : Host.Outcome State Fault Refusal :=
  done (if s.answers h then s.doorbell h 7 v.toNat else s)

/-! ### Fetch -/

/-- R408 and R413: the Kneaders through which commands of a half run serve: ring management, and in each group those of command execution and the
supervisor. -/
def State.commandsServed (s : State) (h : Half) : Bool :=
  !s.kndOut (sysKnd h 0) && h.groups.all fun g => [16, 17, 18, 19].all fun (j : Fin 20) => !s.kndOut (grpKnd g j)

/-- R454: what the fetch of a descriptor needs: a running ring, a completion ring that runs with a free entry to reserve, room in
staging, a descriptor posted, the Kneaders of R413. -/
def State.fetchReady (s : State) (h : Half) (q : Fin 8) : Bool :=
  let r := s.ring h q
  s.ringMoves h q && s.ringOn h 4 && s.manages h && s.commandsServed h && r.staged.length + r.reads.length < 8
    && (s.devIndex h q + r.reads.length) % s.depth h q != r.host && (s.half h).reserved < s.ringSpace h 4

/-- R454: a descriptor read is issued, with one completion entry reserved. -/
def execDescriptorFetch (h : Half) (q : Fin 4) (s : State) : Host.Outcome State Fault Refusal :=
  let c := q
  let q := cmdRing q
  if !s.fetchReady h q then done s
  else
    let idx := (s.devIndex h q + (s.ring h q).reads.length) % s.depth h q
    let t := s.ticks h
    let s := (s.modRing h q fun r => { r with reads := r.reads ++ [(idx, t)] }).modHalf h fun y => { y with reserved := y.reserved + 1 }
    done ((s.emit (.descRead h c idx)).perfHalf h 0x07)

/-- R454 and R464: the data of the oldest read: into staging, or the ring halts with FETCH. -/
def execDescriptorDataReceive (h : Half) (q : Fin 4) (data : DescData) (s : State) : Host.Outcome State Fault Refusal :=
  let q := cmdRing q
  match (s.ring h q).reads with
  | [] => done s
  | (idx, t) :: rest =>
    let s := (s.modRing h q fun r => { r with reads := rest }).hist (Half.perfBlk h) true (s.ticks h - t)
    match data with
    | .failed => done ((s.modHalf h fun y => { y with reserved := y.reserved - 1 }).haltRing h q 2)
    | .ok words =>
      let s := s.modRing h q fun r => { r with staged := r.staged ++ [(idx, s.ticks h, words)] }
      done ((((s.put .RING_INDEX (ringIdx h q) ((idx + 1) % s.depth h q)).dirty h).perfHalf h 0x08))

/-! ### Entries to the host -/

/-- The word with bit 31 as the ring's phase asks (R449). -/
def withPhase (b : Bool) (w : W32) : W32 := (w &&& 0x7FFFFFFF#32) ||| (if b then 0x80000000#32 else 0#32)

/-- R451: the sixteen words of the status block. -/
def State.statusBlock (s : State) (h : Half) : List W32 :=
  let n := BitVec.ofNat 32
  let x := fun q : Fin 8 => s.devIndex h q
  let bits := fun (f : Fld) => ((List.finRange 8).map fun q : Fin 8 => if s.isSet f (ringIdx h q) then 2 ^ q.val else 0).sum
  [n (x 1 * 65536 + x 0), n (x 3 * 65536 + x 2), n (x 5 * 65536 + x 4), n (x 7 * 65536 + x 6),
    n (bits .RING_HALTED * 2 ^ 24 + bits .RING_ACTIVE * 2 ^ 16 + s.get .BR_STATE h), n (s.half h).sbSeq, n (s.get .HIF_EVT_LOST h),
    n (s.get .HIF_TLM_LOST h)] ++ List.replicate 8 0#32

/-- R451: the status block is written when words 0 to 4 have changed. -/
def State.writeStatus (s : State) (h : Half) : State :=
  if !(s.half h).sbDirty || !s.masters h || !s.isSet .HIF_RUN h || !s.running h then s
  else
    let s := s.modHalf h fun y => { y with sbDirty := false, sbSeq := (y.sbSeq + 1) % 2 ^ 32 }
    s.emit (.status h (s.statusBlock h))

/-- R444: a ring signals its vector, after the status block that reports its entries. -/
def State.signalRing (s : State) (h : Half) (q : Fin 8) : State :=
  ((s.modRing h q fun r => { r with unsig := 0 }).writeStatus h).signal h (s.get .RING_VEC (ringIdx h q))

/-- R444: an entry is written: the ring signals when COUNT entries have accumulated, or at once. -/
def State.moderate (s : State) (h : Half) (q : Fin 8) (atOnce : Bool) : State :=
  let n := (s.ring h q).unsig + 1
  if atOnce ∨ s.get .RING_COUNT (ringIdx h q) ≤ n then s.signalRing h q
  else
    let t := s.ticks h
    s.modRing h q fun r => { r with unsig := n, unsigAt := if r.unsig = 0 then t else r.unsigAt }

/-- R449: one entry is written at the tail; PHASE inverts at each wrap. `phaseWord` is the word that carries PHASE. -/
def State.writeEntry (s : State) (h : Half) (q : Fin 8) (phaseWord : Nat) (words : List W32) : State :=
  let i := s.devIndex h q
  let p := (s.ring h q).phase
  let next := (i + 1) % s.depth h q
  let s := s.emit (.entry h q i (words.set phaseWord (withPhase p (words.getD phaseWord 0))))
  let s := (s.put .RING_INDEX (ringIdx h q) next).dirty h
  if next = 0 then s.modRing h q fun r => { r with phase := !r.phase } else s

/-- R444: TIME has passed since the first unsignalled entry. -/
def execMsixModerationTimer (h : Half) (q : Fin 8) (s : State) : Host.Outcome State Fault Refusal :=
  let time := s.get .RING_TIME (ringIdx h q)
  if q.val < 4 ∨ (s.ring h q).unsig = 0 ∨ time = 0 ∨ s.ticks h < (s.ring h q).unsigAt + 250 * time then done s
  else done (s.signalRing h q)

/-- R458: a completion as words. -/
def Cpl.words (c : Cpl) : List W32 :=
  [c.tag, BitVec.ofNat 32 (c.ring.val * 2 ^ 29 + c.index.toNat * 2 ^ 16 + c.status * 2 ^ 8 + c.reason), BitVec.ofNat 32 c.lo,
    BitVec.ofNat 32 c.hi]

/-- R552: the latency of an immediate command on a selected ring. -/
def State.countLatency (s : State) (h : Half) (c : Cpl) : State :=
  let sel := s.get .PERF_H0_SEL (Half.perfBlk h)
  match c.taken with
  | some t => if sel = c.ring.val ∨ sel = 4 then s.hist (Half.perfBlk h) false (s.ticks h - t) else s
  | none => s

/-- R516, R535 and R538: what a completion that has been written lets act: a reset, or D-OFF (15). -/
def State.actReset (s : State) (r : W32 × Nat × Nat) : State :=
  let k := r.2.2
  match r.2.1 with
  | 1 => s.softReset ⟨k % 2, by omega⟩
  | 2 => s.groupReset ⟨k % 6, by omega⟩
  | 15 => s.modHalf ⟨k % 2, by omega⟩ fun y => { y with off := true, live := false }
  | _ => s.modLane ⟨k % 48, by omega⟩ fun x => { x with resetDue := true }

/-- The resets that wait for a completion of this tag. -/
def State.actResets (s : State) (h : Half) (tag : W32) : State :=
  let act := (s.half h).resets.filter fun r => r.1 == tag
  let s := s.modHalf h fun y => { y with resets := y.resets.filter fun r => r.1 != tag }
  s.each act State.actReset

/-- R468: a demoted half B whose rings have nothing left to write clears RUN and every EN. -/
def State.endDrain (s : State) (h : Half) : State :=
  let y := s.half h
  if h = halfA ∨ y.promoted ∨ ¬ s.isSet .HIF_RUN h ∨ !y.evts.isEmpty ∨ !y.cpls.isEmpty ∨ !y.tlms.isEmpty
    ∨ (List.finRange 4).any (fun q => !(s.ring h (cmdRing q)).staged.isEmpty || (s.ring h (cmdRing q)).busy) then s
  else ((s.put .HIF_RUN h 0).each (List.finRange 8) fun s q => s.put .RING_EN (ringIdx h q) 0).settleRings h

/-- R458: a completion that is due is written, and with it what waits for it. -/
def execCompletionWrite (h : Half) (s : State) : Host.Outcome State Fault Refusal :=
  match (s.half h).cpls with
  | [] => done s
  | c :: rest =>
    if !s.ringMoves h 4 || s.ringSpace h 4 == 0 then done s
    else
      let s := s.modHalf h fun y => { y with cpls := rest, reserved := y.reserved - 1 }
      let s := ((s.writeEntry h 4 1 c.words).moderate h 4 c.irqNow).perfHalf h 0x02
      done (((s.countLatency h c).endDrain h).actResets h c.tag)

/-- R409 and R413: the Kneader of the event and telemetry rings serves. -/
def State.recordsServed (s : State) (h : Half) : Bool := !s.kndOut (sysKnd h 1)

/-- R461 and R522: an event finds the ring full; only a FATAL one stays among the records of a dump. -/
def State.dropEvent (s : State) (h : Half) (e : Evt) (rest : List Evt) : State :=
  let s := if e.sev = 4 then s else s.modHalf e.half fun y => { y with evtLog := y.evtLog.filter fun x => x != e }
  ((s.modHalf h fun y => { y with evts := rest, evtDrop := y.evtDrop + 1 }).inc .HIF_EVT_LOST h).perfHalf h 0x04

/-- R460 and R461: a raised event is written, or dropped when the ring is full. -/
def execEventRecordWrite (h : Half) (s : State) : Host.Outcome State Fault Refusal :=
  if !s.ringMoves h 5 || !s.recordsServed h then done s
  else
    let s := s.noteLost h
    match (s.half h).evts with
    | [] => done s
    | e :: rest =>
      if s.ringSpace h 5 = 0 then done (s.dropEvent h e rest)
      else
        let s := s.modHalf h fun y => { y with evts := rest }
        done (((s.writeEntry h 5 0 e.words).moderate h 5 false).endDrain h)

/-! ### Telemetry and time stamps -/

def Tlm.units (t : Tlm) : List (List W32) :=
  if 16 < t.words.length then [t.words.take 16, t.words.drop 16] else [t.words]

/-- R449: a record of two units goes into two entries, the last unit first. -/
def State.writeUnits (s : State) (h : Half) (us : List (List W32)) : State :=
  match us with
  | [a, b] =>
    let i := s.devIndex h 6
    let d := s.depth h 6
    let p := (s.ring h 6).phase
    let p2 := if i + 1 = d then !p else p
    let s := s.emit (.entry h 6 ((i + 1) % d) (b.set 0 (withPhase p2 (b.getD 0 0))))
    let s := s.emit (.entry h 6 i (a.set 0 (withPhase p (a.getD 0 0))))
    let s := (s.put .RING_INDEX (ringIdx h 6) ((i + 2) % d)).dirty h
    let s := s.modRing h 6 fun r => { r with phase := if d ≤ i + 2 then !r.phase else r.phase }
    ((s.moderate h 6 false).moderate h 6 false).perfHalf h 0x05 2
  | _ => ((s.writeEntry h 6 0 (us.headD [])).moderate h 6 false).perfHalf h 0x05

/-- R462: the LOST record, with the time of posting. -/
def State.lostRecord (s : State) (h : Half) : List W32 :=
  let y := s.half h
  let n := BitVec.ofNat 32
  [n (2 * 2 ^ 28 + 2 ^ 24), n y.tlmDrop, n y.ns, n y.sec, n (y.sec / 2 ^ 32)] ++ List.replicate 11 0#32

/-- The number by which the parts of a snapshot and its records know each other. -/
def Snap.key (x : Snap) : Nat := x.cmd.order

/-- R463: SNAP_END is written: the snapshot command completes, with DELAY to T. -/
def State.endSnapshot (s : State) (key : Nat) : State :=
  let all := (s.half halfA).snaps ++ (s.half halfB).snaps
  let s := s.each allHalves fun s h => s.modHalf h fun y => { y with snaps := y.snaps.filter fun x => x.key != key }
  let s := s.each allHalves State.showPending
  match all.find? fun x => x.key == key with
  | some x => s.complete x.cmd (x.cmd.timed (x.t.getD 0))
  | none => s

/-- R413 and R547: the Kneaders that serve telemetry of a record's group. -/
def State.recordServed (s : State) (h : Half) (t : Tlm) : Bool :=
  let g : Group := ⟨t.lane / 8 % 6, by omega⟩
  s.recordsServed h && (t.words.length != 32 || (!s.kndOut (grpKnd g 12) && !s.kndOut (grpKnd g 13)))

/-- R462 and R463: a telemetry record is written; without space a subscription record is dropped and a snapshot record waits. -/
def execTelemetryRecordWrite (h : Half) (s : State) : Host.Outcome State Fault Refusal :=
  match (s.half h).tlms with
  | [] =>
    if (s.half h).tlmDrop = 0 || !s.ringMoves h 6 || s.ringSpace h 6 == 0 then done s
    else done ((s.writeUnits h [s.lostRecord h]).modHalf h fun y => { y with tlmDrop := 0 })
  | t :: rest =>
    if !s.ringMoves h 6 || !s.recordServed h t then done s
    else if (s.half h).tlmDrop ≠ 0 ∧ 1 ≤ s.ringSpace h 6 then
      done ((s.writeUnits h [s.lostRecord h]).modHalf h fun y => { y with tlmDrop := 0 })
    else if t.units.length ≤ s.ringSpace h 6 then
      let s := (s.modHalf h fun y => { y with tlms := rest }).writeUnits h t.units
      let s := match t.snap with
        | some k => if t.last then s.endSnapshot k else s
        | none => s
      done (s.endDrain h)
    else if t.snap.isSome then done s
    else done ((s.modHalf h fun y => { y with tlms := rest, tlmDrop := y.tlmDrop + 1 }).inc .HIF_TLM_LOST h)

/-- R398: the oldest time-stamp record goes to the ring; half B's, while half B is not promoted, over the bridge. -/
def execTimestampRecordWrite (h : Half) (s : State) : Host.Outcome State Fault Refusal :=
  match (s.half h).tsq with
  | [] => done s
  | r :: rest =>
    let take := fun (s : State) => (s.modHalf h fun y => { y with tsq := rest }).put .TIME_TSQ_FILL h rest.length
    if !s.manages h then
      if s.get .BR_STATE halfA = 1 then done s
      else done (((take s).perfHalf h 0x0B).modBridge fun b => { b with recs := b.recs ++ [.ts r] })
    else if !s.ringMoves h 7 || s.ringSpace h 7 == 0 then done s
    else done (((((take s).writeEntry h 7 0 r).moderate h 7 false).inc .TIME_REC_CNT h).perfHalf h 0x06)

/-! ### The status block -/

/-- R451: the status block is written when words 0 to 4 have changed. -/
def execStatusBlockWrite (h : Half) (s : State) : Host.Outcome State Fault Refusal := done (s.writeStatus h)

end Sys2Proof.Machine
end

