-- ==== Sys2Proof/Machine/Thermal.lean ====
section
/-! DEFINITION. Temperature, throttling, the thermal trip and calibration (R354 to R373). Temperatures are in 1/64 °C. -/

namespace Sys2Proof.Machine

/-! ### On-die sensors -/

/-- R356: the peers of a sensor that are not faulted and have been read. -/
def State.peers (s : State) (d : DieSensor) : List Int :=
  let k := d.val % 16
  let base := 16 * d.half.val
  let ids := if k = 15 then List.range 15 else (List.range 5).map fun j => 5 * (k / 5) + j
  (ids.filter fun j => j != k && s.isSet .DS_VALID (base + j)).map fun j => s.getS .DS_TEMP (base + j)

def insertInt (x : Int) : List Int → List Int
  | [] => [x]
  | y :: ys => if x ≤ y then x :: y :: ys else y :: insertInt x ys

/-- R356: twice the median. -/
def median2 (xs : List Int) : Option Int :=
  let ys := xs.foldr insertInt []
  let n := ys.length
  if n = 0 then none else some (ys.getD ((n - 1) / 2) 0 + ys.getD (n / 2) 0)

/-- R356: a reading more than 6 °C from the median of its peers. -/
def State.farFromPeers (s : State) (d : DieSensor) (t : Int) : Bool :=
  match median2 (s.peers d) with
  | some m => 2 * 6 * 64 < (2 * t - m).natAbs
  | none => false

/-- R361: the mean of the latest 40 conversions of a sensor. -/
def meanOf (xs : List Int) : Int := if xs.length = 0 then 0 else roundUp xs.sum xs.length

def maxInt : List Int → Option Int
  | [] => none
  | x :: xs => some (xs.foldl max x)

/-- The valid on-die readings of a half. -/
def State.validTemps (s : State) (h : Half) : List Int :=
  ((List.range 16).filter fun j => s.isSet .DS_VALID (16 * h.val + j)).map fun j => s.getS .DS_TEMP (16 * h.val + j)

/-- R361: the means of a group's valid on-die sensors. -/
def State.regionMeans (s : State) (g : Group) : List Int :=
  ((List.finRange 32).filter fun d : DieSensor =>
    d.val / 16 == g.val / 3 && d.val % 16 / 5 == g.val % 3 && d.val % 16 != 15 && s.isSet .DS_VALID d).map fun d => meanOf (s.die d).last

/-- TF of R361. -/
def tf : Int := 105 * 64

/-- R361: TG of a group, and whether it is taken as TF because no on-die sensor of the half is valid. -/
def State.groupTemp (s : State) (g : Group) : Int × Bool × Bool :=
  match maxInt (s.regionMeans g) with
  | some m => (m, false, false)
  | none =>
    match maxInt (s.validTemps g.half) with
    | some m => (m + 5 * 64, true, false)
    | none => (tf, true, true)

/-- R361: TG is formed; SENS_FAULT sets when the region has no valid sensor. -/
def State.formTg (s : State) (g : Group) : State :=
  let r := s.groupTemp g
  let s := s.putS .THG_TG g r.1
  if r.2.1 then s.flag .THG_SENS_FAULT g else s

/-- R495: SENSOR_FAULT. -/
def State.sensorFault (s : State) (h : Half) (sensor fault : Nat) : State :=
  s.raise h { sev := 2, code := 0x0403, scope := 1, id := h, d0 := sensor, d1 := fault }

/-- R376: HOTTEST. -/
def State.setHottest (s : State) (h : Half) : State :=
  match maxInt (s.validTemps h) with
  | some m => s.putS .THM_HOTTEST h m
  | none => s

/-- R368: since when every on-die sensor of the half has read 110 °C or less. -/
def State.trackCool (s : State) (h : Half) : State :=
  let cool := (s.validTemps h).all fun t => t ≤ 110 * 64
  let t := s.ticks h
  s.modHalf h fun y => { y with coolSince := if cool then (if y.coolSince.isSome then y.coolSince else some t) else none }

/-- R356: a conversion of an on-die sensor. -/
def State.dieConversion (s : State) (d : DieSensor) (t : Int) : State :=
  let h := d.half
  let range := decide (-40 * 64 ≤ t) && decide (t ≤ 125 * 64)
  let far := s.farFromPeers d t
  let n := if far then (s.die d).far + 1 else 0
  let bad := !range || 3 ≤ n
  if s.isSet .DS_FAULT d then
    let good := if range && !far then (s.die d).good + 1 else 0
    let s := s.modDie d fun x => { x with far := n, good := good }
    if good < 100 then s
    else
      let s := ((s.put .DS_FAULT d 0).put .DS_VALID d 1).putS .DS_TEMP d t
      s.modDie d fun x => { x with last := [t], far := 0, good := 0 }
  else if bad then
    let s := ((s.put .DS_FAULT d 1).put .DS_VALID d 0).modDie d fun x => { x with last := [], far := 0, good := 0 }
    s.sensorFault h (d.val % 16) 1
  else
    let s := (s.put .DS_VALID d 1).putS .DS_TEMP d t
    s.modDie d fun x => { x with last := (t :: x.last).take 40, far := n }

/-- R354, R361, R376: a conversion, and what follows from it: TG of the sensor's region, HOTTEST, the cooling time. -/
def execDieSensorConversion (d : DieSensor) (temp : Int) (s : State) : Host.Outcome State Fault Refusal :=
  let h := d.half
  if (s.half h).off then done s
  else
    let s := ((s.dieConversion d temp).setHottest h).trackCool h
    let g : Nat := 3 * h.val + d.val % 16 / 5
    if hg : d.val % 16 ≠ 15 ∧ g < 6 then
      done (if (s.regionMeans ⟨g, hg.2⟩).isEmpty then s else s.formTg ⟨g, hg.2⟩)
    else done s

/-! ### Engine sensors -/

/-- ln 2 in 2^-60. -/
def ln2Fix : Int := 799144290325165979

/-- ln(a / b) in 2^-60, for positive numbers. -/
def lnFix (a b : Nat) : Int :=
  let k : Int := (Nat.log2 a : Int) - Nat.log2 b
  let m : Rat := (a : Rat) / b / (if 0 ≤ k then ((2 ^ k.toNat : Nat) : Rat) else 1 / ((2 ^ (-k).toNat : Nat) : Rat))
  let z : Int := ((m - 1) / (m + 1) * (2 ^ 60 : Nat)).floor
  let sq := z * z / 2 ^ 60
  let series := ((List.range 30).foldl (fun (p : Int × Int) j => (p.1 + p.2 / (2 * j + 1), p.2 * sq / 2 ^ 60)) (0, z)).1
  k * ln2Fix + 2 * series

/-- R358: the temperature of a thermistor of resistance `r`, in units of 10 Ω. -/
def betaTemp (r res25 beta : Nat) : Int :=
  let den : Int := 100 * (beta * 2 ^ 60) + 29815 * lnFix (max r 1) (max res25 1)
  if den ≤ 0 then 32767
  else clampInt (-32768) 32767 (roundUp (64 * (100 * (beta * 29815 * 2 ^ 60) - 27315 * den)) (100 * den).toNat)

/-- R357: the temperature of a remote diode from its voltages (nV) at 10, 40 and 160 µA, series resistance cancelled, with the ideality factor of
`nf`. PRESUMED: the law of the diode, kT/q × ln of the ratio of the currents, with k/q = 86.173 332 62 µV/K. -/
def diodeTemp (v10 v40 v160 : Int) (nf : Nat) : Int :=
  let three : Rat := (4 * (v40 - v10) - (v160 - v40) : Int)
  let ln4 : Rat := 2 * ln2Fix / (2 ^ 60 : Nat)
  let kelvin := three / (3 * ln4 * (8617333262 / 100000) * ((1900 + nf : Nat) / 2000))
  clampInt (-32768) 32767 (64 * kelvin - 64 * 27315 / 100 + 1 / 2).floor

/-- R525 and R532: the engine sensors of a group are converted in this state. -/
def State.sensesEngine (s : State) (g : Group) : Bool :=
  let st := s.get .PG_STATE g
  st ≤ 1 || st == 5 || (st == 2 && (s.group g).proof)

/-- R366: remote diode 0 against ENG_HI. -/
def State.checkHot (s : State) (e : EngSensor) (t : Int) : State :=
  let g := e.group
  let hi : Int := 64 * s.get .THG_ENG_HI g
  if e.val % 4 ≠ 0 then s
  else if (s.eng e).hot then (if t ≤ hi - 128 then s.modEng e fun x => { x with hot := false } else s)
  else if hi < t then
    ((s.modEng e fun x => { x with hot := true }).flag .THG_ENG_HOT g).raise g.half
      { sev := 2, code := 0x0405, scope := 2, id := g, d0 := ofSigned 32 t }
  else s

/-- A reading as R355 and R356 judge it: the fault, or the temperature. A sensor of the other kind on the pins reads open. -/
def State.engineReading (s : State) (e : EngSensor) (r : EngReading) : Nat × Int :=
  match r with
  | .open => (1, 0)
  | .short => (2, 0)
  | .diode a b c =>
    let t := diodeTemp a b c (s.get .ENG_BETA_NF e % 256)
    if 2 ≤ e.val % 4 then (1, 0) else if -40 * 64 ≤ t ∧ t ≤ 150 * 64 then (0, t) else (3, 0)
  | .thermistor r =>
    if e.val % 4 < 2 then (1, 0)
    else if 10 ≤ r ∧ r ≤ 100000 then (0, betaTemp r (s.get .ENG_RES25 e) (s.get .ENG_BETA_NF e)) else (3, 0)

/-- R378: RES of a thermistor, saturating. -/
def State.setRes (s : State) (e : EngSensor) (r : EngReading) : State :=
  match r with
  | .thermistor r => s.put .ENG_RES e (min r 0xFFFF)
  | _ => s

/-- R356: a conversion of an engine sensor. -/
def State.engineConversion (s : State) (e : EngSensor) (r : EngReading) : State :=
  let v := s.engineReading e r
  let s := { s with
    results := s.results.set (512 + e.val) (s.results.get (512 + e.val) + 1), resultAt := s.resultAt.set (512 + e.val) (s.ticks (EngSensor.group e).half + 1) }
  let j := 16 + e.val % 12
  if v.1 ≠ 0 then
    if s.get .ENG_FAULT e ≠ 0 then s.modEng e fun x => { x with good := 0 }
    else (((s.put .ENG_FAULT e v.1).put .ENG_VALID e 0).modEng e fun x => { x with good := 0 }).sensorFault e.group.half j v.1
  else
    let good := (s.eng e).good + 1
    let s := (s.setRes e r).modEng e fun x => { x with good := good }
    if s.get .ENG_FAULT e ≠ 0 ∧ good < 100 then s
    else (((s.put .ENG_FAULT e 0).put .ENG_VALID e 1).putS .ENG_TEMP e v.2).checkHot e v.2

def execEngineSensorConversion (e : EngSensor) (r : EngReading) (s : State) : Host.Outcome State Fault Refusal :=
  if s.isSet .ENG_EN e ∧ s.sensesEngine e.group then done (s.engineConversion e r) else done s

/-- R359: the always-on oscillator and the references are retrimmed from the mean of the half's valid on-die sensors; the oscillator by at most
0.05 % at a time and within ±2 %, the 1.200 V reference within ±0.1 %. -/
def execAonRetrim (h : Half) (s : State) : Host.Outcome State Fault Refusal :=
  let ts := s.validTemps h
  if ts.isEmpty then done s
  else
    let t := meanOf ts
    done (s.modHalf h fun y => { y with
      retrim := some t, osc := clampInt (-200) 200 (y.osc + clampInt (-5) 5 (Config.oscTrim t - y.osc))
      bandgap := clampInt (-100) 100 (Config.bandgapTrim t) })

/-! ### Throttling -/

/-- R363 step 1: an eligible lane. -/
def State.eligible (s : State) (l : Lane) : Bool :=
  let st := s.get .ACQ_STATE l
  (s.lane l).fences.isEmpty && (st == acqLink || st == acqTrain || st == acqBlind || st == acqData)
    && ((s.portOf l).map fun p => !s.portFenced p).getD false && !s.isSet .THM_TRIP l.half && s.get .PG_STATE l.group == 0

/-- R364: the margin class from the errors and codewords since the previous tick: ⌊−log10(errors / (544 × codewords))⌋, 0 to 12. -/
def marginClass (err cw : Nat) : Nat := if err = 0 then 12 else ((List.range 12).filter fun k => err * 10 ^ (k + 1) ≤ 544 * cw).length

/-- What has been counted since a value that a clear may have passed. -/
def since (now prev : Nat) : Nat := if prev ≤ now then now - prev else now

def State.laneClass (s : State) (l : Lane) : Nat :=
  if s.inData l then
    marginClass (since (s.get .FECS_SYM_ERR (2 * l.val)) (s.lane l).symPrev) (since (s.get .FECS_CW (2 * l.val)) (s.lane l).cwPrev)
  else 12

/-- A lane as R364 orders it: margin class, priority number, port, lane. -/
structure Pick where
  lane : Lane
  cls : Nat
  prio : Nat
  port : Nat

/-- R217 and R237: the priority of a port that a decision reads: at the boundary of a commit that changes it, the one before. -/
def State.priority (s : State) (p : Lane) : Nat :=
  match (s.port p).prioWas with
  | some w => if w.2 = s.ticks p.half then w.1 else s.app .PORT_PRIORITY p
  | none => s.app .PORT_PRIORITY p

def State.pickOf (s : State) (l : Lane) : Pick :=
  let p := (s.portOf l).getD l
  ⟨l, s.laneClass l, s.priority p, p⟩

/-- R364: lowering: higher class, higher priority number, higher port (R44), higher lane. -/
def Pick.lowerFirst (a b : Pick) : Bool :=
  if a.cls ≠ b.cls then b.cls < a.cls
  else if a.prio ≠ b.prio then b.prio < a.prio
  else if a.port ≠ b.port then b.port < a.port else b.lane.val < a.lane.val

/-- R364: restoring: lower priority number, lower class, lower port, lower lane. -/
def Pick.restoreFirst (a b : Pick) : Bool :=
  if a.prio ≠ b.prio then a.prio < b.prio
  else if a.cls ≠ b.cls then a.cls < b.cls
  else if a.port ≠ b.port then a.port < b.port else a.lane.val < b.lane.val

def insertPick (first : Pick → Pick → Bool) (x : Pick) : List Pick → List Pick
  | [] => [x]
  | y :: ys => if first x y then x :: y :: ys else y :: insertPick first x ys

/-- R364: the picks of a tick in order. -/
def orderPicks (first : Pick → Pick → Bool) (xs : List Pick) : List Pick := xs.foldr (insertPick first) []

def State.setThrottle (s : State) (l : Lane) (r : Nat) : State := s.modLane l fun x => { x with throttle := r }

/-- R363 and R364: S against U, and the picks of the tick. -/
def State.pickLanes (s : State) (ls : List Lane) (sTarget u : Nat) : State :=
  if u < sTarget then
    let xs := (ls.filter fun l => (s.lane l).throttle < s.app .EQ_EFFORT_MAX l).map s.pickOf
    s.each ((orderPicks Pick.lowerFirst xs).take (sTarget - u)) fun s x => s.setThrottle x.lane ((s.lane x.lane).throttle + 1)
  else
    let xs := (ls.filter fun l => 0 < (s.lane l).throttle).map s.pickOf
    s.each ((orderPicks Pick.restoreFirst xs).take (u - sTarget)) fun s x => s.setThrottle x.lane ((s.lane x.lane).throttle - 1)

/-- R363 step 4: S. -/
def sOf (c : Nat) (te tt : Int) : Nat :=
  if te ≤ tt then 0 else if tf ≤ te then c else min c (-((-(c * (te - tt))) / (tf - tt))).toNat

/-- The thermally fenced ports of a group. -/
def State.thermalPorts (s : State) (g : Group) : List Lane := g.lanes.filter fun (p : Lane) => Cause.thermal ∈ (s.port p).fences

/-- The port that goes first by an order over (priority number, first lane). -/
def firstPort (first : Nat × Nat → Nat × Nat → Bool) (key : Lane → Nat × Nat) : List Lane → Option Lane
  | [] => none
  | p :: ps =>
    match firstPort first key ps with
    | some q => some (if first (key p) (key q) then p else q)
    | none => some p

/-- R365: the fence step. -/
def State.fenceStep (s : State) (g : Group) (noSensor : Bool) : State :=
  if s.isSet .THM_TRIP g.half ∨ noSensor then s
  else
    let key := fun p : Lane => (s.priority p, p.val)
    if tf ≤ s.getS .THG_TG g then
      let ps := g.lanes.filter fun (p : Lane) => s.app .PORT_EN p == 1 && (s.port p).fences.isEmpty
      match firstPort (fun a b => b.1 < a.1 || (b.1 == a.1 && b.2 < a.2)) key ps with
      | some p => (s.fenceIn (.port p) .thermal).flag .THG_TFENCE g
      | none => s
    else if s.getS .THG_TE g < tf then
      match firstPort (fun a b => a.1 < b.1 || (a.1 == b.1 && a.2 < b.2)) key (s.thermalPorts g) with
      | some p => s.fenceOut (.port p) .thermal true
      | none => s
    else s

/-- R366: STAGE. -/
def State.setStage366 (s : State) (g : Group) : State :=
  let n := (s.thermalPorts g).length
  let st := if n ≠ 0 then 2 else if s.get .THG_S g = 0 then 0 else 1
  let s := s.put .THG_TFENCED g n
  if s.get .THG_STAGE g = st then s
  else
    ((s.put .THG_STAGE g st).flag .THG_STAGE_CHG g).raise g.half
      { sev := 1, code := 0x0404, scope := 2, id := g, d0 := st, d1 := ofSigned 32 (s.getS .THG_TG g) }

/-- R363: the lanes of the group after a tick: reductions, C, S, U, and the effort changes that wait for their boundary. -/
def State.throttle (s : State) (g : Group) : State :=
  let ls := g.lanes.filter s.eligible
  let s := s.each g.lanes fun s l => s.setThrottle l (if l ∈ ls then min (s.lane l).throttle (s.app .EQ_EFFORT_MAX l) else 0)
  let c := (ls.map fun l => s.app .EQ_EFFORT_MAX l).sum
  let u := (ls.map fun l => (s.lane l).throttle).sum
  let tgt := sOf c (s.getS .THG_TE g) (64 * s.get .THM_TT g.half)
  let s := s.pickLanes ls tgt u
  let s := ((s.put .THG_C g c).put .THG_S g tgt).put .THG_USED g ((ls.map fun l => (s.lane l).throttle).sum)
  let s := if tgt = 0 then s else s.incSat .THG_THR_TICKS g
  s.each g.lanes fun s l =>
    let e := s.get .FECS_SYM_ERR (2 * l.val)
    let w := s.get .FECS_CW (2 * l.val)
    let late := s.effortLevel l != s.get .EQ_EFFORT l
    s.modLane l fun x => { x with symPrev := e, cwPrev := w, effortDue := x.effortDue || late }

/-- R362: Te. -/
def nextTe (tg te : Int) : Int := if te < tg then tg else if tg < te - 128 then tg + 128 else te

/-- R362 to R366: a tick of a group's throttle controller: the fence step, after which a released port's lanes have left IDLE (R268), then S. -/
def execThrottleTick (g : Group) (s : State) : Host.Outcome State Fault Refusal :=
  if ¬ s.running g.half ∨ s.kndOut (grpKnd g 15) ∨ s.groupFenced g then done s
  else
    let r := s.groupTemp g
    let s := s.formTg g
    let s := s.putS .THG_TE g (nextTe r.1 (s.getS .THG_TE g))
    done ((((s.fenceStep g r.2.2).each g.lanes State.settleLane).throttle g).setStage366 g)

/-! ### The thermal trip -/

/-- R541 and R531: the trip gates a group without the handshake; what was under way ends. -/
def State.tripGroup (s : State) (g : Group) : State :=
  let st := s.get .PG_STATE g
  let hs := (s.group g).hs
  let wk := (s.group g).wake
  let s := s.gateGroup g 3
  let s := if st = 3 then s else s.powerState (.group g) 3
  let waiting := (s.group g).moves
  let s := s.modGroup g fun y => { y with moves := [] }
  let s := s.each waiting fun s p => s.refuse p.2 (.rejected 0x03)
  let s := match hs with
    | some x => if x.target = 3 then s.finish x.cmd else s.refuse x.cmd (.rejected 0x03)
    | none => s
  match wk with
  | some w => s.refuse w.cmd (.failed 0x51)
  | none => s

/-- R368: the pin follows the halves that drive it. -/
def State.setTripPins (s : State) : State :=
  s.each allHalves fun s h => s.putBool .THM_TT_PIN h (allHalves.any fun k => s.isSet .THM_TRIP k)

/-- R367 and R368: a half trips: lasers off, groups gated, the controllers reset, THERMTRIP# low. -/
def State.trip (s : State) (h : Half) (src sensor : Nat) : State :=
  if s.isSet .THM_TRIP h then s
  else
    let s := ((s.put .THM_TRIP h 1).put .THM_TRIP_SRC h src).put .THM_TRIP_SENSOR h sensor
    let s := s.raise h { sev := 3, code := 0x0406, scope := 1, id := h, d0 := sensor, d1 := src }
    let s := s.each h.groups fun s g =>
      let s := s.each (s.thermalPorts g) fun s p => s.fenceOut (.port p) .thermal true
      let s := s.each g.lanes fun s l => s.setThrottle l 0
      (((s.put .THG_USED g 0).put .THG_S g 0).setStage366 g).tripGroup g
    let s := s.modHalf h fun y => { y with coolSince := none }
    (s.settleDevice h).setTripPins

/-- R367: a sensor's comparator has been above 112 °C for 20 µs. -/
def execThermalTrip (d : DieSensor) (s : State) : Host.Outcome State Fault Refusal :=
  if (s.half d.half).off ∨ s.porst then done s else done (s.trip d.half 0 (d.val % 16))

/-- R368: the half sees THERMTRIP# low for 1 µs; after its own CLEAR only once it has seen the pin high. -/
def execThermtripPinTrip (h : Half) (s : State) : Host.Outcome State Fault Refusal :=
  if (s.half h).off ∨ s.porst then done s
  else
    let s := s.put .THM_TT_PIN h 1
    if (s.half h).pinArmed then done (s.trip h 1 (s.get .THM_TRIP_SENSOR h)) else done s

/-- R368: the half sees the pin high, which neither half drives low. -/
def execThermtripPinHigh (h : Half) (s : State) : Host.Outcome State Fault Refusal :=
  if allHalves.any fun k => s.isSet .THM_TRIP k then done s
  else done ((s.put .THM_TT_PIN h 0).modHalf h fun y => { y with pinArmed := true })

/-- R368: CLEAR is written: it acts once every on-die sensor has read 110 °C or less for 100 ms. -/
def State.tripClear (s : State) (h : Half) (v : Nat) : State :=
  if !v.testBit 0 || !s.isSet .THM_TRIP h then s
  else
    let ok := match (s.half h).coolSince with
      | some t => decide (t + 25000000 ≤ s.ticks h)
      | none => false
    if ok then ((s.put .THM_TRIP h 0).modHalf h fun y => { y with pinArmed := false }).setTripPins
    else s.writeIgnored h 0x70008 0x03

def execThermalTripClear (h : Half) (v : W32) (s : State) : Host.Outcome State Fault Refusal :=
  done (s.hostWrite h fun s => s.tripClear h v.toNat)

/-! ### Calibration -/

/-- R369 to R373: the monitor ADC's calibration in idle slots. -/
def execMonitorAdcCalibration (h : Half) (cal : CalResult) (s : State) : Host.Outcome State Fault Refusal :=
  if ¬ s.running h then done s else done ((s.modHalf h fun y => { y with slotAt := y.ticks }).calMonitor h cal)

/-- R369: a channel's readback against OUT: a drift of more than 4 LSB is recorded. -/
def execCdacDriftCheck (c : Chan) (readback : Int) (s : State) : Host.Outcome State Fault Refusal :=
  let h := c.half
  let s := s.modHalf h fun y => { y with slotAt := y.ticks }
  if (readback - s.get .CD_OUT c).natAbs ≤ 4 then done s
  else done (((s.flag .CALH_CDAC_DRIFT h).put .CALH_DRIFT_CH h c.index).incSat .CALH_CDAC_DRIFT_CNT h)

/-- R369: no idle converter slot for 10 s. -/
def execCalibrationStarved (h : Half) (s : State) : Host.Outcome State Fault Refusal :=
  if s.running h ∧ (s.half h).slotAt + msTicks 10000 ≤ s.ticks h then done (s.flag .CALH_CAL_STARVED h) else done s

/-- R372: a move of the trims in service from one temperature to another steps no corrected sample, whatever its code, and no segment current by
more than 0.02 LSB. -/
def State.smallMove (s : State) (g : Group) (a b : Rat) : Bool :=
  g.lanes.all fun l =>
    (s.lane l).phases.all (fun n => (List.range 256).all fun c =>
        decide (ratAbs (sampleOf (s.subTrimsAt l n b) c (s.lane l).comp - sampleOf (s.subTrimsAt l n a) c (s.lane l).comp) ≤ 32 / 100))
      && (s.lane l).segs.all fun n => decide (ratAbs ((s.trim 1 l (3 * n)).value b - (s.trim 1 l (3 * n)).value a) ≤ 20)

/-- R372: the step of one boundary toward `b`: the way halved until the move is small. -/
def State.trimStep (s : State) (g : Group) (a : Rat) : Nat → Rat → Rat
  | 0, _ => a
  | n + 1, b => if s.smallMove g a b then b else s.trimStep g a n ((a + b) / 2)

/-- R372: a codeword boundary: the trims of a group are re-applied once TG has moved by 0.25 °C since the last application, over as many boundaries
as the change needs. -/
def execTrimReapply (g : Group) (s : State) : Host.Outcome State Fault Refusal :=
  let t := s.tg g
  match (s.group g).trimTemp with
  | none => done (s.modGroup g fun y => { y with trimTemp := some t, trimGoal := t })
  | some a =>
    let goal := (s.group g).trimGoal
    let goal := if 16 ≤ (t - goal).natAbs then t else goal
    let b := if a = goal then a else s.trimStep g a 40 goal
    done (s.modGroup g fun y => { y with trimTemp := some b, trimGoal := goal })

end Sys2Proof.Machine
end

