-- ==== Sys2Proof/Machine/Spares.lean ====
section
/-! DEFINITION. What serves in place of what: Kneaders out of service and back (R104, R413), self-tests under way with the units they free
(R418 to R425), slice rotations and slice failure (R114 to R119). -/

namespace Sys2Proof.Machine

/-! ### What a Kneader serves -/

/-- The Kneaders that share a Kneader's spare. -/
def kndMates (k : Knd) : List Knd :=
  (List.finRange 128).filter fun j => (kndSpare j) == (kndSpare k)

/-- R408: the lanes whose adaptation or acquisition a group Kneader serves. -/
def kndAdapts (k : Knd) : Option Lane :=
  match k.group? with
  | some g => if h : k.role < 8 then some (g.lane ⟨k.role, h⟩) else none
  | none => none
def kndAcquires (k : Knd) : List Lane :=
  match k.group? with
  | some g => g.lanes.filter fun (l : Lane) => l.acqKnd == k
  | none => []

/-- R39, R525: the Kneader runs at all: its half is in service, and its group is powered and not fenced. -/
def State.kndRuns (s : State) (k : Knd) : Bool :=
  s.running k.half && match k.group? with
    | some g => !s.groupFenced g && s.get .PG_STATE g ≤ 1
    | none => (s.half k.half).fences.isEmpty

/-- R104 and R413: what the loss of a Kneader does at once: HOLD on its lane, a bit-swap request that is not acknowledged fails,
attestation sessions are lost; R523: an update apply is abandoned. -/
def State.loseKnd (s : State) (k : Knd) : State :=
  let s := match (kndAdapts k) with
    | some l => (s.put .EQ_HOLD l 1).modLane l fun x => { x with eyeStale := true, swap := none, feq := [], acc := none, block := none }
    | none => s
  let s := s.each (kndAcquires k) fun s l =>
    match (s.lane l).rxSwap with
    | some w => if w.sent && !w.acked then s.swapFail l 0x25 else s
    | none => s
  let s := if k.val = 122 ∨ k.val = 126 then s.verifyFail k.half else s
  if k.val = 123 ∨ k.val = 127 then s.modHalf k.half fun y => { y with sessions := [] } else s

/-- R104 and R413: a Kneader serves again: HOLD ends, adaptation starts a fresh block, held triggers go on; lanes whose acquisition waited for it
move on. -/
def State.returnKnd (s : State) (k : Knd) : State :=
  let s := match (kndAdapts k) with
    | some l => ((((s.put .EQ_HOLD l 0).modLane l fun x => { x with eyeStale := false }).openBlock l).openFeq l).releaseTrigger l
    | none => s
  s.each (kndAcquires k) fun s l => (s.bothInData l).blindDone l

/-! ### Self-tests under way -/

/-- R423: the on-demand test of a half names this Kneader. -/
def State.testsKnd (s : State) (k : Knd) : Bool :=
  let h := k.half
  s.onTest h && (s.get .ST_KIND h == 1 || s.get .ST_KIND h == 2) && testKnd h (s.get .ST_UNIT h) == k

/-- R437: the state of a Kneader that serves: TEST while the physical Kneader that it was freed from is under test. -/
def State.kndRest (s : State) (k : Knd) : Nat := if s.testsKnd k && s.get .ST_STATE k.half == 2 then 3 else 0

/-- R438: without an on-demand test STATE, KIND and UNIT show a background test of a spare slice, or none. -/
def State.showTest (s : State) (h : Half) : State :=
  if s.onTest h then s
  else if h.groups.any fun g => (s.group g).sliceTest.isSome then
    let d := s.draw
    ((d.2.put .ST_STATE h 2).put .ST_KIND h 0).put .ST_UNIT h (Config.spareUnit d.1 % 64)
  else s.put .ST_STATE h 0

/-- R424: the background test of a spare slice is aborted: the spare may serve. -/
def State.abortSpareTest (s : State) (g : Group) : State :=
  if (s.group g).sliceTest.isNone then s
  else
    let h := g.half
    let s := (s.modGroup g fun x => { x with sliceTest := none }).put .ST_RESULT h 3
    ((s.flag .REL_ST_ABORT h).incSat .ST_ABORT_CNT h).showTest h

/-- R424: the on-demand test of a half is aborted and its unit restored; its command completes CANCELLED. -/
def State.abortTest (s : State) (h : Half) : State :=
  if !s.onTest h then s
  else
    let kind := s.get .ST_KIND h
    let k := testKnd h (s.get .ST_UNIT h)
    let l := testLane h (s.get .ST_UNIT h)
    let s := if kind = 0 ∧ (s.group l.group).sliceRun = some l then s.abandonSlice l else s
    let s := if kind = 1 ∨ kind = 2 then
        match s.get .KND_STATE k with
        | 2 => (s.put .KND_STATE k 0).returnKnd k
        | 3 => s.put .KND_STATE k 0
        | _ => s
      else s
    let s := if kind = 2 ∧ k = sysKnd h 3 ∧ ¬ s.isSet .REL_KEY_LOCKED h then s.put .REL_KEY_LOADED h 1 else s
    let s := ((s.put .ST_STATE h 0).put .ST_RESULT h 3).setFullWidth h false
    let s := (s.flag .REL_ST_ABORT h).incSat .ST_ABORT_CNT h
    match (s.half h).stCmd with
    | some c => ((s.modHalf h fun y => { y with stCmd := none }).complete c ⟨8, 0x68, 0, 0⟩).showTest h
    | none => s

/-- R423: the on-demand test has lent out the spare of a group (slice or Kneader), or of the half. -/
def State.testLends (s : State) (h : Half) (kind sp : Nat) : Bool :=
  s.onTest h && s.get .ST_KIND h == kind && match kind with
    | 0 => 4 * h.val + s.get .ST_UNIT h / 8 == sp
    | 1 => 4 * h.val + s.get .ST_UNIT h / 20 == sp
    | _ => 4 * h.val + 3 == sp

/-- R423: the unit is free: its test runs from now. R421: before the scan chains of the security domain are enabled its secrets go. -/
def State.enterTest (s : State) (h : Half) : State :=
  let t := s.ticks h
  let kind := s.get .ST_KIND h
  let k := testKnd h (s.get .ST_UNIT h)
  let s := (s.put .ST_STATE h 2).modHalf h fun y => { y with stAt := t }
  let s := if kind = 1 ∨ kind = 2 then s.put .KND_STATE k 3 else s
  if kind = 2 ∧ k = sysKnd h 3 then s.zeroise h else s

/-! ### Slice rotation -/

/-- R131: the rotation period of a group in ms: below 100 clamps to 100. -/
def State.srotPeriod (s : State) (g : Group) : Nat := max 100 (s.app .SROT_PERIOD g)

/-- R115: the parallel run of a slice in ns, by line mode: 4,160 codeword boundaries. -/
def sliceRunNs (lmode : Nat) : Nat := if lmode = 0 then 212992 else 106496

/-- R114: the lane whose rotation starts next: one that waits to be retried while it is in DATA, else the next in DATA in ascending order. -/
def State.nextTurn (s : State) (g : Group) : Option Lane :=
  let x := s.group g
  let at' := fun (i : Nat) => g.lanes.find? fun l => l.val % 8 == i && s.inData l
  (x.rotRetry.bind at').orElse fun _ => ((List.range 8).map fun i => (x.nextRot + i) % 8).findSome? at'

/-- R114 and R420: what a slice rotation needs besides R19: EN, a spare slice that has passed its latest test and the one before this rotation, no
test and no run in progress. -/
def State.sliceReady (s : State) (g : Group) : Bool :=
  let x := s.group g
  s.app .SROT_EN g == 1 && x.spareOk && x.tested && x.sliceTest.isNone && s.get .SP_SLICE_SPARE (Group.spIdx g) != 0 && x.sliceRun.isNone
    && s.calServed g && !s.testLends g.half 0 (Group.spIdx g)

/-- R115 step 1: a parallel run starts: the slice state of the lane is copied into the spare slice. -/
def State.startRun (s : State) (l : Lane) : State :=
  ((s.modGroup l.group fun x => { x with sliceRun := some l }).put .EQ_PARALLEL l 1).mirror l

/-- R117 and R420: the background test of the spare slice begins. -/
def State.beginSpareTest (s : State) (g : Group) : State :=
  let x := s.group g
  if x.sliceTest.isSome || x.sliceRun.isSome || s.get .SP_SLICE_SPARE (Group.spIdx g) == 0 || !s.calServed g
      || s.testLends g.half 0 (Group.spIdx g) then s
  else
    let t := s.ticks g.half
    (s.modGroup g fun x => { x with sliceTest := some t, tested := false }).showTest g.half

/-- R420: the background test that goes before a slice rotation: not where the spare has passed one, nor while rotation is off. -/
def State.testAhead (s : State) (g : Group) : State :=
  if s.app .SROT_EN g == 1 && !((s.group g).tested && (s.group g).spareOk) then s.beginSpareTest g else s

/-- R423: the lane of a group whose slice an on-demand test still has to free. -/
def State.savesLane (s : State) (g : Group) : Option Lane :=
  let l := testLane g.half (s.get .ST_UNIT g.half)
  if s.onTest g.half && s.get .ST_STATE g.half == 1 && s.get .ST_KIND g.half == 0 && l.group == g then some l else none

/-- R423 and R115: the slice of a lane is freed for its test: by a rotation onto the spare slice, which retries where R19 defers it; a lane outside
DATA, which nothing crosses, moves at once. Without the spare slice the test is aborted. -/
def State.freeLane (s : State) (l : Lane) : State :=
  let g := l.group
  if s.get .SP_SLICE_SPARE (Group.spIdx g) = 0 then s.abortTest g.half
  else if !s.inData l then (s.modGroup g fun x => x.moveLane (Lane.index l)).enterTest g.half
  else if s.actionSoon l (sliceRunNs (s.lmode l)) || (s.group g).sliceTest.isSome then s
  else s.startRun l

/-- R114: once a slice rotation has fallen due the next one falls due PERIOD later. -/
def State.planRotation (s : State) (g : Group) : State :=
  let now := s.ticks g.half
  let p := msTicks (s.srotPeriod g)
  if (s.group g).rotDue ≤ now then s.modGroup g fun x => { x with rotDue := dueAfter now x.rotDue p } else s

/-- R114, R115 and R131: a slice rotation falls due every PERIOD, or is retried: it starts on the next lane in DATA, whose slice state is copied
into the spare, or waits for what blocks it. A retry does not move the schedule. R420: the background test of the spare slice, of 2 ms at most, goes
before it. R423: a rotation that frees a slice for its test goes first. -/
def execSliceRotationStart (g : Group) (s : State) : Host.Outcome State Fault Refusal :=
  let now := s.ticks g.half
  let x := s.group g
  let due := x.rotDue ≤ now
  match s.savesLane g with
  | some l => done (if x.sliceRun.isSome then s else s.freeLane l)
  | none =>
    if ¬ due ∧ x.rotRetry.isNone then
      done (if x.rotDue ≤ now + msTicks 2 && (s.nextTurn g).isSome then s.testAhead g else s)
    else
      let s := s.planRotation g
      match s.nextTurn g with
      | none => done s
      | some l =>
        if !s.sliceReady g || s.actionSoon l (sliceRunNs (s.lmode l)) then
          done ((s.modGroup g fun x => { x with rotRetry := some (l.val % 8) }).testAhead g)
        else done ((s.modGroup g fun x => { x with nextRot := (l.val + 1) % 8, rotRetry := none }).startRun l)

/-- R117: the spare slice leaves service (R20). -/
def State.retireSpareSlice (s : State) (g : Group) : State := (s.dropSpareSlice g).logRepair g.half 2 g

/-- R115 step 4 and R117: the comparison ends: whether every decoded receive bit and every TX DAC code were identical. -/
def execSliceRotationComplete (g : Group) (rxSame txSame : Bool) (s : State) : Host.Outcome State Fault Refusal :=
  match (s.group g).sliceRun with
  | none => done s
  | some l =>
    let s := (s.put .EQ_PARALLEL l 0).modGroup g fun x => { x with sliceRun := none, copy := none }
    if rxSame && txSame then
      let s := (s.inc .EQ_SWAP_CNT l).flag .EQ_SLICE_SWAP l
      let s := s.modGroup g fun x => { x.moveLane (Lane.index l) with mismatch := 0, tested := false }
      done (if s.savesLane g = some l then s.enterTest g.half else s)
    else
      let n := (s.group g).mismatch + 1
      let s := (s.flag .EQ_SLICE_ABANDON l).modGroup g fun x => { x with mismatch := n, rotRetry := some (l.val % 8), spareOk := false, tested := false }
      done (if 2 ≤ n then s.retireSpareSlice g else s.beginSpareTest g)

/-! ### Slice failure -/

/-- R119 and R424: the spare slice of a group is needed: a parallel run is abandoned, a test that has lent the spare out or runs on it is
aborted. -/
def State.freeSpare (s : State) (g : Group) : State :=
  let s := match (s.group g).sliceRun with
    | some m => s.abandonSlice m
    | none => s
  let s := s.abortSpareTest g
  if s.testLends g.half 0 (Group.spIdx g) then s.abortTest g.half else s

/-- R118: the spare serves the lane: SPARE_USED, one NOTICE event, and KD4896 releases the fence, after which the lane acquires. -/
def State.sliceServes (s : State) (l : Lane) : State :=
  let s := (s.logRepair l.half 2 l.group).flag .REL_SPARE_USED l.half
  let s := s.raise l.half { sev := 1, code := 0x0702, scope := 4, id := l, d0 := 1, d1 := l }
  s.fenceOut (.lane l) .slice true

/-- R118 and R214: an in-service slice fails: the lane is fenced; with a spare slice KD4896 maps the lane to it and releases the fence
itself, and the lane acquires again. Without one the slice of a lane of no port serves, and that lane keeps the failed slice and its fence. -/
def State.sliceFail (s : State) (l : Lane) : State :=
  let g := l.group
  let s := s.freeSpare g
  let s := (s.fenceIn (.lane l) .slice).toIdle l
  if s.get .SP_SLICE_SPARE (Group.spIdx g) ≠ 0 then
    ((s.modGroup g fun x => x.moveLane (Lane.index l)).dropSpareSlice g).sliceServes l
  else match s.idleLane l with
    | some m => ((s.modGroup g fun x => x.swapLanes (Lane.index l) (Lane.index m)).fenceIn (.lane m) .slice).sliceServes l
    | none => s

def execSliceFail (l : Lane) (s : State) : Host.Outcome State Fault Refusal := done (s.sliceFail l)

end Sys2Proof.Machine
end

