-- ==== Sys2Proof/Machine/Repair.lean ====
section
/-! DEFINITION. Kneaders, repair, self-test and memory protection (R407 to R438), with the failing cells of R17 to R20. -/

namespace Sys2Proof.Machine

/-! ### Words of protected memories -/

/-- R427 and R558: a word known to hold an error, or none. -/
def State.faultyAt (s : State) (u arr word : Nat) : Option Nat :=
  (s.faulty.find? fun w => w.1 == u && w.2.1 == arr && w.2.2.1 == word).map (·.2.2.2)

/-- A word is written: with an error, or clean. -/
def State.setFaulty (s : State) (u arr word : Nat) (kind : Option Nat) : State :=
  let rest := s.faulty.filter fun w => !(w.1 == u && w.2.1 == arr && w.2.2.1 == word)
  { s with faulty := match kind with
    | some k => (u, arr, word, k) :: rest
    | none => rest }

/-- R558 and R560: a word is written; an ECC injection on its class and memory group has it stored with its error. -/
def State.injectEcc (s : State) (m : MemUnit) (arr word : Nat) : State :=
  let slot := (fiSlots m.half).find? fun (i : Fin 32) =>
    s.isSet .FIS_ACTIVE i && s.get .FIS_KIND i == 7 && (s.fi i).p1 % 8 == m.cls.val && (s.fi i).p1 / 8 % 4 == m.grp.val
  match slot with
  | none => s.setFaulty (memIdx m) arr word none
  | some i =>
    let s := (s.setFaulty (memIdx m) arr word (some ((s.fi i).p2 % 3))).inc .FIS_INJ_CNT i
    if (s.fi i).p3 ≤ s.get .FIS_INJ_CNT i then s.endSlot i else s

/-- R429 and R430: words are written anew: whatever they held is gone, and their tracker entries are freed. -/
def State.rewrite (s : State) (ws : List (MemUnit × Nat × Nat)) : State :=
  s.each ws fun s w =>
    let u := memIdx w.1
    let s := { s with trackers := s.trackers.filter fun e => !(e.unit == u && e.arr == w.2.1 && e.word == w.2.2) }
    (s.put .ECC_TRK_USED u (s.trackers.filter fun e => e.unit == u).length).injectEcc w.1 w.2.1 w.2.2

/-! ### Failure and substitution -/

/-- The test kind of a Kneader (R438). -/
def kndTestKind (k : Knd) : Nat := if k.val < 120 then 1 else 2

/-- R414: a Kneader is declared failed: the spare takes its role, or its group or half is fenced. A test that holds the spare is
aborted. A system Kneader without spare is a fatal error (R520). -/
def State.failKnd (s : State) (k : Knd) : State :=
  let h := k.half
  let s := if s.testLends h (kndTestKind k) (kndSpare k) then s.abortTest h else s
  let s := ((s.flag .REL_KND_FAIL h).logRepair h 3 k).modKnd k fun _ => {}
  let s := s.modHalf h fun y => { y with reloads := y.reloads.filter (· != k.val), passed := y.passed.filter (· != .spareKneader (kndSpareUnit k)) }
  let taken := (kndMates k).any fun j => j != k && s.get .KND_STATE j == 2
  let spare := s.get .SP_KND_SPARE (kndSpare k) ≠ 0 ∧ !taken ∧ s.get .KND_STATE k ≠ 2
  let s := s.loseKnd k
  if spare then s.put .KND_STATE k 2
  else
    let s := (s.put .KND_STATE k 4).fenceIn (kndUnit k) .knd
    if 120 ≤ k.val ∧ s.get .BOOT_STATE h = bootRun then s.fatal h 1 k else s

/-- R414: the spare serves: KND_SPARE, SPARE_IN, SPARE_USED and one NOTICE event. -/
def State.spareServes (s : State) (k : Knd) : State :=
  let s := ((s.put .SP_KND_SPARE (kndSpare k) 0).put .KND_SPARE_IN k 1).flag .REL_SPARE_USED k.half
  s.raise k.half { sev := 1, code := 0x0702, scope := (kndUnit k).scope.1, id := (kndUnit k).scope.2, d0 := 0, d1 := k }

/-- R414: the spare runs in the role of a Kneader. R423: it lends itself for a test, and KND_SPARE stays. -/
def execKneaderSubstitutionComplete (k : Knd) (s : State) : Host.Outcome State Fault Refusal :=
  if s.get .KND_STATE k ≠ 2 then done s
  else if s.testsKnd k then
    let n := s.get .SP_KND_SPARE (kndSpare k)
    done ((((s.enterTest k.half).spareServes k).put .SP_KND_SPARE (kndSpare k) n).returnKnd k)
  else done (((s.put .KND_STATE k 0).spareServes k).returnKnd k)

def TrapCause.num : TrapCause → Nat
  | .fetchUe => 1
  | .dataUe => 2
  | .watchdog => 3
  | .illegal => 4

/-- R411, R412, R414: a trap: counted, with its event; the reload starts, or the third trap within 1 s is a failure. -/
def State.trapKnd (s : State) (k : Knd) (cause : Nat) : State :=
  let st := s.get .KND_STATE k
  if !s.kndRuns k || st == 1 || st == 4 then s
  else
    let now := s.ticks k.half
    let recent := now :: (s.knd k).traps.filter fun t => now - t < 250000000
    let s := ((s.incSat .KND_TRAP_CNT k).put .KND_CAUSE k cause).perfHalf k.half 0x0D
    let s := s.raise k.half { sev := 1, code := 0x0701, scope := (kndUnit k).scope.1, id := (kndUnit k).scope.2, d0 := k, d1 := cause }
    let s := s.modKnd k fun y => { y with traps := recent }
    if 3 ≤ recent.length then s.failKnd k
    else if st = 2 then s
    else ((s.put .KND_STATE k 1).loseKnd k).modHalf k.half fun y => { y with reloads := y.reloads.filter (· != k.val) ++ [k.val] }

def execKneaderTrap (k : Knd) (cause : TrapCause) (s : State) : Host.Outcome State Fault Refusal :=
  done (s.trapKnd k (TrapCause.num cause))

/-- R412: a reload is under way: it is among the first four in the order of the traps, and the Kneader that reloads the half, K122 or K126, serves,
which the ROM loader reloads itself. -/
def State.reloading (s : State) (k : Knd) : Bool :=
  let m := sysKnd k.half 2
  s.get .KND_STATE k == 1 && (k == m || (!s.kndOut m && (((s.half k.half).reloads.filter (· != m.val)).take 4).contains k.val))

/-- R412 and R414: a reload ends; an image that fails verification is fetched again from the active slot, and the second time the Kneader has
failed. DEDUCED: neither the image store nor the slot then holds a verified image, which is the fatal error IMAGE of R520. -/
def execKneaderReloadComplete (k : Knd) (verified : Bool) (s : State) : Host.Outcome State Fault Refusal :=
  if !s.reloading k then done s
  else if verified then
    let ws := (s.knd k).ueWords
    let s := ((s.put .KND_STATE k (s.kndRest k)).modKnd k fun y => { y with badImage := false, ueWords := [] }).modHalf k.half fun y =>
      { y with reloads := y.reloads.filter (· != k.val) }
    done ((s.rewrite ws).returnKnd k)
  else if (s.knd k).badImage then
    let s := s.failKnd k
    done (if s.get .BOOT_STATE k.half = bootRun then s.fatal k.half 2 k else s)
  else done (s.modKnd k fun y => { y with badImage := true })

/-! ### Tests -/

/-- R418 and R438: a test has run to its end: RESULT, SIG, ST_RUNS. -/
def State.testEnds (s : State) (h : Half) (pass : Bool) (sig : W32) : State :=
  ((s.put .ST_RESULT h (if pass then 1 else 2)).put .ST_SIG h sig.toNat).inc .ST_ST_RUNS h

/-- R420 and R425: the background test of a spare Kneader; one that fails is retired. -/
def State.spareTest (s : State) (h : Half) (u : SpareUnit) (sig : W32) : State :=
  let sp := spareIdx u
  let d := s.draw
  let ku := kindUnit (.spareKneader u) d.1
  if s.get .SP_KND_SPARE sp = 0 ∨ s.testLends h ku.1 sp then s
  else
    let pass := passes (.spareKneader u) sig
    let s := d.2.testEnds h pass sig
    let s := if s.get .ST_STATE h = 0 then (s.put .ST_KIND h ku.1).put .ST_UNIT h ku.2 else s
    if pass then s
    else
      let s := (s.put .SP_KND_SPARE sp 0).modHalf h fun y => { y with passed := y.passed.filter (· != .spareKneader u) }
      (s.logRepair h 3 (128 + sp)).testFail h ku.1 ku.2 sig.toNat

/-- R420: each spare Kneader runs logic self-test every 10 s. -/
def execSpareKneaderTest (u : SpareUnit) (sig : W32) (s : State) : Host.Outcome State Fault Refusal :=
  match u with
  | .group g => if s.running g.half then done (s.spareTest g.half u sig) else done s
  | .half h => if s.running h then done (s.spareTest h u sig) else done s

/-- R425: the tested unit has failed. Its role is already served by the spare, which is now in permanent use. -/
def State.retireTested (s : State) (h : Half) (kind unit : Nat) : State :=
  match kind with
  | 0 => (s.retireSpareSlice (testLane h unit).group).flag .REL_SPARE_USED h
  | 3 => s.fenceIn (.group (testGroup h unit)) .loop
  | _ =>
    let k := testKnd h unit
    (((s.flag .REL_KND_FAIL h).put .KND_CAUSE k 5).logRepair h 3 k).put .SP_KND_SPARE (kndSpare k) 0

/-- R423 and R425: an on-demand test ends with a signature; the unit is restored, or retired. R421: after a test in the security domain the key
is loaded again. -/
def State.demandEnds (s : State) (h : Half) (sig : W32) : State :=
  let kind := s.get .ST_KIND h
  let unit := s.get .ST_UNIT h
  let k := testKnd h unit
  let pass := passes (testUnit h kind unit) sig
  let cmd := (s.half h).stCmd
  let s := (((s.put .ST_STATE h 0).setFullWidth h false).testEnds h pass sig).modHalf h fun y => { y with stCmd := none }
  let s := if (kind = 1 ∨ kind = 2) ∧ s.get .KND_STATE k = 3 then s.put .KND_STATE k 0 else s
  let s := if kind = 2 ∧ k = sysKnd h 3 then s.loadKey h else s
  let s := if pass then s else (s.retireTested h kind unit).testFail h kind unit sig.toNat
  let s := match cmd with
    | some c => s.complete c ⟨if pass then 0 else 9, if pass then 0 else 0x62, sig.toNat, if pass then 1 else 2⟩
    | none => s
  s.showTest h

/-- R117, R369, R371, R420, R425: the background test of the spare slice of a group ends, its signature that of the second run. A slice that fails in both
runs is retired; else its trims are calibrated, and it serves when both runs pass and agree. -/
def State.spareSliceEnds (s : State) (g : Group) (cal : CalResult) (sig : W32) : State :=
  let h := g.half
  let cal := { cal with run2 := { cal.run2 with sig := sig.toNat } }
  let one := passes (.spareSlice g) (BitVec.ofNat 32 cal.run1.sig)
  let two := passes (.spareSlice g) sig
  let ok := one && two && calAgrees cal 2
  let n := (s.group g).freeSlice.val
  let s := (s.modGroup g fun x => { x with sliceTest := none, spareOk := ok, tested := ok }).testEnds h two sig
  let s := if one || two then s.calibrate h 2 g (48 + g) (s.tg g) 2 g n cal
    else
      let d := s.draw
      let ku := kindUnit (.spareSlice g) d.1
      (d.2.retireSpareSlice g).testFail h ku.1 ku.2 sig.toNat
  s.showTest h

/-- R423 and R425: a self-test ends: the on-demand one of the kind, or the background test of a spare slice. -/
def execSelftestComplete (h : Half) (e : EndedTest) (sig : W32) (s : State) : Host.Outcome State Fault Refusal :=
  match e with
  | .onDemand kind => if s.onTest h && s.get .ST_STATE h == 2 && s.get .ST_KIND h == kind then done (s.demandEnds h sig) else done s
  | .spareSlice k cal =>
    let g : Group := ⟨3 * h.val + k.val, by omega⟩
    if (s.group g).sliceTest.isSome then done (s.spareSliceEnds g cal sig) else done s

/-- R421, R422 and R433: scan is about to be enabled: secrets go, the OTP key stays locked, self-tests are aborted. -/
def State.lockKeys (s : State) : State :=
  s.each allHalves fun s h =>
    let s := (((s.zeroise h).put .REL_KEY_LOCKED h 1).put .REL_SCAN_SEEN h 1).abortTest h
    s.each h.groups State.abortSpareTest

def execTestmodeAssert (s : State) : Host.Outcome State Fault Refusal :=
  if s.testmode then done s else done ({ s with testmode := true } : State).lockKeys

/-- R422 and R589: a JTAG instruction that enables scan: secrets go and the keys lock; EXTEST holds every LASEN low. -/
def execJtagScanInstruction (extest : Bool) (s : State) : Host.Outcome State Fault Refusal :=
  done ({ s with extest := extest } : State).lockKeys

/-! ### Memories -/

/-- R551: an event of a memory group. -/
def State.perfMem (s : State) (m : MemUnit) (evt : Nat) : State := s.perf (4 * m.half.val + m.grp.val) evt

/-- The entries of the tracker of a memory group (R429); the classes of the group share it. -/
def State.trackerOf (s : State) (m : MemUnit) : List TrkE :=
  s.trackers.filter fun e => e.unit / 28 == m.half.val && e.unit % 4 == m.grp.val

/-- R436: TRK_USED of every class of a memory group. -/
def State.showTracker (s : State) (m : MemUnit) : State :=
  s.each (List.range 7) fun s c =>
    let u := 28 * m.half.val + 4 * c + m.grp.val
    s.put .ECC_TRK_USED u (s.trackers.filter fun e => e.unit == u).length

/-- R430: DATA1 of the events that name a word. -/
def wordData (arr : BitVec 10) (word : BitVec 17) : Nat := arr.toNat * 2 ^ 17 + word.toNat

/-- R429: a word is marked STICKY. -/
def State.markSticky (s : State) (m : MemUnit) (arr : BitVec 10) (word : BitVec 17) : State :=
  let u := memIdx m
  let k := 4 * m.half.val + m.grp.val
  let s := { s with sticky := s.sticky ++ [(u, arr.toNat, word.toNat)] }
  let s := ((s.incSat .ECC_STICKY_CNT u).incSat .SP_STICKY_PEND k).flag .REL_STICKY m.half
  let s := s.logRepair m.half 4 (logRow u arr.toNat word.toNat)
  s.raise m.half { sev := 1, code := 0x0707, scope := 1, id := m.half, d0 := 4 * m.cls.val + m.grp.val, d1 := wordData arr word }

/-- R427 and R429: a corrected read: counted, and told to the repeat tracker. -/
def State.correction (s : State) (m : MemUnit) (arr : BitVec 10) (word : BitVec 17) : State :=
  let u := memIdx m
  let s := (s.inc .ECC_CE_CNT u).perfMem m 0x0E
  if (u, arr.toNat, word.toNat) ∈ s.sticky then s
  else
    let mine := s.trackerOf m
    let rest := s.trackers.filter fun e => !(e.unit / 28 == m.half.val && e.unit % 4 == m.grp.val)
    let same := fun (e : TrkE) => e.unit == u && e.arr == arr.toNat && e.word == word.toNat
    match mine.find? same with
    | some e =>
      if e.done then (({ s with trackers := (mine.filter fun e => !same e) ++ rest } : State).showTracker m).markSticky m arr word
      else ({ s with trackers := e :: (mine.filter fun e => !same e) ++ rest } : State)
    | none => ({ s with trackers := (⟨u, arr.toNat, word.toNat, false⟩ :: mine.take 15) ++ rest } : State).showTracker m

def execMemoryCorrectedRead (m : MemUnit) (arr : BitVec 10) (word : BitVec 17) (s : State) : Host.Outcome State Fault Refusal :=
  if memHere m then done (s.correction m arr word) else done s

/-- R429: the tracker writes a corrected word back. -/
def execTrackerWriteBack (m : MemUnit) (arr : BitVec 10) (word : BitVec 17) (s : State) : Host.Outcome State Fault Refusal :=
  let same := fun (e : TrkE) => e.unit == memIdx m && e.arr == arr.toNat && e.word == word.toNat
  if s.trackers.any fun e => same e && !e.done then
    done (({ s with trackers := s.trackers.map fun e => if same e then { e with done := true } else e } : State).injectEcc m arr.toNat word.toNat)
  else done s

/-- R430: an uncorrectable read is counted, with its address. -/
def State.countUe (s : State) (m : MemUnit) (arr : BitVec 10) (word : BitVec 17) : State :=
  let u := memIdx m
  ((s.incSat .ECC_UE_CNT u).put .ECC_LAST_ARRAY u arr.toNat).put .ECC_LAST_WORD u word.toNat

/-- R427, R430, R436: a word is written poisoned, its data with the check bits inverted, and counted. -/
def State.poison (s : State) (m : MemUnit) (arr : BitVec 10) (word : BitVec 17) : State :=
  (s.setFaulty (memIdx m) arr.toNat word.toNat (some 2)).incSat .ECC_POISON_CNT (memIdx m)

/-- R427: what a read of a word finds: what it is known to hold, else what `r` says. -/
def State.scrubFind (s : State) (u : Nat) (r : ScrubResult) : ScrubFind :=
  match s.faultyAt u r.array.toNat r.word.toNat with
  | some k => if k = 0 then .corrected else .uncorrectable
  | none => r.find

/-- R428 and R430: the scrubber reads a word; a word that ends a lap shows its time. -/
def execScrubRead (m : MemUnit) (r : ScrubResult) (s : State) : Host.Outcome State Fault Refusal :=
  let h := MemUnit.half m
  if !(memHere m) || !s.isSet .REL_EN h || !s.running h then done s
  else
    let u := memIdx m
    let d0 := 4 * m.cls.val + m.grp.val
    let s := s.perfMem m 0x0F
    let s := match s.scrubFind u r with
      | .clean => s
      | .corrected => s.correction m r.array r.word
      | .uncorrectable =>
        let s := ((s.countUe m r.array r.word).poison m r.array r.word).flag .REL_POISON h
        s.raise h { sev := 2, code := 0x0706, scope := 1, id := h, d0 := d0, d1 := wordData r.array r.word }
    done (match r.lapEnd with
      | none => s
      | some ms =>
        let s := s.put .ECC_LAP_MS u (min ms 0xFFFF)
        if s.get .REL_LAP_LIM h < ms then
          (s.flag .REL_SCRUB_SLOW h).raise h { sev := 1, code := 0x070A, scope := 1, id := h, d0 := d0, d1 := min ms 0xFFFF }
        else s)

/-- R432: an uncorrectable word on the way to the host halts its ring. -/
def State.dmaUe (s : State) (h : Half) (q : Fin 8) : State :=
  let s := s.haltRing h q (if q.val < 4 then 2 else 3)
  (s.flag .REL_DMA_UE h).raise h { sev := 2, code := 0x0709, scope := 1, id := h, d0 := q }

/-- R430, R500, R521 and R534: an item of the pantry is absent; without its header the pantry is invalid, without the minimal dump none is held. -/
def State.losePantry (s : State) (h : Half) (a : Nat) : State :=
  let s := s.loseArea h a
  if a = 0 then (s.put .PH_VALID h 0).put .BOOT_PANTRY_VALID h 0
  else if a = 8 then (s.put .BOOT_DUMP_HELD h 0).modHalf h fun y => { y with pantryDump := none }
  else s

/-- R427 and R430: what an uncorrectable or poisoned word does to its reader, and what writes the word anew: the reload of a Kneader (log 234), the
release of a lane, whatever wrote over it. A narrow write merges its bytes and writes the word poisoned. -/
def State.readUe (s : State) (m : MemUnit) (arr : BitVec 10) (word : BitVec 17) (rd : UeReader) : State :=
  let h := m.half
  let w := (m, arr.toNat, word.toNat)
  match rd with
  | .narrowWrite => (s.rewrite [w]).poison m arr word
  | .kneaderFetch k => (s.modKnd k fun y => { y with ueWords := w :: y.ueWords }).trapKnd k 1
  | .kneaderData k => (s.modKnd k fun y => { y with ueWords := w :: y.ueWords }).trapKnd k 2
  | .slice l => ((s.modLane l fun y => { y with ueWords := w :: y.ueWords }).fenceIn (.lane l) .memUe).toIdle l
  | .sliceInactive _ => s.rewrite [w]
  | .incomingSlice g => match (s.group g).sliceRun with
    | some l => ((s.abandonSlice l).modGroup g fun x => { x with tested := false }).beginSpareTest g
    | none => s
  | .loopEngine x => if s.get .CTX_STATE x = ctxOff then s else (s.rewrite [w]).startCtx x
  | .pantry a => s.losePantry h a.val
  | .imageStore => s.rewrite [w]
  | .hostWindow off =>
    let s := (s.flag .REL_HOST_UE h).emit (.read h off.toNat 0xFFFFFFFF)
    s.raise h { sev := 2, code := 0x0708, scope := 1, id := h, d0 := off.toNat }
  | .dma q => s.dmaUe h q

def execMemoryUncorrectableRead (m : MemUnit) (arr : BitVec 10) (word : BitVec 17) (rd : UeReader) (s : State) :
    Host.Outcome State Fault Refusal :=
  if memHere m then done ((s.countUe m arr word).readUe m arr word rd) else done s

/-- R431: KD4896 rewrites the lane's slice memories, from the checkpoint where there is one that reads clean, marks the loading tables invalid
and releases its fence. -/
def execMemUeRelease (rd : CkptRead) (s : State) : Host.Outcome State Fault Refusal :=
  let l := rd.lane
  if Cause.memUe ∉ (s.lane l).fences then done s
  else
    let b : Bank := if s.isSet .EQ_CKPT_VALID l && rd.clean then (s.lane l).ckpt else
      { ffe := (List.range 48).map fun k => Fld.reset .EQ_FFE_SHADOW (48 * l.val + k)
        volt := (List.range 12).map fun k => Fld.reset .EQ_VOLT_SHADOW (12 * l.val + k)
        d1 := Fld.reset .EQ_D1_SHADOW l }
    let s := s.loadBank l b
    let s := { s with dmt := s.dmt.filter fun c => !(c.key / 4096 == l.val && c.key / 1024 % 4 ≤ 1) }
    let ws := (s.lane l).ueWords
    let s := (s.modLane l fun y => { y with ueWords := [] }).rewrite ws
    done ((s.summarise l).fenceOut (.lane l) .memUe true)

/-- R416 and R506: the new records of the repair log are copied to flash, into the two blocks alternately. -/
def execRepairLogFlashCopy (h : Half) (s : State) : Host.Outcome State Fault Refusal :=
  if s.kndOut (sysKnd h 2) then done s
  else if (s.half h).log.length = (s.half h).logFlash then done s
  else done (s.modHalf h fun y => { y with logFlash := y.log.length, logPrev := y.logFlash, logAt := 1 - y.logAt })

/-! ### Cells -/

/-- R417, R430 and R40: an SRAM array with a failing row and no spare row left. -/
def State.rowLost (s : State) (m : MemUnit) (array : Nat) : State :=
  match rowLoss m array with
  | .excluded => s.rowExhaust m array
  | .unit (.kneader k) => s.failKnd k
  | .unit (.slice l) => s.sliceFail l
  | .unit (.loopEngine g) => s.fenceIn (.group g) .loop
  | _ => s

/-- R17, R20 and R40: a cell fails. Rows are remapped only at a start (R417): a failing row of an array with a spare row left waits for it. -/
def State.cellFail (s : State) (u : CellUnit) : State :=
  match u with
  | .segment l k => s.segFail l k
  | .subAdc l n => s.sadcFail l n
  | .slice l => s.sliceFail l
  | .groupKneader g j => s.failKnd (grpKnd g j)
  | .systemKneader h j => s.failKnd (sysKnd h j)
  | .loopEngine g => s.fenceIn (.group g) .loop
  | .sramRow h grp cls array row =>
    let m : MemUnit := ⟨h, cls, grp⟩
    let r := (memIdx m, array.toNat, row.toNat)
    if !memHere m || s.badRows.contains r then s
    else
      let free := s.rowsFree (memIdx m) array.toNat
      let s := { s with badRows := r :: s.badRows }
      if free = 0 then s.rowLost m array.toNat else s
  | .portLogic p => s.fenceIn (.port p) .portLogic
  | .monitorIo g => s.fenceIn (.group g) .groupIo
  | .fabric h => s.fenceIn (.half h) .halfPower

def execCellFail (u : CellUnit) (s : State) : Host.Outcome State Fault Refusal := done (s.cellFail u)

end Sys2Proof.Machine
end

