-- ==== Sys2Proof/Machine/Bridge.lean ====
section
/-! DEFINITION. The bridge between the halves (R22, R45 to R51, R457, R463, R467, R468): heartbeats, ISLAND, promotion and rejoin, and
what arrives over the bridge. -/

namespace Sys2Proof.Machine

def bridgeJoined := 0
def bridgeIsland := 1
def bridgeRejoining := 2

/-! ### Commands of the whole device -/

/-- R46, R493, R517: commands that are device-wide whatever their scope: attestation. Firmware activation and confirm are so with
scope D, which spans both halves. -/
def Opc.deviceWide (o : Opc) : Bool :=
  match o with
  | .attOpen | .attQuote | .attCert | .attClose => true
  | _ => false

/-- ISLAND: nothing was executed. -/
def Res.island : Res := ⟨7, 0, 0, 0⟩

/-! ### Entry to ISLAND -/

/-- R46: what spans both halves and is pending ends on both with ISLAND: scheduled actions, and a device state change's command. -/
def State.cancelSpanning (s : State) : State :=
  s.each allHalves fun s h =>
    let gone := (s.half h).sched.filter fun a => reqSpans a.cmd.req
    let s := s.modHalf h fun y => { y with sched := y.sched.filter fun a => !reqSpans a.cmd.req }
    let s := (s.each gone fun s a => s.complete a.cmd .island).showPending h
    let late := (s.half h).devWait
    let s := (s.modHalf h fun y => { y with devWait := [] }).each late fun s p => s.complete p.2 .island
    match (s.half h).dev.bind (·.cmd) with
    | some c => (s.modHalf h fun y => { y with dev := y.dev.map fun d => { d with cmd := none } }).complete c .island
    | none => s

/-- R462: SNAP_END: T, HOLDOVER, the number of lane records. -/
def snapEnd (tag : W32) (t count : Nat) (holdover : Bool) : List W32 :=
  let n := BitVec.ofNat 32
  let sec := t / 1000000000
  [n (2 ^ 28 + 2 ^ 24 + 2 ^ 23 + (if holdover then 2 ^ 22 else 0)), tag, n (t % 1000000000), n sec, n (sec / 2 ^ 32), n count]
    ++ List.replicate 10 0#32

/-- A record that carries a lane of a snapshot. -/
def Tlm.laneOf (t : Tlm) (key : Nat) : Bool := t.snap == some key && !t.last && t.words.length == 32

/-- R46 and R468: snapshots that span both halves. Those not yet latched are cancelled; of those latched half A writes its own
SNAP_END, with the records that have reached it. The command ends with ISLAND. -/
def State.splitSnapshots (s : State) : State :=
  let spanning := (s.half halfA).snaps.filter fun x => reqSpans x.cmd.req
  s.each spanning fun s x =>
    let k := x.key
    let latched := allHalves.any fun h => (s.half h).snaps.any fun y => y.key == k && y.latched
    let ended := (s.half halfA).tlms.any fun t => t.snap == some k && t.last
    let lanesB := ((s.half halfB).snaps.filter fun y => y.key == k && y.latched).map (·.lanes.length) |>.sum
    let away := (s.bridge.recs.filter fun r => match r with
      | .tlm t => t.laneOf k
      | _ => false).length
    let s := if latched ∧ ¬ ended ∧ x.latched then
        s.modHalf halfA fun y =>
          { y with tlms := y.tlms ++ [⟨halfA, some k, true, snapEnd x.cmd.req.tag (x.t.getD 0) (x.lanes.length + (lanesB - away)) false⟩] }
      else s
    let s := s.each allHalves fun s h => s.modHalf h fun y => { y with snaps := y.snaps.filter fun z => z.key != k }
    (s.complete x.cmd .island).each allHalves State.showPending

/-- R46: the commands that half A forwarded end on half A with ISLAND. -/
def State.islandForwarded (s : State) : State :=
  let cs := (s.half halfA).fwd
  let s := s.modHalf halfA fun y => { y with fwd := [] }
  s.each cs fun s c => s.complete { c with exe := halfA } .island

/-- R47: the ring set-up of half B counts as programmed. -/
def State.ringsProgrammed (s : State) : Bool :=
  let w := (s.half halfB).setup
  w.contains 0x40008 && w.contains 0x4000C && (List.finRange 8).all fun q =>
    w.contains (ringOff q 0) && w.contains (ringOff q 4) && w.contains (ringOff q 8)
      && Fld.inRange .RING_SIZE_LOG2 (s.get .RING_SIZE_LOG2 (ringIdx halfB q))

/-- R468: what was on the bridge when half B split off: events and subscription records are lost and counted, snapshot records go
to half B's own ring with their SNAP_END, time-stamp records back to half B's queue, ahead of its own, where it has room (R399). -/
def State.recallRecords (s : State) : State :=
  let rs := s.bridge.recs
  let evts := (rs.filter fun r => match r with | .evt _ => true | _ => false).length
  let subs := (rs.filter fun r => match r with | .tlm t => t.snap.isNone | _ => false).length
  let snaps := rs.filterMap fun r => match r with | .tlm t => if t.snap.isSome then some t else none | _ => none
  let ts := rs.filterMap fun r => match r with | .ts x => some x | _ => none
  let keys := (snaps.filterMap (·.snap)).eraseDups
  let own := keys.flatMap fun k =>
    let mine := snaps.filter fun t => t.laneOf k
    let ends := snaps.filter fun t => t.snap == some k && t.last
    let words := match ends with
      | e :: _ => e.words
      | [] => match mine with
        | t :: _ => snapEnd (t.words.getD 1 0) (((t.words.getD 3 0).toNat + 2 ^ 32 * ((t.words.getD 4 0).toNat % 65536)) * 1000000000
            + (t.words.getD 2 0).toNat % 2 ^ 30) 0 false
        | [] => []
    mine ++ [⟨halfB, some k, true, words.set 5 (BitVec.ofNat 32 mine.length)⟩]
  let s := (s.inc .HIF_EVT_LOST halfB evts).inc .HIF_TLM_LOST halfB subs
  let room := 64 - (s.half halfB).tsq.length
  let s := s.modHalf halfB fun y => { y with tlms := own ++ y.tlms, tsq := ts.take room ++ y.tsq }
  let s := s.each (ts.drop room) fun s r => s.pushRecord halfB r
  (s.put .TIME_TSQ_FILL halfB (s.half halfB).tsq.length).modBridge fun b => { b with recs := [] }

/-- R46 and R468: half B promotes itself, or finds its rings unprogrammed. -/
def State.promote (s : State) : State :=
  let sent := s.bridge.cpls
  let s := s.recallRecords.modBridge fun b => { b with cmds := [], cpls := [] }
  if ¬ s.ringsProgrammed then s.hifFlag halfB .HIF_NO_RINGS
  else
    let s := (s.modHalf halfB fun y => { y with promoted := true }).put .BR_ROLE halfB 1
    let s := (s.put .HIF_RUN halfB 1).each (List.finRange 8) fun s q => s.enableRing halfB q
    let s := (s.settleRings halfB).dirty halfB
    let s := s.raise halfB { sev := 1, code := 0x0103, scope := 1, id := 1 }
    s.each sent fun s c => s.raise halfB c.fwdExecuted

/-- R45, R46, R50: a half enters ISLAND. -/
def State.enterIsland (s : State) (h : Half) : State :=
  if s.get .BR_STATE h = bridgeIsland then s
  else
    let s := ((s.put .BR_STATE h bridgeIsland).incSat .BR_ISLAND_CNT h).dirty h
    let s := s.modHalf h fun y => { y with good := 0 }
    let s := s.modHalf halfB fun y => { y with rejoinSlew := false, rejoinStepAt := none, remain := if y.rejoinSlew then 0 else y.remain }
    let s := s.splitSnapshots.cancelSpanning
    if h = halfA then s.islandForwarded else s.holdoverB.promote

/-! ### Rejoin -/

/-- R48 and R468: half B stops fetching and demotes; its final status block follows. -/
def State.demote (s : State) : State :=
  let s := s.dirty halfB
  let n := ((List.finRange 4).map fun q => (s.ring halfB (cmdRing q)).reads.length).sum
  let s := s.each (List.finRange 4) fun s q => s.modRing halfB (cmdRing q) fun r => { r with reads := [] }
  let s := s.modHalf halfB fun y => { y with promoted := false, reserved := y.reserved - n }
  (s.put .BR_ROLE halfB 0).endDrain halfB

/-- R48: rejoin begins: half A's settings reach half B (its ADDEND and slew rate), half B demotes, and its time is reconciled: by
a slew for 1 µs or less, else by a step at the first whole second of half A at least 100 ms ahead. -/
def State.rejoinHalves (s : State) : State :=
  let s := (s.put .BR_STATE halfA bridgeRejoining).put .BR_STATE halfB bridgeRejoining
  let s := s.each allHalves fun s h => s.modHalf h fun y => { y with good := 0 }
  let s := (s.put .TIME_RATE halfB (s.get .TIME_RATE halfA)).put .TIME_ADDEND halfB (s.get .TIME_ADDEND halfA)
  let a := (s.half halfA).addend
  let s := s.modHalf halfB fun y => { y with addend := a, corr := 0, corrs := [] }
  let s := (s.dirty halfA).demote
  let off := s.getS .TIME_B_OFFSET halfB
  let s := s.modHalf halfB fun y => { y with rejoinOffset := off }
  if off = 0 then s.finishRejoin false
  else if off.natAbs ≤ 16000 then s.modHalf halfB fun y => { y with remain := -off * 2 ^ 24, rejoinSlew := true }
  else s.modHalf halfB fun y => { y with rejoinStepAt := some ((s.now halfA + 100000000 + 999999999) / 1000000000) }

/-- R48: with an offset above 1 µs half B steps at the second chosen. -/
def execRejoinTimeStep (s : State) : Host.Outcome State Fault Refusal :=
  match (s.half halfB).rejoinStepAt with
  | none => done s
  | some t =>
    if (s.half halfA).sec < t then done s
    else
      let a := s.half halfA
      let s := (s.stepTo halfB a.sec a.ns).modHalf halfB fun y => { y with frac := a.frac }
      done (s.finishRejoin true)

/-! ### Heartbeats -/

/-- R45: the management plane of the half runs, so it sends heartbeats. -/
def State.beats (s : State) (h : Half) : Bool :=
  s.running h && s.get .BOOT_STATE h == bootRun && (s.half h).fences.isEmpty && !(s.half h).off

def execHeartbeatSend (h : Half) (s : State) : Host.Outcome State Fault Refusal :=
  if !s.beats h then done s
  else
    let y := s.half h
    done (s.emit (.heartbeat h (s.get .BR_STATE h) (if h = halfA then some (y.sec, y.ns, y.frac) else none)))

/-- R45, R48, R50, R385: a heartbeat arrives. -/
def State.heartbeat (s : State) (h : Half) (b : Heartbeat) : State :=
  let s := (s.put .BR_MISSED h 0).modHalf h fun y => { y with heard := true, windowAt := y.ticks }
  if !b.good then s.modHalf h fun y => { y with good := 0 }
  else
    let st := s.get .BR_STATE h
    if st = bridgeJoined then
      if b.state = 1 then s.enterIsland h
      else if h = halfB then s.servo b.offset16 else s
    else
      let s := if h = halfB then s.putS .TIME_B_OFFSET halfB (clampInt (-(2 ^ 31)) (2 ^ 31 - 1) b.offset16) else s
      if st = bridgeRejoining then (if b.state = 1 then s.enterIsland h else s)
      else
        let s := s.modHalf h fun y => { y with good := min 1000 (y.good + 1) }
        if 1000 ≤ (s.half halfA).good ∧ 1000 ≤ (s.half halfB).good ∧ s.get .BR_STATE (otherHalf h) = bridgeIsland then s.rejoinHalves else s

def execHeartbeatReceive (h : Half) (beat : Heartbeat) (s : State) : Host.Outcome State Fault Refusal :=
  if s.managing h then done (s.heartbeat h beat) else done s

/-- R45: a window of 10 µs without a heartbeat: the eighth in a row is the entry to ISLAND. -/
def execHeartbeatWindowExpiry (h : Half) (s : State) : Host.Outcome State Fault Refusal :=
  if !s.managing h || !(s.half h).heard || s.ticks h < (s.half h).windowAt + 2500 then done s
  else
    let n := min 8 (s.get .BR_MISSED h + 1)
    let s := (s.put .BR_MISSED h n).modHalf h fun y => { y with good := 0, windowAt := y.ticks }
    done (if n = 8 then s.enterIsland h else s)

/-- R499: no heartbeat within 1 s of release. -/
def execReleaseHeartbeatTimeout (h : Half) (s : State) : Host.Outcome State Fault Refusal :=
  if !s.managing h || (s.half h).heard || s.ticks h < (s.half h).releasedAt + msTicks 1000 then done s else done ((s.put .BR_MISSED h 8).enterIsland h)

/-! ### Arrivals -/

/-- R455 and R457: a completion from half B reaches half A; one that half A has answered already is dropped. -/
def execBridgeCompletionReceive (s : State) : Host.Outcome State Fault Refusal :=
  match s.bridge.cpls with
  | [] => done s
  | c :: rest =>
    let s := (s.modBridge fun b => { b with cpls := rest }).perfHalf halfA 0x0C
    let mine := fun (k : Cmd) => k.req.tag == c.tag && k.req.ring == c.ring && k.req.index == c.index
    if (s.half halfA).fwd.any mine then
      let s := s.modHalf halfA fun y => { y with fwd := y.fwd.eraseP mine, cpls := y.cpls ++ [c] }
      done (s.freeRing halfA c.ring)
    else done s

/-- R460, R463 and R398: a record from half B reaches half A. -/
def execBridgeRecordReceive (s : State) : Host.Outcome State Fault Refusal :=
  match s.bridge.recs with
  | [] => done s
  | r :: rest =>
    if s.get .BR_STATE halfA = bridgeIsland then done s
    else
      let s := (s.modBridge fun b => { b with recs := rest }).perfHalf halfA 0x0C
      done (match r with
        | .evt e => s.modHalf halfA fun y => { y with evts := y.evts ++ [e] }
        | .tlm t => s.modHalf halfA fun y => { y with tlms := y.tlms ++ [t] }
        | .ts x => s.pushRecord halfA x)

end Sys2Proof.Machine
end

