-- ==== Sys2Proof/Machine/Records.lean ====
section
/-! DEFINITION. Telemetry records (R35, R462, R548) and the snapshots that post them (R35 to R38). -/

namespace Sys2Proof.Machine

/-! ### Optical powers -/

/-- The largest k below `lo + 2^fuel` with 1,000 × log10(a / b) ≥ k − 1/2; `lo` where none is. -/
def centiSearch (a b : Nat) (lo : Int) : Nat → Int
  | 0 => lo
  | n + 1 =>
    let mid := lo + 2 ^ n
    centiSearch a b (if dbGe a b (2 * mid - 1) 200 then mid else lo) n

/-- 1,000 × log10(a / b) to the nearest whole number, between −8,192 and 8,191. -/
def centi (a b : Nat) : Int := centiSearch a b (-8192) 14

/-- R548: the entry that a power of a lane is read from, none where it is set to none. -/
def State.powerEntry (s : State) (l : Lane) (f : Fld) : Option EntryN :=
  let e := s.get f l
  if e = 0x1FF then none else some ⟨256 * l.half.val + e % 256, by have := l.half.isLt; omega⟩

/-- R548: the input of an entry measures a current and its latest result can be used. -/
def State.powerUsable (s : State) (n : EntryN) : Bool :=
  let i := s.get .ENT_INPUT n
  i < 104 && s.isSet .MIN_TYPE (minIdx n.half i) && !s.isSet .ENT_ORNG n && !s.isSet .ENT_SUSPECT n && !s.isSet .ENT_TESTED n
    && s.isSet .ENT_SETTLED n && s.get .ENT_CODE n != 0

/-- R548: a power field in 0.01 dB relative to 1 mW: I = CODE × 31.25 µV / RS and P = I / RESP with RESP in 0.1 µA/mW, so P in mW is
CODE × 5 / (16 × RS in kΩ × RESP); 0x8000 when it is not measured. -/
def State.opticalPower (s : State) (l : Lane) (entry resp ofs : Fld) : Nat :=
  match s.powerEntry l entry with
  | none => 0x8000
  | some n =>
    if s.powerUsable n then
      let ohm := senseKohm (s.get .MIN_SENSE (minIdx n.half (s.get .ENT_INPUT n)))
      let p := centi (s.get .ENT_CODE n * 5) (16 * ohm * s.get resp l)
      ofSigned 16 (clampInt (-32767) 32767 (p + s.getS ofs l))
    else 0x8000

/-- The age in µs of what was formed at a tick, which is held as one more; 0 is never. -/
def ageOf (now at' : Nat) : Nat := if at' = 0 then 0xFFFF else min 0xFFFF ((now + 1 - at') * 4 / 1000)

/-- R548 and R462: AGE_OPT: the age of the older of the results used. -/
def State.opticalAge (s : State) (l : Lane) : Nat :=
  let es := [Fld.TLM_TX_ENTRY, .TLM_RX_ENTRY].filterMap (s.powerEntry l)
  if es.isEmpty then 0xFFFF
  else (es.map fun (n : EntryN) => ageOf (s.ticks l.half) (s.resultAt.get n)).foldl max 0

/-! ### Records -/

/-- R279 and R462 word 20: the error of the lane's ring-lock context; where there are several the lowest of those enabled, else the lowest. -/
def State.ringErr (s : State) (l : Lane) : Nat :=
  let xs := (Group.ctxs l.group).filter fun x => s.app .CTX_TYPE x == 0 && s.app .CTX_LANE x == l.val % 8
  match (xs.find? fun x => s.app .CTX_EN x == 1).orElse fun _ => xs.head? with
  | some x => s.get .CTX_E_NOW x
  | none => 0

/-- The low and the high word of a 64-bit counter. -/
def pair (v : Nat) : List W32 := [BitVec.ofNat 32 v, BitVec.ofNat 32 (v / 2 ^ 32)]

/-- R462: the 32 words of a lane record: SRC, ID, T in ns. -/
def State.laneRecord (s : State) (l : Lane) (snap : Bool) (id : W32) (t : Nat) : List W32 :=
  let n := BitVec.ofNat 32
  let sec := t / 1000000000
  let bit := fun (b : Bool) (k : Nat) => if b then 2 ^ k else 0
  let mode := s.lmode l
  let dmt := fun (v : Nat) => if mode = 3 then v else 0
  let c := fun (f : Fld) (d : Nat) => pair (s.get f (l.val * 2 + d))
  [n (2 * 2 ^ 24 + bit snap 23 + bit (s.half l.half).holdover 22 + l.val * 2 ^ 16), id, n (t % 1000000000), n sec,
    n (s.get .ACQ_STATE l * 2 ^ 28 + s.get .EQ_EFFORT l * 2 ^ 26 + mode * 2 ^ 24 + s.app .FEC_FEC_MODE l * 2 ^ 23
      + bit (s.laneFenced l) 22 + s.get .FEC_LAT_VALID l * 2 ^ 21 + s.get .FEC_CW_LOCK l * 2 ^ 20 + s.get .FE_SIG_DET l * 2 ^ 19
      + s.get .EQ_LOCK l * 2 ^ 18 + sec / 2 ^ 32 % 2 ^ 16)]
    ++ c .FECS_CW 0 ++ c .FECS_SYM_ERR 0 ++ c .FECS_BIT_ERR 0 ++ c .FECS_CORR_CW 0 ++ c .FECS_UNCORR_CW 0
    ++ [n (ageOf (s.ticks l.half) (s.lane l).eqAt * 2 ^ 16 + s.opticalAge l),
      n (3 * 2 ^ 28),
      n (s.get .EQ_SNR l * 2 ^ 22 + s.get .EQ_VALID l * 2 ^ 21 + s.get .EQ_EYE_HI l * 2 ^ 14 + s.get .EQ_EYE_MID l * 2 ^ 7
        + s.get .EQ_EYE_LO l),
      n (s.get .FEC_PM_MARGIN l * 2 ^ 16),
      n (s.opticalPower l .TLM_RX_ENTRY .TLM_RX_RESP .TLM_RX_OFS * 2 ^ 16 + s.opticalPower l .TLM_TX_ENTRY .TLM_TX_RESP .TLM_TX_OFS),
      n (s.ringErr l),
      n (dmt (s.get .DMT_LOADED l * 2 ^ 22 + s.get .DMT_MIN_MARGIN l * 2 ^ 14 + s.get .DMT_MEAN_MARGIN l * 2 ^ 6
        + s.get .DMT_TX_ACT l * 2 ^ 5 + s.get .DMT_RX_ACT l * 2 ^ 4)),
      n (dmt (s.get .DMT_MIN_TONE l * 2 ^ 22 + s.get .DMT_SWAP_CNT l)),
      n (s.get .FEC_RX_LAT l * 2 ^ 16 + s.get .FEC_TX_LAT l)]
    ++ c .FECS_CW 1 ++ c .FECS_CORR_CW 1 ++ c .FECS_UNCORR_CW 1 ++ c .FECS_SYM_ERR 1

/-- R463 and R547: a record goes to the half's own ring, or over the bridge while half B is not promoted. -/
def State.postTlm (s : State) (h : Half) (t : Tlm) : State :=
  if s.manages h then s.modHalf h fun y => { y with tlms := y.tlms ++ [t] }
  else (s.perfHalf h 0x0B).modBridge fun b => { b with recs := b.recs ++ [.tlm t] }

/-- R35, R545: one lane record each for lanes of a half, in the order given. -/
def State.postLanes (s : State) (h : Half) (ls : List Lane) (snap : Option Nat) (id : W32) (t : Nat) : State :=
  s.each ls fun s l =>
    let w := s.laneRecord l snap.isSome id t
    (s.postTlm h ⟨h, snap, false, w⟩).modLane l fun x => { x with lastTlm := w }

/-! ### Snapshots -/

/-- The parts of a snapshot on both halves. -/
def State.snapParts (s : State) (key : Nat) : List Snap :=
  ((s.half halfA).snaps ++ (s.half halfB).snaps).filter fun x => x.key == key

/-- R463: once every part has latched, SNAP_END follows the last lane record: behind half B's records where half B has a part and
does not manage itself. -/
def State.postSnapEnd (s : State) (x : Snap) (t : Nat) : State :=
  let ps := s.snapParts x.key
  if ps.all (·.latched) then
    let h := if ps.any fun p => p.half == halfB then halfB else x.half
    s.postTlm h ⟨h, some x.key, true, snapEnd x.cmd.req.tag t (ps.map (·.lanes.length)).sum (s.half h).holdover⟩
  else s

/-- R36: the one instant T of a snapshot on both halves: as its command gave it, else as its first part latched; else now. -/
def State.snapTime (s : State) (h : Half) (x : Snap) : Nat := ((s.snapParts x.key).findSome? (·.t)).getD (s.now h)

/-- R36: a part of a snapshot latches. -/
def State.latchSnap (s : State) (h : Half) (x : Snap) : State :=
  let t := s.snapTime h x
  let s := s.each allHalves fun s k => s.modHalf k fun y => { y with
    snaps := y.snaps.map fun z => if z.key = x.key then { z with latched := z.latched || k == h, t := some t } else z }
  (s.postLanes h x.lanes (some x.key) x.cmd.req.tag t).postSnapEnd x t

/-- R36 and R403: a snapshot is due: its tick has come, and with it its scheduled T, to ±4 ns. -/
def State.snapDue (s : State) (h : Half) (x : Snap) : Bool := !x.latched && decide (x.due ≤ s.ticks h) && (!s.snapOpen x || x.t.all fun t => decide (t ≤ s.now h + 4))

/-- R36: the snapshots of a half that are due latch. -/
def State.latchDue (s : State) (h : Half) : State := s.each ((s.half h).snaps.filter (s.snapDue h)) fun s x => s.latchSnap h x

/-- R36: the instant T of the half's snapshots that are due. -/
def execSnapshotLatch (h : Half) (s : State) : Host.Outcome State Fault Refusal := done (s.latchDue h)

end Sys2Proof.Machine
end

