-- ==== Sys2Proof/Machine/Boundary.lean ====
section
/-! DEFINITION. What takes place at the boundaries of R28 beside a commit: the swap of a coefficient bank, an effort change, a checkpoint revert, the
switch of a bit-swap, a counter clear (R100, R103, R111, R112, R119, R160, R196). -/

namespace Sys2Proof.Machine

/-- R37 and R119: what is due at one instant: snapshots latch before anything changes. -/
def State.latchAll (s : State) : State := s.each allHalves State.latchDue

/-- R100, R119 and R200: the Kneader's update is swapped in at the boundary; a snapshot due there reports the bank before it. One of the per-tone equaliser
gives way to a bit-swap at the same symbol, which discards it (R196). -/
def execCoeffBankSwap (l : Lane) (s : State) : Host.Outcome State Fault Refusal :=
  if ((s.lane l).swap.isSome ∨ (s.lane l).feq ≠ []) ∧ ¬ (s.lmode l = 3 ∧ s.swapNow l) then done (s.latchAll.swapBanks l) else done s

/-- R111 and R112: an effort change that waits takes effect at the boundary. -/
def execEffortChangeApply (l : Lane) (s : State) : Host.Outcome State Fault Refusal :=
  if (s.lane l).effortDue then done (s.latchAll.applyEffort l) else done s

/-- R103: a revert that is due swaps the checkpoint in; LM400D has none (R92). -/
def execCheckpointRevert (l : Lane) (s : State) : Host.Outcome State Fault Refusal :=
  if (s.lane l).revertDue && s.lmode l != 3 then done (s.latchAll.revert l) else done s

/-- R196, R198 and R200: the RE decides at S, from the symbols S − 8 to S − 1; not before. A snapshot due there reports the old tables. -/
def execBitswapRxDecide (l : Lane) (syms : List DmtSymbol) (s : State) : Host.Outcome State Fault Refusal :=
  match (s.lane l).rxSwap with
  | none => done s
  | some w =>
    if !w.sent || 0 < idxAhead w.s (s.symIdx l) then done s
    else
      let s := s.latchAll
      let n := s.invertedPilots l (w.s + 2 ^ 32 - 1) (syms.take 8)
      done (if 5 ≤ n || (n == 4 && w.acked) then s.rxSwitch l w else s.swapFail l 0x25)

/-- R195 step 5 and R200: the TE switches to the new copy at S, not before. A snapshot due there reports the old tables. -/
def execBitswapTxSwitch (l : Lane) (s : State) : Host.Outcome State Fault Refusal :=
  match (s.lane l).txSwap with
  | none => done s
  | some w =>
    if 0 < idxAhead w.1 (s.txIdx l) then done s
    else
      let s := (s.latchAll.abandonHandover l).abandonSlice l
      let s := (s.put .DMT_TX_ACT l (1 - s.get .DMT_TX_ACT l)).modLane l fun x => { x with txSwap := none }
      done ((((s.flag .DMT_SWAP_TX l).put .DMT_LAST_TX l w.1).inc .DMT_SWAP_CNT l).put .DMT_PEND_TX l 0)

/-- R160: the codeword boundary at which a clear takes place; a snapshot due there reports the counts before it. -/
def execFecCounterClear (l : Lane) (s : State) : Host.Outcome State Fault Refusal :=
  if (s.lane l).clear then done (s.latchAll.clearCounters l) else done s

end Sys2Proof.Machine
end

