-- ==== Sys2Proof/Machine/Hosts.lean ====
section
/-! DEFINITION. Host lanes (R226 to R246): the stages DETECT, TRAIN, LOCK, CAP and ACTIVE, and skew over its limit (R225). -/

namespace Sys2Proof.Machine

/-- R244: the taps c−3, c−2, c−1 and c+1 of HST_TXEQ as applied, in 1/64. -/
def State.txeq (s : State) (x : HLane) : List Int :=
  [Fld.HST_CM3, .HST_CM2, .HST_CM1, .HST_CP1].map fun f => toSigned 6 (s.app f x)

/-- R234: the sum of the magnitudes of the taps other than c0. -/
def tapSum (t : List Int) : Nat := (t.map Int.natAbs).sum

/-- R234 and R245: the transmit FIR in use; TX_C0 shows its main tap. -/
def State.useTaps (s : State) (x : HLane) (t : List Int) : State :=
  (s.modHlane x fun y => { y with tap := t }).put .HST_TX_C0 x (32 - tapSum t)

/-- R452: the events of a host lane name its port. -/
def State.hostEvent (s : State) (x : HLane) (sev code d1 : Nat) : State :=
  match s.hportOf x with
  | some p => s.raise x.group.half { sev := sev, code := code, scope := 3, id := p, d0 := x, d1 := d1 }
  | none => s

/-- R227 and R233: the probe step of DETECT, every 1 ms with DET_EN = 1. -/
def execHostDetectProbe (x : HLane) (s : State) : Host.Outcome State Fault Refusal :=
  if s.get .HST_STAGE x = hsDetect ∧ s.appSet .HST_DET_EN x ∧ s.hostRuns x then done (s.emit (.hostProbe x)) else done s

/-- R227: the time from the entry of a host lane to its stage has passed. -/
def State.stageOver (s : State) (x : HLane) (ms : Nat) : Bool := (s.hlane x).since + msTicks ms ≤ s.ticks x.group.half

/-- R227: the stage of a host lane starts anew. -/
def State.restartStage (s : State) (x : HLane) : State := s.modHlane x fun y => { y with since := s.ticks x.group.half }

/-- R227: DETECT completes, unless LOCK_FAIL holds the lane in it: with DET_EN = 1 no earlier than 1 ms after entry. TRAIN or LOCK follows, from the taps
of HST_TXEQ (R244). -/
def execHostDetectComplete (x : HLane) (s : State) : Host.Outcome State Fault Refusal :=
  if s.get .HST_STAGE x = hsDetect ∧ s.hostRuns x ∧ ¬ s.isSet .HST_LOCK_FAIL x ∧ ¬ s.fiHost x 2
      ∧ (s.appSet .HST_DET_EN x → s.stageOver x 1) then
    let s := (s.putBool .HST_DET x (s.appSet .HST_DET_EN x)).useTaps x (s.txeq x)
    done (s.setStage x (if s.appSet .HST_TRAIN_EN x then hsTrain else hsLock))
  else done s

/-- R228: the training frame that a lane sends: its request on a far coefficient, the limit reached, receiver ready. -/
def State.sendTraining (s : State) (x : HLane) (limit : Bool) : State :=
  let d := s.draw
  let s := d.2
  let ready := (s.hlane x).ready || Config.hostReady d.1
  let want := if ready then none else Config.coeffWish d.1
  let s := s.modHlane x fun y => { y with ready := ready }
  if s.hostTx x = .training then
    (s.emit (.hostFrame x limit want ready)).emitHost x (Config.trainingFrame x want limit ready)
  else s

/-- R228 and R234: a training frame: the far end's request moves a tap, unless c0 would fall below 0.5 or the tap leaves its range; the answer
reports the limit and carries the lane's own request and status. -/
def execHostTrainingFrameReceive (x : HLane) (fr : HostFrame) (s : State) : Host.Outcome State Fault Refusal :=
  if s.get .HST_STAGE x ≠ hsTrain ∨ ¬ s.hostRuns x then done s
  else
    let t := (s.hlane x).tap
    let v := t.getD fr.tap 0 + fr.delta
    let t' := t.set fr.tap v
    let ok := -32 ≤ v && v ≤ 31 && tapSum t' ≤ 32
    let s := s.modHlane x fun y => { y with farReady := fr.ready }
    done ((if ok then s.useTaps x t' else s).sendTraining x !ok)

/-- R228: training completes: the own receiver is ready and the far end has reported its own ready. -/
def execHostTrainComplete (x : HLane) (s : State) : Host.Outcome State Fault Refusal :=
  if s.get .HST_STAGE x = hsTrain ∧ s.hostRuns x ∧ (s.hlane x).ready ∧ (s.hlane x).farReady then
    let s := (s.inc .HST_TRAIN_CNT x).put .HST_TRAIN_FALLBACK x 0
    done ((s.modHlane x fun y => { y with trainFails := 0 }).setStage x hsLock)
  else done s

/-- R227 and R229: TRAIN_TO elapses: training restarts; after the third timeout in a row the lane falls back. -/
def execHostTrainTimeout (x : HLane) (s : State) : Host.Outcome State Fault Refusal :=
  if s.get .HST_STAGE x ≠ hsTrain ∨ ¬ s.hostRuns x ∨ ¬ s.stageOver x (100 * s.app .HST_TRAIN_TO x) then done s
  else
    let n := (s.hlane x).trainFails + 1
    let s := (s.flag .HST_TRAIN_TO_EVT x).useTaps x (s.txeq x)
    let s := s.modHlane x fun y => { y with ready := false, farReady := false }
    if n < 3 then done ((s.modHlane x fun y => { y with trainFails := n }).restartStage x)
    else
      let s := (s.modHlane x fun y => { y with trainFails := 0 }).put .HST_TRAIN_FALLBACK x 1
      done ((s.hostEvent x 2 0x020A 0).setStage x hsLock)

/-- R234: the greatest CTLE peaking by host mode, in 0.5 dB. -/
def ctleMax (hmode : Nat) : Nat := if hmode = 0 then 24 else if hmode = 1 then 32 else 40

/-- R234: the taps of a host receiver by host mode: FFE and DFE. They adapt in LOCK, CAP and ACTIVE, and software sees nothing of them. -/
def hostTaps (hmode : Nat) : Nat × Nat := (if hmode = 0 then 8 else if hmode = 1 then 16 else 24, 1)

/-- R230 and R245: bit lock is held, and the SNR is measured over 100 µs: at 14.0 dB or more symbol lock is held too, and a lane in LOCK enters
CAP. -/
def execHostLockComplete (m : HostLock) (s : State) : Host.Outcome State Fault Refusal :=
  let x := m.lane
  if s.get .HST_STAGE x < hsLock ∨ ¬ s.hostRuns x then done s
  else
    let d := s.draw
    let s := ((d.2.put .HST_BIT_LOCK x 1).put .HST_SNR x m.snr.toNat).put .HST_CTLE x (Config.ctle d.1 % (ctleMax (s.hmode x) + 1))
    if m.snr.toNat < 140 then done s
    else
      let s := s.put .HST_SYM_LOCK x 1
      done (if s.get .HST_STAGE x = hsLock then (s.modHlane x fun y => { y with lockFails := 0 }).setStage x hsCap else s)

/-- R227: 20 ms of LOCK: back to DETECT; after three in a row the lane stays there with LOCK_FAIL and one WARN event. -/
def execHostLockTimeout (x : HLane) (s : State) : Host.Outcome State Fault Refusal :=
  if s.get .HST_STAGE x ≠ hsLock ∨ ¬ s.hostRuns x ∨ ¬ s.stageOver x 20 then done s
  else
    let n := (s.hlane x).lockFails + 1
    if n < 3 then done ((s.modHlane x fun y => { y with lockFails := n }).setStage x hsDetect)
    else
      let s := ((s.modHlane x fun y => { y with lockFails := 0 }).setStage x hsDetect).put .HST_LOCK_FAIL x 1
      done (s.hostEvent x 2 0x0209 0)

/-- R218 and R231: the markers found on a host lane are those of the port's applied formation: its rate, as many PCS lanes as the rate places on a
host lane, each an identity of the rate and found on no other host lane of the port. -/
def State.markersOk (s : State) (p : Lane) (x : HLane) (rate : Nat) (pcs : List Nat) : Bool :=
  let xs := s.portHlanes p
  rate == s.app .PORT_RATE p && pcs.length * xs.length == pcsLanes rate && decide pcs.Nodup
    && pcs.all fun k => k < pcsLanes rate && (xs.filter (· != x)).all fun y => !(s.hlane y).pcs.contains k

/-- R231: marker lock is held on a host lane in CAP: with the committed format the lane enters ACTIVE and the host skew of the port is measured (R223);
with another format CAP_MISMATCH sets. -/
def execHostCapComplete (x : HLane) (m : HostMarkers) (s : State) : Host.Outcome State Fault Refusal :=
  if s.get .HST_STAGE x ≠ hsCap ∨ ¬ s.hostRuns x then done s
  else match s.hportOf x with
    | none => done s
    | some p =>
      if s.markersOk p x m.rate m.pcs then
        let s := ((s.modHlane x fun y => { y with pcs := m.pcs }).put .HST_AM_LOCK x 1).setStage x hsActive
        done (s.put .PORT_HOST_SKEW p m.skew.toNat)
      else done (s.flag .HST_CAP_MISMATCH x)

/-- R227: 10 ms of CAP: CAP_MISMATCH sets and CAP restarts. -/
def execHostCapTimeout (x : HLane) (s : State) : Host.Outcome State Fault Refusal :=
  if s.get .HST_STAGE x = hsCap ∧ s.hostRuns x ∧ s.stageOver x 10 then done ((s.flag .HST_CAP_MISMATCH x).restartStage x) else done s

/-- R225 and R231: marker lock ends and the lane returns to CAP. -/
def State.loseMarkers (s : State) (x : HLane) : State :=
  ((s.put .HST_AM_LOCK x 0).modHlane x fun y => { y with pcs := [] }).setStage x hsCap

/-- R231: marker lock is lost in ACTIVE: CAP. -/
def execHostMarkerLockLoss (x : HLane) (s : State) : Host.Outcome State Fault Refusal :=
  if s.get .HST_STAGE x = hsActive ∧ s.hostRuns x then done (s.loseMarkers x) else done s

/-- R230 and R232: loss of signal or of bit lock from LOCK on: BIT_LOCK falls. In ACTIVE the lane returns to LOCK, or to DETECT with RETRAIN = 1; counted,
with one NOTICE event. DESIGN CHOICE: in LOCK and CAP, of which R232 does not speak, the stage stays until its timeout (log 220). -/
def State.hostLoss (s : State) (x : HLane) (lossOfSignal : Bool) : State :=
  if s.get .HST_STAGE x < hsLock ∨ ¬ s.hostRuns x then s
  else
    let s := s.put .HST_BIT_LOCK x 0
    let s := if lossOfSignal then s.put .HST_DET x 0 else s
    if s.get .HST_STAGE x ≠ hsActive then s
    else
    let s := ((s.put .HST_SYM_LOCK x 0).put .HST_AM_LOCK x 0).modHlane x fun y => { y with pcs := [] }
    let s := (s.flag .HST_DROP x).incSat .HST_DROP_CNT x
    let s := s.hostEvent x 1 0x020B (s.get .HST_DROP_CNT x)
    s.setStage x (if s.appSet .HST_RETRAIN x then hsDetect else hsLock)

/-- R230 and R232: a host lane loses its signal, bit lock, or symbol lock, which falls below 12.0 dB and moves no stage. -/
def execHostActiveLoss (x : HLane) (loss : HostLoss) (s : State) : Host.Outcome State Fault Refusal :=
  match loss with
  | .signal => done (s.hostLoss x true)
  | .bitLock => done (s.hostLoss x false)
  | .symbolLock snr =>
    if snr < 120 ∧ hsLock ≤ s.get .HST_STAGE x ∧ s.hostRuns x then done ((s.put .HST_SYM_LOCK x 0).put .HST_SNR x snr) else done s

/-- R3: the BAR0 offset of HST_CTRL of a host lane. -/
def hstOff (x : HLane) : Nat := 0x10000 * (1 + x.val % 48 / 16) + 0x8000 + 0x80 * (x.val % 16)

/-- R243: a write of HST_CTRL; a write of 1 to EN clears LOCK_FAIL. -/
def State.hostEnWrite (s : State) (x : HLane) (v : W32) : State :=
  let s := s.writeWord x.group.half (hstOff x) v.toNat
  if v.getLsbD 0 then s.put .HST_LOCK_FAIL x 0 else s

def execHostEnWrite (x : HLane) (v : W32) (s : State) : Host.Outcome State Fault Refusal :=
  done (s.hostWrite x.group.half fun s => s.hostEnWrite x v)

/-! ### Skew -/

/-- R223 and R225: the skew of a side is over its limit, in 0.125 ns: 20 ns on the host side, 64 ns on the line side, or ±2 ns of
change after the side is UP. -/
def State.skewOver (s : State) (p : Lane) (line : Bool) (skew : Nat) : Bool :=
  let now := if line then s.get .PORT_LINE_SKEW p else s.get .PORT_HOST_SKEW p
  let up := if line then s.isSet .PORT_LINE_UP p else s.isSet .PORT_HOST_UP p
  (if line then 512 else 160) < skew || (up && 16 < ((skew : Int) - now).natAbs)

/-- R225 and R240: SKEW_OVR of a side with one WARN event. DESIGN CHOICE: HOST_SKEW and LINE_SKEW stop at the end of their fields, 255 and 1,023, for a
skew beyond them (log 221); the host lanes return to CAP, or the line lanes leave DATA. -/
def execSkewOvr (p : Lane) (line : Bool) (skew : Nat) (s : State) : Host.Outcome State Fault Refusal :=
  if (if line then s.portLanes p == [] else s.portHlanes p == []) || !s.skewOver p line skew then done s
  else
    let s := (s.flag (if line then .PORT_SKEW_OVR_LINE else .PORT_SKEW_OVR_HOST) p).raise p.half
      { sev := 2, code := 0x0208, scope := 3, id := p, d0 := if line then 1 else 0, d1 := skew }
    if line then
      let s := s.put .PORT_LINE_SKEW p (min skew 1023)
      done (s.each (s.portLanes p) fun s l => s.leaveData l 4)
    else
      let s := s.put .PORT_HOST_SKEW p (min skew 255)
      done (s.each (s.portHlanes p) fun s x =>
        if s.get .HST_STAGE x = hsActive then s.loseMarkers x else s)

end Sys2Proof.Machine
end

