-- ==== Sys2Proof/Machine/Commit.lean ====
section
/-! DEFINITION. Commit (R27 to R34, R58, R102, R215 to R217, R237, R238, R278, R303, R310, R311, R389): the affected set, the checks in their
order, and the application at the boundaries of R28. -/

namespace Sys2Proof.Machine

/-! ### The affected set -/

/-- The BAR0 offset of the register of a shadow field (R480). -/
def Fld.bar0 (f : Fld) (i : Nat) : Nat :=
  let x := f.info
  let n := i / max 1 x.subs
  let grp := fun (g : Nat) => 0x10000 * (1 + g % 3)
  let lane := fun (base stride : Nat) => grp (n / 8) + base + stride * (n % 8)
  let base := match x.blk with
    | .FE => lane 0x2000 0x40
    | .ACQ => lane 0x3000 0x80
    | .EQ => lane 0x4000 0x200
    | .FEC => lane 0x6000 0x100
    | .DMT => lane 0x7000 0x100
    | .LS => lane 0xD000 0x20
    | .PORT => lane 0x200 0x10
    | .HST => grp (n / 16) + 0x8000 + 0x80 * (n % 16)
    | .CTX => grp (n / 32) + 0xA000 + 0x100 * (n % 32)
    | .SROT => grp n + 0x80
    | .TSP => 0x60100 + 0x10 * (n % 24)
    | _ => 0
  base + x.off + x.stride * (i % max 1 x.subs)

/-- R27, R238, R278: what a commit names: lanes, port slots, groups. -/
structure Affected where
  lanes : List Lane
  slots : List Lane
  groups : List Group
  deriving DecidableEq, Repr

/-- R27 and R238: the affected set of a commit; a PORT scope names the lanes of the port in the applied formation and in the one that `rd`
reads. -/
def State.affected (s : State) (r : Req) (rd : Reader) : Affected :=
  let k := r.id.toNat
  match r.scope.toNat with
  | 0 => ⟨allLanes, allLanes, allGroups⟩
  | 1 =>
    let h : Half := ⟨k % 2, by omega⟩
    ⟨h.lanes, h.lanes, h.groups⟩
  | 2 =>
    let g : Group := ⟨k % 6, by omega⟩
    ⟨g.lanes, g.lanes, [g]⟩
  | 3 =>
    let p : Lane := ⟨k % 48, by omega⟩
    ⟨(Lane.group p).lanes.filter fun l => l == p || l ∈ Machine.portLanes s.app p || l ∈ Machine.portLanes rd p, [p], []⟩
  | 4 => ⟨[⟨k % 48, by omega⟩], [], []⟩
  | _ => ⟨allLanes.filter fun l => r.mask.getLsbD l.val, [], []⟩

/-- R27, R120, R238, R278: a commit with this affected set applies field `f` at index `i`. -/
def Affected.holds (a : Affected) (s : State) (rd : Reader) (f : Fld) (i : Nat) : Bool :=
  let n := i / max 1 f.info.subs
  match f.info.blk with
  | .FE | .EQ | .FEC | .DMT | .ACQ | .LS => a.lanes.any fun l => l.val == n
  | .PORT | .TSP => a.slots.any fun p => p.val == n
  | .HST => a.groups.any (fun g => g.val == n / 16) || a.slots.any fun p => (portHlanes rd p).any fun x => x.val == n
  | .SROT => a.groups.any fun g => g.val == n
  | .CTX => a.groups.any (fun g => g.val == n / 32)
      || a.lanes.any fun l => l.val / 8 == n / 32 && (s.app .CTX_LANE n == l.val % 8 || rd .CTX_LANE n == l.val % 8)
  | _ => false

/-- R27 and R466: the shadow changes that a commit taken now applies. -/
def State.shadowChanges (s : State) (r : Req) : List FCell :=
  let a := s.affected r s.get
  (s.written.filter fun w => a.holds s s.get w.1 w.2).map fun w => ⟨w.1, w.2, s.get w.1 w.2⟩

/-- What a shadow field would hold with the changes applied. -/
def State.with (s : State) (cells : List FCell) : Reader := fun f i =>
  match cells.find? fun c => c.is f i with
  | some c => c.val
  | none => s.app f i

/-! ### Checks -/

/-- Why a commit does not execute: status, reason, the scope and ID of the port, lane or group that fails, the offset of the failing
field. -/
structure Bad where
  status : Nat
  reason : Nat
  scope : Nat
  id : Nat
  off : Nat
  deriving DecidableEq, Repr

/-- R215: checks 1 to 9, each over the affected ports before the next. -/
def portFault (r : Reader) (ps : List Lane) : Option Bad :=
  let en := fun (p : Lane) => r .PORT_EN p == 1
  let others := fun (p : Lane) => (Lane.group p).lanes.filter fun q => q != p && en q
  let lines := fun (p : Lane) => lineCount (r .PORT_RATE p) (r .PORT_LMODE p)
  let hosts := fun (p : Lane) => hostCount (r .PORT_RATE p) (r .PORT_HMODE p)
  let mixed := fun (f : Fld) (ls : List Lane) => ls.any fun l => ls.any fun m => r f l != r f m
  let checks : List (Nat × (Lane → Bool)) :=
    [(0x10, fun p => 4 < r .PORT_RATE p || r .PORT_HMODE p == 3),
      (0x11, fun p => en p && (lines p).isNone),
      (0x12, fun p => en p && (lines p).any fun m => p.val % 8 % m != 0),
      (0x13, fun p => en p && (others p).any fun q => (portLanes r p).any fun l => l ∈ portLanes r q),
      (0x14, fun p => en p && (hosts p).isNone),
      (0x15, fun p => en p && (hosts p).any fun n => 16 < r .PORT_HOST_BASE p + n),
      (0x16, fun p => en p && (others p).any fun q => (portHlanes r p).any fun x => x ∈ portHlanes r q),
      (0x17, fun p => en p && mixed .FEC_FEC_MODE (portLanes r p)),
      (0x18, fun p => en p && (mixed .EQ_LOCKSTEP (portLanes r p) || (r .EQ_LOCKSTEP p == 1
        && ((portLanes r p).length == 1 || r .PORT_LMODE p == 3))))]
  checks.findSome? fun c => (ps.find? c.2).map fun p =>
    ⟨3, c.1, 3, p, if c.1 = 0x10 then Fld.bar0 .PORT_RATE p else 0⟩

/-- The valid range of every shadow field of a block instance: reason RANGE with the offset of the first field outside it. -/
def blockRange (r : Reader) (b : Blk) (n : Nat) : Option (Nat × Nat) :=
  b.flds.findSome? fun f =>
    if !f.info.shadow then none
    else
      let k := max 1 f.info.subs
      (List.range k).findSome? fun j =>
        if f.inRange (r f (n * k + j)) then none else some (0x01, f.bar0 (n * k + j))

/-- R93: the sum of the magnitudes of the TX FIR taps in 2^-10. -/
def firSum (r : Reader) (l : Lane) : Nat :=
  ((List.range 7).map fun m => (toSigned 12 (r .EQ_TXF_SHADOW (l.val * 7 + m))).natAbs).sum

/-- The checks of a lane's block beyond plain ranges: R82, R89, R93, R101, R106, R145, R182. -/
def State.laneRule (s : State) (r : Reader) (b : Blk) (l : Lane) : Option (Nat × Nat) :=
  let locked := fun (f : Fld) (i : Nat) => s.inData l && r f i != s.app f i
  match b with
  | .FE => if r .FE_STEP_MAX l < r .FE_STEP_MIN l then some (0x01, Fld.bar0 .FE_STEP_MIN l) else none
  | .EQ =>
    if r .EQ_KI_SHIFT l < r .EQ_KP_SHIFT l + 6 then some (0x01, Fld.bar0 .EQ_KI_SHIFT l)
    else if locked .EQ_MAIN l then some (0x1A, Fld.bar0 .EQ_MAIN l)
    else if 1024 < firSum r l then some (0x1C, 0)
    else (List.range 12).findSome? fun j =>
      let i := l.val * 12 + j
      if r .EQ_VOLT_DB i < r .EQ_VOLT_DA i then some (0x01, Fld.bar0 .EQ_VOLT_DA i) else none
  | .FEC => if locked .FEC_RHO l then some (0x1A, Fld.bar0 .FEC_RHO l) else none
  | .DMT => (List.range 16).findSome? fun j =>
      let i := l.val * 16 + j
      if locked .DMT_SF_SHADOW i then some (0x1A, Fld.bar0 .DMT_SF_SHADOW i) else none
  | _ => none

def State.laneFault (s : State) (r : Reader) (b : Blk) (ls : List Lane) : Option Bad :=
  ls.findSome? fun l =>
    ((blockRange r b l.val).orElse fun _ => s.laneRule r b l).map fun e => ⟨3, e.1, 4, l, e.2⟩

/-- R234 and R243: the host lane registers that the commit applies. DESIGN CHOICE: the rejection names a port, and no rule gives a number for a host lane
of no port: here the first lane of the group (log 142). -/
def hostFault (r : Reader) (xs : List HLane) : Option Bad :=
  xs.findSome? fun (x : HLane) =>
    let taps := [Fld.HST_CM3, .HST_CM2, .HST_CM1, .HST_CP1].map fun f => (toSigned 6 (r f x)).natAbs
    let p : Nat := ((portOfHlane r x).map (·.val)).getD (8 * (x.val / 16))
    ((blockRange r .HST x.val).orElse fun _ => if 32 < taps.sum then some (0x1C, 0) else none).map fun e => ⟨3, e.1, 3, p, e.2⟩

/-- R280: the feedback sources that are not reserved. -/
def fbSrcOk (v : Nat) : Bool := v < 0x108 || (0x110 ≤ v && v < 0x114) || (0x120 ≤ v && v < 0x140) || v == 0x3FF

/-- R281: a channel that a context of the group may drive. -/
def outCdOk (g : Group) (v : Nat) : Bool :=
  if h : v < 160 then
    let c : Chan := ⟨v, h⟩
    g.owns c || (c.half == g.half && c.set == 3)
  else false

/-- R303: the cascades from `y` lead to context `x`. -/
def leadsTo (r : Reader) (x : Ctx) : Nat → Ctx → Bool
  | 0, _ => false
  | n + 1, y =>
    if r .CTX_OUT_KIND y = 2 then
      let z := y.group.ctx ⟨r .CTX_OUT_CTX y % 32, by omega⟩
      z == x || leadsTo r x n z
    else false

/-- R290: an APC context that is enabled, or whose limits change, with a limit at 0. -/
def State.apcFault (s : State) (r : Reader) (x : Ctx) : Bool :=
  let lims := [Fld.CTX_VMAX, .CTX_AMAX, .CTX_JMAX]
  r .CTX_TYPE x == 1 && lims.any (fun f => r f x == 0)
    && ((r .CTX_EN x == 1 && s.app .CTX_EN x == 0) || lims.any fun f => r f x != s.app f x)

/-- R290 and R303: the checks of a context beyond plain ranges. -/
def State.ctxRule (s : State) (r : Reader) (x : Ctx) : Bool :=
  let on := fun (y : Ctx) => r .CTX_EN y == 1
  let drives := fun (y : Ctx) => on y && r .CTX_OUT_KIND y == 1
  let src := r .CTX_FB_SRC x
  let fixed := [Fld.CTX_TYPE, .CTX_LANE, .CTX_FB_SRC, .CTX_OUT_KIND, .CTX_OUT_CD, .CTX_OUT_CTX]
  !fbSrcOk src || (on x && r .CTX_MODE x == 0 && src == 0x3FF)
    || (r .CTX_OUT_KIND x == 1 && !outCdOk x.group (r .CTX_OUT_CD x))
    || (drives x && x.group.half.groups.any fun g => g.ctxs.any fun (y : Ctx) =>
      y != x && drives y && r .CTX_OUT_CD y == r .CTX_OUT_CD x)
    || leadsTo r x 33 x || (r .CTX_DEMOD x == 1 && r .CTX_DITH_EN x == 0) || r .CTX_DITH_PER x ≤ r .CTX_DITH_PH x
    || toSigned 32 (r .CTX_OUT_MAX x) < toSigned 32 (r .CTX_OUT_MIN x) || s.apcFault r x
    || (on x && s.app .CTX_EN x == 1 && fixed.any fun f => r f x != s.app f x)

/-- The unit that names a context in an event: its lane, else its group. -/
def ctxUnit (r : Reader) (x : Ctx) : Nat × Nat :=
  if r .CTX_LANE x < 8 then (4, 8 * (x.val / 32) + r .CTX_LANE x) else (2, x.val / 32)

def State.ctxFault (s : State) (r : Reader) (xs : List Ctx) : Option Bad :=
  xs.findSome? fun x =>
    let u := ctxUnit r x
    match blockRange r .CTX x.val with
    | some e => some ⟨3, e.1, u.1, u.2, e.2⟩
    | none =>
      if !s.ctxRule r x then none
      else some ⟨3, 0x1B, u.1, u.2, if fbSrcOk (r .CTX_FB_SRC x) then 0 else Fld.bar0 .CTX_FB_SRC x⟩

/-- R310: the conditions under which a lane's settings are UNSAFE: the reason. -/
def State.laserFault (s : State) (r : Reader) (l : Lane) : Option Nat :=
  let sets := r .LS_LASER_EN l == 1 && s.app .LS_LASER_EN l == 0
  if sets && !s.isSet .LSH_LOCK l.half then some 0x40
  else if sets && (s.get .LS_BIAS_CEIL l == 0 || s.get .LS_PWR_CEIL l == 0) then some 0x41
  else if s.get .LS_PWR_CEIL l < r .LS_APR_PWR l then some 0x42
  else none

/-- R311: a commit that enables a context on a laser-bias channel whose context it may not be. -/
def State.laserCtxFault (s : State) (r : Reader) (x : Ctx) : Bool :=
  r .CTX_EN x == 1 && s.app .CTX_EN x == 0 && r .CTX_OUT_KIND x == 1
    && x.group.half.lanes.any fun m => s.get .LS_LASER_CD m == r .CTX_OUT_CD x
      && !(r .CTX_TYPE x == 1 && (Lane.group m) == x.group && r .CTX_LANE x == m.val % 8)

/-- R404 and R389: the time-stamp registers of the affected ports. -/
def stampFault (r : Reader) (ps : List Lane) : Option Bad :=
  ((ps.find? fun p => 2 < r .TSP_ONE_STEP p).map fun p => (⟨3, 0x01, 3, p, Fld.bar0 .TSP_ONE_STEP p⟩ : Bad)).orElse fun _ =>
    (ps.find? fun (p : Lane) => r .PORT_EN p == 1 && r .TSP_TS_EN p == 1 && (portLanes r p).any fun l => r .FEC_FEC_MODE l == 0).map fun p =>
      ⟨3, 0x19, 3, p, 0⟩

/-- R215: every check of a half's part of a commit, in order. -/
def State.halfFault (s : State) (a : Affected) (r : Reader) (h : Half) : Option Bad :=
  let ls := h.lanes.filter fun l => l ∈ a.lanes
  let ps := h.lanes.filter fun p => p ∈ a.slots || (Machine.portLanes s.app p).any fun l => l ∈ ls
  let xs := allCtxs.filter fun (x : Ctx) => x.group.half == h && a.holds s r .CTX_EN x
  let hs := allHlanes.filter fun (x : HLane) => x.group.half == h && a.holds s r .HST_EN x
  (portFault r ps).orElse fun _ => (hostFault r hs).orElse fun _ => (s.laneFault r .FE ls).orElse fun _ =>
    (s.laneFault r .EQ ls).orElse fun _ => (s.laneFault r .FEC ls).orElse fun _ => (s.laneFault r .DMT ls).orElse fun _ =>
      (s.laneFault r .ACQ ls).orElse fun _ => (s.ctxFault r xs).orElse fun _ => (s.laneFault r .LS ls).orElse fun _ =>
        (ls.findSome? fun l => (s.laserFault r l).map fun e => (⟨6, e, 4, l, 0⟩ : Bad)).orElse fun _ =>
          ((xs.find? (s.laserCtxFault r)).map fun x => (⟨6, 0x43, (ctxUnit r x).1, (ctxUnit r x).2, 0⟩ : Bad)).orElse fun _ =>
            stampFault r ps

/-- R27, R33, R457: why a commit does not execute; a set that mixes fenced and unfenced lanes is FENCED. -/
def State.commitFault (s : State) (a : Affected) (r : Reader) : Option Bad :=
  if a.lanes.any s.laneFenced && !a.lanes.all s.laneFenced then some ⟨5, 0, 0, 0, 0⟩
  else allHalves.findSome? (s.halfFault a r)

/-! ### Execution -/

/-- The half of a port, lane or group as an event names it. -/
def Bad.half (b : Bad) : Half := if (if b.scope = 2 then 8 * b.id else b.id) < 24 then halfA else halfB

/-- R480 and R242: a commit that completes REJECTED raises COMMIT_REJECT and sets REJECT of the ports that it names, applied or as the commit would
form them, and of the port that fails. -/
def State.noteReject (s : State) (a : Affected) (rd : Reader) (b : Bad) (tag : W32) : State :=
  if b.status ≠ 3 then s
  else
    let named := a.slots.filter fun (p : Lane) => rd .PORT_EN p == 1 || s.appSet .PORT_EN p || (b.scope == 3 && b.id == p.val)
    let s := s.each named fun s p => s.flag .PORT_REJECT p
    let s := if b.scope = 3 ∧ 0x10 ≤ b.reason ∧ b.reason ≤ 0x18 then s.flag .PORT_REJECT b.id else s
    s.raise b.half { sev := 1, code := 0x0109, scope := b.scope, id := b.id, tag := tag, d0 := b.reason, d1 := b.off }

/-- R216 and R238: the lane whose boundary carries a change. -/
def carrier (r : Reader) (c : FCell) : Lane :=
  let n := c.idx / max 1 c.fld.info.subs
  let lane := fun (k : Nat) => (⟨k % 48, by omega⟩ : Lane)
  match c.fld.info.blk with
  | .HST => if h : n < 96 then (portOfHlane r ⟨n, h⟩).getD (lane (n / 16 * 8)) else lane 0
  | .SROT => lane (8 * n)
  | .CTX => lane (n / 32 * 8)
  | _ => lane n

/-- R28: the commit instant in ticks of a half: now, or for a late command its scheduled time. -/
def State.instant (s : State) (h : Half) (cmd : Option Cmd) : Nat := s.ticks h - ((cmd.map (·.late)).getD 0) / 4

/-- R28 and R32: the commit instant in ns: W of a scheduled command, else now. -/
def State.instantNs (s : State) (exe : Half) (cmd : Option Cmd) : Nat :=
  match cmd with
  | some c => if ¬ c.req.sched then s.now exe else if c.late = 0 then s.fullTime exe c.req.w.toNat else s.now exe - c.late
  | none => s.now exe

/-- R27 to R31: what waits for the boundaries: the changes of a commit that has passed its checks, or none for a RETRAIN. -/
def State.await (s : State) (exe : Half) (cmd : Option Cmd) (lanes : List Lane) (cells : List (Lane × FCell)) : State :=
  let gs := allGroups.filter fun g => cells.any fun c => c.2.fld.info.blk == .CTX && c.2.idx / 32 == g.val
  let at' := s.instantNs exe cmd
  let a := s.instant halfA cmd
  let b := s.instant halfB cmd
  let o := match cmd with
    | some c => (c.order, s)
    | none => s.nextOrder
  o.2.modHalf exe fun y => { y with commits := y.commits ++ [⟨cmd, at', a, b, o.1, cells, lanes, [], gs, 0⟩] }

/-- R32: the order in which commits reach one boundary: by instant, then ring, then acceptance. -/
def PendCommit.before (a b : PendCommit) : Bool :=
  let ring := fun (c : PendCommit) => (c.cmd.map fun k => k.req.ring.val).getD 4
  a.inst < b.inst || (a.inst == b.inst && (ring a < ring b || (ring a == ring b && a.order < b.order)))

def insertCommit (c : Half × PendCommit) : List (Half × PendCommit) → List (Half × PendCommit)
  | [] => [c]
  | d :: ds => if d.2.before c.2 then d :: insertCommit c ds else c :: d :: ds

/-- R32: the commits of both halves that satisfy a condition, in order. -/
def State.commitsIn (s : State) (p : PendCommit → Bool) : List (Half × PendCommit) :=
  (allHalves.flatMap fun h => ((s.half h).commits.filter p).map fun c => (h, c)).foldr insertCommit []

/-- R32: the state as the commits that go before a new one will leave it: a later commit is checked against their result. DESIGN CHOICE: a late commit
that goes before one that already waits does not open the checks of the other again (log 255). -/
def State.foreseen (s : State) (exe : Half) (cmd : Option Cmd) : State :=
  let o := (cmd.map (·.order)).getD s.accepted
  let new : PendCommit := ⟨cmd, s.instantNs exe cmd, 0, 0, o, [], [], [], [], 0⟩
  s.each (s.commitsIn fun c => c.before new) fun s p => s.each p.2.cells fun s c => s.takeCell c.2

/-- R27 and R32: a commit executes: every check first; then its changes wait for their boundaries, or it completes REJECTED, FENCED or UNSAFE. -/
def State.startCommit (s : State) (exe : Half) (cmd : Option Cmd) (r : Req) (cells : List FCell) : State :=
  let f := s.foreseen exe cmd
  let rd := f.with cells
  let a := f.affected r rd
  match f.commitFault a rd with
  | some b => (s.noteReject a rd b r.tag).refuse cmd ⟨b.status, b.reason, 0, 0⟩
  | none => s.await exe cmd a.lanes (cells.map fun c => (carrier rd c, c))

/-! ### Application -/

/-- R30 and R216: what of a port sends its lanes back through acquisition when it changes. -/
def portKey (r : Reader) (p : Option Lane) : Option (Lane × List Nat) :=
  p.map fun p => (p, [Fld.PORT_RATE, .PORT_LMODE, .PORT_HMODE, .PORT_HOST_BASE].map fun f => r f p)

/-- R30: the change takes the lane out of DATA. -/
def State.reforms (s : State) (old : State) (l : Lane) : Bool :=
  portKey s.app (s.portOf l) != portKey old.app (old.portOf l) || s.app .FEC_FEC_MODE l != old.app .FEC_FEC_MODE l

/-- R19, R76, R119: what a commit at the boundary of a lane ends: parallel runs, a waiting Kneader update, a waiting revert. -/
def State.beforeCommit (s : State) (l : Lane) : State :=
  let s := ((s.abandonHandover l).abandonSlice l).dropUpdate l
  if (s.lane l).revertDue then s.modLane l fun x => { x with revertDue := false, above := 0 } else s

/-- R58: SWING changes: one code at the boundary, the rest by the ramp, in DATA; in one step outside it. A ramp that still ran is
turned here, and what waited for it waits no longer. -/
def State.swing (s : State) (l : Lane) : State :=
  let s := if (s.lane l).ramp then s.endRamp l else s
  let t := s.swingCode l
  let v := (s.lane l).vsw
  if !s.inData l then s.modLane l fun x => { x with vsw := t }
  else
    let v := if v < t then v + 1 else if t < v then v - 1 else v
    s.modLane l fun x => { x with vsw := v, ramp := v != t, clk.rampAt := s.ticks l.half }

/-- R66 and R67: the gain mode of a lane: in MANUAL the step is MANUAL_STEP from the boundary on, else it is kept within STEP_MIN to STEP_MAX. -/
def State.gainMode (s : State) (l : Lane) : State :=
  let s := s.putBool .FE_AGC_TRACK l (s.inData l && !s.agcManual l)
  if s.agcManual l then (s.setGainStep l (s.app .FE_MANUAL_STEP l)).modLane l fun x => { x with gain := none, condAt := none }
  else s.setGainStep l (s.stepInRange l (s.get .FE_GAIN_STEP l))

/-- R30, R58, R66, R103, R108, R112, R263, R268: what follows on a lane from the changes just applied. `old` is the state before them. -/
def State.afterCommit (s : State) (old : State) (retrain : Bool) (l : Lane) : State :=
  let changed := fun (f : Fld) => s.app f l != old.app f l
  let s := if (s.reforms old l || retrain) && s.get .ACQ_STATE l != acqIdle && (s.portOf l).isSome then
      (s.acquire l).modLane l fun x => { x with swap := none, mse := [], above := 0, revertDue := false }
    else s
  let s := if changed .FE_SWING then s.swing l else s
  let s := if changed .EQ_EFFORT_MAX then s.applyEffort l else s
  let s := if changed .FE_AGC_MODE || changed .FE_STEP_MIN || changed .FE_STEP_MAX || (changed .FE_MANUAL_STEP && s.agcManual l) then
      s.gainMode l else s
  let s := if changed .ACQ_MIN_SNR then s.updateReady l else s
  let s := if s.get .EQ_ADAPT l = 3 ∧ changed .EQ_AD_FFE ∧ s.appSet .EQ_AD_FFE l then
      (s.put .EQ_ADAPT l (if s.inData l then 2 else 1)).openBlock l else s
  if changed .EQ_LOCKSTEP then
    s.putBool .EQ_LS_MEMBER l (s.inData l && s.isSet .EQ_LOCK l && s.appSet .EQ_LOCKSTEP l && !s.laneFenced l)
  else s

/-- R108: the commit joins the port of a lane to lock-step. -/
def State.joinsLoop (s : State) (old : State) (l : Lane) : Bool :=
  s.appSet .EQ_LOCKSTEP l && (!old.appSet .EQ_LOCKSTEP l || s.portOf l != old.portOf l)

/-- R108 and R109: ports that a commit joins to lock-step start their shared loop, whether or not a lane of theirs contributes yet; where members
go on, the others join them. -/
def State.joinLoops (s : State) (old : State) (ls : List Lane) : State :=
  let new := ls.filter (s.joinsLoop old)
  s.each (new.filterMap s.portOf).dedup fun s p =>
    if (old.lsMembers p).isEmpty then s.startShared p
    else s.each (new.filter fun l => s.portOf l == some p) fun s l => s.joinShared l p

/-- R216 and R237: a host lane whose port was formed anew restarts at DETECT. DESIGN CHOICE: R237 names TRAIN, LOCK and CAP; a lane in ACTIVE
restarts too. -/
def State.hostAfter (s : State) (old : State) (x : HLane) : State :=
  if portKey s.app (s.hportOf x) != portKey old.app (old.hportOf x) && s.get .HST_STAGE x != 0 && (s.hportOf x).isSome then
    (s.setStage x hsDetect).modHlane x fun y => { y with trainFails := 0, lockFails := 0 }
  else s

/-- R244: without training a committed HST_TXEQ is the transmit FIR of a host lane that sends the port's signal. -/
def State.hostTaps (s : State) (old : State) (x : HLane) : State :=
  if s.txeq x ≠ old.txeq x ∧ hsLock ≤ s.get .HST_STAGE x ∧ ¬ s.appSet .HST_TRAIN_EN x then s.useTaps x (s.txeq x) else s

/-- R217 and R237: a port whose PRIORITY changes keeps the one before the boundary for a decision of throttling at the same boundary. -/
def State.notePriority (s : State) (old : State) (p : Lane) : State :=
  let was := old.app .PORT_PRIORITY p
  let t := s.ticks p.half
  if s.app .PORT_PRIORITY p = was then s else s.modPort p fun y => { y with prioWas := some (was, t) }

/-- A commit re-forms ports of a group: it changes a slot beyond its PRIORITY (R216, R217). -/
def PendCommit.reforms (c : PendCommit) (s : State) (g : Group) : Bool :=
  c.cells.any fun p => p.2.fld.info.blk == .PORT && p.2.fld != .PORT_PRIORITY && p.2.idx / 8 == g.val
    && s.app p.2.fld p.2.idx != p.2.val

/-- The commit instant has passed by 100 ns on the half of a lane (R28). -/
def PendCommit.due (c : PendCommit) (s : State) (h : Half) : Bool :=
  (if h = halfA then c.instA else c.instB) + 25 ≤ s.ticks h

/-- R28, R29, R216, R217, R244: one commit at a boundary of lane `l`: all lanes of its port take it together, every lane of the group that it names
when it re-forms ports. `h` is the half that holds the commit. -/
def State.applyCommit (s : State) (h : Half) (l : Lane) (c : PendCommit) : State :=
  let old := s
  let g := Lane.group l
  let mates := s.portMates l
  let ls := c.lanes.filter fun m => (Lane.group m) == g && (c.reforms s g || m ∈ mates)
  let now := c.cells.filter fun p => p.1 ∈ ls && p.2.fld.info.blk != .CTX
  let s := s.each ls State.beforeCommit
  let s := s.each now fun s p => s.takeCell p.2
  let s := s.each ls fun s m => s.afterCommit old (c.cmd.any fun k => k.op == .retrain) m
  let s := s.joinLoops old ls
  let s := if c.reforms old g then s.each g.hlanes fun s x => s.hostAfter old x else s
  let s := s.each g.hlanes fun s x => s.hostTaps old x
  let s := s.each g.lanes fun s p => s.notePriority old p
  let s := if 2 ≤ s.get .PG_STATE g ∧ s.get .PG_STATE g ≤ 3 then s.saveGroup g else s
  let ramps := ls.filter fun m => (s.lane m).ramp && s.app .FE_SWING m != old.app .FE_SWING m
  let t := s.now l.half
  s.modHalf h fun y => { y with commits := y.commits.map fun k =>
    if k.order = c.order then
      { k with
        lanes := k.lanes.filter fun m => m ∉ ls
        cells := k.cells.filter fun p => p ∉ now
        ramp := k.ramp ++ ramps
        lastNs := max k.lastNs t }
    else k }

/-- R28, R32, R37, R538: a boundary of lane `l`: a snapshot whose T has come latches first; then the commits that are due, in order, then a
lane reset that waits. -/
def execCommitApply (l : Lane) (s : State) : Host.Outcome State Fault Refusal :=
  let s := s.latchAll
  let cs := s.commitsIn fun c => c.lanes.contains l && c.due s l.half
  let s := s.each cs fun s p => s.applyCommit p.1 l p.2
  done (if (s.lane l).resetDue then s.laneReset l else s)

/-! ### Loop contexts -/

/-- R286 and R300: MODE has changed: a context that runs starts anew; one that holds starts, and does not resume, when its hold ends. -/
def State.modeChange (s : State) (old : State) (x : Ctx) : State :=
  if s.app .CTX_MODE x = old.app .CTX_MODE x then s
  else if s.get .CTX_STATE x = ctxRun then s.startCtx x
  else s.modCtx x fun y => { y with restart := true }

/-- R300: in HOLD, PARKING and PARKED the settings in use stay those of before the commit until the next start or resume. -/
def State.keepInUse (s : State) (old : State) (now : List FCell) (x : Ctx) : State :=
  let st := old.get .CTX_STATE x
  if st = ctxHold ∨ st = ctxParking ∨ st = ctxParked then
    let mine := now.filter fun c => c.idx == x.val && c.fld.info.subs ≤ 1 && !(s.ctx x).before.any fun e => e.1 == c.fld
    s.modCtx x fun y => { y with before := y.before ++ mine.map fun c => (c.fld, old.app c.fld x) }
  else s

/-- R278: one commit at a frame start of group `g`. -/
def State.latchCommit (s : State) (h : Half) (g : Group) (c : PendCommit) : State :=
  let old := s
  let now := c.cells.filter fun p => p.2.fld.info.blk == .CTX && p.2.idx / 32 == g.val
  let s := s.each now fun s p => s.takeCell p.2
  let xs := g.ctxs.filter fun (x : Ctx) => now.any fun p => p.2.idx / max 1 p.2.fld.info.subs == x.val
  let s := s.each xs fun s x => ((s.keepInUse old (now.map (·.2)) x).modeChange old x).atTarget x
  let s := s.each xs fun s x => (s.showLoop (old.app .CTX_OUT_CD x)).showLoop (s.app .CTX_OUT_CD x)
  let t := s.now g.half
  s.modHalf h fun y => { y with commits := y.commits.map fun k =>
    if k.order = c.order then
      { k with ctxWait := k.ctxWait.filter (· != g), cells := k.cells.filter fun p => p ∉ now, lastNs := max k.lastNs t }
    else k }

/-- R278 and R37: at a frame start the contexts of a group latch what is due, in the order of R32; a snapshot whose T has come latches first. -/
def execLoopConfigLatch (g : Group) (s : State) : Host.Outcome State Fault Refusal :=
  let s := s.latchAll
  let cs := s.commitsIn fun c => c.ctxWait.contains g && c.due s g.half
  done (s.each cs fun s p => s.latchCommit p.1 g p.2)

end Sys2Proof.Machine
end

