-- ==== Sys2Proof/Machine/Opcodes.lean ====
section
/-! DEFINITION. The command catalogue as a table (R452, R453, R475, R476, R479 to R493): the opcode word, the scopes, scheduling and
PARAM words of each opcode, how a descriptor is read, and when it is INVALID. -/

namespace Sys2Proof.Machine

/-! ### The table -/

/-- R479 to R493: the opcode word. -/
def Opc.code : Opc → Nat
  | .identify => 0x0101 | .commit => 0x0102 | .schedCancel => 0x0103 | .timeFreq => 0x0104 | .timeSlew => 0x0105
  | .timeStep => 0x0106 | .nop => 0x0107
  | .cfgWrite => 0x0201 | .cfgDiscard => 0x0202 | .bitswap => 0x0203 | .retrain => 0x0204 | .fenceRelease => 0x0205
  | .eqCapture => 0x0206
  | .lsLock => 0x0301 | .safeResume => 0x0302 | .aprRestart => 0x0303 | .loopStatus => 0x0304
  | .cntClear => 0x0401 | .monRead => 0x0402 | .eventFilter => 0x0403
  | .subscribe => 0x0501 | .unsubscribe => 0x0502 | .snapshot => 0x0503
  | .groupState => 0x0601 | .deviceState => 0x0602 | .padRelease => 0x0603 | .fenceReleaseGroup => 0x0604 | .reset => 0x0605
  | .selftest => 0x0701 | .updLoad => 0x0702 | .updVerify => 0x0703 | .updActivate => 0x0704 | .updConfirm => 0x0705
  | .updRollback => 0x0706 | .dumpBuf => 0x0707 | .dumpFetch => 0x0708 | .fiUnlock => 0x0709 | .fiSet => 0x070A | .fiClear => 0x070B
  | .attOpen => 0x0801 | .attQuote => 0x0802 | .attCert => 0x0803 | .attClose => 0x0804

def allOpcs : List Opc :=
  [.identify, .commit, .schedCancel, .timeFreq, .timeSlew, .timeStep, .nop, .cfgWrite, .cfgDiscard, .bitswap, .retrain, .fenceRelease,
    .eqCapture, .lsLock, .safeResume, .aprRestart, .loopStatus, .cntClear, .monRead, .eventFilter, .subscribe, .unsubscribe, .snapshot,
    .groupState, .deviceState, .padRelease, .fenceReleaseGroup, .reset, .selftest, .updLoad, .updVerify, .updActivate, .updConfirm,
    .updRollback, .dumpBuf, .dumpFetch, .fiUnlock, .fiSet, .fiClear, .attOpen, .attQuote, .attCert, .attClose]

/-- The opcode of an opcode word. -/
def opcOf (code : Nat) : Option Opc := allOpcs.find? fun o => o.code == code

/-- The scopes that an opcode accepts, coded as in R452. -/
def Opc.scopes : Opc → List Nat
  | .identify | .schedCancel | .safeResume | .eventFilter => [0, 1]
  | .commit | .nop | .snapshot => [0, 1, 2, 3, 4, 5]
  | .timeFreq | .timeSlew | .timeStep | .deviceState => [0]
  | .cfgWrite | .fiSet | .fiClear | .reset => [1, 2, 3, 4]
  | .cfgDiscard | .subscribe => [1, 2, 3, 4, 5]
  | .bitswap | .aprRestart => [4]
  | .retrain | .fenceRelease => [3, 4]
  | .eqCapture | .cntClear => [2, 3, 4, 5]
  | .lsLock | .monRead | .unsubscribe | .selftest | .dumpBuf | .dumpFetch | .fiUnlock => [1]
  | .attOpen | .attQuote | .attCert | .attClose => [1]
  | .loopStatus | .groupState => [2]
  | .padRelease | .fenceReleaseGroup => [1, 2]
  | .updLoad | .updVerify | .updActivate | .updConfirm | .updRollback => [0, 1]

/-- R478: the opcodes that accept SCHED = 1, which are those with a timed completion (R459). -/
def Opc.sched : Opc → Bool
  | .commit | .timeFreq | .timeSlew | .timeStep | .nop | .retrain | .fenceRelease | .cntClear | .snapshot | .groupState
  | .deviceState | .fenceReleaseGroup | .reset => true
  | _ => false

/-- A PARAM word of a descriptor. -/
def reqParam (r : Req) (k : Nat) : Nat := (r.params[k]?.getD 0).toNat

/-- R558: the PARAM1 to PARAM3 bits of an injection kind. -/
def fiMasks (kind : Nat) : List Nat :=
  let full := 0xFFFFFFFF
  match kind with
  | 1 | 2 => [1, full, 0]
  | 3 => [1, full, 0x1FF]
  | 4 => [1, full, full]
  | 5 => [full, 0, 0]
  | 6 => [0x7F, 0, 0]
  | 7 => [0x1F, full, full]
  | 8 => [0x1F, 0, 0]
  | _ => [full, full, full]

/-- The PARAM bits that an opcode defines; every other bit must be 0 (R453). -/
def Opc.masks (o : Opc) (r : Req) : List Nat :=
  let full := 0xFFFFFFFF
  match o with
  | .schedCancel | .timeFreq | .unsubscribe | .subscribe | .fiUnlock | .attClose => [full]
  | .timeSlew => [full, 0xFF]
  | .timeStep => [full, full, 0xFFFF, 1]
  | .cfgWrite => 3 :: List.replicate (3 * (reqParam r 0 % 4)) full
  | .bitswap | .lsLock => [1]
  | .fenceRelease | .fenceReleaseGroup => [0x3F]
  | .loopStatus => [0x1F]
  | .monRead => [0xFF]
  | .eventFilter => [0x7FFFF]
  | .groupState | .deviceState => [3]
  | .selftest => [0x3F07]
  | .updLoad | .attQuote => [full, full, full, full]
  | .dumpBuf | .dumpFetch => [full, full, full]
  | .fiSet => 0xF :: fiMasks (reqParam r 0 % 16)
  | .attOpen => List.replicate 8 full
  | .attCert => [0, full, full, full]
  | _ => []

/-! ### Reading a descriptor -/

/-- R452: the sixteen words of a descriptor, without the opcode. -/
def parseReq (ring : Fin 4) (idx : Nat) (ws : List W32) : Req :=
  let w := fun (k : Nat) => (ws.getD k 0).toNat
  { ring := ring
    index := BitVec.ofNat 12 idx
    rsvd := w 0 / 8 % 2 ^ 13 != 0 || w 3 / 2 ^ 8 % 2 ^ 14 != 0 || w 5 / 2 ^ 16 != 0
    irqNow := (w 0).testBit 2
    discard := (w 0).testBit 1
    sched := (w 0).testBit 0
    tag := ws.getD 1 0
    w := BitVec.ofNat 40 (w 2 + 2 ^ 32 * (w 3 % 2 ^ 8))
    scope := BitVec.ofNat 4 (w 3 / 2 ^ 28)
    id := BitVec.ofNat 6 (w 3 / 2 ^ 22 % 2 ^ 6)
    mask := BitVec.ofNat 48 (w 4 + 2 ^ 32 * (w 5 % 2 ^ 16))
    params := .ofFn fun k => ws.getD (6 + k) 0 }

/-- R452: the opcode of a descriptor. -/
def parseOpc (ws : List W32) : Option Opc := opcOf ((ws.getD 0 0).toNat / 2 ^ 16)

/-! ### INVALID -/

/-- R452 and R453: a reserved field or word that must be 0 is not. -/
def reqReserved (r : Req) : Bool := r.rsvd || (!r.sched && r.w != 0) || (r.scope != 5 && r.mask != 0)

/-- R453: a bit of a PARAM word that the opcode does not define is not 0. -/
def Opc.paramBitsSet (o : Opc) (r : Req) : Bool :=
  (List.range 10).any fun k => reqParam r k &&& (0xFFFFFFFF - (o.masks r).getD k 0) != 0

/-- R452: the greatest ID of a scope. -/
def idLimit (scope : Nat) : Nat :=
  match scope with
  | 1 => 2
  | 2 => 6
  | 3 | 4 => 48
  | _ => 1

/-- R452: a 64-bit host address in two PARAM words. -/
def reqAddr (r : Req) (k : Nat) : Nat := reqParam r k + 2 ^ 32 * reqParam r (k + 1)

/-- R558: the arguments of an injection kind are outside their ranges. -/
def reqFiBad (r : Req) (lanes : Nat) : Bool :=
  match reqParam r 0 with
  | 1 | 2 | 8 => false
  | 3 => reqParam r 2 == 0 || reqParam r 3 % 256 == 0
  | 4 => reqParam r 2 == 0
  | 5 => !(List.range lanes).all fun k => (List.range lanes).any fun m => reqParam r 1 / 16 ^ m % 16 == k
  | 6 => 64 < reqParam r 1
  | 7 => 6 < reqParam r 1 % 8 || 2 < reqParam r 2 || reqParam r 3 == 0 || 255 < reqParam r 3
  | _ => true

/-- R438: KIND and UNIT name no unit of a half. -/
def reqTestBad (r : Req) : Bool :=
  let u := reqParam r 0 / 256 % 64
  match reqParam r 0 % 8 with
  | 0 => 24 ≤ u
  | 1 => 60 ≤ u
  | 2 => u < 60
  | 3 => 3 ≤ u
  | _ => true

/-- R475 and R476: a PARAM value lies outside the ranges of the opcode tables. -/
def State.paramBad (s : State) (o : Opc) (r : Req) : Bool :=
  let p := fun (k : Nat) => reqParam r k
  match o with
  | .cfgWrite => p 0 == 0
  | .timeFreq => !Fld.inRange .TIME_ADDEND (p 0)
  | .timeSlew => 1000000000 < (toSigned 32 (p 0)).natAbs || 50 < p 1
  | .timeStep => 999999999 < p 0
  | .fenceRelease | .fenceReleaseGroup => 14 < p 0
  | .eventFilter => 3 < p 0 / 65536
  | .subscribe => p 0 == 0 || 10000 < p 0
  | .deviceState => p 0 == 3
  | .selftest => reqTestBad r
  | .updLoad => reqAddr r 0 % 64 != 0 || p 2 < 64 || 16777216 < p 2
  | .dumpBuf | .dumpFetch => reqAddr r 0 % 4096 != 0
  | .fiSet => reqFiBad r (Machine.portLanes s.app ⟨r.id.toNat % 48, by omega⟩).length
  | _ => false

/-- R546 and R558: scopes that the opcode refuses beyond its table: a mask over both halves, a kind outside its scopes, LANE_PERMUTE on
a port of fewer than 2 lanes. -/
def State.scopeBad (s : State) (o : Opc) (r : Req) : Bool :=
  let sc := r.scope.toNat
  match o with
  | .subscribe => reqSpans r
  | .fiSet =>
    match reqParam r 0 with
    | 3 | 4 => sc < 3
    | 5 => sc != 3 || (Machine.portLanes s.app ⟨r.id.toNat % 48, by omega⟩).length < 2
    | 6 => sc != 4
    | 7 => 2 < sc
    | 8 => sc != 2
    | _ => false
  | _ => false

/-- R453 and R475: why a descriptor is INVALID, in the order of R453. -/
def State.invalid (s : State) (op : Option Opc) (r : Req) : Option Nat :=
  let sc := r.scope.toNat
  if reqReserved r || op.any fun o => o.paramBitsSet r then some 0x70
  else
    match op with
    | none => some 0x71
    | some o =>
      if !o.scopes.contains sc then some 0x72
      else if idLimit sc ≤ r.id.toNat then some 0x73
      else if sc = 5 ∧ r.mask = 0 then some 0x74
      else if s.scopeBad o r then some 0x72
      else if r.sched ∧ !o.sched then some 0x75
      else if r.discard ∧ !r.sched then some 0x76
      else if s.paramBad o r then some 0x77
      else none

/-! ### Scope -/

/-- R452: the half that executes a command: that of its scope; half A for one that spans both (R457). -/
def reqExe (r : Req) : Half := if reqReaches r halfA then halfA else halfB

/-- R452: the lanes of a command's scope; a port without an enabled port at its slot names the lane of that number. -/
def State.scopeLanes (s : State) (r : Req) : List Lane :=
  let k := r.id.toNat
  match r.scope.toNat with
  | 0 => allLanes
  | 1 => Half.lanes ⟨k % 2, by omega⟩
  | 2 => Group.lanes ⟨k % 6, by omega⟩
  | 3 =>
    let p : Lane := ⟨k % 48, by omega⟩
    let ls := Machine.portLanes s.app p
    if ls.isEmpty then [p] else ls
  | 4 => [⟨k % 48, by omega⟩]
  | _ => allLanes.filter fun l => r.mask.getLsbD l.val

/-- R452: the halves that a command's scope reaches. -/
def reqHalves (r : Req) : List Half := allHalves.filter (reqReaches r)

/-- The groups that a command's scope reaches. -/
def State.scopeGroups (s : State) (r : Req) : List Group := allGroups.filter fun g => (s.scopeLanes r).any fun l => (Lane.group l) == g

end Sys2Proof.Machine
end

