-- ==== Sys2Proof/Machine/Effects.lean ====
section
/-! DEFINITION. What the commands of classes 0x01 to 0x06 do when they execute (R479 to R491, R496). -/

namespace Sys2Proof.Machine

/-! ### Completing -/

/-- R459: a command that executed nothing: the timed form for the opcodes that have it. -/
def State.deny (s : State) (c : Cmd) (r : Res) : State := s.complete c (if c.op.sched then c.notExecuted r else r)

/-- R459: a command that has executed, with its effect now. -/
def State.timedOk (s : State) (c : Cmd) : State := s.complete c (c.timed (s.now c.exe))

/-- R459 and R383: the same with the effect at the next time tick, 4 ns ahead. -/
def State.timedNext (s : State) (c : Cmd) : State := s.complete c (c.timed (s.now c.exe + 4))

/-- The group, lane or half that ID names. -/
def reqGroup (r : Req) : Group := ⟨r.id.toNat % 6, by omega⟩
def reqLane (r : Req) : Lane := ⟨r.id.toNat % 48, by omega⟩
def reqHalf (r : Req) : Half := ⟨r.id.toNat % 2, by omega⟩

/-! ### Class 0x01 -/

/-- R479: IDENTIFY: TOP_ID, of half A for DEVICE, and the firmware version. -/
def State.doIdentify (s : State) (c : Cmd) : State :=
  let h := if c.req.scope = 0 then halfA else reqHalf c.req
  s.complete c (.ok (s.readFields h 0) (s.get .BOOT_VERSION h))

/-- R27: COMMIT, with the changes captured when it was taken. -/
def State.doCommit (s : State) (c : Cmd) (cells : List FCell) : State := s.startCommit c.exe (some c) c.req cells

/-- R481 and R496: the pending action with a tag whose W is earliest, among those that do not fire at this tick. -/
def State.pendingTag (s : State) (h : Half) (tag : W32) : Option Sched :=
  ((s.half h).sched.filter fun a => a.cmd.req.tag == tag && s.now h < a.w).foldl (fun b a =>
    match b with
    | some x => if a.w < x.w then some a else some x
    | none => some a) none

/-- R481: the action leaves its half and completes CANCELLED with RESULT 0. -/
def State.cancelSched (s : State) (h : Half) (a : Sched) : State :=
  let s := (s.modHalf h fun y => { y with sched := y.sched.filter fun x => x.cmd.order != a.cmd.order }).showPending h
  s.complete a.cmd ⟨8, 0, 0, 0⟩

/-- R481: SCHED_CANCEL searches the half that takes it and then, in JOINED, the other. -/
def State.doSchedCancel (s : State) (c : Cmd) : State :=
  let tag := BitVec.ofNat 32 (reqParam c.req 0)
  let halves := if s.get .BR_STATE c.exe = bridgeJoined then [c.exe, otherHalf c.exe] else [c.exe]
  match halves.findSome? fun h => (s.pendingTag h tag).map fun a => (h, a) with
  | some p => (s.cancelSched p.1 p.2).complete c (.ok 0 0)
  | none => s.deny c (.rejected 0x05)

/-- R479: TIME_FREQ acts as a write of TIME_ADDEND of half A. -/
def State.doTimeFreq (s : State) (c : Cmd) : State := (s.setAddend halfA (reqParam c.req 0)).timedNext c

/-- R479: TIME_SLEW starts a slew of half A's time; an offset of 0 ends one. -/
def State.doTimeSlew (s : State) (c : Cmd) : State :=
  let rate := reqParam c.req 1
  let s := if rate = 0 then s else s.put .TIME_RATE halfA rate
  let s := s.setSlew halfA (toSigned 32 (reqParam c.req 0))
  if reqParam c.req 0 = 0 then s.timedOk c else s.timedNext c

/-- R479 and R482: TIME_STEP completes when the step takes place. -/
def State.doTimeStep (s : State) (c : Cmd) : State :=
  let r := c.req
  s.setStep halfA ⟨reqParam r 1 + 2 ^ 32 * reqParam r 2, reqParam r 0, (reqParam r 3).testBit 0, [c]⟩

def State.doNop (s : State) (c : Cmd) : State := s.timedOk c

/-! ### Class 0x02 -/

/-- R484: the bits of a word that are shadow state. -/
def shadowBits (fs : List Slot) : Nat :=
  ((fs.filter fun x => x.fld.info.shadow).map fun x => (2 ^ x.fld.info.width - 1) * 2 ^ x.lo).sum

/-- R484: entry `k` of a CFG_WRITE: offset, value, mask. -/
def cfgEntry (r : Req) (k : Nat) : Nat × Nat × Nat := (reqParam r (1 + 3 * k), reqParam r (2 + 3 * k), reqParam r (3 + 3 * k))

/-- R484: the entry names an aligned word of the blocks in scope, and its mask only shadow state. -/
def State.cfgOk (s : State) (h : Half) (r : Req) (e : Nat × Nat × Nat) : Bool :=
  let fs := slots h e.1
  let a := s.affected r s.get
  e.1 % 4 == 0 && e.1 < 2 ^ 20 && !fs.isEmpty && (r.scope == 1 || fs.all fun x => a.holds s s.get x.fld x.idx)
    && e.2.2 &&& (0xFFFFFFFF - shadowBits fs) == 0

/-- R484 and R243: a masked entry becomes shadow state; EN of a host lane written 1 clears its LOCK_FAIL. -/
def State.cfgEntryWrite (s : State) (h : Half) (e : Nat × Nat × Nat) : State :=
  s.each (slots h e.1) fun s x =>
    let m := x.value e.2.2
    if !x.fld.info.shadow ∨ m = 0 then s
    else
      let old := s.get x.fld x.idx
      let v := (old &&& (2 ^ x.fld.info.width - 1 - m)) ||| (x.value e.2.1 &&& m)
      let s := s.writeShadow x.fld x.idx v
      if x.fld = .HST_EN ∧ v = 1 then s.put .HST_LOCK_FAIL x.idx 0 else s

/-- R484: CFG_WRITE: every entry is checked before any is written. -/
def State.doCfgWrite (s : State) (c : Cmd) : State :=
  let es := (List.range (reqParam c.req 0)).map (cfgEntry c.req)
  if es.all (s.cfgOk c.exe c.req) then (s.each es fun s e => s.cfgEntryWrite c.exe e).complete c (.ok 0 0)
  else s.deny c (.rejected 0x02)

/-- R483: CFG_DISCARD: the shadow fields in scope return to their applied values. -/
def State.doCfgDiscard (s : State) (c : Cmd) : State :=
  let a := s.affected c.req s.get
  (s.syncShadow fun f i => f.info.shadow && a.holds s s.get f i).complete c (.ok 0 0)

/-- R485: BITSWAP begins with this end as RE. -/
def State.doBitswap (s : State) (c : Cmd) : State :=
  let l := reqLane c.req
  if s.lmode l ≠ 3 then s.deny c (.rejected 0x04)
  else if !s.inData l then s.deny c (.rejected 0x03)
  else s.beginSwap l ((reqParam c.req 0).testBit 0) (some c)

/-- R483: RETRAIN waits for the boundary of R28 on every lane in scope. -/
def State.doRetrain (s : State) (c : Cmd) : State := s.await c.exe (some c) (s.scopeLanes c.req) []

/-- The Kneaders of a unit that have failed. -/
def State.failedKnds (s : State) (u : FUnit) : List Knd :=
  (List.finRange 128).filter fun k => kndUnit k == u && s.get .KND_STATE k == 4

/-- R434: the spare Kneaders of a unit. -/
def State.kndSpares (s : State) (u : FUnit) : Nat :=
  match u with
  | .group g => s.get .SP_KND_SPARE (Group.spIdx g)
  | .half h => s.get .SP_KND_SPARE (4 * h.val + 3)
  | _ => 0

/-- R486, R314, R533: why a cause may not be released, as status and reason; `bright` is what R314 finds of the photocurrent. -/
def State.releaseFault (s : State) (u : FUnit) (bright : Bool) (k : Cause) : Option Res :=
  match k, u with
  | .knd, _ => if s.kndSpares u < (s.failedKnds u).length then some (.rejected 0x0A) else none
  | .refclk, .half h => if (s.half h).refOk then none else some (.rejected 0x07)
  | .wakeFailed, .group g => if s.get .PG_STATE g = 4 then some (.rejected 0x03) else none
  | .laserOvp, .lane l => if bright then some (.notSafe 0x44) else if 3 ≤ s.get .LS_OVP_CNT l then some (.notSafe 0x45) else none
  | _, _ => none

/-- R313, R314, R414: what a cause held beside the fence ends with it. -/
def State.endCause (s : State) (u : FUnit) (k : Cause) : State :=
  match k, u with
  | .laserOvp, .lane l => s.modLane l fun x => { x with ovpTrip := false }
  | .knd, _ => s.each (s.failedKnds u) fun s j => ((s.put .KND_STATE j 0).spareServes j).returnKnd j
  | _, _ => s

/-- R41: what a unit goes through as its last cause ends; lanes and ports leave through acquisition (Flags.lean). -/
def State.leaveFence (s : State) (u : FUnit) : State :=
  if (s.causes u).isEmpty then
    match u with
    | .group g => s.groupReset g
    | .half h => s.halfReset h
    | _ => s
  else s

/-- R118, R431, R365 and R494: KD4896 ends the cause itself: a SLICE fence only while a spare slice is left to serve the lane. -/
def State.selfEnds (s : State) (u : FUnit) (k : Cause) : Bool :=
  match u, k with
  | .lane l, .slice => s.get .SP_SLICE_SPARE (Group.spIdx l.group) != 0
  | _, k => k.self

/-- R486: the causes that a FENCE_RELEASE names, or why it is rejected. -/
def State.namedCauses (s : State) (u : FUnit) (n : Nat) : Except Res (List Cause) :=
  let cs := s.causes u
  if cs.isEmpty then .error (.rejected 0x06)
  else if n = 0 then
    let mine := cs.filter fun k => !s.selfEnds u k
    if mine.isEmpty then .error (.rejected 0x03) else .ok mine
  else
    match cs.find? fun k => k.code == n with
    | none => .error (.rejected 0x06)
    | some k => if s.selfEnds u k then .error (.rejected 0x03) else .ok [k]

/-- R486: FENCE_RELEASE on a unit. -/
def State.releaseFence (s : State) (c : Cmd) (u : FUnit) : State :=
  match s.namedCauses u (reqParam c.req 0) with
  | .error r => s.deny c r
  | .ok ks =>
    let d := s.draw
    let bright := Config.stillBright d.1
    let s := d.2
    match ks.findSome? (s.releaseFault u bright) with
    | some r => s.deny c r
    | none =>
      let s := s.each ks fun s k => (s.endCause u k).fenceOut u k false
      (s.timedOk c).leaveFence u

/-- R486: the unit that a command names. -/
def reqUnit (r : Req) : FUnit :=
  match r.scope.toNat with
  | 1 => .half (reqHalf r)
  | 2 => .group (reqGroup r)
  | 3 => .port (reqLane r)
  | _ => .lane (reqLane r)

def State.doFenceRelease (s : State) (c : Cmd) : State := s.releaseFence c (reqUnit c.req)

/-- R483: EQ_CAPTURE on every lane in scope. -/
def State.doEqCapture (s : State) (c : Cmd) : State :=
  let ls := s.scopeLanes c.req
  let s := s.modHalf c.exe fun y => { y with capWait := y.capWait ++ [(c, ls)] }
  s.each ls State.askCapture

/-! ### Class 0x03 -/

/-- R487 and R312: LS_LOCK. -/
def State.doLsLock (s : State) (c : Cmd) : State :=
  if s.isSet .LSH_LOCK c.exe then s.deny c (.rejected 0x08)
  else ((s.put .LSH_SOFF_RESUME c.exe (reqParam c.req 0 % 2)).put .LSH_LOCK c.exe 1).complete c (.ok 0 0)

/-- R487 and R315: SAFE_RESUME: every half in scope is checked before any is released. -/
def State.doSafeResume (s : State) (c : Cmd) : State :=
  let hs := reqHalves c.req
  match hs.findSome? fun h =>
    if !s.isSet .LSH_SOFF_PIN h then some 0x09
    else if !s.isSet .LSH_SOFF_HELD h || s.isSet .LSH_SOFF_RESUME h then some 0x03
    else none with
  | some e => s.deny c (.rejected e)
  | none => (s.each hs fun s h => s.put .LSH_SOFF_HELD h 0).complete c (.ok 0 0)

/-- R317: APR_RESTART. -/
def State.doAprRestart (s : State) (c : Cmd) : State :=
  let l := reqLane c.req
  if (s.lane l).apr = .hold then (s.startPulse l).complete c (.ok 0 0) else s.deny c (.rejected 0x03)

/-- The BAR0 offset of a context's block. -/
def ctxOff0 (x : Ctx) : Nat := 0x10000 * (1 + x.val / 32 % 3) + 0xA000 + 0x100 * (x.val % 32)

/-- R487: LOOP_STATUS: word 0x80 of the context block, and O_NOW. -/
def State.doLoopStatus (s : State) (c : Cmd) : State :=
  let x := (reqGroup c.req).ctx ⟨reqParam c.req 0 % 32, by omega⟩
  s.complete c (.ok (s.readFields c.exe (ctxOff0 x + 0x80)) (s.get .CTX_O_NOW x))

/-! ### Class 0x04 -/

/-- R488: CNT_CLEAR asks every lane in scope to clear at its next boundary. -/
def State.doCntClear (s : State) (c : Cmd) : State :=
  let ls := s.scopeLanes c.req
  let s := s.modHalf c.exe fun y => { y with clrWait := y.clrWait ++ [(c, ls)] }
  s.each ls fun s l => s.modLane l fun x => { x with clear := true }

/-- R488: MON_READ. -/
def State.doMonRead (s : State) (c : Cmd) : State :=
  let off := 0x51000 + 0x10 * reqParam c.req 0
  s.complete c (.ok (s.readFields c.exe (off + 8)) (s.readFields c.exe (off + 0xC)))

/-- R489: EVENT_FILTER, in force from its completion. -/
def State.doEventFilter (s : State) (c : Cmd) : State :=
  let code := reqParam c.req 0 % 65536
  let sev := reqParam c.req 0 / 65536
  let s := s.complete c (.ok 0 0)
  s.each (reqHalves c.req) fun s h => s.modHalf h fun y =>
    if code = 0xFFFF then { y with filtAll := sev } else { y with filters := (code, sev) :: y.filters.filter fun p => p.1 != code }

/-! ### Class 0x05 -/

/-- R546: the lowest free subscription ID of a half. -/
def HalfS.freeSub (y : HalfS) : Nat := ((List.range 33).find? fun k => 0 < k && !y.subs.any fun x => x.id == k).getD 0

/-- R544 and R546: SUBSCRIBE: the first instant at least 1 µs ahead. -/
def State.doSubscribe (s : State) (c : Cmd) : State :=
  let p := reqParam c.req 0
  let id := (s.half c.exe).freeSub
  let n := p * 1000000
  let first := (s.now c.exe + 1000 + n - 1) / n * n
  (s.modHalf c.exe fun y => { y with subs := y.subs ++ [⟨id, s.scopeLanes c.req, p, first⟩] }).complete c (.ok id 0)

/-- R546: UNSUBSCRIBE. -/
def State.doUnsubscribe (s : State) (c : Cmd) : State :=
  let id := reqParam c.req 0
  if (s.half c.exe).subs.any fun x => x.id == id then
    (s.modHalf c.exe fun y => { y with subs := y.subs.filter fun x => x.id != id }).complete c (.ok 0 0)
  else s.deny c (.rejected 0x05)

/-- R36: SNAPSHOT: T is now for a command that fired on time, else the first tick at least 1 µs ahead; each half of the scope holds its
part. -/
def State.doSnapshot (s : State) (c : Cmd) : State :=
  let ahead := if c.taken.isSome ∨ c.late ≠ 0 then 250 else 0
  let ls := s.scopeLanes c.req
  let t := if ahead = 0 then some (s.fullTime c.exe c.req.w.toNat) else none
  s.each (reqHalves c.req) fun s h =>
    let due := s.ticks h + ahead
    (s.modHalf h fun y => { y with snaps := y.snaps ++ [⟨c, h, due, ls.filter fun l => l.half == h, false, t⟩] }).showPending h

/-! ### Class 0x06 -/

/-- R491: GROUP_STATE. -/
def State.doGroupState (s : State) (c : Cmd) : State :=
  let g := reqGroup c.req
  (s.moveGroup g (reqParam c.req 0) (some c)).settleDevice g.half

def State.doDeviceState (s : State) (c : Cmd) : State := s.moveDevice (reqParam c.req 0) c

/-- R491: the groups of a GROUP or HALF scope. -/
def reqGroups (r : Req) : List Group := if r.scope = 2 then [reqGroup r] else (reqHalf r).groups

/-- R491 and R534: PAD_RELEASE. -/
def State.doPadRelease (s : State) (c : Cmd) : State :=
  let gs := reqGroups c.req
  if gs.all fun g => s.get .PG_STATE g == 0 && s.isSet .PG_PADS_HELD g then (s.each gs State.releasePads).complete c (.ok 0 0)
  else s.deny c (.rejected 0x03)

def State.doFenceReleaseGroup (s : State) (c : Cmd) : State := s.releaseFence c (reqUnit c.req)

/-- R491 and R538: RESET: the completion first; the resets act once it has been written. -/
def State.doReset (s : State) (c : Cmd) : State :=
  let t := c.req.tag
  let rs := match c.req.scope.toNat with
    | 1 => [(t, 1, (reqHalf c.req).val)]
    | 2 => [(t, 2, (reqGroup c.req).val)]
    | _ => (s.scopeLanes c.req).map fun l => (t, 4, l.val)
  (s.modHalf c.org fun y => { y with resets := y.resets ++ rs }).timedOk c

end Sys2Proof.Machine
end

