-- ==== Sys2Proof/Machine/Maintain.lean ====
section
/-! DEFINITION. What the commands of classes 0x07 and 0x08 do when they execute: self-test, update, dumps, fault injection and
attestation (R418, R423, R492, R493, R514 to R517, R521, R557, R558), with the completions of the update steps. -/

namespace Sys2Proof.Machine

/-! ### Self-test -/

/-- R423: why a unit cannot be freed for a test. -/
def State.testFault (s : State) (h : Half) (kind unit : Nat) : Option Nat :=
  match kind with
  | 0 => if s.get .SP_SLICE_SPARE (Group.spIdx (testLane h unit).group) = 0 then some 0x0A else none
  | 3 => if (testGroup h unit).ctxs.any fun x => s.app .CTX_EN x == 1 then some 0x0B else none
  | _ =>
    let k := testKnd h unit
    if s.get .SP_KND_SPARE (kndSpare k) = 0 then some 0x0A else if s.get .KND_STATE k ≠ 0 then some 0x0B else none

/-- R423: the unit is freed: the lane rotates onto the spare slice; the spare Kneader is loaded to take the role, as in R414; the loop engine is
saved. -/
def State.freeUnit (s : State) (h : Half) (kind unit : Nat) : State :=
  match kind with
  | 0 => s.freeLane (testLane h unit)
  | 3 => (s.writeArea h 2).enterTest h
  | _ =>
    let k := testKnd h unit
    (s.put .KND_STATE k 2).loseKnd k

/-- R424: what the test of a slice needs is freed first: the spare slice of its group. -/
def State.freeFor (s : State) (h : Half) (kind unit : Nat) : State :=
  if kind = 0 then s.freeSpare (testLane h unit).group else s

/-- R423: SELFTEST frees a unit, whose test then starts; SELFTEST_COMPLETE ends it. -/
def State.doSelftest (s : State) (c : Cmd) : State :=
  let h := c.exe
  let kind := reqParam c.req 0 % 8
  let unit := reqParam c.req 0 / 256
  match s.testFault h kind unit with
  | some e => s.deny c (.rejected e)
  | none =>
    let s := (((s.freeFor h kind unit).put .ST_STATE h 1).put .ST_KIND h kind).put .ST_UNIT h unit
    let t := s.ticks h
    ((s.setFullWidth h true).modHalf h fun y => { y with stCmd := some c, stAt := t }).freeUnit h kind unit

/-! ### Update -/

/-- R515: every half that a command names is in a stage that accepts it, with no piece in transfer. -/
def State.stageIn (s : State) (c : Cmd) (ok : Half → Nat → Bool) : Bool :=
  (reqHalves c.req).all fun h => (s.half h).loadCmd.isNone && ok h (s.get .BOOT_UPD_STAGE h)

/-- R22 and R24: the half whose endpoint reads host memory for a command: the one that carries it; the bytes for half B pass the bridge. -/
def State.dmaHalf (s : State) (c : Cmd) : Half := if s.manages c.exe then c.exe else c.org

/-- R515: UPD_LOAD: the order of pieces, then the size of the store. -/
def State.doUpdLoad (s : State) (c : Cmd) : State :=
  let len := reqParam c.req 2
  let off := reqParam c.req 3
  let ok := s.stageIn c fun h st =>
    ((st == stgIdle || st == stgVerified) && off == 0) || (st == stgLoading && (off == 0 || off == s.get .BOOT_LOADED h))
  if !ok then s.deny c (.rejected 0x03)
  else if 16777216 < off + len then s.deny c (.rejected 0x0F)
  else
    let s := s.each (reqHalves c.req) fun s h => s.modHalf h fun y => { y with loadCmd := some ⟨some c, off, len⟩ }
    s.emit (.dma (s.dmaHalf c) (reqAddr c.req 0) "update" len)

/-- The other half's part of a command that runs on both halves. -/
def State.loadMate (s : State) (h : Half) (c : Option Cmd) : Bool :=
  c.isSome && (s.half (otherHalf h)).loadCmd.any fun p => p.cmd == c

/-- R22: the bytes of a piece for a half: those its own endpoint read, which for a piece on both halves also pass the bridge; or those that come
over the bridge. -/
def State.pieceBytes (s : State) (h : Half) (p : DeltaPiece) (data : List (BitVec 8)) : List (BitVec 8) :=
  let d := (if s.manages h then data else s.bridge.piece.getD data).take p.len
  d ++ List.replicate (p.len - d.length) 0

/-- R515: a piece is in the update store, or its write has failed: the stage stays. A command on both halves completes with the later
half, or with the first failure. -/
def State.loadDone (s : State) (h : Half) (ok : Bool) (data : List (BitVec 8)) : State :=
  match (s.half h).loadCmd with
  | none => s
  | some p =>
    let o := otherHalf h
    let mate := s.loadMate h p.cmd
    let bytes := s.pieceBytes h p data
    let s := s.modHalf h fun y => { y with loadCmd := none }
    let s := s.modBridge fun b => { b with piece := if h = halfA && mate then some bytes else none }
    if !ok then
      let s := s.modHalf o fun y => { y with loadCmd := if mate then y.loadCmd.map fun q => { q with cmd := none } else y.loadCmd }
      match p.cmd with
      | some c => (s.put .BOOT_ERR h 5).complete c (.failed 0x61)
      | none => s
    else
      let was := s.get .BOOT_UPD_STAGE h
      let s := if was = stgVerified then s.writeBoot h fun b => b.mark (1 - b.active) false else s
      let s := (s.put .BOOT_LOADED h (p.off + p.len)).modHalf h fun y => { y with store := y.store.take p.off ++ bytes }
      let s := if was = stgLoading then s else s.setStage515 h stgLoading stgLoading
      match p.cmd with
      | some c => if mate then s else s.complete c (.ok 0 0)
      | none => s

/-- R515: the DMA of a piece and its write into the update store end: the bytes read, or none where the load failed. -/
def execUpdLoadComplete (h : Half) (data : Option (List (BitVec 8))) (s : State) : Host.Outcome State Fault Refusal :=
  done (s.loadDone h data.isSome (data.getD []))

/-- R514 and R515: UPD_VERIFY: the inactive slot is marked invalid and the apply begins. -/
def State.doUpdVerify (s : State) (c : Cmd) : State :=
  if !s.stageIn c fun _ st => st == stgLoading then s.deny c (.rejected 0x03)
  else s.each (reqHalves c.req) fun s h =>
    let s := (s.writeBoot h fun b => b.mark (1 - b.active) false).setStage515 h stgVerifying stgVerifying
    s.modHalf h fun y => { y with updCmd := some c }

/-- R515: a flash write error ends the apply: FAILED FLASH, with the stage that UPD_VERIFY found. -/
def State.applyFlashError (s : State) (h : Half) : State :=
  let cmd := (s.half h).updCmd
  let s := (s.setStage515 h stgLoading stgLoading).modHalf h fun y => { y with updCmd := none }
  match cmd with
  | some c =>
    (s.modHalf (otherHalf h) fun y => { y with updCmd := if y.updCmd = some c then none else y.updCmd }).complete c (.failed 0x61)
  | none => s

/-- R514: the apply and its checks have ended: the slot holds the result and is valid with its hash, or ERR says why not. -/
def State.verifyDone (s : State) (h : Half) (checks : ApplyChecks) : State :=
  if s.get .BOOT_UPD_STAGE h ≠ stgVerifying then s
  else
    let slot := (1 - (s.half h).boot.active) % 2
    let r := s.applyDelta h slot checks
    let s := s.modHalf h fun y => { y with slots := y.slots.set slot (some r.1) (Nat.mod_lt _ (by decide)) }
    if r.2 = 5 then (s.put .BOOT_ERR h 5).applyFlashError h
    else if r.2 ≠ 0 then (s.put .BOOT_ERR h r.2).verifyFail h
    else
      let cmd := (s.half h).updCmd
      let mate := cmd.isSome && (s.half (otherHalf h)).updCmd == cmd
      let s := s.writeBoot h fun b => (b.mark slot true).setHash slot checks.result.hash
      let s := (s.setStage515 h stgVerified stgVerified).modHalf h fun y => { y with updCmd := none }
      match cmd with
      | some c => if mate then s else s.complete c (.ok 0 0)
      | none => s

def execUpdVerifyComplete (h : Half) (checks : ApplyChecks) (s : State) : Host.Outcome State Fault Refusal :=
  done (s.verifyDone h checks)

/-- R515: UPD_ACTIVATE: the verified slot is pending for the next start. -/
def State.doUpdActivate (s : State) (c : Cmd) : State :=
  if !s.stageIn c fun _ st => st == stgVerified then s.deny c (.rejected 0x03)
  else
    let s := s.each (reqHalves c.req) fun s h =>
      (s.writeBoot h fun b => { b with pending := 2 - b.active, trial := false }).setStage515 h stgPending stgPending
    s.complete c (.ok 0 0)

/-- R516: UPD_CONFIRM: the trial slot and its settings record stay. -/
def State.doUpdConfirm (s : State) (c : Cmd) : State :=
  if !s.stageIn c fun _ st => st == stgTrial then s.deny c (.rejected 0x03)
  else
    let s := s.each (reqHalves c.req) fun s h =>
      let s := s.writeBoot h fun b =>
        { b with active := b.pending - 1, pending := 0, trial := false, setActive := b.setTrial, setTrial := 0 }
      (s.put .BOOT_TRIAL h 0).setStage515 h stgIdle 6
    s.complete c (.ok 0 0)

/-- R515 and R516: UPD_ROLLBACK on a half, by its stage. -/
def State.rollbackHalf (s : State) (c : Cmd) (h : Half) : State :=
  let st := s.get .BOOT_UPD_STAGE h
  if st = stgLoading then s.setStage515 h stgIdle stgIdle
  else if st = stgVerified then (s.writeBoot h fun b => b.mark (1 - b.active) false).setStage515 h stgIdle stgIdle
  else if st = stgPending then (s.writeBoot h fun b => { b with pending := 0 }).setStage515 h stgVerified stgVerified
  else
    let s := s.writeBoot h fun b => { b with pending := 0, trial := false, setTrial := 0 }
    (s.setStage515 h stgVerified 7).modHalf c.org fun y => { y with resets := y.resets ++ [(c.req.tag, 1, h.val)] }

def State.doUpdRollback (s : State) (c : Cmd) : State :=
  if !s.stageIn c fun _ st => st != stgIdle && st != stgVerifying then s.deny c (.rejected 0x03)
  else (s.each (reqHalves c.req) fun s h => s.rollbackHalf c h).complete c (.ok 0 0)

/-! ### Dumps -/

/-- R521: DUMP_BUF registers the buffer of the next dump. -/
def State.doDumpBuf (s : State) (c : Cmd) : State :=
  let size := reqParam c.req 2
  if size < 4 * 2 ^ 20 then s.deny c (.rejected 0x0F)
  else (s.modHalf c.exe fun y => { y with dumpBuf := some (reqAddr c.req 0, size) }).complete c (.ok 0 0)

/-- R521: DUMP_FETCH copies the minimal dump. -/
def State.doDumpFetch (s : State) (c : Cmd) : State :=
  let size := reqParam c.req 2
  match (s.half c.exe).pantryDump with
  | none => s.deny c (.rejected 0x05)
  | some d =>
    if size < 65536 then s.deny c (.rejected 0x0F) else (s.emit (.dump c.exe (reqAddr c.req 0) d)).complete c (.ok 0 0)

/-! ### Fault injection -/

/-- R557: the unlock of a half is refused. -/
def State.fiBarred (s : State) (h : Half) : Bool := s.isSet .FI_DISABLE h && s.isSet .FI_LOCK h

def fiKey : Nat := 0x46494E4A

/-- R557 and R492: FI_UNLOCK. -/
def State.doFiUnlock (s : State) (c : Cmd) : State :=
  if reqParam c.req 0 ≠ fiKey then s.deny c (.rejected 0x77)
  else if s.fiBarred c.exe then s.deny c (.rejected 0x08)
  else (s.put .FI_UNLOCKED c.exe 1).complete c (.ok 0 0)

/-- R558 and R559: what an injection does as it starts. -/
def State.fiStart (s : State) (kind side : Nat) (ls : List Lane) : State :=
  match kind with
  | 2 =>
    if side = 0 then s.each ls State.loseSignal
    else
      let xs := allHlanes.filter fun x => (s.hportOf x).any fun p => (s.portLanes p).any fun l => l ∈ ls
      s.each xs fun s x => s.hostLoss x true
  | 5 => s.each ls State.abandonSlice
  | 6 => s.each ls fun s l => (s.put .FEC_LAT_VALID l 0).abandonSlice l
  | _ => s

/-- R558: a slot takes an injection. -/
def State.fillSlot (s : State) (i : Fin 32) (r : Req) : State :=
  let h := i.val / 16
  let s := ((s.put .FIS_ACTIVE i 1).put .FIS_KIND i (reqParam r 0)).put .FIS_SCOPE i r.scope.toNat
  let s := ((s.put .FIS_ID i r.id.toNat).put .FIS_HOST_TAG i r.tag.toNat).put .FIS_INJ_CNT i 0
  let s := s.modFi i fun _ => { p1 := reqParam r 1, p2 := reqParam r 2, p3 := reqParam r 3, began := (s.half (fiHalf i)).aon }
  s.put .FI_ACTIVE_MAP h (s.get .FI_ACTIVE_MAP h ||| 2 ^ (i.val % 16))

/-- R558: FI_SET: locked, no free slot, the same kind on a unit that overlaps; else the lowest free slot. -/
def State.doFiSet (s : State) (c : Cmd) : State :=
  let h := c.exe
  let kind := reqParam c.req 0
  let ls := s.scopeLanes c.req
  if !s.isSet .FI_UNLOCKED h then s.deny c (.rejected 0x08)
  else
    match (fiSlots h).find? fun (i : Fin 32) => !s.isSet .FIS_ACTIVE i with
    | none => s.deny c (.rejected 0x01)
    | some i =>
      if (fiSlots h).any fun (j : Fin 32) => s.isSet .FIS_ACTIVE j && s.get .FIS_KIND j == kind && ls.any fun l => s.slotCovers j l then
        s.deny c (.rejected 0x0B)
      else ((s.fillSlot i c.req).fiStart kind (reqParam c.req 1 % 2) ls).complete c (.ok 0 0)

/-- R558: FI_CLEAR ends every injection that its scope covers. -/
def State.doFiClear (s : State) (c : Cmd) : State := (s.endSlotsIn c.exe (s.scopeLanes c.req)).complete c (.ok 0 0)

/-! ### Attestation -/

/-- R493: the lowest free session of a half; 0 when all four are open. -/
def HalfS.freeSession (y : HalfS) : Nat := ([1, 2, 3, 4].find? fun k => y.sessions.all fun x => x.1 != k).getD 0

/-- R493: the nonce that a session was opened with. -/
def HalfS.nonce (y : HalfS) (k : Nat) : Option Nat := (y.sessions.find? fun x => x.1 == k).map (·.2)

/-- R422: attestation is locked. -/
def State.keyLocked (s : State) (c : Cmd) : Bool := s.isSet .REL_KEY_LOCKED c.exe

/-- R493: the 32-byte nonce of ATT_OPEN, PARAM0 its low word. -/
def reqNonce (r : Req) : Nat := ((List.range 8).map fun i => reqParam r i * 2 ^ (32 * i)).sum

/-- R493: ATT_OPEN. -/
def State.doAttOpen (s : State) (c : Cmd) : State :=
  if s.keyLocked c then s.deny c (.rejected 0x0E)
  else
    let k := (s.half c.exe).freeSession
    (s.modHalf c.exe fun y => { y with sessions := (k, reqNonce c.req) :: y.sessions }).complete c (.ok k 0)

/-- R493: how many bytes a quote or a certificate chain takes in a buffer no rule states. -/
def State.attSize (s : State) (c : Cmd) : Nat × State :=
  let d := s.draw
  (Config.writtenBytes d.1 % (reqParam c.req 3 + 1), d.2)

/-- R493: ATT_QUOTE: the quote covers the nonce, TOP_ID, the image that runs, and the settings record in use; the OTP configuration is the part's
own. -/
def State.doAttQuote (s : State) (c : Cmd) : State :=
  let y := s.half c.exe
  if s.keyLocked c then s.deny c (.rejected 0x0E)
  else match y.nonce (reqParam c.req 0) with
    | none => s.deny c (.rejected 0x05)
    | some nonce =>
      if reqParam c.req 3 < 1024 then s.deny c (.rejected 0x0F)
      else
        let n := s.attSize c
        let image := (y.run.map (·.checks.hash)).getD 0
        (n.2.emit (.quote c.exe (reqAddr c.req 1) n.1 nonce (s.readFields c.exe 0) image (y.record y.boot.setActive))).complete c (.ok n.1 0)

/-- R493: ATT_CERT. -/
def State.doAttCert (s : State) (c : Cmd) : State :=
  if s.keyLocked c then s.deny c (.rejected 0x0E)
  else if reqParam c.req 3 < 4096 then s.deny c (.rejected 0x0F)
  else
    let n := s.attSize c
    (n.2.emit (.dma c.exe (reqAddr c.req 1) "certificates" n.1)).complete c (.ok n.1 0)

/-- R493: ATT_CLOSE. -/
def State.doAttClose (s : State) (c : Cmd) : State :=
  let k := reqParam c.req 0
  if s.keyLocked c then s.deny c (.rejected 0x0E)
  else if ((s.half c.exe).nonce k).isNone then s.deny c (.rejected 0x05)
  else (s.modHalf c.exe fun y => { y with sessions := y.sessions.filter fun x => x.1 != k }).complete c (.ok 0 0)

end Sys2Proof.Machine
end

