-- ==== Sys2Proof/Machine/Take.lean ====
section
/-! DEFINITION. Taking a command (R400, R401, R424, R453 to R457, R476 to R478): INVALID, ISLAND, forwarding, BUSY, scheduling, then its
execution, at once or when it fires; and one row for each opcode. -/

namespace Sys2Proof.Machine

/-! ### Execution -/

/-- R535: the commands that execute in D-STANDBY. -/
def Opc.inStandby (o : Opc) : Bool :=
  match o with
  | .deviceState | .identify | .nop | .timeFreq | .timeSlew | .timeStep | .dumpBuf | .dumpFetch => true
  | _ => false

/-- R477: a fenced lane in scope makes these complete FENCED. -/
def Opc.fenceChecked (o : Opc) : Bool :=
  match o with
  | .retrain | .bitswap | .aprRestart | .eqCapture => true
  | _ => false

/-- R476 step 7: the effect of a command. -/
def State.effect (s : State) (c : Cmd) (cells : List FCell) : State :=
  match c.op with
  | .identify => s.doIdentify c
  | .commit => s.doCommit c cells
  | .schedCancel => s.doSchedCancel c
  | .timeFreq => s.doTimeFreq c
  | .timeSlew => s.doTimeSlew c
  | .timeStep => s.doTimeStep c
  | .nop => s.doNop c
  | .cfgWrite => s.doCfgWrite c
  | .cfgDiscard => s.doCfgDiscard c
  | .bitswap => s.doBitswap c
  | .retrain => s.doRetrain c
  | .fenceRelease => s.doFenceRelease c
  | .eqCapture => s.doEqCapture c
  | .lsLock => s.doLsLock c
  | .safeResume => s.doSafeResume c
  | .aprRestart => s.doAprRestart c
  | .loopStatus => s.doLoopStatus c
  | .cntClear => s.doCntClear c
  | .monRead => s.doMonRead c
  | .eventFilter => s.doEventFilter c
  | .subscribe => s.doSubscribe c
  | .unsubscribe => s.doUnsubscribe c
  | .snapshot => s.doSnapshot c
  | .groupState => s.doGroupState c
  | .deviceState => s.doDeviceState c
  | .padRelease => s.doPadRelease c
  | .fenceReleaseGroup => s.doFenceReleaseGroup c
  | .reset => s.doReset c
  | .selftest => s.doSelftest c
  | .updLoad => s.doUpdLoad c
  | .updVerify => s.doUpdVerify c
  | .updActivate => s.doUpdActivate c
  | .updConfirm => s.doUpdConfirm c
  | .updRollback => s.doUpdRollback c
  | .dumpBuf => s.doDumpBuf c
  | .dumpFetch => s.doDumpFetch c
  | .fiUnlock => s.doFiUnlock c
  | .fiSet => s.doFiSet c
  | .fiClear => s.doFiClear c
  | .attOpen => s.doAttOpen c
  | .attQuote => s.doAttQuote c
  | .attCert => s.doAttCert c
  | .attClose => s.doAttClose c

/-- R476 steps 5 to 7: a command executes, with the shadow changes that a COMMIT captured. -/
def State.execute (s : State) (c : Cmd) (cells : List FCell) : State :=
  if c.op.fenceChecked && (s.scopeLanes c.req).any s.laneFenced then s.deny c ⟨5, 0, 0, 0⟩
  else if !c.op.inStandby && (reqHalves c.req).any fun h => s.get .PH_DSTATE h == 1 then s.deny c (.rejected 0x03)
  else s.effect c cells

/-! ### BUSY -/

/-- R413: whether the Kneaders that execute a command serve: ring management of its halves, and for a command of lanes or groups the
group command Kneaders and the supervisor. -/
def State.served (s : State) (o : Opc) (r : Req) : Bool :=
  let att := o.deviceWide
  let own := (reqHalves r).all fun h => !s.kndOut (sysKnd h 0) && !(att && s.kndOut (sysKnd h 3))
  let grp := 2 ≤ r.scope.toNat || o == .commit
  own && (!grp || (s.scopeGroups r).all fun g => ([16, 17, 18, 19] : List (Fin 20)).all fun j => !s.kndOut (grpKnd g j))

/-- R424: a loop engine under test is needed: a COMMIT changes its contexts. -/
def State.needsTested (s : State) (o : Opc) (cells : List FCell) : Option Half :=
  if o ≠ .commit then none
  else allHalves.find? fun h => s.onTest h && s.get .ST_KIND h == 3
    && cells.any fun c => c.fld.info.blk == .CTX && c.idx / max 1 c.fld.info.subs / 32 == (testGroup h (s.get .ST_UNIT h)).val

/-- R401: pending actions of a half: all, commits, snapshots pending or in capture. -/
def State.pendAll (s : State) (h : Half) : Nat := (s.pendingOn h).length
def State.pendCommits (s : State) (h : Half) : Nat := ((s.pendingOn h).filter fun a => a.cmd.op == .commit).length
def State.pendSnaps (s : State) (h : Half) : Nat :=
  ((s.pendingOn h).filter fun a => a.cmd.op == .snapshot).length + (s.half h).snaps.length

/-- R546: one subscription more would exceed 32, or 24,000 lane records in a second. -/
def State.subsFull (s : State) (h : Half) (r : Req) : Bool :=
  let rate := fun (lanes period : Nat) => (lanes * 1000 : Rat) / period
  let now := ((s.half h).subs.map fun x => rate x.lanes.length x.period).sum
  32 ≤ (s.half h).subs.length || 24000 < now + rate (s.scopeLanes r).length (reqParam r 0)

/-- R476 step 3: a limit or a busy unit; `exe` is the half that executes the command. -/
def State.busyReason (s : State) (exe : Half) (o : Opc) (r : Req) : Option Nat :=
  if !s.served o r then some 0x36
  else if o = .commit ∧ r.sched ∧ (reqHalves r).any (fun h => 64 ≤ s.pendCommits h) then some 0x30
  else if o = .snapshot ∧ (reqHalves r).any (fun h => 4 ≤ s.pendSnaps h) then some 0x31
  else if r.sched ∧ (reqHalves r).any (fun h => 128 ≤ s.pendAll h) then some 0x32
  else if o = .bitswap ∧ ((s.lane (reqLane r)).rxSwap.isSome) then some 0x33
  else if o = .selftest ∧ s.onTest exe then some 0x34
  else if o = .subscribe ∧ s.subsFull exe r then some 0x37
  else if o = .attOpen ∧ (s.half exe).freeSession = 0 then some 0x38
  else none

/-! ### Acceptance -/

/-- R400 and R401: a scheduled command becomes pending; its ring goes on (R455). -/
def State.schedule (s : State) (c : Cmd) (cells : List FCell) : State :=
  let s := s.modHalf c.exe fun y =>
    { y with sched := y.sched ++ [⟨c, s.fullTime c.exe c.req.w.toNat, cells⟩] }
  (s.showPending c.exe).freeRing c.org c.req.ring

/-- R424: a command needs a unit under test: BUSY with the remaining test time, rounded up to 100 µs. -/
def State.underTestBusy (s : State) (c : Cmd) (h : Half) : State := s.complete c (.busy 0x35 ((s.testRemain h + 99) / 100 * 100))

/-- R476 steps 3 to 7: the executing half accepts a command at its present time. -/
def State.accept (s : State) (c : Cmd) : State :=
  let o := s.nextOrder
  let s := o.2
  let c := { c with t40 := s.n40 c.exe, base := s.now c.exe, order := o.1 }
  let r := c.req
  let cells := if c.op = .commit then s.shadowChanges r else []
  match s.busyReason c.exe c.op r, s.needsTested c.op cells with
  | some e, _ =>
    let d := s.draw
    d.2.complete c (.busy e (Config.retryAfter d.1 % 2 ^ 32))
  | none, some h => s.underTestBusy c h
  | none, none =>
    if !r.sched then s.execute c cells
    else
      let d := dOf r.w.toNat (s.n40 c.exe)
      if 0 < d then s.schedule c cells
      else
        let c := { c with late := d.natAbs }
        if d < 0 ∧ r.discard then s.complete c (c.notExecuted (.rejected 0x0C)) else s.execute c cells

/-- R46 and R476 step 2: the half is split from the other. -/
def State.split (s : State) (h : Half) : Bool := s.get .BR_STATE h == bridgeIsland

/-- R46, R467, R476 step 2: a command that spans both halves or is device-wide, or belongs to the other half, while in ISLAND; and what
half B's own rings hold that is not half B's. -/
def State.inIsland (s : State) (org h : Half) (o : Opc) (r : Req) : Bool :=
  let away := !reqReaches r h || reqSpans r
  (s.split h && (away || o.deviceWide)) || (org == halfB && away)

/-- R22 and R457: half A forwards a command of half B. -/
def State.forward (s : State) (c : Cmd) : State :=
  let s := s.perfHalf halfA 0x0B
  (s.modHalf halfA fun y => { y with fwd := y.fwd ++ [c] }).modBridge fun b => { b with cmds := b.cmds ++ [c] }

/-- R456 and R476: half `h` takes a descriptor that command ring `r.ring` of half `org` carries. -/
def State.takeFrom (s : State) (org h : Half) (op : Option Opc) (r : Req) : State :=
  let o := op.getD .nop
  let t := if r.sched then none else some (s.ticks org)
  let c : Cmd := ⟨o, r, org, h, s.n40 h, 0, s.now h, t, 0⟩
  let s := s.perfHalf h 0x01
  let s := s.modHalf org fun y => { y with rings := y.rings.setIfInBounds r.ring { (y.rings[r.ring.val]?.getD {}) with busy := true } }
  match s.invalid op r with
  | some e => s.complete c ⟨4, e, 0, 0⟩
  | none =>
    if s.inIsland org h o r then s.complete c .island
    else if h = halfA ∧ reqExe r = halfB then s.forward { c with exe := halfB }
    else s.accept c

/-- A command as the row of its opcode gives it: taken on half A or on a half B that runs its own rings, or received by half B over the
bridge. -/
def State.takeCmd (s : State) (o : Opc) (h : Half) (r : Req) : State :=
  if !s.managing h then s
  else if s.manages h then s.takeFrom h h (some o) r
  else if reqExe r = halfB then s.takeFrom halfA halfB (some o) r
  else s

/-! ### Descriptors -/

/-- R457: a descriptor may be taken: one that spans both halves at the first tick at least 1 µs after its fetch, any other at once. In ISLAND
nothing spans. -/
def State.ripe (s : State) (h : Half) (q : Fin 4) (d : Nat × Nat × List W32) : Bool :=
  s.split h || !reqSpans (parseReq q d.1 d.2.2) || d.2.1 + 250 ≤ s.ticks h

/-- R455: a ring whose next descriptor may be taken. -/
def State.mayTake (s : State) (h : Half) (q : Fin 4) : Bool :=
  let r := s.ring h (cmdRing q)
  s.ringMoves h (cmdRing q) && !r.busy && r.staged.head?.any (s.ripe h q)

/-- R455: the lowest-numbered ring with a descriptor ready gives its oldest. -/
def execDescriptorTake (h : Half) (s : State) : Host.Outcome State Fault Refusal :=
  match (List.finRange 4).find? (s.mayTake h) with
  | none => done s
  | some q =>
    match (s.ring h (cmdRing q)).staged with
    | [] => done s
    | (idx, _, ws) :: rest =>
      let s := s.modRing h (cmdRing q) fun r => { r with staged := rest }
      done (s.takeFrom h h (parseOpc ws) (parseReq q idx ws))

/-- R457: half B takes a forwarded command when it receives and validates it. -/
def execBridgeCommandReceive (s : State) : Host.Outcome State Fault Refusal :=
  match s.bridge.cmds with
  | [] => done s
  | c :: rest =>
    let s := (s.modBridge fun b => { b with cmds := rest }).perfHalf halfB 0x0C
    if !s.managing halfB || s.split halfB then done s
    else
      let s := s.perfHalf halfB 0x01
      done (match s.invalid (some c.op) c.req with
        | some e => s.complete c ⟨4, e, 0, 0⟩
        | none => s.accept c)

/-! ### Firing -/

/-- R401: the order in which actions of one tick fire: by W, ring and acceptance. -/
def Sched.before (a b : Sched) : Bool :=
  let key := fun (x : Sched) => [x.w, x.cmd.req.ring.val, x.cmd.order]
  decide (key a < key b)

def insertSched (a : Sched) : List Sched → List Sched
  | [] => [a]
  | b :: bs => if b.before a then b :: insertSched a bs else a :: b :: bs

/-- R400 and R402: the action fires: its time has come, or a step has passed it. -/
def Sched.due (a : Sched) (now : Nat) : Bool := decide (a.w ≤ now)

/-- R401: the actions of a half that are due, in order. -/
def State.dueActions (s : State) (h : Half) : List Sched := ((s.half h).sched.filter fun a => a.due (s.now h)).foldr insertSched []

/-- R400: an action fires at the present tick; R424: not where it needs a unit under test. -/
def State.fire (s : State) (a : Sched) : State :=
  let c := { a.cmd with t40 := s.n40 a.cmd.exe, base := s.now a.cmd.exe }
  match s.needsTested c.op a.cells with
  | some h => s.underTestBusy c h
  | none => s.execute c a.cells

/-- R400: actions of a half leave its pending list and fire in turn. -/
def State.fireAll (s : State) (h : Half) (xs : List Sched) : State :=
  ((s.modHalf h fun y => { y with sched := y.sched.filter fun a => a ∉ xs }).showPending h).each xs State.fire

/-- R402, R403 and R482: a TIME_STEP that fires executes before the other actions of its tick: the step takes place and R402 applies to them. -/
def State.fireSteps (s : State) (h : Half) : State :=
  match (s.dueActions h).filter fun a => a.cmd.op == .timeStep with
  | [] => s
  | xs => (s.fireAll h xs).takeStep halfA

/-- R400, R401: the pending actions of a half that are due fire, in order. -/
def execScheduledActionFire (h : Half) (s : State) : Host.Outcome State Fault Refusal :=
  if !s.managing h then done s
  else
    let s := s.fireSteps h
    done (s.fireAll h (s.dueActions h))

/-! ### The rows of the catalogue -/

/-- R479: IDENTIFY is taken on half `h`. -/
def execIdentify (h : Half) (r : Req) (s : State) : Host.Outcome State Fault Refusal := done (s.takeCmd .identify h r)

/-- R27 to R34 and R480: COMMIT is taken on half `h`. -/
def execCommit (h : Half) (r : Req) (s : State) : Host.Outcome State Fault Refusal := done (s.takeCmd .commit h r)

/-- R481: SCHED_CANCEL is taken on half `h`. -/
def execSchedCancel (h : Half) (r : Req) (s : State) : Host.Outcome State Fault Refusal := done (s.takeCmd .schedCancel h r)

/-- R479 and R482: TIME_FREQ is taken on half `h`. -/
def execTimeFreq (h : Half) (r : Req) (s : State) : Host.Outcome State Fault Refusal := done (s.takeCmd .timeFreq h r)

/-- R479 and R482: TIME_SLEW is taken on half `h`. -/
def execTimeSlew (h : Half) (r : Req) (s : State) : Host.Outcome State Fault Refusal := done (s.takeCmd .timeSlew h r)

/-- R479 and R482: TIME_STEP is taken on half `h`. -/
def execTimeStep (h : Half) (r : Req) (s : State) : Host.Outcome State Fault Refusal := done (s.takeCmd .timeStep h r)

/-- R479: NOP is taken on half `h`. -/
def execNop (h : Half) (r : Req) (s : State) : Host.Outcome State Fault Refusal := done (s.takeCmd .nop h r)

/-- R484: CFG_WRITE is taken on half `h`. -/
def execCfgWrite (h : Half) (r : Req) (s : State) : Host.Outcome State Fault Refusal := done (s.takeCmd .cfgWrite h r)

/-- R483: CFG_DISCARD is taken on half `h`. -/
def execCfgDiscard (h : Half) (r : Req) (s : State) : Host.Outcome State Fault Refusal := done (s.takeCmd .cfgDiscard h r)

/-- R485: BITSWAP is taken on half `h`. -/
def execBitswap (h : Half) (r : Req) (s : State) : Host.Outcome State Fault Refusal := done (s.takeCmd .bitswap h r)

/-- R483: RETRAIN is taken on half `h`. -/
def execRetrain (h : Half) (r : Req) (s : State) : Host.Outcome State Fault Refusal := done (s.takeCmd .retrain h r)

/-- R486: FENCE_RELEASE is taken on half `h`. -/
def execFenceRelease (h : Half) (r : Req) (s : State) : Host.Outcome State Fault Refusal := done (s.takeCmd .fenceRelease h r)

/-- R483: EQ_CAPTURE is taken on half `h`. -/
def execEqCapture (h : Half) (r : Req) (s : State) : Host.Outcome State Fault Refusal := done (s.takeCmd .eqCapture h r)

/-- R487: LS_LOCK is taken on half `h`. -/
def execLsLock (h : Half) (r : Req) (s : State) : Host.Outcome State Fault Refusal := done (s.takeCmd .lsLock h r)

/-- R487: SAFE_RESUME is taken on half `h`. -/
def execSafeResume (h : Half) (r : Req) (s : State) : Host.Outcome State Fault Refusal := done (s.takeCmd .safeResume h r)

/-- R317 and R487: APR_RESTART is taken on half `h`. -/
def execAprRestart (h : Half) (r : Req) (s : State) : Host.Outcome State Fault Refusal := done (s.takeCmd .aprRestart h r)

/-- R487: LOOP_STATUS is taken on half `h`. -/
def execLoopStatus (h : Half) (r : Req) (s : State) : Host.Outcome State Fault Refusal := done (s.takeCmd .loopStatus h r)

/-- R488: CNT_CLEAR is taken on half `h`. -/
def execCntClear (h : Half) (r : Req) (s : State) : Host.Outcome State Fault Refusal := done (s.takeCmd .cntClear h r)

/-- R488: MON_READ is taken on half `h`. -/
def execMonRead (h : Half) (r : Req) (s : State) : Host.Outcome State Fault Refusal := done (s.takeCmd .monRead h r)

/-- R489: EVENT_FILTER is taken on half `h`. -/
def execEventFilter (h : Half) (r : Req) (s : State) : Host.Outcome State Fault Refusal := done (s.takeCmd .eventFilter h r)

/-- R546: SUBSCRIBE is taken on half `h`. -/
def execSubscribe (h : Half) (r : Req) (s : State) : Host.Outcome State Fault Refusal := done (s.takeCmd .subscribe h r)

/-- R546: UNSUBSCRIBE is taken on half `h`. -/
def execUnsubscribe (h : Half) (r : Req) (s : State) : Host.Outcome State Fault Refusal := done (s.takeCmd .unsubscribe h r)

/-- R36 and R490: SNAPSHOT is taken on half `h`. -/
def execSnapshot (h : Half) (r : Req) (s : State) : Host.Outcome State Fault Refusal := done (s.takeCmd .snapshot h r)

/-- R491 and R528: GROUP_STATE is taken on half `h`. -/
def execGroupState (h : Half) (r : Req) (s : State) : Host.Outcome State Fault Refusal := done (s.takeCmd .groupState h r)

/-- R491 and R535: DEVICE_STATE is taken on half `h`. -/
def execDeviceState (h : Half) (r : Req) (s : State) : Host.Outcome State Fault Refusal := done (s.takeCmd .deviceState h r)

/-- R491 and R534: PAD_RELEASE is taken on half `h`. -/
def execPadRelease (h : Half) (r : Req) (s : State) : Host.Outcome State Fault Refusal := done (s.takeCmd .padRelease h r)

/-- R486 and R491: FENCE_RELEASE_GROUP is taken on half `h`. -/
def execFenceReleaseGroup (h : Half) (r : Req) (s : State) : Host.Outcome State Fault Refusal := done (s.takeCmd .fenceReleaseGroup h r)

/-- R491 and R538: RESET is taken on half `h`. -/
def execReset (h : Half) (r : Req) (s : State) : Host.Outcome State Fault Refusal := done (s.takeCmd .reset h r)

/-- R423 and R492: SELFTEST is taken on half `h`. -/
def execSelftest (h : Half) (r : Req) (s : State) : Host.Outcome State Fault Refusal := done (s.takeCmd .selftest h r)

/-- R515: UPD_LOAD is taken on half `h`. -/
def execUpdLoad (h : Half) (r : Req) (s : State) : Host.Outcome State Fault Refusal := done (s.takeCmd .updLoad h r)

/-- R514 and R515: UPD_VERIFY is taken on half `h`. -/
def execUpdVerify (h : Half) (r : Req) (s : State) : Host.Outcome State Fault Refusal := done (s.takeCmd .updVerify h r)

/-- R515: UPD_ACTIVATE is taken on half `h`. -/
def execUpdActivate (h : Half) (r : Req) (s : State) : Host.Outcome State Fault Refusal := done (s.takeCmd .updActivate h r)

/-- R516: UPD_CONFIRM is taken on half `h`. -/
def execUpdConfirm (h : Half) (r : Req) (s : State) : Host.Outcome State Fault Refusal := done (s.takeCmd .updConfirm h r)

/-- R516: UPD_ROLLBACK is taken on half `h`. -/
def execUpdRollback (h : Half) (r : Req) (s : State) : Host.Outcome State Fault Refusal := done (s.takeCmd .updRollback h r)

/-- R521: DUMP_BUF is taken on half `h`. -/
def execDumpBuf (h : Half) (r : Req) (s : State) : Host.Outcome State Fault Refusal := done (s.takeCmd .dumpBuf h r)

/-- R521: DUMP_FETCH is taken on half `h`. -/
def execDumpFetch (h : Half) (r : Req) (s : State) : Host.Outcome State Fault Refusal := done (s.takeCmd .dumpFetch h r)

/-- R557: FI_UNLOCK is taken on half `h`. -/
def execFiUnlock (h : Half) (r : Req) (s : State) : Host.Outcome State Fault Refusal := done (s.takeCmd .fiUnlock h r)

/-- R558: FI_SET is taken on half `h`. -/
def execFiSet (h : Half) (r : Req) (s : State) : Host.Outcome State Fault Refusal := done (s.takeCmd .fiSet h r)

/-- R558: FI_CLEAR is taken on half `h`. -/
def execFiClear (h : Half) (r : Req) (s : State) : Host.Outcome State Fault Refusal := done (s.takeCmd .fiClear h r)

/-- R493: ATT_OPEN is taken on half `h`. -/
def execAttOpen (h : Half) (r : Req) (s : State) : Host.Outcome State Fault Refusal := done (s.takeCmd .attOpen h r)

/-- R493: ATT_QUOTE is taken on half `h`. -/
def execAttQuote (h : Half) (r : Req) (s : State) : Host.Outcome State Fault Refusal := done (s.takeCmd .attQuote h r)

/-- R493: ATT_CERT is taken on half `h`. -/
def execAttCert (h : Half) (r : Req) (s : State) : Host.Outcome State Fault Refusal := done (s.takeCmd .attCert h r)

/-- R493: ATT_CLOSE is taken on half `h`. -/
def execAttClose (h : Half) (r : Req) (s : State) : Host.Outcome State Fault Refusal := done (s.takeCmd .attClose h r)

end Sys2Proof.Machine
end

