-- ==== Sys2Proof/Machine/Telemetry.lean ====
section
/-! DEFINITION. Subscriptions (R544 to R547), the performance counter blocks as the host controls them (R549 to R563) and
the host's and the clock's side of fault injection (R557, R558). -/

namespace Sys2Proof.Machine

/-! ### Subscriptions -/

/-- R544 and R545: a subscription latches at its instant; the next is the next multiple of its period. -/
def State.latchSub (s : State) (h : Half) (x : Sub) : State :=
  let n := max 1 (x.period * 1000000)
  let now := s.now h
  let s := s.postLanes h x.lanes none (BitVec.ofNat 32 x.id) x.next
  s.modHalf h fun y => { y with subs := y.subs.map fun z => if z.id = x.id then { z with next := (now / n + 1) * n } else z }

def execSubscriptionLatch (h : Half) (s : State) : Host.Outcome State Fault Refusal :=
  done (s.each ((s.half h).subs.filter fun x => x.next ≤ s.now h) fun s x => s.latchSub h x)

/-! ### Performance counters -/

/-- The half of a counter block and the BAR0 offset of its configuration area (R562). -/
def PerfBlk.half (b : PerfBlk) : Half := ⟨b.val / 4, by omega⟩
def perfOff (b : PerfBlk) : Nat := if b.val % 4 = 3 then 0x1000 else 0x10000 * (1 + b.val % 4) + 0xE000

/-- R555: the sample area takes CYC, the counters and both histograms at the places of R563; then SAMPLE_SEQ. -/
def State.samplePerf (s : State) (b : PerfBlk) : State :=
  let at' := fun (k : Nat) => b.val * 48 + k
  let cyc := s.get .PC_CYC b
  let s := (s.put .PC_SAMP (at' 0) (cyc % 2 ^ 32)).put .PC_SAMP (at' 1) (cyc / 2 ^ 32)
  let s := s.each (List.range 8) fun s j => s.put .PC_SAMP (at' (4 + j)) (s.get .PC_CNT (b.val * 8 + j))
  let s := s.each (List.range 16) fun s j =>
    (s.put .PC_SAMP (at' (16 + j)) (s.get .PC_H0 (b.val * 16 + j))).put .PC_SAMP (at' (32 + j)) (s.get .PC_H1 (b.val * 16 + j))
  s.inc .PC_SAMPLE_SEQ b

/-- R562: both histograms become zero. -/
def State.clearHist (s : State) (b : PerfBlk) : State :=
  s.each (List.range 16) fun s j => (s.put .PC_H0 (b.val * 16 + j) 0).put .PC_H1 (b.val * 16 + j) 0

/-- R550: every counter and histogram bin of the block becomes zero. -/
def State.clearPerf (s : State) (b : PerfBlk) : State :=
  (s.each (List.range 8) fun s j => s.put .PC_CNT (b.val * 8 + j) 0).clearHist b

/-- R562: a write of the control word of a block: SAMPLE first, then CLEAR (R560), then the fields. -/
def State.perfCtrlWrite (s : State) (b : PerfBlk) (v : Nat) : State :=
  let s := if v.testBit 30 then s.samplePerf b else s
  let s := if v.testBit 29 then s.clearPerf b else s
  s.writeWord (PerfBlk.half b) (perfOff b) v

def execPerfSampleWrite (b : PerfBlk) (v : W32) (s : State) : Host.Outcome State Fault Refusal :=
  done (s.hostWrite (PerfBlk.half b) fun s => s.perfCtrlWrite b v.toNat)

def execPerfClearWrite (b : PerfBlk) (v : W32) (s : State) : Host.Outcome State Fault Refusal :=
  done (s.hostWrite (PerfBlk.half b) fun s => s.perfCtrlWrite b v.toNat)

/-- R562: a write of the histogram word of a block; a write outside a range is ignored as a whole. -/
def State.histWrite (s : State) (b : PerfBlk) (v : Nat) : State :=
  let off := perfOff b + 0x30
  let bad := s.wordBad (PerfBlk.half b) off v
  let s := s.writeWord (PerfBlk.half b) off v
  if !bad && v.testBit 30 then s.clearHist b else s

def execHistogramClearWrite (b : PerfBlk) (v : W32) (s : State) : Host.Outcome State Fault Refusal :=
  done (s.hostWrite (PerfBlk.half b) fun s => s.histWrite b v.toNat)

/-! ### Fault injection -/

/-- R557: a write of FI_KEY: the key unlocks, unless DISABLE and LOCK are 1; any other value is ignored. -/
def State.keyWrite (s : State) (h : Half) (v : Nat) : State :=
  if v ≠ fiKey then s
  else if s.fiBarred h then s.writeIgnored h 0xA0004 0x08
  else s.put .FI_UNLOCKED h 1

def execFiKeyWrite (h : Half) (v : W32) (s : State) : Host.Outcome State Fault Refusal :=
  done (s.hostWrite h fun s => s.keyWrite h v.toNat)

/-- R557 and R564: a write of FI_CTRL; RELOCK ends every injection of the half and locks it. -/
def State.fiCtrlWrite (s : State) (h : Half) (v : Nat) : State :=
  let s := s.writeWord h 0xA0000 v
  if v.testBit 30 then s.relock h else s

def execFiRelockWrite (h : Half) (v : W32) (s : State) : Host.Outcome State Fault Refusal :=
  done (s.hostWrite h fun s => s.fiCtrlWrite h v.toNat)

/-- R558: the duration or the count of an active injection has been reached: kinds 1 and 2 carry a duration in µs, 4 and 7 a count. -/
def State.injectionOver (s : State) (i : Fin 32) : Bool :=
  let y := s.fi i
  match s.get .FIS_KIND i with
  | 1 | 2 => y.p2 != 0 && y.began + 250 * y.p2 ≤ (s.half (fiHalf i)).aon
  | 4 | 7 => y.p3 != 0 && y.p3 ≤ s.get .FIS_INJ_CNT i
  | _ => false

def execFaultInjectionExpiry (h : Half) (slot : Fin 16) (s : State) : Host.Outcome State Fault Refusal :=
  let i : Fin 32 := ⟨16 * h.val + slot.val, by omega⟩
  done (if s.isSet .FIS_ACTIVE i && s.injectionOver i then s.endSlot i else s)

end Sys2Proof.Machine
end

