-- ==== Sys2Proof/Machine/Mdio.lean ====
section
/-! DEFINITION. The Clause 45 MDIO slave of a half (R445 to R447). -/

namespace Sys2Proof.Machine

/-- R445: the enabled port of the half that answers at an address, while MDIO_EN = 1. -/
def State.mdioPort (s : State) (h : Half) (prtad : BitVec 5) : Option Lane :=
  let b := s.get .HIF_PRTAD_BASE h
  if !s.isSet .HIF_MDIO_EN h || !s.running h || prtad.toNat < b then none
  else h.lanes.find? fun l => l.val % 24 == prtad.toNat - b && s.app .PORT_EN l == 1

/-- R446: PMA reset: the port's lanes acquire again; a lane in IDLE stays there (R268). -/
def State.pmaReset (s : State) (p : Lane) : State :=
  let s := s.modPort p fun x => { x with pmaReset := true }
  s.each (s.portLanes p) fun s l => if s.get .ACQ_STATE l = acqIdle then s else s.acquire l

/-- R446: a write of register 1.0. -/
def State.mdioControl (s : State) (p : Lane) (v : BitVec 16) : State := if v.getLsbD 15 then s.pmaReset p else s

/-- R447: a commit that names a port. -/
def portReq (p : Lane) : Req := ⟨0, 0, false, false, false, false, 0, 0, 3, BitVec.ofNat 6 p.val, 0, .replicate 10 0⟩

/-- R447: a write of register 1.9: TX_EN of every lane of the port, then the implicit commit. -/
def State.mdioDisable (s : State) (p : Lane) (v : BitVec 16) : State :=
  let s := s.modPort p fun x => { x with txDisable := v.toNat % 2 ^ 9 }
  let s := s.each (s.portLanes p) fun s l =>
    s.writeShadow .FE_TX_EN l (if v.getLsbD 0 || v.getLsbD (posInPort p l + 1) then 0 else 1)
  if s.managing p.half then s.startCommit p.half none (portReq p) (s.shadowChanges (portReq p)) else s

/-- R446: register 1.1: fault, and the receive link status latching low. -/
def State.mdioStatus (s : State) (p : Lane) : Nat :=
  let st := s.get .PORT_STATE p
  (if st = 3 then 2 ^ 7 else 0) + (if st = 2 ∧ ¬ (s.port p).downSeen then 2 ^ 2 else 0)

/-- R446: a read of register 1.1 lets the link status follow the port again. -/
def State.mdioStatusRead (s : State) (p : Lane) : State :=
  (s.emit (.mdio p.half (s.mdioStatus p))).modPort p fun x => { x with downSeen := false }

/-- R446: register 1.10: SIG_DET of each lane, and of all. -/
def State.mdioDetect (s : State) (p : Lane) : Nat :=
  let ls := s.portLanes p
  (if ls.all fun l => s.isSet .FE_SIG_DET l then 1 else 0)
    + (ls.map fun (l : Lane) => if s.isSet .FE_SIG_DET l then 2 ^ (posInPort p l + 1) else 0).sum

/-- R445 and R446: what a register of a port reads. -/
def State.mdioRead (s : State) (p : Lane) (reg : Nat) : Nat :=
  let rate := s.app .PORT_RATE p
  match reg with
  | 0 => (if (s.port p).pmaReset then 2 ^ 15 else 0) + (Config.mdioSpeed rate &&& 0x207C)
  | 1 => s.mdioStatus p
  | 2 => Config.mdioDevice 2 % 2 ^ 16
  | 3 => Config.mdioDevice 3 % 2 ^ 16
  | 7 => Config.mdioType rate (s.app .PORT_LMODE p) % 2 ^ 7
  | 9 => (s.port p).txDisable
  | 10 => s.mdioDetect p
  | _ => 0

/-- R445: what a port does with a frame: DEVAD 1 only; a read of anything else reads 0 and a write is ignored. -/
def State.mdioFrame (s : State) (p : Lane) (devad : BitVec 5) (reg : BitVec 16) (write : Bool) (v : BitVec 16) : State :=
  if devad ≠ 1 then (if write then s else s.emit (.mdio p.half 0))
  else if write then
    match reg.toNat with
    | 0 => s.mdioControl p v
    | 9 => s.mdioDisable p v
    | _ => s
  else if reg = 1 then s.mdioStatusRead p
  else s.emit (.mdio p.half (s.mdioRead p reg.toNat))

/-- R445: a frame for the port at an address; an address without an enabled port does not answer. -/
def State.mdioAt (s : State) (h : Half) (prtad : BitVec 5) (u : State → Lane → State) : State :=
  match s.mdioPort h prtad with
  | some p => u s p
  | none => s

def execMdioPmaResetWrite (h : Half) (prtad : BitVec 5) (v : BitVec 16) (s : State) : Host.Outcome State Fault Refusal :=
  done (s.mdioAt h prtad fun s p => s.mdioControl p v)

def execMdioTxDisableWrite (h : Half) (prtad : BitVec 5) (v : BitVec 16) (s : State) : Host.Outcome State Fault Refusal :=
  done (s.mdioAt h prtad fun s p => s.mdioDisable p v)

def execMdioStatusRead (h : Half) (prtad : BitVec 5) (s : State) : Host.Outcome State Fault Refusal :=
  done (s.mdioAt h prtad State.mdioStatusRead)

def execMdioFrame (h : Half) (prtad devad : BitVec 5) (reg : BitVec 16) (write : Bool) (v : BitVec 16) (s : State) :
    Host.Outcome State Fault Refusal :=
  done (s.mdioAt h prtad fun s p => s.mdioFrame p devad reg write v)

end Sys2Proof.Machine
end

