-- ==== Sys2Proof/Machine/RegWrite.lean ====
section
/-! DEFINITION. Host accesses to the BARs of a half (R9 to R12, R441, R442, R498): a write reaches the register it names, with the effect
of that register. -/

namespace Sys2Proof.Machine

/-! ### Registers that act when written -/

/-- R301: a write of the injector's control word: INJ_CTX moves the injector, STOP ends what runs, START begins. DESIGN CHOICE: what runs goes on on
the context that INJ_CTX now names (log 225). -/
def State.injCtrlWrite (s : State) (g : Group) (off v : Nat) : State :=
  if s.wordBad g.half off v then s.writeWord g.half off v
  else
    let was := s.get .LG_INJ_CTX g
    let s := s.writeWord g.half off v
    let s := if s.get .LG_INJ_CTX g = was then s else s.injectorMoves g
    let s := if v.testBit 30 then s.injectionStop g else s
    if v.testBit 31 then s.injectionStart g else s

/-- R302: a write of the capture's control word. -/
def State.capCtrlWrite (s : State) (g : Group) (off v : Nat) : State :=
  if s.wordBad g.half off v then s.writeWord g.half off v
  else
    let s := s.writeWord g.half off v
    if v.testBit 31 then s.captureArm g else s

/-- R47, R467, R471: a write of HIF_CTRL; RUN of half B is written only while it is promoted. -/
def State.hifCtrlWrite (s : State) (h : Half) (v : Nat) : State :=
  if s.manages h then ((s.writeWord h 0x40000 v).settleRings h).dirty h
  else
    let s := if v.testBit 31 then s.writeIgnored h 0x40000 0x53 else s
    s.writeWord h 0x40000 (v % 2 ^ 31)

/-- R47: a set-up register of the rings has been written. -/
def State.noteSetup (s : State) (h : Half) (off : Nat) : State :=
  s.modHalf h fun y => { y with setup := off :: y.setup.filter (· != off) }

/-- R465: a write of a ring's base, ignored while EN = 1. -/
def State.ringBaseWrite (s : State) (h : Half) (q : Fin 8) (off v : Nat) : State :=
  if s.isSet .RING_EN (ringIdx h q) then s.writeIgnored h off 0x54 else (s.writeWord h off v).noteSetup h off

/-! ### A write of BAR0 -/

/-- The registers of a group block with an effect of their own, at an offset in the block. -/
def State.writeGroup (s : State) (g : Group) (o v : Nat) : Option State :=
  let h := g.half
  let off := 0x10000 * (1 + g.val % 3) + o
  let lane := fun (n : Nat) => g.lane ⟨n % 8, by omega⟩
  let blk : PerfBlk := ⟨4 * h.val + g.val % 3, by have := h.isLt; omega⟩
  if o = 0x104 then some (s.tableWrite g v)
  else if 0x4000 ≤ o ∧ o < 0x5000 ∧ o % 0x200 = 0x130 then some (s.latchWrite (lane (o / 0x200)) v)
  else if 0x6000 ≤ o ∧ o < 0x6800 ∧ o % 0x100 = 0x10 then some (s.fecClearWrite (lane (o / 0x100)) v)
  else if 0x8000 ≤ o ∧ o < 0x8800 ∧ o % 0x80 = 0 then
    some (s.hostEnWrite ⟨16 * g.val + o / 0x80 % 16, by have := g.isLt; omega⟩ (BitVec.ofNat 32 v))
  else if o = 0xC010 then some (s.injCtrlWrite g off v)
  else if o = 0xC020 then some (s.capCtrlWrite g off v)
  else if 0xD000 ≤ o ∧ o < 0xD100 ∧ o % 0x20 = 0 then some (s.ceilWrite (lane (o / 0x20)) v)
  else if o = 0xE000 then some (s.perfCtrlWrite blk v)
  else if o = 0xE030 then some (s.histWrite blk v)
  else none

/-- The registers of the rings and the host interface with an effect of their own. -/
def State.writeRings (s : State) (h : Half) (off v : Nat) : Option State :=
  if off = 0x40000 then some (s.hifCtrlWrite h v)
  else if off = 0x40008 ∨ off = 0x4000C then some ((s.writeWord h off v).noteSetup h off)
  else if 0x40100 ≤ off ∧ off < 0x40200 then
    let q : Fin 8 := ⟨off / 0x20 % 8, by omega⟩
    match off % 0x20 with
    | 0 | 4 => some (s.ringBaseWrite h q off v)
    | 8 => some (s.ringCtrlWrite h q v)
    | _ => none
  else none

/-- The registers of the monitor and the control DAC with an effect of their own. -/
def State.writeMonitor (s : State) (h : Half) (off v : Nat) : Option State :=
  if off = 0x50000 then some (s.tdacWrite h v)
  else if 0x50100 ≤ off ∧ off < 0x502A0 then some (s.inputWrite ⟨104 * h.val + (off - 0x50100) / 4 % 104, by have := h.isLt; omega⟩ v)
  else if 0x51000 ≤ off ∧ off < 0x52000 then
    some (s.entryWrite ⟨256 * h.val + off / 0x10 % 256, by have := h.isLt; omega⟩ (off % 0x10 / 4) v)
  else if 0x52000 ≤ off ∧ off < 0x52400 then
    let c : ChainN := ⟨32 * h.val + off / 0x20 % 32, by have := h.isLt; omega⟩
    match off % 0x20 with
    | 0 => some (s.chainWrite c 0 v)
    | 4 => some (s.chainWrite c 1 v)
    | 0x18 => some (s.chainRestartWrite c v)
    | _ => none
  else if 0x54000 ≤ off ∧ off < 0x54500 then
    let c : Chan := ⟨80 * h.val + (off - 0x54000) / 0x10 % 80, by have := h.isLt; omega⟩
    match off % 0x10 with
    | 0 => some (s.modeWrite c v)
    | 4 => some (s.codeWrite c v)
    | 8 => some (s.clrCodeWrite c v)
    | _ => none
  else none

/-- The other registers of a half with an effect of their own. -/
def State.writeHalf (s : State) (h : Half) (off v : Nat) : Option State :=
  let blk : PerfBlk := ⟨4 * h.val + 3, by have := h.isLt; omega⟩
  match off with
  | 0x110 => some (s.starterRequest h v)
  | 0x120 | 0x124 | 0x128 | 0x12C => some s
  | 0x1000 => some (s.perfCtrlWrite blk v)
  | 0x1030 => some (s.histWrite blk v)
  | 0x60000 => some (s.timeCtrlWrite h v)
  | 0x60004 => some (s.addendWrite h v)
  | 0x60008 => some (s.slewWrite h v)
  | 0x70008 => some (s.tripClear h v)
  | 0x70800 => some (s.lockWrite h v)
  | 0x70808 => some (s.resumeWrite h v)
  | 0xA0000 => some (s.fiCtrlWrite h v)
  | 0xA0004 => some (s.keyWrite h v)
  | _ => none

/-- A write of BAR0 after release: the register with an effect of its own, else the fields of the word. -/
def State.writeBar0 (s : State) (h : Half) (off v : Nat) : State :=
  let own :=
    if hg : 0x10000 ≤ off ∧ off < 0x40000 then
      s.writeGroup ⟨3 * h.val + (off / 0x10000 - 1), by have := h.isLt; omega⟩ (off % 0x10000) v
    else if off / 0x10000 = 4 then s.writeRings h off v
    else if off / 0x10000 = 5 then s.writeMonitor h off v
    else s.writeHalf h off v
  own.getD (s.writeWord h off v)

/-- R498, R504, R505: in Starter mode only the Starter registers take a write, and not while a load runs. -/
def State.writeStarter (s : State) (h : Half) (off v : Nat) : State :=
  if s.get .BOOT_STATE h ≠ bootStarter ∨ s.isSet .BOOT_BUSY h then s
  else if off = 0x12C then s.starterGo h v
  else if off = 0x120 ∨ off = 0x124 ∨ off = 0x128 then s.writeWord h off v
  else s

/-! ### A write of BAR2 -/

/-- R444 and R441: a write of a word of the MSI-X table; word 3 is held with the mask bit inverted. A vector that is unmasked sends what
is pending. -/
def State.msixWrite (s : State) (h : Half) (k v : Nat) : State :=
  let w := if k % 4 = 3 then v / 2 * 2 + (1 - v % 2) else v
  (s.modHalf h fun y => { y with msixTbl := y.msixTbl.set k w }).sendPending h

/-- R450 and R441: a write of BAR2: doorbells and the MSI-X table. -/
def State.writeBar2 (s : State) (h : Half) (off v : Nat) : State :=
  if off < 0x20 then
    if off % 8 = 0 then s.commandDoorbell h ⟨off / 8 % 4, by omega⟩ v else s
  else if off = 0x40 then s.doorbell h 4 v
  else if off = 0x48 then (s.doorbell h 5 v).noteLost h
  else if off = 0x50 then s.doorbell h 6 v
  else if off = 0x58 then s.doorbell h 7 v
  else if 0x800 ≤ off ∧ off < 0xA00 then s.msixWrite h ((off - 0x800) / 4) v
  else s

/-! ### The accesses -/

/-- R442: an access to BAR0 or BAR2 that is not aligned or not of 32 bits. -/
def badAccess (off size : Nat) : Bool := size != 4 || off % 4 != 0

/-- R9 to R11, R441, R442, R498, R536: a host write. -/
def execRegisterWrite (h : Half) (bar : Bar) (off : W20) (size : Nat) (v : W32) (s : State) : Host.Outcome State Fault Refusal :=
  let o := off.toNat
  if !s.answers h then done s
  else match bar with
  | .bar4 => done s
  | .bar2 => done (if badAccess o size then s.hifFlag h .HIF_BAD_ACCESS else s.writeBar2 h o v.toNat)
  | .bar0 =>
    if s.running h then done (if badAccess o size then s.hifFlag h .HIF_BAD_ACCESS else s.writeBar0 h o v.toNat)
    else done (if badAccess o size then s else s.writeStarter h o v.toNat)

/-- R498: the registers that read before release: TOP_ID, TOP_BRIDGE and those of the start. -/
def readsEarly (off : Nat) : Bool := off == 0 || off == 0x40 || (0x100 ≤ off && off < 0x140)

/-- A read of BAR0: the registers whose read has an effect of its own (R209, R302, R387, R405), else the fields of the word. -/
def State.readBar0 (s : State) (h : Half) (off : Nat) : State :=
  if off = 0x60010 then s.fracRead h
  else if off = 0x60040 then s.ppsRead h
  else
    match h.groups.find? fun g => off == windowOff g || off == captureOff g with
    | some g => if off = windowOff g then s.tableRead g else s.captureRead g
    | none => s.latchLow h off

/-- R441 and R450: a word of BAR2: doorbells read 0, the MSI-X table as it is held, with the mask bit inverted, and the pending bits. -/
def State.bar2Word (s : State) (h : Half) (off : Nat) : Nat :=
  let y := s.half h
  if 0x800 ≤ off ∧ off < 0xA00 then
    let k := (off - 0x800) / 4
    let w := y.msixTbl.get k
    if k % 4 = 3 then w / 2 * 2 + (1 - w % 2) else w
  else if off = 0xC00 then (y.msixPend.dedup.map (2 ^ ·)).sum
  else 0

/-- R553 and R563: a word of the counter page: the mirror's fields, while USER_EN of its block is 1. -/
def State.bar4Word (s : State) (h : Half) (off : Nat) : Nat :=
  let b : PerfBlk := ⟨4 * h.val + off / 0x1000 % 4, by have := h.isLt; omega⟩
  let o := off % 0x1000
  if s.isSet .PERF_USER_EN b ∧ o < 0x1C4 then s.readFields h (perfOff b + 0x800 + o) else 0

/-- R442 and R554: a read of BAR4, of 32 or 64 bits; what one of another size answers is left open. -/
def State.readBar4 (s : State) (h : Half) (off size : Nat) : State :=
  if size = 4 ∧ off % 4 = 0 then s.emit (.readBar h .bar4 off (s.bar4Word h off))
  else if size = 8 ∧ off % 8 = 0 then s.emit (.readBar h .bar4 off (s.bar4Word h off + 2 ^ 32 * s.bar4Word h (off + 4)))
  else
    let d := s.draw
    d.2.emit (.readBar h .bar4 off (Config.openRead d.1 % 2 ^ (8 * size)))

/-- R442: a read of BAR0 or BAR2 that is not aligned or not of 32 bits answers all ones. -/
def State.badRead (s : State) (h : Half) (bar : Bar) (off size : Nat) : State :=
  let s := s.emit (.readBar h bar off (2 ^ (8 * size) - 1))
  if s.running h then s.hifFlag h .HIF_BAD_ACCESS else s

/-- R12, R441, R442, R450, R498, R536, R553: a host read. -/
def execLowWordReadLatch (h : Half) (rd : HostRead) (s : State) : Host.Outcome State Fault Refusal :=
  let o := rd.off.toNat
  if !s.answers h then done s
  else match rd.bar with
  | .bar4 => done (s.readBar4 h o rd.size)
  | .bar2 => done (if badAccess o rd.size then s.badRead h .bar2 o rd.size else s.emit (.readBar h .bar2 o (s.bar2Word h o)))
  | .bar0 =>
    done (if badAccess o rd.size then s.badRead h .bar0 o rd.size
      else if readsEarly o then s.latchLow h o
      else s.hostRead h o fun s => s.readBar0 h o)

/-- R439 and R440: what each PCIe function presents: Vendor, Device and Revision ID, class code, the subsystem IDs, MSI-X vectors, the largest
payload and read request that it takes, and the largest read that it issues. -/
structure PciFunction where
  vendor : Nat := 0x1E5D
  device : Nat := 0x4896
  revision : Nat := 0xB0
  classCode : Nat := 0x118000
  subsystem : Nat × Nat
  msixVectors : Nat := 32
  maxPayload : List Nat := [128, 256]
  maxReadRequest : List Nat := [128, 256, 512, 1024, 2048, 4096]
  readsOfAtMost : Nat := 512
  interruptPin : Nat := 0

def pciFunction : PciFunction := { subsystem := Config.subsystem }

end Sys2Proof.Machine
end

