-- ==== Sys2Proof/Machine/Dispatch.lean ====
section
/-! DEFINITION. The dispatch: one arm for each command of spec/opcode_table.json, each one direct call of its meaning. -/

namespace Sys2Proof.Machine

def exec (i : Instr) (s : State) : Host.Outcome State Fault Refusal :=
  match i with
  | .registerWrite h bar off size v => Sys2Proof.Machine.execRegisterWrite h bar off size v s
  | .lowWordReadLatch h rd => Sys2Proof.Machine.execLowWordReadLatch h rd s
  | .heartbeatSend h => Sys2Proof.Machine.execHeartbeatSend h s
  | .heartbeatReceive h beat => Sys2Proof.Machine.execHeartbeatReceive h beat s
  | .heartbeatWindowExpiry h => Sys2Proof.Machine.execHeartbeatWindowExpiry h s
  | .releaseHeartbeatTimeout h => Sys2Proof.Machine.execReleaseHeartbeatTimeout h s
  | .rejoinTimeStep => Sys2Proof.Machine.execRejoinTimeStep s
  | .cellFail u => Sys2Proof.Machine.execCellFail u s
  | .refclkLoss h => Sys2Proof.Machine.execRefclkLoss h s
  | .commitApply l => Sys2Proof.Machine.execCommitApply l s
  | .snapshotLatch h => Sys2Proof.Machine.execSnapshotLatch h s
  | .swingRampStep l => Sys2Proof.Machine.execSwingRampStep l s
  | .segmentSwapStart t => Sys2Proof.Machine.execSegmentSwapStart t s
  | .segmentSwapComplete l cal => Sys2Proof.Machine.execSegmentSwapComplete l cal s
  | .segmentSwapTimeout l bothRuns => Sys2Proof.Machine.execSegmentSwapTimeout l bothRuns s
  | .gainHoldExpiry l errQ => Sys2Proof.Machine.execGainHoldExpiry l errQ s
  | .gainStepApply l => Sys2Proof.Machine.execGainStepApply l s
  | .overloadStep l clips samples => Sys2Proof.Machine.execOverloadStep l clips samples s
  | .sigDetClear l levelQ => Sys2Proof.Machine.execSigDetClear l levelQ s
  | .sigDetSet l levelQ => Sys2Proof.Machine.execSigDetSet l levelQ s
  | .subadcRotationStart l cal => Sys2Proof.Machine.execSubadcRotationStart l cal s
  | .subadcRotationRetry l cal => Sys2Proof.Machine.execSubadcRotationRetry l cal s
  | .handoverEnd l cmp => Sys2Proof.Machine.execHandoverEnd l cmp s
  | .subadcEnsembleCheck l m => Sys2Proof.Machine.execSubadcEnsembleCheck l m s
  | .adaptBlockEnd l m => Sys2Proof.Machine.execAdaptBlockEnd l m s
  | .kneaderUpdate l k => Sys2Proof.Machine.execKneaderUpdate l k s
  | .coeffBankSwap l => Sys2Proof.Machine.execCoeffBankSwap l s
  | .checkpointTimer l => Sys2Proof.Machine.execCheckpointTimer l s
  | .checkpointRevert l => Sys2Proof.Machine.execCheckpointRevert l s
  | .timingLockSet l => Sys2Proof.Machine.execTimingLockSet l s
  | .timingLockLoss l => Sys2Proof.Machine.execTimingLockLoss l s
  | .effortChangeApply l => Sys2Proof.Machine.execEffortChangeApply l s
  | .sliceRotationStart g => Sys2Proof.Machine.execSliceRotationStart g s
  | .sliceRotationComplete g rxSame txSame => Sys2Proof.Machine.execSliceRotationComplete g rxSame txSame s
  | .sliceFail l => Sys2Proof.Machine.execSliceFail l s
  | .captureWrite l v => Sys2Proof.Machine.execCaptureWrite l v s
  | .eqBankCapture l => Sys2Proof.Machine.execEqBankCapture l s
  | .codewordReceive l cw => Sys2Proof.Machine.execCodewordReceive l cw s
  | .cwLockLoss l => Sys2Proof.Machine.execCwLockLoss l s
  | .fecClearWrite l v => Sys2Proof.Machine.execFecClearWrite l v s
  | .fecCounterClear l => Sys2Proof.Machine.execFecCounterClear l s
  | .latencyMeasured l txLat rxLat => Sys2Proof.Machine.execLatencyMeasured l txLat rxLat s
  | .feqBlockEnd l codes phase first => Sys2Proof.Machine.execFeqBlockEnd l codes phase first s
  | .snrWindowEnd l syms => Sys2Proof.Machine.execSnrWindowEnd l syms s
  | .loadingComputed l => Sys2Proof.Machine.execLoadingComputed l s
  | .swapReqReceive l fr ago => Sys2Proof.Machine.execSwapReqReceive l fr ago s
  | .swapRespReceive l fr => Sys2Proof.Machine.execSwapRespReceive l fr s
  | .bitswapTxSwitch l => Sys2Proof.Machine.execBitswapTxSwitch l s
  | .bitswapRxDecide l syms => Sys2Proof.Machine.execBitswapRxDecide l syms s
  | .pilotFlagUnexpected l syms => Sys2Proof.Machine.execPilotFlagUnexpected l syms s
  | .bitswapRetry l => Sys2Proof.Machine.execBitswapRetry l s
  | .swapSuspendEnd l => Sys2Proof.Machine.execSwapSuspendEnd l s
  | .tableWindowWrite g v => Sys2Proof.Machine.execTableWindowWrite g v s
  | .tableWindowRead g => Sys2Proof.Machine.execTableWindowRead g s
  | .hostDetectProbe hl => Sys2Proof.Machine.execHostDetectProbe hl s
  | .hostDetectComplete hl => Sys2Proof.Machine.execHostDetectComplete hl s
  | .hostTrainingFrameReceive hl fr => Sys2Proof.Machine.execHostTrainingFrameReceive hl fr s
  | .hostTrainComplete hl => Sys2Proof.Machine.execHostTrainComplete hl s
  | .hostTrainTimeout hl => Sys2Proof.Machine.execHostTrainTimeout hl s
  | .hostLockComplete m => Sys2Proof.Machine.execHostLockComplete m s
  | .hostLockTimeout hl => Sys2Proof.Machine.execHostLockTimeout hl s
  | .hostCapComplete hl m => Sys2Proof.Machine.execHostCapComplete hl m s
  | .hostCapTimeout hl => Sys2Proof.Machine.execHostCapTimeout hl s
  | .hostMarkerLockLoss hl => Sys2Proof.Machine.execHostMarkerLockLoss hl s
  | .hostActiveLoss hl loss => Sys2Proof.Machine.execHostActiveLoss hl loss s
  | .hostEnWrite hl v => Sys2Proof.Machine.execHostEnWrite hl v s
  | .skewOvr p line skew => Sys2Proof.Machine.execSkewOvr p line skew s
  | .preambleDetect l rx => Sys2Proof.Machine.execPreambleDetect l rx s
  | .headerReceive l sync hdr => Sys2Proof.Machine.execHeaderReceive l sync hdr s
  | .receptionLevelAbort l block => Sys2Proof.Machine.execReceptionLevelAbort l block s
  | .capFrameSend l => Sys2Proof.Machine.execCapFrameSend l s
  | .capFrameReceive l fr => Sys2Proof.Machine.execCapFrameReceive l fr s
  | .enterTrain l => Sys2Proof.Machine.execEnterTrain l s
  | .linkWaitTimer l => Sys2Proof.Machine.execLinkWaitTimer l s
  | .trainingBlockStart l ui => Sys2Proof.Machine.execTrainingBlockStart l ui s
  | .statusFrameReceive l fr => Sys2Proof.Machine.execStatusFrameReceive l fr s
  | .presetFrameReceive l fr => Sys2Proof.Machine.execPresetFrameReceive l fr s
  | .rhoSearchComplete l margins => Sys2Proof.Machine.execRhoSearchComplete l margins s
  | .txDataStart l => Sys2Proof.Machine.execTxDataStart l s
  | .rxDataStart l => Sys2Proof.Machine.execRxDataStart l s
  | .dmtShortenComplete l taps window => Sys2Proof.Machine.execDmtShortenComplete l taps window s
  | .loadFrameReceive l fr => Sys2Proof.Machine.execLoadFrameReceive l fr s
  | .ackFrameReceive l fr => Sys2Proof.Machine.execAckFrameReceive l fr s
  | .loadRetry l => Sys2Proof.Machine.execLoadRetry l s
  | .acqTimeout l => Sys2Proof.Machine.execAcqTimeout l s
  | .holdoffEnd l => Sys2Proof.Machine.execHoldoffEnd l s
  | .loopFrame => Sys2Proof.Machine.execLoopFrame s
  | .loopConfigLatch g => Sys2Proof.Machine.execLoopConfigLatch g s
  | .loopSample x => Sys2Proof.Machine.execLoopSample x s
  | .holdTimeout x => Sys2Proof.Machine.execHoldTimeout x s
  | .parkComplete x => Sys2Proof.Machine.execParkComplete x s
  | .injectionStart g => Sys2Proof.Machine.execInjectionStart g s
  | .injectionStop g => Sys2Proof.Machine.execInjectionStop g s
  | .injectionEnd g => Sys2Proof.Machine.execInjectionEnd g s
  | .captureArm g => Sys2Proof.Machine.execCaptureArm g s
  | .captureDone g => Sys2Proof.Machine.execCaptureDone g s
  | .captureDataRead g => Sys2Proof.Machine.execCaptureDataRead g s
  | .lsLockWrite h v => Sys2Proof.Machine.execLsLockWrite h v s
  | .lsCeilWrite l v => Sys2Proof.Machine.execLsCeilWrite l v s
  | .biasHoldEnd l => Sys2Proof.Machine.execBiasHoldEnd l s
  | .overPowerTrip l microAmps => Sys2Proof.Machine.execOverPowerTrip l microAmps s
  | .safeOffAssert h => Sys2Proof.Machine.execSafeOffAssert h s
  | .safeOffDeassert h => Sys2Proof.Machine.execSafeOffDeassert h s
  | .safeOffAutoRelease h => Sys2Proof.Machine.execSafeOffAutoRelease h s
  | .safeOffResumeWrite h v => Sys2Proof.Machine.execSafeOffResumeWrite h v s
  | .aprHoldEntry l => Sys2Proof.Machine.execAprHoldEntry l s
  | .aprThresholdLower l => Sys2Proof.Machine.execAprThresholdLower l s
  | .aprRestartPulse l => Sys2Proof.Machine.execAprRestartPulse l s
  | .aprPulseEnd l => Sys2Proof.Machine.execAprPulseEnd l s
  | .sequenceDue q => Sys2Proof.Machine.execSequenceDue q s
  | .sequenceRunStart q => Sys2Proof.Machine.execSequenceRunStart q s
  | .monitorConversion q applied slots => Sys2Proof.Machine.execMonitorConversion q applied slots s
  | .inputConfigWrite n v => Sys2Proof.Machine.execInputConfigWrite n v s
  | .monitorEntryWrite n word v => Sys2Proof.Machine.execMonitorEntryWrite n word v s
  | .chainConfigWrite ch word v => Sys2Proof.Machine.execChainConfigWrite ch word v s
  | .chainRestartWrite ch v => Sys2Proof.Machine.execChainRestartWrite ch v s
  | .cdacUpdate h => Sys2Proof.Machine.execCdacUpdate h s
  | .cdacCodeWrite c v => Sys2Proof.Machine.execCdacCodeWrite c v s
  | .cdacClrCodeWrite c v => Sys2Proof.Machine.execCdacClrCodeWrite c v s
  | .cdacModeWrite c v => Sys2Proof.Machine.execCdacModeWrite c v s
  | .cdacReconnect c => Sys2Proof.Machine.execCdacReconnect c s
  | .clrAssert h => Sys2Proof.Machine.execClrAssert h s
  | .clrDeassert h => Sys2Proof.Machine.execClrDeassert h s
  | .vctlValid h => Sys2Proof.Machine.execVctlValid h s
  | .vctlInvalid h => Sys2Proof.Machine.execVctlInvalid h s
  | .dieSensorConversion d temp => Sys2Proof.Machine.execDieSensorConversion d temp s
  | .engineSensorConversion e r => Sys2Proof.Machine.execEngineSensorConversion e r s
  | .aonRetrim h => Sys2Proof.Machine.execAonRetrim h s
  | .throttleTick g => Sys2Proof.Machine.execThrottleTick g s
  | .thermalTrip d => Sys2Proof.Machine.execThermalTrip d s
  | .thermtripPinTrip h => Sys2Proof.Machine.execThermtripPinTrip h s
  | .thermalTripClear h v => Sys2Proof.Machine.execThermalTripClear h v s
  | .monitorAdcCalibration h cal => Sys2Proof.Machine.execMonitorAdcCalibration h cal s
  | .cdacDriftCheck c readback => Sys2Proof.Machine.execCdacDriftCheck c readback s
  | .calibrationStarved h => Sys2Proof.Machine.execCalibrationStarved h s
  | .trimReapply g => Sys2Proof.Machine.execTrimReapply g s
  | .timeTick h => Sys2Proof.Machine.execTimeTick h s
  | .timeAddendWrite h v => Sys2Proof.Machine.execTimeAddendWrite h v s
  | .timeSlewWrite h v => Sys2Proof.Machine.execTimeSlewWrite h v s
  | .timeStepWrite h v => Sys2Proof.Machine.execTimeStepWrite h v s
  | .timeStepApply h => Sys2Proof.Machine.execTimeStepApply h s
  | .timeFracRead h => Sys2Proof.Machine.execTimeFracRead h s
  | .ppsInEdge => Sys2Proof.Machine.execPpsInEdge s
  | .ppsLost => Sys2Proof.Machine.execPpsLost s
  | .ppsFracRead h => Sys2Proof.Machine.execPpsFracRead h s
  | .ppsOutPulseEnd => Sys2Proof.Machine.execPpsOutPulseEnd s
  | .ptpTransmitMessage l m => Sys2Proof.Machine.execPtpTransmitMessage l m s
  | .ptpReceiveMessage l m => Sys2Proof.Machine.execPtpReceiveMessage l m s
  | .timestampRecordWrite h => Sys2Proof.Machine.execTimestampRecordWrite h s
  | .scheduledActionFire h => Sys2Proof.Machine.execScheduledActionFire h s
  | .kneaderTrap k cause => Sys2Proof.Machine.execKneaderTrap k cause s
  | .kneaderReloadComplete k verified => Sys2Proof.Machine.execKneaderReloadComplete k verified s
  | .kneaderSubstitutionComplete k => Sys2Proof.Machine.execKneaderSubstitutionComplete k s
  | .spareKneaderTest u sig => Sys2Proof.Machine.execSpareKneaderTest u sig s
  | .selftestComplete h e sig => Sys2Proof.Machine.execSelftestComplete h e sig s
  | .testmodeAssert => Sys2Proof.Machine.execTestmodeAssert s
  | .jtagScanInstruction extest => Sys2Proof.Machine.execJtagScanInstruction extest s
  | .scrubRead m r => Sys2Proof.Machine.execScrubRead m r s
  | .memoryCorrectedRead m arr word => Sys2Proof.Machine.execMemoryCorrectedRead m arr word s
  | .trackerWriteBack m arr word => Sys2Proof.Machine.execTrackerWriteBack m arr word s
  | .memoryUncorrectableRead m arr word rd => Sys2Proof.Machine.execMemoryUncorrectableRead m arr word rd s
  | .memUeRelease rd => Sys2Proof.Machine.execMemUeRelease rd s
  | .repairLogFlashCopy h => Sys2Proof.Machine.execRepairLogFlashCopy h s
  | .busMasterDisable h => Sys2Proof.Machine.execBusMasterDisable h s
  | .busMasterEnable h => Sys2Proof.Machine.execBusMasterEnable h s
  | .msixModerationTimer h q => Sys2Proof.Machine.execMsixModerationTimer h q s
  | .mdioPmaResetWrite h prtad v => Sys2Proof.Machine.execMdioPmaResetWrite h prtad v s
  | .mdioTxDisableWrite h prtad v => Sys2Proof.Machine.execMdioTxDisableWrite h prtad v s
  | .mdioStatusRead h prtad => Sys2Proof.Machine.execMdioStatusRead h prtad s
  | .mdioFrame h prtad devad reg write v => Sys2Proof.Machine.execMdioFrame h prtad devad reg write v s
  | .commandDoorbell h q v => Sys2Proof.Machine.execCommandDoorbell h q v s
  | .completionDoorbell h v => Sys2Proof.Machine.execCompletionDoorbell h v s
  | .eventDoorbell h v => Sys2Proof.Machine.execEventDoorbell h v s
  | .telemetryDoorbell h v => Sys2Proof.Machine.execTelemetryDoorbell h v s
  | .timestampDoorbell h v => Sys2Proof.Machine.execTimestampDoorbell h v s
  | .descriptorFetch h q => Sys2Proof.Machine.execDescriptorFetch h q s
  | .descriptorDataReceive h q data => Sys2Proof.Machine.execDescriptorDataReceive h q data s
  | .descriptorTake h => Sys2Proof.Machine.execDescriptorTake h s
  | .bridgeCommandReceive => Sys2Proof.Machine.execBridgeCommandReceive s
  | .bridgeCompletionReceive => Sys2Proof.Machine.execBridgeCompletionReceive s
  | .completionWrite h => Sys2Proof.Machine.execCompletionWrite h s
  | .statusBlockWrite h => Sys2Proof.Machine.execStatusBlockWrite h s
  | .eventRecordWrite h => Sys2Proof.Machine.execEventRecordWrite h s
  | .telemetryRecordWrite h => Sys2Proof.Machine.execTelemetryRecordWrite h s
  | .ringReset h q v => Sys2Proof.Machine.execRingReset h q v s
  | .ringEnable h q v => Sys2Proof.Machine.execRingEnable h q v s
  | .identify h r => Sys2Proof.Machine.execIdentify h r s
  | .commit h r => Sys2Proof.Machine.execCommit h r s
  | .schedCancel h r => Sys2Proof.Machine.execSchedCancel h r s
  | .timeFreq h r => Sys2Proof.Machine.execTimeFreq h r s
  | .timeSlew h r => Sys2Proof.Machine.execTimeSlew h r s
  | .timeStep h r => Sys2Proof.Machine.execTimeStep h r s
  | .nop h r => Sys2Proof.Machine.execNop h r s
  | .cfgWrite h r => Sys2Proof.Machine.execCfgWrite h r s
  | .cfgDiscard h r => Sys2Proof.Machine.execCfgDiscard h r s
  | .bitswap h r => Sys2Proof.Machine.execBitswap h r s
  | .retrain h r => Sys2Proof.Machine.execRetrain h r s
  | .fenceRelease h r => Sys2Proof.Machine.execFenceRelease h r s
  | .eqCapture h r => Sys2Proof.Machine.execEqCapture h r s
  | .lsLock h r => Sys2Proof.Machine.execLsLock h r s
  | .safeResume h r => Sys2Proof.Machine.execSafeResume h r s
  | .aprRestart h r => Sys2Proof.Machine.execAprRestart h r s
  | .loopStatus h r => Sys2Proof.Machine.execLoopStatus h r s
  | .cntClear h r => Sys2Proof.Machine.execCntClear h r s
  | .monRead h r => Sys2Proof.Machine.execMonRead h r s
  | .eventFilter h r => Sys2Proof.Machine.execEventFilter h r s
  | .subscribe h r => Sys2Proof.Machine.execSubscribe h r s
  | .unsubscribe h r => Sys2Proof.Machine.execUnsubscribe h r s
  | .snapshot h r => Sys2Proof.Machine.execSnapshot h r s
  | .groupState h r => Sys2Proof.Machine.execGroupState h r s
  | .deviceState h r => Sys2Proof.Machine.execDeviceState h r s
  | .padRelease h r => Sys2Proof.Machine.execPadRelease h r s
  | .fenceReleaseGroup h r => Sys2Proof.Machine.execFenceReleaseGroup h r s
  | .reset h r => Sys2Proof.Machine.execReset h r s
  | .selftest h r => Sys2Proof.Machine.execSelftest h r s
  | .updLoad h r => Sys2Proof.Machine.execUpdLoad h r s
  | .updVerify h r => Sys2Proof.Machine.execUpdVerify h r s
  | .updVerifyComplete h err => Sys2Proof.Machine.execUpdVerifyComplete h err s
  | .updActivate h r => Sys2Proof.Machine.execUpdActivate h r s
  | .updConfirm h r => Sys2Proof.Machine.execUpdConfirm h r s
  | .updRollback h r => Sys2Proof.Machine.execUpdRollback h r s
  | .dumpBuf h r => Sys2Proof.Machine.execDumpBuf h r s
  | .dumpFetch h r => Sys2Proof.Machine.execDumpFetch h r s
  | .fiUnlock h r => Sys2Proof.Machine.execFiUnlock h r s
  | .fiSet h r => Sys2Proof.Machine.execFiSet h r s
  | .fiClear h r => Sys2Proof.Machine.execFiClear h r s
  | .attOpen h r => Sys2Proof.Machine.execAttOpen h r s
  | .attQuote h r => Sys2Proof.Machine.execAttQuote h r s
  | .attCert h r => Sys2Proof.Machine.execAttCert h r s
  | .attClose h r => Sys2Proof.Machine.execAttClose h r s
  | .handshakeDelayEnd g => Sys2Proof.Machine.execHandshakeDelayEnd g s
  | .handshakeTimeout g => Sys2Proof.Machine.execHandshakeTimeout g s
  | .powerSaveComplete g => Sys2Proof.Machine.execPowerSaveComplete g s
  | .proofWindowOpen g => Sys2Proof.Machine.execProofWindowOpen g s
  | .proofWindowClose g => Sys2Proof.Machine.execProofWindowClose g s
  | .wakeRailCheck g good => Sys2Proof.Machine.execWakeRailCheck g good s
  | .wakeComplete g => Sys2Proof.Machine.execWakeComplete g s
  | .d3hotEntry h => Sys2Proof.Machine.execD3hotEntry h s
  | .d3hotRetry h => Sys2Proof.Machine.execD3hotRetry h s
  | .d0Return h => Sys2Proof.Machine.execD0Return h s
  | .porstAssert => Sys2Proof.Machine.execPorstAssert s
  | .porstDeassert => Sys2Proof.Machine.execPorstDeassert s
  | .perstAssert h => Sys2Proof.Machine.execPerstAssert h s
  | .perstDeassert h => Sys2Proof.Machine.execPerstDeassert h s
  | .flr h => Sys2Proof.Machine.execFlr h s
  | .startStepComplete h r => Sys2Proof.Machine.execStartStepComplete h r s
  | .startRelease h r => Sys2Proof.Machine.execStartRelease h r s
  | .starterRequestWrite h v => Sys2Proof.Machine.execStarterRequestWrite h v s
  | .starterLoadGo h v => Sys2Proof.Machine.execStarterLoadGo h v s
  | .starterLoadComplete h r img => Sys2Proof.Machine.execStarterLoadComplete h r img s
  | .settingsRecordWrite h => Sys2Proof.Machine.execSettingsRecordWrite h s
  | .fatalError h cause kn => Sys2Proof.Machine.execFatalError h cause kn s
  | .subscriptionLatch h => Sys2Proof.Machine.execSubscriptionLatch h s
  | .perfSampleWrite b v => Sys2Proof.Machine.execPerfSampleWrite b v s
  | .perfClearWrite b v => Sys2Proof.Machine.execPerfClearWrite b v s
  | .histogramClearWrite b v => Sys2Proof.Machine.execHistogramClearWrite b v s
  | .fiKeyWrite h v => Sys2Proof.Machine.execFiKeyWrite h v s
  | .fiRelockWrite h v => Sys2Proof.Machine.execFiRelockWrite h v s
  | .faultInjectionExpiry h slot => Sys2Proof.Machine.execFaultInjectionExpiry h slot s
  | .aonSupplyLoss => Sys2Proof.Machine.execAonSupplyLoss s
  | .railUndervoltage => Sys2Proof.Machine.execRailUndervoltage s
  | .refclkRestored h => Sys2Proof.Machine.execRefclkRestored h s
  | .aonSupplyRestored => Sys2Proof.Machine.execAonSupplyRestored s
  | .thermtripPinHigh h => Sys2Proof.Machine.execThermtripPinHigh h s
  | .codewordAlignmentGained l => Sys2Proof.Machine.execCodewordAlignmentGained l s
  | .searchResume l => Sys2Proof.Machine.execSearchResume l s
  | .unlistedFrameReceive l fr => Sys2Proof.Machine.execUnlistedFrameReceive l fr s
  | .updLoadComplete h data => Sys2Proof.Machine.execUpdLoadComplete h data s
  | .groupResetComplete g => Sys2Proof.Machine.execGroupResetComplete g s
  | .pllLockLoss u => Sys2Proof.Machine.execPllLockLoss u s
  | .bridgeRecordReceive => Sys2Proof.Machine.execBridgeRecordReceive s

end Sys2Proof.Machine
end

