-- ==== Sys2Proof/Machine/Pins.lean ====
section
/-! DEFINITION. The ball map of the package (R565 to R569): what each position of the 64 × 64 grid carries. -/

namespace Sys2Proof.Machine

/-- R572: the supply rails. -/
inductive Rail where
  | core | sram | line | lineOut | host | hostOut | clk | aon | io | vctl
  deriving DecidableEq, Repr

/-- R568: the pins that each half has of its own, with their number where the rule numbers them. -/
inductive HalfPin where
  | pclk (neg : Bool) | pet (neg : Bool) | per (neg : Bool) | refclk (neg : Bool)
  | perst | porst | testmode | safeOff | thermtrip | clr | alert | mdc | mdio
  | flashClock | flashSelect | flashStrobe | flashReset | flashData (n : Fin 8)
  deriving DecidableEq, Repr

/-- R568: the pins of time and test, on half A only. -/
inductive TestPin where
  | ppsIn | ppsOut | tck | tms | tdi | tdo
  deriving DecidableEq, Repr

/-- R567 to R569: what a ball carries; `neg` names the second ball of a pair. -/
inductive Ball where
  | gnd
  | rail (r : Rail)
  | lineTx (l : Lane) (neg : Bool) | lineRx (l : Lane) (neg : Bool) | lasen (l : Lane)
  | hostTx (x : HLane) (neg : Bool) | hostRx (x : HLane) (neg : Bool)
  | scl (g : Group) | sda (g : Group) | diode (g : Group) (j : Fin 2) (neg : Bool) | thermistor (g : Group) (j : Fin 2)
  | mon (g : Group) (j : Fin 32) | monGnd (g : Group) | monX (h : Half) (m : Fin 8) | dac (c : Chan)
  | half (h : Half) (p : HalfPin) | test (p : TestPin)
  deriving DecidableEq, Repr

/-- R567: one of a pair of balls from offset 2 on: its index and whether it is the second. -/
def pairAt (d : Nat) : Option (Fin 8 × Bool) :=
  if d < 2 then none else if h : (d - 2) / 2 < 8 then some (⟨(d - 2) / 2, h⟩, d % 2 == 1) else none

/-- The global host lane of local index `j` of a group. -/
def hostLaneAt (g : Group) (j : Nat) : HLane := ⟨16 * g.val + j % 16, by omega⟩

/-- R567: a signal ball of group `g` in half-A row `r`, at offset `d` in the group's block of 21 columns. -/
def groupBall (g : Group) (r d : Nat) : Option Ball :=
  if r = 2 then (pairAt d).map fun (k, neg) => .lineTx (g.lane k) neg
  else if r = 4 then (pairAt d).map fun (k, neg) => .lineRx (g.lane k) neg
  else if r = 6 then
    if h : 2 ≤ d ∧ d < 10 then some (.lasen (g.lane ⟨d - 2, by omega⟩))
    else if d = 11 then some (.scl g)
    else if d = 12 then some (.sda g)
    else if 14 ≤ d ∧ d < 18 then some (.diode g (if d < 16 then 0 else 1) (d % 2 == 1))
    else if 18 ≤ d ∧ d < 20 then some (.thermistor g (if d = 18 then 0 else 1))
    else none
  else if h : (r = 7 ∨ r = 8) ∧ 2 ≤ d ∧ d < 18 then some (.mon g ⟨16 * (r - 7) + (d - 2), by omega⟩)
  else if r = 9 then if 2 ≤ d ∧ d < 18 then some (.monGnd g) else none
  else if h : (r = 10 ∨ r = 11) ∧ 2 ≤ d ∧ d < 14 then
    some (.dac ⟨g.firstChan + (12 * (r - 10) + (d - 2)), by simp only [Group.firstChan]; omega⟩)
  else if r = 14 ∨ r = 16 then (pairAt d).map fun (k, neg) => .hostTx (hostLaneAt g (8 * ((r - 14) / 2) + k.val)) neg
  else if r = 18 ∨ r = 20 then (pairAt d).map fun (k, neg) => .hostRx (hostLaneAt g (8 * ((r - 18) / 2) + k.val)) neg
  else none

/-- R567: the supply balls of half A. -/
def supplyBall (r c : Nat) : Option Rail :=
  let even := c % 2 == 0
  if r = 12 then if even && c ≤ 62 then some .vctl else none
  else if r = 32 then if c ≤ 4 || 61 ≤ c then some .aon else some .io
  else if !even then none
  else if r = 22 ∨ r = 23 then some .line
  else if r = 24 then some .lineOut
  else if r = 25 ∨ r = 26 then some .host
  else if r = 27 then if c ≤ 32 then some .hostOut else if c ≤ 48 then some .clk else some .sram
  else if 28 ≤ r ∧ r ≤ 31 then some .core
  else none

/-- R568: column 1, in the order of its rows 1 to 29. -/
def columnOne : List HalfPin :=
  [.pclk false, .pclk true, .pet false, .pet true, .per false, .per true, .refclk false, .refclk true, .perst, .porst, .testmode, .safeOff,
    .thermtrip, .clr, .alert, .mdc, .mdio, .flashClock, .flashSelect, .flashStrobe, .flashReset] ++ (List.finRange 8).map .flashData

/-- R568: the half-level pins of half `h`, by half-A row; R569: half B has none of time and test. -/
def halfBall (h : Half) (r c : Nat) : Option Ball :=
  let own := fun p : TestPin => if h = 0 then Ball.test p else .gnd
  if c = 1 then
    if r = 30 then some (own .ppsIn) else if r = 31 then some (own .ppsOut) else (columnOne[r - 1]?).map (.half h)
  else if c = 64 then
    if k : 2 ≤ r ∧ r < 10 then some (.monX h ⟨r - 2, by omega⟩)
    else if k : 10 ≤ r ∧ r < 18 then some (.dac ⟨80 * h.val + 72 + (r - 10), by omega⟩)
    else if r = 18 then some (own .tck)
    else if r = 19 then some (own .tms)
    else if r = 20 then some (own .tdi)
    else if r = 21 then some (own .tdo)
    else none
  else none

/-- R567 and R569: the ball of half `h` at half-A row `r`, column `c`. -/
def blockBall (h : Half) (r c : Nat) : Ball :=
  let signal := if k : 2 ≤ c ∧ c ≤ 64 then groupBall ⟨3 * h.val + (c - 2) / 21, by omega⟩ r ((c - 2) % 21) else none
  (signal.orElse fun _ => (halfBall h r c).orElse fun _ => if 2 ≤ c ∨ r = 32 then (supplyBall r c).map .rail else none).getD .gnd

/-- R566 to R569: the ball at row `r`, column `c` of the grid; none where the position is outside the grid or depopulated. -/
def ballAt (r c : Nat) : Option Ball :=
  if r = 0 ∨ 64 < r ∨ c = 0 ∨ 64 < c then none
  else if (r = 32 ∨ r = 33) ∧ 9 ≤ c ∧ c ≤ 56 then none
  else if r ≤ 32 then some (blockBall 0 r c) else some (blockBall 1 (65 - r) c)

end Sys2Proof.Machine
end

