-- ==== Sys2Proof/Safety.lean ====
section
/-! DEFINITION. What claims about KD4896 are said in: the canonical form of the sparse stores, the laser-safety condition of R308
and R309, the answer of a command, and what a command leaves alone. -/

namespace Sys2Proof

open Machine

/-- Every sparse store of the state is in its canonical form. -/
def Machine.State.wf (s : State) : Bool :=
  FStore.wf s.f && FStore.wf s.ap && Ram.wf s.dmt && Ram.wf s.results && Ram.wf s.resultAt && Ram.wf s.senseAt && Ram.wf s.capture

/-- R308: a lane's laser enable is high only while every condition of R308 holds; `offCause` names the first that fails. -/
abbrev LaserSafe (s : State) : Prop :=
  ∀ l : Lane, s.isSet .LS_LASEN l = true → s.offCause l = 0 ∧ s.extest = false

/-- The fields that follow from the rest of the state at the end of every step (`settle`), and those that an event steps: port and
acquisition status, host-lane stages, laser enables, forced bias codes, context states, ALERT; SEV_HIT and the counters of R550. -/
def Machine.Fld.follows : Fld → Bool
  | .ACQ_STATE | .ACQ_SUBSTATE | .ACQ_PEER_SEEN | .ACQ_LOOPBACK | .ACQ_TX_DATA | .ACQ_RX_DATA | .ACQ_RX_READY | .ACQ_PEER_READY
  | .ACQ_LEAVE_DATA | .EQ_ADAPT | .EQ_PARALLEL | .EQ_SLICE_ABANDON | .EQ_LS_MEMBER | .FE_HANDOVER | .FE_HO_DEFER | .FE_AGC_TRACK
  | .FEC_DEC | .FEC_DEC_CHG | .FEC_CW_LOCK | .FEC_CW_LOCK_CHG | .FEC_LAT_VALID | .DMT_PEND_RX | .DMT_PEND_TX
  | .EQ_VALID | .FE_SADC_ROT | .FE_SEG_ROT | .TSP_ACC_OK
  | .HST_STAGE | .HST_STAGE_CHG | .HST_DET | .HST_BIT_LOCK | .HST_SYM_LOCK | .HST_AM_LOCK
  | .PORT_LINE_SKEW | .PORT_HOST_UP | .PORT_LINE_UP | .PORT_STATE | .PORT_UP_CHG
  | .LS_APR_OUT | .LS_NEXT_PULSE | .LS_OFF_CAUSE | .LS_STATE | .LS_LASEN | .CD_OUT | .CD_FORCED0
  | .CTX_STATE | .CTX_CAUSE | .CTX_INJ | .LG_ARMED | .LG_COUNT | .LG_HOLD_MAP | .LG_PARK_MAP
  | .HIF_ALERT | .HIF_SEV_HIT | .PC_CNT | .PERF_OVF => true
  | _ => false

/-- What of a half the end of a step and an event leave alone: all but commits, completions, waiting events, the busy marks of the
rings and the pending bits of R444. -/
def Machine.HalfS.base (y : HalfS) : HalfS :=
  { y with commits := [], cpls := [], evts := [], evtLog := [], evtSeq := 0, msixPend := [], rings := y.rings.map fun r => { r with busy := false } }

/-- What of a group the end of a step leaves alone: all but a slice rotation that is abandoned and the injection. -/
def Machine.GroupS.base (y : GroupS) : GroupS := { y with sliceRun := none, copy := none, rotRetry := none, inj := {} }

/-- What of a lane the end of a step leaves alone: its fences, trims, throttle, counts and stores. -/
def Machine.LaneS.base (y : LaneS) : LaneS :=
  { y with vsw := 0, ramp := false, segSwap := false, gain := none, sadcRetry := false, swap := none, above := 0, revertDue := false,
           mse := [], effBlocks := 0, uncorr := 0, eyeValid := false, rxSwap := none, txSwap := none, trigHeld := false,
           swapRetry := false, feq := [], phase := .search, stopped := false, partner := none, matched := false, seen := false,
           caps := 0, noticed := false, start := 0, preset := none, presetSlot := false, apply := none, rhoDone := false,
           condAt := none, block := none, acc := none, slotSeen := false, lastStatus := none, ohc := [], idle := 0, carrierAt := 0,
           count := none, go := false, dataAt := none, loadTries := 0, apr := .off, aprLow := false, biasHold := false,
           clk := {}, rxBegun := false, snrFrom := 0, snrDone := false, feqFrom := 0, switched := none, lamSum := 0, lamN := 0, finals := [],
           trainAt := 0 }

/-- What of a host lane the end of a step leaves alone: its counts and taps. -/
def Machine.HLaneS.base (y : HLaneS) : HLaneS := { y with away := false, pcs := [], ready := false, farReady := false, since := 0 }

/-- Two states agree but for the fields that `W` names, the units' parts that follow, the bridge, what has left the part, the
capture buffer and the free draws. -/
structure SameBut (W : Fld → Bool) (s t : State) : Prop where
  get : ∀ f i, W f = false → t.get f i = s.get f i
  ap : t.ap = s.ap
  written : t.written = s.written
  half : ∀ h, (t.half h).base = (s.half h).base
  group : ∀ g, (t.group g).base = (s.group g).base
  port : ∀ p, (t.port p).fences = (s.port p).fences ∧ (t.port p).txDisable = (s.port p).txDisable
  lane : ∀ l, (t.lane l).base = (s.lane l).base
  hlane : ∀ x, (t.hlane x).base = (s.hlane x).base
  chan : ∀ c, { t.chan c with rest := true } = { s.chan c with rest := true }
  units : t.seqs = s.seqs ∧ t.chains = s.chains ∧ t.dies = s.dies ∧ t.engs = s.engs ∧ t.knds = s.knds ∧ t.fis = s.fis
  rams : t.dmt = s.dmt ∧ t.results = s.results ∧ t.resultAt = s.resultAt ∧ t.senseAt = s.senseAt
  rest : t.trackers = s.trackers ∧ t.sticky = s.sticky ∧ t.trims = s.trims ∧ t.frame = s.frame
  memory : t.faulty = s.faulty ∧ t.rows = s.rows ∧ t.badRows = s.badRows ∧ t.accepted = s.accepted
  pins : t.testmode = s.testmode ∧ t.extest = s.extest ∧ t.porst = s.porst
  pending : t.pending = s.pending

/-- The command answers a next state of which `P` holds. -/
def Answers (i : Instr) (s : State) (P : State → Prop) : Prop := ∃ t, exec i s = .next t ∧ P t

/-- The command answers a next state, and `P` holds of it before the status that follows (`settle`: port status, laser enables, states
of lanes and contexts that a condition holds in place, complete commits, ALERT) is brought in line with it. -/
def Does (i : Instr) (s : State) (P : State → Prop) : Prop := ∃ t, exec i s = .next (settle t) ∧ P t

/-- R250, R257, R259: a frame that a lane accepts: its reception is in BODY after the frame's own header, its CRC-32 passes, the acquisition Kneader serves,
and it comes from the latched partner where one is latched. -/
abbrev Accepts (s : State) (l : Lane) (fr : AcqFrame) : Prop :=
  s.get .ACQ_STATE l ≠ 0 ∧ s.inBody l fr = true ∧ fr.crc.toNat = frameCrc fr ∧ s.kndOut l.acqKnd = false
    ∧ (∀ q, (s.lane l).partner = some q → fr.srcLane.toNat = q.2)

/-- A frame of the lane has left the part, of which `P` holds; what its carrier carries before it and for it stands around it. -/
def Sent (s t : State) (l : Lane) (P : AcqFrame → Prop) : Prop := ∃ g after before, t.out = after ++ .frame l g :: (before ++ s.out) ∧ P g

/-- Every register field but the named cells and those that follow reads as before. -/
def FieldsKept (W : List (Fld × Nat)) (s t : State) : Prop := ∀ f i, (f, i) ∉ W → f.follows = false → t.get f i = s.get f i

/-- R27: the applied value of every shadow field but the named cells is as before. -/
def AppliedKept (W : List (Fld × Nat)) (s t : State) : Prop := ∀ f i, f.info.shadow = true → (f, i) ∉ W → t.app f i = s.app f i

/-- What a command leaves alone: every register field but the cells it names and those that follow; every applied value; the DMT
tables, the result counts and ages; the pins, the loop frame and the queue. -/
structure Frame (W : List (Fld × Nat)) (s t : State) : Prop where
  get : ∀ f i, (f, i) ∉ W → f.follows = false → t.get f i = s.get f i
  ap : t.ap = s.ap
  written : t.written = s.written
  rams : t.dmt = s.dmt ∧ t.results = s.results ∧ t.resultAt = s.resultAt ∧ t.senseAt = s.senseAt
  pins : t.testmode = s.testmode ∧ t.extest = s.extest ∧ t.porst = s.porst
  frame : t.frame = s.frame
  pending : t.pending = s.pending

/-- What a completion says (R458): tag, status, reason, RESULT. -/
def Machine.Cpl.says (c : Cpl) : W32 × Nat × Nat × Nat × Nat := (c.tag, c.status, c.reason, c.lo, c.hi)

/-- R458: one completion more waits on the rings of a half: of the request's tag, with a status, a reason and RESULT. -/
abbrev Completed (s t : State) (h : Half) (r : Req) (res : Res) : Prop :=
  (t.half h).cpls.map Cpl.says = (s.half h).cpls.map Cpl.says ++ [(r.tag, res.status, res.reason, res.lo, res.hi)]

/-- R459: the timed RESULT of an immediate command: OK, the time of taking and the delay to its effect in ns. -/
def timedNow (s : State) (h : Half) (delay : Nat) : Res := ⟨0, 0, s.n40 h % 2 ^ 32, s.n40 h / 2 ^ 32 % 2 ^ 8 + delay * 2 ^ 8⟩

/-- R459: the timed RESULT of an immediate command that executed nothing. -/
def deniedNow (s : State) (h : Half) (o : Opc) (r : Res) : Res :=
  if o.sched then { r with lo := s.n40 h % 2 ^ 32, hi := s.n40 h / 2 ^ 32 % 2 ^ 8 } else r

/-- R476: half `h` takes a request from a ring of its own, and executes it at once: it is valid, the half serves it, no limit, fence or
device state stands in its way. -/
abbrev Takes (s : State) (h : Half) (o : Opc) (r : Req) : Prop :=
  s.running h = true ∧ s.manages h = true ∧ s.invalid (some o) r = none ∧ s.inIsland h h o r = false ∧ reqExe r = h ∧ r.sched = false
    ∧ s.busyReason h o r = none ∧ s.needsTested o (if o = .commit then s.shadowChanges r else []) = none
    ∧ (o.fenceChecked && (s.scopeLanes r).any s.laneFenced) = false
    ∧ (!o.inStandby && (reqHalves r).any fun k => s.get .PH_DSTATE k == 1) = false

/-- R479 to R493: the row of the command catalogue that half and request complete, by opcode. -/
def Machine.Opc.row : Opc → Half → Req → Instr
  | .identify => .identify | .commit => .commit | .schedCancel => .schedCancel | .timeFreq => .timeFreq | .timeSlew => .timeSlew
  | .timeStep => .timeStep | .nop => .nop | .cfgWrite => .cfgWrite | .cfgDiscard => .cfgDiscard | .bitswap => .bitswap
  | .retrain => .retrain | .fenceRelease => .fenceRelease | .eqCapture => .eqCapture | .lsLock => .lsLock | .safeResume => .safeResume
  | .aprRestart => .aprRestart | .loopStatus => .loopStatus | .cntClear => .cntClear | .monRead => .monRead
  | .eventFilter => .eventFilter | .subscribe => .subscribe | .unsubscribe => .unsubscribe | .snapshot => .snapshot
  | .groupState => .groupState | .deviceState => .deviceState | .padRelease => .padRelease | .fenceReleaseGroup => .fenceReleaseGroup
  | .reset => .reset | .selftest => .selftest | .updLoad => .updLoad | .updVerify => .updVerify | .updActivate => .updActivate
  | .updConfirm => .updConfirm | .updRollback => .updRollback | .dumpBuf => .dumpBuf | .dumpFetch => .dumpFetch
  | .fiUnlock => .fiUnlock | .fiSet => .fiSet | .fiClear => .fiClear | .attOpen => .attOpen | .attQuote => .attQuote
  | .attCert => .attCert | .attClose => .attClose

/-- R455 and R456: half `h` has taken a request from a ring of its own: the state in which its effect begins, and the command. -/
def Machine.State.taking (s : State) (h : Half) (o : Opc) (r : Req) : State × Cmd :=
  let u := (s.perfHalf h 0x01).modHalf h fun y =>
    { y with rings := y.rings.setIfInBounds r.ring { (y.rings[r.ring.val]?.getD {}) with busy := true } }
  let n := u.nextOrder
  (n.2, ⟨o, r, h, h, s.n40 h, 0, s.now h, if r.sched then none else some (s.ticks h), n.1⟩)

/-- One event more waits on a half that runs its own rings: code, severity, DATA0, DATA1. -/
abbrev Posted (s t : State) (h : Half) (code sev d0 d1 : Nat) : Prop :=
  (t.half h).evts.map (fun e => (e.code, e.sev, e.d0, e.d1)) = (s.half h).evts.map (fun e => (e.code, e.sev, e.d0, e.d1)) ++ [(code, sev, d0, d1)]

end Sys2Proof
end

