-- ==== Sys2Proof/Certificates/Slice0/Obligations.lean ====
section
/-! DEFINITION. The statements about KD4896 for the provers. A clause names a command, the conditions on the state and the operands under
which it has its effect, and what the next state then holds; `Does` speaks of the state before the status that follows is brought in line
(`settle`), `Answers` of the next state. -/

open Sys2Proof Sys2Proof.Machine

/-- The queue is the model’s own (log entry 1). -/
def Obligations.StepRunsTheFrontCommand : Prop :=
  (∀ (s : State) (c : Instr), step { s with pending := c :: s.pending } = exec c s) ∧
  (∀ (s : State) (c : Instr) (rest : List Instr), s.pending = c :: rest → step s = exec c { s with pending := rest }) ∧
  (∀ (s : State), s.pending = [] → step s = .next s)

/-- The reset column of the register tables; what flash holds and the hidden state are the model’s choice (log entries 7 and 8). -/
def Obligations.ResetState : Prop :=
  (∀ (f : Fld) (i : Nat), State.reset.get f i = f.reset i ∧ State.reset.app f i = f.reset i) ∧
  (State.reset.pending = [] ∧ State.reset.wf = true ∧ State.reset.written = [] ∧ State.reset.out = []
      ∧ (∀ l : Lane, State.reset.get .ACQ_STATE l = 0 ∧ State.reset.get .LS_LASEN l = 0 ∧ State.reset.get .LS_LASER_EN l = 0 ∧ State.reset.get .FE_SWING l = 0x1E)
      ∧ (∀ h : Half, (State.reset.half h).cpls = [] ∧ (State.reset.half h).evts = [] ∧ (State.reset.half h).commits = [] ∧ (State.reset.half h).sched = []
          ∧ State.reset.now h = 0 ∧ State.reset.get .BOOT_STATE h = 0 ∧ State.reset.get .BOOT_STEP h = 0 ∧ State.reset.running h = false)
      ∧ State.reset.get .TOP_PART 0 = 0x4896 ∧ State.reset.get .TOP_HALF 1 = 1 ∧ State.reset.get .BR_ROLE 0 = 1) ∧
  (LaserSafe State.reset)

/-- No rule of the spec stops the part (log entry 6). Completes: cfgWrite, cfgDiscard, bitswap, retrain, fenceRelease, eqCapture, lsLock, safeResume, aprRestart, loopStatus, cntClear, monRead, eventFilter, subscribe, unsubscribe, snapshot, groupState, deviceState, padRelease, fenceReleaseGroup, reset. -/
def Obligations.EveryCommandAnswers : Prop :=
  (∀ (c : Instr) (s : State), ∃ t, exec c s = .next (settle t)) ∧
  (∀ (s : State) (h : Half) (r : Req) (l : Lane), Takes s h .cfgWrite r → reqParam r 0 = 1 → l.val < 8 → r.scope = 4 → r.id.toNat = l.val → cfgEntry r 0 = (0x12004 + 0x40 * l.val, 0x2300, 0x3F00) → ∃ t, exec (.cfgWrite h r) s = .next (settle t) ∧ (Completed s t h r ⟨0, 0, 0, 0⟩ ∧ t.get .FE_SWING l = 0x23 ∧ (.FE_SWING, l.val) ∈ t.written ∧ t.ap = s.ap)) ∧
  (∀ (s : State) (h : Half) (r : Req), Takes s h .cfgDiscard r → ∃ t, exec (.cfgDiscard h r) s = .next (settle t) ∧ (Completed s t h r ⟨0, 0, 0, 0⟩ ∧ t.ap = s.ap ∧ (∀ c ∈ t.f, c.fld.info.shadow = true → (s.affected r s.get).holds s s.get c.fld c.idx = true → t.get c.fld c.idx = s.app c.fld c.idx % 2 ^ c.fld.width) ∧ t.written = s.written.filter (fun w => !(w.1.info.shadow && (s.affected r s.get).holds s s.get w.1 w.2)))) ∧
  (∀ (s : State) (h : Half) (r : Req), Takes s h .bitswap r → s.lmode (reqLane r) = 3 → s.get .ACQ_STATE (reqLane r) = 3 → ∃ t, exec (.bitswap h r) s = .next (settle t) ∧ ((t.lane (reqLane r)).rxSwap.map (fun w => (w.fromHost, w.sent, w.cmd.isSome)) = some ((reqParam r 0).testBit 0, false, true) ∧ t.get .DMT_PEND_RX (reqLane r) = 1 ∧ (t.half h).cpls = (s.half h).cpls)) ∧
  (∀ (s : State) (h : Half) (r : Req), Takes s h .retrain r → ∃ t, exec (.retrain h r) s = .next (settle t) ∧ ((t.half h).commits.map (fun k => (k.lanes, k.cells, k.cmd.isSome)) = (s.half h).commits.map (fun k => (k.lanes, k.cells, k.cmd.isSome)) ++ [(s.scopeLanes r, [], true)] ∧ (t.half h).cpls = (s.half h).cpls)) ∧
  (∀ (s : State) (h : Half) (r : Req) (ks : List Cause), Takes s h .fenceRelease r → (s.namedCauses (reqUnit r) (reqParam r 0)).toOption = some ks → ks.findSome? (s.releaseFault (reqUnit r) (Config.stillBright s.draw.1)) = none → ∃ t, exec (.fenceRelease h r) s = .next (settle t) ∧ ((∀ k ∈ ks, k ∉ t.causes (reqUnit r)) ∧ (∀ k ∈ s.causes (reqUnit r), k ∉ ks → k ∈ t.causes (reqUnit r)) ∧ (r.tag, 0, 0, (timedNow s h 0).lo, (timedNow s h 0).hi) ∈ (t.half h).cpls.map Cpl.says)) ∧
  (∀ (s : State) (h : Half) (r : Req), Takes s h .eqCapture r → (s.scopeLanes r).all s.inData = true → (s.scopeLanes r) ≠ [] → ∃ t, exec (.eqCapture h r) s = .next (settle t) ∧ ((t.half h).capWait.map (·.2) = (s.half h).capWait.map (·.2) ++ [s.scopeLanes r] ∧ (∀ l ∈ s.scopeLanes r, (t.lane l).capture = true) ∧ (t.half h).cpls = (s.half h).cpls)) ∧
  (∀ (s : State) (h : Half) (r : Req), Takes s h .lsLock r → s.get .LSH_LOCK h ≠ 1 → ∃ t, exec (.lsLock h r) s = .next (settle t) ∧ (Completed s t h r ⟨0, 0, 0, 0⟩ ∧ t.get .LSH_LOCK h = 1 ∧ t.get .LSH_SOFF_RESUME h = reqParam r 0 % 2)) ∧
  (∀ (s : State) (h : Half) (r : Req), Takes s h .safeResume r → (∀ k ∈ reqHalves r, s.get .LSH_SOFF_PIN k = 1 ∧ s.get .LSH_SOFF_HELD k = 1 ∧ s.get .LSH_SOFF_RESUME k ≠ 1) → ∃ t, exec (.safeResume h r) s = .next (settle t) ∧ (Completed s t h r ⟨0, 0, 0, 0⟩ ∧ (∀ k ∈ reqHalves r, t.get .LSH_SOFF_HELD k = 0))) ∧
  (∀ (s : State) (h : Half) (r : Req), Takes s h .aprRestart r → (s.lane (reqLane r)).apr = .hold → ∃ t, exec (.aprRestart h r) s = .next (settle t) ∧ (Completed s t h r ⟨0, 0, 0, 0⟩ ∧ (t.lane (reqLane r)).apr = .pulse)) ∧
  (∀ (s : State) (h : Half) (r : Req) (x : Ctx), Takes s h .loopStatus r → x.val = 32 * r.id.toNat + reqParam r 0 % 32 → ∃ t, exec (.loopStatus h r) s = .next (settle t) ∧ (Completed s t h r ⟨0, 0, s.readFields h (0x1A080 + 0x10000 * (x.val / 32 % 3) + 0x100 * (x.val % 32)), s.get .CTX_O_NOW x⟩)) ∧
  (∀ (s : State) (h : Half) (r : Req), Takes s h .cntClear r → ∃ t, exec (.cntClear h r) s = .next (settle t) ∧ ((t.half h).clrWait.map (·.2) = (s.half h).clrWait.map (·.2) ++ [s.scopeLanes r] ∧ (∀ l ∈ s.scopeLanes r, (t.lane l).clear = true) ∧ (t.half h).cpls = (s.half h).cpls)) ∧
  (∀ (s : State) (h : Half) (r : Req), Takes s h .monRead r → ∃ t, exec (.monRead h r) s = .next (settle t) ∧ (Completed s t h r ⟨0, 0, s.readFields h (0x51008 + 0x10 * reqParam r 0), s.readFields h (0x5100C + 0x10 * reqParam r 0)⟩)) ∧
  (∀ (s : State) (h : Half) (r : Req), Takes s h .eventFilter r → reqParam r 0 % 65536 ≠ 0xFFFF → ∃ t, exec (.eventFilter h r) s = .next (settle t) ∧ (Completed s t h r ⟨0, 0, 0, 0⟩ ∧ (∀ k ∈ reqHalves r, (t.half k).filter (reqParam r 0 % 65536) = reqParam r 0 / 65536) ∧ (∀ c, c ≠ reqParam r 0 % 65536 → ∀ k : Half, (t.half k).filter c = (s.half k).filter c))) ∧
  (∀ (s : State) (h : Half) (r : Req), Takes s h .subscribe r → ∃ t, exec (.subscribe h r) s = .next (settle t) ∧ ((t.half h).subs = (s.half h).subs ++ [⟨(s.half h).freeSub, s.scopeLanes r, reqParam r 0, (s.now h + 1000 + reqParam r 0 * 1000000 - 1) / (reqParam r 0 * 1000000) * (reqParam r 0 * 1000000)⟩] ∧ Completed s t h r ⟨0, 0, (s.half h).freeSub, 0⟩)) ∧
  (∀ (s : State) (h : Half) (r : Req), Takes s h .unsubscribe r → (s.half h).subs.any (fun x => x.id == reqParam r 0) = true → ∃ t, exec (.unsubscribe h r) s = .next (settle t) ∧ ((t.half h).subs = (s.half h).subs.filter (fun x => x.id != reqParam r 0) ∧ Completed s t h r ⟨0, 0, 0, 0⟩)) ∧
  (∀ (s : State) (h : Half) (r : Req), Takes s h .snapshot r → ∃ t, exec (.snapshot h r) s = .next (settle t) ∧ ((∀ k ∈ reqHalves r, (t.half k).snaps.map (fun x => (x.due, x.lanes, x.latched))
          = (s.half k).snaps.map (fun x => (x.due, x.lanes, x.latched)) ++ [(s.ticks k + 250, (s.scopeLanes r).filter (fun l => l.half == k), false)]) ∧ (t.half h).cpls = (s.half h).cpls)) ∧
  (∀ (s : State) (h : Half) (r : Req), Takes s h .groupState r → s.get .PG_STATE (reqGroup r) = 0 → 2 ≤ reqParam r 0 → (∀ b : Fin 4, s.askBlock (reqGroup r) b = .accept) → (fiSlots (reqGroup r).half).all (fun i => s.get .FIS_ACTIVE i != 1) = true → (s.half (reqGroup r).half).dev = none → (reqGroup r).half.groups.all (fun g => (s.group g).moves.isEmpty) = true → (s.half halfA).devWait = [] → ∃ t, exec (.groupState h r) s = .next (settle t) ∧ (t.get .PG_STATE (reqGroup r) = 5 ∧ t.get .PG_HS_BLOCK (reqGroup r) = 3 ∧ ((t.group (reqGroup r)).hs.map fun k => (k.target, k.origin, k.block, k.delaying)) = some (reqParam r 0, 0, 4, false) ∧ (t.half h).cpls = (s.half h).cpls)) ∧
  (∀ (s : State) (h : Half) (r : Req), Takes s h .deviceState r → (∀ k : Half, (s.half k).dev = none) → (∀ k : Half, s.get .PH_DSTATE k ≠ reqParam r 0) → reqParam r 0 ≠ 0 → (∀ g : Group, s.get .PG_STATE g = 3 ∧ (s.group g).moves = []) → ∃ t, exec (.deviceState h r) s = .next (settle t) ∧ ((∀ k : Half, t.get .PH_DSTATE k = reqParam r 0 ∧ (t.half k).sessions = [] ∧ (t.half k).dev = none) ∧ Completed s t h r (timedNow s h 0) ∧ ((t.half h).resets.length = (s.half h).resets.length + if reqParam r 0 = 2 then 2 else 0))) ∧
  (∀ (s : State) (h : Half) (r : Req), Takes s h .padRelease r → (∀ g ∈ reqGroups r, s.get .PG_STATE g = 0 ∧ s.get .PG_PADS_HELD g = 1) → ∃ t, exec (.padRelease h r) s = .next (settle t) ∧ (Completed s t h r ⟨0, 0, 0, 0⟩ ∧ (∀ g ∈ reqGroups r, t.get .PG_PADS_HELD g = 0))) ∧
  (∀ (s : State) (h : Half) (r : Req) (g : Group), Takes s h .fenceReleaseGroup r → r.scope = 2 → reqGroup r = g → (s.group g).fences = [.groupPower] → reqParam r 0 = 0 → ∃ t, exec (.fenceReleaseGroup h r) s = .next (settle t) ∧ ((t.group g).fences = [] ∧ (t.group g).resetting = true ∧ (r.tag, 0, 0, (timedNow s h 0).lo, (timedNow s h 0).hi) ∈ (t.half h).cpls.map Cpl.says ∧ ∀ l ∈ g.lanes, t.get .ACQ_STATE l = 0)) ∧
  (∀ (s : State) (h : Half) (r : Req), Takes s h .reset r → ∃ t, exec (.reset h r) s = .next (settle t) ∧ ((t.half h).resets = (s.half h).resets ++ (if r.scope = 1 then [(r.tag, 1, (reqHalf r).val)] else if r.scope = 2 then [(r.tag, 2, (reqGroup r).val)] else (s.scopeLanes r).map fun l => (r.tag, 4, l.val)) ∧ Completed s t h r (timedNow s h 0)))

/-- R308 and R309 as an invariant: nothing that the host, a Kneader or a pin does raises a LASEN past the conditions. An idle step changes nothing, so the last clause is what every step keeps. -/
def Obligations.LaserSafety : Prop :=
  (∀ (s : State) (c : Instr) (rest : List Instr), s.pending = c :: rest → ∃ t, step s = .next t ∧ ∀ l : Lane, t.get .LS_LASEN l = 1 →
      t.get .LSH_LOCK l.half = 1 ∧ t.app .LS_LASER_EN l = 1 ∧ t.get .LSH_SOFF_PIN l.half = 1 ∧ t.get .LSH_SOFF_HELD l.half ≠ 1 ∧ (t.lane l).ovpTrip = false
        ∧ ((t.lane l).apr = .hold → t.app .LS_APR_MODE l = 1) ∧ ((t.lane l).fences.any fun x => x == .laserOvp || (x == .loop && (t.lane l).loopApc)) = false ∧ t.groupFenced l.group = false
        ∧ t.groupOn l.group = true ∧ t.running l.half = true ∧ t.get .THM_TRIP l.half ≠ 1 ∧ t.extest = false) ∧
  (∀ (s : State) (c : Instr) (rest : List Instr), s.pending = c :: rest → ∃ t, step s = .next t ∧ ∀ l : Lane, t.offCause l = 0 → t.extest = false → t.get .LS_LASEN l = 1) ∧
  (∀ (s : State) (c : Instr) (rest : List Instr), s.pending = c :: rest → ∃ t, step s = .next t ∧ ∀ l : Lane, t.get .LS_LASEN l ≠ 1 → t.get .CD_OUT (t.laserCd l) = 0 ∧ t.get .CD_FORCED0 (t.laserCd l) = 1) ∧
  (∀ (s : State), LaserSafe s → ∀ t, step s = .next t → LaserSafe t)

/-- The first row of R268 with R214, R498 and R526, and R227 for host lanes; `groupOn` is G-ACTIVE with pads released. -/
def Obligations.LanesHeldIdle : Prop :=
  (∀ (s : State) (c : Instr) (rest : List Instr), s.pending = c :: rest → ∃ t, step s = .next t ∧ ∀ l : Lane, (t.get .ACQ_STATE l = 0 ↔
      t.portOf l = none ∨ t.laneFenced l = true ∨ t.groupOn l.group = false ∨ t.app .FE_RX_EN l = 0 ∨ t.running l.half = false)) ∧
  (∀ (s : State) (c : Instr) (rest : List Instr), s.pending = c :: rest → ∃ t, step s = .next t ∧ ∀ x : HLane, t.hportOf x = none ∨ t.app .HST_EN x ≠ 1 ∨ t.running x.group.half = false → t.get .HST_STAGE x = 0)

/-- R241; PORT_STATE 2 is UP (R240). -/
def Obligations.PortUp : Prop :=
  ∀ (s : State) (c : Instr) (rest : List Instr), s.pending = c :: rest → ∃ t, step s = .next t ∧ ∀ p : Lane,
      (t.get .PORT_STATE p = 2 ↔ t.get .PORT_HOST_UP p = 1 ∧ t.get .PORT_LINE_UP p = 1 ∧ t.portFenced p = false) ∧ (t.localFault p = false ↔ t.get .PORT_STATE p = 2)

/-- R472; HIF_ALERT 1 is the pin driven low; BOOT_STATE 2 is STARTER, 3 FATAL (R524). -/
def Obligations.AlertPins : Prop :=
  ∀ (s : State) (c : Instr) (rest : List Instr), s.pending = c :: rest → ∃ t, step s = .next t ∧ ∀ h : Half, (t.get .HIF_ALERT h = 1 ↔
      t.get .HIF_NO_RINGS h = 1 ∨ t.get .HIF_SEV_HIT h = 1 ∨ t.get .HIF_RING_HALT h = 1 ∨ t.get .REL_DMA_UE h = 1 ∨ t.get .BOOT_STATE h = 2 ∨ t.get .BOOT_STATE h = 3)

/-- R137 to R139, R180 and R191 (SNRs in 0.1 dB); a frame’s symbol k is its (MSB, LSB) pair. -/
def Obligations.FrameCoding : Prop :=
  (∀ (s1 s2 s3 u : Bool), tcStep (4 * s1.toNat + 2 * s2.toNat + s3.toNat) u =
      (4 * ((u.xor s2).xor s3).toNat + 2 * s1.toNat + s2.toNat, (((u.xor s2).xor s3).xor s1).xor s3)) ∧
  (levelNum (levelOf false false) = -3 ∧ levelNum (levelOf false true) = -1 ∧ levelNum (levelOf true true) = 1 ∧ levelNum (levelOf true false) = 3) ∧
  (∀ (st : Nat) (p : List Bool) (k : Nat), p.length = 17 → k < 8 → (tcFrame st p).1[k]? = some (p.getD k false, p.getD (9 + k) false)) ∧
  (∀ (st : Nat) (p : List Bool), p.length = 17 → (tcFrame st p).1.length = 9 ∧ (tcFrame st p).1[8]? = some (p.getD 8 false,
      (tcStep (((p.drop 9).take 7).foldl (fun σ u => (tcStep σ u).1) st) (p.getD 16 false)).2)
    ∧ (tcFrame st p).2 = ((p.drop 9).take 8).foldl (fun σ u => (tcStep σ u).1) st) ∧
  (∀ (frames : List (List (Bool × Bool))) (k f : Nat) (x : List (Bool × Bool)), frames.length = 240 → k < 9 → frames[f]? = some x → (interleaveP frames)[240 * k + f]? = some (x.getD k (false, false)).2
      ∧ (interleaveU frames)[240 * k + f]? = some (x.getD k (false, false)).1) ∧
  ((List.range 9).map sReq = [0, 60, 90, 128, 158, 189, 219, 249, 279])

/-- R445 to R447 (bits 15 and 9:0 are those of the clause 45 registers 1.0, 1.1, 1.9 and 1.10). Completes: mdioPmaResetWrite, mdioTxDisableWrite, mdioStatusRead, mdioFrame. -/
def Obligations.Mdio : Prop :=
  (∀ (s : State) (h : Half) (a : BitVec 5) (p : Lane) (v : BitVec 16), s.mdioPort h a = some p → v.getLsbD 15 = true → s.get .ACQ_STATE p ≠ 0 → s.portLanes p = [p] → Does (.mdioPmaResetWrite h a v) s fun t => t.get .ACQ_STATE p ≠ 3 ∧ t.get .ACQ_STATE p ≠ 0) ∧
  (∀ (s : State) (h : Half) (a : BitVec 5) (p : Lane) (v : BitVec 16), s.mdioPort h a = some p → v.getLsbD 15 = false → exec (.mdioPmaResetWrite h a v) s = .next (settle s)) ∧
  (∀ (s : State) (h : Half) (a : BitVec 5) (v : BitVec 16), s.mdioPort h a = none → exec (.mdioPmaResetWrite h a v) s = .next (settle s) ∧ exec (.mdioTxDisableWrite h a v) s = .next (settle s)
      ∧ exec (.mdioStatusRead h a) s = .next (settle s)) ∧
  (∀ (s : State) (h : Half) (a : BitVec 5) (p : Lane) (v : BitVec 16), s.mdioPort h a = some p → s.portLanes p = [p] → Does (.mdioTxDisableWrite h a v) s fun t =>
      (t.port p).txDisable = v.toNat % 512 ∧ t.get .FE_TX_EN p = (if v.getLsbD 0 || v.getLsbD 1 then 0 else 1) ∧ t.ap = s.ap) ∧
  (∀ (s : State) (h : Half) (a : BitVec 5) (p : Lane), s.mdioPort h a = some p → Does (.mdioStatusRead h a) s fun t =>
      t.out = .mdio p.half ((if s.get .PORT_STATE p = 3 then 128 else 0) + (if s.get .PORT_STATE p = 2 ∧ (s.port p).downSeen = false then 4 else 0)) :: s.out
        ∧ (t.port p).downSeen = false ∧ Frame [] s t) ∧
  (∀ (s : State) (h : Half) (a : BitVec 5) (p : Lane) (d : BitVec 5) (r v : BitVec 16), s.mdioPort h a = some p → d ≠ 1 → Does (.mdioFrame h a d r false v) s fun t => t.out = .mdio p.half 0 :: s.out ∧ Frame [] s t) ∧
  (∀ (s : State) (h : Half) (a : BitVec 5) (p : Lane) (v : BitVec 16), s.mdioPort h a = some p → Does (.mdioFrame h a 1 10 false v) s fun t =>
      t.out = .mdio p.half ((if (s.portLanes p).all (fun l => s.get .FE_SIG_DET l == 1) then 1 else 0)
        + ((s.portLanes p).map fun (l : Lane) => if s.get .FE_SIG_DET l = 1 then 2 ^ (l.val - p.val + 1) else 0).sum) :: s.out)

/-- R66 to R70 and R85: level errors come in 0.25 dB, so ±1.5 dB is ±6. Completes: gainHoldExpiry, gainStepApply, overloadStep, sigDetClear, sigDetSet. -/
def Obligations.GainAndSignalDetect : Prop :=
  (∀ (s : State) (l : Lane) (q : Int), s.app .FE_AGC_MODE l = 0 → s.app .FE_RX_EN l = 1 → (s.setLevel l q).heldLong l = true → Does (.gainHoldExpiry l q) s fun t =>
      (t.lane l).gain =
          (if 6 < q then (if s.app .FE_STEP_MIN l < s.get .FE_GAIN_STEP l then some (-1) else none)
          else if q < -6 then (if s.get .FE_GAIN_STEP l < s.app .FE_STEP_MAX l then some 1 else none) else none)
        ∧ t.get .FE_LEVEL l = ofSigned 8 (clampInt (-128) 127 q) ∧ Frame [(.FE_LEVEL, l)] s t) ∧
  (∀ (s : State) (l : Lane) (q : Int), s.app .FE_AGC_MODE l = 0 → (s.setLevel l q).heldLong l = false → Does (.gainHoldExpiry l q) s fun t =>
      (t.lane l).gain = (s.lane l).gain ∧ (t.lane l).condAt = s.holdSince l q
        ∧ t.get .FE_LEVEL l = ofSigned 8 (clampInt (-128) 127 q) ∧ Frame [(.FE_LEVEL, l)] s t) ∧
  (∀ (s : State) (l : Lane) (q : Int), s.app .FE_AGC_MODE l = 1 → Does (.gainHoldExpiry l q) s fun t => (t.lane l).gain = (s.lane l).gain ∧ (t.lane l).condAt = none ∧ Frame [(.FE_LEVEL, l)] s t) ∧
  (∀ (s : State) (l : Lane), (s.lane l).gain = none → exec (.gainStepApply l) s = .next (settle s)) ∧
  (∀ (s : State) (l : Lane) (d : Int) (n : Nat), (s.lane l).gain = some d → s.inData l = true → (s.lmode l = 3 → s.swapNow l = false) → n = (clampInt (s.app .FE_STEP_MIN l) (s.app .FE_STEP_MAX l) (s.get .FE_GAIN_STEP l + d)).toNat → n ≠ s.get .FE_GAIN_STEP l → Does (.gainStepApply l) s fun t =>
      t.get .FE_GAIN_STEP l = n % 2 ^ Fld.width .FE_GAIN_STEP ∧ t.get .FE_EVT_GAIN_STEP l = 1
        ∧ t.get .FE_GAIN_CNT l = (s.get .FE_GAIN_CNT l + 1) % 2 ^ Fld.width .FE_GAIN_CNT
        ∧ (t.lane l).gain = none ∧ (t.lane l).comp = (s.lane l).pga.getD n 0x8000
        ∧ Frame [(.FE_GAIN_STEP, l), (.FE_LEVEL, l), (.FE_EVT_GAIN_STEP, l), (.FE_GAIN_CNT, l)] s t) ∧
  (∀ (s : State) (l : Lane) (d : Int), (s.lane l).gain = some d → s.inData l = false → (s.lane l).phase = .search → Does (.gainStepApply l) s fun t =>
      t.get .FE_GAIN_STEP l % 2 ^ Fld.width .FE_GAIN_STEP = (clampInt (s.app .FE_STEP_MIN l) (s.app .FE_STEP_MAX l) (s.get .FE_GAIN_STEP l + d)).toNat % 2 ^ Fld.width .FE_GAIN_STEP
        ∧ (t.lane l).gain = none ∧ Frame [(.FE_GAIN_STEP, l), (.FE_LEVEL, l)] s t) ∧
  (∀ (s : State) (l : Lane) (clips samples : Nat), s.inData l = true → s.app .FE_AGC_MODE l = 0 → samples < clips * 1000 → s.app .FE_STEP_MIN l < s.get .FE_GAIN_STEP l → (s.lane l).overAt.all (fun u => u + 2500 ≤ s.ticks l.half) = true → Does (.overloadStep l clips samples) s fun t =>
      (t.lane l).gain = some (-1) ∧ (t.lane l).condAt = none ∧ (t.lane l).overAt = some (s.ticks l.half) ∧ t.get .FE_OVERLOAD_STEP l = 1
        ∧ t.get .FE_GAIN_STEP l = s.get .FE_GAIN_STEP l ∧ Frame [(.FE_OVERLOAD_STEP, l)] s t) ∧
  (∀ (s : State) (l : Lane) (clips samples : Nat), clips * 1000 ≤ samples → exec (.overloadStep l clips samples) s = .next (settle s)) ∧
  (∀ (s : State) (l : Lane) (q : Int), s.get .FE_SIG_DET l = 1 → s.get .FE_GAIN_STEP l = s.app .FE_STEP_MAX l → q - s.appS .FE_TARGET l < -(s.app .FE_LOS_THR l : Int) → Does (.sigDetClear l q) s fun t =>
      t.get .FE_SIG_DET l = 0 ∧ t.get .FE_SIG_CHG l = 1
        ∧ (s.inData l = true → t.get .ACQ_STATE l = (if s.startsBlind l then 5 else 1) ∧ t.get .ACQ_LEAVE_DATA l = 1)
        ∧ (s.get .ACQ_STATE l = 2 → t.get .ACQ_STATE l = 1)) ∧
  (∀ (s : State) (l : Lane) (q : Int), s.get .FE_SIG_DET l = 1 → -(s.app .FE_LOS_THR l : Int) ≤ q - s.appS .FE_TARGET l → exec (.sigDetClear l q) s = .next (settle s)) ∧
  (∀ (s : State) (l : Lane) (q : Int), s.get .FE_SIG_DET l ≠ 1 → s.app .FE_RX_EN l = 1 → (q - s.appS .FE_TARGET l).natAbs + 12 ≤ s.app .FE_LOS_THR l → s.fiOn l 2 0 = none → Answers (.sigDetSet l q) s fun t =>
      t.get .FE_SIG_DET l = 1 ∧ t.get .FE_SIG_CHG l = 1 ∧ Frame [(.FE_SIG_DET, l), (.FE_SIG_CHG, l), (.FE_LEVEL, l)] s t) ∧
  (∀ (s : State) (l : Lane) (q : Int), s.app .FE_LOS_THR l < (q - s.appS .FE_TARGET l).natAbs + 12 → exec (.sigDetSet l q) s = .next (settle s))

/-- R58: the swing ramp; R60 to R62 and R76: TX segment swaps, and the calibration that a swap makes (R371, R373). Completes: swingRampStep, segmentSwapStart, segmentSwapComplete, segmentSwapTimeout. -/
def Obligations.SwingAndSegments : Prop :=
  (∀ (s : State) (l : Lane), (s.lane l).ramp = false → exec (.swingRampStep l) s = .next (settle s)) ∧
  (∀ (s : State) (l : Lane), (s.lane l).ramp = true → (s.lane l).clk.rampAt + 25000 ≤ s.ticks l.half → Does (.swingRampStep l) s fun t =>
      let v := if (s.lane l).vsw < s.swingCode l then (s.lane l).vsw + 1
        else if s.swingCode l < (s.lane l).vsw then (s.lane l).vsw - 1 else (s.lane l).vsw
      (t.lane l).vsw = v ∧ (t.lane l).ramp = decide (v ≠ s.swingCode l) ∧ Frame [] s t) ∧
  (∀ (s : State) (l : Lane), s.appSet .FE_SEG_ROT_EN l = true → s.inData l = true → s.get .FE_SEG_FAILED l < 2 → s.squelched l = false → (s.lane l).segSwap = false → (s.lane l).segCal.isSome = true → s.calServed l.group = true → (s.lane l).segDue ≤ s.ticks l.half ∨ (s.lane l).segRetry = true → (s.lane l).segOk = true → (s.lane l).ramp = false → Does (.segmentSwapStart ⟨l, none⟩) s fun t => (t.lane l).segSwap = true ∧ (t.lane l).segRetry = false ∧ Frame [] s t) ∧
  (∀ (s : State) (l : Lane), s.appSet .FE_SEG_ROT_EN l = true → s.inData l = true → s.get .FE_SEG_FAILED l < 2 → s.squelched l = false → (s.lane l).segSwap = false → (s.lane l).segCal.isSome = true → s.calServed l.group = true → (s.lane l).segDue ≤ s.ticks l.half ∨ (s.lane l).segRetry = true → (s.lane l).segOk = true → (s.lane l).ramp = true → Does (.segmentSwapStart ⟨l, none⟩) s fun t => (t.lane l).segSwap = false ∧ (t.lane l).segRetry = true ∧ Frame [] s t) ∧
  (∀ (s : State) (l : Lane) (cal : CalResult), s.appSet .FE_SEG_ROT_EN l = true → s.inData l = true → s.get .FE_SEG_FAILED l < 2 → s.squelched l = false → (s.lane l).segSwap = false → (s.lane l).segCal.isSome = true → s.calServed l.group = true → (s.lane l).segDue ≤ s.ticks l.half ∨ (s.lane l).segRetry = true → (s.lane l).segOk = false → calAgrees cal 1 = true → calBad cal 1 = false → (s.lane l).ramp = false → Does (.segmentSwapStart ⟨l, some cal⟩) s fun t => (t.lane l).segSwap = true ∧ (t.lane l).segOk = true ∧ Frame [(.CAL_CAL_CNT, l), (.CAL_LAST_SEC, l), (.CAL_LAST_NS, l), (.CAL_DISAGREE, l), (.CAL_DIS_CNT, l), (.PH_AREA_OK, l.half), (.PH_USED_KIB, l.half)] s t) ∧
  (∀ (s : State) (l : Lane) (cal : CalResult) (c : Nat), (s.lane l).segSwap = true → (s.lane l).segCal = some c → calBad cal 1 = false → Does (.segmentSwapComplete l cal) s fun t =>
      (t.lane l).segSwap = false ∧ (t.lane l).segs = (s.lane l).segs.set (s.lane l).segTurn c
        ∧ (t.lane l).segCal = some ((s.lane l).segs.getD (s.lane l).segTurn 0)
        ∧ (calAgrees cal 1 = true → t.get .CAL_CAL_CNT l = (s.get .CAL_CAL_CNT l + 1) % 2 ^ Fld.width .CAL_CAL_CNT
          ∧ t.get .CAL_LAST_NS l = (s.half l.half).ns % 2 ^ Fld.width .CAL_LAST_NS)
        ∧ (calAgrees cal 1 = false → t.get .CAL_DISAGREE l = 1 ∧ t.get .CAL_CAL_CNT l = s.get .CAL_CAL_CNT l ∧ t.trims = s.trims)
        ∧ Frame [(.CAL_CAL_CNT, l), (.CAL_LAST_SEC, l), (.CAL_LAST_NS, l), (.CAL_DISAGREE, l), (.CAL_DIS_CNT, l), (.PH_AREA_OK, l.half), (.PH_USED_KIB, l.half)] s t) ∧
  (∀ (s : State) (l : Lane) (cal : CalResult), (s.lane l).segSwap = true → calBad cal 1 = true → Does (.segmentSwapComplete l cal) s fun t =>
      (t.lane l).segSwap = false ∧ t.get .FE_SEG_FAILED l = min (s.get .FE_SEG_FAILED l + 1) 3 ∧ t.get .FE_SEG_FAIL l = 1
        ∧ (2 ≤ s.get .FE_SEG_FAILED l → Cause.feSeg ∈ (t.lane l).fences)) ∧
  (∀ (s : State) (l : Lane), (s.lane l).segSwap = true → (s.lane l).clk.segAt + 5000 ≤ s.ticks l.half → Does (.segmentSwapTimeout l false) s fun t => (t.lane l).segSwap = false ∧ (t.lane l).segs = (s.lane l).segs ∧ Frame [] s t) ∧
  (∀ (s : State) (l : Lane), (s.lane l).segSwap = true → (s.lane l).clk.segAt + 5000 ≤ s.ticks l.half → (s.lane l).segCal.isSome = true → s.get .FE_SEG_FAILED l < 2 → Does (.segmentSwapTimeout l true) s fun t =>
      (t.lane l).segSwap = false ∧ t.get .FE_SEG_FAILED l = s.get .FE_SEG_FAILED l + 1 ∧ t.get .FE_SEG_FAIL l = 1
        ∧ (t.lane l).fences = (s.lane l).fences
        ∧ Frame [(.CAL_INTERP_ONLY, l), (.FE_SEG_FAILED, l), (.FE_SEG_FAIL, l), (.SP_SADC_SPARE, Group.spIdx l.group), (.SP_SEG_SPARE, Group.spIdx l.group),
          (.REL_LOG_USED, l.half), (.REL_LOG_FULL, l.half), (.PH_AREA_OK, l.half), (.PH_USED_KIB, l.half)] s t)

/-- R71 to R76: rotation, handover, repeated disagreement, comparison with the ensemble, and the failures of R75. Completes: subadcRotationStart, subadcRotationRetry, handoverEnd, subadcEnsembleCheck. -/
def Obligations.SubAdcRotation : Prop :=
  (∀ (s : State) (l : Lane) (cal : CalResult) (p : Nat), s.appSet .FE_ROT_EN l = true → s.inData l = true → s.get .FE_SADC_FAILED l = 0 → s.get .FE_HANDOVER l ≠ 1 → s.calServed l.group = true → (s.lane l).sadcDue ≤ s.ticks l.half → (s.lane l).spare = some p → calAgrees cal 0 = true → calBad cal 0 = false → s.actionSoon l (sadcRun (s.lmode l)) = false → Does (.subadcRotationStart l cal) s fun t =>
      t.get .FE_HANDOVER l = 1 ∧ (t.lane l).sadcRetry = false ∧ (t.lane l).sparePassed = true ∧ Frame [(.CAL_CAL_CNT, l), (.CAL_LAST_SEC, l), (.CAL_LAST_NS, l), (.CAL_DISAGREE, l), (.CAL_DIS_CNT, l), (.PH_AREA_OK, l.half), (.PH_USED_KIB, l.half)] s t) ∧
  (∀ (s : State) (l : Lane) (cal : CalResult) (p : Nat), s.appSet .FE_ROT_EN l = true → s.inData l = true → s.get .FE_SADC_FAILED l = 0 → s.get .FE_HANDOVER l ≠ 1 → s.calServed l.group = true → (s.lane l).sadcDue ≤ s.ticks l.half → (s.lane l).spare = some p → calAgrees cal 0 = false → Does (.subadcRotationStart l cal) s fun t =>
      t.get .FE_HANDOVER l = s.get .FE_HANDOVER l ∧ t.get .CAL_DISAGREE l = 1 ∧ (t.lane l).sparePassed = false ∧ (t.lane l).sadcRetry = true
        ∧ Frame [(.CAL_CAL_CNT, l), (.CAL_LAST_SEC, l), (.CAL_LAST_NS, l), (.CAL_DISAGREE, l), (.CAL_DIS_CNT, l), (.PH_AREA_OK, l.half), (.PH_USED_KIB, l.half)] s t) ∧
  (∀ (s : State) (l : Lane) (cal : CalResult), s.ticks l.half < (s.lane l).sadcDue → exec (.subadcRotationStart l cal) s = .next (settle s)) ∧
  (∀ (s : State) (l : Lane), s.appSet .FE_ROT_EN l = true → s.inData l = true → s.get .FE_SADC_FAILED l = 0 → s.get .FE_HANDOVER l ≠ 1 → s.calServed l.group = true → (s.lane l).sparePassed = true → s.actionSoon l (sadcRun (s.lmode l)) = false → (s.lane l).sadcRetry = true → Does (.subadcRotationRetry l none) s fun t => t.get .FE_HANDOVER l = 1 ∧ (t.lane l).sadcRetry = false ∧ Frame [] s t) ∧
  (∀ (s : State) (l : Lane) (cal : CalResult) (p : Nat), s.appSet .FE_ROT_EN l = true → s.inData l = true → s.get .FE_SADC_FAILED l = 0 → s.get .FE_HANDOVER l ≠ 1 → s.calServed l.group = true → (s.lane l).spare = some p → calAgrees cal 0 = true → calBad cal 0 = false → s.actionSoon l (sadcRun (s.lmode l)) = false → (s.lane l).sadcRetry = true → Does (.subadcRotationRetry l (some cal)) s fun t => t.get .FE_HANDOVER l = 1 ∧ (t.lane l).sadcRetry = false ∧ (t.lane l).sparePassed = true ∧ Frame [(.CAL_CAL_CNT, l), (.CAL_LAST_SEC, l), (.CAL_LAST_NS, l), (.CAL_DISAGREE, l), (.CAL_DIS_CNT, l), (.PH_AREA_OK, l.half), (.PH_USED_KIB, l.half)] s t) ∧
  (∀ (s : State) (l : Lane), s.appSet .FE_ROT_EN l = true → s.inData l = true → s.get .FE_SADC_FAILED l = 0 → s.get .FE_HANDOVER l ≠ 1 → s.calServed l.group = true → (s.lane l).sparePassed = true → s.actionSoon l (sadcRun (s.lmode l)) = true → (s.lane l).sadcRetry = true → Does (.subadcRotationRetry l none) s fun t =>
      t.get .FE_HANDOVER l = s.get .FE_HANDOVER l ∧ t.get .FE_HO_DEFER l = min (s.get .FE_HO_DEFER l + 1) (2 ^ Fld.width .FE_HO_DEFER - 1)
        ∧ (t.lane l).sadcRetry = true ∧ Frame [] s t) ∧
  (∀ (s : State) (l : Lane) (cal : Option CalResult), (s.lane l).sadcRetry = false → exec (.subadcRotationRetry l cal) s = .next (settle s)) ∧
  (∀ (s : State) (l : Lane) (c : HandoverCmp) (p k n : Nat), s.get .FE_HANDOVER l = 1 → (s.lane l).spare = some p → (s.lane l).outgoing = some (k, n) → 2048 ≤ c.pairs → c.meanMilli.natAbs ≤ 125 → c.rmsMilli ≤ 600 → Does (.handoverEnd l c) s fun t =>
      t.get .FE_HANDOVER l = 0 ∧ t.get .FE_HO_CNT l = (s.get .FE_HO_CNT l + 1) % 2 ^ Fld.width .FE_HO_CNT ∧ (t.lane l).disagree = 0
        ∧ (t.lane l).phases = (s.lane l).phases.set k p ∧ (t.lane l).spare = some n
        ∧ Frame [(.FE_HO_CNT, l)] s t) ∧
  (∀ (s : State) (l : Lane) (c : HandoverCmp), s.get .FE_HANDOVER l = 1 → c.pairs < 2048 → (s.lane l).disagree < 2 → Does (.handoverEnd l c) s fun t =>
      t.get .FE_HANDOVER l = 0 ∧ t.get .FE_HO_DISAGREE l = 1 ∧ (t.lane l).disagree = (s.lane l).disagree + 1
        ∧ (t.lane l).phases = (s.lane l).phases ∧ Frame [(.FE_HO_DISAGREE, l), (.FE_HO_DISAGREE_CNT, l)] s t) ∧
  (∀ (s : State) (l : Lane) (c : HandoverCmp) (p k n : Nat), s.get .FE_HANDOVER l = 1 → 600 < c.rmsMilli → (s.lane l).disagree = 2 → (s.lane l).spare = some p → (s.lane l).outgoing = some (k, n) → calBad c.incoming 0 = true → calBad c.outgoing 0 = false → s.get .FE_SADC_FAILED l = 0 → Does (.handoverEnd l c) s fun t =>
      t.get .FE_SADC_FAILED l = 1 ∧ t.get .FE_SADC_FAIL l = 1 ∧ (t.lane l).disagree = 0 ∧ (t.lane l).spare = none
        ∧ t.get .CAL_INTERP_ONLY l = 1) ∧
  (∀ (s : State) (l : Lane) (devs : List SubAdcDev) (clips samples : Nat), s.get .FE_HANDOVER l ≠ 1 → (devs.all fun d => !sadcOff d.offset d.gain) = true → Does (.subadcEnsembleCheck l ⟨devs, clips, samples⟩) s fun t =>
      (t.lane l).outside = [] ∧ t.get .FE_CLIP l = (if samples < clips * 10000 then 1 else 0) ∧ Frame [(.FE_CLIP, l)] s t) ∧
  (∀ (s : State) (l : Lane) (d : SubAdcDev) (clips samples : Nat), s.get .FE_HANDOVER l ≠ 1 → sadcOff d.offset d.gain = true → d.sub.val ∈ (s.lane l).phases → d.sub.val ∉ (s.lane l).outside → Does (.subadcEnsembleCheck l ⟨[d], clips, samples⟩) s fun t =>
      (t.lane l).outside = [d.sub.val] ∧ t.get .FE_SADC_FAILED l = s.get .FE_SADC_FAILED l ∧ Frame [(.FE_CLIP, l)] s t) ∧
  (∀ (s : State) (l : Lane) (d : SubAdcDev) (clips samples : Nat), s.get .FE_HANDOVER l ≠ 1 → sadcOff d.offset d.gain = true → d.sub.val ∈ (s.lane l).phases → d.sub.val ∈ (s.lane l).outside → Does (.subadcEnsembleCheck l ⟨[d], clips, samples⟩) s fun t =>
      t.get .FE_SADC_FAILED l = min (s.get .FE_SADC_FAILED l + 1) 2 ∧ t.get .FE_SADC_FAIL l = 1
        ∧ (1 ≤ s.get .FE_SADC_FAILED l → Cause.feSadc ∈ (t.lane l).fences))

/-- R9 to R12, R441, R442, R498 and R594; the offsets are those of the register sections (LN_FE_TX in R81, TIME_EVT in R405, LSH_CTRL in R322). Completes: registerWrite, lowWordReadLatch. -/
def Obligations.RegisterWrites : Prop :=
  (∀ (s : State) (h : Half) (off : BitVec 20) (v : W32), s.running h = true → s.answers h = true → off.toNat % 4 = 0 → Does (.registerWrite h .bar0 off 4 v) s fun t => t = s.writeBar0 h off.toNat v.toNat) ∧
  (∀ (s : State) (h : Half) (off : BitVec 20) (v : W32), s.answers h = true → off.toNat % 4 = 0 → Does (.registerWrite h .bar2 off 4 v) s fun t => t = s.writeBar2 h off.toNat v.toNat) ∧
  (∀ (s : State) (h : Half) (off : BitVec 20) (n : Nat) (v : W32), s.running h = true → s.answers h = true → n ≠ 4 ∨ off.toNat % 4 ≠ 0 → s.get .HIF_BAD_ACCESS h ≠ 1 → Does (.registerWrite h .bar0 off n v) s fun t => t.get .HIF_BAD_ACCESS h = 1 ∧ Frame [(.HIF_BAD_ACCESS, h)] s t) ∧
  (∀ (s : State) (h : Half) (off : BitVec 20) (v : W32), s.get .BOOT_STATE h = 0 → off.toNat % 4 = 0 → exec (.registerWrite h .bar0 off 4 v) s = .next (settle s)) ∧
  (∀ (s : State) (h : Half) (off : BitVec 20) (n : Nat) (v : W32), exec (.registerWrite h .bar4 off n v) s = .next (settle s)) ∧
  (∀ (s : State) (h : Half) (b : Bar) (off : BitVec 20) (n : Nat) (v : W32), s.answers h = false → exec (.registerWrite h b off n v) s = .next (settle s) ∧ exec (.lowWordReadLatch h ⟨b, off, n⟩) s = .next (settle s)) ∧
  (∀ (s : State) (h : Half) (v : W32), s.running h = true → s.answers h = true → Does (.registerWrite h .bar0 0x60054 4 v) s fun t =>
      (v.toNat.testBit 5 = true → t.get .TIME_SLEW_DONE h % 2 = 0) ∧ (v.toNat.testBit 5 = false → t.get .TIME_SLEW_DONE h % 2 = s.get .TIME_SLEW_DONE h % 2)
        ∧ FieldsKept [(.TIME_SLEW_DONE, h), (.TIME_STEP_DONE, h), (.TIME_ONE_STEP_ERR, h), (.TIME_TSQ_OVF, h), (.TIME_PPS_LOST, h), (.TIME_PPS_IN_EDGE, h)] s t) ∧
  (∀ (s : State) (g : Group) (i : Fin 8) (off : BitVec 20) (v : W32), s.running g.half = true → s.answers g.half = true → off.toNat = 0x12004 + 0x10000 * (g.val % 3) + 0x40 * i.val → Does (.registerWrite g.half .bar0 off 4 v) s fun t =>
      t.get .FE_SWING (8 * g.val + i.val) = v.toNat / 256 % 64 ∧ (.FE_SWING, 8 * g.val + i.val) ∈ t.written ∧ t.ap = s.ap
        ∧ FieldsKept [(.FE_SWING, 8 * g.val + i.val)] s t) ∧
  (∀ (s : State) (h : Half) (v : W32), s.running h = true → s.answers h = true → 85 ≤ v.toNat / 256 % 256 → v.toNat / 256 % 256 ≤ 101 → Does (.registerWrite h .bar0 0x70000 4 v) s fun t => t.get .THM_TT h = v.toNat / 256 % 256 ∧ Frame [(.THM_TT, h)] s t) ∧
  (∀ (s : State) (h : Half) (v : W32), s.running h = true → s.answers h = true → s.get .LSH_LOCK h = 1 → s.manages h = true → (s.half h).filter 0x0106 ≤ 1 → Does (.registerWrite h .bar0 0x70800 4 v) s fun t => Posted s t h 0x0106 1 0x70800 0x08 ∧ t.get .LSH_SOFF_RESUME h = s.get .LSH_SOFF_RESUME h) ∧
  (∀ (s : State) (h : Half), s.running h = true → s.answers h = true → (∀ x ∈ (s.half h).latch, x.1 ≠ 0x1800) → Does (.lowWordReadLatch h ⟨.bar0, 0x1800, 4⟩) s fun t =>
      t.out = .read h 0x1800 (s.get .PC_CYC (4 * h.val + 3) % 2 ^ 32) :: s.out ∧ (t.half h).latch = (s.half h).latch ∧ Frame [] s t) ∧
  (∀ (s : State) (l : Lane) (off : BitVec 20), s.running l.half = true → s.answers l.half = true → off.toNat = 0x16020 + 0x10000 * (l.group.val % 3) + 0x100 * (l.val % 8) → Does (.lowWordReadLatch l.half ⟨.bar0, off, 4⟩) s fun t =>
      t.out = .read l.half off.toNat (s.get .FECS_CW (2 * l.val) % 2 ^ 32) :: s.out
        ∧ (t.half l.half).latch.head? = some (off.toNat + 4, s.get .FECS_CW (2 * l.val) / 2 ^ 32) ∧ Frame [] s t) ∧
  (∀ (s : State) (l : Lane) (off : BitVec 20) (v : Nat), s.running l.half = true → s.answers l.half = true → off.toNat = 0x16024 + 0x10000 * (l.group.val % 3) + 0x100 * (l.val % 8) → (s.half l.half).latch.find? (fun p => p.1 == off.toNat) = some (off.toNat, v) → Does (.lowWordReadLatch l.half ⟨.bar0, off, 4⟩) s fun t =>
      t.out = .read l.half off.toNat v :: s.out ∧ (t.half l.half).latch = (s.half l.half).latch.filter (fun p => p.1 != off.toNat) ∧ Frame [] s t) ∧
  (∀ (s : State) (h : Half), s.answers h = true → s.running h = false → s.get .BOOT_STATE h ≠ 2 → Does (.lowWordReadLatch h ⟨.bar0, 0x60014, 4⟩) s fun t => t.out = .read h 0x60014 0 :: s.out ∧ Frame [] s t) ∧
  (∀ (s : State) (h : Half) (off : BitVec 20), s.running h = true → s.answers h = true → off.toNat % 4 = 0 → Does (.lowWordReadLatch h ⟨.bar0, off, 4⟩) s fun t => t = if readsEarly off.toNat then s.latchLow h off.toNat else s.readBar0 h off.toNat) ∧
  (∀ (s : State) (h : Half) (off : BitVec 20), s.answers h = true → off.toNat % 4 = 0 → Does (.lowWordReadLatch h ⟨.bar2, off, 4⟩) s fun t => t.out = .readBar h .bar2 off.toNat (s.bar2Word h off.toNat) :: s.out ∧ Frame [] s t) ∧
  (∀ (s : State) (h : Half) (off : BitVec 20), s.answers h = true → off.toNat % 8 = 0 → Does (.lowWordReadLatch h ⟨.bar4, off, 8⟩) s fun t =>
      t.out = .readBar h .bar4 off.toNat (s.bar4Word h off.toNat + 2 ^ 32 * s.bar4Word h (off.toNat + 4)) :: s.out ∧ Frame [] s t) ∧
  (∀ (s : State) (h : Half) (b : Bar) (off : BitVec 20) (n : Nat), s.answers h = true → b ≠ .bar4 → n ≠ 4 ∨ off.toNat % 4 ≠ 0 → Does (.lowWordReadLatch h ⟨b, off, n⟩) s fun t =>
      t.out = .readBar h b off.toNat (2 ^ (8 * n) - 1) :: s.out ∧ (s.running h = true → t.get .HIF_BAD_ACCESS h = 1) ∧ Frame [(.HIF_BAD_ACCESS, h)] s t)

/-- R96 to R100 and R103: SNR is 10·log10 of the level power over the mean square error of the block. R99 and R101: which coefficients an update may move, and how far. Completes: adaptBlockEnd, kneaderUpdate, coeffBankSwap, checkpointTimer, checkpointRevert. -/
def Obligations.Adaptation : Prop :=
  (∀ (s : State) (l : Lane) (m : BlockMeasures), s.get .EQ_ADAPT l = 0 → exec (.adaptBlockEnd l m) s = .next (settle s)) ∧
  (∀ (s : State) (l : Lane) (m : BlockMeasures), s.get .EQ_ADAPT l ≠ 0 → s.lmode l ≤ 1 → (s.lane l).block.isSome = true → m.samples.length = s.blockSamples l → Does (.adaptBlockEnd l m) s fun t =>
      let mse := (s.blockSums l m.samples).sse / s.blockSamples l
      t.get .EQ_VALID l = (if s.inData l ∧ s.get .EQ_ADAPT l ≠ 3 then 1 else 0)
        ∧ t.get .EQ_SNR l = (clampInt 0 1023 (dbTenths (1310720 * mse.den) mse.num.natAbs)).toNat
        ∧ (t.lane l).mse = (mse :: (s.lane l).mse).take 8
        ∧ (t.lane l).acc = (if s.updates l then some (s.blockSums l m.samples) else none)
        ∧ Frame [(.EQ_SNR, l), (.EQ_EYE_HI, l), (.EQ_EYE_MID, l), (.EQ_EYE_LO, l), (.EQ_FREQ, l), (.EQ_PHASE, l)] s t) ∧
  (∀ (s : State) (l : Lane) (m : BlockMeasures), s.get .EQ_ADAPT l ≠ 0 → s.lmode l = 2 → (s.lane l).block.isSome = true → m.samples.length = s.blockSamples l → (s.lane l).lamN ≠ 0 → Does (.adaptBlockEnd l m) s fun t =>
      t.get .FEC_PM_MARGIN l = (clampInt 0 65535 (quantiseQ (256 * (s.lane l).lamSum / (s.lane l).lamN))).toNat
        ∧ (t.get .FEC_PM_MARGIN l < 4 * s.app .FEC_REL_THR l → t.get .FEC_MARGIN_LOW l = 1)
        ∧ (t.lane l).lamN = 0
        ∧ Frame [(.EQ_SNR, l), (.EQ_EYE_HI, l), (.EQ_EYE_MID, l), (.EQ_EYE_LO, l), (.EQ_FREQ, l), (.EQ_PHASE, l), (.FEC_PM_MARGIN, l), (.FEC_MARGIN_LOW, l)] s t) ∧
  (∀ (s : State) (l : Lane) (m : BlockMeasures), s.get .EQ_ADAPT l ≠ 0 → s.lmode l = 3 → (s.lane l).lamN ≠ 0 → Does (.adaptBlockEnd l m) s fun t =>
      t.get .EQ_EYE_HI l = 0 ∧ t.get .EQ_EYE_MID l = 0 ∧ t.get .EQ_EYE_LO l = 0
        ∧ t.get .FEC_PM_MARGIN l = (clampInt 0 65535 (quantiseQ (256 * (s.lane l).lamSum / (s.lane l).lamN))).toNat
        ∧ Frame [(.EQ_EYE_HI, l), (.EQ_EYE_MID, l), (.EQ_EYE_LO, l), (.FEC_PM_MARGIN, l), (.FEC_MARGIN_LOW, l)] s t) ∧
  (∀ (s : State) (l : Lane) (a : Accum), s.get .EQ_ADAPT l = 1 ∨ s.get .EQ_ADAPT l = 2 → s.get .EQ_HOLD l ≠ 1 → s.lmode l ≠ 3 → (s.lane l).acc = some a → Does (.kneaderUpdate l l.adaptKnd) s fun t =>
      (t.lane l).swap = some (s.adapted l a) ∧ (t.lane l).acc = none ∧ t.ap = s.ap ∧ t.written = s.written
        ∧ (∀ k, k < 48 → t.get .EQ_FFE_SHADOW (l * 48 + k) = if (Fld.EQ_FFE_SHADOW, l.val * 48 + k) ∈ s.written
          then s.get .EQ_FFE_SHADOW (l * 48 + k) else (s.adapted l a).ffe.getD k 0 % 2 ^ 14)) ∧
  (∀ (s : State) (l : Lane) (k : Knd), (s.get .EQ_ADAPT l ≠ 1 ∧ s.get .EQ_ADAPT l ≠ 2) ∨ s.get .EQ_HOLD l = 1 ∨ s.lmode l = 3 ∨ k ≠ l.adaptKnd → exec (.kneaderUpdate l k) s = .next (settle s)) ∧
  (∀ (s : State) (l : Lane) (b : Bank), s.lmode l ≠ 3 → (s.lane l).swap = some b → (∀ h : Half, (s.half h).snaps = []) → Does (.coeffBankSwap l) s fun t =>
      (∀ k, k < 48 → t.app .EQ_FFE_SHADOW (l * 48 + k) = (s.pinned l b).ffe.getD k 0 % 2 ^ 14)
        ∧ (∀ j, j < 12 → t.app .EQ_VOLT_SHADOW (l * 12 + j) = b.volt.getD j 0 % 2 ^ 12)
        ∧ t.app .EQ_D1_SHADOW l = b.d1 % 2 ^ 10 ∧ (t.lane l).swap = none ∧ (t.lane l).block = some (s.ticks l.half)
        ∧ FieldsKept [] s t) ∧
  (∀ (s : State) (l : Lane), s.lmode l = 3 → (s.lane l).feq ≠ [] → s.swapNow l = false → (∀ h : Half, (s.half h).snaps = []) → Does (.coeffBankSwap l) s fun t =>
      t.dmt = (s.each (s.lane l).feq fun s x => s.setDmt l 3 x.1 (feqWord x.2.1 x.2.2)).dmt ∧ (t.lane l).feq = [] ∧ (t.lane l).feqFrom = s.symIdx l ∧ t.ap = s.ap
        ∧ FieldsKept [] s t) ∧
  (∀ (s : State) (l : Lane), s.lmode l = 3 → s.swapNow l = true → exec (.coeffBankSwap l) s = .next (settle s)) ∧
  (∀ (s : State) (l : Lane), s.lmode l ≠ 3 → (s.lane l).swap = none → (s.lane l).feq = [] → exec (.coeffBankSwap l) s = .next (settle s)) ∧
  (∀ (s : State) (l : Lane) (m : Rat), (s.lane l).ckptDue ≤ s.ticks l.half → (s.lane l).mse.head? = some m → s.inData l = true → s.lmode l ≠ 3 → s.get .EQ_CKPT_VALID l ≠ 1 ∨ 16 * m ≤ 20 * (s.lane l).ckptMse → Does (.checkpointTimer l) s fun t =>
      t.get .EQ_CKPT_VALID l = 1 ∧ (t.lane l).ckpt = s.bank l ∧ (t.lane l).ckptMse = m ∧ Frame [(.EQ_CKPT_VALID, l)] s t) ∧
  (∀ (s : State) (l : Lane) (m : Rat), (s.lane l).mse.head? = some m → s.get .EQ_CKPT_VALID l = 1 → 20 * (s.lane l).ckptMse < 16 * m → Does (.checkpointTimer l) s fun t =>
      (t.lane l).ckpt = (s.lane l).ckpt ∧ (t.lane l).ckptMse = (s.lane l).ckptMse ∧ Frame [] s t) ∧
  (∀ (s : State) (l : Lane), (s.lane l).revertDue = true → s.lmode l ≠ 3 → (∀ h : Half, (s.half h).snaps = []) → ((s.lane l).reverts.filter fun u => s.ticks l.half - u < 25000000).length < 3 → Does (.checkpointRevert l) s fun t =>
      t.get .EQ_REVERT l = 1 ∧ t.get .EQ_REVERT_CNT l = min (s.get .EQ_REVERT_CNT l + 1) (2 ^ Fld.width .EQ_REVERT_CNT - 1)
        ∧ (∀ k, k < 48 → t.app .EQ_FFE_SHADOW (l * 48 + k) = (s.pinned l (s.lane l).ckpt).ffe.getD k 0 % 2 ^ 14)
        ∧ t.get .EQ_ADAPT l = s.get .EQ_ADAPT l ∧ t.get .EQ_FROZEN l = s.get .EQ_FROZEN l
        ∧ (t.lane l).revertDue = false ∧ (t.lane l).swap = none) ∧
  (∀ (s : State) (l : Lane), (s.lane l).revertDue = true → s.lmode l ≠ 3 → (∀ h : Half, (s.half h).snaps = []) → 3 ≤ ((s.lane l).reverts.filter fun u => s.ticks l.half - u < 25000000).length → Does (.checkpointRevert l) s fun t =>
      t.get .EQ_REVERT l = 1 ∧ t.get .EQ_ADAPT l = 3 ∧ t.get .EQ_FROZEN l = 1 ∧ t.get .EQ_VALID l = 0) ∧
  (∀ (s : State) (l : Lane) (c : Accum) (k : Nat), k < 48 → inWindow (s.get .EQ_EFFORT l) (s.app .EQ_MAIN l) k = false → (s.adapted l c).ffe.getD k 0 = s.app .EQ_FFE_SHADOW (l * 48 + k)) ∧
  (∀ (s : State) (l : Lane) (c : Accum) (k : Nat), k < 48 → s.inData l = true → k + 1 = s.app .EQ_MAIN l → (s.adapted l c).ffe.getD k 0 = s.app .EQ_FFE_SHADOW (l * 48 + k)) ∧
  (∀ (s : State) (l : Lane) (b : Bank) (k : Nat), b.ffe.length = 48 → k < 48 → s.inData l = true → k + 1 = s.app .EQ_MAIN l → (s.pinned l b).ffe.getD k 0 = s.app .EQ_FFE_SHADOW (l * 48 + k)) ∧
  (∀ (mu n mx frac w old : Nat) (corr : Rat), 0 < w → (toSigned w (updateCoeff mu n mx frac w old corr) - toSigned w old).natAbs ≤ mx
      ∧ updateCoeff mu n mx frac w old corr < 2 ^ w)

/-- R107, R158 and R267: what the timing lock and the codeword alignment do to a lane. Completes: timingLockSet, timingLockLoss, codewordAlignmentGained. -/
def Obligations.TimingLock : Prop :=
  (∀ (s : State) (l : Lane), s.get .EQ_LOCK l ≠ 1 → s.get .ACQ_STATE l ≠ 0 → s.get .ACQ_STATE l ≠ 5 ∨ s.get .FEC_CW_LOCK l ≠ 1 → Does (.timingLockSet l) s fun t => t.get .EQ_LOCK l = 1 ∧ t.get .EQ_TLOCK_CHG l = 1 ∧ Frame [(.EQ_LOCK, l), (.EQ_TLOCK_CHG, l)] s t) ∧
  (∀ (s : State) (l : Lane), s.get .EQ_LOCK l ≠ 1 → s.get .ACQ_STATE l = 5 → s.get .FEC_CW_LOCK l = 1 → s.lmode l ≠ 3 → s.kndOut l.acqKnd = false → Does (.timingLockSet l) s fun t =>
      t.get .EQ_LOCK l = 1 ∧ t.get .ACQ_STATE l = 3 ∧ t.get .ACQ_ENTER_DATA l = 1
        ∧ t.get .ACQ_DATA_CNT l = (s.get .ACQ_DATA_CNT l + 1) % 2 ^ Fld.width .ACQ_DATA_CNT) ∧
  (∀ (s : State) (l : Lane), s.get .EQ_LOCK l = 1 → s.inData l = true → Does (.timingLockLoss l) s fun t =>
      t.get .EQ_LOCK l = 0 ∧ t.get .EQ_TLOCK_CHG l = 1 ∧ t.get .ACQ_STATE l = (if s.startsBlind l then 5 else 1) ∧ t.get .ACQ_LEAVE_DATA l = 1
        ∧ Frame [(.EQ_LOCK, l), (.EQ_TLOCK_CHG, l)] s t) ∧
  (∀ (s : State) (l : Lane), s.get .EQ_LOCK l = 1 → s.inData l = false → Does (.timingLockLoss l) s fun t =>
      t.get .EQ_LOCK l = 0 ∧ t.get .EQ_TLOCK_CHG l = 1 ∧ t.get .ACQ_STATE l = s.get .ACQ_STATE l ∧ Frame [(.EQ_LOCK, l), (.EQ_TLOCK_CHG, l)] s t) ∧
  (∀ (s : State) (l : Lane), s.get .EQ_LOCK l ≠ 1 → exec (.timingLockLoss l) s = .next (settle s)) ∧
  (∀ (s : State) (l : Lane), s.lmode l ≤ 1 → s.get .ACQ_STATE l = 5 → s.get .EQ_LOCK l = 1 → s.kndOut l.acqKnd = false → Does (.codewordAlignmentGained l) s fun t => t.get .FEC_CW_LOCK l = 1 ∧ t.get .ACQ_STATE l = 3 ∧ t.get .ACQ_ENTER_DATA l = 1) ∧
  (∀ (s : State) (l : Lane), s.lmode l ≤ 1 → s.get .ACQ_STATE l ≠ 0 → s.get .ACQ_STATE l ≠ 5 ∨ s.get .EQ_LOCK l ≠ 1 → s.get .ACQ_STATE l ≠ 2 ∨ (s.lane l).rxBegun = false → Does (.codewordAlignmentGained l) s fun t => t.get .FEC_CW_LOCK l = 1 ∧ t.get .ACQ_STATE l = s.get .ACQ_STATE l ∧ Frame [] s t)

/-- R111 to R120: effort levels, the rotation of the spare slice, slice failure, and captures. Completes: effortChangeApply, sliceRotationStart, sliceRotationComplete, sliceFail, captureWrite, eqBankCapture. -/
def Obligations.EffortAndSlices : Prop :=
  (∀ (s : State) (l : Lane), (s.lane l).effortDue = true → (∀ h : Half, (s.half h).snaps = []) → Does (.effortChangeApply l) s fun t =>
      t.get .EQ_EFFORT l = (if s.get .EQ_EFFORT l = s.effortLevel l then s.get .EQ_EFFORT l else s.effortLevel l % 4)
        ∧ (s.get .EQ_EFFORT l ≠ s.effortLevel l → t.get .EQ_EFFORT_CHG l = 1 ∧ (t.lane l).swap = none) ∧ (t.lane l).effortDue = false
        ∧ t.get .EQ_THROTTLED l = (if s.effortLevel l < s.app .EQ_EFFORT_MAX l then 1 else 0)) ∧
  (∀ (s : State) (g : Group) (l : Lane), s.savesLane g = none → s.sliceReady g = true → s.nextTurn g = some l → (s.group g).rotDue ≤ s.ticks g.half ∨ (s.group g).rotRetry.isSome = true → s.actionSoon l (sliceRunNs (s.lmode l)) = false → Does (.sliceRotationStart g) s fun t =>
      (t.group g).sliceRun = some l ∧ t.get .EQ_PARALLEL l = 1 ∧ (t.group g).nextRot = (l + 1) % 8 ∧ (t.group g).rotRetry = none
        ∧ (t.group g).rotDue = (if (s.group g).rotDue ≤ s.ticks g.half then dueAfter (s.ticks g.half) (s.group g).rotDue (msTicks (s.srotPeriod g)) else (s.group g).rotDue)
        ∧ Frame [] s t) ∧
  (∀ (s : State) (g : Group), s.savesLane g = none → s.ticks g.half + msTicks 2 < (s.group g).rotDue → (s.group g).rotRetry = none → exec (.sliceRotationStart g) s = .next (settle s)) ∧
  (∀ (s : State) (g : Group) (l : Lane), s.savesLane g = some l → (s.group g).sliceRun = none → s.get .SP_SLICE_SPARE (Group.spIdx g) ≠ 0 → s.inData l = true → s.actionSoon l (sliceRunNs (s.lmode l)) = false → (s.group g).sliceTest = none → l.group = g → Does (.sliceRotationStart g) s fun t => (t.group g).sliceRun = some l ∧ t.get .EQ_PARALLEL l = 1 ∧ (t.group g).rotDue = (s.group g).rotDue ∧ Frame [] s t) ∧
  (∀ (s : State) (g : Group) (l : Lane), s.savesLane g = none → s.sliceReady g = true → s.nextTurn g = some l → (s.group g).rotDue ≤ s.ticks g.half ∨ (s.group g).rotRetry.isSome = true → s.actionSoon l (sliceRunNs (s.lmode l)) = true → Does (.sliceRotationStart g) s fun t =>
      (t.group g).sliceRun = none ∧ (t.group g).rotRetry = some (l % 8) ∧ Frame [] s t) ∧
  (∀ (s : State) (g : Group) (l : Lane), (s.group g).sliceRun = some l → s.savesLane g = none → Does (.sliceRotationComplete g true true) s fun t =>
      (t.group g).sliceRun = none ∧ t.get .EQ_PARALLEL l = 0 ∧ t.get .EQ_SLICE_SWAP l = 1
        ∧ (t.group g).xbar = (s.group g).xbar.set (Lane.index l) (s.group g).freeSlice
        ∧ t.get .EQ_SWAP_CNT l = (s.get .EQ_SWAP_CNT l + 1) % 2 ^ Fld.width .EQ_SWAP_CNT ∧ (t.group g).mismatch = 0 ∧ (t.group g).tested = false
        ∧ Frame [(.EQ_SLICE_SWAP, l), (.EQ_SWAP_CNT, l)] s t) ∧
  (∀ (s : State) (g : Group) (l : Lane) (rx tx : Bool), (s.group g).sliceRun = some l → (rx && tx) = false → (s.group g).mismatch = 0 → Does (.sliceRotationComplete g rx tx) s fun t =>
      (t.group g).sliceRun = none ∧ t.get .EQ_SLICE_ABANDON l = 1 ∧ (t.group g).mismatch = 1 ∧ (t.group g).xbar = (s.group g).xbar
        ∧ (t.group g).rotRetry = some (l % 8) ∧ (t.group g).spareOk = false ∧ t.get .EQ_SWAP_CNT l = s.get .EQ_SWAP_CNT l
        ∧ ((s.group g).sliceTest = none → s.get .SP_SLICE_SPARE (Group.spIdx g) ≠ 0 → s.calServed g = true →
            s.testLends g.half 0 (Group.spIdx g) = false → (t.group g).sliceTest = some (s.ticks g.half))
        ∧ Frame [(.EQ_SLICE_ABANDON, l), (.ST_STATE, g.half), (.ST_KIND, g.half), (.ST_UNIT, g.half)] s t) ∧
  (∀ (s : State) (g : Group) (l : Lane) (rx tx : Bool), (s.group g).sliceRun = some l → (rx && tx) = false → 1 ≤ (s.group g).mismatch → Does (.sliceRotationComplete g rx tx) s fun t =>
      (t.group g).sliceRun = none ∧ t.get .EQ_SLICE_ABANDON l = 1 ∧ t.get .SP_SLICE_SPARE (Group.spIdx g) = 0
        ∧ t.get .EQ_SWAP_CNT l = s.get .EQ_SWAP_CNT l) ∧
  (∀ (s : State) (l : Lane), s.get .SP_SLICE_SPARE (Group.spIdx l.group) = 0 → Cause.slice ∉ (s.lane l).fences → s.idleLane l = none → Does (.sliceFail l) s fun t => Cause.slice ∈ (t.lane l).fences ∧ t.get .ACQ_STATE l = 0) ∧
  (∀ (s : State) (l m : Lane), s.get .SP_SLICE_SPARE (Group.spIdx l.group) = 0 → Cause.slice ∉ (s.lane l).fences → s.idleLane l = some m → (s.group l.group).sliceRun = none → s.testLends l.half 0 (Group.spIdx l.group) = false → Does (.sliceFail l) s fun t =>
      Cause.slice ∈ (t.lane m).fences ∧ t.get .REL_SPARE_USED l.half = 1
        ∧ (t.group l.group).xbar = ((s.group l.group).xbar.set (Lane.index l) ((s.group l.group).xbar.get (Lane.index m))).set (Lane.index m) ((s.group l.group).xbar.get (Lane.index l))) ∧
  (∀ (s : State) (l : Lane), s.get .SP_SLICE_SPARE (Group.spIdx l.group) ≠ 0 → Cause.slice ∉ (s.lane l).fences → Does (.sliceFail l) s fun t =>
      t.get .SP_SLICE_SPARE (Group.spIdx l.group) = 0 ∧ t.get .REL_SPARE_USED l.half = 1 ∧ Cause.slice ∉ (t.lane l).fences) ∧
  (∀ (s : State) (l : Lane) (v : W32), s.running l.half = true → s.answers l.half = true → v.getLsbD 0 = true → s.inData l = true → Does (.captureWrite l v) s fun t => (t.lane l).capture = true ∧ Frame [] s t) ∧
  (∀ (s : State) (l : Lane) (v : W32), s.running l.half = true → s.answers l.half = true → v.getLsbD 0 = true → s.inData l = false → Does (.captureWrite l v) s fun t =>
      (∀ k, k < 48 → t.get .EQ_FFE_APPLIED (l * 48 + k) = s.app .EQ_FFE_SHADOW (l * 48 + k) % 2 ^ 14) ∧ t.ap = s.ap) ∧
  (∀ (s : State) (l : Lane), (s.lane l).capture = true → Does (.eqBankCapture l) s fun t =>
      (∀ k, k < 48 → t.get .EQ_FFE_APPLIED (l * 48 + k) = t.app .EQ_FFE_SHADOW (l * 48 + k) % 2 ^ 14)
        ∧ (∀ j, j < 12 → t.get .EQ_VOLT_APPLIED (l * 12 + j) = t.app .EQ_VOLT_SHADOW (l * 12 + j) % 2 ^ 12)
        ∧ t.get .EQ_D1_APPLIED l = t.app .EQ_D1_SHADOW l % 2 ^ 10 ∧ (t.lane l).capture = false ∧ (t.lane l).swap = (if s.lmode l = 3 then (s.lane l).swap else none)
        ∧ (s.lmode l ≠ 3 → (s.lane l).swap = none → t.ap = s.ap)) ∧
  (∀ (s : State) (l : Lane), (s.lane l).capture = false → exec (.eqBankCapture l) s = .next (settle s))

/-- R153 and R155 over the words of the code of R133 (erasures: the flagged symbols of smallest Λ, ties by index), and R156 to R171. Completes: codewordReceive, cwLockLoss, fecClearWrite, fecCounterClear, latencyMeasured. -/
def Obligations.Codewords : Prop :=
  (∀ (fs : FecSet) (e : Bool) (w : List (Nat × Rat)), (decodeWord fs e w).1 = .delivered → (rsSyndromes (decodeWord fs e w).2).all (· == 0) = true ∧ symDiff (w.map (·.1)) (decodeWord fs e w).2 ≤ 15 ∧ (decodeWord fs e w).2.length = w.length) ∧
  (∀ (fs : FecSet) (e : Bool) (w : List (Nat × Rat)), (decodeWord fs e w).1 = .erased → e = true ∧ (rsSyndromes (decodeWord fs e w).2).all (· == 0) = true ∧ symDiff (w.map (·.1)) (decodeWord fs e w).2 ≤ 28) ∧
  (∀ (fs : FecSet) (e : Bool) (w : List (Nat × Rat)), (decodeWord fs e w).1 = .uncorrectable → (decodeWord fs e w).2 = w.map (·.1) ∧ (rsSyndromes (w.map (·.1))).any (· != 0) = true) ∧
  (∀ (fs : FecSet) (e : Bool) (w : List (Nat × Rat)), (rsSyndromes (w.map (·.1))).all (· == 0) = true → decodeWord fs e w = (.delivered, w.map (·.1))) ∧
  (∀ (s : State) (l : Lane) (side : Fin 2) (fs : FecSet), s.app .FEC_FEC_MODE l = 0 ∨ fs.eraseEn = false ∨ side = 1 ∨ s.lmode l ≤ 1 → s.eraseOn l side fs = false) ∧
  (∀ (s : State) (l p : Lane) (codes : List Nat) (phase : Fin 64), s.portOf l = some p → s.get .ACQ_RX_DATA l = 1 → s.lmode l ≤ 1 → s.portLanes p = [l] → (s.port p).lineBits = [] → s.fiOn l 3 0 = none → s.fiOn l 4 0 = none → Does (.codewordReceive l (.line codes phase)) s fun t =>
      t.get .FECS_CW (l * 2 + 0) = (s.get .FECS_CW (l * 2 + 0) + 1) % 2 ^ 64 ∧ (t.lane l).fecLine = some (s.fecNow l) ∧ (t.port p).lineBits = []
        ∧ Frame ((List.range 17).map (fun b => (Fld.FEC_HIST, l.val * 17 + b)) ++ [(.FECS_CW, l.val * 2 + 0), (.FECS_CORR_CW, l.val * 2 + 0), (.FECS_UNCORR_CW, l.val * 2 + 0), (.FECS_SYM_ERR, l.val * 2 + 0), (.FECS_BIT_ERR, l.val * 2 + 0), (.FECS_ERASE_CW, l.val * 2 + 0), (.FEC_PRE_DEC_ERR, l), (.FEC_PARITY_FAIL, l), (.FEC_UNCORR_LINE, l)]) s t) ∧
  (∀ (s : State) (l p : Lane) (codes : List Nat) (phase : Fin 64), s.portOf l = some p → (s.portLanes p).all (fun x => s.isSet .ACQ_RX_DATA x) = true → s.lmode l ≤ 1 → 2 ≤ (s.portLanes p).length → (s.port p).lineBits = [] → Does (.codewordReceive l (.line codes phase)) s fun t =>
      (t.port p).lineBits = [(posInPort p l, (s.pmaHalf l codes phase).2)] ∧ Frame [(.FEC_PRE_DEC_ERR, l)] s t) ∧
  (∀ (s : State) (l p : Lane) (codes : List Nat) (phase : Fin 64), s.portOf l = some p → s.get .ACQ_RX_DATA l = 1 → s.lmode l = 2 → s.fiOn l 3 0 = none → s.fiOn l 4 0 = none → Does (.codewordReceive l (.line codes phase)) s fun t =>
      t.get .FECS_CW (l * 2 + 0) = (s.get .FECS_CW (l * 2 + 0) + 2) % 2 ^ 64 ∧ (t.lane l).fecLine = some (s.fecNow l)
        ∧ Frame ((List.range 17).map (fun b => (Fld.FEC_HIST, l.val * 17 + b)) ++ [(.FECS_CW, l.val * 2 + 0), (.FECS_CORR_CW, l.val * 2 + 0), (.FECS_UNCORR_CW, l.val * 2 + 0), (.FECS_SYM_ERR, l.val * 2 + 0), (.FECS_BIT_ERR, l.val * 2 + 0), (.FECS_ERASE_CW, l.val * 2 + 0), (.FEC_PRE_DEC_ERR, l), (.FEC_PARITY_FAIL, l), (.FEC_UNCORR_LINE, l)]) s t) ∧
  (∀ (s : State) (l p : Lane) (syms : List DmtSymbol), s.portOf l = some p → s.get .ACQ_RX_DATA l = 1 → s.lmode l = 3 → s.fiOn l 3 0 = none → s.fiOn l 4 0 = none → Does (.codewordReceive l (.dmt syms)) s fun t =>
      t.get .FECS_CW (l * 2 + 0) = (s.get .FECS_CW (l * 2 + 0) + 2) % 2 ^ 64 ∧ (t.lane l).fecLine = some (s.fecNow l) ∧ (t.lane l).rxPair = (s.lane l).rxPair + 1
        ∧ Frame ((List.range 17).map (fun b => (Fld.FEC_HIST, l.val * 17 + b)) ++ [(.FECS_CW, l.val * 2 + 0), (.FECS_CORR_CW, l.val * 2 + 0), (.FECS_UNCORR_CW, l.val * 2 + 0), (.FECS_SYM_ERR, l.val * 2 + 0), (.FECS_BIT_ERR, l.val * 2 + 0), (.FECS_ERASE_CW, l.val * 2 + 0), (.FEC_PRE_DEC_ERR, l), (.FEC_PARITY_FAIL, l), (.FEC_UNCORR_LINE, l)]) s t) ∧
  (∀ (s : State) (l p : Lane) (codes : List Nat) (phase : Fin 64), s.portOf l = some p → s.get .ACQ_RX_DATA l ≠ 1 → s.lmode l ≠ 3 → l ∈ s.portLanes p → Does (.codewordReceive l (.line codes phase)) s fun t => (t.port p).collect = [] ∧ (t.port p).lineBits = [] ∧ Frame [] s t) ∧
  (∀ (s : State) (l m : Lane) (ws : List (List Bool)), s.portOf l = some l → ws.length = (s.portHlanes l).length → s.hostUp l = true → m ∈ s.portLanes l → Does (.codewordReceive l (.host ws)) s fun t =>
      (t.port l).txRound = (s.port l).txRound + 1 ∧ (t.lane m).fecHost = some (s.fecNow m)
        ∧ t.get .FECS_CW (m * 2 + 1) = (s.get .FECS_CW (m * 2 + 1) + streamsOf (s.lmode m)) % 2 ^ 64) ∧
  (∀ (s : State) (l : Lane) (ws : List (List Bool)), s.portOf l = some l → ws.length = (s.portHlanes l).length → s.hostUp l = false → (s.portLanes l).any (fun m => s.sendsData m) = false → Does (.codewordReceive l (.host ws)) s fun t =>
      (t.port l).txRound = (s.port l).txRound + 1 ∧ (∀ m ∈ s.portLanes l, (t.lane m).fecHost = none) ∧ Frame [] s t) ∧
  (∀ (s : State) (l : Lane) (ws : List (List Bool)), s.portOf l ≠ some l ∨ ws.length ≠ (s.portHlanes l).length → exec (.codewordReceive l (.host ws)) s = .next (settle s)) ∧
  (∀ (s : State) (l : Lane), s.get .FEC_CW_LOCK l = 1 → s.lmode l ≤ 1 ∨ 64 ≤ (s.lane l).uncorr → s.inData l = true → Does (.cwLockLoss l) s fun t =>
      t.get .FEC_CW_LOCK l = 0 ∧ t.get .FEC_CW_LOCK_CHG l = 1 ∧ t.get .ACQ_STATE l = (if s.startsBlind l then 5 else 1) ∧ t.get .ACQ_LEAVE_DATA l = 1 ∧ Frame [] s t) ∧
  (∀ (s : State) (l : Lane), s.get .FEC_CW_LOCK l = 1 → s.lmode l ≤ 1 → s.inData l = false → Does (.cwLockLoss l) s fun t =>
      t.get .FEC_CW_LOCK l = 0 ∧ t.get .FEC_CW_LOCK_CHG l = 1 ∧ t.get .ACQ_STATE l = s.get .ACQ_STATE l ∧ Frame [] s t) ∧
  (∀ (s : State) (l : Lane), 2 ≤ s.lmode l → (s.lane l).uncorr < 64 → exec (.cwLockLoss l) s = .next (settle s)) ∧
  (∀ (s : State) (l : Lane) (v : W32), s.running l.half = true → s.answers l.half = true → v.getLsbD 0 = true → Does (.fecClearWrite l v) s fun t => (t.lane l).clear = true ∧ Frame [] s t) ∧
  (∀ (s : State) (l : Lane), (s.lane l).clear = true → Does (.fecCounterClear l) s fun t =>
      (∀ d, d < 2 → t.get .FECS_CW (l.val * 2 + d) = 0 ∧ t.get .FECS_CORR_CW (l.val * 2 + d) = 0 ∧ t.get .FECS_UNCORR_CW (l.val * 2 + d) = 0
        ∧ t.get .FECS_SYM_ERR (l.val * 2 + d) = 0 ∧ t.get .FECS_BIT_ERR (l.val * 2 + d) = 0 ∧ t.get .FECS_ERASE_CW (l.val * 2 + d) = 0)
        ∧ (∀ b, b < 17 → t.get .FEC_HIST (l.val * 17 + b) = 0) ∧ t.get .FEC_PRE_DEC_ERR l = 0 ∧ t.get .FEC_PARITY_FAIL l = 0
        ∧ (t.lane l).clear = false) ∧
  (∀ (s : State) (l : Lane) (tx rx : BitVec 16), s.inData l = true → s.get .FEC_LAT_VALID l ≠ 1 → s.latencyOk l false tx.toNat = true → s.latencyOk l true rx.toNat = true → s.fiAny l 6 = none → Does (.latencyMeasured l tx rx) s fun t =>
      t.get .FEC_TX_LAT l = tx.toNat ∧ t.get .FEC_RX_LAT l = rx.toNat ∧ t.get .FEC_LAT_VALID l = 1 ∧ Frame [(.FEC_TX_LAT, l), (.FEC_RX_LAT, l)] s t)

/-- R450, R464 and R467; bits 15:0 of a doorbell are the index. R443, R444, R449, R465 and the ring registers of R473. Ring 0 to 3 are command rings, 4 completions, 5 events, 6 telemetry, 7 time-stamps. Completes: commandDoorbell, completionDoorbell, eventDoorbell, telemetryDoorbell, timestampDoorbell, ringReset, ringEnable, busMasterDisable, busMasterEnable, msixModerationTimer. -/
def Obligations.DoorbellsAndRings : Prop :=
  (∀ (s : State) (h : Half) (q : Fin 4) (v : W32), s.answers h = true → v.toNat % 65536 < s.depth h (cmdRing q) → s.manages h = true → Does (.commandDoorbell h q v) s fun t =>
      (t.ring h (cmdRing q)).host = v.toNat % 65536 ∧ (t.ring h (cmdRing q)).staged = (s.ring h (cmdRing q)).staged ∧ Frame [] s t) ∧
  (∀ (s : State) (h : Half) (v : W32), s.answers h = true → v.toNat % 65536 < s.depth h (4) → Does (.completionDoorbell h v) s fun t =>
      (t.ring h (4)).host = v.toNat % 65536 ∧ (t.ring h (4)).staged = (s.ring h (4)).staged ∧ Frame [] s t) ∧
  (∀ (s : State) (h : Half) (v : W32), s.answers h = true → v.toNat % 65536 < s.depth h (5) → Does (.eventDoorbell h v) s fun t =>
      (t.ring h (5)).host = v.toNat % 65536 ∧ (t.ring h (5)).staged = (s.ring h (5)).staged ∧ ((s.half h).evtDrop = 0 → Frame [] s t)) ∧
  (∀ (s : State) (h : Half) (v : W32), s.answers h = true → v.toNat % 65536 < s.depth h (6) → Does (.telemetryDoorbell h v) s fun t =>
      (t.ring h (6)).host = v.toNat % 65536 ∧ (t.ring h (6)).staged = (s.ring h (6)).staged ∧ Frame [] s t) ∧
  (∀ (s : State) (h : Half) (v : W32), s.answers h = true → v.toNat % 65536 < s.depth h (7) → Does (.timestampDoorbell h v) s fun t =>
      (t.ring h (7)).host = v.toNat % 65536 ∧ (t.ring h (7)).staged = (s.ring h (7)).staged ∧ Frame [] s t) ∧
  (∀ (s : State) (h : Half) (q : Fin 4) (v : W32), s.answers h = true → s.manages h = true → s.depth h (cmdRing q) ≤ v.toNat % 65536 → s.get .RING_HALTED (ringIdx h (cmdRing q)) ≠ 1 → Does (.commandDoorbell h q v) s fun t =>
      t.get .RING_HALTED (ringIdx h (cmdRing q)) = 1 ∧ t.get .RING_ERR (ringIdx h (cmdRing q)) = 1 ∧ t.get .RING_ACTIVE (ringIdx h (cmdRing q)) = 0
        ∧ t.get .HIF_RING_HALT h = 1 ∧ (t.ring h (cmdRing q)).host = (s.ring h (cmdRing q)).host) ∧
  (∀ (s : State) (h : Half) (q : Fin 4) (v : W32), s.manages h = false → Does (.commandDoorbell h q v) s fun t => (t.ring h (cmdRing q)).host = (s.ring h (cmdRing q)).host ∧ Frame [] s t) ∧
  (∀ (s : State) (h : Half) (q : Fin 8) (v : W32), s.running h = true → s.answers h = true → v.toNat.testBit 30 = true → Does (.ringReset h q v) s fun t =>
      t.get .RING_INDEX (ringIdx h q) = 0 ∧ t.get .RING_HALTED (ringIdx h q) = 0 ∧ t.get .RING_ERR (ringIdx h q) = 0 ∧ t.get .RING_EN (ringIdx h q) = 0
        ∧ t.get .RING_ACTIVE (ringIdx h q) = 0 ∧ (t.ring h q).host = 0 ∧ (t.ring h q).phase = true ∧ (t.ring h q).staged = [] ∧ (t.ring h q).reads = []) ∧
  (∀ (s : State) (h : Half) (q : Fin 8) (v : W32), s.running h = true → s.answers h = true → s.manages h = true → v.toNat.testBit 30 = false → v.toNat.testBit 31 = true → 4 ≤ v.toNat % 16 → v.toNat % 16 ≤ 12 → Does (.ringEnable h q v) s fun t =>
      t.get .RING_EN (ringIdx h q) = 1 ∧ t.get .RING_SIZE_LOG2 (ringIdx h q) = (if s.get .RING_EN (ringIdx h q) = 1 then s.get .RING_SIZE_LOG2 (ringIdx h q) else v.toNat % 16) ∧ t.get .RING_VEC (ringIdx h q) = v.toNat / 65536 % 32
        ∧ t.get .RING_ACTIVE (ringIdx h q) = (if s.get .HIF_RUN h = 1 ∧ s.get .RING_HALTED (ringIdx h q) ≠ 1 then 1 else 0) ∧ (t.half h).rings = (s.half h).rings) ∧
  (∀ (s : State) (h : Half) (q : Fin 8) (v : W32), s.running h = true → s.answers h = true → s.manages h = true → v.toNat.testBit 30 = false → v.toNat.testBit 31 = true → v.toNat % 16 < 4 ∨ 12 < v.toNat % 16 → s.get .RING_HALTED (ringIdx h q) ≠ 1 → Does (.ringEnable h q v) s fun t => t.get .RING_HALTED (ringIdx h q) = 1 ∧ t.get .RING_ERR (ringIdx h q) = 4 ∧ t.get .RING_ACTIVE (ringIdx h q) = 0) ∧
  (∀ (s : State) (h : Half) (q : Fin 8) (v : W32), s.running h = true → s.answers h = true → s.manages h = true → v.toNat.testBit 30 = false → v.toNat.testBit 31 = false → 4 ≤ v.toNat % 16 → v.toNat % 16 ≤ 12 → Does (.ringEnable h q v) s fun t =>
      t.get .RING_EN (ringIdx h q) = 0 ∧ t.get .RING_ACTIVE (ringIdx h q) = 0 ∧ t.get .RING_INDEX (ringIdx h q) = s.get .RING_INDEX (ringIdx h q) ∧ (t.half h).rings = (s.half h).rings) ∧
  (∀ (s : State) (h : Half), Does (.busMasterDisable h) s fun t => (t.half h).bme = false ∧ (t.half h).msixPend = (s.half h).msixPend ∧ Frame [] s t) ∧
  (∀ (s : State) (h : Half), s.answers h = true → Does (.busMasterEnable h) s fun t =>
      (t.half h).bme = true ∧ (t.half h).msixPend = (s.half h).msixPend.filter (s.half h).masked
        ∧ t.out = ((s.half h).msixPend.filter fun v => !(s.half h).masked v).reverse.map (Out.msix h) ++ s.out ∧ Frame [] s t) ∧
  (∀ (s : State) (h : Half) (q : Fin 8), 4 ≤ q.val → (s.ring h q).unsig ≠ 0 → s.get .RING_TIME (ringIdx h q) ≠ 0 → (s.ring h q).unsigAt + 250 * s.get .RING_TIME (ringIdx h q) ≤ s.ticks h → Does (.msixModerationTimer h q) s fun t =>
      let vec := s.get .RING_VEC (ringIdx h q)
      (t.ring h q).unsig = 0 ∧ Frame [] s t
        ∧ (s.masters h = true → (s.half h).masked vec = false → t.out.head? = some (.msix h vec))
        ∧ (s.masters h = false ∨ (s.half h).masked vec = true → vec ∈ (t.half h).msixPend)) ∧
  (∀ (s : State) (h : Half) (q : Fin 8), (s.ring h q).unsig = 0 ∨ s.ticks h < (s.ring h q).unsigAt + 250 * s.get .RING_TIME (ringIdx h q) → exec (.msixModerationTimer h q) s = .next (settle s))

/-- R194 to R198: the online bit-swap; the copies of the tables are exchanged by their ACT bits. Completes: swapReqReceive, bitswapTxSwitch, bitswapRxDecide, swapRespReceive, pilotFlagUnexpected, bitswapRetry, swapSuspendEnd. -/
def Obligations.BitSwaps : Prop :=
  (∀ (s : State) (l : Lane) (fr : AcqFrame) (ago : Nat), Accepts s l fr → s.inData l = true → s.lmode l = 3 → fr.type = 6 → (s.lane l).txSwap.isSome = true → Does (.swapReqReceive l fr ago) s fun t =>
      (t.lane l).txSwap = (s.lane l).txSwap ∧ t.get .ACQ_FRAME_OK l = (s.get .ACQ_FRAME_OK l + 1) % 2 ^ Fld.width .ACQ_FRAME_OK
        ∧ Sent s t l (fun g => g.type = 7 ∧ g.arg = 3 ∧ g.seq = BitVec.ofNat 8 (s.lane l).seq) ∧ Frame [(.ACQ_FRAME_OK, l)] s t) ∧
  (∀ (s : State) (l : Lane) (fr : AcqFrame) (ago : Nat), Accepts s l fr → s.inData l = true → s.lmode l = 3 → fr.type = 6 → (s.lane l).txSwap = none → s.get .DMT_TX_ACT l < 2 → Does (.swapReqReceive l fr ago) s fun t =>
      let es := swapEntries fr.payload
      let act := s.get .DMT_TX_ACT l
      let bits := fun k => ((es.find? fun e => e.1 == k).map (·.2.1)).getD (txBits (s.dmtWord l act k))
      let gain := fun k => ((es.find? fun e => e.1 == k).map (·.2.2)).getD (txGain (s.dmtWord l act k))
      let arg := if loadingValid bits gain = false then 1 else if s.swapInTime l (payloadNum fr.payload 0 4) ago = false then 2 else 0
      Sent s t l (fun g => g.type = 7 ∧ g.arg = BitVec.ofNat 4 arg ∧ g.seq = BitVec.ofNat 8 (s.lane l).seq)
        ∧ (arg = 0 → (t.lane l).txSwap = some (payloadNum fr.payload 0 4, es.map fun e => (e.1, e.2.1)) ∧ t.get .DMT_PEND_TX l = 1
          ∧ ∀ k, k < 1024 → txBits (t.dmtWord l (1 - act) k) = bits k % 16 ∧ txGain (t.dmtWord l (1 - act) k) = gain k % 4096)
        ∧ (arg ≠ 0 → (t.lane l).txSwap = none ∧ t.dmt = s.dmt) ∧ FieldsKept [(.ACQ_FRAME_OK, l)] s t) ∧
  (∀ (s : State) (l : Lane) (w : Nat × List (Nat × Nat)), (s.lane l).txSwap = some w → idxAhead w.1 (s.txIdx l) ≤ 0 → Does (.bitswapTxSwitch l) s fun t =>
      t.get .DMT_TX_ACT l = (1 - s.get .DMT_TX_ACT l) ∧ (t.lane l).txSwap = none ∧ t.get .DMT_SWAP_TX l = 1 ∧ t.get .DMT_PEND_TX l = 0
        ∧ t.get .DMT_LAST_TX l = w.1 % 2 ^ 32 ∧ t.get .DMT_SWAP_CNT l = (s.get .DMT_SWAP_CNT l + 1) % 2 ^ Fld.width .DMT_SWAP_CNT
        ∧ Frame [(.DMT_TX_ACT, l), (.DMT_SWAP_TX, l), (.DMT_LAST_TX, l), (.DMT_SWAP_CNT, l)] s t) ∧
  (∀ (s : State) (l : Lane) (w : Nat × List (Nat × Nat)), (s.lane l).txSwap = some w → 0 < idxAhead w.1 (s.txIdx l) → exec (.bitswapTxSwitch l) s = .next (settle s)) ∧
  (∀ (s : State) (l : Lane) (syms : List DmtSymbol) (w : RxSwap), (s.lane l).rxSwap = some w → w.sent = true → idxAhead w.s (s.symIdx l) ≤ 0 → (s.lane l).trigHeld = false → (s.lane l).swapFails < 2 → Does (.bitswapRxDecide l syms) s fun t =>
      let n := s.invertedPilots l (w.s + 2 ^ 32 - 1) (syms.take 8)
      (t.lane l).rxSwap = none ∧ t.get .DMT_PEND_RX l = 0
        ∧ (5 ≤ n ∨ (n = 4 ∧ w.acked = true) →
          t.get .DMT_RX_ACT l = (1 - s.get .DMT_RX_ACT l) ∧ (t.lane l).swapFails = 0 ∧ t.get .DMT_SWAP_RX l = 1
            ∧ t.get .DMT_LAST_RX l = w.s % 2 ^ 32 ∧ t.get .DMT_SWAP_CNT l = (s.get .DMT_SWAP_CNT l + 1) % 2 ^ Fld.width .DMT_SWAP_CNT)
        ∧ (n < 4 ∨ (n = 4 ∧ w.acked = false) →
          t.get .DMT_RX_ACT l = s.get .DMT_RX_ACT l ∧ (t.lane l).swapFails = (s.lane l).swapFails + 1 ∧ (t.lane l).swapRetry = true
            ∧ t.get .DMT_SWAP_FAIL l = 1 ∧ t.dmt = s.dmt)
        ∧ FieldsKept [(.DMT_RX_ACT, l), (.DMT_SWAP_RX, l), (.DMT_LAST_RX, l), (.DMT_SWAP_CNT, l), (.DMT_SWAP_FAIL, l), (.DMT_SWAP_FAIL_CNT, l), (.DMT_LOADED, l), (.DMT_MIN_MARGIN, l), (.DMT_MIN_TONE, l), (.DMT_MEAN_MARGIN, l), (.EQ_SNR, l)] s t) ∧
  (∀ (s : State) (l : Lane) (syms : List DmtSymbol), (s.lane l).rxSwap = none → exec (.bitswapRxDecide l syms) s = .next (settle s)) ∧
  (∀ (s : State) (l : Lane) (fr : AcqFrame) (w : RxSwap), Accepts s l fr → s.inData l = true → fr.type = 7 → (s.lane l).rxSwap = some w → w.sent = true → payloadNum fr.payload 0 4 = w.s → fr.arg = 0 → Does (.swapRespReceive l fr) s fun t =>
      (t.lane l).rxSwap = some { w with acked := true } ∧ Frame [(.ACQ_FRAME_OK, l)] s t) ∧
  (∀ (s : State) (l : Lane) (fr : AcqFrame) (w : RxSwap), Accepts s l fr → s.inData l = true → fr.type = 7 → (s.lane l).rxSwap = some w → w.sent = true → payloadNum fr.payload 0 4 = w.s → fr.arg ≠ 0 → (s.lane l).swapFails = 2 → Does (.swapRespReceive l fr) s fun t =>
      (t.lane l).rxSwap = none ∧ (t.lane l).suspended = true ∧ (t.lane l).swapFails = 0 ∧ (t.lane l).swapRetry = true ∧ t.get .DMT_SWAP_FAIL l = 1
        ∧ t.get .DMT_RX_ACT l = s.get .DMT_RX_ACT l ∧ Frame [(.ACQ_FRAME_OK, l), (.DMT_SWAP_FAIL, l), (.DMT_SWAP_FAIL_CNT, l)] s t) ∧
  (∀ (s : State) (l : Lane) (syms : List DmtSymbol), s.lmode l = 3 → s.inData l = true → (s.lane l).rxSwap = none → Answers (.pilotFlagUnexpected l syms) s fun t =>
      t.get .DMT_FLAG_UNEXP l = (if 5 ≤ s.invertedPilots l (s.symIdx l + 2 ^ 32 - 1) syms then 1 else s.get .DMT_FLAG_UNEXP l)
        ∧ Frame [(.DMT_FLAG_UNEXP, l)] s t) ∧
  (∀ (s : State) (l : Lane), (s.lane l).swapRetry = true → (s.lane l).clk.failAt + msTicks 1 ≤ s.ticks l.half → s.inData l = true → (s.lane l).rxSwap = none → Does (.bitswapRetry l) s fun t =>
      (t.lane l).rxSwap = some ⟨0, [], false, false, false, none⟩ ∧ t.get .DMT_PEND_RX l = 1 ∧ (t.lane l).swapRetry = false ∧ Frame [] s t) ∧
  (∀ (s : State) (l : Lane), (s.lane l).suspended = true → (s.lane l).clk.suspAt + msTicks 1000 ≤ s.ticks l.half → (s.lane l).trigHeld = false → Does (.swapSuspendEnd l) s fun t => (t.lane l).suspended = false ∧ (t.lane l).rxSwap = (s.lane l).rxSwap ∧ Frame [] s t) ∧
  (∀ (s : State) (l : Lane), (s.lane l).suspended = true → (s.lane l).clk.suspAt + msTicks 1000 ≤ s.ticks l.half → (s.lane l).trigHeld = true → (s.lane l).rxSwap = none → s.inData l = true → s.get .EQ_HOLD l ≠ 1 → Does (.swapSuspendEnd l) s fun t =>
      (t.lane l).suspended = false ∧ (t.lane l).trigHeld = false ∧ (t.lane l).rxSwap = some ⟨0, [], false, false, false, none⟩
        ∧ t.get .DMT_TRIGGER l = 1 ∧ t.get .DMT_PEND_RX l = 1 ∧ Frame [(.DMT_TRIGGER, l)] s t) ∧
  (∀ (s : State) (l : Lane), (s.lane l).suspended = false ∨ s.ticks l.half < (s.lane l).clk.suspAt + msTicks 1000 → exec (.swapSuspendEnd l) s = .next (settle s))

/-- R183, R187, R192, R209 and R265: what the DMT commands write; table words are those of R210. Completes: feqBlockEnd, snrWindowEnd, loadingComputed, dmtShortenComplete, tableWindowWrite, tableWindowRead. -/
def Obligations.DmtTables : Prop :=
  (∀ (s : State) (l : Lane) (codes : List (List Nat)) (phase : Fin 64) (first : W32), s.lmode l ≠ 3 ∨ s.feqReady l first.toNat codes.length = false → exec (.feqBlockEnd l codes phase first) s = .next (settle s)) ∧
  (∀ (s : State) (l : Lane) (codes : List (List Nat)) (phase : Fin 64) (first : W32), s.lmode l = 3 → s.inData l = true ∨ s.get .ACQ_STATE l = 2 → s.feqReady l first.toNat codes.length = true → s.get .EQ_HOLD l ≠ 1 → s.get .EQ_ADAPT l ≠ 3 → Does (.feqBlockEnd l codes phase first) s fun t =>
      (t.lane l).feq.map (·.1) = (List.range 1024).filter (s.toneActive l) ∧ (t.lane l).feqFrom = (s.lane l).feqFrom
        ∧ (t.lane l).mse = (meanError ((s.blockErrors l first.toNat (blockSymbols codes phase)).flatMap fun xs => xs.map (·.2)) :: (s.lane l).mse).take 8
        ∧ Frame [(.EQ_FREQ, l), (.EQ_PHASE, l)] s t) ∧
  (∀ (s : State) (l : Lane) (codes : List (List Nat)) (phase : Fin 64) (first : W32), s.lmode l = 3 → s.inData l = true → s.feqReady l first.toNat codes.length = true → s.get .EQ_HOLD l = 1 ∨ s.get .EQ_ADAPT l = 3 → Does (.feqBlockEnd l codes phase first) s fun t =>
      (t.lane l).feq = [] ∧ (t.lane l).feqFrom = (first.toNat + codes.length) % 2 ^ 32 ∧ t.dmt = s.dmt
        ∧ Frame [(.EQ_FREQ, l), (.EQ_PHASE, l)] s t) ∧
  (∀ (s : State) (l : Lane) (syms : List DmtSymbol), s.lmode l = 3 → s.get .ACQ_STATE l = 2 → syms.length = 2 ^ s.app .DMT_SNR_LOG2 l → s.received l (s.lane l).snrFrom syms.length = true → s.get .DMT_RX_ACT l < 2 → s.dmt.wf = true → Does (.snrWindowEnd l syms) s fun t =>
      (∀ k, k < 1024 → t.dmtWord l 2 k = if s.toneActive l k then 2 ^ 15 + toneSnr (meanError (ofTone (s.blockErrors l (s.lane l).snrFrom syms) k)) else 0)
        ∧ (t.lane l).snrFrom = ((s.lane l).snrFrom + syms.length) % 2 ^ 32 ∧ (t.lane l).snrDone = true
        ∧ FieldsKept [(.DMT_LOADED, l), (.DMT_MIN_MARGIN, l), (.DMT_MIN_TONE, l), (.DMT_MEAN_MARGIN, l), (.EQ_SNR, l), (.EQ_LOCK, l), (.EQ_TLOCK_CHG, l)] s t) ∧
  (∀ (s : State) (l : Lane) (syms : List DmtSymbol), syms.length ≠ 2 ^ s.app .DMT_SNR_LOG2 l ∨ s.received l (s.lane l).snrFrom syms.length = false → exec (.snrWindowEnd l syms) s = .next (settle s)) ∧
  (∀ (s : State) (l : Lane), s.lmode l = 3 → s.get .ACQ_STATE l = 2 → s.get .ACQ_SUBSTATE l = 2 → (s.lane l).snrDone = true → Does (.loadingComputed l) s fun t =>
      (s.loadingBad l (s.loading l false) = false → t.get .ACQ_SUBSTATE l = 3 ∧ (t.lane l).loadTries = 1
        ∧ (t.lane l).seq = ((s.lane l).seq + 1) % 256 ∧ Sent s t l (fun g => g.type = 4 ∧ g.seq = BitVec.ofNat 8 (t.lane l).seq))
        ∧ (s.loadingBad l (s.loading l false) = true → t.get .ACQ_SUBSTATE l = 2 ∧ (t.lane l).snrDone = false ∧ t.get .DMT_LOAD_FAIL l = 1)
        ∧ FieldsKept [(.DMT_LOAD_FAIL, l), (.DMT_LOADED, l), (.DMT_MIN_MARGIN, l), (.DMT_MIN_TONE, l), (.DMT_MEAN_MARGIN, l), (.EQ_SNR, l)] s t) ∧
  (∀ (s : State) (l : Lane) (w : RxSwap), s.lmode l = 3 → s.inData l = true → (s.lane l).rxSwap = some w → w.sent = false → w.fromHost = false → Does (.loadingComputed l) s fun t =>
      (s.loadingBad l (s.loading l true) = false → ((t.lane l).rxSwap.map fun x => (x.s, x.sent, x.cmd)) = some (s.swapIndex l, true, w.cmd)
          ∧ Sent s t l (fun g => g.type = 6 ∧ g.seq = BitVec.ofNat 8 ((s.lane l).seq + 1)))
        ∧ (s.loadingBad l (s.loading l true) = true → t.get .DMT_LOAD_FAIL l = 1 ∧ t.dmt = s.dmt)
        ∧ FieldsKept [(.DMT_LOAD_FAIL, l), (.DMT_TRIGGER, l)] s t) ∧
  (∀ (s : State) (l : Lane) (taps : List Int) (w : BitVec 12), s.lmode l = 3 → s.get .ACQ_STATE l = 2 → s.get .ACQ_SUBSTATE l = 0 → s.app .ACQ_SHORT_AUTO l = 1 → Does (.dmtShortenComplete l taps w) s fun t =>
      t.get .ACQ_SUBSTATE l = 1 ∧ (t.lane l).window = w.toNat ∧ (∀ j, j < 16 → t.app .DMT_SF_SHADOW (l * 16 + j) = ofSigned 16 (taps.getD j 0))
        ∧ FieldsKept [] s t) ∧
  (∀ (s : State) (l : Lane) (taps : List Int) (w : BitVec 12), s.lmode l = 3 → s.get .ACQ_STATE l = 2 → s.get .ACQ_SUBSTATE l = 0 → s.app .ACQ_SHORT_AUTO l = 0 → Does (.dmtShortenComplete l taps w) s fun t =>
      t.get .ACQ_SUBSTATE l = 1 ∧ (t.lane l).window = w.toNat ∧ (t.lane l).feqFrom = s.symIdx l ∧ Frame [] s t) ∧
  (∀ (s : State) (g : Group) (v : W32), s.running g.half = true → s.answers g.half = true → s.get .DTW_TABLE g < 2 → s.inData (s.windowLane g) = false → Does (.tableWindowWrite g v) s fun t =>
      t.dmt = s.dmt.set (dmtKey (s.windowLane g) (s.get .DTW_TABLE g) (s.get .DTW_TONE g)) v.toNat
        ∧ t.get .DTW_TONE g = (if s.get .DTW_AUTO_INC g = 1 then (s.get .DTW_TONE g + 1) % 1024 else s.get .DTW_TONE g)
        ∧ FieldsKept [(.DTW_TONE, g), (.DMT_LOADED, s.windowLane g), (.DMT_MIN_MARGIN, s.windowLane g), (.DMT_MIN_TONE, s.windowLane g), (.DMT_MEAN_MARGIN, s.windowLane g), (.EQ_SNR, s.windowLane g)] s t) ∧
  (∀ (s : State) (g : Group) (v : W32), s.running g.half = true → s.answers g.half = true → 2 ≤ s.get .DTW_TABLE g → Does (.tableWindowWrite g v) s fun t =>
      t.get .DTW_TONE g = (if s.get .DTW_AUTO_INC g = 1 then (s.get .DTW_TONE g + 1) % 1024 else s.get .DTW_TONE g) ∧ Frame [(.DTW_TONE, g)] s t) ∧
  (∀ (s : State) (g : Group) (v : W32), s.running g.half = true → s.answers g.half = true → s.get .DTW_TABLE g < 2 → s.inData (s.windowLane g) = true → s.get .DMT_RX_ACT (s.windowLane g) = s.get .DTW_TABLE g → s.get .DMT_TX_ACT (s.windowLane g) ≠ s.get .DTW_TABLE g → Does (.tableWindowWrite g v) s fun t =>
      t.dmt = s.dmt.set (dmtKey (s.windowLane g) (s.get .DTW_TABLE g) (s.get .DTW_TONE g))
          ((s.dmtWord (s.windowLane g) (s.get .DTW_TABLE g) (s.get .DTW_TONE g) / 2 ^ 16 * 2 ^ 16 + v.toNat % 2 ^ 16) % 2 ^ 32)
        ∧ t.get .DMT_ACT_WRITE (s.windowLane g) = 1) ∧
  (∀ (s : State) (g : Group), s.running g.half = true → s.answers g.half = true → Does (.tableWindowRead g) s fun t =>
      t.out = .read g.half (0x10000 * (1 + g.val % 3) + 0x104) (s.dmtWord (s.windowLane g) (s.get .DTW_TABLE g) (s.get .DTW_TONE g)) :: s.out
        ∧ t.get .DTW_TONE g = (if s.get .DTW_AUTO_INC g = 1 then (s.get .DTW_TONE g + 1) % 1024 else s.get .DTW_TONE g)
        ∧ Frame [(.DTW_TONE, g)] s t)

/-- R226 to R234: the stages are numbered as R245 numbers them (DETECT 1, TRAIN 2, LOCK 3, CAP 4, ACTIVE 5); R223 and R225 for skew. Completes: hostDetectProbe, hostDetectComplete, hostTrainingFrameReceive, hostTrainComplete, hostTrainTimeout, hostLockComplete, hostLockTimeout, hostCapComplete, hostCapTimeout, hostMarkerLockLoss, hostActiveLoss, hostEnWrite, skewOvr. -/
def Obligations.HostLanesAndSkew : Prop :=
  (∀ (s : State) (x : HLane), s.get .HST_STAGE x = 1 → s.hostRuns x = true → s.app .HST_DET_EN x = 1 → Does (.hostDetectProbe x) s fun t => t.out = .hostProbe x :: s.out ∧ Frame [] s t) ∧
  (∀ (s : State) (x : HLane), s.get .HST_STAGE x = 1 → s.hostRuns x = true → s.get .HST_LOCK_FAIL x ≠ 1 → s.fiHost x 2 = false → (s.app .HST_DET_EN x = 1 → s.stageOver x 1 = true) → Does (.hostDetectComplete x) s fun t =>
      t.get .HST_STAGE x = (if s.app .HST_TRAIN_EN x = 1 then 2 else 3) ∧ t.get .HST_STAGE_CHG x = 1
        ∧ t.get .HST_DET x = (if s.app .HST_DET_EN x = 1 then 1 else 0) ∧ t.get .HST_TX_C0 x = (32 - tapSum (s.txeq x)) % 2 ^ Fld.width .HST_TX_C0
        ∧ Frame [(.HST_TX_C0, x)] s t) ∧
  (∀ (s : State) (x : HLane), s.get .HST_STAGE x = 1 → s.hostRuns x = true → s.app .HST_DET_EN x = 1 → s.stageOver x 1 = false → exec (.hostDetectComplete x) s = .next (settle s)) ∧
  (∀ (s : State) (x : HLane) (fr : HostFrame), s.get .HST_STAGE x = 2 → s.hostRuns x = true → s.hostTx x = .training → Does (.hostTrainingFrameReceive x fr) s fun t =>
      let u := (s.hlane x).tap.set fr.tap ((s.hlane x).tap.getD fr.tap 0 + fr.delta)
      let ok := -32 ≤ (s.hlane x).tap.getD fr.tap 0 + fr.delta ∧ (s.hlane x).tap.getD fr.tap 0 + fr.delta ≤ 31 ∧ tapSum u ≤ 32
      let ready := (s.hlane x).ready || Config.hostReady s.draw.1
      let want := if ready then none else Config.coeffWish s.draw.1
      (t.hlane x).tap = (if ok then u else (s.hlane x).tap) ∧ (t.hlane x).farReady = fr.ready ∧ (t.hlane x).ready = ready
        ∧ t.out = .hostSignal x (s.swingMv x) (t.hlane x).tap
            (if s.appSet .HST_TX_POL x then invertPam4 (Config.trainingFrame x want (!decide ok) ready) else Config.trainingFrame x want (!decide ok) ready) :: .hostFrame x (!decide ok) want ready :: s.out
        ∧ Frame [(.HST_TX_C0, x)] s t) ∧
  (∀ (s : State) (x : HLane) (fr : HostFrame), s.get .HST_STAGE x = 2 → s.hostRuns x = true → s.hostTx x = .idle → Does (.hostTrainingFrameReceive x fr) s fun t =>
      (t.hlane x).farReady = fr.ready ∧ t.out = s.out ∧ Frame [(.HST_TX_C0, x)] s t) ∧
  (∀ (s : State) (x : HLane), s.get .HST_STAGE x = 2 → s.hostRuns x = true → (s.hlane x).ready = true → (s.hlane x).farReady = true → Does (.hostTrainComplete x) s fun t =>
      t.get .HST_STAGE x = 3 ∧ t.get .HST_STAGE_CHG x = 1 ∧ t.get .HST_TRAIN_CNT x = (s.get .HST_TRAIN_CNT x + 1) % 2 ^ Fld.width .HST_TRAIN_CNT ∧ t.get .HST_TRAIN_FALLBACK x = 0
        ∧ (t.hlane x).trainFails = 0 ∧ Frame [(.HST_TRAIN_CNT, x), (.HST_TRAIN_FALLBACK, x)] s t) ∧
  (∀ (s : State) (x : HLane), s.get .HST_STAGE x = 2 → s.hostRuns x = true → (s.hlane x).ready = false ∨ (s.hlane x).farReady = false → exec (.hostTrainComplete x) s = .next (settle s)) ∧
  (∀ (s : State) (x : HLane), s.get .HST_STAGE x = 2 → s.hostRuns x = true → s.stageOver x (100 * s.app .HST_TRAIN_TO x) = true → (s.hlane x).trainFails < 2 → Does (.hostTrainTimeout x) s fun t =>
      t.get .HST_STAGE x = 2 ∧ t.get .HST_TRAIN_TO_EVT x = 1 ∧ (t.hlane x).trainFails = (s.hlane x).trainFails + 1
        ∧ (t.hlane x).tap = s.txeq x ∧ (t.hlane x).ready = false ∧ (t.hlane x).farReady = false ∧ (t.hlane x).since = s.ticks x.group.half
        ∧ Frame [(.HST_TRAIN_TO_EVT, x), (.HST_TX_C0, x)] s t) ∧
  (∀ (s : State) (x : HLane), s.get .HST_STAGE x = 2 → s.hostRuns x = true → s.stageOver x (100 * s.app .HST_TRAIN_TO x) = true → (s.hlane x).trainFails = 2 → Does (.hostTrainTimeout x) s fun t =>
      t.get .HST_STAGE x = 3 ∧ t.get .HST_STAGE_CHG x = 1 ∧ t.get .HST_TRAIN_TO_EVT x = 1 ∧ t.get .HST_TRAIN_FALLBACK x = 1 ∧ (t.hlane x).trainFails = 0
        ∧ Frame [(.HST_TRAIN_TO_EVT, x), (.HST_TX_C0, x), (.HST_TRAIN_FALLBACK, x)] s t) ∧
  (∀ (s : State) (x : HLane) (k : BitVec 10), s.get .HST_STAGE x = 3 → s.hostRuns x = true → 140 ≤ k.toNat → Does (.hostLockComplete ⟨x, k⟩) s fun t =>
      t.get .HST_STAGE x = 4 ∧ t.get .HST_STAGE_CHG x = 1 ∧ t.get .HST_BIT_LOCK x = 1 ∧ t.get .HST_SYM_LOCK x = 1 ∧ t.get .HST_SNR x = k.toNat ∧ (t.hlane x).lockFails = 0
        ∧ t.get .HST_CTLE x ≤ ctleMax (s.hmode x) ∧ Frame [(.HST_SNR, x), (.HST_CTLE, x)] s t) ∧
  (∀ (s : State) (x : HLane) (k : BitVec 10), s.get .HST_STAGE x = 3 → s.hostRuns x = true → k.toNat < 140 → Does (.hostLockComplete ⟨x, k⟩) s fun t =>
      t.get .HST_STAGE x = 3 ∧ t.get .HST_BIT_LOCK x = 1 ∧ t.get .HST_SYM_LOCK x = s.get .HST_SYM_LOCK x ∧ t.get .HST_SNR x = k.toNat
        ∧ Frame [(.HST_SNR, x), (.HST_CTLE, x)] s t) ∧
  (∀ (s : State) (x : HLane), s.get .HST_STAGE x = 3 → s.hostRuns x = true → s.stageOver x 20 = true → (s.hlane x).lockFails < 2 → Does (.hostLockTimeout x) s fun t => t.get .HST_STAGE x = 1 ∧ t.get .HST_STAGE_CHG x = 1 ∧ (t.hlane x).lockFails = (s.hlane x).lockFails + 1 ∧ Frame [] s t) ∧
  (∀ (s : State) (x : HLane), s.get .HST_STAGE x = 3 → s.hostRuns x = true → s.stageOver x 20 = true → (s.hlane x).lockFails = 2 → Does (.hostLockTimeout x) s fun t => t.get .HST_STAGE x = 1 ∧ t.get .HST_STAGE_CHG x = 1 ∧ t.get .HST_LOCK_FAIL x = 1 ∧ (t.hlane x).lockFails = 0 ∧ Frame [(.HST_LOCK_FAIL, x)] s t) ∧
  (∀ (s : State) (x : HLane) (r : Nat) (pcs : List Nat) (k : BitVec 8) (p : Lane), s.get .HST_STAGE x = 4 → s.hostRuns x = true → s.hportOf x = some p → s.markersOk p x r pcs = true → Does (.hostCapComplete x ⟨r, pcs, k⟩) s fun t =>
      t.get .HST_STAGE x = 5 ∧ t.get .HST_STAGE_CHG x = 1 ∧ t.get .HST_AM_LOCK x = 1 ∧ (t.hlane x).pcs = pcs ∧ t.get .PORT_HOST_SKEW p = k.toNat ∧ Frame [(.PORT_HOST_SKEW, p)] s t) ∧
  (∀ (s : State) (x : HLane) (r : Nat) (pcs : List Nat) (k : BitVec 8) (p : Lane), s.get .HST_STAGE x = 4 → s.hostRuns x = true → s.hportOf x = some p → s.markersOk p x r pcs = false → Does (.hostCapComplete x ⟨r, pcs, k⟩) s fun t =>
      t.get .HST_STAGE x = 4 ∧ t.get .HST_CAP_MISMATCH x = 1 ∧ t.get .HST_AM_LOCK x = s.get .HST_AM_LOCK x ∧ Frame [(.HST_CAP_MISMATCH, x)] s t) ∧
  (∀ (s : State) (x : HLane), s.get .HST_STAGE x = 4 → s.hostRuns x = true → s.stageOver x 10 = true → Does (.hostCapTimeout x) s fun t => t.get .HST_STAGE x = 4 ∧ t.get .HST_CAP_MISMATCH x = 1 ∧ (t.hlane x).since = s.ticks x.group.half ∧ Frame [(.HST_CAP_MISMATCH, x)] s t) ∧
  (∀ (s : State) (x : HLane), s.get .HST_STAGE x = 5 → s.hostRuns x = true → Does (.hostMarkerLockLoss x) s fun t => t.get .HST_STAGE x = 4 ∧ t.get .HST_STAGE_CHG x = 1 ∧ t.get .HST_AM_LOCK x = 0 ∧ (t.hlane x).pcs = [] ∧ Frame [] s t) ∧
  (∀ (s : State) (x : HLane) (e : HostLoss), s.get .HST_STAGE x = 5 → s.hostRuns x = true → e = .signal ∨ e = .bitLock → Does (.hostActiveLoss x e) s fun t =>
      t.get .HST_STAGE x = (if s.app .HST_RETRAIN x = 1 then 1 else 3) ∧ t.get .HST_BIT_LOCK x = 0 ∧ t.get .HST_SYM_LOCK x = 0
        ∧ t.get .HST_AM_LOCK x = 0 ∧ (e = .signal → t.get .HST_DET x = 0) ∧ t.get .HST_DROP x = 1
        ∧ t.get .HST_DROP_CNT x = min (s.get .HST_DROP_CNT x + 1) (2 ^ Fld.width .HST_DROP_CNT - 1) ∧ Frame [(.HST_DROP, x), (.HST_DROP_CNT, x)] s t) ∧
  (∀ (s : State) (x : HLane) (e : HostLoss), s.hostRuns x = true → s.get .HST_STAGE x = 3 ∨ s.get .HST_STAGE x = 4 → e = .signal ∨ e = .bitLock → Does (.hostActiveLoss x e) s fun t =>
      t.get .HST_BIT_LOCK x = 0 ∧ t.get .HST_STAGE x = s.get .HST_STAGE x ∧ (e = .signal → t.get .HST_DET x = 0)
        ∧ t.get .HST_DROP_CNT x = s.get .HST_DROP_CNT x ∧ Frame [] s t) ∧
  (∀ (s : State) (x : HLane) (k : Nat), s.hostRuns x = true → 3 ≤ s.get .HST_STAGE x → k < 120 → Does (.hostActiveLoss x (.symbolLock k)) s fun t =>
      t.get .HST_SYM_LOCK x = 0 ∧ t.get .HST_SNR x = k ∧ t.get .HST_STAGE x = s.get .HST_STAGE x ∧ Frame [(.HST_SNR, x)] s t) ∧
  (∀ (s : State) (x : HLane) (v : W32), s.running x.group.half = true → s.answers x.group.half = true → v.getLsbD 0 = true → Does (.hostEnWrite x v) s fun t => t.get .HST_LOCK_FAIL x = 0 ∧ t.get .HST_EN x = 1 ∧ t.ap = s.ap ∧ t.dmt = s.dmt) ∧
  (∀ (s : State) (p : Lane) (k : Nat), s.portLanes p = [p] → s.inData p = true → s.skewOver p true k = true → Does (.skewOvr p true k) s fun t =>
      t.get .PORT_SKEW_OVR_LINE p = 1 ∧ t.get .ACQ_STATE p = (if s.startsBlind p then 5 else 1) ∧ t.get .ACQ_LEAVE_DATA p = 1 ∧ t.get .PORT_LINE_SKEW p = min k 1023
        ∧ Frame [(.PORT_SKEW_OVR_LINE, p)] s t) ∧
  (∀ (s : State) (p : Lane) (k : Nat) (x : HLane), x ∈ s.portHlanes p → s.get .HST_STAGE x = 5 → s.skewOver p false k = true → Does (.skewOvr p false k) s fun t =>
      t.get .PORT_SKEW_OVR_HOST p = 1 ∧ t.get .HST_STAGE x = 4 ∧ t.get .HST_AM_LOCK x = 0 ∧ Frame [(.PORT_SKEW_OVR_HOST, p), (.PORT_HOST_SKEW, p)] s t) ∧
  (∀ (s : State) (p : Lane) (b : Bool) (k : Nat), s.skewOver p b k = false → exec (.skewOvr p b k) s = .next (settle s))

/-- R452 to R456 and R464; a taken descriptor goes on as R476 says for its opcode, here NOP (R479), whose completion is timed with no delay (R459). Completes: descriptorFetch, descriptorDataReceive, descriptorTake. -/
def Obligations.CommandDescriptors : Prop :=
  (∀ (s : State) (h : Half) (q : Fin 4), s.fetchReady h (cmdRing q) = true → (s.ring h (cmdRing q)).reads = [] → Does (.descriptorFetch h q) s fun t =>
      (t.ring h (cmdRing q)).reads = [(s.get .RING_INDEX (ringIdx h (cmdRing q)) % s.depth h (cmdRing q), s.ticks h)] ∧ (t.half h).reserved = (s.half h).reserved + 1
        ∧ t.out = .descRead h q (s.get .RING_INDEX (ringIdx h (cmdRing q)) % s.depth h (cmdRing q)) :: s.out ∧ Frame [] s t) ∧
  (∀ (s : State) (h : Half) (q : Fin 4), s.fetchReady h (cmdRing q) = false → exec (.descriptorFetch h q) s = .next (settle s)) ∧
  (∀ (s : State) (h : Half) (q : Fin 4) (i k : Nat) (rest : List (Nat × Nat)) (ws : List W32), (s.ring h (cmdRing q)).reads = (i, k) :: rest → Does (.descriptorDataReceive h q (.ok ws)) s fun t =>
      (t.ring h (cmdRing q)).reads = rest ∧ (t.ring h (cmdRing q)).staged = (s.ring h (cmdRing q)).staged ++ [(i, s.ticks h, ws)]
        ∧ t.get .RING_INDEX (ringIdx h (cmdRing q)) = (i + 1) % s.depth h (cmdRing q) % 2 ^ 12 ∧ (t.half h).reserved = (s.half h).reserved ∧ t.ap = s.ap) ∧
  (∀ (s : State) (h : Half) (q : Fin 4) (i k : Nat) (rest : List (Nat × Nat)), (s.ring h (cmdRing q)).reads = (i, k) :: rest → s.get .RING_HALTED (ringIdx h (cmdRing q)) ≠ 1 → Does (.descriptorDataReceive h q .failed) s fun t =>
      (t.ring h (cmdRing q)).reads = rest ∧ t.get .RING_HALTED (ringIdx h (cmdRing q)) = 1 ∧ t.get .RING_ERR (ringIdx h (cmdRing q)) = 2
        ∧ (t.half h).reserved = (s.half h).reserved - 1 ∧ (t.ring h (cmdRing q)).staged = (s.ring h (cmdRing q)).staged) ∧
  (∀ (s : State) (h : Half) (q : Fin 4) (i k : Nat) (ws : List W32) (rest : List (Nat × Nat × List W32)), s.mayTake h q = true → (∀ p : Fin 4, p < q → s.mayTake h p = false) → (s.ring h (cmdRing q)).staged = (i, k, ws) :: rest → Does (.descriptorTake h) s fun t =>
      t = (s.modRing h (cmdRing q) fun r => { r with staged := rest }).takeFrom h h (parseOpc ws) (parseReq q i ws)) ∧
  (∀ (s : State) (h : Half) (q : Fin 4) (i k : Nat) (ws : List W32) (rest : List (Nat × Nat × List W32)) (r : Req), s.mayTake h q = true → (∀ p : Fin 4, p < q → s.mayTake h p = false) → (s.ring h (cmdRing q)).staged = (i, k, ws) :: rest → parseOpc ws = some .nop → parseReq q i ws = r → Takes s h .nop r → Does (.descriptorTake h) s fun t =>
      (t.ring h (cmdRing q)).staged = rest ∧ Completed s t h r (timedNow s h 0) ∧ Frame [] s t) ∧
  (∀ (s : State) (h : Half) (q : Fin 4) (i k : Nat) (ws : List W32) (rest : List (Nat × Nat × List W32)) (e : Nat), s.mayTake h q = true → (∀ p : Fin 4, p < q → s.mayTake h p = false) → (s.ring h (cmdRing q)).staged = (i, k, ws) :: rest → s.invalid (parseOpc ws) (parseReq q i ws) = some e → Does (.descriptorTake h) s fun t =>
      (t.ring h (cmdRing q)).staged = rest ∧ Completed s t h (parseReq q i ws) ⟨4, e, 0, 0⟩ ∧ Frame [] s t) ∧
  (∀ (s : State) (h : Half), (∀ q : Fin 4, s.mayTake h q = false) → exec (.descriptorTake h) s = .next (settle s))

/-- R250 to R259: reception of a frame, phase by phase; metrics in 0.1 dB. Completes: preambleDetect, headerReceive, receptionLevelAbort, searchResume, unlistedFrameReceive. -/
def Obligations.Reception : Prop :=
  (∀ (s : State) (l : Lane) (c : Bool) (xs : List Int) (q : Nat), s.get .ACQ_STATE l ≠ 0 → (s.lane l).stopped = false → s.listens l c = true → s.fires l xs = true → (s.lane l).phase = .search → Does (.preambleDetect l ⟨c, xs, q⟩) s fun t =>
      (t.lane l).phase = .header ∧ (t.lane l).rxC3 = c ∧ (t.lane l).mc = corrMetric c xs ∧ (t.lane l).level = preambleLevel c xs q ∧ Frame [] s t) ∧
  (∀ (s : State) (l : Lane) (c : Bool) (xs : List Int) (q : Nat), s.get .ACQ_STATE l ≠ 0 → (s.lane l).stopped = false → s.listens l c = true → s.fires l xs = true → (s.lane l).phase = .header → threeDbAbove (corrMetric c xs) (s.lane l).mc = true → Does (.preambleDetect l ⟨c, xs, q⟩) s fun t =>
      (t.lane l).phase = .header ∧ (t.lane l).mc = corrMetric c xs ∧ (t.lane l).level = preambleLevel c xs q
        ∧ t.get .ACQ_RESTART l = min (s.get .ACQ_RESTART l + 1) (2 ^ Fld.width .ACQ_RESTART - 1) ∧ Frame [(.ACQ_RESTART, l)] s t) ∧
  (∀ (s : State) (l : Lane) (c : Bool) (xs : List Int) (q : Nat), s.fires l xs = false ∨ s.listens l c = false ∨ (s.lane l).stopped = true ∨ (s.lane l).phase = .body → exec (.preambleDetect l ⟨c, xs, q⟩) s = .next (settle s)) ∧
  (∀ (s : State) (l : Lane) (y : W32) (h : BitVec 64), (s.lane l).phase = .header → syncOk y = true → headerOk h = true → s.tooLong l (h.toNat / 2 ^ 56) (h.toNat / 2 ^ 16 % 4096) = false → Does (.headerReceive l y h) s fun t => (t.lane l).phase = .body ∧ (t.lane l).hdr = h.toNat ∧ Frame [] s t) ∧
  (∀ (s : State) (l : Lane) (y : W32) (h : BitVec 64), (s.lane l).phase = .header → syncOk y = false → Does (.headerReceive l y h) s fun t => (t.lane l).phase = .search ∧ t.get .ACQ_FALSE_DET l = min (s.get .ACQ_FALSE_DET l + 1) (2 ^ Fld.width .ACQ_FALSE_DET - 1) ∧ Frame [(.ACQ_FALSE_DET, l)] s t) ∧
  (∀ (s : State) (l : Lane) (y : W32) (h : BitVec 64), (s.lane l).phase = .header → syncOk y = true → headerOk h = false → Does (.headerReceive l y h) s fun t => (t.lane l).phase = .search ∧ t.get .ACQ_HDR_FAIL l = min (s.get .ACQ_HDR_FAIL l + 1) (2 ^ Fld.width .ACQ_HDR_FAIL - 1) ∧ Frame [(.ACQ_HDR_FAIL, l)] s t) ∧
  (∀ (s : State) (l : Lane) (b : List Int), (s.lane l).phase ≠ .search → levelStep (blockLevel (s.lane l).rxC3 b) (s.lane l).level = true → Does (.receptionLevelAbort l b) s fun t =>
      (t.lane l).phase = .search ∧ (t.lane l).stopped = !(s.lane l).rxC3
        ∧ t.get .ACQ_PSTEP_ABORT l = min (s.get .ACQ_PSTEP_ABORT l + 1) (2 ^ Fld.width .ACQ_PSTEP_ABORT - 1)
        ∧ Frame [(.ACQ_PSTEP_ABORT, l)] s t) ∧
  (∀ (s : State) (l : Lane) (b : List Int), levelStep (blockLevel (s.lane l).rxC3 b) (s.lane l).level = false → exec (.receptionLevelAbort l b) s = .next (settle s)) ∧
  (∀ (s : State) (l : Lane), Does (.searchResume l) s fun t => (t.lane l).stopped = false ∧ (t.lane l).phase = (s.lane l).phase ∧ Frame [] s t) ∧
  (∀ (s : State) (l : Lane) (fr : AcqFrame), Accepts s l fr → s.unlisted l fr.type.toNat = true → Does (.unlistedFrameReceive l fr) s fun t => (t.lane l).phase = .search ∧ t.get .ACQ_FRAME_OK l = (s.get .ACQ_FRAME_OK l + 1) % 2 ^ Fld.width .ACQ_FRAME_OK ∧ Frame [(.ACQ_FRAME_OK, l)] s t) ∧
  (∀ (s : State) (l : Lane) (fr : AcqFrame), s.get .ACQ_STATE l ≠ 0 → s.inBody l fr = true → s.unlisted l fr.type.toNat = true → fr.crc.toNat ≠ frameCrc fr → Does (.unlistedFrameReceive l fr) s fun t => (t.lane l).phase = .search ∧ t.get .ACQ_CRC_FAIL l = min (s.get .ACQ_CRC_FAIL l + 1) (2 ^ Fld.width .ACQ_CRC_FAIL - 1) ∧ Frame [(.ACQ_CRC_FAIL, l)] s t) ∧
  (∀ (s : State) (l : Lane) (fr : AcqFrame), (s.lane l).phase ≠ .body → exec (.unlistedFrameReceive l fr) s = .next (settle s))

/-- R254, R259, R260 and R268: the states are numbered as R272 numbers them (LINK 1, TRAIN 2). Completes: capFrameSend, capFrameReceive, enterTrain, linkWaitTimer, statusFrameReceive. -/
def Obligations.Link : Prop :=
  (∀ (s : State) (l : Lane), s.get .ACQ_STATE l = 1 → s.kndOut l.acqKnd = false → Does (.capFrameSend l) s fun t =>
      Sent s t l (fun g => g.type = 1 ∧ g.ver = 1 ∧ g.payload = s.capPayload l ∧ g.crc.toNat = frameCrc g)
        ∧ (t.lane l).caps = (if (s.lane l).seen then (s.lane l).caps + 1 else (s.lane l).caps) ∧ Frame [] s t) ∧
  (∀ (s : State) (l : Lane) (fr : AcqFrame) (p : Lane), Accepts s l fr → fr.type = 1 → s.get .ACQ_STATE l = 1 → payloadNum fr.payload 8 1 ≠ l.val ∨ payloadNum fr.payload 4 4 ≠ s.devTag l.half → payloadNum fr.payload 0 1 = 1 → (payloadNum fr.payload 1 1).testBit (s.lmode l) = true → payloadNum fr.payload 2 1 / 64 = s.lmode l → s.portOf l = some p → payloadNum fr.payload 3 1 / 32 = s.app .PORT_RATE p → payloadNum fr.payload 3 1 / 4 % 8 = posInPort p l → Does (.capFrameReceive l fr) s fun t =>
      t.get .ACQ_PEER_SEEN l = 1 ∧ (t.lane l).partner = (s.lane l).partner.or (some (payloadNum fr.payload 4 4, payloadNum fr.payload 8 1)) ∧ (t.lane l).matched = true ∧ t.get .ACQ_PEER_CAP l = payloadNum fr.payload 0 4 % 2 ^ 32
        ∧ t.get .ACQ_PEER_TAG l = payloadNum fr.payload 4 4 % 2 ^ 32
        ∧ ((payloadNum fr.payload 2 1).testBit 4 = true → (t.lane l).seen = true)
        ∧ Frame [(.ACQ_FRAME_OK, l), (.ACQ_PEER_CAP, l), (.ACQ_PEER_TAG, l), (.ACQ_PEER_LANE, l)] s t) ∧
  (∀ (s : State) (l : Lane) (fr : AcqFrame) (p : Lane), Accepts s l fr → fr.type = 1 → s.get .ACQ_STATE l = 1 → payloadNum fr.payload 8 1 ≠ l.val ∨ payloadNum fr.payload 4 4 ≠ s.devTag l.half → s.portOf l = some p → payloadNum fr.payload 0 1 ≠ 1 ∨ ¬ (payloadNum fr.payload 1 1).testBit (s.lmode l) ∨ payloadNum fr.payload 2 1 / 64 ≠ s.lmode l ∨ payloadNum fr.payload 3 1 / 32 ≠ s.app .PORT_RATE p ∨ payloadNum fr.payload 3 1 / 4 % 8 ≠ posInPort p l → Does (.capFrameReceive l fr) s fun t =>
      t.get .ACQ_CAP_MISMATCH l = 1 ∧ t.get .ACQ_MISMATCH l = (if payloadNum fr.payload 0 1 ≠ 1 then 1 else if ¬ (payloadNum fr.payload 1 1).testBit (s.lmode l) then 2
          else if payloadNum fr.payload 2 1 / 64 ≠ s.lmode l then 3 else if payloadNum fr.payload 3 1 / 32 ≠ s.app .PORT_RATE p then 4 else 5)
        ∧ t.get .ACQ_PEER_SEEN l = s.get .ACQ_PEER_SEEN l
        ∧ Frame [(.ACQ_FRAME_OK, l), (.ACQ_CAP_MISMATCH, l), (.ACQ_MISMATCH, l)] s t) ∧
  (∀ (s : State) (l : Lane), s.get .ACQ_STATE l = 1 → (s.lane l).seen = true → 8 ≤ (s.lane l).caps → s.kndOut l.acqKnd = false → s.get .FE_SIG_DET l = 1 → Does (.enterTrain l) s fun t => t.get .ACQ_STATE l = 2 ∧ t.get .ACQ_RX_READY l = 0 ∧ t.get .EQ_ADAPT l = 1 ∧ Frame [(.DMT_TX_CLIP, l)] s t) ∧
  (∀ (s : State) (l : Lane), s.get .ACQ_STATE l = 1 → (s.lane l).seen = true → 8 ≤ (s.lane l).caps → s.kndOut l.acqKnd = false → s.get .FE_SIG_DET l ≠ 1 → Does (.enterTrain l) s fun t => t.get .ACQ_STATE l = 1 ∧ (t.lane l).caps = 0 ∧ (t.lane l).partner = none ∧ (t.lane l).matched = false ∧ Frame [(.DMT_TX_CLIP, l)] s t) ∧
  (∀ (s : State) (l : Lane), (s.lane l).caps < 8 → exec (.enterTrain l) s = .next (settle s)) ∧
  (∀ (s : State) (l : Lane), s.get .ACQ_STATE l = 1 → (s.lane l).matched = false → (s.lane l).noticed = false → (s.lane l).start + msTicks 1000 ≤ s.ticks l.half → Does (.linkWaitTimer l) s fun t => (t.lane l).noticed = true ∧ t.get .ACQ_STATE l = 1 ∧ Frame [] s t) ∧
  (∀ (s : State) (l : Lane) (fr : AcqFrame) (k : Int), Accepts s l fr → fr.type = 2 → s.get .ACQ_STATE l = 1 → (s.lane l).matched = true → s.inSlot l k = true → s.get .FE_SIG_DET l = 1 → Does (.statusFrameReceive l ⟨fr, k⟩) s fun t =>
      t.get .ACQ_STATE l = 2 ∧ t.get .ACQ_PEER_READY l = (if (payloadNum fr.payload 0 4).testBit 31 then 1 else 0) ∧ (t.lane l).slotSeen = true)

/-- R255, R256 and R261 to R264: training in the PAM modes; the taps that a receiver asks for are a free value (log 18). Completes: trainingBlockStart, presetFrameReceive, statusFrameReceive, rhoSearchComplete. -/
def Obligations.TrainingSlots : Prop :=
  (∀ (s : State) (l : Lane) (n : Nat), s.get .ACQ_STATE l = 2 → s.get .ACQ_TX_DATA l ≠ 1 → s.lmode l ≠ 3 → s.kndOut l.acqKnd = false → Does (.trainingBlockStart l n) s fun t => Sent s t l (fun g => g.type = 2 ∨ g.type = 3) ∧ FieldsKept [(.EQ_TX_CLAMP, l)] s t ∧ t.dmt = s.dmt) ∧
  (∀ (s : State) (l : Lane) (n : Nat), s.get .ACQ_STATE l = 2 → s.get .ACQ_TX_DATA l ≠ 1 → s.lmode l = 3 → s.kndOut l.acqKnd = false → (s.lane l).ohc = [] → Does (.trainingBlockStart l n) s fun t => Sent s t l (fun g => g.type = 2) ∧ (t.lane l).carrierAt = s.ticks l.half ∧ Frame [(.DMT_TX_CLIP, l)] s t) ∧
  (∀ (s : State) (l : Lane) (n : Nat) (p : Nat × List (BitVec 8)), s.get .ACQ_STATE l = 2 → s.get .ACQ_TX_DATA l ≠ 1 → s.kndOut l.acqKnd = true → (s.lane l).lastStatus = some p → Does (.trainingBlockStart l n) s fun t => Sent s t l (fun g => g.type = 2 ∧ g.seq = BitVec.ofNat 8 p.1 ∧ g.payload = p.2) ∧ Frame [(.EQ_TX_CLAMP, l), (.DMT_TX_CLIP, l)] s t) ∧
  (∀ (s : State) (l : Lane) (n : Nat) (c : Nat × Nat), s.get .ACQ_STATE l = 2 → s.get .ACQ_TX_DATA l ≠ 1 → s.lmode l ≠ 3 → s.kndOut l.acqKnd = false → (s.lane l).count = some c → Does (.trainingBlockStart l n) s fun t => (t.lane l).count = some (c.1 - 1, c.2) ∧ Sent s t l (fun g => g.type = 2)) ∧
  (∀ (s : State) (l : Lane) (n : Nat), s.get .ACQ_STATE l = 2 → s.get .ACQ_TX_DATA l ≠ 1 → s.lmode l ≤ 2 → s.kndOut l.acqKnd = false → (s.lane l).count = none → (s.lane l).go = true → Does (.trainingBlockStart l n) s fun t => (t.lane l).count = some (7, if s.lmode l = 2 then gridFill (900 * s.ticks l.half + n % 900) else 0)) ∧
  (∀ (s : State) (l : Lane) (n : Nat) (p : Nat × List Nat), s.get .ACQ_STATE l = 2 → s.get .ACQ_TX_DATA l ≠ 1 → s.lmode l ≠ 3 → s.kndOut l.acqKnd = false → (s.lane l).apply = some p → s.ticks l.half < (s.lane l).applyAt + 50 → Does (.trainingBlockStart l n) s fun t => (t.lane l).apply = some p ∧ t.ap = s.ap) ∧
  (∀ (s : State) (l : Lane) (n : Nat) (p : Nat × List Nat), s.get .ACQ_STATE l = 2 → s.get .ACQ_TX_DATA l ≠ 1 → s.lmode l ≠ 3 → s.kndOut l.acqKnd = false → (s.lane l).apply = some p → (s.lane l).applyAt + 50 ≤ s.ticks l.half → Does (.trainingBlockStart l n) s fun t =>
      (t.lane l).apply = none ∧ (t.lane l).appliedSeq = p.1
        ∧ (t.lane l).refused = !(s.app .ACQ_REMOTE_FIR l == 1 && s.lmode l == 2 && firOk p.2)
        ∧ ((t.lane l).refused = false → ∀ k, k < 7 → t.app .EQ_TXF_SHADOW (l * 7 + k) = p.2.getD k 0 % 2 ^ 12)
        ∧ ((t.lane l).refused = true → t.ap = s.ap)) ∧
  (∀ (s : State) (l : Lane) (n : Nat), s.get .ACQ_STATE l ≠ 2 ∨ s.get .ACQ_TX_DATA l = 1 → exec (.trainingBlockStart l n) s = .next (settle s)) ∧
  (∀ (s : State) (l : Lane) (fr : AcqFrame) (k : Int), Accepts s l fr → fr.type = 3 → s.get .ACQ_STATE l = 2 → s.lmode l ≠ 3 → s.inSlot l k = true → Does (.presetFrameReceive l ⟨fr, k⟩) s fun t =>
      (t.lane l).apply = some (fr.seq.toNat, (List.range 7).map fun k => payloadNum fr.payload (2 * k) 2 % 4096) ∧ (t.lane l).applyAt = s.ticks l.half
        ∧ Frame [(.ACQ_FRAME_OK, l)] s t) ∧
  (∀ (s : State) (l : Lane) (fr : AcqFrame) (k : Int), Accepts s l fr → fr.type = 2 → s.get .ACQ_STATE l = 2 → (payloadNum fr.payload 0 4).testBit 31 = true → s.lmode l ≠ 3 → (s.lane l).preset = none → s.inSlot l k = true → Does (.statusFrameReceive l ⟨fr, k⟩) s fun t =>
      t.get .ACQ_PEER_READY l = 1 ∧ (t.lane l).go = true ∧ t.get .ACQ_STATE l = 2 ∧ Frame [(.ACQ_FRAME_OK, l)] s t) ∧
  (∀ (s : State) (l : Lane) (fr : AcqFrame) (k : Int), Accepts s l fr → fr.type = 2 → s.get .ACQ_STATE l = 2 → (payloadNum fr.payload 0 4).testBit 31 = true → s.lmode l = 3 → (s.lane l).preset = none → (s.lane l).count = none → s.get .ACQ_TX_DATA l ≠ 1 → s.inSlot l k = true → Does (.statusFrameReceive l ⟨fr, k⟩) s fun t =>
      t.get .ACQ_PEER_READY l = 1 ∧ (t.lane l).go = true
        ∧ ((t.lane l).count.any fun c => c.1 == 0 && c.2 % 8 == 0 && decide (symbolsAt (s.ticks l.half) + 2048 < c.2)) = true
        ∧ Sent s t l (fun g => g.type = 2) ∧ Frame [(.ACQ_FRAME_OK, l), (.DMT_TX_CLIP, l)] s t) ∧
  (∀ (s : State) (l : Lane) (fr : AcqFrame) (k : Int), Accepts s l fr → s.inSlot l k = false → Does (.statusFrameReceive l ⟨fr, k⟩) s fun t => t.get .ACQ_PEER_READY l = s.get .ACQ_PEER_READY l ∧ Frame [(.ACQ_FRAME_OK, l)] s t) ∧
  (∀ (s : State) (l : Lane) (fr : AcqFrame) (k : Int) (p : Nat × List Nat), Accepts s l fr → fr.type = 2 → s.get .ACQ_STATE l = 2 → s.lmode l ≠ 3 → s.inSlot l k = true → (s.lane l).preset = some p → p.1 = payloadNum fr.payload 0 4 / 2 ^ 6 % 256 → Does (.statusFrameReceive l ⟨fr, k⟩) s fun t =>
      (t.lane l).preset = none ∧ ((payloadNum fr.payload 0 4).testBit 5 = true → t.get .ACQ_REFUSED_EVT l = 1)) ∧
  (∀ (s : State) (l : Lane) (ms : List Nat), s.get .ACQ_STATE l = 2 → s.lmode l = 2 → s.app .ACQ_RHO_AUTO l = 1 → (s.lane l).rhoDone = false → Does (.rhoSearchComplete l ms) s fun t =>
      t.get .ACQ_RHO_CHOSEN l = 4 * argMax (ms.take 9) % 2 ^ Fld.width .ACQ_RHO_CHOSEN ∧ t.app .FEC_RHO l = 4 * argMax (ms.take 9) % 2 ^ Fld.width .FEC_RHO
        ∧ (t.lane l).rhoDone = true ∧ FieldsKept [(.ACQ_RHO_CHOSEN, l)] s t)

/-- R398, R449, R451 and R458 to R463. Completes: completionWrite, eventRecordWrite, telemetryRecordWrite, timestampRecordWrite, statusBlockWrite. -/
def Obligations.HostRecords : Prop :=
  (∀ (s : State) (h : Half) (c : Cpl) (rest : List Cpl), (s.half h).cpls = c :: rest → s.ringMoves h 4 = true → s.ringSpace h 4 ≠ 0 → (s.half h).resets.all (fun x => x.1 != c.tag) = true → Does (.completionWrite h) s fun t =>
      (t.half h).cpls = rest ∧ (t.half h).reserved = (s.half h).reserved - 1
        ∧ Out.entry h 4 (s.get .RING_INDEX (ringIdx h 4)) (c.words.set 1 (withPhase (s.ring h 4).phase (c.words.getD 1 0))) ∈ t.out
        ∧ t.get .RING_INDEX (ringIdx h 4) = (s.get .RING_INDEX (ringIdx h 4) + 1) % s.depth h 4 % 2 ^ 12
        ∧ (t.ring h 4).phase = (if (s.get .RING_INDEX (ringIdx h 4) + 1) % s.depth h 4 = 0 then !(s.ring h 4).phase else (s.ring h 4).phase)) ∧
  (∀ (s : State) (h : Half), (s.half h).cpls = [] ∨ s.ringMoves h 4 = false ∨ s.ringSpace h 4 = 0 → exec (.completionWrite h) s = .next (settle s)) ∧
  (∀ (s : State) (h : Half) (e : Evt) (rest : List Evt), (s.half h).evts = e :: rest → (s.half h).evtDrop = 0 → s.ringMoves h 5 = true → s.recordsServed h = true → s.ringSpace h 5 ≠ 0 → Does (.eventRecordWrite h) s fun t =>
      (t.half h).evts = rest ∧ Out.entry h 5 (s.get .RING_INDEX (ringIdx h 5)) (e.words.set 0 (withPhase (s.ring h 5).phase (e.words.getD 0 0))) ∈ t.out
        ∧ t.get .RING_INDEX (ringIdx h 5) = (s.get .RING_INDEX (ringIdx h 5) + 1) % s.depth h 5 % 2 ^ 12 ∧ (s.manages h = true → Frame [(.RING_INDEX, ringIdx h 5)] s t)) ∧
  (∀ (s : State) (h : Half), (s.half h).evtDrop ≠ 0 → s.ringMoves h 5 = true → s.recordsServed h = true → s.ringSpace h 5 ≠ 0 → s.manages h = true → (s.half h).filter 0x0107 ≤ 1 → Does (.eventRecordWrite h) s fun t =>
      (t.half h).evtDrop = 0 ∧ (t.half h).evts = (s.half h).evts ∧ t.get .RING_INDEX (ringIdx h 5) = (s.get .RING_INDEX (ringIdx h 5) + 1) % s.depth h 5 % 2 ^ 12) ∧
  (∀ (s : State) (h : Half) (e : Evt) (rest : List Evt), (s.half h).evts = e :: rest → s.ringMoves h 5 = true → s.recordsServed h = true → s.ringSpace h 5 = 0 → Does (.eventRecordWrite h) s fun t =>
      (t.half h).evts = rest ∧ (t.half h).evtDrop = (s.half h).evtDrop + 1 ∧ t.get .HIF_EVT_LOST h = (s.get .HIF_EVT_LOST h + 1) % 2 ^ 32 ∧ Frame [(.HIF_EVT_LOST, h)] s t) ∧
  (∀ (s : State) (h : Half) (x : Tlm) (rest : List Tlm), (s.half h).tlms = x :: rest → (s.half h).tlmDrop = 0 → s.ringMoves h 6 = true → s.recordServed h x = true → x.units.length ≤ s.ringSpace h 6 → Does (.telemetryRecordWrite h) s fun t =>
      (t.half h).tlms = rest ∧ t.get .RING_INDEX (ringIdx h 6) = (s.get .RING_INDEX (ringIdx h 6) + x.units.length) % s.depth h 6 % 2 ^ 12
        ∧ (s.manages h = true → x.snap = none → Frame [(.RING_INDEX, ringIdx h 6)] s t)) ∧
  (∀ (s : State) (h : Half), (s.half h).tlmDrop ≠ 0 → s.ringMoves h 6 = true → (s.half h).tlms.head?.all (s.recordServed h) = true → s.ringSpace h 6 ≠ 0 → Does (.telemetryRecordWrite h) s fun t =>
      (t.half h).tlmDrop = 0 ∧ (t.half h).tlms = (s.half h).tlms ∧ t.get .RING_INDEX (ringIdx h 6) = (s.get .RING_INDEX (ringIdx h 6) + 1) % s.depth h 6 % 2 ^ 12
        ∧ Frame [(.RING_INDEX, ringIdx h 6)] s t) ∧
  (∀ (s : State) (h : Half) (x : Tlm) (rest : List Tlm), (s.half h).tlms = x :: rest → s.ringMoves h 6 = true → s.recordServed h x = true → s.ringSpace h 6 = 0 → x.words.length ≠ 0 → Does (.telemetryRecordWrite h) s fun t =>
      (x.snap ≠ none → t.half h = s.half h ∧ t.get .HIF_TLM_LOST h = s.get .HIF_TLM_LOST h)
        ∧ (x.snap = none → (t.half h).tlms = rest ∧ (t.half h).tlmDrop = (s.half h).tlmDrop + 1 ∧ t.get .HIF_TLM_LOST h = (s.get .HIF_TLM_LOST h + 1) % 2 ^ 32)
        ∧ Frame [(.HIF_TLM_LOST, h)] s t) ∧
  (∀ (s : State) (h : Half) (r : List W32) (rest : List (List W32)), (s.half h).tsq = r :: rest → s.manages h = true → s.ringMoves h 7 = true → s.ringSpace h 7 ≠ 0 → Does (.timestampRecordWrite h) s fun t =>
      (t.half h).tsq = rest ∧ t.get .TIME_TSQ_FILL h = rest.length % 256 ∧ t.get .TIME_REC_CNT h = (s.get .TIME_REC_CNT h + 1) % 2 ^ 32
        ∧ Out.entry h 7 (s.get .RING_INDEX (ringIdx h 7)) (r.set 0 (withPhase (s.ring h 7).phase (r.getD 0 0))) ∈ t.out
        ∧ Frame [(.TIME_TSQ_FILL, h), (.TIME_REC_CNT, h), (.RING_INDEX, ringIdx h 7)] s t) ∧
  (∀ (s : State) (h : Half) (r : List W32) (rest : List (List W32)), (s.half h).tsq = r :: rest → s.manages h = false → s.get .BR_STATE halfA ≠ 1 → Does (.timestampRecordWrite h) s fun t => (t.half h).tsq = rest ∧ t.bridge.recs = s.bridge.recs ++ [.ts r] ∧ Frame [(.TIME_TSQ_FILL, h)] s t) ∧
  (∀ (s : State) (h : Half), (s.half h).sbDirty = true → s.masters h = true → s.get .HIF_RUN h = 1 → s.running h = true → Does (.statusBlockWrite h) s fun t =>
      t.out = .status h (t.statusBlock h) :: s.out ∧ (t.half h).sbDirty = false ∧ (t.half h).sbSeq = ((s.half h).sbSeq + 1) % 2 ^ 32 ∧ Frame [] s t
        ∧ (t.statusBlock h).length = 16 ∧ (t.statusBlock h).getD 5 0 = BitVec.ofNat 32 (t.half h).sbSeq
        ∧ (t.statusBlock h).getD 0 0 = BitVec.ofNat 32 (s.get .RING_INDEX (ringIdx h 1) * 65536 + s.get .RING_INDEX (ringIdx h 0))) ∧
  (∀ (s : State) (h : Half), (s.half h).sbDirty = false → exec (.statusBlockWrite h) s = .next (settle s))

/-- R264 to R268: entry to DATA, the transfer of the loading, failures; the states are numbered as in R272 (HOLDOFF 4, BLIND 5). Completes: txDataStart, rxDataStart, loadFrameReceive, ackFrameReceive, loadRetry, acqTimeout, holdoffEnd. -/
def Obligations.StartOfData : Prop :=
  (∀ (s : State) (l : Lane), s.get .ACQ_STATE l = 2 → s.countOver l = true → s.get .ACQ_TX_DATA l ≠ 1 → s.get .ACQ_RX_DATA l ≠ 1 → Does (.txDataStart l) s fun t => t.get .ACQ_TX_DATA l = 1 ∧ t.get .ACQ_STATE l = 2 ∧ (t.lane l).count = none ∧ (t.lane l).txTick = s.ticks l.half ∧ (t.lane l).enc = 0 ∧ (t.lane l).txSym = 0 ∧ (t.lane l).ohc = [] ∧ Frame [(.EQ_TX_CLAMP, l), (.DMT_TX_CLIP, l)] s t) ∧
  (∀ (s : State) (l : Lane), s.get .ACQ_STATE l = 2 → s.countOver l = false → exec (.txDataStart l) s = .next (settle s)) ∧
  (∀ (s : State) (l : Lane), s.get .ACQ_STATE l = 2 → s.countOver l = true → s.get .ACQ_TX_DATA l ≠ 1 → s.get .ACQ_RX_DATA l = 1 → s.kndOut l.acqKnd = false → s.lmode l ≠ 3 ∨ s.rxValid l (s.get .DMT_RX_ACT l) = true ∧ s.txValid l (s.get .DMT_TX_ACT l) = true → s.get .FE_SIG_DET l = 1 → s.get .EQ_LOCK l = 1 → (s.lmode l ≤ 1 → s.get .FEC_CW_LOCK l = 1) → Does (.txDataStart l) s fun t =>
      t.get .ACQ_STATE l = 3 ∧ t.get .ACQ_TX_DATA l = 1 ∧ t.get .ACQ_ENTER_DATA l = 1 ∧ (t.lane l).fails = 0
        ∧ t.get .ACQ_DATA_CNT l = (s.get .ACQ_DATA_CNT l + 1) % 2 ^ Fld.width .ACQ_DATA_CNT
        ∧ Frame [(.ACQ_ENTER_DATA, l), (.ACQ_DATA_CNT, l), (.ACQ_ACQ_TIME, l), (.EQ_TX_CLAMP, l), (.DMT_TX_CLIP, l)] s t) ∧
  (∀ (s : State) (l : Lane), s.get .ACQ_STATE l = 2 → s.countOver l = true → s.get .ACQ_TX_DATA l ≠ 1 → s.get .ACQ_RX_DATA l = 1 → s.kndOut l.acqKnd = false → s.lmode l = 3 → s.rxValid l (s.get .DMT_RX_ACT l) = false ∨ s.txValid l (s.get .DMT_TX_ACT l) = false → Does (.txDataStart l) s fun t =>
      t.get .ACQ_STATE l = 4 ∧ t.get .ACQ_ACQ_FAIL l = 1 ∧ (t.lane l).fails = (s.lane l).fails + 1) ∧
  (∀ (s : State) (l : Lane) (d : Nat × Nat), s.get .ACQ_STATE l = 2 → (s.lane l).dataAt = some d → s.get .ACQ_RX_DATA l ≠ 1 → s.get .ACQ_TX_DATA l ≠ 1 → 2 ≤ s.lmode l ∨ s.get .FEC_CW_LOCK l = 1 → Does (.rxDataStart l) s fun t => t.get .ACQ_RX_DATA l = 1 ∧ t.get .ACQ_STATE l = 2 ∧ (t.lane l).rxTick = s.ticks l.half ∧ (t.lane l).fecLine = none ∧ (s.lmode l ≠ 3 → t.dmt = s.dmt) ∧ t.ap = s.ap ∧ FieldsKept [] s t) ∧
  (∀ (s : State) (l : Lane) (d : Nat × Nat), s.get .ACQ_STATE l = 2 → (s.lane l).dataAt = some d → s.get .ACQ_RX_DATA l ≠ 1 → s.get .ACQ_TX_DATA l = 1 → s.kndOut l.acqKnd = false → s.get .FE_SIG_DET l = 1 → s.get .EQ_LOCK l = 1 → s.lmode l = 2 ∨ s.lmode l < 2 ∧ s.get .FEC_CW_LOCK l = 1 → Does (.rxDataStart l) s fun t => t.get .ACQ_STATE l = 3 ∧ t.get .ACQ_ENTER_DATA l = 1) ∧
  (∀ (s : State) (l : Lane) (fr : AcqFrame), Accepts s l fr → fr.type = 4 → s.get .ACQ_STATE l = 2 → s.lmode l = 3 → s.get .DMT_TX_ACT l < 2 → s.dmt.wf = true → Does (.loadFrameReceive l fr) s fun t =>
      let ok := fr.payload.length == 2048
        && loadingValid (fun k => payloadNum fr.payload (2 * k) 2 / 4096) (fun k => payloadNum fr.payload (2 * k) 2 % 4096)
      Sent s t l (fun g => g.type = 5 ∧ g.seq = BitVec.ofNat 8 (s.lane l).seq ∧ payloadNum g.payload 1 1 = fr.seq.toNat ∧ payloadNum g.payload 2 1 = if ok then 0 else 1)
        ∧ (ok = true → ∀ k : Fin 1024, txBits (t.dmtWord l (s.get .DMT_TX_ACT l) k) = payloadNum fr.payload (2 * k.val) 2 / 4096 % 16
            ∧ txGain (t.dmtWord l (s.get .DMT_TX_ACT l) k) = payloadNum fr.payload (2 * k.val) 2 % 4096)
        ∧ (ok = false → t.dmt = s.dmt) ∧ FieldsKept [(.ACQ_FRAME_OK, l)] s t) ∧
  (∀ (s : State) (l : Lane) (fr : AcqFrame), Accepts s l fr → fr.type = 5 → s.get .ACQ_STATE l = 2 → s.lmode l = 3 → s.get .ACQ_SUBSTATE l = 3 → payloadNum fr.payload 0 1 = 4 → payloadNum fr.payload 1 1 = (s.lane l).seq → payloadNum fr.payload 2 1 ≤ 1 → Does (.ackFrameReceive l fr) s fun t =>
      t.get .ACQ_SUBSTATE l = (if payloadNum fr.payload 2 1 = 0 then 4 else 2) ∧ (payloadNum fr.payload 2 1 = 0 → t.get .ACQ_RX_READY l = 1)
        ∧ Frame [(.ACQ_FRAME_OK, l)] s t) ∧
  (∀ (s : State) (l : Lane), s.get .ACQ_STATE l = 2 → s.lmode l = 3 → s.get .ACQ_SUBSTATE l = 3 → s.kndOut l.acqKnd = false → (s.lane l).clk.loadAt + msTicks 1 ≤ s.ticks l.half → (s.lane l).loadTries < 8 → Does (.loadRetry l) s fun t => (t.lane l).loadTries = (s.lane l).loadTries + 1 ∧ Sent s t l (fun g => g.type = 4) ∧ (t.lane l).clk.loadAt = s.ticks l.half ∧ Frame [(.DMT_TX_CLIP, l)] s t) ∧
  (∀ (s : State) (l : Lane), s.get .ACQ_STATE l = 2 → s.lmode l = 3 → s.get .ACQ_SUBSTATE l = 3 → s.kndOut l.acqKnd = false → (s.lane l).clk.loadAt + msTicks 1 ≤ s.ticks l.half → 8 ≤ (s.lane l).loadTries → Does (.loadRetry l) s fun t => t.get .ACQ_STATE l = 4 ∧ t.get .ACQ_ACQ_FAIL l = 1) ∧
  (∀ (s : State) (l : Lane), s.get .ACQ_STATE l = 2 → s.acqOver l = true → Does (.acqTimeout l) s fun t =>
      t.get .ACQ_STATE l = 4 ∧ t.get .ACQ_ACQ_FAIL l = 1 ∧ t.get .ACQ_FAIL_CNT l = min (s.get .ACQ_FAIL_CNT l + 1) (2 ^ Fld.width .ACQ_FAIL_CNT - 1)
        ∧ (t.lane l).fails = (s.lane l).fails + 1 ∧ Frame [(.ACQ_ACQ_FAIL, l), (.ACQ_FAIL_CNT, l)] s t) ∧
  (∀ (s : State) (l : Lane), s.get .ACQ_STATE l = 5 → s.acqOver l = true → Does (.acqTimeout l) s fun t => t.get .ACQ_STATE l = 5 ∧ t.get .ACQ_ACQ_FAIL l = 1 ∧ (t.lane l).fails = (s.lane l).fails + 1) ∧
  (∀ (s : State) (l : Lane), s.get .ACQ_STATE l = 4 → (s.lane l).clk.holdAt + msTicks 1 ≤ s.ticks l.half → Does (.holdoffEnd l) s fun t => t.get .ACQ_STATE l = 1 ∧ t.get .ACQ_PEER_SEEN l = 0 ∧ (t.lane l).partner = none ∧ (t.lane l).start = s.ticks l.half ∧ (t.lane l).carrierAt = s.ticks l.half ∧ Frame [] s t)

/-- R277 to R299: the loop engine, one sample of one context; the profile is that of profileStep (logs 99 to 103 name the readings of rounding). The outputs stay within OUT_MIN and OUT_MAX (R283). Completes: loopSample. -/
def Obligations.LoopSamples : Prop :=
  (∀ (s : State) (x : Ctx) (r : Int), s.engineKept x.group = false → s.engineOff x.group = false → s.samples276 x = true → s.belowStops x = false → (fiSlots x.group.half).all (fun i => s.get .FIS_ACTIVE i == 0) = true → s.get .CTX_STATE x = 1 → s.source x (s.inUse .CTX_FB_SRC x) = .ok r → s.inUse .CTX_DEMOD x = 0 → s.inUse .CTX_MODE x = 1 → (s.ctx x).fresh = false → Does (.loopSample x) s fun t =>
      t.get .CTX_X_NOW x = ofSigned 32 (s.scaled x r)
        ∧ t.get .CTX_P_NOW x = ofSigned 32 (CtxS.pos (t.ctx x))
        ∧ (t.ctx x).p = (profileStep (s.ctx x).p (s.ctx x).v (s.ctx x).a ((s.ctx x).tgt * 65536) (s.ctx x).vmax (s.ctx x).amax (s.ctx x).jmax (s.periodMs x)).1
        ∧ (t.ctx x).tgt = s.target x ∧ (t.ctx x).bad = 0 ∧ t.get .CTX_STATE x = 1) ∧
  (∀ (s : State) (x : Ctx) (r : Int), s.engineKept x.group = false → s.engineOff x.group = false → s.samples276 x = true → s.belowStops x = false → (fiSlots x.group.half).all (fun i => s.get .FIS_ACTIVE i == 0) = true → s.get .CTX_STATE x = 1 → s.source x (s.inUse .CTX_FB_SRC x) = .ok r → s.cs .CTX_OUT_MIN x ≤ s.cs .CTX_OUT_MAX x → Does (.loopSample x) s fun t =>
      (s.inUse .CTX_DEMOD x = 0 → t.get .CTX_X_NOW x = ofSigned 32 (s.scaled x r))
        ∧ (s.inUse .CTX_FE_LIM x = 0 → s.inUse .CTX_FREEZE_FLOOR x = 0 → t.get .CTX_STATE x = 1)
        ∧ s.cs .CTX_OUT_MIN x ≤ toSigned 32 (t.get .CTX_O_NOW x) ∧ toSigned 32 (t.get .CTX_O_NOW x) ≤ s.cs .CTX_OUT_MAX x
        ∧ (t.ctx x).fresh = false ∧ (t.ctx x).bad = 0 ∧ (t.ctx x).xPrev = toSigned 32 (t.get .CTX_X_NOW x)) ∧
  (∀ (s : State) (x : Ctx), s.engineKept x.group = false → s.engineOff x.group = false → s.samples276 x = true → s.belowStops x = false → (fiSlots x.group.half).all (fun i => s.get .FIS_ACTIVE i == 0) = true → s.get .CTX_STATE x = 1 → s.inUse .CTX_MODE x = 0 → s.source x (s.inUse .CTX_FB_SRC x) = .invalid → (s.ctx x).bad + 1 < s.inUse .CTX_LOST_N x → Does (.loopSample x) s fun t => t.get .CTX_STATE x = 1 ∧ (t.ctx x).bad = (s.ctx x).bad + 1 ∧ Frame [] s t) ∧
  (∀ (s : State) (x : Ctx), s.engineKept x.group = false → s.engineOff x.group = false → s.samples276 x = true → s.belowStops x = false → (fiSlots x.group.half).all (fun i => s.get .FIS_ACTIVE i == 0) = true → s.get .CTX_STATE x = 1 → s.inUse .CTX_MODE x = 0 → s.source x (s.inUse .CTX_FB_SRC x) = .invalid → s.inUse .CTX_LOST_N x ≤ (s.ctx x).bad + 1 → Does (.loopSample x) s fun t =>
      t.get .CTX_STATE x = 2 ∧ t.get .CTX_CAUSE x = 1 ∧ t.get .CTX_HOLD_IN x = 1 ∧ (t.ctx x).bad = 0
        ∧ t.get .CTX_HOLD_CNT x = min (s.get .CTX_HOLD_CNT x + 1) (2 ^ Fld.width .CTX_HOLD_CNT - 1) ∧ Frame [(.CTX_HOLD_IN, x), (.CTX_HOLD_CNT, x)] s t) ∧
  (∀ (s : State) (x : Ctx), s.engineKept x.group = false → s.engineOff x.group = false → s.samples276 x = true → s.belowStops x = false → (fiSlots x.group.half).all (fun i => s.get .FIS_ACTIVE i == 0) = true → s.get .CTX_STATE x = 1 → s.inUse .CTX_MODE x = 0 → s.source x (s.inUse .CTX_FB_SRC x) = .suspect → Does (.loopSample x) s fun t =>
      t.get .CTX_STATE x = 1 ∧ t.get .CTX_SKIP_CNT x = min (s.get .CTX_SKIP_CNT x + 1) (2 ^ Fld.width .CTX_SKIP_CNT - 1) ∧ (t.ctx x).bad = (s.ctx x).bad
        ∧ Frame [(.CTX_SKIP_CNT, x)] s t) ∧
  (∀ (s : State) (x : Ctx), s.engineKept x.group = false → s.engineOff x.group = false → s.samples276 x = true → s.belowStops x = true → s.get .CTX_STATE x = 1 ∨ s.get .CTX_STATE x = 2 → Does (.loopSample x) s fun t => t.get .CTX_STATE x = 5 ∧ t.get .CTX_CAUSE x = 6) ∧
  (∀ (s : State) (x : Ctx), s.engineKept x.group = false → s.engineOff x.group = false → s.samples276 x = true → s.belowStops x = false → (fiSlots x.group.half).all (fun i => s.get .FIS_ACTIVE i == 0) = true → s.get .CTX_STATE x = 2 → (s.ctx x).clears = false → s.source x (s.inUse .CTX_FB_SRC x) = .invalid → s.app .CTX_OUT_KIND x = 0 → Does (.loopSample x) s fun t =>
      t.get .CTX_STATE x = 2 ∧ (t.ctx x).good = 0 ∧ t.get .CTX_O_NOW x = ofSigned 32 (s.clampOut x ((s.ctx x).held + s.dither x))
        ∧ Frame [(.CTX_O_NOW, x), (.CTX_CEIL, x)] s t) ∧
  (∀ (s : State) (x : Ctx), s.engineKept x.group = false → s.engineOff x.group = false → s.samples276 x = true → s.belowStops x = false → (fiSlots x.group.half).all (fun i => s.get .FIS_ACTIVE i == 0) = true → s.get .CTX_STATE x = 3 → s.app .CTX_OUT_KIND x = 0 → Does (.loopSample x) s fun t =>
      t.get .CTX_STATE x = 3 ∧ t.get .CTX_O_NOW x = ofSigned 32 (CtxS.pos (t.ctx x)) ∧ t.get .CTX_P_NOW x = t.get .CTX_O_NOW x ∧ (t.ctx x).tgt = s.cs .CTX_PARK x) ∧
  (∀ (s : State) (x : Ctx), s.engineKept x.group = false → s.engineOff x.group = false → s.samples276 x = true → s.belowStops x = false → (fiSlots x.group.half).all (fun i => s.get .FIS_ACTIVE i == 0) = true → s.get .CTX_STATE x = 2 → (s.ctx x).clears = true → (s.ctx x).restart = false → (s.ctx x).before = [] → s.source x (s.inUse .CTX_FB_SRC x) = .invalid → s.inUse .CTX_MODE x = 0 → 1 < s.inUse .CTX_LOST_N x → Does (.loopSample x) s fun t =>
      t.get .CTX_STATE x = 1 ∧ t.get .CTX_CAUSE x = 0 ∧ (t.ctx x).clears = false ∧ (t.ctx x).resume = true ∧ (t.ctx x).bad = 1 ∧ Frame [] s t) ∧
  (∀ (s : State) (x : Ctx), s.samples276 x = false → exec (.loopSample x) s = .next (settle s)) ∧
  (∀ (s : State) (x : Ctx), s.engineOff x.group = true → exec (.loopSample x) s = .next (settle s))

/-- R276, R298, R301, R302 and R326; the states of a context are numbered as in R304 (HOLD 2, PARKING 3, PARKED 4). Completes: holdTimeout, parkComplete, injectionStart, injectionStop, injectionEnd, captureArm, captureDone, captureDataRead, loopFrame. -/
def Obligations.LoopHoldsAndInjection : Prop :=
  (∀ (s : State) (x : Ctx), s.get .CTX_STATE x = 2 → s.engineKept x.group = false → s.holdOver x = true → (s.ctx x).clears = false → s.ctxLane x = none → Does (.holdTimeout x) s fun t => t.get .CTX_STATE x = 3 ∧ t.get .CTX_CAUSE x = s.get .CTX_CAUSE x ∧ (t.ctx x).p = (s.ctx x).held * 65536 ∧ (t.ctx x).v = 0 ∧ (t.ctx x).tgt = s.cs .CTX_PARK x ∧ Frame [(.CTX_AT_TARGET, x)] s t) ∧
  (∀ (s : State) (x : Ctx) (l : Lane), s.get .CTX_STATE x = 2 → s.engineKept x.group = false → s.holdOver x = true → (s.ctx x).clears = false → s.ctxLane x = some l → s.inUse .CTX_FENCE_EN x = 1 → Does (.holdTimeout x) s fun t => t.get .CTX_STATE x = 3 ∧ Cause.loop ∈ (t.lane l).fences ∧ (s.isApc x = true → (t.lane l).loopApc = true)) ∧
  (∀ (s : State) (x : Ctx), s.holdOver x = false → exec (.holdTimeout x) s = .next (settle s)) ∧
  (∀ (s : State) (x : Ctx), s.get .CTX_STATE x = 3 → (s.ctx x).p = s.cs .CTX_PARK x * 65536 → (s.ctx x).v = 0 → (s.ctx x).a = 0 → Does (.parkComplete x) s fun t => t.get .CTX_STATE x = 4 ∧ t.get .CTX_PARKED x = 1 ∧ t.get .CTX_CAUSE x = s.get .CTX_CAUSE x % 8 ∧ Frame [(.CTX_PARKED, x)] s t) ∧
  (∀ (s : State) (g : Group), s.running g.half = true → s.answers g.half = true → Does (.injectionStart g) s fun t => (t.group g).inj.armed = true ∧ (t.group g).inj.k = 0 ∧ (t.group g).inj.phase = 0 ∧ Frame [] s t) ∧
  (∀ (s : State) (g : Group), s.running g.half = true → s.answers g.half = true → Does (.injectionStop g) s fun t => (t.group g).inj.armed = false ∧ (∀ c : Fin 32, s.get .CTX_INJ (g.ctx c) ≤ 1 → t.get .CTX_INJ (g.ctx c) = 0) ∧ Frame [] s t) ∧
  (∀ (s : State) (g : Group), s.get .LG_LEN g ≠ 0 → s.get .LG_LEN g ≤ (s.group g).inj.k → Does (.injectionEnd g) s fun t => (∀ c : Fin 32, s.get .CTX_INJ (g.ctx c) ≤ 1 → t.get .CTX_INJ (g.ctx c) = 0) ∧ Frame [] s t) ∧
  (∀ (s : State) (g : Group), s.running g.half = true → s.answers g.half = true → Does (.captureArm g) s fun t =>
      t.get .LG_DONE g = 0 ∧ t.get .LG_COUNT g = 0 ∧ t.get .LG_ARMED g = (if s.get .LG_TRIG g = 0 then 0 else 1)
        ∧ (t.group g).inj.run = decide (s.get .LG_TRIG g = 0) ∧ Frame [(.LG_DONE, g)] s t) ∧
  (∀ (s : State) (g : Group), (s.group g).inj.run = true → s.get .LG_COUNT g = 4096 → Does (.captureDone g) s fun t => t.get .LG_DONE g = 1 ∧ (t.group g).inj.run = false ∧ Frame [(.LG_DONE, g)] s t) ∧
  (∀ (s : State) (g : Group), s.running g.half = true → s.answers g.half = true → Does (.captureDataRead g) s fun t =>
      t.out = .read g.half (0x10000 * (1 + g.val % 3) + 0xC02C) (s.capture.get (4096 * g.val + s.get .LG_CAP_ADDR g)) :: s.out
        ∧ t.get .LG_CAP_ADDR g = (s.get .LG_CAP_ADDR g + 1) % 4096 ∧ t.capture = s.capture ∧ Frame [(.LG_CAP_ADDR, g)] s t) ∧
  (∀ (s : State), Does .loopFrame s fun t =>
      t.frame = s.frame + 1 ∧ (∀ q : SeqN, (t.sequ q).en = (s.get .SEQ_EN q == 1) ∧ (t.sequ q).period = s.get .SEQ_PERIOD q
        ∧ (t.sequ q).offset = s.get .SEQ_OFFSET q ∧ (t.sequ q).run = (s.sequ q).run) ∧ FieldsKept [] s t ∧ t.dmt = s.dmt)

/-- R310 to R317 and the registers of R321 and R322; photocurrents come in µA. Completes: overPowerTrip, biasHoldEnd, safeOffAssert, safeOffDeassert, safeOffAutoRelease, safeOffResumeWrite, aprHoldEntry, aprThresholdLower, aprRestartPulse, aprPulseEnd, lsCeilWrite, lsLockWrite. -/
def Obligations.LaserCommands : Prop :=
  (∀ (s : State) (l : Lane) (i : Nat), s.isExcess l i = true → (s.lane l).ovpTrip = false → Cause.laserOvp ∉ (s.lane l).fences → Does (.overPowerTrip l i) s fun t =>
      (t.lane l).ovpTrip = true ∧ Cause.laserOvp ∈ (t.lane l).fences ∧ t.get .LS_OVP_TRIP l = 1
        ∧ t.get .LS_OVP_CNT l = min (s.get .LS_OVP_CNT l + 1) (2 ^ Fld.width .LS_OVP_CNT - 1)) ∧
  (∀ (s : State) (l : Lane) (i : Nat), s.isExcess l i = false → exec (.overPowerTrip l i) s = .next (settle s)) ∧
  (∀ (s : State) (l : Lane), (s.lane l).biasHold = true → (s.lane l).clk.biasAt + 2500 ≤ (s.half l.half).aon → Does (.biasHoldEnd l) s fun t => (t.lane l).biasHold = false ∧ t.get .CD_FORCED0 (s.laserCd l) = 0 ∧ Frame [] s t) ∧
  (∀ (s : State) (h : Half), s.get .LSH_SOFF_PIN h = 1 → Does (.safeOffAssert h) s fun t =>
      t.get .LSH_SOFF_PIN h = 0 ∧ t.get .LSH_SOFF_HELD h = 1 ∧ t.get .LSH_SOFF_CNT h = min (s.get .LSH_SOFF_CNT h + 1) (2 ^ Fld.width .LSH_SOFF_CNT - 1)
        ∧ Frame [(.LSH_SOFF_PIN, h), (.LSH_SOFF_HELD, h), (.LSH_SOFF_CNT, h)] s t) ∧
  (∀ (s : State) (h : Half), Answers (.safeOffDeassert h) s fun t => t.get .LSH_SOFF_PIN h = 1 ∧ (s.get .LSH_SOFF_PIN h ≠ 1 → (t.half h).soffAt = (s.half h).aon) ∧ t.get .LSH_SOFF_HELD h = s.get .LSH_SOFF_HELD h ∧ Frame [(.LSH_SOFF_PIN, h)] s t) ∧
  (∀ (s : State) (h : Half), s.get .LSH_SOFF_PIN h = 1 → s.get .LSH_SOFF_RESUME h = 1 → (s.half h).soffAt + msTicks 1 ≤ (s.half h).aon → Answers (.safeOffAutoRelease h) s fun t => t.get .LSH_SOFF_HELD h = 0 ∧ Frame [(.LSH_SOFF_HELD, h)] s t) ∧
  (∀ (s : State) (h : Half), s.running h = true → s.answers h = true → s.get .LSH_SOFF_PIN h = 1 → s.get .LSH_SOFF_RESUME h ≠ 1 → Answers (.safeOffResumeWrite h 1) s fun t => t.get .LSH_SOFF_HELD h = 0 ∧ Frame [(.LSH_SOFF_HELD, h)] s t) ∧
  (∀ (s : State) (h : Half), s.get .LSH_SOFF_PIN h ≠ 1 → exec (.safeOffResumeWrite h 1) s = .next (settle s)) ∧
  (∀ (s : State) (l : Lane), s.aprRuns l = true → s.get .FE_SIG_DET l ≠ 1 → (s.lane l).apr = .off → (s.lane l).clk.darkAt.any (fun t => s.aprOver l t 500) = true → Does (.aprHoldEntry l) s fun t =>
      (t.lane l).apr = .hold ∧ (t.lane l).aprLow = false ∧ (t.lane l).pulseAt = (s.half l.half).aon ∧ (t.lane l).clk.aprAt = (s.half l.half).aon ∧ t.get .LS_APR_IN l = 1
        ∧ t.get .LS_APR_CNT l = min (s.get .LS_APR_CNT l + 1) (2 ^ Fld.width .LS_APR_CNT - 1) ∧ Frame [(.LS_APR_IN, l), (.LS_APR_CNT, l)] s t) ∧
  (∀ (s : State) (l : Lane), (s.lane l).apr = .hold → s.app .LS_APR_MODE l = 1 → s.aprOver l (s.lane l).clk.aprAt 50 = true → Does (.aprThresholdLower l) s fun t => (t.lane l).aprLow = true ∧ (t.lane l).apr = .hold ∧ Frame [] s t) ∧
  (∀ (s : State) (l : Lane), (s.lane l).apr = .hold ∨ (s.lane l).apr = .pulse → s.aprOver l (s.lane l).pulseAt 100000 = true → Does (.aprRestartPulse l) s fun t => (t.lane l).apr = .pulse ∧ (t.lane l).aprLow = false ∧ (t.lane l).pulseAt = (s.half l.half).aon ∧ Frame [] s t) ∧
  (∀ (s : State) (l : Lane), (s.lane l).apr = .pulse → s.aprOver l (s.lane l).clk.aprAt 2000 = true → Does (.aprPulseEnd l) s fun t => (t.lane l).apr = .hold ∧ t.get .LS_APR_IN l = 1 ∧ (t.lane l).pulseAt = (s.lane l).pulseAt ∧ Frame [(.LS_APR_IN, l), (.LS_APR_CNT, l)] s t) ∧
  (∀ (s : State) (l : Lane) (v : W32), s.running l.half = true → s.answers l.half = true → s.get .LSH_LOCK l.half = 1 → Answers (.lsCeilWrite l v) s fun t => Frame [] s t) ∧
  (∀ (s : State) (l : Lane) (v : W32), s.running l.half = true → s.answers l.half = true → s.get .LSH_LOCK l.half ≠ 1 → v.toNat / 2 ^ 24 = s.laserCd l → s.laserCdOk l (s.laserCd l) = true → Answers (.lsCeilWrite l v) s fun t =>
      t.get .LS_BIAS_CEIL l = v.toNat / 2 ^ 12 % 2 ^ 12 ∧ t.get .LS_PWR_CEIL l = v.toNat % 2 ^ 12 ∧ t.get .LS_LASER_CD l = v.toNat / 2 ^ 24) ∧
  (∀ (s : State) (h : Half), s.running h = true → s.answers h = true → s.get .LSH_LOCK h ≠ 1 → Answers (.lsLockWrite h 3) s fun t => t.get .LSH_LOCK h = 1 ∧ t.get .LSH_SOFF_RESUME h = 1 ∧ Frame [(.LSH_LOCK, h), (.LSH_SOFF_RESUME, h)] s t)

/-- R27 to R36, R215, R278 and R480: at a boundary the changes of a due commit for the lanes that take it together become applied values and nothing else does; a due snapshot goes first (R37). Completes: commit, commitApply, loopConfigLatch, snapshotLatch. -/
def Obligations.CommitsAtBoundaries : Prop :=
  (∀ (s : State) (h : Half) (r : Req), Takes s h .commit r → s.commitFault (s.affected r (s.with (s.shadowChanges r))) (s.with (s.shadowChanges r)) = none → Does (.commit h r) s fun t =>
      (t.half h).commits.map (fun k => (k.lanes, k.cells.map (·.2))) = (s.half h).commits.map (fun k => (k.lanes, k.cells.map (·.2)))
          ++ [((s.affected r (s.with (s.shadowChanges r))).lanes, s.shadowChanges r)]
        ∧ (t.half h).cpls = (s.half h).cpls ∧ Frame [] s t) ∧
  (∀ (s : State) (h : Half) (r : Req) (b : Bad), Takes s h .commit r → s.commitFault (s.affected r (s.with (s.shadowChanges r))) (s.with (s.shadowChanges r)) = some b → Does (.commit h r) s fun t =>
      Completed s t h r (deniedNow s h .commit ⟨b.status, b.reason, 0, 0⟩) ∧ (t.half h).commits = (s.half h).commits ∧ t.ap = s.ap ∧ t.written = s.written) ∧
  (∀ (s : State) (l : Lane) (h : Half) (c : PendCommit), s.commitsIn (fun k => k.lanes.contains l && k.due s l.half) = [(h, c)] → (s.half h).commits.all (fun k => k.order != c.order || k == c) = true → (s.lane l).resetDue = false → (c.cells.map fun p => (p.2.fld, p.2.idx)).Nodup → Does (.commitApply l) s fun t =>
      let ls := c.lanes.filter fun m => m.group == l.group && (c.reforms s l.group || (s.portMates l).contains m)
      let now := c.cells.filter fun p => ls.contains p.1 && p.2.fld.info.blk != .CTX
      (∀ p ∈ now, t.app p.2.fld p.2.idx = p.2.val % 2 ^ p.2.fld.width) ∧ AppliedKept (now.map fun p => (p.2.fld, p.2.idx)) s t
        ∧ (∀ k ∈ (t.half h).commits, k.order = c.order → k.lanes = c.lanes.filter (fun m => !ls.contains m) ∧ k.cells = c.cells.filter (fun p => !now.contains p))) ∧
  (∀ (s : State) (l : Lane), Does (.commitApply l) s fun t =>
      (∀ h : Half, ∀ c ∈ (t.half h).commits, c.lanes.contains l = true → c.due s l.half = false) ∧ (t.lane l).resetDue = false) ∧
  (∀ (s : State) (l : Lane), (∀ h : Half, (s.half h).snaps = [] ∧ (s.half h).commits.all (fun c => !(c.lanes.contains l && c.due s l.half)) = true) → (s.lane l).resetDue = false → exec (.commitApply l) s = .next (settle s)) ∧
  (∀ (s : State) (g : Group) (h : Half) (c : PendCommit), s.commitsIn (fun k => k.ctxWait.contains g && k.due s g.half) = [(h, c)] → (c.cells.map fun p => (p.2.fld, p.2.idx)).Nodup → Does (.loopConfigLatch g) s fun t =>
      let now := c.cells.filter fun p => p.2.fld.info.blk == .CTX && p.2.idx / 32 == g.val
      (∀ p ∈ now, t.app p.2.fld p.2.idx = p.2.val % 2 ^ p.2.fld.width) ∧ AppliedKept (now.map fun p => (p.2.fld, p.2.idx)) s t
        ∧ ∀ k ∈ (t.half h).commits, k.ctxWait.contains g = true → k.due s g.half = false) ∧
  (∀ (s : State) (g : Group) (h : Half) (c : PendCommit) (k : Cmd) (i v : Nat), (s.half h).snaps = [] → (s.half (otherHalf h)).snaps = [] → (s.half h).commits = [c] → (s.half (otherHalf h)).commits = [] → c.ctxWait = [g] → c.due s g.half = true → c.cells = [(g.lane 0, ⟨.CTX_PERIOD, i, v⟩)] → i / 32 = g.val → c.lanes = [] → c.ramp = [] → c.cmd = some k → k.org = h → k.exe = h → Answers (.loopConfigLatch g) s fun t =>
      t.app .CTX_PERIOD i = v % 2 ^ Fld.width .CTX_PERIOD ∧ (t.half h).commits = []
        ∧ (t.half h).cpls = (s.half h).cpls ++ [k.cpl (k.timed (max c.lastNs (s.now g.half)))]) ∧
  (∀ (s : State) (g : Group), (∀ h : Half, (s.half h).snaps = [] ∧ (s.half h).commits.all (fun c => !(c.ctxWait.contains g && c.due s g.half)) = true) → exec (.loopConfigLatch g) s = .next (settle s)) ∧
  (∀ (s : State) (h : Half) (x : Snap), (s.half h).snaps.filter (fun y => !y.latched && y.due ≤ s.ticks h) = [x] → (s.half h).snaps.all (fun y => y.key != x.key || y == x) = true → x.half = h → Does (.snapshotLatch h) s fun t =>
      let T := s.snapTime h x
      let parts := s.snapParts x.key
      let recs := x.lanes.map fun l => (⟨h, some x.key, false, s.laneRecord l true x.cmd.req.tag T⟩ : Tlm)
      let last : List Tlm := if parts.all (fun p => p == x || p.latched) then
          [⟨if parts.any (fun p => p.half == halfB) then halfB else h, some x.key, true, snapEnd x.cmd.req.tag T (parts.map fun p => p.lanes.length).sum
            (s.half (if parts.any (fun p => p.half == halfB) then halfB else h)).holdover⟩] else []
      (s.manages h = true → parts.all (fun p => p == x) = true → (t.half h).tlms = (s.half h).tlms ++ recs ++ last)
        ∧ (s.manages h = false → t.bridge.recs = s.bridge.recs ++ (recs ++ last).map BRec.tlm)
        ∧ (∀ y ∈ (t.half h).snaps, y.key = x.key → y.latched = true ∧ y.t = some T) ∧ Frame [] s t) ∧
  (∀ (s : State) (h : Half), Does (.snapshotLatch h) s fun t => Frame [] s t) ∧
  (∀ (s : State) (h : Half), (s.half h).snaps = [] → exec (.snapshotLatch h) s = .next (settle s))

/-- R326 to R331: 125 µV are 4 codes; words 0 and 1 of an entry are those that the run took at its start. Readings in logs 104 to 111. Completes: sequenceDue, sequenceRunStart, monitorConversion. -/
def Obligations.MonitorSequences : Prop :=
  (∀ (s : State) (q : SeqN), (s.sequ q).en = true → s.frame % (s.sequ q).period = 0 → (s.sequ q).waiting = false → (s.sequ q).run = none → Does (.sequenceDue q) s fun t => (t.sequ q).waiting = true ∧ (t.sequ q).ready = s.ticks q.half + 125 * (s.sequ q).offset ∧ Frame [] s t) ∧
  (∀ (s : State) (q : SeqN), (s.sequ q).en = true → s.frame % (s.sequ q).period = 0 → (s.sequ q).waiting = true ∨ (s.sequ q).run.isSome = true → Does (.sequenceDue q) s fun t =>
      (t.sequ q).waiting = (s.sequ q).waiting ∧ t.get .SEQ_OVERRUN q = min (s.get .SEQ_OVERRUN q + 1) (2 ^ Fld.width .SEQ_OVERRUN - 1) ∧ Frame [(.SEQ_OVERRUN, q)] s t) ∧
  (∀ (s : State) (q : SeqN), (s.sequ q).en = false → exec (.sequenceDue q) s = .next (settle s)) ∧
  (∀ (s : State) (q : SeqN), s.mayRun q = true → s.runEntries q ≠ [] → (s.enabledEntries q).all (fun e => !entChainEn e.2 || feedsAsBefore q.half (s.sequ q).took e) = true → Does (.sequenceRunStart q) s fun t => (t.sequ q).waiting = false ∧ (t.sequ q).run = some (s.runEntries q) ∧ (t.sequ q).took = s.enabledEntries q ∧ (t.sequ q).fresh = true ∧ Frame [] s t) ∧
  (∀ (s : State) (q : SeqN), s.mayRun q = false → exec (.sequenceRunStart q) s = .next (settle s)) ∧
  (∀ (s : State) (q : SeqN), s.mayRun q = true → s.runEntries q = [] → s.enabledEntries q = [] → Does (.sequenceRunStart q) s fun t =>
      (t.sequ q).waiting = false ∧ (t.sequ q).run = none ∧ t.get .SEQ_RUNS q = (s.get .SEQ_RUNS q + 1) % 2 ^ Fld.width .SEQ_RUNS ∧ Frame [(.SEQ_RUNS, q)] s t) ∧
  (∀ (s : State) (q : SeqN) (n : EntryN) (w0 w1 : Nat) (v : Int) (k : Nat), (s.sequ q).run = some [(n.val, w0, w1)] → s.inputLive q.half (entInput w0) = true → entChainEn w0 = false → s.recentSense n.half (entInput w0) = false → 3 ≤ s.orngAgo n.half (q.val % 4 / 2) + slotsSince (s.sequ q).fresh w0 k → w0.testBit 12 = false → 0 ≤ s.seen n.half (entTest w0) (entInput w0) v → s.seen n.half (entTest w0) (entInput w0) v ≤ 32768000 → Does (.monitorConversion q v k) s fun t =>
      t.get .ENT_CODE n = (codeOf (s.seen n.half (entTest w0) (entInput w0) v)) ∧ t.get .ENT_ORNG n = 0 ∧ t.get .ENT_SUSPECT n = 0 ∧ t.get .ENT_SETTLED n = 1
        ∧ t.get .ENT_TESTED n = (if entTest w0 then 1 else 0)
        ∧ t.get .ENT_SEQNUM n = (s.get .ENT_SEQNUM n + 1) % 2 ^ Fld.width .ENT_SEQNUM ∧ (t.sequ q).run = none
        ∧ t.results = s.results.set n (s.results.get n + 1) ∧ FieldsKept [(.ENT_CODE, n), (.ENT_ORNG, n), (.ENT_SUSPECT, n), (.ENT_SETTLED, n), (.ENT_TESTED, n), (.ENT_SEQNUM, n), (.SEQ_RUNS, q)] s t) ∧
  (∀ (s : State) (q : SeqN) (n : EntryN) (w0 w1 : Nat) (v : Int) (k : Nat), (s.sequ q).run = some [(n.val, w0, w1)] → s.inputLive q.half (entInput w0) = true → entChainEn w0 = false → s.recentSense n.half (entInput w0) = false → 3 ≤ s.orngAgo n.half (q.val % 4 / 2) + slotsSince (s.sequ q).fresh w0 k → w0.testBit 12 = false → 32768000 < s.seen n.half (entTest w0) (entInput w0) v → Does (.monitorConversion q v k) s fun t =>
      t.get .ENT_CODE n = 65535 ∧ t.get .ENT_ORNG n = 1 ∧ t.get .ENT_OVR n = 1 ∧ (t.half n.half).orngAgo = (s.half n.half).orngAgo.set (q.val % 4 / 2) 0
        ∧ FieldsKept [(.ENT_CODE, n), (.ENT_ORNG, n), (.ENT_SUSPECT, n), (.ENT_SETTLED, n), (.ENT_TESTED, n), (.ENT_SEQNUM, n), (.SEQ_RUNS, q), (.ENT_OVR, n), (.MON_ORNG_CNT0, n.half), (.MON_ORNG_CNT1, n.half)] s t) ∧
  (∀ (s : State) (q : SeqN) (n : EntryN) (w0 w1 : Nat) (v : Int) (k : Nat), (s.sequ q).run = some [(n.val, w0, w1)] → s.inputLive q.half (entInput w0) = true → entChainEn w0 = false → 0 ≤ s.seen n.half (entTest w0) (entInput w0) v → s.seen n.half (entTest w0) (entInput w0) v ≤ 32768000 → s.orngAgo n.half (q.val % 4 / 2) + slotsSince (s.sequ q).fresh w0 k < 3 ∨ s.recentSense n.half (entInput w0) = true → Does (.monitorConversion q v k) s fun t =>
      t.get .ENT_CODE n = (codeOf (s.seen n.half (entTest w0) (entInput w0) v)) ∧ t.get .ENT_SUSPECT n = 1 ∧ t.get .ENT_SUSP_CNT n = min (s.get .ENT_SUSP_CNT n + 1) (2 ^ Fld.width .ENT_SUSP_CNT - 1)
        ∧ t.get .ENT_OUTSIDE n = s.get .ENT_OUTSIDE n ∧ FieldsKept [(.ENT_CODE, n), (.ENT_ORNG, n), (.ENT_SUSPECT, n), (.ENT_SETTLED, n), (.ENT_TESTED, n), (.ENT_SEQNUM, n), (.SEQ_RUNS, q), (.ENT_SUSP_CNT, n)] s t) ∧
  (∀ (s : State) (q : SeqN) (n : EntryN) (w0 w1 : Nat) (v : Int) (k : Nat) (c : Nat), (s.sequ q).run = some [(n.val, w0, w1)] → s.inputLive q.half (entInput w0) = true → entChainEn w0 = false → s.recentSense n.half (entInput w0) = false → 3 ≤ s.orngAgo n.half (q.val % 4 / 2) + slotsSince (s.sequ q).fresh w0 k → w0.testBit 12 = true → 0 ≤ s.seen n.half (entTest w0) (entInput w0) v → s.seen n.half (entTest w0) (entInput w0) v ≤ 32768000 → c = (codeOf (s.seen n.half (entTest w0) (entInput w0) v)) → w1 / 65536 < c ∨ c < w1 % 65536 → s.get .ENT_OUTSIDE n ≠ 1 → Does (.monitorConversion q v k) s fun t =>
      t.get .ENT_CODE n = c ∧ t.get .ENT_OUTSIDE n = 1 ∧ t.get .ENT_WIN_EXIT n = 1) ∧
  (∀ (s : State) (q : SeqN) (n : EntryN) (w0 w1 : Nat) (v : Int) (k : Nat), (s.sequ q).run = some [(n.val, w0, w1)] → s.inputLive q.half (entInput w0) = true → entChainEn w0 = true → s.recentSense n.half (entInput w0) = false → 3 ≤ s.orngAgo n.half (q.val % 4 / 2) + slotsSince (s.sequ q).fresh w0 k → 0 ≤ s.seen n.half (entTest w0) (entInput w0) v → s.seen n.half (entTest w0) (entInput w0) v ≤ 32768000 → s.get .CH_STEP_THR (entChain n.half w0) = 0 → Does (.monitorConversion q v k) s fun t =>
      (t.chain (entChain n.half w0)).count = (s.chain (entChain n.half w0)).count + 1
        ∧ (t.chain (entChain n.half w0)).prev = some (codeOf (s.seen n.half (entTest w0) (entInput w0) v)) ∧ (t.chain (entChain n.half w0)).first = false
        ∧ t.get .CH_FILL (entChain n.half w0) = s.get .CH_FILL (entChain n.half w0) - 1 ∧ (t.sequ q).run = none) ∧
  (∀ (s : State) (q : SeqN) (n : EntryN) (w0 w1 : Nat) (v : Int) (k : Nat), (s.sequ q).run = some [(n.val, w0, w1)] → s.inputLive q.half (entInput w0) = true → entChainEn w0 = true → 0 ≤ s.seen n.half (entTest w0) (entInput w0) v → s.seen n.half (entTest w0) (entInput w0) v ≤ 32768000 → s.orngAgo n.half (q.val % 4 / 2) + slotsSince (s.sequ q).fresh w0 k < 3 ∨ s.recentSense n.half (entInput w0) = true → Does (.monitorConversion q v k) s fun t =>
      t.chains = s.chains ∧ t.results = s.results.set n (s.results.get n + 1) ∧ t.get .ENT_SUSPECT n = 1 ∧ t.get .ENT_CODE n = s.get .ENT_CODE n
        ∧ t.get .ENT_SUSP_CNT n = min (s.get .ENT_SUSP_CNT n + 1) (2 ^ Fld.width .ENT_SUSP_CNT - 1)
        ∧ FieldsKept [(.ENT_SUSP_CNT, n), (.ENT_ORNG, n), (.ENT_SUSPECT, n), (.ENT_SETTLED, n), (.ENT_TESTED, n), (.ENT_SEQNUM, n), (.SEQ_RUNS, q)] s t) ∧
  (∀ (s : State) (q : SeqN) (n : EntryN) (w0 w1 : Nat) (v : Int) (k : Nat), (s.sequ q).run = some [(n.val, w0, w1)] → s.inputLive q.half (entInput w0) = false → Does (.monitorConversion q v k) s fun t => (t.sequ q).run = none ∧ Frame [(.SEQ_RUNS, q)] s t)

/-- R325 to R352: what a write of a monitor register does beside storing the word. Completes: inputConfigWrite, monitorEntryWrite, chainRestartWrite, chainConfigWrite. -/
def Obligations.MonitorConfiguration : Prop :=
  (∀ (s : State) (i : InputN) (v : W32), s.running i.half = true → s.answers i.half = true → v.toNat % 8 < 7 → Does (.inputConfigWrite i v) s fun t =>
      t.get .MIN_TYPE i = v.toNat / 8 % 2 ∧ t.get .MIN_SENSE i = v.toNat % 8
        ∧ (s.get .MIN_TYPE i = v.toNat / 8 % 2 → s.get .MIN_SENSE i = v.toNat % 8 → t.senseAt = s.senseAt) ∧ t.ap = s.ap) ∧
  (∀ (s : State) (n : EntryN) (v : W32), s.running n.half = true → s.answers n.half = true → v.toNat % 65536 ≤ v.toNat / 65536 → Answers (.monitorEntryWrite n 1 v) s fun t =>
      t.get .ENT_HI n = v.toNat / 65536 ∧ t.get .ENT_LO n = v.toNat % 65536 ∧ t.get .ENT_OUTSIDE n = 0
        ∧ Frame [(.ENT_HI, n), (.ENT_LO, n), (.ENT_OUTSIDE, n)] s t) ∧
  (∀ (s : State) (n : EntryN) (v : W32), s.running n.half = true → s.answers n.half = true → v.toNat / 65536 < v.toNat % 65536 → Answers (.monitorEntryWrite n 1 v) s fun t => Frame [] s t) ∧
  (∀ (s : State) (n : EntryN) (v : W32), s.running n.half = true → s.answers n.half = true → entTest v.toNat = true → s.entryRead n = true → Answers (.monitorEntryWrite n 0 v) s fun t => Frame [] s t) ∧
  (∀ (s : State) (c : ChainN), s.running c.half = true → s.answers c.half = true → Does (.chainRestartWrite c 1) s fun t =>
      t.get .CH_SETTLED c = 0 ∧ t.get .CH_FILL c = (s.chainCfg c).1 * (s.chainCfg c).2.1 % 2 ^ Fld.width .CH_FILL ∧ (t.chain c).first = true
        ∧ (t.chain c).stages = [] ∧ (t.chain c).count = 0 ∧ t.get .CH_OUT_CNT c = 0 ∧ Frame [(.CH_SETTLED, c), (.CH_FILL, c), (.CH_OUT_CNT, c)] s t) ∧
  (∀ (s : State) (c : ChainN) (v : W32), s.running c.half = true → s.answers c.half = true → (slots c.half (0x52000 + 0x20 * (c.val % 32) + 4)).all (fun x => x.fld.inRange (x.value v.toNat)) = true → Does (.chainConfigWrite c 1 v) s fun t =>
      t.get .CH_SETTLED c = 0 ∧ (t.chain c).first = true ∧ (t.chain c).count = 0 ∧ t.ap = s.ap ∧ t.dmt = s.dmt)

/-- R311 and R340 to R346. A channel is HI-Z until VCTL is valid; the clear code of a laser-bias channel is 0; R342 in quarter milliamperes over 4,095. Completes: cdacCodeWrite, cdacClrCodeWrite, cdacUpdate, clrAssert, clrDeassert, cdacModeWrite, cdacReconnect, vctlValid, vctlInvalid. -/
def Obligations.ControlDac : Prop :=
  (∀ (s : State) (c : Chan) (v : W32), s.running c.half = true → s.answers c.half = true → s.laserOf c = none → s.driven c = false → s.overrideOf c = .none → (s.chan c).changing = false → Does (.cdacCodeWrite c v) s fun t =>
      t.get .CD_CODE c = v.toNat % 4096 ∧ t.get .CD_REQ c = v.toNat % 4096 ∧ t.get .CD_AT_CLEAR c = 0 ∧ (t.chan c).rest = false
        ∧ Frame [(.CD_CODE, c), (.CD_REQ, c), (.CD_AT_CLEAR, c)] s t) ∧
  (∀ (s : State) (c : Chan) (v : W32) (l : Lane), s.running c.half = true → s.answers c.half = true → s.laserOf c = some l → s.get .LSH_LOCK c.half ≠ 1 → s.driven c = false → s.get .LS_BIAS_CEIL l < v.toNat % 4096 → Does (.cdacCodeWrite c v) s fun t =>
      t.get .CD_REQ c = v.toNat % 4096 ∧ t.get .LS_CLAMPED l = 1 ∧ t.get .LS_CLAMP_CNT l = min (s.get .LS_CLAMP_CNT l + 1) (2 ^ Fld.width .LS_CLAMP_CNT - 1)
        ∧ t.clamped c = min (v.toNat % 4096) (s.get .LS_BIAS_CEIL l)) ∧
  (∀ (s : State) (c : Chan) (v : W32), s.running c.half = true → s.answers c.half = true → s.driven c = true → Answers (.cdacCodeWrite c v) s fun t => Frame [] s t) ∧
  (∀ (s : State) (c : Chan) (v : W32), s.running c.half = true → s.answers c.half = true → s.laserOf c = none → Answers (.cdacClrCodeWrite c v) s fun t => t.get .CD_CLR_CODE c = v.toNat % 4096 ∧ Frame [(.CD_CLR_CODE, c)] s t) ∧
  (∀ (s : State) (c : Chan), s.get .CD_HIZ c = 0 → (s.chan c).changing = false → s.overrideOf c = .none → s.chanHeld c = false → s.weight c = 0 → (s.chan c).rest = false → s.get .CD_SLEW_EN c = 0 → Does (.cdacUpdate c.half) s fun t =>
      t.get .CD_OUT c = s.clamped c % 4096 ∧ t.get .CD_FORCED0 c = 0 ∧ t.get .CD_REQ c = s.get .CD_REQ c) ∧
  (∀ (s : State) (c : Chan), s.get .CD_HIZ c = 0 → (s.chan c).changing = false → s.overrideOf c = .clear → Does (.cdacUpdate c.half) s fun t =>
      t.get .CD_OUT c = s.clearCode c % 4096 ∧ t.get .CD_AT_CLEAR c = 1) ∧
  (∀ (s : State) (h : Half), s.get .CLRH_CLR_PIN h ≠ 1 → Does (.clrAssert h) s fun t =>
      t.get .CLRH_CLR_PIN h = 1 ∧ t.get .CLRH_CLR_CNT h = min (s.get .CLRH_CLR_CNT h + 1) (2 ^ Fld.width .CLRH_CLR_CNT - 1)
        ∧ ∀ c : Chan, c.half = h → (s.chan c).changing = false → s.get .CD_HIZ c ≠ 1 → s.laserOf c = none → t.get .CD_OUT c = s.get .CD_CLR_CODE c % 4096) ∧
  (∀ (s : State) (h : Half), Answers (.clrDeassert h) s fun t => t.get .CLRH_CLR_PIN h = 0 ∧ Frame [(.CLRH_CLR_PIN, h)] s t) ∧
  (∀ (s : State) (c : Chan) (v : W32), s.running c.half = true → s.answers c.half = true → s.chanLocked c = false → s.driven c = false → (slots c.half (cdOff c 0)).all (fun x => x.fld.inRange (x.value v.toNat)) = true → (s.setWord c.half (slots c.half (cdOff c 0)) v.toNat).get .CD_MODE c ≠ s.get .CD_MODE c → (s.chan c).changing = false → Does (.cdacModeWrite c v) s fun t =>
      (t.chan c).changing = true ∧ t.get .CD_DISC c = 1 ∧ t.get .CD_AT_CLEAR c = 1 ∧ t.get .CD_OUT c = s.clearCode c % 4096) ∧
  (∀ (s : State) (c : Chan), (s.chan c).changing = true → s.overrideOf c = .none → Does (.cdacReconnect c) s fun t =>
      (t.chan c).changing = false ∧ (t.chan c).mode = s.get .CD_MODE c ∧ t.get .CD_DISC c = 0 ∧ t.get .CD_AT_CLEAR c = 0 ∧ (t.chan c).rest = false
        ∧ Frame [(.CD_DISC, c), (.CD_AT_CLEAR, c)] s t) ∧
  (∀ (s : State) (c : Chan), s.get .CD_HIZ c = 1 → Does (.vctlValid c.half) s fun t =>
      t.get .CD_HIZ c = 0 ∧ t.get .CD_OUT c = s.clearCode c % 4096 ∧ t.get .CD_AT_CLEAR c = 1 ∧ (t.chan c).rest = true) ∧
  (∀ (s : State) (c : Chan), s.porst = false → (s.half c.half).off = false → Does (.vctlInvalid c.half) s fun t =>
      t.get .CD_HIZ c = 1 ∧ (t.chan c).rest = true ∧ ∀ g : Group, g.half = c.half → Cause.groupIo ∈ (t.group g).fences) ∧
  (∀ (limit : Nat) (ds : List Draw), (∀ d ∈ ds, d.fixed = false) → drawSum (·.want) (settleDraws limit ds) ≤ limit) ∧
  (∀ (limit : Nat) (ds : List Draw) (c : Chan), c ∉ ds.map (·.chan) → c ∉ (settleDraws limit ds).map (·.chan))

/-- R483 to R487; the status and reason codes are those of R474 and R475. Completes: cfgWrite, cfgDiscard, bitswap, retrain, fenceRelease, eqCapture, lsLock, safeResume, aprRestart, loopStatus. -/
def Obligations.LaneCommands : Prop :=
  (∀ (s : State) (h : Half) (r : Req), Takes s h .cfgWrite r → ((List.range (reqParam r 0)).map (cfgEntry r)).all (s.cfgOk h r) = true → Does (.cfgWrite h r) s fun t => Completed s t h r ⟨0, 0, 0, 0⟩ ∧ t.ap = s.ap ∧ ∀ f i, f.info.shadow = false → f ≠ .HST_LOCK_FAIL → f.follows = false → t.get f i = s.get f i) ∧
  (∀ (s : State) (h : Half) (r : Req), Takes s h .cfgWrite r → ((List.range (reqParam r 0)).map (cfgEntry r)).all (s.cfgOk h r) = false → Does (.cfgWrite h r) s fun t => Completed s t h r ⟨3, 2, 0, 0⟩ ∧ Frame [] s t) ∧
  (∀ (s : State) (h : Half) (r : Req) (l : Lane), Takes s h .cfgWrite r → reqParam r 0 = 1 → l.val < 8 → r.scope = 4 → r.id.toNat = l.val → cfgEntry r 0 = (0x12004 + 0x40 * l.val, 0x2300, 0x3F00) → Does (.cfgWrite h r) s fun t => Completed s t h r ⟨0, 0, 0, 0⟩ ∧ t.get .FE_SWING l = 0x23 ∧ (.FE_SWING, l.val) ∈ t.written ∧ t.ap = s.ap) ∧
  (∀ (s : State) (h : Half) (r : Req), Takes s h .cfgDiscard r → Does (.cfgDiscard h r) s fun t =>
      Completed s t h r ⟨0, 0, 0, 0⟩ ∧ t.ap = s.ap ∧ (∀ c ∈ t.f, c.fld.info.shadow = true → (s.affected r s.get).holds s s.get c.fld c.idx = true → t.get c.fld c.idx = s.app c.fld c.idx % 2 ^ c.fld.width)
        ∧ t.written = s.written.filter (fun w => !(w.1.info.shadow && (s.affected r s.get).holds s s.get w.1 w.2))) ∧
  (∀ (s : State) (h : Half) (r : Req), Takes s h .bitswap r → s.lmode (reqLane r) ≠ 3 → Does (.bitswap h r) s fun t => Completed s t h r (deniedNow s h .bitswap ⟨3, 4, 0, 0⟩) ∧ Frame [] s t) ∧
  (∀ (s : State) (h : Half) (r : Req), Takes s h .bitswap r → s.lmode (reqLane r) = 3 → s.get .ACQ_STATE (reqLane r) = 3 → Does (.bitswap h r) s fun t =>
      (t.lane (reqLane r)).rxSwap.map (fun w => (w.fromHost, w.sent, w.cmd.isSome)) = some ((reqParam r 0).testBit 0, false, true)
        ∧ t.get .DMT_PEND_RX (reqLane r) = 1 ∧ (t.half h).cpls = (s.half h).cpls ∧ Frame [] s t) ∧
  (∀ (s : State) (h : Half) (r : Req), Takes s h .retrain r → Does (.retrain h r) s fun t =>
      (t.half h).commits.map (fun k => (k.lanes, k.cells, k.cmd.isSome)) = (s.half h).commits.map (fun k => (k.lanes, k.cells, k.cmd.isSome)) ++ [(s.scopeLanes r, [], true)]
        ∧ (t.half h).cpls = (s.half h).cpls ∧ Frame [] s t) ∧
  (∀ (s : State) (h : Half) (r : Req), Takes s h .fenceRelease r → s.causes (reqUnit r) = [] → Does (.fenceRelease h r) s fun t => Completed s t h r (deniedNow s h .fenceRelease ⟨3, 6, 0, 0⟩) ∧ Frame [] s t) ∧
  (∀ (s : State) (h : Half) (r : Req) (ks : List Cause), Takes s h .fenceRelease r → (s.namedCauses (reqUnit r) (reqParam r 0)).toOption = some ks → ks.findSome? (s.releaseFault (reqUnit r) (Config.stillBright s.draw.1)) = none → Does (.fenceRelease h r) s fun t =>
      (∀ k ∈ ks, k ∉ t.causes (reqUnit r)) ∧ (∀ k ∈ s.causes (reqUnit r), k ∉ ks → k ∈ t.causes (reqUnit r)) ∧ (r.tag, 0, 0, (timedNow s h 0).lo, (timedNow s h 0).hi) ∈ (t.half h).cpls.map Cpl.says) ∧
  (∀ (s : State) (h : Half) (r : Req), Takes s h .eqCapture r → (s.scopeLanes r).all s.inData = true → (s.scopeLanes r) ≠ [] → Does (.eqCapture h r) s fun t =>
      (t.half h).capWait.map (·.2) = (s.half h).capWait.map (·.2) ++ [s.scopeLanes r] ∧ (∀ l ∈ s.scopeLanes r, (t.lane l).capture = true)
        ∧ (t.half h).cpls = (s.half h).cpls ∧ Frame [] s t) ∧
  (∀ (s : State) (h : Half) (r : Req), Takes s h .lsLock r → s.get .LSH_LOCK h ≠ 1 → Does (.lsLock h r) s fun t => Completed s t h r ⟨0, 0, 0, 0⟩ ∧ t.get .LSH_LOCK h = 1 ∧ t.get .LSH_SOFF_RESUME h = reqParam r 0 % 2 ∧ Frame [(.LSH_LOCK, h), (.LSH_SOFF_RESUME, h)] s t) ∧
  (∀ (s : State) (h : Half) (r : Req), Takes s h .lsLock r → s.get .LSH_LOCK h = 1 → Does (.lsLock h r) s fun t => Completed s t h r ⟨3, 8, 0, 0⟩ ∧ Frame [] s t) ∧
  (∀ (s : State) (h : Half) (r : Req), Takes s h .safeResume r → (∀ k ∈ reqHalves r, s.get .LSH_SOFF_PIN k = 1 ∧ s.get .LSH_SOFF_HELD k = 1 ∧ s.get .LSH_SOFF_RESUME k ≠ 1) → Does (.safeResume h r) s fun t => Completed s t h r ⟨0, 0, 0, 0⟩ ∧ (∀ k ∈ reqHalves r, t.get .LSH_SOFF_HELD k = 0) ∧ Frame ((reqHalves r).map fun k => (.LSH_SOFF_HELD, k.val)) s t) ∧
  (∀ (s : State) (h : Half) (r : Req), Takes s h .safeResume r → r.scope = 1 → reqHalf r = h → s.get .LSH_SOFF_PIN h ≠ 1 → Does (.safeResume h r) s fun t => Completed s t h r ⟨3, 9, 0, 0⟩ ∧ Frame [] s t) ∧
  (∀ (s : State) (h : Half) (r : Req), Takes s h .aprRestart r → (s.lane (reqLane r)).apr = .hold → Does (.aprRestart h r) s fun t => Completed s t h r ⟨0, 0, 0, 0⟩ ∧ (t.lane (reqLane r)).apr = .pulse ∧ Frame [] s t) ∧
  (∀ (s : State) (h : Half) (r : Req), Takes s h .aprRestart r → (s.lane (reqLane r)).apr ≠ .hold → Does (.aprRestart h r) s fun t => Completed s t h r ⟨3, 3, 0, 0⟩ ∧ Frame [] s t) ∧
  (∀ (s : State) (h : Half) (r : Req) (x : Ctx), Takes s h .loopStatus r → x.val = 32 * r.id.toNat + reqParam r 0 % 32 → Does (.loopStatus h r) s fun t => Completed s t h r ⟨0, 0, s.readFields h (0x1A080 + 0x10000 * (x.val / 32 % 3) + 0x100 * (x.val % 32)), s.get .CTX_O_NOW x⟩ ∧ Frame [] s t)

/-- R354 to R361 and the hot mark of R366; temperatures are in 1/64 °C (R356): −40 °C to 125 °C is −2560 to 8000. Completes: dieSensorConversion, engineSensorConversion, aonRetrim. -/
def Obligations.SensorReadings : Prop :=
  (∀ (s : State) (d : DieSensor) (x : Int), (s.half d.half).off = false → s.get .DS_FAULT d ≠ 1 → -2560 ≤ x → x ≤ 8000 → s.farFromPeers d x = false → Does (.dieSensorConversion d x) s fun t =>
      t.get .DS_VALID d = 1 ∧ t.getS .DS_TEMP d = x ∧ (t.die d).last = (x :: (s.die d).last).take 40
        ∧ (∀ m, maxInt (t.validTemps d.half) = some m → t.get .THM_HOTTEST d.half = ofSigned 16 m) ∧ FieldsKept [(.DS_VALID, d), (.DS_FAULT, d), (.DS_TEMP, d), (.THM_HOTTEST, d.half), (.THG_TG, 3 * d.half.val + d.val % 16 / 5)] s t) ∧
  (∀ (s : State) (d : DieSensor) (x : Int) (g : Group), (s.half d.half).off = false → g.val = 3 * d.half.val + d.val % 16 / 5 → d.val % 16 ≠ 15 → Does (.dieSensorConversion d x) s fun t =>
      ∀ m, maxInt (t.regionMeans g) = some m → t.get .THG_TG g = ofSigned 16 m) ∧
  (∀ (s : State) (d : DieSensor) (x : Int), (s.half d.half).off = false → s.get .DS_FAULT d ≠ 1 → x < -2560 ∨ 8000 < x → Does (.dieSensorConversion d x) s fun t =>
      t.get .DS_FAULT d = 1 ∧ t.get .DS_VALID d = 0 ∧ t.get .DS_TEMP d = s.get .DS_TEMP d ∧ (t.die d).last = [] ∧ FieldsKept [(.DS_VALID, d), (.DS_FAULT, d), (.DS_TEMP, d), (.THM_HOTTEST, d.half), (.THG_TG, 3 * d.half.val + d.val % 16 / 5)] s t) ∧
  (∀ (s : State) (e : EngSensor) (a b c : Nat) (x : Int), s.get .ENG_EN e = 1 → s.sensesEngine e.group = true → s.get .ENG_FAULT e = 0 ∨ 100 ≤ (s.eng e).good + 1 → e.val % 4 < 2 → x = diodeTemp a b c (s.get .ENG_BETA_NF e % 256) → -2560 ≤ x → x ≤ 9600 → Does (.engineSensorConversion e (.diode a b c)) s fun t =>
      t.getS .ENG_TEMP e = x ∧ t.get .ENG_VALID e = 1 ∧ t.get .ENG_FAULT e = 0 ∧ t.get .ENG_RES e = s.get .ENG_RES e
        ∧ (e.val % 4 = 0 → 64 * s.get .THG_ENG_HI e.group < x → t.get .THG_ENG_HOT e.group = 1 ∨ (s.eng e).hot = true) ∧ FieldsKept [(.ENG_FAULT, e), (.ENG_VALID, e), (.ENG_TEMP, e), (.ENG_RES, e), (.THG_ENG_HOT, e.group)] s t) ∧
  (∀ (s : State) (e : EngSensor) (r : Nat), s.get .ENG_EN e = 1 → s.sensesEngine e.group = true → s.get .ENG_FAULT e = 0 ∨ 100 ≤ (s.eng e).good + 1 → 2 ≤ e.val % 4 → 10 ≤ r → r ≤ 100000 → Does (.engineSensorConversion e (.thermistor r)) s fun t =>
      t.getS .ENG_TEMP e = betaTemp r (s.get .ENG_RES25 e) (s.get .ENG_BETA_NF e) ∧ t.get .ENG_VALID e = 1 ∧ t.get .ENG_FAULT e = 0
        ∧ t.get .ENG_RES e = min r 65535 ∧ FieldsKept [(.ENG_FAULT, e), (.ENG_VALID, e), (.ENG_TEMP, e), (.ENG_RES, e), (.THG_ENG_HOT, e.group)] s t) ∧
  (∀ (s : State) (e : EngSensor) (r : EngReading), s.get .ENG_EN e = 1 → s.sensesEngine e.group = true → s.get .ENG_FAULT e = 0 → r = .open ∨ r = .short → Does (.engineSensorConversion e r) s fun t =>
      t.get .ENG_FAULT e = (if r = .open then 1 else 2) ∧ t.get .ENG_VALID e = 0 ∧ t.get .ENG_TEMP e = s.get .ENG_TEMP e ∧ FieldsKept [(.ENG_FAULT, e), (.ENG_VALID, e), (.ENG_TEMP, e), (.ENG_RES, e), (.THG_ENG_HOT, e.group)] s t) ∧
  (∀ (s : State) (e : EngSensor) (r : EngReading), s.get .ENG_EN e = 1 → s.sensesEngine e.group = true → s.get .ENG_FAULT e ≠ 0 → (s.eng e).good + 1 < 100 → Does (.engineSensorConversion e r) s fun t =>
      t.get .ENG_FAULT e = s.get .ENG_FAULT e ∧ t.get .ENG_VALID e = s.get .ENG_VALID e ∧ t.get .ENG_TEMP e = s.get .ENG_TEMP e ∧ FieldsKept [(.ENG_FAULT, e), (.ENG_VALID, e), (.ENG_TEMP, e), (.ENG_RES, e), (.THG_ENG_HOT, e.group)] s t) ∧
  (∀ (s : State) (e : EngSensor) (r : EngReading), s.get .ENG_EN e ≠ 1 → exec (.engineSensorConversion e r) s = .next (settle s)) ∧
  (∀ (s : State) (h : Half), s.validTemps h ≠ [] → Does (.aonRetrim h) s fun t => (t.half h).retrim = some (meanOf (s.validTemps h)) ∧ ((s.half h).osc.natAbs ≤ 200 → ((t.half h).osc - (s.half h).osc).natAbs ≤ 5) ∧ (t.half h).osc.natAbs ≤ 200 ∧ (t.half h).bandgap.natAbs ≤ 100 ∧ Frame [] s t)

/-- R361 to R366. An injection that acts on a port that the fence step fences ends with it (R558), hence the last alternative of the frame. R367 and R368; group states are numbered as in R543 (3 G-DORMANT). 100 ms are 25,000,000 time ticks. Completes: throttleTick, thermalTrip, thermtripPinTrip, thermtripPinHigh, thermalTripClear. -/
def Obligations.ThrottlingAndTrip : Prop :=
  (∀ (s : State) (g : Group), s.running g.half = true → s.kndOut (grpKnd g 15) = false → s.groupFenced g = false → Does (.throttleTick g) s fun t =>
      t.get .THG_TG g = ofSigned 16 (s.groupTemp g).1 ∧ t.get .THG_TE g = ofSigned 16 (nextTe (s.groupTemp g).1 (s.getS .THG_TE g))
        ∧ t.get .THG_S g = sOf ((g.lanes.filter t.eligible).map fun l => s.app .EQ_EFFORT_MAX l).sum (t.getS .THG_TE g) (64 * s.get .THM_TT g.half) % 64
        ∧ t.get .THG_USED g = ((g.lanes.filter t.eligible).map fun l => (t.lane l).throttle).sum % 64
        ∧ (∀ l ∈ g.lanes, (t.eligible l = true → (t.lane l).throttle ≤ s.app .EQ_EFFORT_MAX l) ∧ (t.eligible l = false → (t.lane l).throttle = 0))
        ∧ t.get .THG_STAGE g = (if (t.thermalPorts g).length ≠ 0 then 2 else if t.get .THG_S g = 0 then 0 else 1)
        ∧ t.get .THG_TFENCED g = (t.thermalPorts g).length % 16
        ∧ (FieldsKept [(.THG_TG, g), (.THG_TE, g), (.THG_SENS_FAULT, g), (.THG_S, g), (.THG_C, g), (.THG_USED, g), (.THG_THR_TICKS, g), (.THG_STAGE, g), (.THG_STAGE_CHG, g), (.THG_TFENCED, g), (.THG_TFENCE, g)] s t
          ∨ (fiSlots g.half).any (fun i => s.get .FIS_ACTIVE i == 1) = true)) ∧
  (∀ (s : State) (g : Group) (p : Lane), s.running g.half = true → s.kndOut (grpKnd g 15) = false → s.groupFenced g = false → s.groupTemp g = (tf, false, false) → s.get .THM_TRIP g.half ≠ 1 → (g.lanes.filter fun (q : Lane) => s.app .PORT_EN q == 1 && (s.port q).fences.isEmpty) = [p] → Does (.throttleTick g) s fun t =>
      Cause.thermal ∈ (t.port p).fences ∧ t.get .THG_TFENCE g = 1 ∧ t.get .THG_STAGE g = 2) ∧
  (∀ (s : State) (g : Group), s.kndOut (grpKnd g 15) = true → exec (.throttleTick g) s = .next (settle s)) ∧
  (∀ (c : Nat) (te : Int) (tt : Int), tt < te → te < tf → (sOf c te tt : Int) ≤ c ∧ (c : Int) * (te - tt) ≤ sOf c te tt * (tf - tt) ∧ ((sOf c te tt : Int) - 1) * (tf - tt) < c * (te - tt)) ∧
  (∀ (c : Nat) (te : Int) (tt : Int), (te ≤ tt → sOf c te tt = 0) ∧ (tt < te → tf ≤ te → sOf c te tt = c)) ∧
  (∀ (s : State) (d : DieSensor), (s.half d.half).off = false → s.porst = false → s.get .THM_TRIP d.half ≠ 1 → (s.half d.half).dev = none → Does (.thermalTrip d) s fun t =>
      t.get .THM_TRIP d.half = 1 ∧ t.get .THM_TRIP_SRC d.half = 0 ∧ t.get .THM_TRIP_SENSOR d.half = d.val % 16 ∧ (∀ k : Half, t.get .THM_TT_PIN k = 1)
        ∧ ∀ g : Group, g.half = d.half → t.get .PG_STATE g = 3 ∧ t.get .THG_S g = 0 ∧ t.get .THG_USED g = 0
          ∧ ∀ l ∈ g.lanes, (t.lane l).throttle = 0) ∧
  (∀ (s : State) (d : DieSensor), s.get .THM_TRIP d.half = 1 → exec (.thermalTrip d) s = .next (settle s)) ∧
  (∀ (s : State) (h : Half), (s.half h).off = false → s.porst = false → s.get .THM_TRIP h ≠ 1 → (s.half h).dev = none → (s.half h).pinArmed = true → Does (.thermtripPinTrip h) s fun t =>
      t.get .THM_TRIP h = 1 ∧ t.get .THM_TRIP_SRC h = 1 ∧ ∀ g : Group, g.half = h → t.get .PG_STATE g = 3) ∧
  (∀ (s : State) (h : Half), (s.half h).off = false → s.porst = false → (s.half h).pinArmed = false → Does (.thermtripPinTrip h) s fun t => t.get .THM_TRIP h = s.get .THM_TRIP h ∧ t.get .THM_TT_PIN h = 1 ∧ Frame [(.THM_TT_PIN, h)] s t) ∧
  (∀ (s : State) (h : Half), (∀ k : Half, s.get .THM_TRIP k ≠ 1) → Does (.thermtripPinHigh h) s fun t => (t.half h).pinArmed = true ∧ t.get .THM_TT_PIN h = 0 ∧ Frame [(.THM_TT_PIN, h)] s t) ∧
  (∀ (s : State) (h : Half) (v : W32) (k : Nat), s.running h = true → s.answers h = true → v.toNat.testBit 0 = true → s.get .THM_TRIP h = 1 → (s.half h).coolSince = some k → k + 25000000 ≤ s.ticks h → Does (.thermalTripClear h v) s fun t =>
      t.get .THM_TRIP h = 0 ∧ (t.half h).pinArmed = false ∧ (∀ j : Half, t.get .THM_TT_PIN j = (if ∃ m : Half, m ≠ h ∧ s.get .THM_TRIP m = 1 then 1 else 0))
        ∧ Frame [(.THM_TRIP, h), (.THM_TT_PIN, 0), (.THM_TT_PIN, 1)] s t) ∧
  (∀ (s : State) (h : Half) (v : W32), s.running h = true → s.answers h = true → s.get .THM_TRIP h = 1 → (s.half h).coolSince = none → Does (.thermalTripClear h v) s fun t => t.get .THM_TRIP h = 1 ∧ Frame [] s t)

/-- R369 to R373. The points of a trim lie at −5 °C to 105 °C; 320 counts are 5 °C and 16 counts 0.25 °C. Completes: monitorAdcCalibration, cdacDriftCheck, calibrationStarved, trimReapply. -/
def Obligations.Calibrations : Prop :=
  (∀ (s : State) (h : Half) (cal : CalResult), s.running h = true → calAgrees cal 3 = false → Does (.monitorAdcCalibration h cal) s fun t =>
      t.get .CALH_MON_DIS h = 1 ∧ t.get .CALH_MON_DIS_CNT h = min (s.get .CALH_MON_DIS_CNT h + 1) 65535 ∧ t.trims = s.trims
        ∧ Frame [(.CALH_MON_DIS, h), (.CALH_MON_DIS_CNT, h)] s t) ∧
  (∀ (s : State) (h : Half) (cal : CalResult), s.running h = true → calAgrees cal 3 = true → Does (.monitorAdcCalibration h cal) s fun t =>
      t.get .CALH_MON_CAL_CNT h = (s.get .CALH_MON_CAL_CNT h + 1) % 2 ^ 32
        ∧ t.trim 3 h 0 = (s.trim 3 h 0).pass (s.getS .THM_HOTTEST h) cal.run2.offset
        ∧ t.trim 3 h 1 = (s.trim 3 h 1).pass (s.getS .THM_HOTTEST h) cal.run2.gain ∧ (t.half h).slotAt = s.ticks h
        ∧ Frame [(.CALH_MON_CAL_CNT, h), (.PH_AREA_OK, h), (.PH_USED_KIB, h)] s t) ∧
  (∀ (s : State) (h : Half) (cal : CalResult), s.running h = false → exec (.monitorAdcCalibration h cal) s = .next (settle s)) ∧
  (∀ (x : Trim) (t v : Int), x.pts.length = 5 → (∃ i : Fin 5, (trimTemps.getD i 0 - t).natAbs ≤ 320) → -320 ≤ t → t ≤ 6720 → (x.pass t v).res = 0) ∧
  (∀ (x : Trim) (t v : Int), (∀ i : Fin 5, 320 < (trimTemps.getD i 0 - t).natAbs) → (x.pass t v).pts = x.pts ∧ (x.pass t v).value t = v) ∧
  (∀ (s : State) (c : Chan) (v : Int), 4 < (v - s.get .CD_OUT c).natAbs → Does (.cdacDriftCheck c v) s fun t =>
      t.get .CALH_CDAC_DRIFT c.half = 1 ∧ t.get .CALH_DRIFT_CH c.half = c.val % 80 ∧ t.get .CALH_CDAC_DRIFT_CNT c.half = min (s.get .CALH_CDAC_DRIFT_CNT c.half + 1) 65535
        ∧ Frame [(.CALH_CDAC_DRIFT, c.half), (.CALH_DRIFT_CH, c.half), (.CALH_CDAC_DRIFT_CNT, c.half)] s t) ∧
  (∀ (s : State) (c : Chan) (v : Int), (v - s.get .CD_OUT c).natAbs ≤ 4 → Does (.cdacDriftCheck c v) s fun t => (t.half c.half).slotAt = s.ticks c.half ∧ t.get .CALH_CDAC_DRIFT_CNT c.half = s.get .CALH_CDAC_DRIFT_CNT c.half ∧ Frame [] s t) ∧
  (∀ (s : State) (h : Half), s.running h = true → (s.half h).slotAt + msTicks 10000 ≤ s.ticks h → Does (.calibrationStarved h) s fun t => t.get .CALH_CAL_STARVED h = 1 ∧ Frame [(.CALH_CAL_STARVED, h)] s t) ∧
  (∀ (s : State) (h : Half), s.running h = false ∨ s.ticks h < (s.half h).slotAt + msTicks 10000 → exec (.calibrationStarved h) s = .next (settle s)) ∧
  (∀ (s : State) (g : Group) (a : Rat), (s.group g).trimTemp = some a → Does (.trimReapply g) s fun t =>
      let goal := if 16 ≤ (s.tg g - (s.group g).trimGoal).natAbs then s.tg g else (s.group g).trimGoal
      (t.group g).trimGoal = goal ∧ (t.group g).trimTemp = some (if a = goal then a else s.trimStep g a 40 goal) ∧ Frame [] s t) ∧
  (∀ (s : State) (g : Group), (s.group g).trimTemp = none → Does (.trimReapply g) s fun t => (t.group g).trimTemp = some ((s.tg g : Int) : Rat) ∧ (t.group g).trimGoal = s.tg g ∧ Frame [] s t) ∧
  (∀ (s : State) (g : Group) (a b : Rat) (n : Nat), s.smallMove g a b = true → s.trimStep g a (n + 1) b = b)

/-- R488 to R490, R544 and R546; an immediate snapshot latches 1 µs ahead, 250 ticks (R36). Completes: cntClear, monRead, eventFilter, subscribe, unsubscribe, snapshot. -/
def Obligations.CountersAndEvents : Prop :=
  (∀ (s : State) (h : Half) (r : Req), Takes s h .cntClear r → Does (.cntClear h r) s fun t =>
      (t.half h).clrWait.map (·.2) = (s.half h).clrWait.map (·.2) ++ [s.scopeLanes r] ∧ (∀ l ∈ s.scopeLanes r, (t.lane l).clear = true) ∧ (t.half h).cpls = (s.half h).cpls ∧ Frame [] s t) ∧
  (∀ (s : State) (h : Half) (r : Req), Takes s h .monRead r → Does (.monRead h r) s fun t => Completed s t h r ⟨0, 0, s.readFields h (0x51008 + 0x10 * reqParam r 0), s.readFields h (0x5100C + 0x10 * reqParam r 0)⟩ ∧ Frame [] s t) ∧
  (∀ (s : State) (h : Half) (r : Req), Takes s h .eventFilter r → reqParam r 0 % 65536 ≠ 0xFFFF → Does (.eventFilter h r) s fun t =>
      Completed s t h r ⟨0, 0, 0, 0⟩ ∧ (∀ k ∈ reqHalves r, (t.half k).filter (reqParam r 0 % 65536) = reqParam r 0 / 65536)
        ∧ (∀ c, c ≠ reqParam r 0 % 65536 → ∀ k : Half, (t.half k).filter c = (s.half k).filter c) ∧ Frame [] s t) ∧
  (∀ (s : State) (h : Half) (r : Req), Takes s h .eventFilter r → reqParam r 0 % 65536 = 0xFFFF → Does (.eventFilter h r) s fun t => Completed s t h r ⟨0, 0, 0, 0⟩ ∧ (∀ k ∈ reqHalves r, (t.half k).filtAll = reqParam r 0 / 65536 ∧ (t.half k).filters = (s.half k).filters) ∧ Frame [] s t) ∧
  (∀ (s : State) (h : Half) (r : Req), Takes s h .subscribe r → Does (.subscribe h r) s fun t =>
      (t.half h).subs = (s.half h).subs ++ [⟨(s.half h).freeSub, s.scopeLanes r, reqParam r 0, (s.now h + 1000 + reqParam r 0 * 1000000 - 1) / (reqParam r 0 * 1000000) * (reqParam r 0 * 1000000)⟩]
        ∧ Completed s t h r ⟨0, 0, (s.half h).freeSub, 0⟩ ∧ Frame [] s t) ∧
  (∀ (s : State) (h : Half) (r : Req), Takes s h .unsubscribe r → (s.half h).subs.any (fun x => x.id == reqParam r 0) = true → Does (.unsubscribe h r) s fun t => (t.half h).subs = (s.half h).subs.filter (fun x => x.id != reqParam r 0) ∧ Completed s t h r ⟨0, 0, 0, 0⟩ ∧ Frame [] s t) ∧
  (∀ (s : State) (h : Half) (r : Req), Takes s h .unsubscribe r → (s.half h).subs.any (fun x => x.id == reqParam r 0) = false → Does (.unsubscribe h r) s fun t => Completed s t h r ⟨3, 5, 0, 0⟩ ∧ Frame [] s t) ∧
  (∀ (s : State) (h : Half) (r : Req), Takes s h .snapshot r → Does (.snapshot h r) s fun t =>
      (∀ k ∈ reqHalves r, (t.half k).snaps.map (fun x => (x.due, x.lanes, x.latched))
          = (s.half k).snaps.map (fun x => (x.due, x.lanes, x.latched)) ++ [(s.ticks k + 250, (s.scopeLanes r).filter (fun l => l.half == k), false)])
        ∧ (t.half h).cpls = (s.half h).cpls
        ∧ Frame [(.TIME_PEND_ALL, 0), (.TIME_PEND_COMMIT, 0), (.TIME_PEND_SNAP, 0), (.TIME_PEND_ALL, 1), (.TIME_PEND_COMMIT, 1), (.TIME_PEND_SNAP, 1)] s t)

/-- R382 and R383 in units of 2^-28 ns: 2^28 are 1 ns. The servo correction of half B (R385, R386) is part of the advance. R383, R384 and the ranges of R404; 0x53 is the reason of a write that half B ignores (R475). Completes: timeTick, timeAddendWrite, timeSlewWrite, timeStepWrite, timeStepApply. -/
def Obligations.TimeBase : Prop :=
  (∀ (y : HalfS) (rate : Nat), y.ns < 1000000000 → y.sec + 1 < 2 ^ 48 → 0 ≤ (y.frac : Int) + y.advance rate → (y.frac : Int) + y.advance rate < 1000000000 * 2 ^ 28 → (((y.tick rate).sec * 1000000000 + (y.tick rate).ns : Nat) : Int) * 2 ^ 28 + (y.tick rate).frac
        = ((y.sec * 1000000000 + y.ns : Nat) : Int) * 2 ^ 28 + y.frac + y.advance rate
      ∧ (y.tick rate).ns < 1000000000 ∧ (y.tick rate).frac < 2 ^ 28 ∧ (y.tick rate).ticks = y.ticks + 1) ∧
  (∀ (m : Int) (rate addend : Nat), (slewTerm m rate addend).natAbs = min m.natAbs (rate * addend / 1000000) ∧ (m - slewTerm m rate addend).natAbs ≤ m.natAbs ∧ 0 ≤ m * slewTerm m rate addend) ∧
  (∀ (s : State) (h : Half), h = halfA ∨ s.get .BR_STATE halfB ≠ 0 → (s.half h).clock = true → (s.half h).pendAddend = none → (s.half h).pendSlew = none → (s.half h).rejoinSlew = false → Does (.timeTick h) s fun t =>
      (t.half h).sec = ((s.half h).tick (s.get .TIME_RATE h)).sec ∧ (t.half h).ns = ((s.half h).tick (s.get .TIME_RATE h)).ns
        ∧ (t.half h).frac = ((s.half h).tick (s.get .TIME_RATE h)).frac ∧ (t.half h).remain = ((s.half h).tick (s.get .TIME_RATE h)).remain
        ∧ (t.half h).ticks = s.ticks h + 1 ∧ (t.half h).aon = (s.half h).aon + 1 ∧ t.half (otherHalf h) = s.half (otherHalf h)
        ∧ ((s.half h).remain ≠ 0 → (t.half h).remain = 0 → t.get .TIME_SLEW_DONE h = 1)
        ∧ (∀ k : Fin 4, t.get .PC_CYC (4 * h.val + k.val) = (s.get .PC_CYC (4 * h.val + k.val) + 3) % 2 ^ 64)
        ∧ FieldsKept [(.TIME_SLEW_DONE, h), (.TIME_REMAIN, h), (.TIME_ACTIVE, h), (.PC_CYC, 4 * h.val), (.PC_CYC, 4 * h.val + 1), (.PC_CYC, 4 * h.val + 2), (.PC_CYC, 4 * h.val + 3)] s t) ∧
  (∀ (s : State) (h : Half) (a : Nat) (n : Int), h = halfA ∨ s.get .BR_STATE halfB ≠ 0 → (s.half h).clock = true → (s.half h).pendAddend = some a → (s.half h).pendSlew = some n → n ≠ 0 → 50 * a < 1000000 * (n * 2 ^ 28).natAbs → s.get .TIME_RATE h ≤ 50 → Does (.timeTick h) s fun t =>
      (t.half h).addend = a ∧ (t.half h).pendAddend = none ∧ (t.half h).pendSlew = none
        ∧ (t.half h).remain = n * 2 ^ 28 - slewTerm (n * 2 ^ 28) (s.get .TIME_RATE h) a ∧ t.get .TIME_ACTIVE h = 1) ∧
  (∀ (s : State), s.get .BR_STATE halfB = 0 → (s.half halfA).clock = true → (s.half halfB).clock = true → (s.half halfB).rejoinSlew = false → Does (.timeTick halfB) s fun t =>
      (t.half halfB).addend = (s.half halfA).addend ∧ t.get .TIME_ADDEND halfB = (s.half halfA).addend % 2 ^ 32
        ∧ (t.half halfB).follow = slewTerm (s.half halfA).remain (s.get .TIME_RATE halfA) (s.half halfA).addend
        ∧ (t.half halfB).ticks = s.ticks halfB + 1 ∧ t.half halfA = s.half halfA) ∧
  (∀ (s : State) (h : Half), (s.half h).clock = false → Does (.timeTick h) s fun t => (t.half h).aon = (s.half h).aon + 1 ∧ (t.half h).ticks = (s.half h).ticks ∧ (t.half h).ns = (s.half h).ns ∧ Frame [] s t) ∧
  (∀ (s : State) (v : W32), s.running halfA = true → s.answers halfA = true → s.get .BR_STATE halfA = 0 → 0x3FFE5C92 ≤ v.toNat → v.toNat ≤ 0x4001A36E → Does (.timeAddendWrite halfA v) s fun t =>
      t.get .TIME_ADDEND halfA = v.toNat ∧ (t.half halfA).pendAddend = some v.toNat ∧ (t.half halfA).addend = (s.half halfA).addend ∧ Frame [(.TIME_ADDEND, halfA)] s t) ∧
  (∀ (s : State) (v : W32), s.running halfA = true → s.answers halfA = true → v.toNat < 0x3FFE5C92 ∨ 0x4001A36E < v.toNat → Does (.timeAddendWrite halfA v) s fun t => (t.half halfA).pendAddend = (s.half halfA).pendAddend ∧ Frame [] s t) ∧
  (∀ (s : State) (v : W32), s.running halfB = true → s.answers halfB = true → s.manages halfB = true → (s.half halfB).filter 0x0106 ≤ 1 → Does (.timeAddendWrite halfB v) s fun t =>
      (t.half halfB).pendAddend = (s.half halfB).pendAddend ∧ Posted s t halfB 0x0106 1 0x60004 0x53 ∧ Frame [] s t) ∧
  (∀ (s : State) (v : W32), s.running halfA = true → s.answers halfA = true → s.get .BR_STATE halfA = 0 → (toSigned 32 v.toNat).natAbs ≤ 1000000000 → Does (.timeSlewWrite halfA v) s fun t =>
      (t.half halfA).pendSlew = some (toSigned 32 v.toNat) ∧ (t.half halfA).remain = (s.half halfA).remain ∧ Frame [] s t) ∧
  (∀ (s : State) (v : W32) (h : Half), s.running h = true → s.answers h = true → (s.timeBlocked h).isSome = true → Does (.timeSlewWrite h v) s fun t => (t.half h).pendSlew = (s.half h).pendSlew ∧ Frame [] s t) ∧
  (∀ (s : State) (v : W32), s.running halfA = true → s.answers halfA = true → s.get .BR_STATE halfA = 0 → 1 ≤ v.toNat % 512 → v.toNat % 512 ≤ 500 → v.toNat.testBit 31 = true → (s.half halfA).step = none → Does (.timeStepWrite halfA v) s fun t =>
      (t.half halfA).step = some ⟨s.get .TIME_SET_SEC_LO halfA + 2 ^ 32 * s.get .TIME_SET_SEC_HI halfA, s.get .TIME_SET_NS halfA, v.toNat.testBit 30, []⟩
        ∧ t.get .TIME_PPS_WIDTH halfA = v.toNat % 512 ∧ (t.half halfA).ns = (s.half halfA).ns ∧ (t.half halfA).sec = (s.half halfA).sec
        ∧ FieldsKept [(.TIME_PPS_WIDTH, halfA), (.TIME_AT_SECOND, halfA), (.TIME_PPS_OUT_EN, halfA), (.TIME_PPS_EVT_EN, halfA)] s t) ∧
  (∀ (s : State) (v : W32), s.running halfA = true → s.answers halfA = true → v.toNat % 512 = 0 ∨ 500 < v.toNat % 512 → Does (.timeStepWrite halfA v) s fun t => (t.half halfA).step = (s.half halfA).step ∧ Frame [] s t) ∧
  (∀ (s : State) (r : StepReq), (s.half halfA).step = some r → (s.half halfA).clock = true → r.atSecond = false ∨ (s.half halfA).wrapped = true → r.cmds = [] → Does (.timeStepApply halfA) s fun t =>
      (t.half halfA).sec = r.sec ∧ (t.half halfA).ns = r.ns ∧ (t.half halfA).frac = 0 ∧ (t.half halfA).remain = 0 ∧ (t.half halfA).step = none
        ∧ t.get .TIME_STEP_DONE halfA = 1 ∧ t.get .TIME_STEP_CNT halfA = (s.get .TIME_STEP_CNT halfA + 1) % 65536 ∧ t.get .TIME_ACTIVE halfA = 0
        ∧ (s.get .BR_STATE halfB = 0 → (s.half halfB).clock = true → (t.half halfB).sec = r.sec ∧ (t.half halfB).ns = r.ns)) ∧
  (∀ (s : State) (r : StepReq) (h : Half), (s.half h).step = some r → r.atSecond = true → (s.half h).wrapped = false → exec (.timeStepApply h) s = .next (settle s))

/-- R387, R388 and the capture registers of R405; FRAC is the top 16 bits of the 28-bit fraction. Completes: timeFracRead, ppsInEdge, ppsLost, ppsFracRead, ppsOutPulseEnd. -/
def Obligations.TimeCaptures : Prop :=
  (∀ (s : State) (h : Half), s.running h = true → s.answers h = true → Does (.timeFracRead h) s fun t =>
      t.out = .read h 0x60010 ((s.half h).frac / 4096) :: s.out ∧ t.get .TIME_NS h = (s.half h).ns % 2 ^ 30 ∧ t.get .TIME_SEC_LO h = (s.half h).sec % 2 ^ 32
        ∧ t.get .TIME_SEC_HI h = (s.half h).sec / 2 ^ 32 % 2 ^ 16 ∧ Frame [(.TIME_FRAC, h), (.TIME_NS, h), (.TIME_SEC_LO, h), (.TIME_SEC_HI, h)] s t) ∧
  (∀ (s : State), Does .ppsInEdge s fun t =>
      (t.half halfA).ppsEdge = s.ticks halfA ∧
      (t.half halfA).ppsSec = (s.half halfA).sec ∧ (t.half halfA).ppsNs = (s.half halfA).ns ∧ (t.half halfA).ppsFrac = (s.half halfA).frac / 4096
        ∧ t.get .TIME_PPS_IN_EDGE halfA = 1 ∧ t.get .TIME_PPS_LOST halfA = 0 ∧ Frame [(.TIME_PPS_IN_EDGE, halfA), (.TIME_PPS_LOST, halfA)] s t) ∧
  (∀ (s : State), (s.half halfA).ppsSeen = true → (s.half halfA).ppsEdge + msTicks 1100 ≤ s.ticks halfA → (s.half halfA).filter 0x010C ≤ 1 → Does .ppsLost s fun t =>
      t.get .TIME_PPS_LOST halfA = 1 ∧ Posted s t halfA 0x010C 1 0 0 ∧ Frame [(.TIME_PPS_LOST, halfA)] s t) ∧
  (∀ (s : State), (s.half halfA).ppsSeen = false ∨ s.ticks halfA < (s.half halfA).ppsEdge + msTicks 1100 → exec .ppsLost s = .next (settle s)) ∧
  (∀ (s : State) (h : Half), s.running h = true → s.answers h = true → Does (.ppsFracRead h) s fun t =>
      t.out = .read h 0x60040 (s.half h).ppsFrac :: s.out ∧ t.get .TIME_PPS_NS h = (s.half h).ppsNs % 2 ^ 30
        ∧ t.get .TIME_PPS_SEC_LO h = (s.half h).ppsSec % 2 ^ 32 ∧ t.get .TIME_PPS_SEC_HI h = (s.half h).ppsSec / 2 ^ 32 % 2 ^ 16
        ∧ Frame [(.TIME_PPS_FRAC, h), (.TIME_PPS_NS, h), (.TIME_PPS_SEC_LO, h), (.TIME_PPS_SEC_HI, h)] s t) ∧
  (∀ (s : State), (s.half halfA).ppsHigh = true → (s.half halfA).ppsAt + msTicks (s.get .TIME_PPS_WIDTH halfA) ≤ (s.half halfA).ticks → Does .ppsOutPulseEnd s fun t => (t.half halfA).ppsHigh = false ∧ t.out = .pps false :: s.out ∧ Frame [] s t) ∧
  (∀ (s : State), (s.half halfA).ppsHigh = false ∨ (s.half halfA).ticks < (s.half halfA).ppsAt + msTicks (s.get .TIME_PPS_WIDTH halfA) → exec .ppsOutPulseEnd s = .next (settle s))

/-- R389 to R399; times are in 2^-16 ns. A message is stamped by `stamps` where R389, R390 and R403 name it. Completes: ptpTransmitMessage, ptpReceiveMessage. -/
def Obligations.EventMessages : Prop :=
  (∀ (s : State) (l p : Lane) (m : PtpMsg), s.accurate p = true → s.stamp p l m false = (((s.half l.half).sec * 1000000000 + (s.half l.half).ns : Nat) : Int) * 65536 + ((s.half l.half).frac / 4096 : Nat)
      + (s.get .FEC_TX_LAT l * 4096 : Nat) + m.offset + s.appS .TSP_TX_CORR p * 4096) ∧
  (∀ (s : State) (l : Lane) (m : PtpMsg), s.stamps l m = none → Does (.ptpTransmitMessage l m) s fun t =>
      t.out = (if s.laneFenced l then s.out else .ptp l m.octets :: s.out) ∧ Frame [] s t) ∧
  (∀ (s : State) (l : Lane) (m : PtpMsg), s.stamps l m = none → Does (.ptpReceiveMessage l m) s fun t =>
      t.out = (if s.laneFenced l then s.out else .ptp l m.octets :: s.out) ∧ Frame [] s t) ∧
  (∀ (s : State) (l p : Lane) (m : PtpMsg), s.stamps l m = some p → s.app .TSP_ONE_STEP p = 1 → m.msgType = 0 → m.twoStep = false → (s.app .TSP_TX_REC p).testBit 0 = false → Does (.ptpTransmitMessage l m) s fun t =>
      t.out = .ptp l (synced m (splitTime (s.stamp p l m false)).1 (splitTime (s.stamp p l m false)).2.1 (m.correction + (splitTime (s.stamp p l m false)).2.2)) :: s.out
        ∧ t.get .TSP_TX_CNT p = (s.get .TSP_TX_CNT p + 1) % 65536 ∧ (t.half l.half).tsq = (s.half l.half).tsq
        ∧ Frame [(.TSP_TX_CNT, p), (.TSP_ACC_OK, p), (.TSP_FCS_BAD, p)] s t) ∧
  (∀ (s : State) (l p : Lane) (m : PtpMsg), s.stamps l m = some p → s.app .TSP_ONE_STEP p = 2 → m.msgType = 0 → m.twoStep = false → (s.app .TSP_TX_REC p).testBit 0 = false → 1000000000 * 65536 ≤ (s.stamp p l m false - (m.originSec * 1000000000 + m.originNs : Nat) * 65536).natAbs → Does (.ptpTransmitMessage l m) s fun t =>
      t.get .TSP_ONE_STEP_ERR p = min (s.get .TSP_ONE_STEP_ERR p + 1) 255 ∧ t.get .TIME_ONE_STEP_ERR l.half = 1
        ∧ t.out.head? = some (.ptp l m.octets)) ∧
  (∀ (s : State) (l p : Lane) (m : PtpMsg), s.stamps l m = some p → s.app .TSP_ONE_STEP p = 2 → m.msgType = 0 → m.twoStep = false → (s.app .TSP_TX_REC p).testBit 0 = false → (s.stamp p l m false - (m.originSec * 1000000000 + m.originNs : Nat) * 65536).natAbs < 1000000000 * 65536 → Does (.ptpTransmitMessage l m) s fun t =>
      t.out = .ptp l (synced m m.originSec m.originNs (m.correction + (s.stamp p l m false - (m.originSec * 1000000000 + m.originNs : Nat) * 65536))) :: s.out) ∧
  (∀ (s : State) (l p : Lane) (m : PtpMsg), s.stamps l m = some p → (s.app .TSP_TX_REC p).testBit m.msgType = true → m.twoStep = true → (s.half l.half).tsq.length < 64 → Does (.ptpTransmitMessage l m) s fun t =>
      (t.half l.half).tsq = (s.half l.half).tsq ++ [tsRecord false p m (splitTime (s.stamp p l m false)) (s.half l.half).holdover (!s.accurate p) false]
        ∧ t.get .TIME_TSQ_FILL l.half = (s.half l.half).tsq.length + 1 ∧ t.get .TSP_TX_CNT p = (s.get .TSP_TX_CNT p + 1) % 65536
        ∧ Frame [(.TSP_TX_CNT, p), (.TSP_ACC_OK, p), (.TIME_TSQ_FILL, l.half)] s t) ∧
  (∀ (s : State) (l p : Lane) (m : PtpMsg), s.stamps l m = some p → s.app .TSP_RX_REC p = 1 → s.app .TSP_RX_INSERT p = 1 → m.over 2 = false → (s.half l.half).tsq.length < 64 → Does (.ptpReceiveMessage l m) s fun t =>
      (t.half l.half).tsq = (s.half l.half).tsq ++ [tsRecord true p m (splitTime (s.stamp p l m true)) (s.half l.half).holdover (!s.accurate p) false]
        ∧ t.out = .ptp l (inserted m (splitTime (s.stamp p l m true)).1 (splitTime (s.stamp p l m true)).2.1) :: s.out
        ∧ t.get .TSP_RX_CNT p = (s.get .TSP_RX_CNT p + 1) % 65536 ∧ t.get .TSP_FCS_BAD p = (if m.fcsBad then min (s.get .TSP_FCS_BAD p + 1) 255 else s.get .TSP_FCS_BAD p)) ∧
  (∀ (s : State) (l p : Lane) (m : PtpMsg), s.stamps l m = some p → s.app .TSP_RX_REC p = 1 → s.app .TSP_RX_INSERT p = 0 → 64 ≤ (s.half l.half).tsq.length → Does (.ptpReceiveMessage l m) s fun t =>
      (t.half l.half).tsq = (s.half l.half).tsq ∧ t.get .TIME_DROP_CNT l.half = min (s.get .TIME_DROP_CNT l.half + 1) (2 ^ 32 - 1) ∧ t.get .TIME_TSQ_OVF l.half = 1
        ∧ Frame [(.TSP_RX_CNT, p), (.TSP_ACC_OK, p), (.TIME_DROP_CNT, l.half), (.TIME_TSQ_OVF, l.half)] s t)

/-- R400 and R401: the 40-bit time is the half's time in ns modulo 2^40. R479 to R482 and R459: a timed completion carries the time of taking and the delay to the effect; TIME_FREQ and TIME_SLEW act at the next tick, 4 ns ahead. Completes: scheduledActionFire, identify, nop, timeFreq, timeSlew, timeStep, schedCancel, commit, commitApply, loopConfigLatch, snapshotLatch. -/
def Obligations.ScheduledAndGeneralCommands : Prop :=
  (∀ (w n : Nat), -(2 ^ 39) ≤ dOf w n ∧ dOf w n < 2 ^ 39 ∧ (dOf w n - ((w : Int) - n)) % 2 ^ 40 = 0) ∧
  (∀ (s : State) (h : Half), s.managing h = true → (s.half h).sched.all (fun a => !a.due (s.now h)) = true → Does (.scheduledActionFire h) s fun t =>
      (t.half h).sched = (s.half h).sched ∧ t.get .TIME_PEND_ALL h = (s.pendingOn h).length % 256
        ∧ Frame [(.TIME_PEND_ALL, 0), (.TIME_PEND_COMMIT, 0), (.TIME_PEND_SNAP, 0), (.TIME_PEND_ALL, 1), (.TIME_PEND_COMMIT, 1), (.TIME_PEND_SNAP, 1)] s t) ∧
  (∀ (s : State) (h : Half), s.managing h = true → (s.half h).sched.all (fun a => a.cmd.op != .timeStep || !a.due (s.now h)) = true → Does (.scheduledActionFire h) s fun t =>
      t = (s.dueActions h).foldl State.fire ((s.modHalf h fun y => { y with sched := y.sched.filter fun a => a ∉ s.dueActions h }).showPending h)) ∧
  (∀ (s : State) (h : Half) (r : Req) (w : Nat), s.managing h = true → s.manages h = true → (s.half h).sched = [⟨⟨.nop, r, h, h, 0, 0, 0, none, 0⟩, w, []⟩] → w ≤ s.now h → Does (.scheduledActionFire h) s fun t =>
      (t.half h).sched = [] ∧ Completed s t h r (timedNow s h 0) ∧ t.get .TIME_PEND_ALL h = ((s.half (otherHalf h)).sched.filter fun a => reqSpans a.cmd.req).length % 256) ∧
  (∀ (s : State) (h : Half), s.managing h = false → exec (.scheduledActionFire h) s = .next (settle s)) ∧
  (∀ (s : State) (h : Half) (r : Req), Takes s h .identify r → Does (.identify h r) s fun t => Completed s t h r ⟨0, 0, s.readFields (if r.scope = 0 then halfA else reqHalf r) 0, s.get .BOOT_VERSION (if r.scope = 0 then halfA else reqHalf r)⟩ ∧ Frame [] s t) ∧
  (∀ (s : State) (h : Half) (r : Req), Takes s h .nop r → Does (.nop h r) s fun t => Completed s t h r (timedNow s h 0) ∧ Frame [] s t) ∧
  (∀ (s : State) (h : Half) (r : Req), Takes s h .timeFreq r → Does (.timeFreq h r) s fun t => (t.half halfA).pendAddend = some (reqParam r 0) ∧ t.get .TIME_ADDEND halfA = reqParam r 0 ∧ Completed s t h r (timedNow s h 4) ∧ Frame [(.TIME_ADDEND, halfA)] s t) ∧
  (∀ (s : State) (h : Half) (r : Req), Takes s h .timeSlew r → Does (.timeSlew h r) s fun t => (t.half halfA).pendSlew = some (toSigned 32 (reqParam r 0)) ∧ t.get .TIME_RATE halfA = (if reqParam r 1 = 0 then s.get .TIME_RATE halfA else reqParam r 1) ∧ Completed s t h r (timedNow s h (if reqParam r 0 = 0 then 0 else 4)) ∧ Frame [(.TIME_RATE, halfA)] s t) ∧
  (∀ (s : State) (h : Half) (r : Req), Takes s h .timeStep r → Does (.timeStep h r) s fun t =>
      (t.half halfA).step.map (fun x => (x.sec, x.ns, x.atSecond)) = some (reqParam r 1 + 2 ^ 32 * reqParam r 2, reqParam r 0, (reqParam r 3).testBit 0)
        ∧ ((t.half halfA).step.any fun x => x.cmds.any fun c => c.req == r) = true ∧ (t.half h).cpls = (s.half h).cpls ∧ Frame [] s t) ∧
  (∀ (s : State) (h : Half) (r : Req), Takes s h .schedCancel r → ((List.finRange 2).all (fun k => (s.pendingTag k (BitVec.ofNat 32 (reqParam r 0))).isNone) = true) → Does (.schedCancel h r) s fun t => Completed s t h r ⟨3, 5, 0, 0⟩ ∧ Frame [] s t) ∧
  (∀ (s : State) (h : Half) (r : Req) (a : Sched), Takes s h .schedCancel r → s.pendingTag h (BitVec.ofNat 32 (reqParam r 0)) = some a → Does (.schedCancel h r) s fun t =>
      (t.half h).sched = (s.half h).sched.filter (fun x => x.cmd.order != a.cmd.order) ∧ (r.tag, 0, 0, 0, 0) ∈ (t.half h).cpls.map Cpl.says
        ∧ (a.cmd.org = h → a.cmd.exe = h → (t.half h).cpls.map Cpl.says = (s.half h).cpls.map Cpl.says ++ [(a.cmd.req.tag, 8, 0, 0, 0), (r.tag, 0, 0, 0, 0)])
        ∧ Frame [(.TIME_PEND_ALL, 0), (.TIME_PEND_COMMIT, 0), (.TIME_PEND_SNAP, 0), (.TIME_PEND_ALL, 1), (.TIME_PEND_COMMIT, 1), (.TIME_PEND_SNAP, 1)] s t) ∧
  (∀ (s : State) (h : Half) (r : Req) (a : Sched), Takes s h .schedCancel r → s.get .BR_STATE h = 0 → s.pendingTag h (BitVec.ofNat 32 (reqParam r 0)) = none → s.pendingTag (otherHalf h) (BitVec.ofNat 32 (reqParam r 0)) = some a → Does (.schedCancel h r) s fun t =>
      (t.half (otherHalf h)).sched = (s.half (otherHalf h)).sched.filter (fun x => x.cmd.order != a.cmd.order) ∧ (r.tag, 0, 0, 0, 0) ∈ (t.half h).cpls.map Cpl.says) ∧
  (∀ (s : State) (h : Half) (r : Req) (o : Opc), Takes s h o r → Does (o.row h r) s fun t =>
      t = (s.taking h o r).1.effect (s.taking h o r).2 (if o = .commit then s.shadowChanges r else [])) ∧
  (∀ (s : State) (h : Half) (r : Req) (o : Opc), s.running h = true → s.manages h = true → s.invalid (some o) r = none → s.inIsland h h o r = false → reqExe r = h → r.sched = true → s.busyReason h o r = none → s.needsTested o (if o = .commit then s.shadowChanges r else []) = none → 0 < dOf r.w.toNat (s.n40 h) → Does (o.row h r) s fun t =>
      (t.half h).sched.map (fun a => (a.cmd.op, a.cmd.req, a.w, a.cells))
          = (s.half h).sched.map (fun a => (a.cmd.op, a.cmd.req, a.w, a.cells)) ++ [(o, r, r.w.toNat, if o = .commit then s.shadowChanges r else [])]
        ∧ (t.half h).cpls = (s.half h).cpls
        ∧ Frame [(.TIME_PEND_ALL, 0), (.TIME_PEND_COMMIT, 0), (.TIME_PEND_SNAP, 0), (.TIME_PEND_ALL, 1), (.TIME_PEND_COMMIT, 1), (.TIME_PEND_SNAP, 1)] s t) ∧
  (∀ (s : State) (h : Half) (r : Req) (o : Opc), s.running h = true → s.manages h = true → s.invalid (some o) r = none → s.inIsland h h o r = false → reqExe r = h → r.sched = true → r.discard = false → s.busyReason h o r = none → s.needsTested o (if o = .commit then s.shadowChanges r else []) = none → dOf r.w.toNat (s.n40 h) ≤ 0 → Does (o.row h r) s fun t =>
      t = (s.taking h o r).1.execute { (s.taking h o r).2 with late := (dOf r.w.toNat (s.n40 h)).natAbs } (if o = .commit then s.shadowChanges r else [])) ∧
  (∀ (s : State) (r : Req) (o : Opc), s.running halfA = true → s.invalid (some o) r = none → s.inIsland halfA halfA o r = false → reqExe r = halfB → Does (o.row halfA r) s fun t =>
      t.bridge.cmds.map (fun c => (c.op, c.req, c.org, c.exe)) = s.bridge.cmds.map (fun c => (c.op, c.req, c.org, c.exe)) ++ [(o, r, halfA, halfB)]
        ∧ (t.half halfA).fwd.map (fun c => (c.op, c.req)) = (s.half halfA).fwd.map (fun c => (c.op, c.req)) ++ [(o, r)]
        ∧ (t.half halfA).cpls = (s.half halfA).cpls ∧ Frame [] s t) ∧
  (∀ (s : State) (h : Half) (r : Req), Takes s h .commit r → s.commitFault (s.affected r (s.with (s.shadowChanges r))) (s.with (s.shadowChanges r)) = none → ∃ t, exec (.commit h r) s = .next (settle t) ∧ ((t.half h).commits.map (fun k => (k.lanes, k.cells.map (·.2))) = (s.half h).commits.map (fun k => (k.lanes, k.cells.map (·.2)))
          ++ [((s.affected r (s.with (s.shadowChanges r))).lanes, s.shadowChanges r)] ∧ (t.half h).cpls = (s.half h).cpls)) ∧
  (∀ (s : State) (l : Lane) (h : Half) (c : PendCommit), s.commitsIn (fun k => k.lanes.contains l && k.due s l.half) = [(h, c)] → (s.half h).commits.all (fun k => k.order != c.order || k == c) = true → (s.lane l).resetDue = false → (c.cells.map fun p => (p.2.fld, p.2.idx)).Nodup → ∃ t, exec (.commitApply l) s = .next (settle t) ∧ (let ls := c.lanes.filter fun m => m.group == l.group && (c.reforms s l.group || (s.portMates l).contains m)
      let now := c.cells.filter fun p => ls.contains p.1 && p.2.fld.info.blk != .CTX
      (∀ p ∈ now, t.app p.2.fld p.2.idx = p.2.val % 2 ^ p.2.fld.width) ∧ (∀ k ∈ (t.half h).commits, k.order = c.order → k.lanes = c.lanes.filter (fun m => !ls.contains m) ∧ k.cells = c.cells.filter (fun p => !now.contains p)))) ∧
  (∀ (s : State) (g : Group) (h : Half) (c : PendCommit), s.commitsIn (fun k => k.ctxWait.contains g && k.due s g.half) = [(h, c)] → (c.cells.map fun p => (p.2.fld, p.2.idx)).Nodup → ∃ t, exec (.loopConfigLatch g) s = .next (settle t) ∧ (let now := c.cells.filter fun p => p.2.fld.info.blk == .CTX && p.2.idx / 32 == g.val
      (∀ p ∈ now, t.app p.2.fld p.2.idx = p.2.val % 2 ^ p.2.fld.width) ∧ ∀ k ∈ (t.half h).commits, k.ctxWait.contains g = true → k.due s g.half = false)) ∧
  (∀ (s : State) (h : Half) (x : Snap), (s.half h).snaps.filter (fun y => !y.latched && y.due ≤ s.ticks h) = [x] → (s.half h).snaps.all (fun y => y.key != x.key || y == x) = true → x.half = h → ∃ t, exec (.snapshotLatch h) s = .next (settle t) ∧ (let T := s.snapTime h x
      let parts := s.snapParts x.key
      let recs := x.lanes.map fun l => (⟨h, some x.key, false, s.laneRecord l true x.cmd.req.tag T⟩ : Tlm)
      let last : List Tlm := if parts.all (fun p => p == x || p.latched) then
          [⟨if parts.any (fun p => p.half == halfB) then halfB else h, some x.key, true, snapEnd x.cmd.req.tag T (parts.map fun p => p.lanes.length).sum
      (s.half (if parts.any (fun p => p.half == halfB) then halfB else h)).holdover⟩] else []
      (s.manages h = true → parts.all (fun p => p == x) = true → (t.half h).tlms = (s.half h).tlms ++ recs ++ last)
        ∧ (s.manages h = false → t.bridge.recs = s.bridge.recs ++ (recs ++ last).map BRec.tlm)
        ∧ (∀ y ∈ (t.half h).snaps, y.key = x.key → y.latched = true ∧ y.t = some T) ∧ Frame [] s t))

/-- R491 and R528 to R538: a reset acts once its completion has been written (R538). Completes: groupState, deviceState, padRelease, fenceReleaseGroup, reset, completionWrite. -/
def Obligations.PowerCommands : Prop :=
  (∀ (s : State) (h : Half) (r : Req), Takes s h .groupState r → s.get .PG_STATE (reqGroup r) = reqParam r 0 → s.get .PG_STATE (reqGroup r) < 5 → (s.half (reqGroup r).half).dev = none → (reqGroup r).half.groups.all (fun g => (s.group g).moves.isEmpty) = true → (s.half halfA).devWait = [] → Does (.groupState h r) s fun t => Completed s t h r (timedNow s h 0) ∧ Frame [] s t) ∧
  (∀ (s : State) (h : Half) (r : Req), Takes s h .groupState r → 2 ≤ s.get .PG_STATE (reqGroup r) → s.get .PG_STATE (reqGroup r) ≤ 3 → 2 ≤ reqParam r 0 → s.get .PG_STATE (reqGroup r) ≠ reqParam r 0 → (s.half (reqGroup r).half).dev = none → (reqGroup r).half.groups.all (fun g => (s.group g).moves.isEmpty) = true → (s.half halfA).devWait = [] → Does (.groupState h r) s fun t =>
      t.get .PG_STATE (reqGroup r) = reqParam r 0 ∧ Completed s t h r (timedNow s h 0) ∧ Frame [(.PG_STATE, reqGroup r)] s t) ∧
  (∀ (s : State) (h : Half) (r : Req), Takes s h .groupState r → s.get .PG_STATE (reqGroup r) = 0 → 1 ≤ reqParam r 0 → s.groupFenced (reqGroup r) = false → (reqGroup r).lanes.any (fun l => (s.portOf l).isSome) = true → (s.half (reqGroup r).half).dev = none → (reqGroup r).half.groups.all (fun g => (s.group g).moves.isEmpty) = true → (s.half halfA).devWait = [] → Does (.groupState h r) s fun t =>
      t.get .PG_STATE (reqGroup r) = 0 ∧ t.get .PG_LAST_BLOCK (reqGroup r) = 0 ∧ t.get .PG_LAST_REASON (reqGroup r) = 1 ∧ t.get .PG_REFUSED (reqGroup r) = 1
        ∧ Completed s t h r (deniedNow s h .groupState ⟨3, 0x50, 0, 0⟩)) ∧
  (∀ (s : State) (h : Half) (r : Req), Takes s h .groupState r → s.get .PG_STATE (reqGroup r) = 0 → reqParam r 0 = 1 → (∀ b : Fin 4, s.askBlock (reqGroup r) b = .accept) → (fiSlots (reqGroup r).half).all (fun i => s.get .FIS_ACTIVE i != 1) = true → (s.half (reqGroup r).half).dev = none → (reqGroup r).half.groups.all (fun g => (s.group g).moves.isEmpty) = true → (s.half halfA).devWait = [] → Does (.groupState h r) s fun t =>
      t.get .PG_STATE (reqGroup r) = 1 ∧ t.get .PG_HS_BLOCK (reqGroup r) = 0 ∧ (t.group (reqGroup r)).hs = none ∧ Completed s t h r (timedNow s h 0)
        ∧ Frame [(.PG_STATE, reqGroup r), (.PG_HS_BLOCK, reqGroup r)] s t) ∧
  (∀ (s : State) (h : Half) (r : Req), Takes s h .groupState r → s.get .PG_STATE (reqGroup r) = 0 → 2 ≤ reqParam r 0 → (∀ b : Fin 4, s.askBlock (reqGroup r) b = .accept) → (fiSlots (reqGroup r).half).all (fun i => s.get .FIS_ACTIVE i != 1) = true → (s.half (reqGroup r).half).dev = none → (reqGroup r).half.groups.all (fun g => (s.group g).moves.isEmpty) = true → (s.half halfA).devWait = [] → Does (.groupState h r) s fun t =>
      t.get .PG_STATE (reqGroup r) = 5 ∧ t.get .PG_HS_BLOCK (reqGroup r) = 3 ∧ ((t.group (reqGroup r)).hs.map fun k => (k.target, k.origin, k.block, k.delaying)) = some (reqParam r 0, 0, 4, false)
        ∧ (t.half h).cpls = (s.half h).cpls ∧ Frame [(.PG_STATE, reqGroup r), (.PG_HS_BLOCK, reqGroup r)] s t) ∧
  (∀ (s : State) (h : Half) (r : Req) (b : Fin 4), Takes s h .groupState r → s.get .PG_STATE (reqGroup r) = 0 → 1 ≤ reqParam r 0 → (∀ k : Fin 4, k < b → s.askBlock (reqGroup r) k = .accept) → s.askBlock (reqGroup r) b = .delay → (s.half (reqGroup r).half).dev = none → (reqGroup r).half.groups.all (fun g => (s.group g).moves.isEmpty) = true → (s.half halfA).devWait = [] → Does (.groupState h r) s fun t =>
      t.get .PG_STATE (reqGroup r) = 5 ∧ t.get .PG_HS_BLOCK (reqGroup r) = b ∧ ((t.group (reqGroup r)).hs.map fun k => (k.target, k.origin, k.block, k.delaying)) = some (reqParam r 0, 0, b.val, true)
        ∧ (t.half h).cpls = (s.half h).cpls ∧ Frame [(.PG_STATE, reqGroup r), (.PG_HS_BLOCK, reqGroup r)] s t) ∧
  (∀ (s : State) (h : Half) (r : Req), Takes s h .groupState r → s.get .PG_STATE (reqGroup r) = 1 → reqParam r 0 = 0 → (s.half (reqGroup r).half).dev = none → (reqGroup r).half.groups.all (fun g => (s.group g).moves.isEmpty) = true → (s.half halfA).devWait = [] → Does (.groupState h r) s fun t =>
      t.get .PG_STATE (reqGroup r) = 0 ∧ Completed s t h r (timedNow s h 0) ∧ Frame [(.PG_STATE, reqGroup r)] s t) ∧
  (∀ (s : State) (h : Half) (r : Req), Takes s h .groupState r → s.get .PG_STATE (reqGroup r) = 1 → 2 ≤ reqParam r 0 → s.askBlock (reqGroup r) 3 = .accept → (fiSlots (reqGroup r).half).all (fun i => s.get .FIS_ACTIVE i != 1) = true → (s.half (reqGroup r).half).dev = none → (reqGroup r).half.groups.all (fun g => (s.group g).moves.isEmpty) = true → (s.half halfA).devWait = [] → Does (.groupState h r) s fun t =>
      t.get .PG_STATE (reqGroup r) = 5 ∧ t.get .PG_HS_BLOCK (reqGroup r) = 3 ∧ ((t.group (reqGroup r)).hs.map fun k => (k.target, k.origin, k.block, k.delaying)) = some (reqParam r 0, 1, 4, false)
        ∧ (t.half h).cpls = (s.half h).cpls ∧ Frame [(.PG_STATE, reqGroup r), (.PG_HS_BLOCK, reqGroup r)] s t) ∧
  (∀ (s : State) (h : Half) (r : Req), Takes s h .groupState r → 2 ≤ s.get .PG_STATE (reqGroup r) → s.get .PG_STATE (reqGroup r) ≤ 4 → reqParam r 0 = 0 ∨ (reqParam r 0 = 1 ∧ s.get .PG_STATE (reqGroup r) ≠ 4) → (s.half (reqGroup r).half).dev = none → (reqGroup r).half.groups.all (fun g => (s.group g).moves.isEmpty) = true → (s.half halfA).devWait = [] → Does (.groupState h r) s fun t =>
      t.get .PG_STATE (reqGroup r) = 6 ∧ ((t.group (reqGroup r)).wake.map fun w => (w.second, w.railGood, w.target)) = some (false, false, reqParam r 0)
        ∧ (t.half h).cpls = (s.half h).cpls ∧ Frame [(.PG_STATE, reqGroup r)] s t) ∧
  (∀ (s : State) (h : Half) (r : Req), Takes s h .groupState r → 5 ≤ s.get .PG_STATE (reqGroup r) → s.get .PG_STATE (reqGroup r) ≤ 6 → (s.half (reqGroup r).half).dev = none → (reqGroup r).half.groups.all (fun g => (s.group g).moves.isEmpty) = true → (s.half halfA).devWait = [] → Does (.groupState h r) s fun t =>
      (t.group (reqGroup r)).moves.map (fun m => (m.1, m.2.isSome)) = [(reqParam r 0, true)] ∧ (t.half h).cpls = (s.half h).cpls ∧ Frame [] s t) ∧
  (∀ (s : State) (h : Half) (r : Req), Takes s h .deviceState r → (∀ k : Half, (s.half k).dev = none) → reqParam r 0 = 0 → Does (.deviceState h r) s fun t =>
      (∀ k : Half, t.get .PH_DSTATE k = 0) ∧ Completed s t h r (timedNow s h 0)
        ∧ (∀ k : Half, s.get .PH_DSTATE k ≠ 0 → (t.half k).held = [])) ∧
  (∀ (s : State) (h : Half) (r : Req), Takes s h .deviceState r → (∀ k : Half, (s.half k).dev = none) → (∀ k : Half, s.get .PH_DSTATE k = reqParam r 0) → Does (.deviceState h r) s fun t => Completed s t h r (timedNow s h 0) ∧ ((reqParam r 0 ≠ 0) → Frame [] s t)) ∧
  (∀ (s : State) (h : Half) (r : Req), Takes s h .deviceState r → (∀ k : Half, (s.half k).dev = none) → (∀ k : Half, s.get .PH_DSTATE k ≠ reqParam r 0) → reqParam r 0 ≠ 0 → (∀ g : Group, s.get .PG_STATE g = 3 ∧ (s.group g).moves = []) → Does (.deviceState h r) s fun t =>
      (∀ k : Half, t.get .PH_DSTATE k = reqParam r 0 ∧ (t.half k).sessions = [] ∧ (t.half k).dev = none) ∧ Completed s t h r (timedNow s h 0)
        ∧ ((t.half h).resets.length = (s.half h).resets.length + if reqParam r 0 = 2 then 2 else 0)) ∧
  (∀ (s : State) (h : Half) (r : Req), Takes s h .deviceState r → (s.half halfA).dev.isSome = true ∨ (s.half halfB).dev.isSome = true → Does (.deviceState h r) s fun t =>
      (t.half halfA).devWait.map (·.1) = (s.half halfA).devWait.map (·.1) ++ [reqParam r 0] ∧ (t.half h).cpls = (s.half h).cpls ∧ Frame [] s t) ∧
  (∀ (s : State) (h : Half) (r : Req), Takes s h .padRelease r → (∀ g ∈ reqGroups r, s.get .PG_STATE g = 0 ∧ s.get .PG_PADS_HELD g = 1) → Does (.padRelease h r) s fun t => Completed s t h r ⟨0, 0, 0, 0⟩ ∧ (∀ g ∈ reqGroups r, t.get .PG_PADS_HELD g = 0) ∧ Frame ((reqGroups r).map fun g => (.PG_PADS_HELD, g.val)) s t) ∧
  (∀ (s : State) (h : Half) (r : Req), Takes s h .padRelease r → (¬ ∀ g ∈ reqGroups r, s.get .PG_STATE g = 0 ∧ s.get .PG_PADS_HELD g = 1) → Does (.padRelease h r) s fun t => Completed s t h r ⟨3, 3, 0, 0⟩ ∧ Frame [] s t) ∧
  (∀ (s : State) (h : Half) (r : Req) (ks : List Cause), Takes s h .fenceReleaseGroup r → (s.namedCauses (reqUnit r) (reqParam r 0)).toOption = some ks → ks.findSome? (s.releaseFault (reqUnit r) (Config.stillBright s.draw.1)) = none → Does (.fenceReleaseGroup h r) s fun t =>
      (∀ k ∈ ks, k ∉ t.causes (reqUnit r)) ∧ (∀ k ∈ s.causes (reqUnit r), k ∉ ks → k ∈ t.causes (reqUnit r)) ∧ (r.tag, 0, 0, (timedNow s h 0).lo, (timedNow s h 0).hi) ∈ (t.half h).cpls.map Cpl.says) ∧
  (∀ (s : State) (h : Half) (r : Req) (g : Group), Takes s h .fenceReleaseGroup r → r.scope = 2 → reqGroup r = g → (s.group g).fences = [.groupPower] → reqParam r 0 = 0 → Does (.fenceReleaseGroup h r) s fun t =>
      (t.group g).fences = [] ∧ (t.group g).resetting = true ∧ (r.tag, 0, 0, (timedNow s h 0).lo, (timedNow s h 0).hi) ∈ (t.half h).cpls.map Cpl.says ∧ ∀ l ∈ g.lanes, t.get .ACQ_STATE l = 0) ∧
  (∀ (s : State) (h : Half) (r : Req), Takes s h .reset r → Does (.reset h r) s fun t => (t.half h).resets = (s.half h).resets ++ (if r.scope = 1 then [(r.tag, 1, (reqHalf r).val)] else if r.scope = 2 then [(r.tag, 2, (reqGroup r).val)] else (s.scopeLanes r).map fun l => (r.tag, 4, l.val)) ∧ Completed s t h r (timedNow s h 0) ∧ Frame [] s t) ∧
  (∀ (s : State) (h : Half) (c : Cpl) (rest : List Cpl), (s.half h).cpls = c :: rest → s.ringMoves h 4 = true → s.ringSpace h 4 ≠ 0 → (s.half h).resets.all (fun x => x.1 != c.tag || x.2.1 == 4) = true → Does (.completionWrite h) s fun t =>
      (∀ l : Lane, (c.tag, 4, l.val) ∈ (s.half h).resets → (t.lane l).resetDue = true) ∧ (t.half h).resets = (s.half h).resets.filter (fun x => x.1 != c.tag) ∧ (t.half h).cpls = rest) ∧
  (∀ (s : State) (h : Half) (c : Cpl) (rest : List Cpl) (k d : Nat), (s.half h).cpls = c :: rest → s.ringMoves h 4 = true → s.ringSpace h 4 ≠ 0 → (s.half h).resets = [(c.tag, k, d)] → Does (.completionWrite h) s fun t =>
      (k = 1 → d < 2 → t.get .PH_LAST_RESET d = 2) ∧ (∀ g : Group, k = 2 → d = g.val → (t.group g).resetting = true) ∧ (∀ x : Half, k = 15 → d = x.val → (t.half x).off = true ∧ (t.half x).live = false)
        ∧ (t.half h).resets = [])

/-- R411 to R414 and R420; KND_STATE is coded as in R437: 0 RUN, 1 reloading, 2 being substituted, 4 failed. 250,000,000 ticks are 1 s. Completes: kneaderTrap, kneaderReloadComplete, kneaderSubstitutionComplete, spareKneaderTest. -/
def Obligations.KneaderService : Prop :=
  (∀ (s : State) (k : Knd) (c : TrapCause), s.kndRuns k = true → s.get .KND_STATE k = 0 → ((s.knd k).traps.filter fun x => s.ticks k.half - x < 250000000).length < 2 → Does (.kneaderTrap k c) s fun t =>
      t.get .KND_STATE k = 1 ∧ t.get .KND_CAUSE k = TrapCause.num c ∧ t.get .KND_TRAP_CNT k = min (s.get .KND_TRAP_CNT k + 1) 255
        ∧ (∀ l, kndAdapts k = some l → t.get .EQ_HOLD l = 1) ∧ (∀ j : Knd, j ≠ k → t.get .KND_STATE j = s.get .KND_STATE j)) ∧
  (∀ (s : State) (k : Knd) (c : TrapCause), s.kndRuns k = true → s.get .KND_STATE k = 0 → 2 ≤ ((s.knd k).traps.filter fun x => s.ticks k.half - x < 250000000).length → s.get .SP_KND_SPARE (kndSpare k) ≠ 0 → (kndMates k).all (fun j => j == k || s.get .KND_STATE j != 2) = true → s.testLends k.half (kndTestKind k) (kndSpare k) = false → Does (.kneaderTrap k c) s fun t =>
      t.get .KND_STATE k = 2 ∧ t.get .REL_KND_FAIL k.half = 1 ∧ t.get .SP_KND_SPARE (kndSpare k) = s.get .SP_KND_SPARE (kndSpare k)) ∧
  (∀ (s : State) (k : Knd) (c : TrapCause), s.kndRuns k = true → s.get .KND_STATE k = 0 → 2 ≤ ((s.knd k).traps.filter fun x => s.ticks k.half - x < 250000000).length → s.get .SP_KND_SPARE (kndSpare k) = 0 → s.get .ST_STATE k.half = 0 → Does (.kneaderTrap k c) s fun t =>
      t.get .KND_STATE k = 4 ∧ Cause.knd ∈ t.causes (kndUnit k) ∧ (120 ≤ k.val → s.get .BOOT_STATE k.half = 1 → t.get .BOOT_STATE k.half = 3)) ∧
  (∀ (s : State) (k : Knd) (c : TrapCause), s.kndRuns k = false ∨ s.get .KND_STATE k = 1 → exec (.kneaderTrap k c) s = .next (settle s)) ∧
  (∀ (s : State) (k : Knd), s.reloading k = true → Does (.kneaderReloadComplete k true) s fun t =>
      t.get .KND_STATE k = 0 ∧ (t.knd k).badImage = false ∧ (∀ l, kndAdapts k = some l → t.get .EQ_HOLD l = 0) ∧ k.val ∉ (t.half k.half).reloads) ∧
  (∀ (s : State) (k : Knd), s.reloading k = true → (s.knd k).badImage = false → Does (.kneaderReloadComplete k false) s fun t => t.get .KND_STATE k = 1 ∧ (t.knd k).badImage = true ∧ Frame [] s t) ∧
  (∀ (s : State) (k : Knd), s.reloading k = true → (s.knd k).badImage = true → Does (.kneaderReloadComplete k false) s fun t => (t.get .KND_STATE k = 2 ∨ t.get .KND_STATE k = 4) ∧ t.get .REL_KND_FAIL k.half = 1) ∧
  (∀ (s : State) (k : Knd) (b : Bool), s.reloading k = false → exec (.kneaderReloadComplete k b) s = .next (settle s)) ∧
  (∀ (s : State) (k : Knd), s.get .KND_STATE k = 2 → s.testsKnd k = true → Does (.kneaderSubstitutionComplete k) s fun t => t.get .KND_STATE k = 3 ∧ t.get .ST_STATE k.half = 2 ∧ t.get .SP_KND_SPARE (kndSpare k) = s.get .SP_KND_SPARE (kndSpare k) % 2 ^ Fld.width .SP_KND_SPARE ∧ t.get .KND_SPARE_IN k = 1 ∧ t.get .REL_SPARE_USED k.half = 1) ∧
  (∀ (s : State) (k : Knd), s.get .KND_STATE k = 2 → s.testsKnd k = false → Does (.kneaderSubstitutionComplete k) s fun t =>
      t.get .KND_STATE k = 0 ∧ t.get .KND_SPARE_IN k = 1 ∧ t.get .SP_KND_SPARE (kndSpare k) = 0 ∧ t.get .REL_SPARE_USED k.half = 1) ∧
  (∀ (s : State) (g : Group) (v : W32), s.running g.half = true → s.get .SP_KND_SPARE (Group.spIdx g) ≠ 0 → s.testLends g.half 1 (Group.spIdx g) = false → Does (.spareKneaderTest (.group g) v) s fun t =>
      t.get .ST_RESULT g.half = (if passes (.spareKneader (.group g)) v then 1 else 2) ∧ t.get .ST_SIG g.half = v.toNat
        ∧ t.get .ST_ST_RUNS g.half = (s.get .ST_ST_RUNS g.half + 1) % 65536
        ∧ (passes (.spareKneader (.group g)) v = false → t.get .SP_KND_SPARE (Group.spIdx g) = 0 ∧ t.get .REL_ST_FAIL g.half = 1)
        ∧ (passes (.spareKneader (.group g)) v = true → Frame [(.ST_RESULT, g.half), (.ST_SIG, g.half), (.ST_ST_RUNS, g.half), (.ST_KIND, g.half), (.ST_UNIT, g.half)] s t)) ∧
  (∀ (s : State) (h : Half) (v : W32), s.running h = true → s.get .SP_KND_SPARE (4 * h.val + 3) ≠ 0 → s.testLends h 2 (4 * h.val + 3) = false → Does (.spareKneaderTest (.half h) v) s fun t =>
      t.get .ST_RESULT h = (if passes (.spareKneader (.half h)) v then 1 else 2) ∧ t.get .ST_SIG h = v.toNat
        ∧ t.get .ST_ST_RUNS h = (s.get .ST_ST_RUNS h + 1) % 65536
        ∧ (passes (.spareKneader (.half h)) v = false → t.get .SP_KND_SPARE (4 * h.val + 3) = 0 ∧ t.get .REL_ST_FAIL h = 1)
        ∧ (passes (.spareKneader (.half h)) v = true → Frame [(.ST_RESULT, h), (.ST_SIG, h), (.ST_ST_RUNS, h), (.ST_KIND, h), (.ST_UNIT, h)] s t))

/-- R421 to R425 and the registers of R438. Completes: selftestComplete, testmodeAssert, jtagScanInstruction, selftest, fiUnlock, fiSet, fiClear, fiKeyWrite, fiRelockWrite, faultInjectionExpiry, attOpen, attQuote, attCert, attClose. -/
def Obligations.SelfTests : Prop :=
  (∀ (s : State) (h : Half) (k : Fin 4) (sig : W32) (c : Cmd), (s.half h).stCmd = some c → s.get .ST_STATE h = 2 → s.get .ST_KIND h = k → Does (.selftestComplete h (.onDemand k) sig) s fun t =>
      t.get .ST_RESULT h = (if passes (testUnit h (s.get .ST_KIND h) (s.get .ST_UNIT h)) sig then 1 else 2) ∧ t.get .ST_SIG h = sig.toNat ∧ (t.half h).stCmd = none
        ∧ t.get .ST_ST_RUNS h = (s.get .ST_ST_RUNS h + 1) % 65536 ∧ (passes (testUnit h (s.get .ST_KIND h) (s.get .ST_UNIT h)) sig = false → t.get .REL_ST_FAIL h = 1)
        ∧ ((h.groups.all fun g => (s.group g).sliceTest.isNone) = true → t.get .ST_STATE h = 0)
        ∧ (passes (testUnit h (s.get .ST_KIND h) (s.get .ST_UNIT h)) sig = true → s.get .ST_KIND h = 1 ∨ s.get .ST_KIND h = 2 → s.get .KND_STATE (testKnd h (s.get .ST_UNIT h)) = 3 → t.get .KND_STATE (testKnd h (s.get .ST_UNIT h)) = 0)
        ∧ (passes (testUnit h (s.get .ST_KIND h) (s.get .ST_UNIT h)) sig = true → Frame ([(.ST_STATE, h.val), (.ST_RESULT, h), (.ST_SIG, h), (.ST_ST_RUNS, h), (.ST_KIND, h), (.ST_UNIT, h), (.KND_STATE, testKnd h (s.get .ST_UNIT h)), (.REL_KEY_LOADED, h)]
          ++ (List.range 32).flatMap fun k => ([.CH_FULLW, .CH_SETTLED, .CH_FILL, .CH_OUT_CNT] : List Fld).map fun f => (f, 32 * h.val + k)) s t)
        ∧ (passes (testUnit h (s.get .ST_KIND h) (s.get .ST_UNIT h)) sig = true → c.org = c.exe → Completed s t c.org c.req ⟨0, 0, sig.toNat, 1⟩)) ∧
  (∀ (s : State) (h : Half) (k : Fin 4) (sig : W32), s.onTest h = false ∨ s.get .ST_STATE h ≠ 2 ∨ s.get .ST_KIND h ≠ k → exec (.selftestComplete h (.onDemand k) sig) s = .next (settle s)) ∧
  (∀ (s : State) (g : Group) (k : Fin 3) (cal : CalResult) (sig : W32), g.val = 3 * g.half.val + k.val → (s.group g).sliceTest.isSome = true → Does (.selftestComplete g.half (.spareSlice k cal) sig) s fun t =>
      let one := passes (.spareSlice g) (BitVec.ofNat 32 cal.run1.sig)
      let two := passes (.spareSlice g) sig
      t.get .ST_RESULT g.half = (if two then 1 else 2) ∧ t.get .ST_SIG g.half = sig.toNat ∧ t.get .ST_ST_RUNS g.half = (s.get .ST_ST_RUNS g.half + 1) % 65536
        ∧ (t.group g).sliceTest = none ∧ ((t.group g).spareOk = true → one = true ∧ two = true ∧ (t.group g).tested = true)
        ∧ (one = false → two = false → t.get .SP_SLICE_SPARE (Group.spIdx g) = 0 ∧ t.get .CAL_INTERP_ONLY (48 + g) = 1 ∧ t.get .REL_ST_FAIL g.half = 1)) ∧
  (∀ (s : State) (g : Group) (k : Fin 3) (cal : CalResult) (sig : W32), g.val = 3 * g.half.val + k.val → (s.group g).sliceTest = none → exec (.selftestComplete g.half (.spareSlice k cal) sig) s = .next (settle s)) ∧
  (∀ (u : TestUnit), passes u (Config.golden u) = true) ∧
  (∀ (s : State), s.testmode = false → Does .testmodeAssert s fun t =>
      t.testmode = true ∧ ∀ h : Half, t.get .REL_KEY_LOCKED h = 1 ∧ t.get .REL_KEY_LOADED h = 0 ∧ t.get .REL_SCAN_SEEN h = 1 ∧ t.get .REL_ZEROISED h = 1
        ∧ (t.half h).sessions = [] ∧ t.onTest h = false ∧ (h.groups.all fun g => (t.group g).sliceTest.isNone) = true) ∧
  (∀ (s : State) (e : Bool), Does (.jtagScanInstruction e) s fun t =>
      t.extest = e ∧ ∀ h : Half, t.get .REL_KEY_LOCKED h = 1 ∧ t.get .REL_KEY_LOADED h = 0 ∧ t.get .REL_ZERO_CNT h = min (s.get .REL_ZERO_CNT h + 1) 65535
        ∧ (t.half h).sessions = []) ∧
  (∀ (s : State) (h : Half) (r : Req), Takes s h .selftest r → s.testFault h (reqParam r 0 % 8) (reqParam r 0 / 256) = none → ∃ t, exec (.selftest h r) s = .next (settle t) ∧ (t.get .ST_KIND h = reqParam r 0 % 8 ∧ t.get .ST_UNIT h = reqParam r 0 / 256 % 64 ∧ (t.half h).stCmd.isSome = true ∧ (t.half h).stAt = s.ticks h ∧ (1 ≤ reqParam r 0 % 8 → reqParam r 0 % 8 ≤ 2 → t.get .ST_STATE h = 1 ∧ t.get .KND_STATE (testKnd h (reqParam r 0 / 256)) = 2) ∧ (reqParam r 0 % 8 = 3 → t.get .ST_STATE h = 2) ∧ (reqParam r 0 % 8 = 0 → s.inData (testLane h (reqParam r 0 / 256)) = false → t.get .ST_STATE h = 2))) ∧
  (∀ (s : State) (h : Half) (r : Req), Takes s h .fiUnlock r → reqParam r 0 = 0x46494E4A → s.get .FI_DISABLE h ≠ 1 ∨ s.get .FI_LOCK h ≠ 1 → ∃ t, exec (.fiUnlock h r) s = .next (settle t) ∧ (t.get .FI_UNLOCKED h = 1 ∧ Completed s t h r ⟨0, 0, 0, 0⟩)) ∧
  (∀ (s : State) (h : Half) (r : Req) (i : Fin 32), Takes s h .fiSet r → s.get .FI_UNLOCKED h = 1 → (fiSlots h).find? (fun j => s.get .FIS_ACTIVE j != 1) = some i → (fiSlots h).all (fun j => s.get .FIS_ACTIVE j != 1 || s.get .FIS_KIND j != reqParam r 0 || (s.scopeLanes r).all (fun l => !s.slotCovers j l)) = true → ∃ t, exec (.fiSet h r) s = .next (settle t) ∧ (t.get .FIS_ACTIVE i = 1 ∧ t.get .FIS_KIND i = reqParam r 0 % 2 ^ Fld.width .FIS_KIND ∧ t.get .FIS_SCOPE i = r.scope.toNat % 2 ^ Fld.width .FIS_SCOPE ∧ t.get .FIS_ID i = r.id.toNat ∧ t.get .FIS_HOST_TAG i = r.tag.toNat ∧ t.get .FIS_INJ_CNT i = 0 ∧ ((t.fi i).p1, (t.fi i).p2, (t.fi i).p3) = (reqParam r 1, reqParam r 2, reqParam r 3) ∧ (r.tag, 0, 0, 0, 0) ∈ (t.half h).cpls.map Cpl.says ∧ t.ap = s.ap)) ∧
  (∀ (s : State) (h : Half) (r : Req), Takes s h .fiClear r → ∃ t, exec (.fiClear h r) s = .next (settle t) ∧ (Completed s t h r ⟨0, 0, 0, 0⟩ ∧ t.ap = s.ap ∧ (r.scope ≠ 1 ∨ (fiSlots h).all (fun i => t.get .FIS_ACTIVE i != 1) = true))) ∧
  (∀ (s : State) (h : Half), s.running h = true → s.answers h = true → s.get .FI_DISABLE h ≠ 1 ∨ s.get .FI_LOCK h ≠ 1 → ∃ t, exec (.fiKeyWrite h 0x46494E4A) s = .next (settle t) ∧ (t.get .FI_UNLOCKED h = 1)) ∧
  (∀ (s : State) (h : Half) (v : W32), s.running h = true → s.answers h = true → v.toNat.testBit 30 = true → ∃ t, exec (.fiRelockWrite h v) s = .next (settle t) ∧ (t.get .FI_UNLOCKED h = 0 ∧ (fiSlots h).all (fun i => t.get .FIS_ACTIVE i == 0) = true)) ∧
  (∀ (s : State) (h : Half) (j : Fin 16) (i : Fin 32), i.val = 16 * h.val + j.val → s.get .FIS_ACTIVE i = 1 → s.injectionOver i = true → ∃ t, exec (.faultInjectionExpiry h j) s = .next (settle t) ∧ (t.get .FIS_ACTIVE i = 0 ∧ t.get .FIS_KIND i = 0)) ∧
  (∀ (s : State) (h : Half) (r : Req), Takes s h .attOpen r → s.get .REL_KEY_LOCKED h ≠ 1 → ∃ t, exec (.attOpen h r) s = .next (settle t) ∧ ((t.half h).sessions = ((s.half h).freeSession, reqNonce r) :: (s.half h).sessions ∧ Completed s t h r ⟨0, 0, (s.half h).freeSession, 0⟩)) ∧
  (∀ (s : State) (h : Half) (r : Req) (m : Nat), Takes s h .attQuote r → s.get .REL_KEY_LOCKED h ≠ 1 → (s.half h).nonce (reqParam r 0) = some m → 1024 ≤ reqParam r 3 → ∃ t, exec (.attQuote h r) s = .next (settle t) ∧ ((t.half h).sessions = (s.half h).sessions ∧ (t.half h).cpls.map (fun c => (c.tag, c.status)) = (s.half h).cpls.map (fun c => (c.tag, c.status)) ++ [(r.tag, 0)] ∧ (∃ n, n ≤ reqParam r 3 ∧ t.out = .quote h (reqAddr r 1) n m (s.readFields h 0) (((s.half h).run.map fun i => i.checks.hash).getD 0) ((s.half h).record (s.half h).boot.setActive) :: s.out))) ∧
  (∀ (s : State) (h : Half) (r : Req), Takes s h .attCert r → s.get .REL_KEY_LOCKED h ≠ 1 → 4096 ≤ reqParam r 3 → ∃ t, exec (.attCert h r) s = .next (settle t) ∧ ((t.half h).sessions = (s.half h).sessions ∧ (t.half h).cpls.map (fun c => (c.tag, c.status)) = (s.half h).cpls.map (fun c => (c.tag, c.status)) ++ [(r.tag, 0)] ∧ (∃ n, n ≤ reqParam r 3 ∧ t.out = .dma h (reqAddr r 1) "certificates" n :: s.out))) ∧
  (∀ (s : State) (h : Half) (r : Req), Takes s h .attClose r → s.get .REL_KEY_LOCKED h ≠ 1 → ((s.half h).nonce (reqParam r 0)).isSome = true → ∃ t, exec (.attClose h r) s = .next (settle t) ∧ ((t.half h).sessions = (s.half h).sessions.filter (fun x => x.1 != reqParam r 0) ∧ Completed s t h r ⟨0, 0, 0, 0⟩))

/-- R427 to R432 and the registers of R436; the window of a host read that fails reads all ones (R430). Completes: memoryCorrectedRead, trackerWriteBack, scrubRead, memoryUncorrectableRead, memUeRelease, repairLogFlashCopy. -/
def Obligations.MemoryProtection : Prop :=
  (∀ (s : State) (m : MemUnit) (a : BitVec 10) (w : BitVec 17), memHere m = true → (memIdx m, a.toNat, w.toNat) ∉ s.sticky → (s.trackerOf m).find? (fun e => e.unit == memIdx m && e.arr == a.toNat && e.word == w.toNat) = none → Does (.memoryCorrectedRead m a w) s fun t =>
      t.get .ECC_CE_CNT (memIdx m) = (s.get .ECC_CE_CNT (memIdx m) + 1) % 2 ^ 32
        ∧ t.trackerOf m = ⟨memIdx m, a.toNat, w.toNat, false⟩ :: (s.trackerOf m).take 15
        ∧ t.get .ECC_TRK_USED (memIdx m) = ((t.trackerOf m).filter fun e => e.unit == memIdx m).length ∧ t.sticky = s.sticky) ∧
  (∀ (s : State) (m : MemUnit) (a : BitVec 10) (w : BitVec 17) (e : TrkE), memHere m = true → (memIdx m, a.toNat, w.toNat) ∉ s.sticky → (s.trackerOf m).find? (fun e => e.unit == memIdx m && e.arr == a.toNat && e.word == w.toNat) = some e → e.done = true → Does (.memoryCorrectedRead m a w) s fun t =>
      t.sticky = s.sticky ++ [(memIdx m, a.toNat, w.toNat)] ∧ (t.trackerOf m).find? (fun e => e.unit == memIdx m && e.arr == a.toNat && e.word == w.toNat) = none ∧ t.get .REL_STICKY m.half = 1
        ∧ t.get .ECC_STICKY_CNT (memIdx m) = min (s.get .ECC_STICKY_CNT (memIdx m) + 1) 65535) ∧
  (∀ (s : State) (m : MemUnit) (a : BitVec 10) (w : BitVec 17) (e : TrkE), memHere m = true → (memIdx m, a.toNat, w.toNat) ∉ s.sticky → (s.trackerOf m).find? (fun e => e.unit == memIdx m && e.arr == a.toNat && e.word == w.toNat) = some e → e.done = false → Does (.memoryCorrectedRead m a w) s fun t =>
      (t.trackerOf m).head? = some e ∧ t.sticky = s.sticky ∧ t.get .ECC_CE_CNT (memIdx m) = (s.get .ECC_CE_CNT (memIdx m) + 1) % 2 ^ 32) ∧
  (∀ (s : State) (m : MemUnit) (a : BitVec 10) (w : BitVec 17), memHere m = true → (memIdx m, a.toNat, w.toNat) ∈ s.sticky → Does (.memoryCorrectedRead m a w) s fun t =>
      t.sticky = s.sticky ∧ t.trackers = s.trackers ∧ t.get .ECC_CE_CNT (memIdx m) = (s.get .ECC_CE_CNT (memIdx m) + 1) % 2 ^ 32 ∧ Frame [(.ECC_CE_CNT, memIdx m)] s t) ∧
  (∀ (s : State) (m : MemUnit) (a : BitVec 10) (w : BitVec 17), memHere m = false → exec (.memoryCorrectedRead m a w) s = .next (settle s)) ∧
  (∀ (s : State) (m : MemUnit) (a : BitVec 10) (w : BitVec 17), ⟨memIdx m, a.toNat, w.toNat, false⟩ ∈ s.trackers → Does (.trackerWriteBack m a w) s fun t =>
      t.trackers = s.trackers.map (fun e => if e.unit == memIdx m && e.arr == a.toNat && e.word == w.toNat then { e with done := true } else e) ∧ t.sticky = s.sticky
        ∧ ((fiSlots m.half).all (fun i => s.get .FIS_ACTIVE i != 1) = true → t.faultyAt (memIdx m) a.toNat w.toNat = none ∧ Frame [] s t)) ∧
  (∀ (s : State) (m : MemUnit) (r : ScrubResult), memHere m = true → s.get .REL_EN m.half = 1 → s.running m.half = true → s.scrubFind (memIdx m) r = .clean → r.lapEnd = none → Does (.scrubRead m r) s fun t => Frame [] s t ∧ t.trackers = s.trackers) ∧
  (∀ (s : State) (m : MemUnit) (r : ScrubResult) (ms : Nat), memHere m = true → s.get .REL_EN m.half = 1 → s.running m.half = true → s.scrubFind (memIdx m) r = .uncorrectable → r.lapEnd = some ms → s.get .REL_LAP_LIM m.half < ms → Does (.scrubRead m r) s fun t =>
      t.get .ECC_UE_CNT (memIdx m) = min (s.get .ECC_UE_CNT (memIdx m) + 1) 65535 ∧ t.get .ECC_POISON_CNT (memIdx m) = min (s.get .ECC_POISON_CNT (memIdx m) + 1) 65535
        ∧ t.get .ECC_LAST_ARRAY (memIdx m) = r.array.toNat ∧ t.get .ECC_LAST_WORD (memIdx m) = r.word.toNat ∧ t.get .REL_POISON m.half = 1 ∧ t.faultyAt (memIdx m) r.array.toNat r.word.toNat = some 2
        ∧ t.get .ECC_LAP_MS (memIdx m) = min ms 65535 ∧ t.get .REL_SCRUB_SLOW m.half = 1
        ∧ Frame [(.ECC_UE_CNT, memIdx m), (.ECC_POISON_CNT, memIdx m), (.ECC_LAST_ARRAY, memIdx m), (.ECC_LAST_WORD, memIdx m), (.REL_POISON, m.half), (.ECC_LAP_MS, memIdx m), (.REL_SCRUB_SLOW, m.half)] s t) ∧
  (∀ (s : State) (m : MemUnit) (r : ScrubResult), memHere m = true → s.get .REL_EN m.half = 1 → s.running m.half = true → s.scrubFind (memIdx m) r = .corrected → r.lapEnd = none → Does (.scrubRead m r) s fun t =>
      t.get .ECC_CE_CNT (memIdx m) = (s.get .ECC_CE_CNT (memIdx m) + 1) % 2 ^ 32 ∧ t.get .ECC_UE_CNT (memIdx m) = s.get .ECC_UE_CNT (memIdx m)) ∧
  (∀ (s : State) (m : MemUnit) (a : BitVec 10) (w : BitVec 17) (rd : UeReader), memHere m = true → Does (.memoryUncorrectableRead m a w rd) s fun t =>
      t.get .ECC_UE_CNT (memIdx m) = min (s.get .ECC_UE_CNT (memIdx m) + 1) 65535 ∧ t.get .ECC_LAST_ARRAY (memIdx m) = a.toNat ∧ t.get .ECC_LAST_WORD (memIdx m) = w.toNat) ∧
  (∀ (s : State) (m : MemUnit) (a : BitVec 10) (w : BitVec 17) (k : Knd), memHere m = true → s.kndRuns k = true → s.get .KND_STATE k = 0 → Does (.memoryUncorrectableRead m a w (.kneaderFetch k)) s fun t =>
      t.get .KND_CAUSE k = 1 ∧ t.get .KND_TRAP_CNT k = min (s.get .KND_TRAP_CNT k + 1) 255 ∧ t.get .KND_STATE k ≠ 0) ∧
  (∀ (s : State) (m : MemUnit) (a : BitVec 10) (w : BitVec 17) (k : Fin 9), memHere m = true → Does (.memoryUncorrectableRead m a w (.pantry k)) s fun t => t.areaGood m.half k = false) ∧
  (∀ (s : State) (m : MemUnit) (a : BitVec 10) (w : BitVec 17) (l : Lane), memHere m = true → Cause.memUe ∉ (s.lane l).fences → Does (.memoryUncorrectableRead m a w (.slice l)) s fun t =>
      Cause.memUe ∈ (t.lane l).fences ∧ t.get .ACQ_STATE l = 0 ∧ t.get .ECC_UE_CNT (memIdx m) = min (s.get .ECC_UE_CNT (memIdx m) + 1) 65535
        ∧ t.get .ECC_LAST_ARRAY (memIdx m) = a.toNat ∧ t.get .ECC_LAST_WORD (memIdx m) = w.toNat) ∧
  (∀ (s : State) (m : MemUnit) (a : BitVec 10) (w : BitVec 17) (o : BitVec 20), memHere m = true → Does (.memoryUncorrectableRead m a w (.hostWindow o)) s fun t =>
      t.get .REL_HOST_UE m.half = 1 ∧ Out.read m.half o.toNat 0xFFFFFFFF ∈ t.out ∧ t.ap = s.ap ∧ t.pending = s.pending) ∧
  (∀ (s : State) (m : MemUnit) (a : BitVec 10) (w : BitVec 17) (q : Fin 8), memHere m = true → s.get .RING_HALTED (ringIdx m.half q) ≠ 1 → Does (.memoryUncorrectableRead m a w (.dma q)) s fun t =>
      t.get .RING_HALTED (ringIdx m.half q) = 1 ∧ t.get .RING_ERR (ringIdx m.half q) = (if q.val < 4 then 2 else 3) ∧ t.get .RING_ACTIVE (ringIdx m.half q) = 0
        ∧ t.get .HIF_RING_HALT m.half = 1 ∧ t.get .REL_DMA_UE m.half = 1) ∧
  (∀ (s : State) (l : Lane) (b : Bool), Cause.memUe ∈ (s.lane l).fences → Does (.memUeRelease ⟨l, b⟩) s fun t =>
      (t.lane l).fences = (s.lane l).fences.erase .memUe ∧ (∀ c ∈ t.dmt, c.key / 4096 = l.val → 1 < c.key / 1024 % 4)
        ∧ (s.get .EQ_CKPT_VALID l = 1 → b = true → t.app .EQ_D1_SHADOW l = (s.lane l).ckpt.d1 % 2 ^ Fld.width .EQ_D1_SHADOW)
        ∧ (s.get .EQ_CKPT_VALID l ≠ 1 ∨ b = false → ∀ k : Fin 48, t.app .EQ_FFE_SHADOW (l.val * 48 + k.val) = Fld.reset .EQ_FFE_SHADOW (l.val * 48 + k.val))) ∧
  (∀ (s : State) (l : Lane) (b : Bool), Cause.memUe ∉ (s.lane l).fences → exec (.memUeRelease ⟨l, b⟩) s = .next (settle s)) ∧
  (∀ (s : State) (h : Half), s.kndOut (sysKnd h 2) = false → (s.half h).log.length ≠ (s.half h).logFlash → Does (.repairLogFlashCopy h) s fun t => (t.half h).logFlash = (s.half h).log.length ∧ (t.half h).log = (s.half h).log ∧ (t.half h).logAt = 1 - (s.half h).logAt ∧ Frame [] s t)

/-- R423, R492 and R514 to R521; stages: 0 IDLE, 1 LOADING, 2 VERIFYING, 3 VERIFIED, 4 PENDING, 5 TRIAL (R524). Completes: selftest, updLoad, updLoadComplete, updVerify, updVerifyComplete, updActivate, updConfirm, updRollback, dumpBuf, dumpFetch. -/
def Obligations.ServiceCommands : Prop :=
  (∀ (s : State) (h : Half) (r : Req), Takes s h .selftest r → s.testFault h (reqParam r 0 % 8) (reqParam r 0 / 256) = none → Does (.selftest h r) s fun t =>
      t.get .ST_KIND h = reqParam r 0 % 8 ∧ t.get .ST_UNIT h = reqParam r 0 / 256 % 64 ∧ (t.half h).stCmd.isSome = true ∧ (t.half h).stAt = s.ticks h
        ∧ (1 ≤ reqParam r 0 % 8 → reqParam r 0 % 8 ≤ 2 → t.get .ST_STATE h = 1 ∧ t.get .KND_STATE (testKnd h (reqParam r 0 / 256)) = 2)
        ∧ (reqParam r 0 % 8 = 3 → t.get .ST_STATE h = 2)
        ∧ (reqParam r 0 % 8 = 0 → s.inData (testLane h (reqParam r 0 / 256)) = false → t.get .ST_STATE h = 2)) ∧
  (∀ (s : State) (h : Half) (r : Req) (e : Nat), Takes s h .selftest r → s.testFault h (reqParam r 0 % 8) (reqParam r 0 / 256) = some e → Does (.selftest h r) s fun t => Completed s t h r ⟨3, e, 0, 0⟩ ∧ Frame [] s t) ∧
  (∀ (s : State) (h : Half) (r : Req), Takes s h .updLoad r → (∀ k ∈ reqHalves r, (s.half k).loadCmd = none ∧ (((s.get .BOOT_UPD_STAGE k = 0 ∨ s.get .BOOT_UPD_STAGE k = 3) ∧ reqParam r 3 = 0) ∨ (s.get .BOOT_UPD_STAGE k = 1 ∧ (reqParam r 3 = 0 ∨ reqParam r 3 = s.get .BOOT_LOADED k)))) → reqParam r 3 + reqParam r 2 ≤ 16777216 → Does (.updLoad h r) s fun t =>
      (∀ k ∈ reqHalves r, (t.half k).loadCmd.map (fun p => (p.off, p.len)) = some (reqParam r 3, reqParam r 2))
        ∧ t.out = .dma h (reqAddr r 0) "update" (reqParam r 2) :: s.out ∧ (t.half h).cpls = (s.half h).cpls ∧ Frame [] s t) ∧
  (∀ (s : State) (h : Half) (r : Req), Takes s h .updLoad r → r.scope = 1 → reqHalf r = h → s.get .BOOT_UPD_STAGE h = 2 ∨ (s.half h).loadCmd.isSome = true → Does (.updLoad h r) s fun t => Completed s t h r ⟨3, 3, 0, 0⟩ ∧ Frame [] s t) ∧
  (∀ (s : State) (h : Half) (p : DeltaPiece) (data : List (BitVec 8)), (s.half h).loadCmd = some p → Does (.updLoadComplete h (some data)) s fun t =>
      t.get .BOOT_LOADED h = (p.off + p.len) % 2 ^ 32 ∧ (t.half h).loadCmd = none ∧ t.get .BOOT_UPD_STAGE h = 1 ∧ (t.half h).store = (s.half h).store.take p.off ++ s.pieceBytes h p data
        ∧ Frame [(.BOOT_LOADED, h), (.BOOT_UPD_STAGE, h)] s t) ∧
  (∀ (s : State) (h : Half) (c : Cmd) (p : DeltaPiece) (data : List (BitVec 8)), (s.half h).loadCmd = some p → p.cmd = some c → s.loadMate h p.cmd = false → c.org = c.exe → Does (.updLoadComplete h (some data)) s fun t => Completed s t c.org c.req ⟨0, 0, 0, 0⟩) ∧
  (∀ (s : State) (h : Half) (c : Cmd) (p : DeltaPiece), (s.half h).loadCmd = some p → p.cmd = some c → c.org = c.exe → Does (.updLoadComplete h none) s fun t =>
      (t.half h).loadCmd = none ∧ t.get .BOOT_LOADED h = s.get .BOOT_LOADED h ∧ t.get .BOOT_ERR h = 5 ∧ Completed s t c.org c.req ⟨9, 0x61, 0, 0⟩ ∧ Frame [(.BOOT_ERR, h)] s t) ∧
  (∀ (s : State) (h : Half) (data : Option (List (BitVec 8))), (s.half h).loadCmd = none → exec (.updLoadComplete h data) s = .next (settle s)) ∧
  (∀ (s : State) (h : Half) (r : Req), Takes s h .updVerify r → (∀ k ∈ reqHalves r, (s.half k).loadCmd = none ∧ s.get .BOOT_UPD_STAGE k = 1) → Does (.updVerify h r) s fun t =>
      (∀ k ∈ reqHalves r, t.get .BOOT_UPD_STAGE k = 2 ∧ (t.half k).boot.valid (1 - (s.half k).boot.active) = false ∧ (t.half k).updCmd.isSome = true)
        ∧ (t.half h).cpls = (s.half h).cpls ∧ Frame ((reqHalves r).map fun (k : Half) => (.BOOT_UPD_STAGE, k.val)) s t) ∧
  (∀ (s : State) (h : Half) (k : ApplyChecks) (e : Nat), s.get .BOOT_UPD_STAGE h = 2 → (s.applyDelta h ((1 - (s.half h).boot.active) % 2) k).2 = e → e ≠ 0 → Does (.updVerifyComplete h k) s fun t =>
      t.get .BOOT_UPD_STAGE h = 1 ∧ t.get .BOOT_ERR h = e % 2 ^ Fld.width .BOOT_ERR ∧ (t.half h).updCmd = none ∧ (t.half h).boot = (s.half h).boot ∧ Frame [(.BOOT_UPD_STAGE, h), (.BOOT_ERR, h)] s t) ∧
  (∀ (s : State) (h : Half) (k : ApplyChecks) (c : Cmd), s.get .BOOT_UPD_STAGE h = 2 → (s.applyDelta h ((1 - (s.half h).boot.active) % 2) k).2 ≠ 0 → (s.half h).updCmd = some c → c.org = c.exe → Does (.updVerifyComplete h k) s fun t =>
      Completed s t c.org c.req ⟨9, if (s.applyDelta h ((1 - (s.half h).boot.active) % 2) k).2 = 5 then 0x61 else 0x60, 0, 0⟩) ∧
  (∀ (s : State) (h : Half) (k : ApplyChecks), s.get .BOOT_UPD_STAGE h = 2 → (s.applyDelta h ((1 - (s.half h).boot.active) % 2) k).2 = 0 → Does (.updVerifyComplete h k) s fun t =>
      let slot := (1 - (s.half h).boot.active) % 2
      t.get .BOOT_UPD_STAGE h = 3 ∧ (t.half h).boot.valid slot = true ∧ (t.half h).boot.hash slot = k.result.hash ∧ (t.half h).updCmd = none
        ∧ (t.half h).slots.toList = (s.half h).slots.toList.set slot (some (s.applyDelta h slot k).1) ∧ Frame [(.BOOT_UPD_STAGE, h)] s t) ∧
  (∀ (s : State) (h : Half) (k : ApplyChecks), s.get .BOOT_UPD_STAGE h ≠ 2 → exec (.updVerifyComplete h k) s = .next (settle s)) ∧
  (∀ (s : State) (h : Half) (r : Req), Takes s h .updActivate r → (∀ k ∈ reqHalves r, (s.half k).loadCmd = none ∧ s.get .BOOT_UPD_STAGE k = 3) → Does (.updActivate h r) s fun t =>
      (∀ k ∈ reqHalves r, t.get .BOOT_UPD_STAGE k = 4 ∧ (t.half k).boot.pending = 2 - (s.half k).boot.active ∧ (t.half k).boot.trial = false)
        ∧ Completed s t h r ⟨0, 0, 0, 0⟩ ∧ Frame ((reqHalves r).map fun (k : Half) => (.BOOT_UPD_STAGE, k.val)) s t) ∧
  (∀ (s : State) (h : Half) (r : Req), Takes s h .updConfirm r → (∀ k ∈ reqHalves r, (s.half k).loadCmd = none ∧ s.get .BOOT_UPD_STAGE k = 5) → Does (.updConfirm h r) s fun t =>
      (∀ k ∈ reqHalves r, t.get .BOOT_UPD_STAGE k = 0 ∧ t.get .BOOT_TRIAL k = 0 ∧ (t.half k).boot.active = (s.half k).boot.pending - 1 ∧ (t.half k).boot.pending = 0
          ∧ (t.half k).boot.setActive = (s.half k).boot.setTrial)
        ∧ Completed s t h r ⟨0, 0, 0, 0⟩ ∧ Frame ((reqHalves r).flatMap fun (k : Half) => [(.BOOT_UPD_STAGE, k.val), (.BOOT_TRIAL, k.val)]) s t) ∧
  (∀ (s : State) (h : Half) (r : Req), Takes s h .updRollback r → (∀ k ∈ reqHalves r, (s.half k).loadCmd = none ∧ (s.get .BOOT_UPD_STAGE k = 1 ∨ s.get .BOOT_UPD_STAGE k = 3 ∨ s.get .BOOT_UPD_STAGE k = 4 ∨ s.get .BOOT_UPD_STAGE k = 5)) → Does (.updRollback h r) s fun t =>
      (∀ k ∈ reqHalves r, t.get .BOOT_UPD_STAGE k = (if s.get .BOOT_UPD_STAGE k < 4 then 0 else 3) ∧ (4 ≤ s.get .BOOT_UPD_STAGE k → (t.half k).boot.pending = 0)
          ∧ (s.get .BOOT_UPD_STAGE k = 3 → (t.half k).boot.valid (1 - (s.half k).boot.active) = false))
        ∧ (t.half h).resets = (s.half h).resets ++ ((reqHalves r).filter fun (k : Half) => s.get .BOOT_UPD_STAGE k = 5).map (fun (k : Half) => (r.tag, 1, k.val))
        ∧ Completed s t h r ⟨0, 0, 0, 0⟩ ∧ Frame ((reqHalves r).map fun (k : Half) => (.BOOT_UPD_STAGE, k.val)) s t) ∧
  (∀ (s : State) (h : Half) (r : Req), Takes s h .dumpBuf r → 4 * 2 ^ 20 ≤ reqParam r 2 → Does (.dumpBuf h r) s fun t => (t.half h).dumpBuf = some (reqAddr r 0, reqParam r 2) ∧ Completed s t h r ⟨0, 0, 0, 0⟩ ∧ Frame [] s t) ∧
  (∀ (s : State) (h : Half) (r : Req) (d : Dump), Takes s h .dumpFetch r → (s.half h).pantryDump = some d → 65536 ≤ reqParam r 2 → Does (.dumpFetch h r) s fun t => t.out = .dump h (reqAddr r 0) d :: s.out ∧ Completed s t h r ⟨0, 0, 0, 0⟩ ∧ Frame [] s t) ∧
  (∀ (s : State) (h : Half) (r : Req), Takes s h .dumpFetch r → (s.half h).pantryDump = none → Does (.dumpFetch h r) s fun t => Completed s t h r ⟨3, 5, 0, 0⟩ ∧ Frame [] s t)

/-- R17 to R20, R39 to R42, R54 and R577: the numbers of spares are those of R434. Completes: cellFail, refclkLoss, refclkRestored, pllLockLoss, railUndervoltage. -/
def Obligations.CellsAndSupplies : Prop :=
  (∀ (s : State) (l : Lane) (k : Fin 130), s.get .FE_SEG_FAILED l < 2 → Does (.cellFail (.segment l k)) s fun t =>
      t.get .FE_SEG_FAILED l = s.get .FE_SEG_FAILED l + 1 ∧ t.get .FE_SEG_FAIL l = 1 ∧ (s.get .FE_SEG_FAILED l = 1 → t.get .CAL_INTERP_ONLY l = 1) ∧ (t.lane l).fences = (s.lane l).fences
        ∧ t.get .SP_SEG_SPARE (Group.spIdx l.group) = (l.group.lanes.map fun (m : Lane) => 2 - t.get .FE_SEG_FAILED m).sum % 32) ∧
  (∀ (s : State) (l : Lane) (k : Fin 130), 2 ≤ s.get .FE_SEG_FAILED l → Does (.cellFail (.segment l k)) s fun t => t.get .FE_SEG_FAILED l = 3 ∧ Cause.feSeg ∈ (t.lane l).fences) ∧
  (∀ (s : State) (l : Lane) (k : Fin 65), s.get .FE_SADC_FAILED l = 0 → Does (.cellFail (.subAdc l k)) s fun t => t.get .FE_SADC_FAILED l = 1 ∧ t.get .CAL_INTERP_ONLY l = 1 ∧ (t.lane l).fences = (s.lane l).fences) ∧
  (∀ (s : State) (l : Lane) (k : Fin 65), 1 ≤ s.get .FE_SADC_FAILED l → Does (.cellFail (.subAdc l k)) s fun t => t.get .FE_SADC_FAILED l = 2 ∧ Cause.feSadc ∈ (t.lane l).fences) ∧
  (∀ (s : State) (h : Half) (g : Fin 4) (c : Fin 7) (a : BitVec 10) (w : BitVec 17), memHere ⟨h, c, g⟩ = true → (memIdx ⟨h, c, g⟩, a.toNat, w.toNat) ∉ s.badRows → Does (.cellFail (.sramRow h g c a w)) s fun t =>
      t.badRows = (memIdx ⟨h, c, g⟩, a.toNat, w.toNat) :: s.badRows ∧ t.rows = s.rows
        ∧ (s.rowsFree (memIdx ⟨h, c, g⟩) a.toNat ≠ 0 → Frame [] s t)
        ∧ (s.rowsFree (memIdx ⟨h, c, g⟩) a.toNat = 0 → 4 ≤ c.val → t.get .REL_ROW_EXHAUST h = 1)) ∧
  (∀ (s : State) (l : Lane), s.get .SP_SLICE_SPARE (Group.spIdx l.group) = 0 → (s.group l.group).sliceRun = none → s.idleLane l = none → Does (.cellFail (.slice l)) s fun t => Cause.slice ∈ (t.lane l).fences ∧ t.get .ACQ_STATE l = 0) ∧
  (∀ (s : State) (l : Lane) (m : Lane), s.get .SP_SLICE_SPARE (Group.spIdx l.group) = 0 → Cause.slice ∉ (s.lane l).fences → (s.group l.group).sliceRun = none → s.testLends l.half 0 (Group.spIdx l.group) = false → s.idleLane l = some m → Does (.cellFail (.slice l)) s fun t => Cause.slice ∈ (t.lane m).fences ∧ Cause.slice ∉ (t.lane l).fences ∧ t.get .REL_SPARE_USED l.half = 1) ∧
  (∀ (s : State) (g : Group), Does (.cellFail (.loopEngine g)) s fun t => Cause.loop ∈ (t.group g).fences) ∧
  (∀ (s : State) (g : Group), Cause.groupIo ∉ (s.group g).fences → s.manages g.half = true → Does (.cellFail (.monitorIo g)) s fun t => (t.group g).fences = (s.group g).fences ++ [.groupIo] ∧ Posted s t g.half 0x0101 3 0 ((s.group g).fences.length + 1)) ∧
  (∀ (s : State) (p : Lane), Does (.cellFail (.portLogic p)) s fun t => Cause.portLogic ∈ (t.port p).fences) ∧
  (∀ (s : State) (h : Half), Does (.cellFail (.fabric h)) s fun t => Cause.halfPower ∈ (t.half h).fences) ∧
  (∀ (s : State) (h : Half), (s.half h).off = false → s.porst = false → Does (.refclkLoss h) s fun t => (t.half h).refOk = false ∧ (t.half h).clock = false ∧ Cause.refclk ∈ (t.half h).fences) ∧
  (∀ (s : State) (h : Half), Does (.refclkRestored h) s fun t => (t.half h).refOk = true ∧ (t.half h).fences = (s.half h).fences ∧ Frame [] s t) ∧
  (∀ (s : State) (g : Group), s.get .PG_STATE g ≤ 1 → Does (.pllLockLoss (.group g)) s fun t => Cause.groupPower ∈ (t.group g).fences) ∧
  (∀ (s : State) (h : Half), (s.half h).off = false → Does (.pllLockLoss (.half h)) s fun t => Cause.halfPower ∈ (t.half h).fences ∧ (t.half h).clock = false) ∧
  (∀ (s : State), s.porst = false → Does .railUndervoltage s fun t => ∀ h : Half, (s.half h).off = false → Cause.halfPower ∈ (t.half h).fences) ∧
  (∀ (s : State), s.porst = true → exec .railUndervoltage s = .next (settle s))

/-- R45 to R51; states of TOP_BRIDGE: 0 JOINED, 1 ISLAND, 2 REJOINING. Completes: heartbeatSend, heartbeatReceive, heartbeatWindowExpiry, releaseHeartbeatTimeout. -/
def Obligations.Heartbeats : Prop :=
  (∀ (s : State) (h : Half), s.beats h = true → Does (.heartbeatSend h) s fun t => t.out = .heartbeat h (s.get .BR_STATE h) (if h = halfA then some ((s.half h).sec, (s.half h).ns, (s.half h).frac) else none) :: s.out ∧ Frame [] s t) ∧
  (∀ (s : State) (h : Half), s.beats h = false → exec (.heartbeatSend h) s = .next (settle s)) ∧
  (∀ (s : State) (h : Half) (b : Heartbeat), s.managing h = true → b.good = true → s.get .BR_STATE h = 0 → b.state ≠ 1 → h = halfA → Does (.heartbeatReceive h b) s fun t => t.get .BR_MISSED h = 0 ∧ t.get .BR_STATE h = 0 ∧ (t.half h).heard = true ∧ Frame [(.BR_MISSED, h)] s t) ∧
  (∀ (s : State) (b : Heartbeat), s.managing halfB = true → b.good = true → s.get .BR_STATE halfB = 0 → b.state ≠ 1 → b.offset16.natAbs ≤ 16000 → Does (.heartbeatReceive halfB b) s fun t =>
      t.getS .TIME_B_OFFSET halfB = b.offset16 ∧ (t.half halfB).corr = roundUp (-(b.offset16 * 2 ^ 24)) 2500 ∧ (t.half halfB).ns = (s.half halfB).ns
        ∧ Frame [(.BR_MISSED, halfB), (.TIME_B_OFFSET, halfB)] s t) ∧
  (∀ (s : State) (h : Half) (b : Heartbeat), s.managing h = true → b.good = false → Does (.heartbeatReceive h b) s fun t => t.get .BR_MISSED h = 0 ∧ (t.half h).heard = true ∧ (t.half h).good = 0 ∧ Frame [(.BR_MISSED, h)] s t) ∧
  (∀ (s : State) (h : Half) (b : Heartbeat), s.managing h = true → b.good = true → s.get .BR_STATE h = 0 → b.state = 1 → Does (.heartbeatReceive h b) s fun t => t.get .BR_STATE h = 1 ∧ t.get .BR_MISSED h = 0 ∧ t.get .BR_ISLAND_CNT h = min (s.get .BR_ISLAND_CNT h + 1) 65535) ∧
  (∀ (s : State) (h : Half), s.managing h = true → (s.half h).heard = true → (s.half h).windowAt + 2500 ≤ s.ticks h → s.get .BR_MISSED h < 7 → Does (.heartbeatWindowExpiry h) s fun t => t.get .BR_MISSED h = s.get .BR_MISSED h + 1 ∧ (t.half h).good = 0 ∧ (t.half h).windowAt = s.ticks h ∧ Frame [(.BR_MISSED, h)] s t) ∧
  (∀ (s : State) (h : Half), s.managing h = true → (s.half h).heard = true → (s.half h).windowAt + 2500 ≤ s.ticks h → 7 ≤ s.get .BR_MISSED h → s.get .BR_STATE h ≠ 1 → Does (.heartbeatWindowExpiry h) s fun t =>
      t.get .BR_MISSED h = 8 ∧ t.get .BR_STATE h = 1 ∧ t.get .BR_ISLAND_CNT h = min (s.get .BR_ISLAND_CNT h + 1) 65535 ∧ (h = halfB → t.get .TIME_SYNC halfB = 2 ∧ (t.half halfB).holdover = true)) ∧
  (∀ (s : State) (h : Half), s.managing h = true → (s.half h).heard = false → (s.half h).releasedAt + msTicks 1000 ≤ s.ticks h → s.get .BR_STATE h ≠ 1 → Does (.releaseHeartbeatTimeout h) s fun t => t.get .BR_STATE h = 1 ∧ t.get .BR_MISSED h = 8) ∧
  (∀ (s : State) (h : Half), s.ticks h < (s.half h).windowAt + 2500 → exec (.heartbeatWindowExpiry h) s = .next (settle s)) ∧
  (∀ (s : State) (h : Half), (s.half h).heard = true ∨ s.ticks h < (s.half h).releasedAt + msTicks 1000 → exec (.releaseHeartbeatTimeout h) s = .next (settle s))

/-- R46 to R49, R398, R457, R460 and R468; 16,000 sixteenths of a nanosecond are 1 µs. Completes: releaseHeartbeatTimeout, heartbeatReceive, rejoinTimeStep, bridgeCompletionReceive, bridgeRecordReceive, bridgeCommandReceive. -/
def Obligations.IslandAndRejoin : Prop :=
  (∀ (s : State), s.managing halfB = true → (s.half halfB).heard = false → (s.half halfB).releasedAt + msTicks 1000 ≤ s.ticks halfB → s.get .BR_STATE halfB ≠ 1 → s.ringsProgrammed = true → (s.half halfA).snaps = [] → Does (.releaseHeartbeatTimeout halfB) s fun t =>
      (t.half halfB).promoted = true ∧ t.get .BR_ROLE halfB = 1 ∧ t.get .HIF_RUN halfB = 1 ∧ (∀ q : Fin 8, t.get .RING_EN (8 + q.val) = 1) ∧ t.bridge.cmds = [] ∧ t.bridge.recs = []) ∧
  (∀ (s : State), s.managing halfB = true → (s.half halfB).heard = false → (s.half halfB).releasedAt + msTicks 1000 ≤ s.ticks halfB → s.get .BR_STATE halfB ≠ 1 → s.ringsProgrammed = false → (s.half halfB).promoted = false → Does (.releaseHeartbeatTimeout halfB) s fun t => (t.half halfB).promoted = false ∧ t.get .HIF_NO_RINGS halfB = 1) ∧
  (∀ (s : State) (b : Heartbeat), s.managing halfA = true → b.good = true → s.get .BR_STATE halfA = 1 → s.get .BR_STATE halfB = 1 → 999 ≤ (s.half halfA).good → 1000 ≤ (s.half halfB).good → 16000 < (s.getS .TIME_B_OFFSET halfB).natAbs → Does (.heartbeatReceive halfA b) s fun t =>
      t.get .BR_STATE halfA = 2 ∧ t.get .BR_STATE halfB = 2 ∧ (t.half halfB).promoted = false ∧ t.get .BR_ROLE halfB = 0
        ∧ (t.half halfB).rejoinStepAt = some ((s.now halfA + 100000000 + 999999999) / 1000000000) ∧ (t.half halfB).addend = (s.half halfA).addend) ∧
  (∀ (s : State) (k : Nat), (s.half halfB).rejoinStepAt = some k → k ≤ (s.half halfA).sec → Does .rejoinTimeStep s fun t =>
      (t.half halfB).sec = (s.half halfA).sec ∧ (t.half halfB).ns = (s.half halfA).ns ∧ (t.half halfB).frac = (s.half halfA).frac
        ∧ (t.half halfB).rejoinStepAt = none ∧ t.get .BR_STATE halfA = 0 ∧ t.get .BR_STATE halfB = 0 ∧ t.get .TIME_SYNC halfB = 1) ∧
  (∀ (s : State) (k : Nat), (s.half halfB).rejoinStepAt = some k → (s.half halfA).sec < k → exec .rejoinTimeStep s = .next (settle s)) ∧
  (∀ (s : State) (c : Cpl) (rest : List Cpl) (k : Cmd), s.bridge.cpls = c :: rest → (s.half halfA).fwd = [k] → k.req.tag = c.tag → k.req.ring = c.ring → k.req.index = c.index → Does .bridgeCompletionReceive s fun t => (t.half halfA).cpls = (s.half halfA).cpls ++ [c] ∧ (t.half halfA).fwd = [] ∧ t.bridge.cpls = rest ∧ Frame [] s t) ∧
  (∀ (s : State), s.bridge.cpls = [] → exec .bridgeCompletionReceive s = .next (settle s)) ∧
  (∀ (s : State) (e : Evt) (rest : List BRec), s.bridge.recs = .evt e :: rest → s.get .BR_STATE halfA ≠ 1 → Does .bridgeRecordReceive s fun t => (t.half halfA).evts = (s.half halfA).evts ++ [e] ∧ t.bridge.recs = rest ∧ Frame [] s t) ∧
  (∀ (s : State) (x : Tlm) (rest : List BRec), s.bridge.recs = .tlm x :: rest → s.get .BR_STATE halfA ≠ 1 → Does .bridgeRecordReceive s fun t => (t.half halfA).tlms = (s.half halfA).tlms ++ [x] ∧ t.bridge.recs = rest ∧ Frame [] s t) ∧
  (∀ (s : State) (x : List W32) (rest : List BRec), s.bridge.recs = .ts x :: rest → s.get .BR_STATE halfA ≠ 1 → (s.half halfA).tsq.length < 64 → Does .bridgeRecordReceive s fun t => (t.half halfA).tsq = (s.half halfA).tsq ++ [x] ∧ t.bridge.recs = rest ∧ Frame [(.TIME_TSQ_FILL, halfA)] s t) ∧
  (∀ (s : State) (c : Cmd) (rest : List Cmd), s.bridge.cmds = c :: rest → s.managing halfB = true → s.split halfB = false → Does .bridgeCommandReceive s fun t =>
      let u := ((s.modBridge fun b => { b with cmds := rest }).perfHalf halfB 0x0C).perfHalf halfB 0x01
      t = match s.invalid (some c.op) c.req with
        | some e => u.complete c ⟨4, e, 0, 0⟩
        | none => u.accept c) ∧
  (∀ (s : State) (c : Cmd) (rest : List Cmd), s.bridge.cmds = c :: rest → s.managing halfB = true → s.get .BR_STATE halfB ≠ 1 → c.op = .nop → c.exe = halfB → c.org = halfA → c.req.sched = false → s.invalid (some .nop) c.req = none → s.busyReason halfB .nop c.req = none → (s.half halfB).promoted = false → Does .bridgeCommandReceive s fun t =>
      t.bridge.cmds = rest ∧ t.bridge.cpls.map (fun x => (x.tag, x.status)) = s.bridge.cpls.map (fun x => (x.tag, x.status)) ++ [(c.req.tag, if c.late = 0 then 0 else 1)] ∧ Frame [] s t)

/-- R422, R492, R493, R557, R558, R560 and R564. How many bytes of a buffer are written no rule states (a free value). Completes: fiUnlock, fiSet, fiClear, faultInjectionExpiry, fiKeyWrite, fiRelockWrite, attOpen, attQuote, attCert, attClose. -/
def Obligations.InjectionAndAttestation : Prop :=
  (∀ (s : State) (h : Half) (r : Req), Takes s h .fiUnlock r → reqParam r 0 = 0x46494E4A → s.get .FI_DISABLE h ≠ 1 ∨ s.get .FI_LOCK h ≠ 1 → Does (.fiUnlock h r) s fun t => t.get .FI_UNLOCKED h = 1 ∧ Completed s t h r ⟨0, 0, 0, 0⟩ ∧ Frame [(.FI_UNLOCKED, h)] s t) ∧
  (∀ (s : State) (h : Half) (r : Req), Takes s h .fiUnlock r → reqParam r 0 = 0x46494E4A → s.get .FI_DISABLE h = 1 → s.get .FI_LOCK h = 1 → Does (.fiUnlock h r) s fun t => Completed s t h r ⟨3, 8, 0, 0⟩ ∧ Frame [] s t) ∧
  (∀ (s : State) (h : Half) (r : Req), Takes s h .fiSet r → s.get .FI_UNLOCKED h ≠ 1 → Does (.fiSet h r) s fun t => Completed s t h r ⟨3, 8, 0, 0⟩ ∧ Frame [] s t) ∧
  (∀ (s : State) (h : Half) (r : Req) (i : Fin 32), Takes s h .fiSet r → s.get .FI_UNLOCKED h = 1 → (fiSlots h).find? (fun j => s.get .FIS_ACTIVE j != 1) = some i → (fiSlots h).all (fun j => s.get .FIS_ACTIVE j != 1 || s.get .FIS_KIND j != reqParam r 0 || (s.scopeLanes r).all (fun l => !s.slotCovers j l)) = true → Does (.fiSet h r) s fun t =>
      t.get .FIS_ACTIVE i = 1 ∧ t.get .FIS_KIND i = reqParam r 0 % 2 ^ Fld.width .FIS_KIND ∧ t.get .FIS_SCOPE i = r.scope.toNat % 2 ^ Fld.width .FIS_SCOPE ∧ t.get .FIS_ID i = r.id.toNat ∧ t.get .FIS_HOST_TAG i = r.tag.toNat ∧ t.get .FIS_INJ_CNT i = 0
        ∧ ((t.fi i).p1, (t.fi i).p2, (t.fi i).p3) = (reqParam r 1, reqParam r 2, reqParam r 3) ∧ (r.tag, 0, 0, 0, 0) ∈ (t.half h).cpls.map Cpl.says ∧ t.ap = s.ap) ∧
  (∀ (s : State) (h : Half) (r : Req) (i : Fin 32), Takes s h .fiSet r → s.get .FI_UNLOCKED h = 1 → (fiSlots h).find? (fun j => s.get .FIS_ACTIVE j != 1) = some i → (fiSlots h).all (fun j => s.get .FIS_ACTIVE j != 1) = true → reqParam r 0 = 1 ∨ reqParam r 0 = 3 ∨ reqParam r 0 = 4 ∨ reqParam r 0 = 7 ∨ reqParam r 0 = 8 → Does (.fiSet h r) s fun t =>
      Completed s t h r ⟨0, 0, 0, 0⟩
        ∧ Frame [(.FIS_ACTIVE, i), (.FIS_KIND, i), (.FIS_SCOPE, i), (.FIS_ID, i), (.FIS_HOST_TAG, i), (.FIS_INJ_CNT, i), (.FI_ACTIVE_MAP, h)] s t) ∧
  (∀ (s : State) (h : Half) (r : Req), Takes s h .fiSet r → s.get .FI_UNLOCKED h = 1 → s.get .FIS_ACTIVE (16 * h.val) = 1 → s.get .FIS_ACTIVE (16 * h.val + 1) ≠ 1 → s.get .FIS_KIND (16 * h.val) = reqParam r 0 → s.get .FIS_SCOPE (16 * h.val) = 4 → r.scope = 4 → s.get .FIS_ID (16 * h.val) = r.id.toNat → Does (.fiSet h r) s fun t => Completed s t h r ⟨3, 0x0B, 0, 0⟩ ∧ Frame [] s t) ∧
  (∀ (s : State) (h : Half) (r : Req), Takes s h .fiClear r → Does (.fiClear h r) s fun t =>
      Completed s t h r ⟨0, 0, 0, 0⟩ ∧ t.ap = s.ap ∧ (r.scope ≠ 1 ∨ (fiSlots h).all (fun i => t.get .FIS_ACTIVE i != 1) = true)) ∧
  (∀ (s : State) (h : Half) (j : Fin 16) (i : Fin 32), i.val = 16 * h.val + j.val → s.get .FIS_ACTIVE i = 1 → s.injectionOver i = true → Does (.faultInjectionExpiry h j) s fun t => t.get .FIS_ACTIVE i = 0 ∧ t.get .FIS_KIND i = 0 ∧ Frame [(.FIS_ACTIVE, i), (.FIS_KIND, i), (.FIS_SCOPE, i), (.FIS_ID, i), (.FIS_HOST_TAG, i), (.FI_ACTIVE_MAP, h)] s t) ∧
  (∀ (s : State) (h : Half) (j : Fin 16) (i : Fin 32), i.val = 16 * h.val + j.val → s.get .FIS_ACTIVE i = 0 → exec (.faultInjectionExpiry h j) s = .next (settle s)) ∧
  (∀ (s : State) (h : Half), s.running h = true → s.answers h = true → s.get .FI_DISABLE h ≠ 1 ∨ s.get .FI_LOCK h ≠ 1 → Does (.fiKeyWrite h 0x46494E4A) s fun t => t.get .FI_UNLOCKED h = 1 ∧ Frame [(.FI_UNLOCKED, h)] s t) ∧
  (∀ (s : State) (h : Half) (v : W32), v ≠ 0x46494E4A → exec (.fiKeyWrite h v) s = .next (settle s)) ∧
  (∀ (s : State) (h : Half) (v : W32), s.running h = true → s.answers h = true → v.toNat.testBit 30 = true → Does (.fiRelockWrite h v) s fun t =>
      t.get .FI_UNLOCKED h = 0 ∧ (fiSlots h).all (fun i => t.get .FIS_ACTIVE i == 0) = true) ∧
  (∀ (s : State) (h : Half) (v : W32), s.running h = true → s.answers h = true → v.toNat.testBit 30 = false → Does (.fiRelockWrite h v) s fun t => t = s.writeWord h 0xA0000 v.toNat) ∧
  (∀ (s : State) (h : Half) (r : Req), Takes s h .attOpen r → s.get .REL_KEY_LOCKED h ≠ 1 → Does (.attOpen h r) s fun t => (t.half h).sessions = ((s.half h).freeSession, reqNonce r) :: (s.half h).sessions ∧ Completed s t h r ⟨0, 0, (s.half h).freeSession, 0⟩ ∧ Frame [] s t) ∧
  (∀ (s : State) (h : Half) (r : Req) (m : Nat), Takes s h .attQuote r → s.get .REL_KEY_LOCKED h ≠ 1 → (s.half h).nonce (reqParam r 0) = some m → 1024 ≤ reqParam r 3 → Does (.attQuote h r) s fun t =>
      (t.half h).sessions = (s.half h).sessions ∧ (t.half h).cpls.map (fun c => (c.tag, c.status)) = (s.half h).cpls.map (fun c => (c.tag, c.status)) ++ [(r.tag, 0)]
        ∧ (∃ n, n ≤ reqParam r 3 ∧ t.out = .quote h (reqAddr r 1) n m (s.readFields h 0) (((s.half h).run.map fun i => i.checks.hash).getD 0) ((s.half h).record (s.half h).boot.setActive) :: s.out)
        ∧ Frame [] s t) ∧
  (∀ (s : State) (h : Half) (r : Req), Takes s h .attCert r → s.get .REL_KEY_LOCKED h ≠ 1 → 4096 ≤ reqParam r 3 → Does (.attCert h r) s fun t =>
      (t.half h).sessions = (s.half h).sessions ∧ (t.half h).cpls.map (fun c => (c.tag, c.status)) = (s.half h).cpls.map (fun c => (c.tag, c.status)) ++ [(r.tag, 0)]
        ∧ (∃ n, n ≤ reqParam r 3 ∧ t.out = .dma h (reqAddr r 1) "certificates" n :: s.out) ∧ Frame [] s t) ∧
  (∀ (s : State) (h : Half) (r : Req), Takes s h .attClose r → s.get .REL_KEY_LOCKED h ≠ 1 → ((s.half h).nonce (reqParam r 0)).isSome = true → Does (.attClose h r) s fun t => (t.half h).sessions = (s.half h).sessions.filter (fun x => x.1 != reqParam r 0) ∧ Completed s t h r ⟨0, 0, 0, 0⟩ ∧ Frame [] s t) ∧
  (∀ (s : State) (h : Half) (r : Req), Takes s h .attClose r → s.get .REL_KEY_LOCKED h = 1 → Does (.attClose h r) s fun t => Completed s t h r ⟨3, 0x0E, 0, 0⟩ ∧ (t.half h).sessions = (s.half h).sessions ∧ Frame [] s t)

/-- R532, R533 and R538; group states 0 G-ACTIVE, 1 G-REST, 2 G-PROOF, 3 G-DORMANT, 4 G-FAULTED (R542). Completes: proofWindowOpen, proofWindowClose, wakeRailCheck, wakeComplete, groupResetComplete. -/
def Obligations.ProofAndWake : Prop :=
  (∀ (s : State) (g : Group), s.get .PG_STATE g = 2 → s.get .THM_TRIP g.half ≠ 1 → (s.group g).proofDue ≤ (s.half g.half).aon → (List.range 4).all (fun k => !(s.get .PG_SEQ_MASK g).testBit k) = true → Does (.proofWindowOpen g) s fun t =>
      t.get .PG_PROOF_CNT g = (s.get .PG_PROOF_CNT g + 1) % 2 ^ Fld.width .PG_PROOF_CNT ∧ (t.group g).proof = true ∧ (t.group g).proofDue = (s.group g).proofDue + msTicks (s.get .PG_PERIOD g) ∧ (t.group g).proofEnd = (s.half g.half).aon + 2500 * s.get .PG_WIN g ∧ t.seqs = s.seqs ∧ Frame [(.PG_PROOF_CNT, g)] s t) ∧
  (∀ (s : State) (g : Group) (k : Fin 4) (q : SeqN), s.get .PG_STATE g = 2 → s.get .THM_TRIP g.half ≠ 1 → (s.group g).proofDue ≤ (s.half g.half).aon → (s.get .PG_SEQ_MASK g).testBit k = true → q.val = 4 * (g.val / 3) + k.val → (s.sequ q).waiting = false → (s.sequ q).run = none → Does (.proofWindowOpen g) s fun t =>
      t.get .PG_PROOF_CNT g = (s.get .PG_PROOF_CNT g + 1) % 2 ^ Fld.width .PG_PROOF_CNT ∧ (t.group g).proof = true ∧ (t.sequ q).waiting = true
        ∧ t.get .SEQ_OVERRUN q = s.get .SEQ_OVERRUN q
        ∧ Frame ((.PG_PROOF_CNT, g.val) :: (List.range 4).map fun j => (.SEQ_OVERRUN, 4 * (g.val / 3) + j)) s t) ∧
  (∀ (s : State) (g : Group) (k : Fin 4) (q : SeqN), s.get .PG_STATE g = 2 → s.get .THM_TRIP g.half ≠ 1 → (s.group g).proofDue ≤ (s.half g.half).aon → (s.get .PG_SEQ_MASK g).testBit k = true → q.val = 4 * (g.val / 3) + k.val → (s.sequ q).waiting = true → Does (.proofWindowOpen g) s fun t =>
      (t.sequ q).waiting = true ∧ t.get .SEQ_OVERRUN q = min (s.get .SEQ_OVERRUN q + 1) (2 ^ Fld.width .SEQ_OVERRUN - 1)) ∧
  (∀ (s : State) (g : Group), s.get .PG_STATE g ≠ 2 ∨ (s.half g.half).aon < (s.group g).proofDue → exec (.proofWindowOpen g) s = .next (settle s)) ∧
  (∀ (s : State) (g : Group), (s.group g).proof = false ∨ (s.half g.half).aon < (s.group g).proofEnd → exec (.proofWindowClose g) s = .next (settle s)) ∧
  (∀ (s : State) (g : Group), (s.group g).proofEnd ≤ (s.half g.half).aon → Does (.proofWindowClose g) s fun t => (t.group g).proof = false ∧ Frame [] s t) ∧
  (∀ (s : State) (g : Group) (w : Wake), (s.group g).wake = some w → w.railGood = false → (s.half g.half).dev = none → g.half.groups.all (fun k => (s.group k).moves.isEmpty) = true → (s.half halfA).devWait = [] → Does (.wakeRailCheck g true) s fun t => (t.group g).wake = some { w with railGood := true } ∧ Frame [] s t) ∧
  (∀ (s : State) (g : Group) (w : Wake), (s.group g).wake = some w → w.railGood = false → w.second = false → w.began + msTicks 2 ≤ (s.half g.half).aon → (s.half g.half).dev = none → g.half.groups.all (fun k => (s.group k).moves.isEmpty) = true → (s.half halfA).devWait = [] → Does (.wakeRailCheck g false) s fun t => (t.group g).wake = some { w with second := true, began := (s.half g.half).aon } ∧ t.get .PG_WAKE_RETRY g = 1 ∧ Frame [(.PG_WAKE_RETRY, g)] s t) ∧
  (∀ (s : State) (g : Group) (w : Wake), (s.group g).wake = some w → w.railGood = false → w.second = true → w.began + msTicks 2 ≤ (s.half g.half).aon → (s.half g.half).dev = none → g.half.groups.all (fun k => (s.group k).moves.isEmpty) = true → (s.half halfA).devWait = [] → (fiSlots g.half).all (fun i => s.get .FIS_ACTIVE i != 1) = true → Does (.wakeRailCheck g false) s fun t =>
      t.get .PG_STATE g = 4 ∧ t.get .PG_PADS_HELD g = 1 ∧ t.get .PG_WAKE_FAIL g = 1 ∧ (t.group g).wake = none ∧ Cause.wakeFailed ∈ (t.group g).fences
        ∧ Frame [(.PG_STATE, g), (.PG_PADS_HELD, g), (.PG_WAKE_FAIL, g)] s t) ∧
  (∀ (s : State) (g : Group) (w : Wake), (s.group g).wake = some w → w.railGood = true → w.target = 0 → (s.half g.half).dev = none → g.half.groups.all (fun k => (s.group k).moves.isEmpty) = true → (s.half halfA).devWait = [] → Does (.wakeComplete g) s fun t =>
      t.get .PG_STATE g = 0 ∧ t.get .PG_PADS_HELD g = 1 ∧ t.get .PG_WAKE_CNT g = (s.get .PG_WAKE_CNT g + 1) % 2 ^ Fld.width .PG_WAKE_CNT ∧ (t.group g).wake = none
        ∧ AppliedKept ((s.ap.filter (fun c => groupSetting g c.fld c.idx) ++ (s.group g).area.cells).map fun c => (c.fld, c.idx)) s t
        ∧ (s.areaGood g.half (3 + g.val % 3) = true → ((s.group g).area.cells.map fun c => (c.fld, c.idx)).Nodup → ∀ c ∈ (s.group g).area.cells, t.app c.fld c.idx = c.val % 2 ^ c.fld.width)
        ∧ (t.written.all fun c => !inGroup g c.1 c.2) = true
        ∧ (∀ k : Group, k ≠ g → t.get .PG_STATE k = s.get .PG_STATE k ∧ t.get .PG_PADS_HELD k = s.get .PG_PADS_HELD k)) ∧
  (∀ (s : State) (g : Group) (w : Wake), (s.group g).wake = some w → w.railGood = true → w.target = 1 → (s.half g.half).dev = none → g.half.groups.all (fun k => (s.group k).moves.isEmpty) = true → (s.half halfA).devWait = [] → (fiSlots g.half).all (fun i => s.get .FIS_ACTIVE i != 1) = true → (g.lanes.all fun l => (s.portOf l).isNone && s.get .LS_LASEN l != 1) = true → s.groupFenced g = false → Does (.wakeComplete g) s fun t =>
      t.get .PG_WAKE_CNT g = (s.get .PG_WAKE_CNT g + 1) % 2 ^ Fld.width .PG_WAKE_CNT ∧ (t.group g).wake = none ∧ t.get .PG_PADS_HELD g = 1
        ∧ (t.get .PG_STATE g = 5 ∧ (t.group g).hs.any (fun k => k.delaying) = true ∨ t.get .PG_STATE g = 1 ∨ t.get .PG_STATE g = 0 ∧ t.get .PG_REFUSED g = 1)) ∧
  (∀ (s : State) (g : Group) (w : Wake), (s.group g).wake = some w → (s.half g.half).aon < w.began + msTicks 2 → (s.half g.half).dev = none → g.half.groups.all (fun k => (s.group k).moves.isEmpty) = true → (s.half halfA).devWait = [] → exec (.wakeRailCheck g false) s = .next (settle s)) ∧
  (∀ (s : State) (g : Group) (ok : Bool), (s.group g).wake = none → Does (.wakeRailCheck g ok) s fun t => t = s.settleDevice g.half) ∧
  (∀ (s : State) (g : Group), ((s.group g).wake.any fun w => w.railGood) = false → (s.half g.half).dev = none → g.half.groups.all (fun k => (s.group k).moves.isEmpty) = true → (s.half halfA).devWait = [] → exec (.wakeComplete g) s = .next (settle s)) ∧
  (∀ (s : State) (g : Group) (j : Fin 20), (s.group g).resetting = true → s.get .KND_STATE (grpKnd g j) = 1 → Does (.groupResetComplete g) s fun t => (t.group g).resetting = false ∧ t.get .KND_STATE (grpKnd g j) = 0) ∧
  (∀ (s : State) (g : Group), (s.group g).resetting = true → Does (.groupResetComplete g) s fun t => (t.group g).resetting = false
        ∧ Frame ((groupKnds g).map (fun k => (.KND_STATE, k.val)) ++ g.lanes.map fun l => (.EQ_HOLD, l.val)) s t)

/-- R535 and R536. Completes: d3hotEntry, d3hotRetry, d0Return, handshakeDelayEnd, handshakeTimeout, powerSaveComplete. -/
def Obligations.FunctionPowerStates : Prop :=
  (∀ (s : State) (h : Half), s.running h = true → s.get .PH_DSTATE h = 0 → (s.half h).dev = none → Does (.d3hotEntry h) s fun t => t = ((s.put .PH_D3_HOT h 1).modHalf h fun y => { y with d3At := y.aon }).startDevice h 1 none) ∧
  (∀ (s : State) (h : Half), s.running h = true → s.get .PH_D3_HOT h = 1 → (s.half h).d3At + msTicks 99 ≤ (s.half h).aon → s.get .PH_DSTATE h = 0 → (s.half h).dev = none → Does (.d3hotRetry h) s fun t => t = (s.modHalf h fun y => { y with d3At := y.aon }).startDevice h 1 none) ∧
  (∀ (s : State) (h : Half), s.get .PH_DSTATE h = 1 → Does (.d0Return h) s fun t => t.get .PH_D3_HOT h = 0 ∧ t.get .PH_DSTATE h = 0 ∧ (t.half h).held = []) ∧
  (∀ (s : State) (h : Half), s.running h = false ∨ s.get .PH_DSTATE h ≠ 0 ∨ (s.half h).dev.isSome = true → Does (.d3hotEntry h) s fun t => t.get .PH_D3_HOT h = 1 ∧ t.get .PH_DSTATE h = s.get .PH_DSTATE h ∧ Frame [(.PH_D3_HOT, h)] s t) ∧
  (∀ (s : State) (h : Half), s.running h = true → s.get .PH_DSTATE h = 0 → (s.half h).dev = none → s.allDormant h = true → h.groups.all (fun k => (s.group k).moves.isEmpty) = true → Does (.d3hotEntry h) s fun t =>
      t.get .PH_D3_HOT h = 1 ∧ t.get .PH_DSTATE h = 1 ∧ (t.half h).sessions = [] ∧ Frame [(.PH_D3_HOT, h), (.PH_DSTATE, h)] s t) ∧
  (∀ (s : State) (h : Half) (g : Group), s.running h = true → s.get .PH_DSTATE h = 0 → (s.half h).dev = none → (s.half h).held = [] → h.groups.head? = some g → s.get .PG_STATE g = 0 → s.groupFenced g = false → g.lanes.any (fun l => (s.portOf l).isSome) = true → h.groups.all (fun k => (s.group k).moves.isEmpty && (s.group k).hs.isNone) = true → Does (.d3hotEntry h) s fun t =>
      t.get .PH_D3_HOT h = 1 ∧ t.get .PH_DSTATE h = 0 ∧ t.get .PH_D3_REFUSED h = 1 ∧ (t.half h).dev = none ∧ t.get .PG_STATE g = 0 ∧ t.get .PG_LAST_REASON g = 1
        ∧ Frame [(.PH_D3_HOT, h), (.PH_D3_REFUSED, h), (.PG_LAST_BLOCK, g), (.PG_LAST_REASON, g), (.PG_REFUSED, g), (.PG_HS_BLOCK, g)] s t) ∧
  (∀ (s : State) (h : Half), s.running h = true → s.get .PH_D3_HOT h = 1 → (s.half h).d3At + msTicks 99 ≤ (s.half h).aon → s.get .PH_DSTATE h = 0 → (s.half h).dev = none → s.allDormant h = true → h.groups.all (fun k => (s.group k).moves.isEmpty) = true → Does (.d3hotRetry h) s fun t => t.get .PH_DSTATE h = 1 ∧ Frame [(.PH_DSTATE, h)] s t) ∧
  (∀ (s : State) (h : Half), s.get .PH_D3_HOT h ≠ 1 ∨ (s.half h).aon < (s.half h).d3At + msTicks 99 → exec (.d3hotRetry h) s = .next (settle s)) ∧
  (∀ (s : State) (h : Half), s.get .PH_DSTATE h = 1 → (s.half h).held = [] → Does (.d0Return h) s fun t => t.get .PH_D3_HOT h = 0 ∧ t.get .PH_DSTATE h = 0 ∧ Frame [(.PH_D3_HOT, h), (.PH_DSTATE, h)] s t) ∧
  (∀ (s : State) (h : Half) (g : Group), s.get .PH_DSTATE h = 1 → h.groups.head? = some g → (s.half h).held = [0, 3, 3] → s.get .PG_STATE g = 3 → (s.group g).hs = none → (h.groups.drop 1).all (fun k => (s.group k).hs.isNone) = true → Does (.d0Return h) s fun t => t.get .PH_DSTATE h = 0 ∧ t.get .PG_STATE g = 6 ∧ (t.group g).wake = some ⟨false, false, (s.half g.half).aon, 0, none⟩ ∧ (t.half h).held = [] ∧ Frame [(.PH_D3_HOT, h), (.PH_DSTATE, h), (.PG_STATE, g)] s t) ∧
  (∀ (s : State) (h : Half), s.get .PH_DSTATE h ≠ 1 → Does (.d0Return h) s fun t => t.get .PH_D3_HOT h = 0 ∧ Frame [(.PH_D3_HOT, h)] s t) ∧
  (∀ (s : State) (g : Group) (hs : Handshake), (s.group g).hs = some hs → hs.delaying = true → hs.block = 3 → s.askBlock g 3 = .accept → 2 ≤ hs.target → (fiSlots g.half).all (fun i => s.get .FIS_ACTIVE i != 1) = true → (s.half g.half).dev = none → g.half.groups.all (fun k => (s.group k).moves.isEmpty) = true → (s.half halfA).devWait = [] → ∃ t, exec (.handshakeDelayEnd g) s = .next (settle t) ∧ (t.get .PG_HS_BLOCK g = 3 ∧ (t.group g).hs = some { hs with block := 4, delaying := false })) ∧
  (∀ (s : State) (g : Group) (hs : Handshake), (s.group g).hs = some hs → hs.delaying = true → hs.block < 4 → hs.asked + msTicks 10 ≤ (s.half g.half).aon → (s.half g.half).dev = none → g.half.groups.all (fun k => (s.group k).moves.isEmpty) = true → (s.half halfA).devWait = [] → ∃ t, exec (.handshakeTimeout g) s = .next (settle t) ∧ (t.get .PG_STATE g = hs.origin % 8 ∧ t.get .PG_LAST_BLOCK g = hs.block ∧ t.get .PG_LAST_REASON g = 5 ∧ t.get .PG_REFUSED g = 1 ∧ t.get .PG_HS_BLOCK g = 0 ∧ (t.group g).hs = none)) ∧
  (∀ (s : State) (g : Group) (hs : Handshake), (s.group g).hs = some hs → hs.block = 4 → hs.target = 2 ∨ hs.target = 3 → (s.half g.half).dev = none → g.half.groups.all (fun k => (s.group k).moves.isEmpty) = true → (s.half halfA).devWait = [] → ∃ t, exec (.powerSaveComplete g) s = .next (settle t) ∧ (t.get .PG_STATE g = hs.target ∧ t.get .PG_PADS_HELD g = 1 ∧ t.get .PG_HS_BLOCK g = 0 ∧ (t.group g).hs = none ∧ (t.group g).wake = none ∧ (∀ l ∈ g.lanes, t.get .ACQ_STATE l = 0) ∧ (∀ j : Fin 4, t.get .ENG_VALID (4 * g.val + j.val) = 0) ∧ (∀ k : Group, k ≠ g → t.get .PG_STATE k = s.get .PG_STATE k ∧ t.get .PG_PADS_HELD k = s.get .PG_PADS_HELD k)))

/-- R497, R539, R575 and R577. Completes: porstAssert, aonSupplyLoss, porstDeassert, aonSupplyRestored. -/
def Obligations.PowerOnReset : Prop :=
  (∀ (s : State), Does .porstAssert s fun t => t.porst = true ∧ (∀ f i, f ∉ ([.CD_HIZ, .REL_KEY_LOCKED, .REL_SCAN_SEEN, .LSH_SOFF_PIN, .CLRH_CLR_PIN, .REL_LOG_USED] : List Fld) → t.get f i = f.reset i)
        ∧ t.ap = [] ∧ t.written = [] ∧ t.dmt = [] ∧ t.results = [] ∧ t.sticky = [] ∧ t.trackers = []
        ∧ (∀ h, (t.half h).boot = (s.half h).boot ∧ (t.half h).slots = (s.half h).slots ∧ (t.half h).store = (s.half h).store ∧ (t.half h).settings = (s.half h).settings ∧ (t.half h).log = (s.half h).log.take (s.half h).logFlash ∧ (t.half h).live = false)
        ∧ t.testmode = s.testmode ∧ t.out = s.out ∧ t.pending = s.pending) ∧
  (∀ (s : State), Does .aonSupplyLoss s fun t => t.porst = s.porst ∧ (∀ f i, f ∉ ([.CD_HIZ, .REL_KEY_LOCKED, .REL_SCAN_SEEN, .LSH_SOFF_PIN, .CLRH_CLR_PIN, .REL_LOG_USED] : List Fld) → t.get f i = f.reset i)
        ∧ t.ap = [] ∧ t.written = [] ∧ t.dmt = [] ∧ t.results = [] ∧ t.sticky = [] ∧ t.trackers = []
        ∧ (∀ h, (t.half h).boot = (s.half h).boot ∧ (t.half h).slots = (s.half h).slots ∧ (t.half h).store = (s.half h).store ∧ (t.half h).settings = (s.half h).settings ∧ (t.half h).log = (s.half h).log.take (s.half h).logFlash ∧ (t.half h).live = false)
        ∧ t.testmode = s.testmode ∧ t.out = s.out ∧ t.pending = s.pending) ∧
  (∀ (s : State), s.porst = true → Does .porstDeassert s fun t => t.porst = false ∧ (∀ h, (t.half h).live = true ∧ (t.half h).tag = (s.half h).tag + 1 ∧ t.get .BOOT_STATE h = 0 ∧ t.get .BOOT_STEP h = 0 ∧ t.get .BOOT_START_KIND h = 0 ∧ t.get .BOOT_ERR h = 0)
        ∧ (∀ c : ChainN, t.get .CH_FULLW c = 1) ∧ t.ap = s.ap ∧ t.pending = s.pending) ∧
  (∀ (s : State), s.porst = false → exec .porstDeassert s = .next (settle s)) ∧
  (∀ (s : State), s.porst = false → (∀ h, (s.half h).live = false) → Does .aonSupplyRestored s fun t => t.porst = false ∧ (∀ h, (t.half h).live = true ∧ (t.half h).tag = (s.half h).tag + 1 ∧ t.get .BOOT_STATE h = 0 ∧ t.get .BOOT_STEP h = 0 ∧ t.get .BOOT_START_KIND h = 0 ∧ t.get .BOOT_ERR h = 0)
        ∧ (∀ c : ChainN, t.get .CH_FULLW c = 1) ∧ t.ap = s.ap ∧ t.pending = s.pending) ∧
  (∀ (s : State) (h : Half), s.porst = true ∨ (s.half h).live = true → exec .aonSupplyRestored s = .next (settle s))

/-- R500, R538 and R539; a warm start runs from step 2, a full start from step 1 (R501, R500). Completes: perstAssert, perstDeassert, flr. -/
def Obligations.HalfResets : Prop :=
  (∀ (s : State) (h : Half), (s.half h).perst = false → (s.half h).off = false → Does (.perstAssert h) s fun t => (t.half h).perst = true ∧ (t.half h).live = false ∧ (t.half h).bme = false ∧ t.get .PH_LAST_RESET h = 1 ∧ (∀ l ∈ h.lanes, t.get .ACQ_STATE l = 0) ∧ (∀ q : Fin 8, t.get .RING_EN (8 * h.val + q.val) = 0 ∧ t.get .RING_ACTIVE (8 * h.val + q.val) = 0) ∧ t.get .HIF_RUN h = 0
        ∧ (t.half h).cpls = [] ∧ (t.half h).evts = [] ∧ (t.half h).commits = [] ∧ (t.half h).sched = [] ∧ (t.half h).snaps = [] ∧ (t.half h).subs = [] ∧ (t.half h).sessions = []
        ∧ t.get .FI_UNLOCKED h = 0 ∧ t.get .PH_RESET_CNT h = min (s.get .PH_RESET_CNT h + 1) 65535
        ∧ t.get .BOOT_STATE (otherHalf h) = s.get .BOOT_STATE (otherHalf h) ∧ (∀ q : Fin 8, t.get .RING_EN (8 * (otherHalf h).val + q.val) = s.get .RING_EN (8 * (otherHalf h).val + q.val))
        ∧ (∀ l ∈ (otherHalf h).lanes, t.get .ACQ_STATE l = s.get .ACQ_STATE l)) ∧
  (∀ (s : State) (h : Half), (s.half h).perst = false → (s.half h).off = true → Does (.perstAssert h) s fun t => (t.half h).perst = true ∧ (t.half h).live = false ∧ (t.half h).off = true ∧ (t.half h).bme = false ∧ t.get .PH_LAST_RESET h = 4 ∧ (∀ l ∈ h.lanes, t.get .ACQ_STATE l = 0) ∧ (∀ q : Fin 8, t.get .RING_EN (8 * h.val + q.val) = 0 ∧ t.get .RING_ACTIVE (8 * h.val + q.val) = 0) ∧ t.get .HIF_RUN h = 0
        ∧ (t.half h).cpls = [] ∧ (t.half h).evts = [] ∧ (t.half h).commits = [] ∧ (t.half h).sched = [] ∧ (t.half h).snaps = [] ∧ (t.half h).subs = [] ∧ (t.half h).sessions = []
        ∧ t.get .FI_UNLOCKED h = 0 ∧ t.get .PH_RESET_CNT h = min (s.get .PH_RESET_CNT h + 1) 65535
        ∧ t.get .BOOT_STATE (otherHalf h) = s.get .BOOT_STATE (otherHalf h) ∧ (∀ q : Fin 8, t.get .RING_EN (8 * (otherHalf h).val + q.val) = s.get .RING_EN (8 * (otherHalf h).val + q.val))
        ∧ (∀ l ∈ (otherHalf h).lanes, t.get .ACQ_STATE l = s.get .ACQ_STATE l)) ∧
  (∀ (s : State) (h : Half) (l : Lane), (s.half h).perst = false → (s.half h).off = false → l ∈ h.lanes → Does (.perstAssert h) s fun t => t.get .FE_SWING l = 0x1E ∧ t.app .FE_SWING l = 0x1E ∧ t.get .PORT_EN l = 0 ∧ t.app .PORT_EN l = 0 ∧ t.app .LS_LASER_EN l = 0) ∧
  (∀ (s : State) (h : Half), (s.half h).perst = true → exec (.perstAssert h) s = .next (settle s)) ∧
  (∀ (s : State) (h : Half), (s.half h).perst = true → s.porst = false → (s.half h).off = false → s.get .PH_VALID h = 1 → Does (.perstDeassert h) s fun t =>
      (t.half h).perst = false ∧ (t.half h).live = true ∧ t.get .BOOT_STATE h = 0 ∧ t.get .BOOT_START_KIND h = 1 ∧ t.get .BOOT_STEP h = 2 ∧ (t.half h).boot = (s.half h).boot ∧ t.ap = s.ap) ∧
  (∀ (s : State) (h : Half), (s.half h).perst = true → s.porst = false → (s.half h).off = false → s.get .PH_VALID h ≠ 1 → Does (.perstDeassert h) s fun t =>
      (t.half h).perst = false ∧ (t.half h).live = true ∧ t.get .BOOT_STATE h = 0 ∧ t.get .BOOT_START_KIND h = 2 ∧ t.get .BOOT_STEP h = 1 ∧ (t.half h).boot = (s.half h).boot ∧ t.ap = s.ap) ∧
  (∀ (s : State) (h : Half), (s.half h).perst = true → s.porst = false → (s.half h).off = true → Does (.perstDeassert h) s fun t =>
      (t.half h).perst = false ∧ (t.half h).live = true ∧ (t.half h).off = false ∧ t.get .BOOT_STATE h = 0 ∧ t.get .PH_DSTATE h = 0 ∧ (t.half h).held = []) ∧
  (∀ (s : State) (h : Half), (s.half h).perst = true → s.porst = true → Does (.perstDeassert h) s fun t => (t.half h).perst = false ∧ Frame [] s t) ∧
  (∀ (s : State) (h : Half), (s.half h).perst = false → exec (.perstDeassert h) s = .next (settle s)) ∧
  (∀ (s : State) (h : Half), Does (.flr h) s fun t => (t.half h).bme = false ∧ t.get .PH_LAST_RESET h = 2 ∧ t.get .BOOT_STATE h = 0
        ∧ t.get .BOOT_START_KIND h = (if s.get .PH_VALID h = 1 then 1 else 2) ∧ t.get .BOOT_STEP h = (if s.get .PH_VALID h = 1 then 2 else 1) ∧ (∀ l ∈ h.lanes, t.get .ACQ_STATE l = 0) ∧ (∀ q : Fin 8, t.get .RING_EN (8 * h.val + q.val) = 0 ∧ t.get .RING_ACTIVE (8 * h.val + q.val) = 0) ∧ t.get .HIF_RUN h = 0
        ∧ (t.half h).cpls = [] ∧ (t.half h).evts = [] ∧ (t.half h).commits = [] ∧ (t.half h).sched = [] ∧ (t.half h).snaps = [] ∧ (t.half h).subs = [] ∧ (t.half h).sessions = []
        ∧ t.get .FI_UNLOCKED h = 0 ∧ t.get .PH_RESET_CNT h = min (s.get .PH_RESET_CNT h + 1) 65535
        ∧ t.get .BOOT_STATE (otherHalf h) = s.get .BOOT_STATE (otherHalf h) ∧ (∀ q : Fin 8, t.get .RING_EN (8 * (otherHalf h).val + q.val) = s.get .RING_EN (8 * (otherHalf h).val + q.val))
        ∧ (∀ l ∈ (otherHalf h).lanes, t.get .ACQ_STATE l = s.get .ACQ_STATE l)) ∧
  (∀ (s : State) (h : Half) (l : Lane), l ∈ h.lanes → Does (.flr h) s fun t => t.app .FE_SWING l = s.app .FE_SWING l ∧ t.app .PORT_EN l = s.app .PORT_EN l)

/-- R525 to R530; blocks 0 lanes, 1 loops, 2 Kneaders, 3 DMA; reason 5 is TIMEOUT (R529). Completes: handshakeDelayEnd, handshakeTimeout, powerSaveComplete. -/
def Obligations.EntryHandshake : Prop :=
  (∀ (s : State) (g : Group) (hs : Handshake) (r : Nat), (s.group g).hs = some hs → hs.delaying = true → hs.block < 4 → s.askBlock g hs.block = .refuse r → (s.half g.half).dev = none → g.half.groups.all (fun k => (s.group k).moves.isEmpty) = true → (s.half halfA).devWait = [] → Does (.handshakeDelayEnd g) s fun t =>
      t.get .PG_STATE g = hs.origin % 8 ∧ t.get .PG_LAST_BLOCK g = hs.block ∧ t.get .PG_LAST_REASON g = r ∧ t.get .PG_REFUSED g = 1 ∧ t.get .PG_HS_BLOCK g = 0
        ∧ (t.group g).hs = none ∧ Frame [(.PG_STATE, g), (.PG_LAST_BLOCK, g), (.PG_LAST_REASON, g), (.PG_REFUSED, g), (.PG_HS_BLOCK, g)] s t) ∧
  (∀ (s : State) (g : Group) (hs : Handshake), (s.group g).hs = some hs → hs.delaying = true → hs.block = 3 → s.askBlock g 3 = .accept → 2 ≤ hs.target → (fiSlots g.half).all (fun i => s.get .FIS_ACTIVE i != 1) = true → (s.half g.half).dev = none → g.half.groups.all (fun k => (s.group k).moves.isEmpty) = true → (s.half halfA).devWait = [] → Does (.handshakeDelayEnd g) s fun t =>
      t.get .PG_HS_BLOCK g = 3 ∧ (t.group g).hs = some { hs with block := 4, delaying := false } ∧ Frame [(.PG_HS_BLOCK, g)] s t) ∧
  (∀ (s : State) (g : Group) (hs : Handshake), (s.group g).hs = some hs → hs.delaying = true → hs.block = 3 → s.askBlock g 3 = .accept → hs.target = 1 → (fiSlots g.half).all (fun i => s.get .FIS_ACTIVE i != 1) = true → (s.half g.half).dev = none → g.half.groups.all (fun k => (s.group k).moves.isEmpty) = true → (s.half halfA).devWait = [] → Does (.handshakeDelayEnd g) s fun t =>
      t.get .PG_STATE g = 1 ∧ t.get .PG_HS_BLOCK g = 0 ∧ (t.group g).hs = none ∧ Frame [(.PG_STATE, g), (.PG_HS_BLOCK, g)] s t) ∧
  (∀ (s : State) (g : Group) (hs : Handshake), (s.group g).hs = some hs → hs.delaying = true → hs.block < 4 → s.askBlock g hs.block = .delay → (s.half g.half).dev = none → g.half.groups.all (fun k => (s.group k).moves.isEmpty) = true → (s.half halfA).devWait = [] → Does (.handshakeDelayEnd g) s fun t =>
      t.get .PG_HS_BLOCK g = hs.block ∧ (t.group g).hs = some hs ∧ Frame [(.PG_HS_BLOCK, g)] s t) ∧
  (∀ (s : State) (g : Group) (hs : Handshake) (c : Cmd) (r : Nat), (s.group g).hs = some hs → hs.delaying = true → hs.block < 4 → s.askBlock g hs.block = .refuse r → hs.cmd = some c → c.org = c.exe → (s.half g.half).dev = none → g.half.groups.all (fun k => (s.group k).moves.isEmpty) = true → (s.half halfA).devWait = [] → Does (.handshakeDelayEnd g) s fun t =>
      (t.half c.org).cpls.map (fun x => (x.tag, x.status, x.reason)) = (s.half c.org).cpls.map (fun x => (x.tag, x.status, x.reason)) ++ [(c.req.tag, 3, 0x50)]) ∧
  (∀ (s : State) (g : Group) (hs : Handshake), (s.group g).hs = some hs → hs.delaying = true → Does (.handshakeDelayEnd g) s fun t =>
      t = (s.askBlocks g 5 { hs with delaying := false }).settleDevice g.half) ∧
  (∀ (s : State) (g : Group) (hs : Handshake), (s.group g).hs = some hs → hs.delaying = true → hs.asked + msTicks 10 ≤ (s.half g.half).aon → Does (.handshakeTimeout g) s fun t =>
      t = (s.refuseHandshake g hs 5).settleDevice g.half) ∧
  (∀ (s : State) (g : Group) (hs : Handshake), (s.group g).hs = some hs → (s.half g.half).aon < hs.asked + msTicks 10 → exec (.handshakeTimeout g) s = .next (settle s)) ∧
  (∀ (s : State) (g : Group), ((s.group g).hs.any fun k => k.delaying) = false → exec (.handshakeDelayEnd g) s = .next (settle s) ∧ exec (.handshakeTimeout g) s = .next (settle s)) ∧
  (∀ (s : State) (g : Group) (hs : Handshake), (s.group g).hs = some hs → hs.delaying = true → hs.block < 4 → hs.asked + msTicks 10 ≤ (s.half g.half).aon → (s.half g.half).dev = none → g.half.groups.all (fun k => (s.group k).moves.isEmpty) = true → (s.half halfA).devWait = [] → Does (.handshakeTimeout g) s fun t =>
      t.get .PG_STATE g = hs.origin % 8 ∧ t.get .PG_LAST_BLOCK g = hs.block ∧ t.get .PG_LAST_REASON g = 5 ∧ t.get .PG_REFUSED g = 1 ∧ t.get .PG_HS_BLOCK g = 0
        ∧ (t.group g).hs = none ∧ Frame [(.PG_STATE, g), (.PG_LAST_BLOCK, g), (.PG_LAST_REASON, g), (.PG_REFUSED, g), (.PG_HS_BLOCK, g)] s t) ∧
  (∀ (s : State) (g : Group) (hs : Handshake), (s.group g).hs = some hs → hs.block = 4 → hs.target = 2 ∨ hs.target = 3 → (s.half g.half).dev = none → g.half.groups.all (fun k => (s.group k).moves.isEmpty) = true → (s.half halfA).devWait = [] → Does (.powerSaveComplete g) s fun t =>
      t.get .PG_STATE g = hs.target ∧ t.get .PG_PADS_HELD g = 1 ∧ t.get .PG_HS_BLOCK g = 0 ∧ (t.group g).hs = none ∧ (t.group g).wake = none
        ∧ (∀ l ∈ g.lanes, t.get .ACQ_STATE l = 0) ∧ (∀ j : Fin 4, t.get .ENG_VALID (4 * g.val + j.val) = 0)
        ∧ (∀ k : Group, k ≠ g → t.get .PG_STATE k = s.get .PG_STATE k ∧ t.get .PG_PADS_HELD k = s.get .PG_PADS_HELD k)) ∧
  (∀ (s : State) (g : Group) (hs : Handshake), (s.group g).hs = some hs → hs.block = 4 → Does (.powerSaveComplete g) s fun t =>
      t = (((s.gateGroup g hs.target).powerState (.group g) hs.target).finish hs.cmd).settleDevice g.half) ∧
  (∀ (s : State) (g : Group), ((s.group g).hs.any fun k => k.block == 4) = false → (s.half g.half).dev = none → g.half.groups.all (fun k => (s.group k).moves.isEmpty) = true → (s.half halfA).devWait = [] → exec (.powerSaveComplete g) s = .next (settle s))

/-- R497 to R503, R515, R518; TOP_BOOT_STAT.STATE 0 STARTING, 1 RUN, 2 STARTER, 3 FATAL; ERR 3 and 4 name the slot that does not verify (R524). Completes: startStepComplete, startRelease. -/
def Obligations.StartSteps : Prop :=
  (∀ (s : State) (h : Half) (r : StartResult), s.get .BOOT_STATE h = 0 → (s.half h).live = true → (s.half h).refOk = true → r.ok = true → s.get .BOOT_STEP h = 0 → Does (.startStepComplete h r) s fun t => t.get .BOOT_STEP h = 1 ∧ (t.half h).clock = true ∧ ((t.half h).sec, (t.half h).ns, (t.half h).frac) = (0, 0, 0) ∧ (∀ k : Fin 32, t.get .CH_FULLW (32 * h.val + k.val) = 1) ∧ Frame ((.BOOT_STEP, h.val) :: (List.range 32).flatMap fun k => ([.CH_FULLW, .CH_SETTLED, .CH_FILL, .CH_OUT_CNT] : List Fld).map fun f => (f, 32 * h.val + k)) s t) ∧
  (∀ (s : State) (h : Half) (r : StartResult), s.get .BOOT_STATE h = 0 → (s.half h).live = true → (s.half h).refOk = true → r.ok = true → s.get .BOOT_STEP h = 1 → Does (.startStepComplete h r) s fun t => t.get .BOOT_STEP h = 2 ∧ t.get .REL_KEY_LOADED h = (if s.get .REL_KEY_LOCKED h = 1 then s.get .REL_KEY_LOADED h else 1)) ∧
  (∀ (s : State) (h : Half) (r : StartResult), s.get .BOOT_STATE h = 0 → (s.half h).live = true → (s.half h).refOk = true → r.ok = true → s.get .BOOT_STEP h = 2 → s.get .BOOT_START_KIND h ≠ 1 → Does (.startStepComplete h r) s fun t => t.get .BOOT_STEP h = 3 ∧ t.get .REL_ZEROISED h = 1 ∧ (t.half h).sessions = []
        ∧ (r.signatures = [] → t.get .REL_ZERO_CNT h = min (s.get .REL_ZERO_CNT h + 1) 65535 ∧ t.get .REL_KEY_LOADED h = (if s.get .REL_KEY_LOCKED h = 1 then 0 else 1)
          ∧ (∀ u ∈ testUnits h, (t.half h).passed.contains u = true) ∧ Frame [(.BOOT_STEP, h), (.REL_ZEROISED, h), (.REL_ZERO_CNT, h), (.REL_KEY_LOADED, h)] s t)) ∧
  (∀ (s : State) (h : Half) (r : StartResult), s.get .BOOT_STATE h = 0 → (s.half h).live = true → (s.half h).refOk = true → r.ok = true → s.get .BOOT_STEP h = 2 → s.get .BOOT_START_KIND h = 1 → s.testsSecurity h = false → Does (.startStepComplete h r) s fun t => t.get .BOOT_STEP h = 3 ∧ (r.signatures = [] → Frame [(.BOOT_STEP, h)] s t)) ∧
  (∀ (s : State) (h : Half) (r : StartResult), s.get .BOOT_STATE h = 0 → (s.half h).live = true → (s.half h).refOk = true → r.ok = true → s.get .BOOT_STEP h = 2 → s.get .BOOT_START_KIND h = 1 → s.testsSecurity h = true → Does (.startStepComplete h r) s fun t => t.get .BOOT_STEP h = 3 ∧ t.get .REL_ZEROISED h = 1 ∧ (t.half h).sessions = []) ∧
  (∀ (s : State) (h : Half) (r : StartResult), s.get .BOOT_STATE h = 0 → (s.half h).live = true → (s.half h).refOk = true → r.ok = true → s.get .BOOT_STEP h = 3 → Does (.startStepComplete h r) s fun t => t.get .BOOT_STEP h = (if s.get .BOOT_START_KIND h = 1 ∧ s.areaGood h 7 = true then 5 else 4)) ∧
  (∀ (s : State) (h : Half) (r : StartResult), s.get .BOOT_STATE h = 0 → (s.half h).live = true → (s.half h).refOk = true → r.ok = true → s.get .BOOT_STEP h = 4 → Does (.startStepComplete h r) s fun t => t.get .BOOT_STEP h = 5) ∧
  (∀ (s : State) (h : Half) (r : StartResult), s.get .BOOT_STATE h = 0 → (s.half h).live = true → (s.half h).refOk = true → r.ok = true → s.get .BOOT_STEP h = 5 → (s.half h).boot.starterReq = true ∨ 3 ≤ (s.half h).boot.fail → Does (.startStepComplete h r) s fun t => t.get .BOOT_STATE h = 2 ∧ (t.half h).boot = (s.half h).boot ∧ Frame [(.BOOT_STATE, h), (.BOOT_FAIL_CNT, h)] s t) ∧
  (∀ (b : BootRec), b.pending = 0 → chooseSlot b = (b, b.active, none)) ∧
  (∀ (b : BootRec), b.pending ≠ 0 → b.trial = false ∨ b.fail = 0 → chooseSlot b = ({ b with trial := true }, b.pending - 1, none)) ∧
  (∀ (b : BootRec), b.pending ≠ 0 → b.trial = true → 1 ≤ b.fail → chooseSlot b = ({ b with pending := 0, trial := false, setTrial := 0 }, b.active, some (b.pending - 1))) ∧
  (∀ (s : State) (h : Half) (r : StartResult) (k : Fin 2), s.get .BOOT_STATE h = 0 → (s.half h).live = true → (s.half h).refOk = true → r.ok = true → s.get .BOOT_STEP h = 5 → (s.half h).boot.starterReq = false → (s.half h).boot.fail < 3 → (chooseSlot (s.half h).boot).2.1 = k → s.verifies h (if k = 0 then (⟨s.slotBytes h 0, r.slotA⟩ : ImageInfo) else ⟨s.slotBytes h 1, r.slotB⟩) = true → Does (.startStepComplete h r) s fun t => 
      let c := (chooseSlot (s.half h).boot).1
      t.get .BOOT_STEP h = 6 ∧ t.get .BOOT_SLOT h = k ∧ t.get .BOOT_TRIAL h = (if c.trial = true ∧ c.pending = k.val + 1 then 1 else 0)
        ∧ t.get .BOOT_VERSION h = imageVersion (if k = 0 then (⟨s.slotBytes h 0, r.slotA⟩ : ImageInfo) else ⟨s.slotBytes h 1, r.slotB⟩) % 2 ^ 32 ∧ t.get .BOOT_FAIL_CNT h = (s.half h).boot.fail
        ∧ (t.half h).boot = { c with fail := (s.half h).boot.fail + 1, seq := ((s.half h).boot.seq + 1) % 2 ^ 32 } ∧ (t.half h).run = some (if k = 0 then (⟨s.slotBytes h 0, r.slotA⟩ : ImageInfo) else ⟨s.slotBytes h 1, r.slotB⟩)
        ∧ (t.half h).rolledBack = (chooseSlot (s.half h).boot).2.2.isSome
        ∧ Frame [(.BOOT_STEP, h), (.BOOT_SLOT, h), (.BOOT_TRIAL, h), (.BOOT_VERSION, h), (.BOOT_FAIL_CNT, h)] s t) ∧
  (∀ (s : State) (h : Half) (r : StartResult) (k : Fin 2), s.get .BOOT_STATE h = 0 → (s.half h).live = true → (s.half h).refOk = true → r.ok = true → s.get .BOOT_STEP h = 5 → (s.half h).boot.starterReq = false → (s.half h).boot.fail < 3 → (chooseSlot (s.half h).boot).2.1 = k → s.verifies h (if k = 0 then (⟨s.slotBytes h 0, r.slotA⟩ : ImageInfo) else ⟨s.slotBytes h 1, r.slotB⟩) = false → (chooseSlot (s.half h).boot).1.valid (1 - k.val) = true → (chooseSlot (s.half h).boot).2.2 ≠ some (1 - k.val) → s.verifies h (if k = 0 then (⟨s.slotBytes h 1, r.slotB⟩ : ImageInfo) else ⟨s.slotBytes h 0, r.slotA⟩) = true → Does (.startStepComplete h r) s fun t => 
      t.get .BOOT_STEP h = 6 ∧ t.get .BOOT_SLOT h = 1 - k.val ∧ t.get .BOOT_ERR h = 3 + k.val ∧ (t.half h).boot.valid k.val = false ∧ (t.half h).run = some (if k = 0 then (⟨s.slotBytes h 1, r.slotB⟩ : ImageInfo) else ⟨s.slotBytes h 0, r.slotA⟩)) ∧
  (∀ (s : State) (h : Half) (r : StartResult) (k : Fin 2), s.get .BOOT_STATE h = 0 → (s.half h).live = true → (s.half h).refOk = true → r.ok = true → s.get .BOOT_STEP h = 5 → (s.half h).boot.starterReq = false → (s.half h).boot.fail < 3 → (chooseSlot (s.half h).boot).2.1 = k → s.verifies h (if k = 0 then (⟨s.slotBytes h 0, r.slotA⟩ : ImageInfo) else ⟨s.slotBytes h 1, r.slotB⟩) = false → (chooseSlot (s.half h).boot).1.valid (1 - k.val) = false ∨ (chooseSlot (s.half h).boot).2.2 = some (1 - k.val) → Does (.startStepComplete h r) s fun t => 
      t.get .BOOT_STATE h = 2 ∧ t.get .BOOT_ERR h = 3 + k.val ∧ (t.half h).boot.valid k.val = false) ∧
  (∀ (s : State) (h : Half) (r : StartResult) (k : Fin 2), s.get .BOOT_STATE h = 0 → (s.half h).live = true → (s.half h).refOk = true → r.ok = true → s.get .BOOT_STEP h = 5 → (s.half h).boot.starterReq = false → (s.half h).boot.fail < 3 → (chooseSlot (s.half h).boot).2.1 = k → s.verifies h (if k = 0 then (⟨s.slotBytes h 0, r.slotA⟩ : ImageInfo) else ⟨s.slotBytes h 1, r.slotB⟩) = false → (chooseSlot (s.half h).boot).1.valid (1 - k.val) = true → (chooseSlot (s.half h).boot).2.2 ≠ some (1 - k.val) → s.verifies h (if k = 0 then (⟨s.slotBytes h 1, r.slotB⟩ : ImageInfo) else ⟨s.slotBytes h 0, r.slotA⟩) = false → Does (.startStepComplete h r) s fun t => 
      t.get .BOOT_STATE h = 2 ∧ t.get .BOOT_ERR h = 4 - k.val ∧ (t.half h).boot.validA = false ∧ (t.half h).boot.validB = false) ∧
  (∀ (s : State) (h : Half) (r : StartResult), s.get .BOOT_STATE h = 0 → (s.half h).live = true → (s.half h).refOk = true → r.ok = false → s.get .BOOT_STEP h ≠ 5 ∨ r.err ≠ 2 → Does (.startStepComplete h r) s fun t => t.get .BOOT_ERR h = r.err ∧ t.get .BOOT_STEP h = s.get .BOOT_STEP h ∧ Frame [(.BOOT_ERR, h)] s t) ∧
  (∀ (s : State) (h : Half) (r : StartResult), s.get .BOOT_STATE h = 0 → (s.half h).live = true → (s.half h).refOk = true → r.ok = false → s.get .BOOT_STEP h = 5 → r.err = 2 → Does (.startStepComplete h r) s fun t => t.get .BOOT_ERR h = 2 ∧ t.get .BOOT_STATE h = 2 ∧ Frame [(.BOOT_ERR, h), (.BOOT_STATE, h)] s t) ∧
  (∀ (s : State) (h : Half) (r : StartResult), s.get .BOOT_STATE h ≠ 0 → exec (.startStepComplete h r) s = .next (settle s)) ∧
  (∀ (s : State) (h : Half) (r : ReleaseInfo), s.get .BOOT_STATE h = 0 → s.get .BOOT_STEP h = 6 → Does (.startRelease h r) s fun t =>
      t.get .BOOT_STATE h = 1 ∧ (t.half h).boot.fail = 0 ∧ (t.half h).boot.active = (s.half h).boot.active ∧ t.get .PH_VALID h = 1 ∧ t.get .BOOT_PANTRY_VALID h = 1
        ∧ (∀ c : ChainN, c.val / 32 = h.val → t.get .CH_FULLW c ≠ 1) ∧ (t.half h).heard = false ∧ (t.half h).fromStarter = false
        ∧ t.get .BOOT_STATE (otherHalf h) = s.get .BOOT_STATE (otherHalf h)
        ∧ (s.get .BOOT_TRIAL h ≠ 1 → (s.half h).fromStarter = false → t.get .BOOT_SETTINGS h = 0)) ∧
  (∀ (s : State) (h : Half) (r : ReleaseInfo), s.get .BOOT_STATE h = 0 → s.get .BOOT_STEP h = 6 → s.get .BOOT_TRIAL h ≠ 1 → (s.half h).fromStarter = false → s.get .BOOT_START_KIND h = 1 → (s.half h).setUsed = (s.half h).boot.setActive → Does (.startRelease h r) s fun t => t.ap = s.ap) ∧
  (∀ (s : State) (h : Half) (r : ReleaseInfo), s.get .BOOT_STATE h = 0 → s.get .BOOT_STEP h = 6 → s.get .BOOT_TRIAL h ≠ 1 → (s.half h).fromStarter = false → r.activeOk = false → s.get .BOOT_START_KIND h ≠ 1 ∨ (s.half h).setUsed ≠ (s.half h).boot.setActive → Does (.startRelease h r) s fun t => (t.half h).setUsed = (s.half h).boot.setActive ∧ ∀ l ∈ h.lanes, t.app .FEC_RHO l = Fld.reset .FEC_RHO l) ∧
  (∀ (s : State) (h : Half) (r : ReleaseInfo), s.get .BOOT_STATE h ≠ 0 ∨ s.get .BOOT_STEP h ≠ 6 → exec (.startRelease h r) s = .next (settle s))

/-- R505, R510, R511, R520, R521, R523 and R524. Completes: starterRequestWrite, starterLoadGo, starterLoadComplete, settingsRecordWrite, fatalError, updLoad, updLoadComplete, updVerify, updVerifyComplete, updActivate, updConfirm, updRollback, dumpBuf, dumpFetch. -/
def Obligations.StarterModeAndFatal : Prop :=
  (∀ (s : State) (h : Half) (v : W32), s.running h = true → s.answers h = true → v.toNat / 65536 = 0x5354 → v.getLsbD 0 = true → Does (.starterRequestWrite h v) s fun t => (t.half h).boot = { (s.half h).boot with starterReq := true, seq := ((s.half h).boot.seq + 1) % 2 ^ 32 } ∧ (t.half h).bootOld = some (s.half h).boot ∧ Frame [] s t) ∧
  (∀ (s : State) (h : Half) (v : W32), s.running h = false ∨ v.toNat / 65536 ≠ 0x5354 ∨ v.getLsbD 0 = false → exec (.starterRequestWrite h v) s = .next (settle s)) ∧
  (∀ (s : State) (h : Half) (v : W32), s.get .BOOT_STATE h = 2 → s.answers h = true → s.get .BOOT_BUSY h ≠ 1 → v.getLsbD 31 = true → Does (.starterLoadGo h v) s fun t =>
      t.get .BOOT_BUSY h = 1 ∧ t.get .BOOT_ST_RESULT h = 0 ∧ t.get .BOOT_ST_SLOT h = (if v.getLsbD 30 then 1 else 0)
        ∧ t.out = .dma h (s.get .BOOT_ST_ADDR_HI h * 2 ^ 32 + s.get .BOOT_ST_ADDR_LO h * 64) "image" (s.get .BOOT_ST_LEN h) :: s.out
        ∧ Frame [(.BOOT_BUSY, h), (.BOOT_ST_RESULT, h), (.BOOT_ST_SLOT, h)] s t) ∧
  (∀ (s : State) (h : Half) (v : W32), s.get .BOOT_STATE h = 2 → s.answers h = true → s.get .BOOT_BUSY h ≠ 1 → v.getLsbD 31 = false → Does (.starterLoadGo h v) s fun t =>
      t.get .BOOT_ST_SLOT h = (if v.getLsbD 30 then 1 else 0) ∧ Frame [(.BOOT_ST_SLOT, h)] s t) ∧
  (∀ (s : State) (h : Half) (v : W32), s.get .BOOT_STATE h ≠ 2 ∨ s.get .BOOT_BUSY h = 1 → exec (.starterLoadGo h v) s = .next (settle s)) ∧
  (∀ (s : State) (h : Half) (d f : Bool) (img : ImageInfo), s.starterResult h d f img = (if s.get .BOOT_ST_LEN h < 512 ∨ 2097152 < s.get .BOOT_ST_LEN h then 5 else if d = false then 4 else if s.verifies h img = false then 2 else if f = false then 3 else 1)) ∧
  (∀ (s : State) (h : Half) (d f : Bool) (img : ImageInfo) (k : Fin 2), s.get .BOOT_BUSY h = 1 → s.get .BOOT_ST_SLOT h % 2 = k.val → s.starterResult h d f img = 1 → Does (.starterLoadComplete h ⟨d, f⟩ img) s fun t =>
      t.get .BOOT_BUSY h = 0 ∧ t.get .BOOT_ST_RESULT h = 1 ∧ t.get .BOOT_STATE h = 0 ∧ t.get .BOOT_STEP h = 5 ∧ (t.half h).fromStarter = true
        ∧ (t.half h).boot.active = k.val ∧ (t.half h).boot.pending = 0 ∧ (t.half h).boot.trial = false ∧ (t.half h).boot.fail = 0 ∧ (t.half h).boot.starterReq = false
        ∧ (t.half h).boot.valid k.val = true ∧ (t.half h).boot.hash k.val = img.checks.hash ∧ (t.half h).slots.toList = (s.half h).slots.toList.set k.val (some img.bytes)) ∧
  (∀ (s : State) (h : Half) (d f : Bool) (img : ImageInfo), s.get .BOOT_BUSY h = 1 → s.starterResult h d f img ≠ 1 → Does (.starterLoadComplete h ⟨d, f⟩ img) s fun t => t.get .BOOT_BUSY h = 0 ∧ t.get .BOOT_ST_RESULT h = s.starterResult h d f img ∧ (t.half h).boot = (s.half h).boot ∧ (t.half h).slots = (s.half h).slots ∧ Frame [(.BOOT_BUSY, h), (.BOOT_ST_RESULT, h)] s t) ∧
  (∀ (s : State) (h : Half) (d f : Bool) (img : ImageInfo), s.get .BOOT_BUSY h ≠ 1 → exec (.starterLoadComplete h ⟨d, f⟩ img) s = .next (settle s)) ∧
  (∀ (s : State) (h : Half), s.get .BOOT_STATE h = 1 → s.kndOut (sysKnd h 2) = false → s.get .BOOT_TRIAL h ≠ 1 → s.settingsDue h = true → s.settingsMoved h (s.half h).boot.setActive = true → Does (.settingsRecordWrite h) s fun t =>
      let n := if (s.half h).boot.setActive = 1 then 2 else 1
      (t.half h).boot = { (s.half h).boot with setActive := n, seq := ((s.half h).boot.seq + 1) % 2 ^ 32 }
        ∧ (t.half h).settings.get (recSlot n) = some (s.takeSettings h ((s.half h).record (s.half h).boot.setActive) (((s.half h).run.map imageWrites).getD 0) (((s.half h).run.map imageVersion).getD 0))
        ∧ (t.half h).setAt = some (s.ticks h) ∧ Frame [] s t) ∧
  (∀ (s : State) (h : Half), s.get .BOOT_STATE h = 1 → s.kndOut (sysKnd h 2) = false → s.get .BOOT_TRIAL h = 1 → (s.half h).boot.setTrial ≠ 0 → s.settingsDue h = true → s.settingsMoved h (s.half h).boot.setTrial = true → Does (.settingsRecordWrite h) s fun t =>
      (t.half h).boot = (s.half h).boot ∧ ((t.half h).settings.get (recSlot (s.half h).boot.setTrial)).isSome = true ∧ Frame [] s t) ∧
  (∀ (s : State) (h : Half), s.get .BOOT_STATE h ≠ 1 ∨ s.kndOut (sysKnd h 2) = true ∨ s.settingsDue h = false ∨ s.settingsMoved h (if s.get .BOOT_TRIAL h = 1 then (s.half h).boot.setTrial else (s.half h).boot.setActive) = false → exec (.settingsRecordWrite h) s = .next (settle s)) ∧
  (∀ (s : State) (h : Half) (c : FatalCause) (k : Knd), s.get .BOOT_STATE h = 1 → (s.half h).dumpBuf = none ∨ (s.half h).bme = false → s.get .BOOT_UPD_STAGE h ≠ 2 → Does (.fatalError h c k) s fun t =>
      t.get .BOOT_STATE h = 3 ∧ t.get .BOOT_DUMP_HELD h = 1 ∧ (t.half h).dumpBuf = (s.half h).dumpBuf ∧ (t.half h).pantryDump.isSome = true
        ∧ Frame [(.BOOT_STATE, h), (.BOOT_DUMP_HELD, h), (.PH_AREA_OK, h), (.PH_USED_KIB, h)] s t) ∧
  (∀ (s : State) (h : Half) (c : FatalCause) (k : Knd) (a n : Nat), s.get .BOOT_STATE h = 1 → (s.half h).dumpBuf = some (a, n) → (s.half h).bme = true → s.get .KND_STATE (if h = halfA then 121 else 125) = 0 → s.get .BOOT_UPD_STAGE h ≠ 2 → Does (.fatalError h c k) s fun t =>
      t.get .BOOT_STATE h = 3 ∧ (t.half h).dumpBuf = none ∧ (∃ d, t.out.head? = some (.dump h a d)) ∧ Frame [(.BOOT_STATE, h)] s t) ∧
  (∀ (s : State) (h : Half) (c : FatalCause) (k : Knd), s.get .BOOT_STATE h = 1 → Does (.fatalError h c k) s fun t => t.get .BOOT_STATE h = 3 ∧ (s.get .BOOT_UPD_STAGE h = 2 → t.get .BOOT_UPD_STAGE h = 1) ∧ t.ap = s.ap) ∧
  (∀ (s : State) (h : Half) (c : FatalCause) (k : Knd), s.get .BOOT_STATE h ≠ 1 → exec (.fatalError h c k) s = .next (settle s)) ∧
  (∀ (s : State) (h : Half) (r : Req), Takes s h .updLoad r → (∀ k ∈ reqHalves r, (s.half k).loadCmd = none ∧ (((s.get .BOOT_UPD_STAGE k = 0 ∨ s.get .BOOT_UPD_STAGE k = 3) ∧ reqParam r 3 = 0) ∨ (s.get .BOOT_UPD_STAGE k = 1 ∧ (reqParam r 3 = 0 ∨ reqParam r 3 = s.get .BOOT_LOADED k)))) → reqParam r 3 + reqParam r 2 ≤ 16777216 → ∃ t, exec (.updLoad h r) s = .next (settle t) ∧ ((∀ k ∈ reqHalves r, (t.half k).loadCmd.map (fun p => (p.off, p.len)) = some (reqParam r 3, reqParam r 2)) ∧ t.out = .dma h (reqAddr r 0) "update" (reqParam r 2) :: s.out ∧ (t.half h).cpls = (s.half h).cpls)) ∧
  (∀ (s : State) (h : Half) (p : DeltaPiece) (data : List (BitVec 8)), (s.half h).loadCmd = some p → ∃ t, exec (.updLoadComplete h (some data)) s = .next (settle t) ∧ (t.get .BOOT_LOADED h = (p.off + p.len) % 2 ^ 32 ∧ (t.half h).loadCmd = none ∧ t.get .BOOT_UPD_STAGE h = 1 ∧ (t.half h).store = (s.half h).store.take p.off ++ s.pieceBytes h p data)) ∧
  (∀ (s : State) (h : Half) (r : Req), Takes s h .updVerify r → (∀ k ∈ reqHalves r, (s.half k).loadCmd = none ∧ s.get .BOOT_UPD_STAGE k = 1) → ∃ t, exec (.updVerify h r) s = .next (settle t) ∧ ((∀ k ∈ reqHalves r, t.get .BOOT_UPD_STAGE k = 2 ∧ (t.half k).boot.valid (1 - (s.half k).boot.active) = false ∧ (t.half k).updCmd.isSome = true) ∧ (t.half h).cpls = (s.half h).cpls)) ∧
  (∀ (s : State) (h : Half) (k : ApplyChecks), s.get .BOOT_UPD_STAGE h = 2 → (s.applyDelta h ((1 - (s.half h).boot.active) % 2) k).2 = 0 → ∃ t, exec (.updVerifyComplete h k) s = .next (settle t) ∧ (let slot := (1 - (s.half h).boot.active) % 2
      t.get .BOOT_UPD_STAGE h = 3 ∧ (t.half h).boot.valid slot = true ∧ (t.half h).boot.hash slot = k.result.hash ∧ (t.half h).updCmd = none ∧ (t.half h).slots.toList = (s.half h).slots.toList.set slot (some (s.applyDelta h slot k).1))) ∧
  (∀ (s : State) (h : Half) (r : Req), Takes s h .updActivate r → (∀ k ∈ reqHalves r, (s.half k).loadCmd = none ∧ s.get .BOOT_UPD_STAGE k = 3) → ∃ t, exec (.updActivate h r) s = .next (settle t) ∧ ((∀ k ∈ reqHalves r, t.get .BOOT_UPD_STAGE k = 4 ∧ (t.half k).boot.pending = 2 - (s.half k).boot.active ∧ (t.half k).boot.trial = false) ∧ Completed s t h r ⟨0, 0, 0, 0⟩)) ∧
  (∀ (s : State) (h : Half) (r : Req), Takes s h .updConfirm r → (∀ k ∈ reqHalves r, (s.half k).loadCmd = none ∧ s.get .BOOT_UPD_STAGE k = 5) → ∃ t, exec (.updConfirm h r) s = .next (settle t) ∧ ((∀ k ∈ reqHalves r, t.get .BOOT_UPD_STAGE k = 0 ∧ t.get .BOOT_TRIAL k = 0 ∧ (t.half k).boot.active = (s.half k).boot.pending - 1 ∧ (t.half k).boot.pending = 0
          ∧ (t.half k).boot.setActive = (s.half k).boot.setTrial) ∧ Completed s t h r ⟨0, 0, 0, 0⟩)) ∧
  (∀ (s : State) (h : Half) (r : Req), Takes s h .updRollback r → (∀ k ∈ reqHalves r, (s.half k).loadCmd = none ∧ (s.get .BOOT_UPD_STAGE k = 1 ∨ s.get .BOOT_UPD_STAGE k = 3 ∨ s.get .BOOT_UPD_STAGE k = 4 ∨ s.get .BOOT_UPD_STAGE k = 5)) → ∃ t, exec (.updRollback h r) s = .next (settle t) ∧ ((∀ k ∈ reqHalves r, t.get .BOOT_UPD_STAGE k = (if s.get .BOOT_UPD_STAGE k < 4 then 0 else 3) ∧ (4 ≤ s.get .BOOT_UPD_STAGE k → (t.half k).boot.pending = 0)
          ∧ (s.get .BOOT_UPD_STAGE k = 3 → (t.half k).boot.valid (1 - (s.half k).boot.active) = false)) ∧ (t.half h).resets = (s.half h).resets ++ ((reqHalves r).filter fun (k : Half) => s.get .BOOT_UPD_STAGE k = 5).map (fun (k : Half) => (r.tag, 1, k.val)) ∧ Completed s t h r ⟨0, 0, 0, 0⟩)) ∧
  (∀ (s : State) (h : Half) (r : Req), Takes s h .dumpBuf r → 4 * 2 ^ 20 ≤ reqParam r 2 → ∃ t, exec (.dumpBuf h r) s = .next (settle t) ∧ ((t.half h).dumpBuf = some (reqAddr r 0, reqParam r 2) ∧ Completed s t h r ⟨0, 0, 0, 0⟩)) ∧
  (∀ (s : State) (h : Half) (r : Req) (d : Dump), Takes s h .dumpFetch r → (s.half h).pantryDump = some d → 65536 ≤ reqParam r 2 → ∃ t, exec (.dumpFetch h r) s = .next (settle t) ∧ (t.out = .dump h (reqAddr r 0) d :: s.out ∧ Completed s t h r ⟨0, 0, 0, 0⟩))

/-- R544, R545, R550, R555 and R562. Completes: subscriptionLatch, perfSampleWrite, perfClearWrite, histogramClearWrite, registerWrite, lowWordReadLatch, mdioPmaResetWrite, mdioTxDisableWrite, mdioStatusRead, mdioFrame, commandDoorbell, completionDoorbell, eventDoorbell, telemetryDoorbell, timestampDoorbell, ringReset, ringEnable, busMasterDisable, busMasterEnable, msixModerationTimer, descriptorFetch, descriptorDataReceive, descriptorTake, completionWrite, eventRecordWrite, telemetryRecordWrite, timestampRecordWrite, statusBlockWrite. -/
def Obligations.TelemetryAndCounterBlocks : Prop :=
  (∀ (s : State) (h : Half) (x : Sub), (s.half h).subs = [x] → x.next ≤ s.now h → s.manages h = true → Does (.subscriptionLatch h) s fun t =>
      (t.half h).tlms.length = (s.half h).tlms.length + x.lanes.length
        ∧ (t.half h).subs = [{ x with next := (s.now h / max 1 (x.period * 1000000) + 1) * max 1 (x.period * 1000000) }] ∧ Frame [] s t) ∧
  (∀ (s : State) (h : Half), (s.half h).subs.all (fun x => s.now h < x.next) = true → exec (.subscriptionLatch h) s = .next (settle s)) ∧
  (∀ (s : State) (h : Half), Does (.subscriptionLatch h) s fun t => (∀ x ∈ (t.half h).subs, s.now h < x.next) ∧ Frame [] s t) ∧
  (∀ (s : State) (b : PerfBlk) (v : W32) (j : Fin 8), s.running (PerfBlk.half b) = true → s.answers (PerfBlk.half b) = true → v.getLsbD 30 = true → Does (.perfSampleWrite b v) s fun t =>
      t.get .PC_SAMP (b.val * 48 + 4 + j.val) = s.get .PC_CNT (b.val * 8 + j.val) % 2 ^ 32 ∧ t.get .PC_SAMP (b.val * 48) = s.get .PC_CYC b % 2 ^ 32
        ∧ t.get .PC_SAMPLE_SEQ b = (s.get .PC_SAMPLE_SEQ b + 1) % 2 ^ Fld.width .PC_SAMPLE_SEQ
        ∧ t.get .PC_CNT (b.val * 8 + j.val) = (if v.getLsbD 29 then 0 else s.get .PC_CNT (b.val * 8 + j.val))) ∧
  (∀ (s : State) (b : PerfBlk) (v : W32) (j : Fin 8) (k : Fin 16), s.running (PerfBlk.half b) = true → s.answers (PerfBlk.half b) = true → v.getLsbD 29 = true → Does (.perfClearWrite b v) s fun t =>
      t.get .PC_CNT (b.val * 8 + j.val) = 0 ∧ t.get .PC_H0 (b.val * 16 + k.val) = 0 ∧ t.get .PC_H1 (b.val * 16 + k.val) = 0
        ∧ (v.getLsbD 30 = false → t.get .PC_SAMPLE_SEQ b = s.get .PC_SAMPLE_SEQ b)) ∧
  (∀ (s : State) (b : PerfBlk) (v : W32), s.running (PerfBlk.half b) = true → s.answers (PerfBlk.half b) = true → Does (.perfSampleWrite b v) s fun t => t = s.perfCtrlWrite b v.toNat) ∧
  (∀ (s : State) (b : PerfBlk) (v : W32), s.running (PerfBlk.half b) = true → s.answers (PerfBlk.half b) = true → Does (.perfClearWrite b v) s fun t => t = s.perfCtrlWrite b v.toNat) ∧
  (∀ (s : State) (b : PerfBlk) (v : W32), s.running (PerfBlk.half b) = true → s.answers (PerfBlk.half b) = true → Does (.histogramClearWrite b v) s fun t => t = s.histWrite b v.toNat) ∧
  (∀ (s : State) (b : PerfBlk) (v : W32) (k : Fin 16), s.running (PerfBlk.half b) = true → s.answers (PerfBlk.half b) = true → v.getLsbD 30 = true → s.wordBad (PerfBlk.half b) (perfOff b + 0x30) v.toNat = false → Does (.histogramClearWrite b v) s fun t =>
      t.get .PC_H0 (b.val * 16 + k.val) = 0 ∧ t.get .PC_H1 (b.val * 16 + k.val) = 0 ∧ (∀ j : Fin 8, t.get .PC_CNT (b.val * 8 + j.val) = s.get .PC_CNT (b.val * 8 + j.val))) ∧
  (∀ (s : State) (b : PerfBlk) (v : W32), s.running (PerfBlk.half b) = false → exec (.perfSampleWrite b v) s = .next (settle s) ∧ exec (.perfClearWrite b v) s = .next (settle s) ∧ exec (.histogramClearWrite b v) s = .next (settle s)) ∧
  (∀ (s : State) (g : Group) (i : Fin 8) (off : BitVec 20) (v : W32), s.running g.half = true → s.answers g.half = true → off.toNat = 0x12004 + 0x10000 * (g.val % 3) + 0x40 * i.val → ∃ t, exec (.registerWrite g.half .bar0 off 4 v) s = .next (settle t) ∧ (t.get .FE_SWING (8 * g.val + i.val) = v.toNat / 256 % 64 ∧ (.FE_SWING, 8 * g.val + i.val) ∈ t.written ∧ t.ap = s.ap)) ∧
  (∀ (s : State) (l : Lane) (off : BitVec 20), s.running l.half = true → s.answers l.half = true → off.toNat = 0x16020 + 0x10000 * (l.group.val % 3) + 0x100 * (l.val % 8) → ∃ t, exec (.lowWordReadLatch l.half ⟨.bar0, off, 4⟩) s = .next (settle t) ∧ (t.out = .read l.half off.toNat (s.get .FECS_CW (2 * l.val) % 2 ^ 32) :: s.out ∧ (t.half l.half).latch.head? = some (off.toNat + 4, s.get .FECS_CW (2 * l.val) / 2 ^ 32))) ∧
  (∀ (s : State) (h : Half) (a : BitVec 5) (p : Lane) (v : BitVec 16), s.mdioPort h a = some p → v.getLsbD 15 = true → s.get .ACQ_STATE p ≠ 0 → s.portLanes p = [p] → ∃ t, exec (.mdioPmaResetWrite h a v) s = .next (settle t) ∧ (t.get .ACQ_STATE p ≠ 3 ∧ t.get .ACQ_STATE p ≠ 0)) ∧
  (∀ (s : State) (h : Half) (a : BitVec 5) (p : Lane) (v : BitVec 16), s.mdioPort h a = some p → s.portLanes p = [p] → ∃ t, exec (.mdioTxDisableWrite h a v) s = .next (settle t) ∧ ((t.port p).txDisable = v.toNat % 512 ∧ t.get .FE_TX_EN p = (if v.getLsbD 0 || v.getLsbD 1 then 0 else 1) ∧ t.ap = s.ap)) ∧
  (∀ (s : State) (h : Half) (a : BitVec 5) (p : Lane), s.mdioPort h a = some p → ∃ t, exec (.mdioStatusRead h a) s = .next (settle t) ∧ (t.out = .mdio p.half ((if s.get .PORT_STATE p = 3 then 128 else 0) + (if s.get .PORT_STATE p = 2 ∧ (s.port p).downSeen = false then 4 else 0)) :: s.out ∧ (t.port p).downSeen = false)) ∧
  (∀ (s : State) (h : Half) (a : BitVec 5) (p : Lane) (v : BitVec 16), s.mdioPort h a = some p → ∃ t, exec (.mdioFrame h a 1 10 false v) s = .next (settle t) ∧ (t.out = .mdio p.half ((if (s.portLanes p).all (fun l => s.get .FE_SIG_DET l == 1) then 1 else 0)
        + ((s.portLanes p).map fun (l : Lane) => if s.get .FE_SIG_DET l = 1 then 2 ^ (l.val - p.val + 1) else 0).sum) :: s.out)) ∧
  (∀ (s : State) (h : Half) (q : Fin 4) (v : W32), s.answers h = true → v.toNat % 65536 < s.depth h (cmdRing q) → s.manages h = true → ∃ t, exec (.commandDoorbell h q v) s = .next (settle t) ∧ ((t.ring h (cmdRing q)).host = v.toNat % 65536 ∧ (t.ring h (cmdRing q)).staged = (s.ring h (cmdRing q)).staged)) ∧
  (∀ (s : State) (h : Half) (v : W32), s.answers h = true → v.toNat % 65536 < s.depth h (4) → ∃ t, exec (.completionDoorbell h v) s = .next (settle t) ∧ ((t.ring h (4)).host = v.toNat % 65536 ∧ (t.ring h (4)).staged = (s.ring h (4)).staged)) ∧
  (∀ (s : State) (h : Half) (v : W32), s.answers h = true → v.toNat % 65536 < s.depth h (5) → ∃ t, exec (.eventDoorbell h v) s = .next (settle t) ∧ ((t.ring h (5)).host = v.toNat % 65536 ∧ (t.ring h (5)).staged = (s.ring h (5)).staged)) ∧
  (∀ (s : State) (h : Half) (v : W32), s.answers h = true → v.toNat % 65536 < s.depth h (6) → ∃ t, exec (.telemetryDoorbell h v) s = .next (settle t) ∧ ((t.ring h (6)).host = v.toNat % 65536 ∧ (t.ring h (6)).staged = (s.ring h (6)).staged)) ∧
  (∀ (s : State) (h : Half) (v : W32), s.answers h = true → v.toNat % 65536 < s.depth h (7) → ∃ t, exec (.timestampDoorbell h v) s = .next (settle t) ∧ ((t.ring h (7)).host = v.toNat % 65536 ∧ (t.ring h (7)).staged = (s.ring h (7)).staged)) ∧
  (∀ (s : State) (h : Half) (q : Fin 8) (v : W32), s.running h = true → s.answers h = true → v.toNat.testBit 30 = true → ∃ t, exec (.ringReset h q v) s = .next (settle t) ∧ (t.get .RING_INDEX (ringIdx h q) = 0 ∧ t.get .RING_HALTED (ringIdx h q) = 0 ∧ t.get .RING_ERR (ringIdx h q) = 0 ∧ t.get .RING_EN (ringIdx h q) = 0 ∧ t.get .RING_ACTIVE (ringIdx h q) = 0 ∧ (t.ring h q).host = 0 ∧ (t.ring h q).phase = true ∧ (t.ring h q).staged = [] ∧ (t.ring h q).reads = [])) ∧
  (∀ (s : State) (h : Half) (q : Fin 8) (v : W32), s.running h = true → s.answers h = true → s.manages h = true → v.toNat.testBit 30 = false → v.toNat.testBit 31 = true → 4 ≤ v.toNat % 16 → v.toNat % 16 ≤ 12 → ∃ t, exec (.ringEnable h q v) s = .next (settle t) ∧ (t.get .RING_EN (ringIdx h q) = 1 ∧ t.get .RING_SIZE_LOG2 (ringIdx h q) = (if s.get .RING_EN (ringIdx h q) = 1 then s.get .RING_SIZE_LOG2 (ringIdx h q) else v.toNat % 16) ∧ t.get .RING_VEC (ringIdx h q) = v.toNat / 65536 % 32 ∧ t.get .RING_ACTIVE (ringIdx h q) = (if s.get .HIF_RUN h = 1 ∧ s.get .RING_HALTED (ringIdx h q) ≠ 1 then 1 else 0) ∧ (t.half h).rings = (s.half h).rings)) ∧
  (∀ (s : State) (h : Half), ∃ t, exec (.busMasterDisable h) s = .next (settle t) ∧ ((t.half h).bme = false ∧ (t.half h).msixPend = (s.half h).msixPend)) ∧
  (∀ (s : State) (h : Half), s.answers h = true → ∃ t, exec (.busMasterEnable h) s = .next (settle t) ∧ ((t.half h).bme = true ∧ (t.half h).msixPend = (s.half h).msixPend.filter (s.half h).masked ∧ t.out = ((s.half h).msixPend.filter fun v => !(s.half h).masked v).reverse.map (Out.msix h) ++ s.out)) ∧
  (∀ (s : State) (h : Half) (q : Fin 8), 4 ≤ q.val → (s.ring h q).unsig ≠ 0 → s.get .RING_TIME (ringIdx h q) ≠ 0 → (s.ring h q).unsigAt + 250 * s.get .RING_TIME (ringIdx h q) ≤ s.ticks h → ∃ t, exec (.msixModerationTimer h q) s = .next (settle t) ∧ (let vec := s.get .RING_VEC (ringIdx h q)
      (t.ring h q).unsig = 0 ∧ (s.masters h = true → (s.half h).masked vec = false → t.out.head? = some (.msix h vec)) ∧ (s.masters h = false ∨ (s.half h).masked vec = true → vec ∈ (t.half h).msixPend))) ∧
  (∀ (s : State) (h : Half) (q : Fin 4), s.fetchReady h (cmdRing q) = true → (s.ring h (cmdRing q)).reads = [] → ∃ t, exec (.descriptorFetch h q) s = .next (settle t) ∧ ((t.ring h (cmdRing q)).reads = [(s.get .RING_INDEX (ringIdx h (cmdRing q)) % s.depth h (cmdRing q), s.ticks h)] ∧ (t.half h).reserved = (s.half h).reserved + 1 ∧ t.out = .descRead h q (s.get .RING_INDEX (ringIdx h (cmdRing q)) % s.depth h (cmdRing q)) :: s.out)) ∧
  (∀ (s : State) (h : Half) (q : Fin 4) (i k : Nat) (rest : List (Nat × Nat)) (ws : List W32), (s.ring h (cmdRing q)).reads = (i, k) :: rest → ∃ t, exec (.descriptorDataReceive h q (.ok ws)) s = .next (settle t) ∧ ((t.ring h (cmdRing q)).reads = rest ∧ (t.ring h (cmdRing q)).staged = (s.ring h (cmdRing q)).staged ++ [(i, s.ticks h, ws)] ∧ t.get .RING_INDEX (ringIdx h (cmdRing q)) = (i + 1) % s.depth h (cmdRing q) % 2 ^ 12 ∧ (t.half h).reserved = (s.half h).reserved ∧ t.ap = s.ap)) ∧
  (∀ (s : State) (h : Half) (q : Fin 4) (i k : Nat) (ws : List W32) (rest : List (Nat × Nat × List W32)) (r : Req), s.mayTake h q = true → (∀ p : Fin 4, p < q → s.mayTake h p = false) → (s.ring h (cmdRing q)).staged = (i, k, ws) :: rest → parseOpc ws = some .nop → parseReq q i ws = r → Takes s h .nop r → ∃ t, exec (.descriptorTake h) s = .next (settle t) ∧ ((t.ring h (cmdRing q)).staged = rest ∧ Completed s t h r (timedNow s h 0))) ∧
  (∀ (s : State) (h : Half) (c : Cpl) (rest : List Cpl), (s.half h).cpls = c :: rest → s.ringMoves h 4 = true → s.ringSpace h 4 ≠ 0 → (s.half h).resets.all (fun x => x.1 != c.tag) = true → ∃ t, exec (.completionWrite h) s = .next (settle t) ∧ ((t.half h).cpls = rest ∧ (t.half h).reserved = (s.half h).reserved - 1 ∧ Out.entry h 4 (s.get .RING_INDEX (ringIdx h 4)) (c.words.set 1 (withPhase (s.ring h 4).phase (c.words.getD 1 0))) ∈ t.out ∧ t.get .RING_INDEX (ringIdx h 4) = (s.get .RING_INDEX (ringIdx h 4) + 1) % s.depth h 4 % 2 ^ 12 ∧ (t.ring h 4).phase = (if (s.get .RING_INDEX (ringIdx h 4) + 1) % s.depth h 4 = 0 then !(s.ring h 4).phase else (s.ring h 4).phase))) ∧
  (∀ (s : State) (h : Half) (e : Evt) (rest : List Evt), (s.half h).evts = e :: rest → (s.half h).evtDrop = 0 → s.ringMoves h 5 = true → s.recordsServed h = true → s.ringSpace h 5 ≠ 0 → ∃ t, exec (.eventRecordWrite h) s = .next (settle t) ∧ ((t.half h).evts = rest ∧ Out.entry h 5 (s.get .RING_INDEX (ringIdx h 5)) (e.words.set 0 (withPhase (s.ring h 5).phase (e.words.getD 0 0))) ∈ t.out ∧ t.get .RING_INDEX (ringIdx h 5) = (s.get .RING_INDEX (ringIdx h 5) + 1) % s.depth h 5 % 2 ^ 12)) ∧
  (∀ (s : State) (h : Half) (x : Tlm) (rest : List Tlm), (s.half h).tlms = x :: rest → (s.half h).tlmDrop = 0 → s.ringMoves h 6 = true → s.recordServed h x = true → x.units.length ≤ s.ringSpace h 6 → ∃ t, exec (.telemetryRecordWrite h) s = .next (settle t) ∧ ((t.half h).tlms = rest ∧ t.get .RING_INDEX (ringIdx h 6) = (s.get .RING_INDEX (ringIdx h 6) + x.units.length) % s.depth h 6 % 2 ^ 12)) ∧
  (∀ (s : State) (h : Half) (r : List W32) (rest : List (List W32)), (s.half h).tsq = r :: rest → s.manages h = true → s.ringMoves h 7 = true → s.ringSpace h 7 ≠ 0 → ∃ t, exec (.timestampRecordWrite h) s = .next (settle t) ∧ ((t.half h).tsq = rest ∧ t.get .TIME_TSQ_FILL h = rest.length % 256 ∧ t.get .TIME_REC_CNT h = (s.get .TIME_REC_CNT h + 1) % 2 ^ 32 ∧ Out.entry h 7 (s.get .RING_INDEX (ringIdx h 7)) (r.set 0 (withPhase (s.ring h 7).phase (r.getD 0 0))) ∈ t.out)) ∧
  (∀ (s : State) (h : Half), (s.half h).sbDirty = true → s.masters h = true → s.get .HIF_RUN h = 1 → s.running h = true → ∃ t, exec (.statusBlockWrite h) s = .next (settle t) ∧ (t.out = .status h (t.statusBlock h) :: s.out ∧ (t.half h).sbDirty = false ∧ (t.half h).sbSeq = ((s.half h).sbSeq + 1) % 2 ^ 32 ∧ (t.statusBlock h).length = 16 ∧ (t.statusBlock h).getD 5 0 = BitVec.ofNat 32 (t.half h).sbSeq ∧ (t.statusBlock h).getD 0 0 = BitVec.ofNat 32 (s.get .RING_INDEX (ringIdx h 1) * 65536 + s.get .RING_INDEX (ringIdx h 0))))
end

