-- ==== Sys2Proof/Laws/Store.lean ====
section
/-! SUPPORT. The laws of the sparse stores: read after write, and that every write keeps the canonical form. -/

namespace Sys2Proof.Machine

/-! ### Fields are told apart by their place in the list of fields -/

theorem Fld.eq_of_ctorIdx {f g : Fld} (h : f.ctorIdx = g.ctorIdx) : f = g := by
  rw [← Fld.ofNat_ctorIdx f, ← Fld.ofNat_ctorIdx g, h]

theorem FCell.is_iff {c : FCell} {f : Fld} {i : Nat} : c.is f i = true ↔ c.fld = f ∧ c.idx = i := by
  simp [FCell.is, and_comm]

/-! ### Read after write -/

theorem FStore.get_erase_self (st : FStore) (f : Fld) (i : Nat) : (st.erase f i).get f i = f.reset i := by
  induction st with
  | nil => rfl
  | cons c st ih =>
    by_cases h : c.is f i
    · simpa [FStore.erase, List.filter_cons, h] using ih
    · simpa [FStore.erase, List.filter_cons, h, FStore.get] using ih

theorem FStore.get_erase_ne (st : FStore) {f g : Fld} {i j : Nat} (h : ¬ (g = f ∧ j = i)) :
    (st.erase f i).get g j = st.get g j := by
  induction st with
  | nil => rfl
  | cons c st ih =>
    by_cases h1 : c.is f i
    · have h2 : ¬ c.is g j := by
        rw [FCell.is_iff] at h1 ⊢
        rintro ⟨rfl, rfl⟩
        exact h h1
      simpa [FStore.erase, List.filter_cons, h1, FStore.get, h2] using ih
    · by_cases h2 : c.is g j
      · simp [FStore.erase, h1, FStore.get, h2]
      · simpa [FStore.erase, List.filter_cons, h1, FStore.get, h2] using ih

theorem FStore.get_insert_self (st : FStore) (x : FCell) (h : ∀ c ∈ st, ¬ c.is x.fld x.idx) :
    (st.insert x).get x.fld x.idx = x.val := by
  have hx : x.is x.fld x.idx := FCell.is_iff.2 ⟨rfl, rfl⟩
  induction st with
  | nil => simp [FStore.insert, FStore.get, hx]
  | cons c st ih =>
    unfold FStore.insert
    split
    · rw [FStore.get, if_neg (h c (by simp))]
      exact ih fun d hd => h d (by simp [hd])
    · simp [FStore.get, hx]

theorem FStore.get_insert_ne (st : FStore) (x : FCell) {g : Fld} {j : Nat} (h : ¬ x.is g j) :
    (st.insert x).get g j = st.get g j := by
  induction st with
  | nil => simp [FStore.insert, FStore.get, h]
  | cons c st ih =>
    unfold FStore.insert
    split
    · simp [FStore.get, ih]
    · simp [FStore.get, h]

theorem FStore.not_mem_erase (st : FStore) (f : Fld) (i : Nat) : ∀ c ∈ st.erase f i, ¬ c.is f i := by
  intro c hc
  simpa using (List.mem_filter.1 hc).2

theorem FStore.get_put_self (st : FStore) (f : Fld) (i v : Nat) : (st.put f i v).get f i = v % 2 ^ f.width := by
  simp only [FStore.put]
  split
  · rename_i h
    rw [get_erase_self, ← h]
  · exact get_insert_self (st.erase f i) ⟨f, i, _⟩ (not_mem_erase st f i)

theorem FStore.get_put_ne (st : FStore) {f g : Fld} {i j : Nat} (v : Nat) (h : ¬ (g = f ∧ j = i)) :
    (st.put f i v).get g j = st.get g j := by
  simp only [FStore.put]
  split
  · exact get_erase_ne st h
  · rw [get_insert_ne _ _ (by rw [FCell.is_iff]; rintro ⟨rfl, rfl⟩; exact h ⟨rfl, rfl⟩), get_erase_ne st h]

/-! ### The canonical form -/

/-- Every cell of the store stands after the cell. -/
def FStore.After (c : FCell) (st : FStore) : Prop := ∀ d ∈ st, c.before d.fld d.idx = true

theorem FCell.before_trans {a b : FCell} {f : Fld} {i : Nat} (h : a.before b.fld b.idx = true) (h' : b.before f i = true) :
    a.before f i = true := by
  simp only [FCell.before, Bool.or_eq_true, Bool.and_eq_true, decide_eq_true_eq, beq_iff_eq] at *
  omega

theorem FStore.wf_cons {c : FCell} {st : FStore} :
    FStore.wf (c :: st) = true ↔ c.val ≠ c.fld.reset c.idx ∧ After c st ∧ FStore.wf st = true := by
  induction st generalizing c with
  | nil => simp [FStore.wf, After]
  | cons d st ih =>
    rw [FStore.wf, Bool.and_eq_true, Bool.and_eq_true, ih]
    constructor
    · rintro ⟨⟨h1, h2⟩, h3, h4, h5⟩
      refine ⟨by simpa using h1, ?_, h3, h4, h5⟩
      intro e he
      rcases List.mem_cons.1 he with rfl | he
      · exact h2
      · exact FCell.before_trans h2 (h4 e he)
    · rintro ⟨h1, h2, h3, h4, h5⟩
      exact ⟨⟨by simpa using h1, h2 d (by simp)⟩, h3, h4, h5⟩

theorem FStore.wf_erase {st : FStore} (f : Fld) (i : Nat) (h : FStore.wf st = true) : FStore.wf (st.erase f i) = true := by
  induction st with
  | nil => rfl
  | cons c st ih =>
    obtain ⟨h1, h2, h3⟩ := wf_cons.1 h
    by_cases hc : c.is f i
    · simpa [FStore.erase, List.filter_cons, hc] using ih h3
    · have : FStore.erase (c :: st) f i = c :: FStore.erase st f i := by simp [FStore.erase, hc]
      rw [this, wf_cons]
      exact ⟨h1, fun d hd => h2 d (List.mem_of_mem_filter hd), ih h3⟩

theorem FStore.mem_insert {st : FStore} {x d : FCell} (h : d ∈ st.insert x) : d = x ∨ d ∈ st := by
  induction st with
  | nil => simpa [FStore.insert] using h
  | cons c st ih =>
    unfold FStore.insert at h
    split at h
    · rcases List.mem_cons.1 h with rfl | h
      · simp
      · rcases ih h with h | h <;> simp [h]
    · simpa using h

theorem FStore.wf_insert {st : FStore} {x : FCell} (hx : x.val ≠ x.fld.reset x.idx) (hn : ∀ c ∈ st, ¬ c.is x.fld x.idx)
    (h : FStore.wf st = true) : FStore.wf (st.insert x) = true := by
  induction st with
  | nil => simpa [FStore.insert, FStore.wf] using hx
  | cons c st ih =>
    obtain ⟨h1, h2, h3⟩ := wf_cons.1 h
    unfold FStore.insert
    split
    · rename_i hb
      rw [wf_cons]
      refine ⟨h1, fun d hd => ?_, ih (fun d hd => hn d (by simp [hd])) h3⟩
      rcases mem_insert hd with rfl | hd
      · exact hb
      · exact h2 d hd
    · rename_i hb
      have hc : x.before c.fld c.idx = true := by
        have hne := hn c (by simp)
        rw [FCell.is_iff] at hne
        have : ¬ (c.fld.ctorIdx = x.fld.ctorIdx ∧ c.idx = x.idx) := fun e => hne ⟨Fld.eq_of_ctorIdx e.1, e.2⟩
        simp only [FCell.before, Bool.or_eq_true, Bool.and_eq_true, decide_eq_true_eq, beq_iff_eq] at hb ⊢
        omega
      rw [wf_cons]
      refine ⟨hx, fun d hd => ?_, h⟩
      rcases List.mem_cons.1 hd with rfl | hd
      · exact hc
      · exact FCell.before_trans hc (h2 d hd)

/-- A write keeps the canonical form of a field store. -/
theorem FStore.wf_put {st : FStore} (f : Fld) (i v : Nat) (h : FStore.wf st = true) : FStore.wf (st.put f i v) = true := by
  simp only [FStore.put]
  split
  · exact wf_erase f i h
  · rename_i hv
    exact wf_insert hv (not_mem_erase st f i) (wf_erase f i h)

/-! ### Addressed RAM -/

/-- Every word of the RAM stands after the key. -/
def Ram.After (k : Nat) (m : Ram) : Prop := ∀ d ∈ m, k < d.key

theorem Ram.wf_cons {c : RCell} {m : Ram} : Ram.wf (c :: m) = true ↔ c.val ≠ 0 ∧ After c.key m ∧ Ram.wf m = true := by
  induction m generalizing c with
  | nil => simp [Ram.wf, After]
  | cons d m ih =>
    rw [Ram.wf, Bool.and_eq_true, Bool.and_eq_true, ih]
    constructor
    · rintro ⟨⟨h1, h2⟩, h3, h4, h5⟩
      refine ⟨by simpa using h1, ?_, h3, h4, h5⟩
      have h2 : c.key < d.key := by simpa using h2
      intro e he
      rcases List.mem_cons.1 he with rfl | he
      · exact h2
      · exact h2.trans (h4 e he)
    · rintro ⟨h1, h2, h3, h4, h5⟩
      exact ⟨⟨by simpa using h1, by simpa using h2 d (by simp)⟩, h3, h4, h5⟩

theorem Ram.get_of_after {m : Ram} {k : Nat} (h : After k m) : Ram.get m k = 0 := by
  cases m with
  | nil => rfl
  | cons c m =>
    have := h c (by simp)
    rw [Ram.get, if_neg (by omega), if_pos this]

theorem Ram.mem_set {m : Ram} {k v : Nat} {d : RCell} (h : d ∈ m.set k v) : d.key = k ∨ d ∈ m := by
  induction m with
  | nil =>
    unfold Ram.set at h
    split at h <;> simp_all
  | cons c m ih =>
    unfold Ram.set at h
    split at h
    · rcases List.mem_cons.1 h with rfl | h
      · simp
      · rcases ih h with h | h <;> simp [h]
    · split at h <;> split at h <;> simp only [List.mem_cons] at h ⊢ <;> grind

/-- A write keeps the canonical form of a RAM. -/
theorem Ram.wf_set {m : Ram} (k v : Nat) (h : Ram.wf m = true) : Ram.wf (m.set k v) = true := by
  induction m with
  | nil =>
    unfold Ram.set
    split <;> simp_all [Ram.wf]
  | cons c m ih =>
    obtain ⟨h1, h2, h3⟩ := wf_cons.1 h
    unfold Ram.set
    split
    · rename_i hk
      refine wf_cons.2 ⟨h1, fun d hd => ?_, ih h3⟩
      rcases mem_set hd with e | hd
      · omega
      · exact h2 d hd
    · split
      · rename_i e
        split
        · exact h3
        · exact wf_cons.2 ⟨by simpa, by simpa [← e] using h2, h3⟩
      · split
        · exact h
        · refine wf_cons.2 ⟨by simpa, fun d hd => ?_, h⟩
          rcases List.mem_cons.1 hd with rfl | hd
          · simp only; omega
          · have := h2 d hd
            simp only; omega

/-- Read after write, for a RAM in its canonical form. -/
theorem Ram.get_set {m : Ram} (k v j : Nat) (h : Ram.wf m = true) :
    (m.set k v).get j = if j = k then v else m.get j := by
  induction m with
  | nil =>
    unfold Ram.set
    split <;> simp [Ram.get] <;> grind
  | cons c m ih =>
    obtain ⟨h1, h2, h3⟩ := wf_cons.1 h
    unfold Ram.set
    split
    · rw [Ram.get, ih h3, Ram.get]; grind
    · split
      · rename_i e
        subst e
        split
        · have h0 : ∀ k, k ≤ c.key → Ram.get m k = 0 := fun k hk => get_of_after fun d hd => lt_of_le_of_lt hk (h2 d hd)
          have := h0 j
          simp only [Ram.get]; grind
        · simp only [Ram.get]; grind
      · split
        · simp only [Ram.get]; grind
        · simp only [Ram.get]; grind

end Sys2Proof.Machine
end

