-- ==== Sys2Proof/Laws/State.lean ====
section
/-! SUPPORT. What each update of the state leaves alone, one lemma for each field and update, and what reads give after it. -/

namespace Sys2Proof.Machine

variable (s : State)

/-! ### The small writes are writes -/

@[simp] theorem State.flag_eq (f : Fld) (i : Nat) : s.flag f i = s.put f i 1 := rfl
@[simp] theorem State.inc_eq (f : Fld) (i n : Nat) : s.inc f i n = s.put f i (s.get f i + n) := rfl
@[simp] theorem State.incSat_eq (f : Fld) (i n : Nat) : s.incSat f i n = s.put f i (min (s.get f i + n) (2 ^ f.width - 1)) := rfl
@[simp] theorem State.putBool_eq (f : Fld) (i : Nat) (b : Bool) : s.putBool f i b = s.put f i (if b then 1 else 0) := rfl
@[simp] theorem State.putS_eq (f : Fld) (i : Nat) (v : Int) : s.putS f i v = s.put f i (ofSigned f.width v) := rfl

/-! ### Reads of fields after a write -/

theorem State.get_put (f g : Fld) (i j v : Nat) :
    (s.put g j v).get f i = if f = g ∧ i = j then v % 2 ^ g.width else s.get f i := by
  by_cases h : f = g ∧ i = j
  · obtain ⟨rfl, rfl⟩ := h
    simpa [State.get, State.put] using FStore.get_put_self s.f f i v
  · rw [if_neg h]
    exact FStore.get_put_ne s.f v h

@[simp] theorem State.get_put_self (f : Fld) (i v : Nat) : (s.put f i v).get f i = v % 2 ^ f.width := by simp [State.get_put]

theorem State.get_put_of_ne {f g : Fld} (h : f ≠ g) (i j v : Nat) : (s.put g j v).get f i = s.get f i := by
  simp [State.get_put, h]

@[simp] theorem State.get_putApp (f g : Fld) (i j v : Nat) : (s.putApp g j v).get f i = s.get f i := rfl

/-- The applied value of a field that is no shadow field is what it reads. -/
theorem State.app_eq_get {f : Fld} (h : f.info.shadow = false) (i : Nat) : s.app f i = s.get f i := by
  simp [State.app, State.get, h]

theorem State.app_put_of_ne {f g : Fld} (h : f ≠ g) (i j v : Nat) : (s.put g j v).app f i = s.app f i := by
  unfold State.app State.put
  split
  · rfl
  · exact FStore.get_put_ne s.f v fun e => h e.1

/-- A write of a shadow field leaves every applied value. -/
theorem State.app_put_of_shadow {f : Fld} (h : f.info.shadow = true) (g : Fld) (i j v : Nat) : (s.put g j v).app f i = s.app f i := by
  simp [State.app, State.put, h]

theorem State.app_putApp_self {f : Fld} (h : f.info.shadow = true) (i v : Nat) : (s.putApp f i v).app f i = v % 2 ^ f.width := by
  simpa [State.app, State.putApp, h] using FStore.get_put_self s.ap f i v

theorem State.app_putApp_of_ne {f g : Fld} (h : f ≠ g) (i j v : Nat) : (s.putApp g j v).app f i = s.app f i := by
  unfold State.app State.putApp
  split
  · exact FStore.get_put_ne s.ap v fun e => h e.1
  · rfl


/-! ### `put` -/

@[simp] theorem State.put_ap : ∀ (s : State) (g : Fld) (j v : Nat), (s.put g j v).ap = s.ap := fun _ _ _ _ => rfl
@[simp] theorem State.put_written : ∀ (s : State) (g : Fld) (j v : Nat), (s.put g j v).written = s.written := fun _ _ _ _ => rfl
@[simp] theorem State.put_halves : ∀ (s : State) (g : Fld) (j v : Nat), (s.put g j v).halves = s.halves := fun _ _ _ _ => rfl
@[simp] theorem State.put_groups : ∀ (s : State) (g : Fld) (j v : Nat), (s.put g j v).groups = s.groups := fun _ _ _ _ => rfl
@[simp] theorem State.put_ports : ∀ (s : State) (g : Fld) (j v : Nat), (s.put g j v).ports = s.ports := fun _ _ _ _ => rfl
@[simp] theorem State.put_lanes : ∀ (s : State) (g : Fld) (j v : Nat), (s.put g j v).lanes = s.lanes := fun _ _ _ _ => rfl
@[simp] theorem State.put_dmt : ∀ (s : State) (g : Fld) (j v : Nat), (s.put g j v).dmt = s.dmt := fun _ _ _ _ => rfl
@[simp] theorem State.put_hlanes : ∀ (s : State) (g : Fld) (j v : Nat), (s.put g j v).hlanes = s.hlanes := fun _ _ _ _ => rfl
@[simp] theorem State.put_ctxs : ∀ (s : State) (g : Fld) (j v : Nat), (s.put g j v).ctxs = s.ctxs := fun _ _ _ _ => rfl
@[simp] theorem State.put_chans : ∀ (s : State) (g : Fld) (j v : Nat), (s.put g j v).chans = s.chans := fun _ _ _ _ => rfl
@[simp] theorem State.put_seqs : ∀ (s : State) (g : Fld) (j v : Nat), (s.put g j v).seqs = s.seqs := fun _ _ _ _ => rfl
@[simp] theorem State.put_chains : ∀ (s : State) (g : Fld) (j v : Nat), (s.put g j v).chains = s.chains := fun _ _ _ _ => rfl
@[simp] theorem State.put_dies : ∀ (s : State) (g : Fld) (j v : Nat), (s.put g j v).dies = s.dies := fun _ _ _ _ => rfl
@[simp] theorem State.put_engs : ∀ (s : State) (g : Fld) (j v : Nat), (s.put g j v).engs = s.engs := fun _ _ _ _ => rfl
@[simp] theorem State.put_knds : ∀ (s : State) (g : Fld) (j v : Nat), (s.put g j v).knds = s.knds := fun _ _ _ _ => rfl
@[simp] theorem State.put_faulty : ∀ (s : State) (g : Fld) (j v : Nat), (s.put g j v).faulty = s.faulty := fun _ _ _ _ => rfl
@[simp] theorem State.put_trackers : ∀ (s : State) (g : Fld) (j v : Nat), (s.put g j v).trackers = s.trackers := fun _ _ _ _ => rfl
@[simp] theorem State.put_fis : ∀ (s : State) (g : Fld) (j v : Nat), (s.put g j v).fis = s.fis := fun _ _ _ _ => rfl
@[simp] theorem State.put_sticky : ∀ (s : State) (g : Fld) (j v : Nat), (s.put g j v).sticky = s.sticky := fun _ _ _ _ => rfl
@[simp] theorem State.put_rows : ∀ (s : State) (g : Fld) (j v : Nat), (s.put g j v).rows = s.rows := fun _ _ _ _ => rfl
@[simp] theorem State.put_badRows : ∀ (s : State) (g : Fld) (j v : Nat), (s.put g j v).badRows = s.badRows := fun _ _ _ _ => rfl
@[simp] theorem State.put_testmode : ∀ (s : State) (g : Fld) (j v : Nat), (s.put g j v).testmode = s.testmode := fun _ _ _ _ => rfl
@[simp] theorem State.put_extest : ∀ (s : State) (g : Fld) (j v : Nat), (s.put g j v).extest = s.extest := fun _ _ _ _ => rfl
@[simp] theorem State.put_porst : ∀ (s : State) (g : Fld) (j v : Nat), (s.put g j v).porst = s.porst := fun _ _ _ _ => rfl
@[simp] theorem State.put_frame : ∀ (s : State) (g : Fld) (j v : Nat), (s.put g j v).frame = s.frame := fun _ _ _ _ => rfl
@[simp] theorem State.put_results : ∀ (s : State) (g : Fld) (j v : Nat), (s.put g j v).results = s.results := fun _ _ _ _ => rfl
@[simp] theorem State.put_resultAt : ∀ (s : State) (g : Fld) (j v : Nat), (s.put g j v).resultAt = s.resultAt := fun _ _ _ _ => rfl
@[simp] theorem State.put_senseAt : ∀ (s : State) (g : Fld) (j v : Nat), (s.put g j v).senseAt = s.senseAt := fun _ _ _ _ => rfl
@[simp] theorem State.put_capture : ∀ (s : State) (g : Fld) (j v : Nat), (s.put g j v).capture = s.capture := fun _ _ _ _ => rfl
@[simp] theorem State.put_bridge : ∀ (s : State) (g : Fld) (j v : Nat), (s.put g j v).bridge = s.bridge := fun _ _ _ _ => rfl
@[simp] theorem State.put_trims : ∀ (s : State) (g : Fld) (j v : Nat), (s.put g j v).trims = s.trims := fun _ _ _ _ => rfl
@[simp] theorem State.put_out : ∀ (s : State) (g : Fld) (j v : Nat), (s.put g j v).out = s.out := fun _ _ _ _ => rfl
@[simp] theorem State.put_free : ∀ (s : State) (g : Fld) (j v : Nat), (s.put g j v).free = s.free := fun _ _ _ _ => rfl
@[simp] theorem State.put_accepted : ∀ (s : State) (g : Fld) (j v : Nat), (s.put g j v).accepted = s.accepted := fun _ _ _ _ => rfl
@[simp] theorem State.put_pending : ∀ (s : State) (g : Fld) (j v : Nat), (s.put g j v).pending = s.pending := fun _ _ _ _ => rfl
@[simp] theorem State.put_half : ∀ (s : State) (g : Fld) (j v : Nat) (x : Half), (s.put g j v).half x = s.half x := fun _ _ _ _ _ => rfl
@[simp] theorem State.put_group : ∀ (s : State) (g : Fld) (j v : Nat) (x : Group), (s.put g j v).group x = s.group x := fun _ _ _ _ _ => rfl
@[simp] theorem State.put_port : ∀ (s : State) (g : Fld) (j v : Nat) (x : Lane), (s.put g j v).port x = s.port x := fun _ _ _ _ _ => rfl
@[simp] theorem State.put_lane : ∀ (s : State) (g : Fld) (j v : Nat) (x : Lane), (s.put g j v).lane x = s.lane x := fun _ _ _ _ _ => rfl
@[simp] theorem State.put_hlane : ∀ (s : State) (g : Fld) (j v : Nat) (x : HLane), (s.put g j v).hlane x = s.hlane x := fun _ _ _ _ _ => rfl
@[simp] theorem State.put_ctx : ∀ (s : State) (g : Fld) (j v : Nat) (x : Ctx), (s.put g j v).ctx x = s.ctx x := fun _ _ _ _ _ => rfl
@[simp] theorem State.put_chan : ∀ (s : State) (g : Fld) (j v : Nat) (x : Chan), (s.put g j v).chan x = s.chan x := fun _ _ _ _ _ => rfl
@[simp] theorem State.put_sequ : ∀ (s : State) (g : Fld) (j v : Nat) (x : SeqN), (s.put g j v).sequ x = s.sequ x := fun _ _ _ _ _ => rfl
@[simp] theorem State.put_chain : ∀ (s : State) (g : Fld) (j v : Nat) (x : ChainN), (s.put g j v).chain x = s.chain x := fun _ _ _ _ _ => rfl
@[simp] theorem State.put_die : ∀ (s : State) (g : Fld) (j v : Nat) (x : DieSensor), (s.put g j v).die x = s.die x := fun _ _ _ _ _ => rfl
@[simp] theorem State.put_eng : ∀ (s : State) (g : Fld) (j v : Nat) (x : EngSensor), (s.put g j v).eng x = s.eng x := fun _ _ _ _ _ => rfl
@[simp] theorem State.put_knd : ∀ (s : State) (g : Fld) (j v : Nat) (x : Knd), (s.put g j v).knd x = s.knd x := fun _ _ _ _ _ => rfl
@[simp] theorem State.put_fi : ∀ (s : State) (g : Fld) (j v : Nat) (x : Fin 32), (s.put g j v).fi x = s.fi x := fun _ _ _ _ _ => rfl

/-! ### `putApp` -/

@[simp] theorem State.putApp_f : ∀ (s : State) (g : Fld) (j v : Nat), (s.putApp g j v).f = s.f := fun _ _ _ _ => rfl
@[simp] theorem State.putApp_written : ∀ (s : State) (g : Fld) (j v : Nat), (s.putApp g j v).written = s.written := fun _ _ _ _ => rfl
@[simp] theorem State.putApp_halves : ∀ (s : State) (g : Fld) (j v : Nat), (s.putApp g j v).halves = s.halves := fun _ _ _ _ => rfl
@[simp] theorem State.putApp_groups : ∀ (s : State) (g : Fld) (j v : Nat), (s.putApp g j v).groups = s.groups := fun _ _ _ _ => rfl
@[simp] theorem State.putApp_ports : ∀ (s : State) (g : Fld) (j v : Nat), (s.putApp g j v).ports = s.ports := fun _ _ _ _ => rfl
@[simp] theorem State.putApp_lanes : ∀ (s : State) (g : Fld) (j v : Nat), (s.putApp g j v).lanes = s.lanes := fun _ _ _ _ => rfl
@[simp] theorem State.putApp_dmt : ∀ (s : State) (g : Fld) (j v : Nat), (s.putApp g j v).dmt = s.dmt := fun _ _ _ _ => rfl
@[simp] theorem State.putApp_hlanes : ∀ (s : State) (g : Fld) (j v : Nat), (s.putApp g j v).hlanes = s.hlanes := fun _ _ _ _ => rfl
@[simp] theorem State.putApp_ctxs : ∀ (s : State) (g : Fld) (j v : Nat), (s.putApp g j v).ctxs = s.ctxs := fun _ _ _ _ => rfl
@[simp] theorem State.putApp_chans : ∀ (s : State) (g : Fld) (j v : Nat), (s.putApp g j v).chans = s.chans := fun _ _ _ _ => rfl
@[simp] theorem State.putApp_seqs : ∀ (s : State) (g : Fld) (j v : Nat), (s.putApp g j v).seqs = s.seqs := fun _ _ _ _ => rfl
@[simp] theorem State.putApp_chains : ∀ (s : State) (g : Fld) (j v : Nat), (s.putApp g j v).chains = s.chains := fun _ _ _ _ => rfl
@[simp] theorem State.putApp_dies : ∀ (s : State) (g : Fld) (j v : Nat), (s.putApp g j v).dies = s.dies := fun _ _ _ _ => rfl
@[simp] theorem State.putApp_engs : ∀ (s : State) (g : Fld) (j v : Nat), (s.putApp g j v).engs = s.engs := fun _ _ _ _ => rfl
@[simp] theorem State.putApp_knds : ∀ (s : State) (g : Fld) (j v : Nat), (s.putApp g j v).knds = s.knds := fun _ _ _ _ => rfl
@[simp] theorem State.putApp_faulty : ∀ (s : State) (g : Fld) (j v : Nat), (s.putApp g j v).faulty = s.faulty := fun _ _ _ _ => rfl
@[simp] theorem State.putApp_trackers : ∀ (s : State) (g : Fld) (j v : Nat), (s.putApp g j v).trackers = s.trackers := fun _ _ _ _ => rfl
@[simp] theorem State.putApp_fis : ∀ (s : State) (g : Fld) (j v : Nat), (s.putApp g j v).fis = s.fis := fun _ _ _ _ => rfl
@[simp] theorem State.putApp_sticky : ∀ (s : State) (g : Fld) (j v : Nat), (s.putApp g j v).sticky = s.sticky := fun _ _ _ _ => rfl
@[simp] theorem State.putApp_rows : ∀ (s : State) (g : Fld) (j v : Nat), (s.putApp g j v).rows = s.rows := fun _ _ _ _ => rfl
@[simp] theorem State.putApp_badRows : ∀ (s : State) (g : Fld) (j v : Nat), (s.putApp g j v).badRows = s.badRows := fun _ _ _ _ => rfl
@[simp] theorem State.putApp_testmode : ∀ (s : State) (g : Fld) (j v : Nat), (s.putApp g j v).testmode = s.testmode := fun _ _ _ _ => rfl
@[simp] theorem State.putApp_extest : ∀ (s : State) (g : Fld) (j v : Nat), (s.putApp g j v).extest = s.extest := fun _ _ _ _ => rfl
@[simp] theorem State.putApp_porst : ∀ (s : State) (g : Fld) (j v : Nat), (s.putApp g j v).porst = s.porst := fun _ _ _ _ => rfl
@[simp] theorem State.putApp_frame : ∀ (s : State) (g : Fld) (j v : Nat), (s.putApp g j v).frame = s.frame := fun _ _ _ _ => rfl
@[simp] theorem State.putApp_results : ∀ (s : State) (g : Fld) (j v : Nat), (s.putApp g j v).results = s.results := fun _ _ _ _ => rfl
@[simp] theorem State.putApp_resultAt : ∀ (s : State) (g : Fld) (j v : Nat), (s.putApp g j v).resultAt = s.resultAt := fun _ _ _ _ => rfl
@[simp] theorem State.putApp_senseAt : ∀ (s : State) (g : Fld) (j v : Nat), (s.putApp g j v).senseAt = s.senseAt := fun _ _ _ _ => rfl
@[simp] theorem State.putApp_capture : ∀ (s : State) (g : Fld) (j v : Nat), (s.putApp g j v).capture = s.capture := fun _ _ _ _ => rfl
@[simp] theorem State.putApp_bridge : ∀ (s : State) (g : Fld) (j v : Nat), (s.putApp g j v).bridge = s.bridge := fun _ _ _ _ => rfl
@[simp] theorem State.putApp_trims : ∀ (s : State) (g : Fld) (j v : Nat), (s.putApp g j v).trims = s.trims := fun _ _ _ _ => rfl
@[simp] theorem State.putApp_out : ∀ (s : State) (g : Fld) (j v : Nat), (s.putApp g j v).out = s.out := fun _ _ _ _ => rfl
@[simp] theorem State.putApp_free : ∀ (s : State) (g : Fld) (j v : Nat), (s.putApp g j v).free = s.free := fun _ _ _ _ => rfl
@[simp] theorem State.putApp_accepted : ∀ (s : State) (g : Fld) (j v : Nat), (s.putApp g j v).accepted = s.accepted := fun _ _ _ _ => rfl
@[simp] theorem State.putApp_pending : ∀ (s : State) (g : Fld) (j v : Nat), (s.putApp g j v).pending = s.pending := fun _ _ _ _ => rfl
@[simp] theorem State.putApp_half : ∀ (s : State) (g : Fld) (j v : Nat) (x : Half), (s.putApp g j v).half x = s.half x := fun _ _ _ _ _ => rfl
@[simp] theorem State.putApp_group : ∀ (s : State) (g : Fld) (j v : Nat) (x : Group), (s.putApp g j v).group x = s.group x := fun _ _ _ _ _ => rfl
@[simp] theorem State.putApp_port : ∀ (s : State) (g : Fld) (j v : Nat) (x : Lane), (s.putApp g j v).port x = s.port x := fun _ _ _ _ _ => rfl
@[simp] theorem State.putApp_lane : ∀ (s : State) (g : Fld) (j v : Nat) (x : Lane), (s.putApp g j v).lane x = s.lane x := fun _ _ _ _ _ => rfl
@[simp] theorem State.putApp_hlane : ∀ (s : State) (g : Fld) (j v : Nat) (x : HLane), (s.putApp g j v).hlane x = s.hlane x := fun _ _ _ _ _ => rfl
@[simp] theorem State.putApp_ctx : ∀ (s : State) (g : Fld) (j v : Nat) (x : Ctx), (s.putApp g j v).ctx x = s.ctx x := fun _ _ _ _ _ => rfl
@[simp] theorem State.putApp_chan : ∀ (s : State) (g : Fld) (j v : Nat) (x : Chan), (s.putApp g j v).chan x = s.chan x := fun _ _ _ _ _ => rfl
@[simp] theorem State.putApp_sequ : ∀ (s : State) (g : Fld) (j v : Nat) (x : SeqN), (s.putApp g j v).sequ x = s.sequ x := fun _ _ _ _ _ => rfl
@[simp] theorem State.putApp_chain : ∀ (s : State) (g : Fld) (j v : Nat) (x : ChainN), (s.putApp g j v).chain x = s.chain x := fun _ _ _ _ _ => rfl
@[simp] theorem State.putApp_die : ∀ (s : State) (g : Fld) (j v : Nat) (x : DieSensor), (s.putApp g j v).die x = s.die x := fun _ _ _ _ _ => rfl
@[simp] theorem State.putApp_eng : ∀ (s : State) (g : Fld) (j v : Nat) (x : EngSensor), (s.putApp g j v).eng x = s.eng x := fun _ _ _ _ _ => rfl
@[simp] theorem State.putApp_knd : ∀ (s : State) (g : Fld) (j v : Nat) (x : Knd), (s.putApp g j v).knd x = s.knd x := fun _ _ _ _ _ => rfl
@[simp] theorem State.putApp_fi : ∀ (s : State) (g : Fld) (j v : Nat) (x : Fin 32), (s.putApp g j v).fi x = s.fi x := fun _ _ _ _ _ => rfl

/-! ### `emit` -/

@[simp] theorem State.emit_f : ∀ (s : State) (o : Out), (s.emit o).f = s.f := fun _ _ => rfl
@[simp] theorem State.emit_ap : ∀ (s : State) (o : Out), (s.emit o).ap = s.ap := fun _ _ => rfl
@[simp] theorem State.emit_written : ∀ (s : State) (o : Out), (s.emit o).written = s.written := fun _ _ => rfl
@[simp] theorem State.emit_halves : ∀ (s : State) (o : Out), (s.emit o).halves = s.halves := fun _ _ => rfl
@[simp] theorem State.emit_groups : ∀ (s : State) (o : Out), (s.emit o).groups = s.groups := fun _ _ => rfl
@[simp] theorem State.emit_ports : ∀ (s : State) (o : Out), (s.emit o).ports = s.ports := fun _ _ => rfl
@[simp] theorem State.emit_lanes : ∀ (s : State) (o : Out), (s.emit o).lanes = s.lanes := fun _ _ => rfl
@[simp] theorem State.emit_dmt : ∀ (s : State) (o : Out), (s.emit o).dmt = s.dmt := fun _ _ => rfl
@[simp] theorem State.emit_hlanes : ∀ (s : State) (o : Out), (s.emit o).hlanes = s.hlanes := fun _ _ => rfl
@[simp] theorem State.emit_ctxs : ∀ (s : State) (o : Out), (s.emit o).ctxs = s.ctxs := fun _ _ => rfl
@[simp] theorem State.emit_chans : ∀ (s : State) (o : Out), (s.emit o).chans = s.chans := fun _ _ => rfl
@[simp] theorem State.emit_seqs : ∀ (s : State) (o : Out), (s.emit o).seqs = s.seqs := fun _ _ => rfl
@[simp] theorem State.emit_chains : ∀ (s : State) (o : Out), (s.emit o).chains = s.chains := fun _ _ => rfl
@[simp] theorem State.emit_dies : ∀ (s : State) (o : Out), (s.emit o).dies = s.dies := fun _ _ => rfl
@[simp] theorem State.emit_engs : ∀ (s : State) (o : Out), (s.emit o).engs = s.engs := fun _ _ => rfl
@[simp] theorem State.emit_knds : ∀ (s : State) (o : Out), (s.emit o).knds = s.knds := fun _ _ => rfl
@[simp] theorem State.emit_faulty : ∀ (s : State) (o : Out), (s.emit o).faulty = s.faulty := fun _ _ => rfl
@[simp] theorem State.emit_trackers : ∀ (s : State) (o : Out), (s.emit o).trackers = s.trackers := fun _ _ => rfl
@[simp] theorem State.emit_fis : ∀ (s : State) (o : Out), (s.emit o).fis = s.fis := fun _ _ => rfl
@[simp] theorem State.emit_sticky : ∀ (s : State) (o : Out), (s.emit o).sticky = s.sticky := fun _ _ => rfl
@[simp] theorem State.emit_rows : ∀ (s : State) (o : Out), (s.emit o).rows = s.rows := fun _ _ => rfl
@[simp] theorem State.emit_badRows : ∀ (s : State) (o : Out), (s.emit o).badRows = s.badRows := fun _ _ => rfl
@[simp] theorem State.emit_testmode : ∀ (s : State) (o : Out), (s.emit o).testmode = s.testmode := fun _ _ => rfl
@[simp] theorem State.emit_extest : ∀ (s : State) (o : Out), (s.emit o).extest = s.extest := fun _ _ => rfl
@[simp] theorem State.emit_porst : ∀ (s : State) (o : Out), (s.emit o).porst = s.porst := fun _ _ => rfl
@[simp] theorem State.emit_frame : ∀ (s : State) (o : Out), (s.emit o).frame = s.frame := fun _ _ => rfl
@[simp] theorem State.emit_results : ∀ (s : State) (o : Out), (s.emit o).results = s.results := fun _ _ => rfl
@[simp] theorem State.emit_resultAt : ∀ (s : State) (o : Out), (s.emit o).resultAt = s.resultAt := fun _ _ => rfl
@[simp] theorem State.emit_senseAt : ∀ (s : State) (o : Out), (s.emit o).senseAt = s.senseAt := fun _ _ => rfl
@[simp] theorem State.emit_capture : ∀ (s : State) (o : Out), (s.emit o).capture = s.capture := fun _ _ => rfl
@[simp] theorem State.emit_bridge : ∀ (s : State) (o : Out), (s.emit o).bridge = s.bridge := fun _ _ => rfl
@[simp] theorem State.emit_trims : ∀ (s : State) (o : Out), (s.emit o).trims = s.trims := fun _ _ => rfl
@[simp] theorem State.emit_free : ∀ (s : State) (o : Out), (s.emit o).free = s.free := fun _ _ => rfl
@[simp] theorem State.emit_accepted : ∀ (s : State) (o : Out), (s.emit o).accepted = s.accepted := fun _ _ => rfl
@[simp] theorem State.emit_pending : ∀ (s : State) (o : Out), (s.emit o).pending = s.pending := fun _ _ => rfl
@[simp] theorem State.emit_get : ∀ (s : State) (o : Out) (f : Fld) (i : Nat), (s.emit o).get f i = s.get f i := fun _ _ _ _ => rfl
@[simp] theorem State.emit_app : ∀ (s : State) (o : Out) (f : Fld) (i : Nat), (s.emit o).app f i = s.app f i := fun _ _ _ _ => rfl
@[simp] theorem State.emit_isSet : ∀ (s : State) (o : Out) (f : Fld) (i : Nat), (s.emit o).isSet f i = s.isSet f i := fun _ _ _ _ => rfl
@[simp] theorem State.emit_appSet : ∀ (s : State) (o : Out) (f : Fld) (i : Nat), (s.emit o).appSet f i = s.appSet f i := fun _ _ _ _ => rfl
@[simp] theorem State.emit_half : ∀ (s : State) (o : Out) (x : Half), (s.emit o).half x = s.half x := fun _ _ _ => rfl
@[simp] theorem State.emit_group : ∀ (s : State) (o : Out) (x : Group), (s.emit o).group x = s.group x := fun _ _ _ => rfl
@[simp] theorem State.emit_port : ∀ (s : State) (o : Out) (x : Lane), (s.emit o).port x = s.port x := fun _ _ _ => rfl
@[simp] theorem State.emit_lane : ∀ (s : State) (o : Out) (x : Lane), (s.emit o).lane x = s.lane x := fun _ _ _ => rfl
@[simp] theorem State.emit_hlane : ∀ (s : State) (o : Out) (x : HLane), (s.emit o).hlane x = s.hlane x := fun _ _ _ => rfl
@[simp] theorem State.emit_ctx : ∀ (s : State) (o : Out) (x : Ctx), (s.emit o).ctx x = s.ctx x := fun _ _ _ => rfl
@[simp] theorem State.emit_chan : ∀ (s : State) (o : Out) (x : Chan), (s.emit o).chan x = s.chan x := fun _ _ _ => rfl
@[simp] theorem State.emit_sequ : ∀ (s : State) (o : Out) (x : SeqN), (s.emit o).sequ x = s.sequ x := fun _ _ _ => rfl
@[simp] theorem State.emit_chain : ∀ (s : State) (o : Out) (x : ChainN), (s.emit o).chain x = s.chain x := fun _ _ _ => rfl
@[simp] theorem State.emit_die : ∀ (s : State) (o : Out) (x : DieSensor), (s.emit o).die x = s.die x := fun _ _ _ => rfl
@[simp] theorem State.emit_eng : ∀ (s : State) (o : Out) (x : EngSensor), (s.emit o).eng x = s.eng x := fun _ _ _ => rfl
@[simp] theorem State.emit_knd : ∀ (s : State) (o : Out) (x : Knd), (s.emit o).knd x = s.knd x := fun _ _ _ => rfl
@[simp] theorem State.emit_fi : ∀ (s : State) (o : Out) (x : Fin 32), (s.emit o).fi x = s.fi x := fun _ _ _ => rfl

/-! ### `modBridge` -/

@[simp] theorem State.modBridge_f : ∀ (s : State) (u : BridgeS → BridgeS), (s.modBridge u).f = s.f := fun _ _ => rfl
@[simp] theorem State.modBridge_ap : ∀ (s : State) (u : BridgeS → BridgeS), (s.modBridge u).ap = s.ap := fun _ _ => rfl
@[simp] theorem State.modBridge_written : ∀ (s : State) (u : BridgeS → BridgeS), (s.modBridge u).written = s.written := fun _ _ => rfl
@[simp] theorem State.modBridge_halves : ∀ (s : State) (u : BridgeS → BridgeS), (s.modBridge u).halves = s.halves := fun _ _ => rfl
@[simp] theorem State.modBridge_groups : ∀ (s : State) (u : BridgeS → BridgeS), (s.modBridge u).groups = s.groups := fun _ _ => rfl
@[simp] theorem State.modBridge_ports : ∀ (s : State) (u : BridgeS → BridgeS), (s.modBridge u).ports = s.ports := fun _ _ => rfl
@[simp] theorem State.modBridge_lanes : ∀ (s : State) (u : BridgeS → BridgeS), (s.modBridge u).lanes = s.lanes := fun _ _ => rfl
@[simp] theorem State.modBridge_dmt : ∀ (s : State) (u : BridgeS → BridgeS), (s.modBridge u).dmt = s.dmt := fun _ _ => rfl
@[simp] theorem State.modBridge_hlanes : ∀ (s : State) (u : BridgeS → BridgeS), (s.modBridge u).hlanes = s.hlanes := fun _ _ => rfl
@[simp] theorem State.modBridge_ctxs : ∀ (s : State) (u : BridgeS → BridgeS), (s.modBridge u).ctxs = s.ctxs := fun _ _ => rfl
@[simp] theorem State.modBridge_chans : ∀ (s : State) (u : BridgeS → BridgeS), (s.modBridge u).chans = s.chans := fun _ _ => rfl
@[simp] theorem State.modBridge_seqs : ∀ (s : State) (u : BridgeS → BridgeS), (s.modBridge u).seqs = s.seqs := fun _ _ => rfl
@[simp] theorem State.modBridge_chains : ∀ (s : State) (u : BridgeS → BridgeS), (s.modBridge u).chains = s.chains := fun _ _ => rfl
@[simp] theorem State.modBridge_dies : ∀ (s : State) (u : BridgeS → BridgeS), (s.modBridge u).dies = s.dies := fun _ _ => rfl
@[simp] theorem State.modBridge_engs : ∀ (s : State) (u : BridgeS → BridgeS), (s.modBridge u).engs = s.engs := fun _ _ => rfl
@[simp] theorem State.modBridge_knds : ∀ (s : State) (u : BridgeS → BridgeS), (s.modBridge u).knds = s.knds := fun _ _ => rfl
@[simp] theorem State.modBridge_faulty : ∀ (s : State) (u : BridgeS → BridgeS), (s.modBridge u).faulty = s.faulty := fun _ _ => rfl
@[simp] theorem State.modBridge_trackers : ∀ (s : State) (u : BridgeS → BridgeS), (s.modBridge u).trackers = s.trackers := fun _ _ => rfl
@[simp] theorem State.modBridge_fis : ∀ (s : State) (u : BridgeS → BridgeS), (s.modBridge u).fis = s.fis := fun _ _ => rfl
@[simp] theorem State.modBridge_sticky : ∀ (s : State) (u : BridgeS → BridgeS), (s.modBridge u).sticky = s.sticky := fun _ _ => rfl
@[simp] theorem State.modBridge_rows : ∀ (s : State) (u : BridgeS → BridgeS), (s.modBridge u).rows = s.rows := fun _ _ => rfl
@[simp] theorem State.modBridge_badRows : ∀ (s : State) (u : BridgeS → BridgeS), (s.modBridge u).badRows = s.badRows := fun _ _ => rfl
@[simp] theorem State.modBridge_testmode : ∀ (s : State) (u : BridgeS → BridgeS), (s.modBridge u).testmode = s.testmode := fun _ _ => rfl
@[simp] theorem State.modBridge_extest : ∀ (s : State) (u : BridgeS → BridgeS), (s.modBridge u).extest = s.extest := fun _ _ => rfl
@[simp] theorem State.modBridge_porst : ∀ (s : State) (u : BridgeS → BridgeS), (s.modBridge u).porst = s.porst := fun _ _ => rfl
@[simp] theorem State.modBridge_frame : ∀ (s : State) (u : BridgeS → BridgeS), (s.modBridge u).frame = s.frame := fun _ _ => rfl
@[simp] theorem State.modBridge_results : ∀ (s : State) (u : BridgeS → BridgeS), (s.modBridge u).results = s.results := fun _ _ => rfl
@[simp] theorem State.modBridge_resultAt : ∀ (s : State) (u : BridgeS → BridgeS), (s.modBridge u).resultAt = s.resultAt := fun _ _ => rfl
@[simp] theorem State.modBridge_senseAt : ∀ (s : State) (u : BridgeS → BridgeS), (s.modBridge u).senseAt = s.senseAt := fun _ _ => rfl
@[simp] theorem State.modBridge_capture : ∀ (s : State) (u : BridgeS → BridgeS), (s.modBridge u).capture = s.capture := fun _ _ => rfl
@[simp] theorem State.modBridge_trims : ∀ (s : State) (u : BridgeS → BridgeS), (s.modBridge u).trims = s.trims := fun _ _ => rfl
@[simp] theorem State.modBridge_out : ∀ (s : State) (u : BridgeS → BridgeS), (s.modBridge u).out = s.out := fun _ _ => rfl
@[simp] theorem State.modBridge_free : ∀ (s : State) (u : BridgeS → BridgeS), (s.modBridge u).free = s.free := fun _ _ => rfl
@[simp] theorem State.modBridge_accepted : ∀ (s : State) (u : BridgeS → BridgeS), (s.modBridge u).accepted = s.accepted := fun _ _ => rfl
@[simp] theorem State.modBridge_pending : ∀ (s : State) (u : BridgeS → BridgeS), (s.modBridge u).pending = s.pending := fun _ _ => rfl
@[simp] theorem State.modBridge_get : ∀ (s : State) (u : BridgeS → BridgeS) (f : Fld) (i : Nat), (s.modBridge u).get f i = s.get f i := fun _ _ _ _ => rfl
@[simp] theorem State.modBridge_app : ∀ (s : State) (u : BridgeS → BridgeS) (f : Fld) (i : Nat), (s.modBridge u).app f i = s.app f i := fun _ _ _ _ => rfl
@[simp] theorem State.modBridge_isSet : ∀ (s : State) (u : BridgeS → BridgeS) (f : Fld) (i : Nat), (s.modBridge u).isSet f i = s.isSet f i := fun _ _ _ _ => rfl
@[simp] theorem State.modBridge_appSet : ∀ (s : State) (u : BridgeS → BridgeS) (f : Fld) (i : Nat), (s.modBridge u).appSet f i = s.appSet f i := fun _ _ _ _ => rfl
@[simp] theorem State.modBridge_half : ∀ (s : State) (u : BridgeS → BridgeS) (x : Half), (s.modBridge u).half x = s.half x := fun _ _ _ => rfl
@[simp] theorem State.modBridge_group : ∀ (s : State) (u : BridgeS → BridgeS) (x : Group), (s.modBridge u).group x = s.group x := fun _ _ _ => rfl
@[simp] theorem State.modBridge_port : ∀ (s : State) (u : BridgeS → BridgeS) (x : Lane), (s.modBridge u).port x = s.port x := fun _ _ _ => rfl
@[simp] theorem State.modBridge_lane : ∀ (s : State) (u : BridgeS → BridgeS) (x : Lane), (s.modBridge u).lane x = s.lane x := fun _ _ _ => rfl
@[simp] theorem State.modBridge_hlane : ∀ (s : State) (u : BridgeS → BridgeS) (x : HLane), (s.modBridge u).hlane x = s.hlane x := fun _ _ _ => rfl
@[simp] theorem State.modBridge_ctx : ∀ (s : State) (u : BridgeS → BridgeS) (x : Ctx), (s.modBridge u).ctx x = s.ctx x := fun _ _ _ => rfl
@[simp] theorem State.modBridge_chan : ∀ (s : State) (u : BridgeS → BridgeS) (x : Chan), (s.modBridge u).chan x = s.chan x := fun _ _ _ => rfl
@[simp] theorem State.modBridge_sequ : ∀ (s : State) (u : BridgeS → BridgeS) (x : SeqN), (s.modBridge u).sequ x = s.sequ x := fun _ _ _ => rfl
@[simp] theorem State.modBridge_chain : ∀ (s : State) (u : BridgeS → BridgeS) (x : ChainN), (s.modBridge u).chain x = s.chain x := fun _ _ _ => rfl
@[simp] theorem State.modBridge_die : ∀ (s : State) (u : BridgeS → BridgeS) (x : DieSensor), (s.modBridge u).die x = s.die x := fun _ _ _ => rfl
@[simp] theorem State.modBridge_eng : ∀ (s : State) (u : BridgeS → BridgeS) (x : EngSensor), (s.modBridge u).eng x = s.eng x := fun _ _ _ => rfl
@[simp] theorem State.modBridge_knd : ∀ (s : State) (u : BridgeS → BridgeS) (x : Knd), (s.modBridge u).knd x = s.knd x := fun _ _ _ => rfl
@[simp] theorem State.modBridge_fi : ∀ (s : State) (u : BridgeS → BridgeS) (x : Fin 32), (s.modBridge u).fi x = s.fi x := fun _ _ _ => rfl

/-! ### `modHalf` -/

@[simp] theorem State.modHalf_f : ∀ (s : State) (k : Half) (u : HalfS → HalfS), (s.modHalf k u).f = s.f := fun _ _ _ => rfl
@[simp] theorem State.modHalf_ap : ∀ (s : State) (k : Half) (u : HalfS → HalfS), (s.modHalf k u).ap = s.ap := fun _ _ _ => rfl
@[simp] theorem State.modHalf_written : ∀ (s : State) (k : Half) (u : HalfS → HalfS), (s.modHalf k u).written = s.written := fun _ _ _ => rfl
@[simp] theorem State.modHalf_groups : ∀ (s : State) (k : Half) (u : HalfS → HalfS), (s.modHalf k u).groups = s.groups := fun _ _ _ => rfl
@[simp] theorem State.modHalf_ports : ∀ (s : State) (k : Half) (u : HalfS → HalfS), (s.modHalf k u).ports = s.ports := fun _ _ _ => rfl
@[simp] theorem State.modHalf_lanes : ∀ (s : State) (k : Half) (u : HalfS → HalfS), (s.modHalf k u).lanes = s.lanes := fun _ _ _ => rfl
@[simp] theorem State.modHalf_dmt : ∀ (s : State) (k : Half) (u : HalfS → HalfS), (s.modHalf k u).dmt = s.dmt := fun _ _ _ => rfl
@[simp] theorem State.modHalf_hlanes : ∀ (s : State) (k : Half) (u : HalfS → HalfS), (s.modHalf k u).hlanes = s.hlanes := fun _ _ _ => rfl
@[simp] theorem State.modHalf_ctxs : ∀ (s : State) (k : Half) (u : HalfS → HalfS), (s.modHalf k u).ctxs = s.ctxs := fun _ _ _ => rfl
@[simp] theorem State.modHalf_chans : ∀ (s : State) (k : Half) (u : HalfS → HalfS), (s.modHalf k u).chans = s.chans := fun _ _ _ => rfl
@[simp] theorem State.modHalf_seqs : ∀ (s : State) (k : Half) (u : HalfS → HalfS), (s.modHalf k u).seqs = s.seqs := fun _ _ _ => rfl
@[simp] theorem State.modHalf_chains : ∀ (s : State) (k : Half) (u : HalfS → HalfS), (s.modHalf k u).chains = s.chains := fun _ _ _ => rfl
@[simp] theorem State.modHalf_dies : ∀ (s : State) (k : Half) (u : HalfS → HalfS), (s.modHalf k u).dies = s.dies := fun _ _ _ => rfl
@[simp] theorem State.modHalf_engs : ∀ (s : State) (k : Half) (u : HalfS → HalfS), (s.modHalf k u).engs = s.engs := fun _ _ _ => rfl
@[simp] theorem State.modHalf_knds : ∀ (s : State) (k : Half) (u : HalfS → HalfS), (s.modHalf k u).knds = s.knds := fun _ _ _ => rfl
@[simp] theorem State.modHalf_faulty : ∀ (s : State) (k : Half) (u : HalfS → HalfS), (s.modHalf k u).faulty = s.faulty := fun _ _ _ => rfl
@[simp] theorem State.modHalf_trackers : ∀ (s : State) (k : Half) (u : HalfS → HalfS), (s.modHalf k u).trackers = s.trackers := fun _ _ _ => rfl
@[simp] theorem State.modHalf_fis : ∀ (s : State) (k : Half) (u : HalfS → HalfS), (s.modHalf k u).fis = s.fis := fun _ _ _ => rfl
@[simp] theorem State.modHalf_sticky : ∀ (s : State) (k : Half) (u : HalfS → HalfS), (s.modHalf k u).sticky = s.sticky := fun _ _ _ => rfl
@[simp] theorem State.modHalf_rows : ∀ (s : State) (k : Half) (u : HalfS → HalfS), (s.modHalf k u).rows = s.rows := fun _ _ _ => rfl
@[simp] theorem State.modHalf_badRows : ∀ (s : State) (k : Half) (u : HalfS → HalfS), (s.modHalf k u).badRows = s.badRows := fun _ _ _ => rfl
@[simp] theorem State.modHalf_testmode : ∀ (s : State) (k : Half) (u : HalfS → HalfS), (s.modHalf k u).testmode = s.testmode := fun _ _ _ => rfl
@[simp] theorem State.modHalf_extest : ∀ (s : State) (k : Half) (u : HalfS → HalfS), (s.modHalf k u).extest = s.extest := fun _ _ _ => rfl
@[simp] theorem State.modHalf_porst : ∀ (s : State) (k : Half) (u : HalfS → HalfS), (s.modHalf k u).porst = s.porst := fun _ _ _ => rfl
@[simp] theorem State.modHalf_frame : ∀ (s : State) (k : Half) (u : HalfS → HalfS), (s.modHalf k u).frame = s.frame := fun _ _ _ => rfl
@[simp] theorem State.modHalf_results : ∀ (s : State) (k : Half) (u : HalfS → HalfS), (s.modHalf k u).results = s.results := fun _ _ _ => rfl
@[simp] theorem State.modHalf_resultAt : ∀ (s : State) (k : Half) (u : HalfS → HalfS), (s.modHalf k u).resultAt = s.resultAt := fun _ _ _ => rfl
@[simp] theorem State.modHalf_senseAt : ∀ (s : State) (k : Half) (u : HalfS → HalfS), (s.modHalf k u).senseAt = s.senseAt := fun _ _ _ => rfl
@[simp] theorem State.modHalf_capture : ∀ (s : State) (k : Half) (u : HalfS → HalfS), (s.modHalf k u).capture = s.capture := fun _ _ _ => rfl
@[simp] theorem State.modHalf_bridge : ∀ (s : State) (k : Half) (u : HalfS → HalfS), (s.modHalf k u).bridge = s.bridge := fun _ _ _ => rfl
@[simp] theorem State.modHalf_trims : ∀ (s : State) (k : Half) (u : HalfS → HalfS), (s.modHalf k u).trims = s.trims := fun _ _ _ => rfl
@[simp] theorem State.modHalf_out : ∀ (s : State) (k : Half) (u : HalfS → HalfS), (s.modHalf k u).out = s.out := fun _ _ _ => rfl
@[simp] theorem State.modHalf_free : ∀ (s : State) (k : Half) (u : HalfS → HalfS), (s.modHalf k u).free = s.free := fun _ _ _ => rfl
@[simp] theorem State.modHalf_accepted : ∀ (s : State) (k : Half) (u : HalfS → HalfS), (s.modHalf k u).accepted = s.accepted := fun _ _ _ => rfl
@[simp] theorem State.modHalf_pending : ∀ (s : State) (k : Half) (u : HalfS → HalfS), (s.modHalf k u).pending = s.pending := fun _ _ _ => rfl
@[simp] theorem State.modHalf_get : ∀ (s : State) (k : Half) (u : HalfS → HalfS) (f : Fld) (i : Nat), (s.modHalf k u).get f i = s.get f i := fun _ _ _ _ _ => rfl
@[simp] theorem State.modHalf_app : ∀ (s : State) (k : Half) (u : HalfS → HalfS) (f : Fld) (i : Nat), (s.modHalf k u).app f i = s.app f i := fun _ _ _ _ _ => rfl
@[simp] theorem State.modHalf_isSet : ∀ (s : State) (k : Half) (u : HalfS → HalfS) (f : Fld) (i : Nat), (s.modHalf k u).isSet f i = s.isSet f i := fun _ _ _ _ _ => rfl
@[simp] theorem State.modHalf_appSet : ∀ (s : State) (k : Half) (u : HalfS → HalfS) (f : Fld) (i : Nat), (s.modHalf k u).appSet f i = s.appSet f i := fun _ _ _ _ _ => rfl
@[simp] theorem State.modHalf_group : ∀ (s : State) (k : Half) (u : HalfS → HalfS) (x : Group), (s.modHalf k u).group x = s.group x := fun _ _ _ _ => rfl
@[simp] theorem State.modHalf_port : ∀ (s : State) (k : Half) (u : HalfS → HalfS) (x : Lane), (s.modHalf k u).port x = s.port x := fun _ _ _ _ => rfl
@[simp] theorem State.modHalf_lane : ∀ (s : State) (k : Half) (u : HalfS → HalfS) (x : Lane), (s.modHalf k u).lane x = s.lane x := fun _ _ _ _ => rfl
@[simp] theorem State.modHalf_hlane : ∀ (s : State) (k : Half) (u : HalfS → HalfS) (x : HLane), (s.modHalf k u).hlane x = s.hlane x := fun _ _ _ _ => rfl
@[simp] theorem State.modHalf_ctx : ∀ (s : State) (k : Half) (u : HalfS → HalfS) (x : Ctx), (s.modHalf k u).ctx x = s.ctx x := fun _ _ _ _ => rfl
@[simp] theorem State.modHalf_chan : ∀ (s : State) (k : Half) (u : HalfS → HalfS) (x : Chan), (s.modHalf k u).chan x = s.chan x := fun _ _ _ _ => rfl
@[simp] theorem State.modHalf_sequ : ∀ (s : State) (k : Half) (u : HalfS → HalfS) (x : SeqN), (s.modHalf k u).sequ x = s.sequ x := fun _ _ _ _ => rfl
@[simp] theorem State.modHalf_chain : ∀ (s : State) (k : Half) (u : HalfS → HalfS) (x : ChainN), (s.modHalf k u).chain x = s.chain x := fun _ _ _ _ => rfl
@[simp] theorem State.modHalf_die : ∀ (s : State) (k : Half) (u : HalfS → HalfS) (x : DieSensor), (s.modHalf k u).die x = s.die x := fun _ _ _ _ => rfl
@[simp] theorem State.modHalf_eng : ∀ (s : State) (k : Half) (u : HalfS → HalfS) (x : EngSensor), (s.modHalf k u).eng x = s.eng x := fun _ _ _ _ => rfl
@[simp] theorem State.modHalf_knd : ∀ (s : State) (k : Half) (u : HalfS → HalfS) (x : Knd), (s.modHalf k u).knd x = s.knd x := fun _ _ _ _ => rfl
@[simp] theorem State.modHalf_fi : ∀ (s : State) (k : Half) (u : HalfS → HalfS) (x : Fin 32), (s.modHalf k u).fi x = s.fi x := fun _ _ _ _ => rfl

/-! ### `modGroup` -/

@[simp] theorem State.modGroup_f : ∀ (s : State) (k : Group) (u : GroupS → GroupS), (s.modGroup k u).f = s.f := fun _ _ _ => rfl
@[simp] theorem State.modGroup_ap : ∀ (s : State) (k : Group) (u : GroupS → GroupS), (s.modGroup k u).ap = s.ap := fun _ _ _ => rfl
@[simp] theorem State.modGroup_written : ∀ (s : State) (k : Group) (u : GroupS → GroupS), (s.modGroup k u).written = s.written := fun _ _ _ => rfl
@[simp] theorem State.modGroup_halves : ∀ (s : State) (k : Group) (u : GroupS → GroupS), (s.modGroup k u).halves = s.halves := fun _ _ _ => rfl
@[simp] theorem State.modGroup_ports : ∀ (s : State) (k : Group) (u : GroupS → GroupS), (s.modGroup k u).ports = s.ports := fun _ _ _ => rfl
@[simp] theorem State.modGroup_lanes : ∀ (s : State) (k : Group) (u : GroupS → GroupS), (s.modGroup k u).lanes = s.lanes := fun _ _ _ => rfl
@[simp] theorem State.modGroup_dmt : ∀ (s : State) (k : Group) (u : GroupS → GroupS), (s.modGroup k u).dmt = s.dmt := fun _ _ _ => rfl
@[simp] theorem State.modGroup_hlanes : ∀ (s : State) (k : Group) (u : GroupS → GroupS), (s.modGroup k u).hlanes = s.hlanes := fun _ _ _ => rfl
@[simp] theorem State.modGroup_ctxs : ∀ (s : State) (k : Group) (u : GroupS → GroupS), (s.modGroup k u).ctxs = s.ctxs := fun _ _ _ => rfl
@[simp] theorem State.modGroup_chans : ∀ (s : State) (k : Group) (u : GroupS → GroupS), (s.modGroup k u).chans = s.chans := fun _ _ _ => rfl
@[simp] theorem State.modGroup_seqs : ∀ (s : State) (k : Group) (u : GroupS → GroupS), (s.modGroup k u).seqs = s.seqs := fun _ _ _ => rfl
@[simp] theorem State.modGroup_chains : ∀ (s : State) (k : Group) (u : GroupS → GroupS), (s.modGroup k u).chains = s.chains := fun _ _ _ => rfl
@[simp] theorem State.modGroup_dies : ∀ (s : State) (k : Group) (u : GroupS → GroupS), (s.modGroup k u).dies = s.dies := fun _ _ _ => rfl
@[simp] theorem State.modGroup_engs : ∀ (s : State) (k : Group) (u : GroupS → GroupS), (s.modGroup k u).engs = s.engs := fun _ _ _ => rfl
@[simp] theorem State.modGroup_knds : ∀ (s : State) (k : Group) (u : GroupS → GroupS), (s.modGroup k u).knds = s.knds := fun _ _ _ => rfl
@[simp] theorem State.modGroup_faulty : ∀ (s : State) (k : Group) (u : GroupS → GroupS), (s.modGroup k u).faulty = s.faulty := fun _ _ _ => rfl
@[simp] theorem State.modGroup_trackers : ∀ (s : State) (k : Group) (u : GroupS → GroupS), (s.modGroup k u).trackers = s.trackers := fun _ _ _ => rfl
@[simp] theorem State.modGroup_fis : ∀ (s : State) (k : Group) (u : GroupS → GroupS), (s.modGroup k u).fis = s.fis := fun _ _ _ => rfl
@[simp] theorem State.modGroup_sticky : ∀ (s : State) (k : Group) (u : GroupS → GroupS), (s.modGroup k u).sticky = s.sticky := fun _ _ _ => rfl
@[simp] theorem State.modGroup_rows : ∀ (s : State) (k : Group) (u : GroupS → GroupS), (s.modGroup k u).rows = s.rows := fun _ _ _ => rfl
@[simp] theorem State.modGroup_badRows : ∀ (s : State) (k : Group) (u : GroupS → GroupS), (s.modGroup k u).badRows = s.badRows := fun _ _ _ => rfl
@[simp] theorem State.modGroup_testmode : ∀ (s : State) (k : Group) (u : GroupS → GroupS), (s.modGroup k u).testmode = s.testmode := fun _ _ _ => rfl
@[simp] theorem State.modGroup_extest : ∀ (s : State) (k : Group) (u : GroupS → GroupS), (s.modGroup k u).extest = s.extest := fun _ _ _ => rfl
@[simp] theorem State.modGroup_porst : ∀ (s : State) (k : Group) (u : GroupS → GroupS), (s.modGroup k u).porst = s.porst := fun _ _ _ => rfl
@[simp] theorem State.modGroup_frame : ∀ (s : State) (k : Group) (u : GroupS → GroupS), (s.modGroup k u).frame = s.frame := fun _ _ _ => rfl
@[simp] theorem State.modGroup_results : ∀ (s : State) (k : Group) (u : GroupS → GroupS), (s.modGroup k u).results = s.results := fun _ _ _ => rfl
@[simp] theorem State.modGroup_resultAt : ∀ (s : State) (k : Group) (u : GroupS → GroupS), (s.modGroup k u).resultAt = s.resultAt := fun _ _ _ => rfl
@[simp] theorem State.modGroup_senseAt : ∀ (s : State) (k : Group) (u : GroupS → GroupS), (s.modGroup k u).senseAt = s.senseAt := fun _ _ _ => rfl
@[simp] theorem State.modGroup_capture : ∀ (s : State) (k : Group) (u : GroupS → GroupS), (s.modGroup k u).capture = s.capture := fun _ _ _ => rfl
@[simp] theorem State.modGroup_bridge : ∀ (s : State) (k : Group) (u : GroupS → GroupS), (s.modGroup k u).bridge = s.bridge := fun _ _ _ => rfl
@[simp] theorem State.modGroup_trims : ∀ (s : State) (k : Group) (u : GroupS → GroupS), (s.modGroup k u).trims = s.trims := fun _ _ _ => rfl
@[simp] theorem State.modGroup_out : ∀ (s : State) (k : Group) (u : GroupS → GroupS), (s.modGroup k u).out = s.out := fun _ _ _ => rfl
@[simp] theorem State.modGroup_free : ∀ (s : State) (k : Group) (u : GroupS → GroupS), (s.modGroup k u).free = s.free := fun _ _ _ => rfl
@[simp] theorem State.modGroup_accepted : ∀ (s : State) (k : Group) (u : GroupS → GroupS), (s.modGroup k u).accepted = s.accepted := fun _ _ _ => rfl
@[simp] theorem State.modGroup_pending : ∀ (s : State) (k : Group) (u : GroupS → GroupS), (s.modGroup k u).pending = s.pending := fun _ _ _ => rfl
@[simp] theorem State.modGroup_get : ∀ (s : State) (k : Group) (u : GroupS → GroupS) (f : Fld) (i : Nat), (s.modGroup k u).get f i = s.get f i := fun _ _ _ _ _ => rfl
@[simp] theorem State.modGroup_app : ∀ (s : State) (k : Group) (u : GroupS → GroupS) (f : Fld) (i : Nat), (s.modGroup k u).app f i = s.app f i := fun _ _ _ _ _ => rfl
@[simp] theorem State.modGroup_isSet : ∀ (s : State) (k : Group) (u : GroupS → GroupS) (f : Fld) (i : Nat), (s.modGroup k u).isSet f i = s.isSet f i := fun _ _ _ _ _ => rfl
@[simp] theorem State.modGroup_appSet : ∀ (s : State) (k : Group) (u : GroupS → GroupS) (f : Fld) (i : Nat), (s.modGroup k u).appSet f i = s.appSet f i := fun _ _ _ _ _ => rfl
@[simp] theorem State.modGroup_half : ∀ (s : State) (k : Group) (u : GroupS → GroupS) (x : Half), (s.modGroup k u).half x = s.half x := fun _ _ _ _ => rfl
@[simp] theorem State.modGroup_port : ∀ (s : State) (k : Group) (u : GroupS → GroupS) (x : Lane), (s.modGroup k u).port x = s.port x := fun _ _ _ _ => rfl
@[simp] theorem State.modGroup_lane : ∀ (s : State) (k : Group) (u : GroupS → GroupS) (x : Lane), (s.modGroup k u).lane x = s.lane x := fun _ _ _ _ => rfl
@[simp] theorem State.modGroup_hlane : ∀ (s : State) (k : Group) (u : GroupS → GroupS) (x : HLane), (s.modGroup k u).hlane x = s.hlane x := fun _ _ _ _ => rfl
@[simp] theorem State.modGroup_ctx : ∀ (s : State) (k : Group) (u : GroupS → GroupS) (x : Ctx), (s.modGroup k u).ctx x = s.ctx x := fun _ _ _ _ => rfl
@[simp] theorem State.modGroup_chan : ∀ (s : State) (k : Group) (u : GroupS → GroupS) (x : Chan), (s.modGroup k u).chan x = s.chan x := fun _ _ _ _ => rfl
@[simp] theorem State.modGroup_sequ : ∀ (s : State) (k : Group) (u : GroupS → GroupS) (x : SeqN), (s.modGroup k u).sequ x = s.sequ x := fun _ _ _ _ => rfl
@[simp] theorem State.modGroup_chain : ∀ (s : State) (k : Group) (u : GroupS → GroupS) (x : ChainN), (s.modGroup k u).chain x = s.chain x := fun _ _ _ _ => rfl
@[simp] theorem State.modGroup_die : ∀ (s : State) (k : Group) (u : GroupS → GroupS) (x : DieSensor), (s.modGroup k u).die x = s.die x := fun _ _ _ _ => rfl
@[simp] theorem State.modGroup_eng : ∀ (s : State) (k : Group) (u : GroupS → GroupS) (x : EngSensor), (s.modGroup k u).eng x = s.eng x := fun _ _ _ _ => rfl
@[simp] theorem State.modGroup_knd : ∀ (s : State) (k : Group) (u : GroupS → GroupS) (x : Knd), (s.modGroup k u).knd x = s.knd x := fun _ _ _ _ => rfl
@[simp] theorem State.modGroup_fi : ∀ (s : State) (k : Group) (u : GroupS → GroupS) (x : Fin 32), (s.modGroup k u).fi x = s.fi x := fun _ _ _ _ => rfl

/-! ### `modPort` -/

@[simp] theorem State.modPort_f : ∀ (s : State) (k : Lane) (u : PortS → PortS), (s.modPort k u).f = s.f := fun _ _ _ => rfl
@[simp] theorem State.modPort_ap : ∀ (s : State) (k : Lane) (u : PortS → PortS), (s.modPort k u).ap = s.ap := fun _ _ _ => rfl
@[simp] theorem State.modPort_written : ∀ (s : State) (k : Lane) (u : PortS → PortS), (s.modPort k u).written = s.written := fun _ _ _ => rfl
@[simp] theorem State.modPort_halves : ∀ (s : State) (k : Lane) (u : PortS → PortS), (s.modPort k u).halves = s.halves := fun _ _ _ => rfl
@[simp] theorem State.modPort_groups : ∀ (s : State) (k : Lane) (u : PortS → PortS), (s.modPort k u).groups = s.groups := fun _ _ _ => rfl
@[simp] theorem State.modPort_lanes : ∀ (s : State) (k : Lane) (u : PortS → PortS), (s.modPort k u).lanes = s.lanes := fun _ _ _ => rfl
@[simp] theorem State.modPort_dmt : ∀ (s : State) (k : Lane) (u : PortS → PortS), (s.modPort k u).dmt = s.dmt := fun _ _ _ => rfl
@[simp] theorem State.modPort_hlanes : ∀ (s : State) (k : Lane) (u : PortS → PortS), (s.modPort k u).hlanes = s.hlanes := fun _ _ _ => rfl
@[simp] theorem State.modPort_ctxs : ∀ (s : State) (k : Lane) (u : PortS → PortS), (s.modPort k u).ctxs = s.ctxs := fun _ _ _ => rfl
@[simp] theorem State.modPort_chans : ∀ (s : State) (k : Lane) (u : PortS → PortS), (s.modPort k u).chans = s.chans := fun _ _ _ => rfl
@[simp] theorem State.modPort_seqs : ∀ (s : State) (k : Lane) (u : PortS → PortS), (s.modPort k u).seqs = s.seqs := fun _ _ _ => rfl
@[simp] theorem State.modPort_chains : ∀ (s : State) (k : Lane) (u : PortS → PortS), (s.modPort k u).chains = s.chains := fun _ _ _ => rfl
@[simp] theorem State.modPort_dies : ∀ (s : State) (k : Lane) (u : PortS → PortS), (s.modPort k u).dies = s.dies := fun _ _ _ => rfl
@[simp] theorem State.modPort_engs : ∀ (s : State) (k : Lane) (u : PortS → PortS), (s.modPort k u).engs = s.engs := fun _ _ _ => rfl
@[simp] theorem State.modPort_knds : ∀ (s : State) (k : Lane) (u : PortS → PortS), (s.modPort k u).knds = s.knds := fun _ _ _ => rfl
@[simp] theorem State.modPort_faulty : ∀ (s : State) (k : Lane) (u : PortS → PortS), (s.modPort k u).faulty = s.faulty := fun _ _ _ => rfl
@[simp] theorem State.modPort_trackers : ∀ (s : State) (k : Lane) (u : PortS → PortS), (s.modPort k u).trackers = s.trackers := fun _ _ _ => rfl
@[simp] theorem State.modPort_fis : ∀ (s : State) (k : Lane) (u : PortS → PortS), (s.modPort k u).fis = s.fis := fun _ _ _ => rfl
@[simp] theorem State.modPort_sticky : ∀ (s : State) (k : Lane) (u : PortS → PortS), (s.modPort k u).sticky = s.sticky := fun _ _ _ => rfl
@[simp] theorem State.modPort_rows : ∀ (s : State) (k : Lane) (u : PortS → PortS), (s.modPort k u).rows = s.rows := fun _ _ _ => rfl
@[simp] theorem State.modPort_badRows : ∀ (s : State) (k : Lane) (u : PortS → PortS), (s.modPort k u).badRows = s.badRows := fun _ _ _ => rfl
@[simp] theorem State.modPort_testmode : ∀ (s : State) (k : Lane) (u : PortS → PortS), (s.modPort k u).testmode = s.testmode := fun _ _ _ => rfl
@[simp] theorem State.modPort_extest : ∀ (s : State) (k : Lane) (u : PortS → PortS), (s.modPort k u).extest = s.extest := fun _ _ _ => rfl
@[simp] theorem State.modPort_porst : ∀ (s : State) (k : Lane) (u : PortS → PortS), (s.modPort k u).porst = s.porst := fun _ _ _ => rfl
@[simp] theorem State.modPort_frame : ∀ (s : State) (k : Lane) (u : PortS → PortS), (s.modPort k u).frame = s.frame := fun _ _ _ => rfl
@[simp] theorem State.modPort_results : ∀ (s : State) (k : Lane) (u : PortS → PortS), (s.modPort k u).results = s.results := fun _ _ _ => rfl
@[simp] theorem State.modPort_resultAt : ∀ (s : State) (k : Lane) (u : PortS → PortS), (s.modPort k u).resultAt = s.resultAt := fun _ _ _ => rfl
@[simp] theorem State.modPort_senseAt : ∀ (s : State) (k : Lane) (u : PortS → PortS), (s.modPort k u).senseAt = s.senseAt := fun _ _ _ => rfl
@[simp] theorem State.modPort_capture : ∀ (s : State) (k : Lane) (u : PortS → PortS), (s.modPort k u).capture = s.capture := fun _ _ _ => rfl
@[simp] theorem State.modPort_bridge : ∀ (s : State) (k : Lane) (u : PortS → PortS), (s.modPort k u).bridge = s.bridge := fun _ _ _ => rfl
@[simp] theorem State.modPort_trims : ∀ (s : State) (k : Lane) (u : PortS → PortS), (s.modPort k u).trims = s.trims := fun _ _ _ => rfl
@[simp] theorem State.modPort_out : ∀ (s : State) (k : Lane) (u : PortS → PortS), (s.modPort k u).out = s.out := fun _ _ _ => rfl
@[simp] theorem State.modPort_free : ∀ (s : State) (k : Lane) (u : PortS → PortS), (s.modPort k u).free = s.free := fun _ _ _ => rfl
@[simp] theorem State.modPort_accepted : ∀ (s : State) (k : Lane) (u : PortS → PortS), (s.modPort k u).accepted = s.accepted := fun _ _ _ => rfl
@[simp] theorem State.modPort_pending : ∀ (s : State) (k : Lane) (u : PortS → PortS), (s.modPort k u).pending = s.pending := fun _ _ _ => rfl
@[simp] theorem State.modPort_get : ∀ (s : State) (k : Lane) (u : PortS → PortS) (f : Fld) (i : Nat), (s.modPort k u).get f i = s.get f i := fun _ _ _ _ _ => rfl
@[simp] theorem State.modPort_app : ∀ (s : State) (k : Lane) (u : PortS → PortS) (f : Fld) (i : Nat), (s.modPort k u).app f i = s.app f i := fun _ _ _ _ _ => rfl
@[simp] theorem State.modPort_isSet : ∀ (s : State) (k : Lane) (u : PortS → PortS) (f : Fld) (i : Nat), (s.modPort k u).isSet f i = s.isSet f i := fun _ _ _ _ _ => rfl
@[simp] theorem State.modPort_appSet : ∀ (s : State) (k : Lane) (u : PortS → PortS) (f : Fld) (i : Nat), (s.modPort k u).appSet f i = s.appSet f i := fun _ _ _ _ _ => rfl
@[simp] theorem State.modPort_half : ∀ (s : State) (k : Lane) (u : PortS → PortS) (x : Half), (s.modPort k u).half x = s.half x := fun _ _ _ _ => rfl
@[simp] theorem State.modPort_group : ∀ (s : State) (k : Lane) (u : PortS → PortS) (x : Group), (s.modPort k u).group x = s.group x := fun _ _ _ _ => rfl
@[simp] theorem State.modPort_lane : ∀ (s : State) (k : Lane) (u : PortS → PortS) (x : Lane), (s.modPort k u).lane x = s.lane x := fun _ _ _ _ => rfl
@[simp] theorem State.modPort_hlane : ∀ (s : State) (k : Lane) (u : PortS → PortS) (x : HLane), (s.modPort k u).hlane x = s.hlane x := fun _ _ _ _ => rfl
@[simp] theorem State.modPort_ctx : ∀ (s : State) (k : Lane) (u : PortS → PortS) (x : Ctx), (s.modPort k u).ctx x = s.ctx x := fun _ _ _ _ => rfl
@[simp] theorem State.modPort_chan : ∀ (s : State) (k : Lane) (u : PortS → PortS) (x : Chan), (s.modPort k u).chan x = s.chan x := fun _ _ _ _ => rfl
@[simp] theorem State.modPort_sequ : ∀ (s : State) (k : Lane) (u : PortS → PortS) (x : SeqN), (s.modPort k u).sequ x = s.sequ x := fun _ _ _ _ => rfl
@[simp] theorem State.modPort_chain : ∀ (s : State) (k : Lane) (u : PortS → PortS) (x : ChainN), (s.modPort k u).chain x = s.chain x := fun _ _ _ _ => rfl
@[simp] theorem State.modPort_die : ∀ (s : State) (k : Lane) (u : PortS → PortS) (x : DieSensor), (s.modPort k u).die x = s.die x := fun _ _ _ _ => rfl
@[simp] theorem State.modPort_eng : ∀ (s : State) (k : Lane) (u : PortS → PortS) (x : EngSensor), (s.modPort k u).eng x = s.eng x := fun _ _ _ _ => rfl
@[simp] theorem State.modPort_knd : ∀ (s : State) (k : Lane) (u : PortS → PortS) (x : Knd), (s.modPort k u).knd x = s.knd x := fun _ _ _ _ => rfl
@[simp] theorem State.modPort_fi : ∀ (s : State) (k : Lane) (u : PortS → PortS) (x : Fin 32), (s.modPort k u).fi x = s.fi x := fun _ _ _ _ => rfl

/-! ### `modLane` -/

@[simp] theorem State.modLane_f : ∀ (s : State) (k : Lane) (u : LaneS → LaneS), (s.modLane k u).f = s.f := fun _ _ _ => rfl
@[simp] theorem State.modLane_ap : ∀ (s : State) (k : Lane) (u : LaneS → LaneS), (s.modLane k u).ap = s.ap := fun _ _ _ => rfl
@[simp] theorem State.modLane_written : ∀ (s : State) (k : Lane) (u : LaneS → LaneS), (s.modLane k u).written = s.written := fun _ _ _ => rfl
@[simp] theorem State.modLane_halves : ∀ (s : State) (k : Lane) (u : LaneS → LaneS), (s.modLane k u).halves = s.halves := fun _ _ _ => rfl
@[simp] theorem State.modLane_groups : ∀ (s : State) (k : Lane) (u : LaneS → LaneS), (s.modLane k u).groups = s.groups := fun _ _ _ => rfl
@[simp] theorem State.modLane_ports : ∀ (s : State) (k : Lane) (u : LaneS → LaneS), (s.modLane k u).ports = s.ports := fun _ _ _ => rfl
@[simp] theorem State.modLane_dmt : ∀ (s : State) (k : Lane) (u : LaneS → LaneS), (s.modLane k u).dmt = s.dmt := fun _ _ _ => rfl
@[simp] theorem State.modLane_hlanes : ∀ (s : State) (k : Lane) (u : LaneS → LaneS), (s.modLane k u).hlanes = s.hlanes := fun _ _ _ => rfl
@[simp] theorem State.modLane_ctxs : ∀ (s : State) (k : Lane) (u : LaneS → LaneS), (s.modLane k u).ctxs = s.ctxs := fun _ _ _ => rfl
@[simp] theorem State.modLane_chans : ∀ (s : State) (k : Lane) (u : LaneS → LaneS), (s.modLane k u).chans = s.chans := fun _ _ _ => rfl
@[simp] theorem State.modLane_seqs : ∀ (s : State) (k : Lane) (u : LaneS → LaneS), (s.modLane k u).seqs = s.seqs := fun _ _ _ => rfl
@[simp] theorem State.modLane_chains : ∀ (s : State) (k : Lane) (u : LaneS → LaneS), (s.modLane k u).chains = s.chains := fun _ _ _ => rfl
@[simp] theorem State.modLane_dies : ∀ (s : State) (k : Lane) (u : LaneS → LaneS), (s.modLane k u).dies = s.dies := fun _ _ _ => rfl
@[simp] theorem State.modLane_engs : ∀ (s : State) (k : Lane) (u : LaneS → LaneS), (s.modLane k u).engs = s.engs := fun _ _ _ => rfl
@[simp] theorem State.modLane_knds : ∀ (s : State) (k : Lane) (u : LaneS → LaneS), (s.modLane k u).knds = s.knds := fun _ _ _ => rfl
@[simp] theorem State.modLane_faulty : ∀ (s : State) (k : Lane) (u : LaneS → LaneS), (s.modLane k u).faulty = s.faulty := fun _ _ _ => rfl
@[simp] theorem State.modLane_trackers : ∀ (s : State) (k : Lane) (u : LaneS → LaneS), (s.modLane k u).trackers = s.trackers := fun _ _ _ => rfl
@[simp] theorem State.modLane_fis : ∀ (s : State) (k : Lane) (u : LaneS → LaneS), (s.modLane k u).fis = s.fis := fun _ _ _ => rfl
@[simp] theorem State.modLane_sticky : ∀ (s : State) (k : Lane) (u : LaneS → LaneS), (s.modLane k u).sticky = s.sticky := fun _ _ _ => rfl
@[simp] theorem State.modLane_rows : ∀ (s : State) (k : Lane) (u : LaneS → LaneS), (s.modLane k u).rows = s.rows := fun _ _ _ => rfl
@[simp] theorem State.modLane_badRows : ∀ (s : State) (k : Lane) (u : LaneS → LaneS), (s.modLane k u).badRows = s.badRows := fun _ _ _ => rfl
@[simp] theorem State.modLane_testmode : ∀ (s : State) (k : Lane) (u : LaneS → LaneS), (s.modLane k u).testmode = s.testmode := fun _ _ _ => rfl
@[simp] theorem State.modLane_extest : ∀ (s : State) (k : Lane) (u : LaneS → LaneS), (s.modLane k u).extest = s.extest := fun _ _ _ => rfl
@[simp] theorem State.modLane_porst : ∀ (s : State) (k : Lane) (u : LaneS → LaneS), (s.modLane k u).porst = s.porst := fun _ _ _ => rfl
@[simp] theorem State.modLane_frame : ∀ (s : State) (k : Lane) (u : LaneS → LaneS), (s.modLane k u).frame = s.frame := fun _ _ _ => rfl
@[simp] theorem State.modLane_results : ∀ (s : State) (k : Lane) (u : LaneS → LaneS), (s.modLane k u).results = s.results := fun _ _ _ => rfl
@[simp] theorem State.modLane_resultAt : ∀ (s : State) (k : Lane) (u : LaneS → LaneS), (s.modLane k u).resultAt = s.resultAt := fun _ _ _ => rfl
@[simp] theorem State.modLane_senseAt : ∀ (s : State) (k : Lane) (u : LaneS → LaneS), (s.modLane k u).senseAt = s.senseAt := fun _ _ _ => rfl
@[simp] theorem State.modLane_capture : ∀ (s : State) (k : Lane) (u : LaneS → LaneS), (s.modLane k u).capture = s.capture := fun _ _ _ => rfl
@[simp] theorem State.modLane_bridge : ∀ (s : State) (k : Lane) (u : LaneS → LaneS), (s.modLane k u).bridge = s.bridge := fun _ _ _ => rfl
@[simp] theorem State.modLane_trims : ∀ (s : State) (k : Lane) (u : LaneS → LaneS), (s.modLane k u).trims = s.trims := fun _ _ _ => rfl
@[simp] theorem State.modLane_out : ∀ (s : State) (k : Lane) (u : LaneS → LaneS), (s.modLane k u).out = s.out := fun _ _ _ => rfl
@[simp] theorem State.modLane_free : ∀ (s : State) (k : Lane) (u : LaneS → LaneS), (s.modLane k u).free = s.free := fun _ _ _ => rfl
@[simp] theorem State.modLane_accepted : ∀ (s : State) (k : Lane) (u : LaneS → LaneS), (s.modLane k u).accepted = s.accepted := fun _ _ _ => rfl
@[simp] theorem State.modLane_pending : ∀ (s : State) (k : Lane) (u : LaneS → LaneS), (s.modLane k u).pending = s.pending := fun _ _ _ => rfl
@[simp] theorem State.modLane_get : ∀ (s : State) (k : Lane) (u : LaneS → LaneS) (f : Fld) (i : Nat), (s.modLane k u).get f i = s.get f i := fun _ _ _ _ _ => rfl
@[simp] theorem State.modLane_app : ∀ (s : State) (k : Lane) (u : LaneS → LaneS) (f : Fld) (i : Nat), (s.modLane k u).app f i = s.app f i := fun _ _ _ _ _ => rfl
@[simp] theorem State.modLane_isSet : ∀ (s : State) (k : Lane) (u : LaneS → LaneS) (f : Fld) (i : Nat), (s.modLane k u).isSet f i = s.isSet f i := fun _ _ _ _ _ => rfl
@[simp] theorem State.modLane_appSet : ∀ (s : State) (k : Lane) (u : LaneS → LaneS) (f : Fld) (i : Nat), (s.modLane k u).appSet f i = s.appSet f i := fun _ _ _ _ _ => rfl
@[simp] theorem State.modLane_half : ∀ (s : State) (k : Lane) (u : LaneS → LaneS) (x : Half), (s.modLane k u).half x = s.half x := fun _ _ _ _ => rfl
@[simp] theorem State.modLane_group : ∀ (s : State) (k : Lane) (u : LaneS → LaneS) (x : Group), (s.modLane k u).group x = s.group x := fun _ _ _ _ => rfl
@[simp] theorem State.modLane_port : ∀ (s : State) (k : Lane) (u : LaneS → LaneS) (x : Lane), (s.modLane k u).port x = s.port x := fun _ _ _ _ => rfl
@[simp] theorem State.modLane_hlane : ∀ (s : State) (k : Lane) (u : LaneS → LaneS) (x : HLane), (s.modLane k u).hlane x = s.hlane x := fun _ _ _ _ => rfl
@[simp] theorem State.modLane_ctx : ∀ (s : State) (k : Lane) (u : LaneS → LaneS) (x : Ctx), (s.modLane k u).ctx x = s.ctx x := fun _ _ _ _ => rfl
@[simp] theorem State.modLane_chan : ∀ (s : State) (k : Lane) (u : LaneS → LaneS) (x : Chan), (s.modLane k u).chan x = s.chan x := fun _ _ _ _ => rfl
@[simp] theorem State.modLane_sequ : ∀ (s : State) (k : Lane) (u : LaneS → LaneS) (x : SeqN), (s.modLane k u).sequ x = s.sequ x := fun _ _ _ _ => rfl
@[simp] theorem State.modLane_chain : ∀ (s : State) (k : Lane) (u : LaneS → LaneS) (x : ChainN), (s.modLane k u).chain x = s.chain x := fun _ _ _ _ => rfl
@[simp] theorem State.modLane_die : ∀ (s : State) (k : Lane) (u : LaneS → LaneS) (x : DieSensor), (s.modLane k u).die x = s.die x := fun _ _ _ _ => rfl
@[simp] theorem State.modLane_eng : ∀ (s : State) (k : Lane) (u : LaneS → LaneS) (x : EngSensor), (s.modLane k u).eng x = s.eng x := fun _ _ _ _ => rfl
@[simp] theorem State.modLane_knd : ∀ (s : State) (k : Lane) (u : LaneS → LaneS) (x : Knd), (s.modLane k u).knd x = s.knd x := fun _ _ _ _ => rfl
@[simp] theorem State.modLane_fi : ∀ (s : State) (k : Lane) (u : LaneS → LaneS) (x : Fin 32), (s.modLane k u).fi x = s.fi x := fun _ _ _ _ => rfl

/-! ### `modHlane` -/

@[simp] theorem State.modHlane_f : ∀ (s : State) (k : HLane) (u : HLaneS → HLaneS), (s.modHlane k u).f = s.f := fun _ _ _ => rfl
@[simp] theorem State.modHlane_ap : ∀ (s : State) (k : HLane) (u : HLaneS → HLaneS), (s.modHlane k u).ap = s.ap := fun _ _ _ => rfl
@[simp] theorem State.modHlane_written : ∀ (s : State) (k : HLane) (u : HLaneS → HLaneS), (s.modHlane k u).written = s.written := fun _ _ _ => rfl
@[simp] theorem State.modHlane_halves : ∀ (s : State) (k : HLane) (u : HLaneS → HLaneS), (s.modHlane k u).halves = s.halves := fun _ _ _ => rfl
@[simp] theorem State.modHlane_groups : ∀ (s : State) (k : HLane) (u : HLaneS → HLaneS), (s.modHlane k u).groups = s.groups := fun _ _ _ => rfl
@[simp] theorem State.modHlane_ports : ∀ (s : State) (k : HLane) (u : HLaneS → HLaneS), (s.modHlane k u).ports = s.ports := fun _ _ _ => rfl
@[simp] theorem State.modHlane_lanes : ∀ (s : State) (k : HLane) (u : HLaneS → HLaneS), (s.modHlane k u).lanes = s.lanes := fun _ _ _ => rfl
@[simp] theorem State.modHlane_dmt : ∀ (s : State) (k : HLane) (u : HLaneS → HLaneS), (s.modHlane k u).dmt = s.dmt := fun _ _ _ => rfl
@[simp] theorem State.modHlane_ctxs : ∀ (s : State) (k : HLane) (u : HLaneS → HLaneS), (s.modHlane k u).ctxs = s.ctxs := fun _ _ _ => rfl
@[simp] theorem State.modHlane_chans : ∀ (s : State) (k : HLane) (u : HLaneS → HLaneS), (s.modHlane k u).chans = s.chans := fun _ _ _ => rfl
@[simp] theorem State.modHlane_seqs : ∀ (s : State) (k : HLane) (u : HLaneS → HLaneS), (s.modHlane k u).seqs = s.seqs := fun _ _ _ => rfl
@[simp] theorem State.modHlane_chains : ∀ (s : State) (k : HLane) (u : HLaneS → HLaneS), (s.modHlane k u).chains = s.chains := fun _ _ _ => rfl
@[simp] theorem State.modHlane_dies : ∀ (s : State) (k : HLane) (u : HLaneS → HLaneS), (s.modHlane k u).dies = s.dies := fun _ _ _ => rfl
@[simp] theorem State.modHlane_engs : ∀ (s : State) (k : HLane) (u : HLaneS → HLaneS), (s.modHlane k u).engs = s.engs := fun _ _ _ => rfl
@[simp] theorem State.modHlane_knds : ∀ (s : State) (k : HLane) (u : HLaneS → HLaneS), (s.modHlane k u).knds = s.knds := fun _ _ _ => rfl
@[simp] theorem State.modHlane_faulty : ∀ (s : State) (k : HLane) (u : HLaneS → HLaneS), (s.modHlane k u).faulty = s.faulty := fun _ _ _ => rfl
@[simp] theorem State.modHlane_trackers : ∀ (s : State) (k : HLane) (u : HLaneS → HLaneS), (s.modHlane k u).trackers = s.trackers := fun _ _ _ => rfl
@[simp] theorem State.modHlane_fis : ∀ (s : State) (k : HLane) (u : HLaneS → HLaneS), (s.modHlane k u).fis = s.fis := fun _ _ _ => rfl
@[simp] theorem State.modHlane_sticky : ∀ (s : State) (k : HLane) (u : HLaneS → HLaneS), (s.modHlane k u).sticky = s.sticky := fun _ _ _ => rfl
@[simp] theorem State.modHlane_rows : ∀ (s : State) (k : HLane) (u : HLaneS → HLaneS), (s.modHlane k u).rows = s.rows := fun _ _ _ => rfl
@[simp] theorem State.modHlane_badRows : ∀ (s : State) (k : HLane) (u : HLaneS → HLaneS), (s.modHlane k u).badRows = s.badRows := fun _ _ _ => rfl
@[simp] theorem State.modHlane_testmode : ∀ (s : State) (k : HLane) (u : HLaneS → HLaneS), (s.modHlane k u).testmode = s.testmode := fun _ _ _ => rfl
@[simp] theorem State.modHlane_extest : ∀ (s : State) (k : HLane) (u : HLaneS → HLaneS), (s.modHlane k u).extest = s.extest := fun _ _ _ => rfl
@[simp] theorem State.modHlane_porst : ∀ (s : State) (k : HLane) (u : HLaneS → HLaneS), (s.modHlane k u).porst = s.porst := fun _ _ _ => rfl
@[simp] theorem State.modHlane_frame : ∀ (s : State) (k : HLane) (u : HLaneS → HLaneS), (s.modHlane k u).frame = s.frame := fun _ _ _ => rfl
@[simp] theorem State.modHlane_results : ∀ (s : State) (k : HLane) (u : HLaneS → HLaneS), (s.modHlane k u).results = s.results := fun _ _ _ => rfl
@[simp] theorem State.modHlane_resultAt : ∀ (s : State) (k : HLane) (u : HLaneS → HLaneS), (s.modHlane k u).resultAt = s.resultAt := fun _ _ _ => rfl
@[simp] theorem State.modHlane_senseAt : ∀ (s : State) (k : HLane) (u : HLaneS → HLaneS), (s.modHlane k u).senseAt = s.senseAt := fun _ _ _ => rfl
@[simp] theorem State.modHlane_capture : ∀ (s : State) (k : HLane) (u : HLaneS → HLaneS), (s.modHlane k u).capture = s.capture := fun _ _ _ => rfl
@[simp] theorem State.modHlane_bridge : ∀ (s : State) (k : HLane) (u : HLaneS → HLaneS), (s.modHlane k u).bridge = s.bridge := fun _ _ _ => rfl
@[simp] theorem State.modHlane_trims : ∀ (s : State) (k : HLane) (u : HLaneS → HLaneS), (s.modHlane k u).trims = s.trims := fun _ _ _ => rfl
@[simp] theorem State.modHlane_out : ∀ (s : State) (k : HLane) (u : HLaneS → HLaneS), (s.modHlane k u).out = s.out := fun _ _ _ => rfl
@[simp] theorem State.modHlane_free : ∀ (s : State) (k : HLane) (u : HLaneS → HLaneS), (s.modHlane k u).free = s.free := fun _ _ _ => rfl
@[simp] theorem State.modHlane_accepted : ∀ (s : State) (k : HLane) (u : HLaneS → HLaneS), (s.modHlane k u).accepted = s.accepted := fun _ _ _ => rfl
@[simp] theorem State.modHlane_pending : ∀ (s : State) (k : HLane) (u : HLaneS → HLaneS), (s.modHlane k u).pending = s.pending := fun _ _ _ => rfl
@[simp] theorem State.modHlane_get : ∀ (s : State) (k : HLane) (u : HLaneS → HLaneS) (f : Fld) (i : Nat), (s.modHlane k u).get f i = s.get f i := fun _ _ _ _ _ => rfl
@[simp] theorem State.modHlane_app : ∀ (s : State) (k : HLane) (u : HLaneS → HLaneS) (f : Fld) (i : Nat), (s.modHlane k u).app f i = s.app f i := fun _ _ _ _ _ => rfl
@[simp] theorem State.modHlane_isSet : ∀ (s : State) (k : HLane) (u : HLaneS → HLaneS) (f : Fld) (i : Nat), (s.modHlane k u).isSet f i = s.isSet f i := fun _ _ _ _ _ => rfl
@[simp] theorem State.modHlane_appSet : ∀ (s : State) (k : HLane) (u : HLaneS → HLaneS) (f : Fld) (i : Nat), (s.modHlane k u).appSet f i = s.appSet f i := fun _ _ _ _ _ => rfl
@[simp] theorem State.modHlane_half : ∀ (s : State) (k : HLane) (u : HLaneS → HLaneS) (x : Half), (s.modHlane k u).half x = s.half x := fun _ _ _ _ => rfl
@[simp] theorem State.modHlane_group : ∀ (s : State) (k : HLane) (u : HLaneS → HLaneS) (x : Group), (s.modHlane k u).group x = s.group x := fun _ _ _ _ => rfl
@[simp] theorem State.modHlane_port : ∀ (s : State) (k : HLane) (u : HLaneS → HLaneS) (x : Lane), (s.modHlane k u).port x = s.port x := fun _ _ _ _ => rfl
@[simp] theorem State.modHlane_lane : ∀ (s : State) (k : HLane) (u : HLaneS → HLaneS) (x : Lane), (s.modHlane k u).lane x = s.lane x := fun _ _ _ _ => rfl
@[simp] theorem State.modHlane_ctx : ∀ (s : State) (k : HLane) (u : HLaneS → HLaneS) (x : Ctx), (s.modHlane k u).ctx x = s.ctx x := fun _ _ _ _ => rfl
@[simp] theorem State.modHlane_chan : ∀ (s : State) (k : HLane) (u : HLaneS → HLaneS) (x : Chan), (s.modHlane k u).chan x = s.chan x := fun _ _ _ _ => rfl
@[simp] theorem State.modHlane_sequ : ∀ (s : State) (k : HLane) (u : HLaneS → HLaneS) (x : SeqN), (s.modHlane k u).sequ x = s.sequ x := fun _ _ _ _ => rfl
@[simp] theorem State.modHlane_chain : ∀ (s : State) (k : HLane) (u : HLaneS → HLaneS) (x : ChainN), (s.modHlane k u).chain x = s.chain x := fun _ _ _ _ => rfl
@[simp] theorem State.modHlane_die : ∀ (s : State) (k : HLane) (u : HLaneS → HLaneS) (x : DieSensor), (s.modHlane k u).die x = s.die x := fun _ _ _ _ => rfl
@[simp] theorem State.modHlane_eng : ∀ (s : State) (k : HLane) (u : HLaneS → HLaneS) (x : EngSensor), (s.modHlane k u).eng x = s.eng x := fun _ _ _ _ => rfl
@[simp] theorem State.modHlane_knd : ∀ (s : State) (k : HLane) (u : HLaneS → HLaneS) (x : Knd), (s.modHlane k u).knd x = s.knd x := fun _ _ _ _ => rfl
@[simp] theorem State.modHlane_fi : ∀ (s : State) (k : HLane) (u : HLaneS → HLaneS) (x : Fin 32), (s.modHlane k u).fi x = s.fi x := fun _ _ _ _ => rfl

/-! ### `modCtx` -/

@[simp] theorem State.modCtx_f : ∀ (s : State) (k : Ctx) (u : CtxS → CtxS), (s.modCtx k u).f = s.f := fun _ _ _ => rfl
@[simp] theorem State.modCtx_ap : ∀ (s : State) (k : Ctx) (u : CtxS → CtxS), (s.modCtx k u).ap = s.ap := fun _ _ _ => rfl
@[simp] theorem State.modCtx_written : ∀ (s : State) (k : Ctx) (u : CtxS → CtxS), (s.modCtx k u).written = s.written := fun _ _ _ => rfl
@[simp] theorem State.modCtx_halves : ∀ (s : State) (k : Ctx) (u : CtxS → CtxS), (s.modCtx k u).halves = s.halves := fun _ _ _ => rfl
@[simp] theorem State.modCtx_groups : ∀ (s : State) (k : Ctx) (u : CtxS → CtxS), (s.modCtx k u).groups = s.groups := fun _ _ _ => rfl
@[simp] theorem State.modCtx_ports : ∀ (s : State) (k : Ctx) (u : CtxS → CtxS), (s.modCtx k u).ports = s.ports := fun _ _ _ => rfl
@[simp] theorem State.modCtx_lanes : ∀ (s : State) (k : Ctx) (u : CtxS → CtxS), (s.modCtx k u).lanes = s.lanes := fun _ _ _ => rfl
@[simp] theorem State.modCtx_dmt : ∀ (s : State) (k : Ctx) (u : CtxS → CtxS), (s.modCtx k u).dmt = s.dmt := fun _ _ _ => rfl
@[simp] theorem State.modCtx_hlanes : ∀ (s : State) (k : Ctx) (u : CtxS → CtxS), (s.modCtx k u).hlanes = s.hlanes := fun _ _ _ => rfl
@[simp] theorem State.modCtx_chans : ∀ (s : State) (k : Ctx) (u : CtxS → CtxS), (s.modCtx k u).chans = s.chans := fun _ _ _ => rfl
@[simp] theorem State.modCtx_seqs : ∀ (s : State) (k : Ctx) (u : CtxS → CtxS), (s.modCtx k u).seqs = s.seqs := fun _ _ _ => rfl
@[simp] theorem State.modCtx_chains : ∀ (s : State) (k : Ctx) (u : CtxS → CtxS), (s.modCtx k u).chains = s.chains := fun _ _ _ => rfl
@[simp] theorem State.modCtx_dies : ∀ (s : State) (k : Ctx) (u : CtxS → CtxS), (s.modCtx k u).dies = s.dies := fun _ _ _ => rfl
@[simp] theorem State.modCtx_engs : ∀ (s : State) (k : Ctx) (u : CtxS → CtxS), (s.modCtx k u).engs = s.engs := fun _ _ _ => rfl
@[simp] theorem State.modCtx_knds : ∀ (s : State) (k : Ctx) (u : CtxS → CtxS), (s.modCtx k u).knds = s.knds := fun _ _ _ => rfl
@[simp] theorem State.modCtx_faulty : ∀ (s : State) (k : Ctx) (u : CtxS → CtxS), (s.modCtx k u).faulty = s.faulty := fun _ _ _ => rfl
@[simp] theorem State.modCtx_trackers : ∀ (s : State) (k : Ctx) (u : CtxS → CtxS), (s.modCtx k u).trackers = s.trackers := fun _ _ _ => rfl
@[simp] theorem State.modCtx_fis : ∀ (s : State) (k : Ctx) (u : CtxS → CtxS), (s.modCtx k u).fis = s.fis := fun _ _ _ => rfl
@[simp] theorem State.modCtx_sticky : ∀ (s : State) (k : Ctx) (u : CtxS → CtxS), (s.modCtx k u).sticky = s.sticky := fun _ _ _ => rfl
@[simp] theorem State.modCtx_rows : ∀ (s : State) (k : Ctx) (u : CtxS → CtxS), (s.modCtx k u).rows = s.rows := fun _ _ _ => rfl
@[simp] theorem State.modCtx_badRows : ∀ (s : State) (k : Ctx) (u : CtxS → CtxS), (s.modCtx k u).badRows = s.badRows := fun _ _ _ => rfl
@[simp] theorem State.modCtx_testmode : ∀ (s : State) (k : Ctx) (u : CtxS → CtxS), (s.modCtx k u).testmode = s.testmode := fun _ _ _ => rfl
@[simp] theorem State.modCtx_extest : ∀ (s : State) (k : Ctx) (u : CtxS → CtxS), (s.modCtx k u).extest = s.extest := fun _ _ _ => rfl
@[simp] theorem State.modCtx_porst : ∀ (s : State) (k : Ctx) (u : CtxS → CtxS), (s.modCtx k u).porst = s.porst := fun _ _ _ => rfl
@[simp] theorem State.modCtx_frame : ∀ (s : State) (k : Ctx) (u : CtxS → CtxS), (s.modCtx k u).frame = s.frame := fun _ _ _ => rfl
@[simp] theorem State.modCtx_results : ∀ (s : State) (k : Ctx) (u : CtxS → CtxS), (s.modCtx k u).results = s.results := fun _ _ _ => rfl
@[simp] theorem State.modCtx_resultAt : ∀ (s : State) (k : Ctx) (u : CtxS → CtxS), (s.modCtx k u).resultAt = s.resultAt := fun _ _ _ => rfl
@[simp] theorem State.modCtx_senseAt : ∀ (s : State) (k : Ctx) (u : CtxS → CtxS), (s.modCtx k u).senseAt = s.senseAt := fun _ _ _ => rfl
@[simp] theorem State.modCtx_capture : ∀ (s : State) (k : Ctx) (u : CtxS → CtxS), (s.modCtx k u).capture = s.capture := fun _ _ _ => rfl
@[simp] theorem State.modCtx_bridge : ∀ (s : State) (k : Ctx) (u : CtxS → CtxS), (s.modCtx k u).bridge = s.bridge := fun _ _ _ => rfl
@[simp] theorem State.modCtx_trims : ∀ (s : State) (k : Ctx) (u : CtxS → CtxS), (s.modCtx k u).trims = s.trims := fun _ _ _ => rfl
@[simp] theorem State.modCtx_out : ∀ (s : State) (k : Ctx) (u : CtxS → CtxS), (s.modCtx k u).out = s.out := fun _ _ _ => rfl
@[simp] theorem State.modCtx_free : ∀ (s : State) (k : Ctx) (u : CtxS → CtxS), (s.modCtx k u).free = s.free := fun _ _ _ => rfl
@[simp] theorem State.modCtx_accepted : ∀ (s : State) (k : Ctx) (u : CtxS → CtxS), (s.modCtx k u).accepted = s.accepted := fun _ _ _ => rfl
@[simp] theorem State.modCtx_pending : ∀ (s : State) (k : Ctx) (u : CtxS → CtxS), (s.modCtx k u).pending = s.pending := fun _ _ _ => rfl
@[simp] theorem State.modCtx_get : ∀ (s : State) (k : Ctx) (u : CtxS → CtxS) (f : Fld) (i : Nat), (s.modCtx k u).get f i = s.get f i := fun _ _ _ _ _ => rfl
@[simp] theorem State.modCtx_app : ∀ (s : State) (k : Ctx) (u : CtxS → CtxS) (f : Fld) (i : Nat), (s.modCtx k u).app f i = s.app f i := fun _ _ _ _ _ => rfl
@[simp] theorem State.modCtx_isSet : ∀ (s : State) (k : Ctx) (u : CtxS → CtxS) (f : Fld) (i : Nat), (s.modCtx k u).isSet f i = s.isSet f i := fun _ _ _ _ _ => rfl
@[simp] theorem State.modCtx_appSet : ∀ (s : State) (k : Ctx) (u : CtxS → CtxS) (f : Fld) (i : Nat), (s.modCtx k u).appSet f i = s.appSet f i := fun _ _ _ _ _ => rfl
@[simp] theorem State.modCtx_half : ∀ (s : State) (k : Ctx) (u : CtxS → CtxS) (x : Half), (s.modCtx k u).half x = s.half x := fun _ _ _ _ => rfl
@[simp] theorem State.modCtx_group : ∀ (s : State) (k : Ctx) (u : CtxS → CtxS) (x : Group), (s.modCtx k u).group x = s.group x := fun _ _ _ _ => rfl
@[simp] theorem State.modCtx_port : ∀ (s : State) (k : Ctx) (u : CtxS → CtxS) (x : Lane), (s.modCtx k u).port x = s.port x := fun _ _ _ _ => rfl
@[simp] theorem State.modCtx_lane : ∀ (s : State) (k : Ctx) (u : CtxS → CtxS) (x : Lane), (s.modCtx k u).lane x = s.lane x := fun _ _ _ _ => rfl
@[simp] theorem State.modCtx_hlane : ∀ (s : State) (k : Ctx) (u : CtxS → CtxS) (x : HLane), (s.modCtx k u).hlane x = s.hlane x := fun _ _ _ _ => rfl
@[simp] theorem State.modCtx_chan : ∀ (s : State) (k : Ctx) (u : CtxS → CtxS) (x : Chan), (s.modCtx k u).chan x = s.chan x := fun _ _ _ _ => rfl
@[simp] theorem State.modCtx_sequ : ∀ (s : State) (k : Ctx) (u : CtxS → CtxS) (x : SeqN), (s.modCtx k u).sequ x = s.sequ x := fun _ _ _ _ => rfl
@[simp] theorem State.modCtx_chain : ∀ (s : State) (k : Ctx) (u : CtxS → CtxS) (x : ChainN), (s.modCtx k u).chain x = s.chain x := fun _ _ _ _ => rfl
@[simp] theorem State.modCtx_die : ∀ (s : State) (k : Ctx) (u : CtxS → CtxS) (x : DieSensor), (s.modCtx k u).die x = s.die x := fun _ _ _ _ => rfl
@[simp] theorem State.modCtx_eng : ∀ (s : State) (k : Ctx) (u : CtxS → CtxS) (x : EngSensor), (s.modCtx k u).eng x = s.eng x := fun _ _ _ _ => rfl
@[simp] theorem State.modCtx_knd : ∀ (s : State) (k : Ctx) (u : CtxS → CtxS) (x : Knd), (s.modCtx k u).knd x = s.knd x := fun _ _ _ _ => rfl
@[simp] theorem State.modCtx_fi : ∀ (s : State) (k : Ctx) (u : CtxS → CtxS) (x : Fin 32), (s.modCtx k u).fi x = s.fi x := fun _ _ _ _ => rfl

/-! ### `modChan` -/

@[simp] theorem State.modChan_f : ∀ (s : State) (k : Chan) (u : ChanS → ChanS), (s.modChan k u).f = s.f := fun _ _ _ => rfl
@[simp] theorem State.modChan_ap : ∀ (s : State) (k : Chan) (u : ChanS → ChanS), (s.modChan k u).ap = s.ap := fun _ _ _ => rfl
@[simp] theorem State.modChan_written : ∀ (s : State) (k : Chan) (u : ChanS → ChanS), (s.modChan k u).written = s.written := fun _ _ _ => rfl
@[simp] theorem State.modChan_halves : ∀ (s : State) (k : Chan) (u : ChanS → ChanS), (s.modChan k u).halves = s.halves := fun _ _ _ => rfl
@[simp] theorem State.modChan_groups : ∀ (s : State) (k : Chan) (u : ChanS → ChanS), (s.modChan k u).groups = s.groups := fun _ _ _ => rfl
@[simp] theorem State.modChan_ports : ∀ (s : State) (k : Chan) (u : ChanS → ChanS), (s.modChan k u).ports = s.ports := fun _ _ _ => rfl
@[simp] theorem State.modChan_lanes : ∀ (s : State) (k : Chan) (u : ChanS → ChanS), (s.modChan k u).lanes = s.lanes := fun _ _ _ => rfl
@[simp] theorem State.modChan_dmt : ∀ (s : State) (k : Chan) (u : ChanS → ChanS), (s.modChan k u).dmt = s.dmt := fun _ _ _ => rfl
@[simp] theorem State.modChan_hlanes : ∀ (s : State) (k : Chan) (u : ChanS → ChanS), (s.modChan k u).hlanes = s.hlanes := fun _ _ _ => rfl
@[simp] theorem State.modChan_ctxs : ∀ (s : State) (k : Chan) (u : ChanS → ChanS), (s.modChan k u).ctxs = s.ctxs := fun _ _ _ => rfl
@[simp] theorem State.modChan_seqs : ∀ (s : State) (k : Chan) (u : ChanS → ChanS), (s.modChan k u).seqs = s.seqs := fun _ _ _ => rfl
@[simp] theorem State.modChan_chains : ∀ (s : State) (k : Chan) (u : ChanS → ChanS), (s.modChan k u).chains = s.chains := fun _ _ _ => rfl
@[simp] theorem State.modChan_dies : ∀ (s : State) (k : Chan) (u : ChanS → ChanS), (s.modChan k u).dies = s.dies := fun _ _ _ => rfl
@[simp] theorem State.modChan_engs : ∀ (s : State) (k : Chan) (u : ChanS → ChanS), (s.modChan k u).engs = s.engs := fun _ _ _ => rfl
@[simp] theorem State.modChan_knds : ∀ (s : State) (k : Chan) (u : ChanS → ChanS), (s.modChan k u).knds = s.knds := fun _ _ _ => rfl
@[simp] theorem State.modChan_faulty : ∀ (s : State) (k : Chan) (u : ChanS → ChanS), (s.modChan k u).faulty = s.faulty := fun _ _ _ => rfl
@[simp] theorem State.modChan_trackers : ∀ (s : State) (k : Chan) (u : ChanS → ChanS), (s.modChan k u).trackers = s.trackers := fun _ _ _ => rfl
@[simp] theorem State.modChan_fis : ∀ (s : State) (k : Chan) (u : ChanS → ChanS), (s.modChan k u).fis = s.fis := fun _ _ _ => rfl
@[simp] theorem State.modChan_sticky : ∀ (s : State) (k : Chan) (u : ChanS → ChanS), (s.modChan k u).sticky = s.sticky := fun _ _ _ => rfl
@[simp] theorem State.modChan_rows : ∀ (s : State) (k : Chan) (u : ChanS → ChanS), (s.modChan k u).rows = s.rows := fun _ _ _ => rfl
@[simp] theorem State.modChan_badRows : ∀ (s : State) (k : Chan) (u : ChanS → ChanS), (s.modChan k u).badRows = s.badRows := fun _ _ _ => rfl
@[simp] theorem State.modChan_testmode : ∀ (s : State) (k : Chan) (u : ChanS → ChanS), (s.modChan k u).testmode = s.testmode := fun _ _ _ => rfl
@[simp] theorem State.modChan_extest : ∀ (s : State) (k : Chan) (u : ChanS → ChanS), (s.modChan k u).extest = s.extest := fun _ _ _ => rfl
@[simp] theorem State.modChan_porst : ∀ (s : State) (k : Chan) (u : ChanS → ChanS), (s.modChan k u).porst = s.porst := fun _ _ _ => rfl
@[simp] theorem State.modChan_frame : ∀ (s : State) (k : Chan) (u : ChanS → ChanS), (s.modChan k u).frame = s.frame := fun _ _ _ => rfl
@[simp] theorem State.modChan_results : ∀ (s : State) (k : Chan) (u : ChanS → ChanS), (s.modChan k u).results = s.results := fun _ _ _ => rfl
@[simp] theorem State.modChan_resultAt : ∀ (s : State) (k : Chan) (u : ChanS → ChanS), (s.modChan k u).resultAt = s.resultAt := fun _ _ _ => rfl
@[simp] theorem State.modChan_senseAt : ∀ (s : State) (k : Chan) (u : ChanS → ChanS), (s.modChan k u).senseAt = s.senseAt := fun _ _ _ => rfl
@[simp] theorem State.modChan_capture : ∀ (s : State) (k : Chan) (u : ChanS → ChanS), (s.modChan k u).capture = s.capture := fun _ _ _ => rfl
@[simp] theorem State.modChan_bridge : ∀ (s : State) (k : Chan) (u : ChanS → ChanS), (s.modChan k u).bridge = s.bridge := fun _ _ _ => rfl
@[simp] theorem State.modChan_trims : ∀ (s : State) (k : Chan) (u : ChanS → ChanS), (s.modChan k u).trims = s.trims := fun _ _ _ => rfl
@[simp] theorem State.modChan_out : ∀ (s : State) (k : Chan) (u : ChanS → ChanS), (s.modChan k u).out = s.out := fun _ _ _ => rfl
@[simp] theorem State.modChan_free : ∀ (s : State) (k : Chan) (u : ChanS → ChanS), (s.modChan k u).free = s.free := fun _ _ _ => rfl
@[simp] theorem State.modChan_accepted : ∀ (s : State) (k : Chan) (u : ChanS → ChanS), (s.modChan k u).accepted = s.accepted := fun _ _ _ => rfl
@[simp] theorem State.modChan_pending : ∀ (s : State) (k : Chan) (u : ChanS → ChanS), (s.modChan k u).pending = s.pending := fun _ _ _ => rfl
@[simp] theorem State.modChan_get : ∀ (s : State) (k : Chan) (u : ChanS → ChanS) (f : Fld) (i : Nat), (s.modChan k u).get f i = s.get f i := fun _ _ _ _ _ => rfl
@[simp] theorem State.modChan_app : ∀ (s : State) (k : Chan) (u : ChanS → ChanS) (f : Fld) (i : Nat), (s.modChan k u).app f i = s.app f i := fun _ _ _ _ _ => rfl
@[simp] theorem State.modChan_isSet : ∀ (s : State) (k : Chan) (u : ChanS → ChanS) (f : Fld) (i : Nat), (s.modChan k u).isSet f i = s.isSet f i := fun _ _ _ _ _ => rfl
@[simp] theorem State.modChan_appSet : ∀ (s : State) (k : Chan) (u : ChanS → ChanS) (f : Fld) (i : Nat), (s.modChan k u).appSet f i = s.appSet f i := fun _ _ _ _ _ => rfl
@[simp] theorem State.modChan_half : ∀ (s : State) (k : Chan) (u : ChanS → ChanS) (x : Half), (s.modChan k u).half x = s.half x := fun _ _ _ _ => rfl
@[simp] theorem State.modChan_group : ∀ (s : State) (k : Chan) (u : ChanS → ChanS) (x : Group), (s.modChan k u).group x = s.group x := fun _ _ _ _ => rfl
@[simp] theorem State.modChan_port : ∀ (s : State) (k : Chan) (u : ChanS → ChanS) (x : Lane), (s.modChan k u).port x = s.port x := fun _ _ _ _ => rfl
@[simp] theorem State.modChan_lane : ∀ (s : State) (k : Chan) (u : ChanS → ChanS) (x : Lane), (s.modChan k u).lane x = s.lane x := fun _ _ _ _ => rfl
@[simp] theorem State.modChan_hlane : ∀ (s : State) (k : Chan) (u : ChanS → ChanS) (x : HLane), (s.modChan k u).hlane x = s.hlane x := fun _ _ _ _ => rfl
@[simp] theorem State.modChan_ctx : ∀ (s : State) (k : Chan) (u : ChanS → ChanS) (x : Ctx), (s.modChan k u).ctx x = s.ctx x := fun _ _ _ _ => rfl
@[simp] theorem State.modChan_sequ : ∀ (s : State) (k : Chan) (u : ChanS → ChanS) (x : SeqN), (s.modChan k u).sequ x = s.sequ x := fun _ _ _ _ => rfl
@[simp] theorem State.modChan_chain : ∀ (s : State) (k : Chan) (u : ChanS → ChanS) (x : ChainN), (s.modChan k u).chain x = s.chain x := fun _ _ _ _ => rfl
@[simp] theorem State.modChan_die : ∀ (s : State) (k : Chan) (u : ChanS → ChanS) (x : DieSensor), (s.modChan k u).die x = s.die x := fun _ _ _ _ => rfl
@[simp] theorem State.modChan_eng : ∀ (s : State) (k : Chan) (u : ChanS → ChanS) (x : EngSensor), (s.modChan k u).eng x = s.eng x := fun _ _ _ _ => rfl
@[simp] theorem State.modChan_knd : ∀ (s : State) (k : Chan) (u : ChanS → ChanS) (x : Knd), (s.modChan k u).knd x = s.knd x := fun _ _ _ _ => rfl
@[simp] theorem State.modChan_fi : ∀ (s : State) (k : Chan) (u : ChanS → ChanS) (x : Fin 32), (s.modChan k u).fi x = s.fi x := fun _ _ _ _ => rfl

/-! ### `modSeq` -/

@[simp] theorem State.modSeq_f : ∀ (s : State) (k : SeqN) (u : SeqS → SeqS), (s.modSeq k u).f = s.f := fun _ _ _ => rfl
@[simp] theorem State.modSeq_ap : ∀ (s : State) (k : SeqN) (u : SeqS → SeqS), (s.modSeq k u).ap = s.ap := fun _ _ _ => rfl
@[simp] theorem State.modSeq_written : ∀ (s : State) (k : SeqN) (u : SeqS → SeqS), (s.modSeq k u).written = s.written := fun _ _ _ => rfl
@[simp] theorem State.modSeq_halves : ∀ (s : State) (k : SeqN) (u : SeqS → SeqS), (s.modSeq k u).halves = s.halves := fun _ _ _ => rfl
@[simp] theorem State.modSeq_groups : ∀ (s : State) (k : SeqN) (u : SeqS → SeqS), (s.modSeq k u).groups = s.groups := fun _ _ _ => rfl
@[simp] theorem State.modSeq_ports : ∀ (s : State) (k : SeqN) (u : SeqS → SeqS), (s.modSeq k u).ports = s.ports := fun _ _ _ => rfl
@[simp] theorem State.modSeq_lanes : ∀ (s : State) (k : SeqN) (u : SeqS → SeqS), (s.modSeq k u).lanes = s.lanes := fun _ _ _ => rfl
@[simp] theorem State.modSeq_dmt : ∀ (s : State) (k : SeqN) (u : SeqS → SeqS), (s.modSeq k u).dmt = s.dmt := fun _ _ _ => rfl
@[simp] theorem State.modSeq_hlanes : ∀ (s : State) (k : SeqN) (u : SeqS → SeqS), (s.modSeq k u).hlanes = s.hlanes := fun _ _ _ => rfl
@[simp] theorem State.modSeq_ctxs : ∀ (s : State) (k : SeqN) (u : SeqS → SeqS), (s.modSeq k u).ctxs = s.ctxs := fun _ _ _ => rfl
@[simp] theorem State.modSeq_chans : ∀ (s : State) (k : SeqN) (u : SeqS → SeqS), (s.modSeq k u).chans = s.chans := fun _ _ _ => rfl
@[simp] theorem State.modSeq_chains : ∀ (s : State) (k : SeqN) (u : SeqS → SeqS), (s.modSeq k u).chains = s.chains := fun _ _ _ => rfl
@[simp] theorem State.modSeq_dies : ∀ (s : State) (k : SeqN) (u : SeqS → SeqS), (s.modSeq k u).dies = s.dies := fun _ _ _ => rfl
@[simp] theorem State.modSeq_engs : ∀ (s : State) (k : SeqN) (u : SeqS → SeqS), (s.modSeq k u).engs = s.engs := fun _ _ _ => rfl
@[simp] theorem State.modSeq_knds : ∀ (s : State) (k : SeqN) (u : SeqS → SeqS), (s.modSeq k u).knds = s.knds := fun _ _ _ => rfl
@[simp] theorem State.modSeq_faulty : ∀ (s : State) (k : SeqN) (u : SeqS → SeqS), (s.modSeq k u).faulty = s.faulty := fun _ _ _ => rfl
@[simp] theorem State.modSeq_trackers : ∀ (s : State) (k : SeqN) (u : SeqS → SeqS), (s.modSeq k u).trackers = s.trackers := fun _ _ _ => rfl
@[simp] theorem State.modSeq_fis : ∀ (s : State) (k : SeqN) (u : SeqS → SeqS), (s.modSeq k u).fis = s.fis := fun _ _ _ => rfl
@[simp] theorem State.modSeq_sticky : ∀ (s : State) (k : SeqN) (u : SeqS → SeqS), (s.modSeq k u).sticky = s.sticky := fun _ _ _ => rfl
@[simp] theorem State.modSeq_rows : ∀ (s : State) (k : SeqN) (u : SeqS → SeqS), (s.modSeq k u).rows = s.rows := fun _ _ _ => rfl
@[simp] theorem State.modSeq_badRows : ∀ (s : State) (k : SeqN) (u : SeqS → SeqS), (s.modSeq k u).badRows = s.badRows := fun _ _ _ => rfl
@[simp] theorem State.modSeq_testmode : ∀ (s : State) (k : SeqN) (u : SeqS → SeqS), (s.modSeq k u).testmode = s.testmode := fun _ _ _ => rfl
@[simp] theorem State.modSeq_extest : ∀ (s : State) (k : SeqN) (u : SeqS → SeqS), (s.modSeq k u).extest = s.extest := fun _ _ _ => rfl
@[simp] theorem State.modSeq_porst : ∀ (s : State) (k : SeqN) (u : SeqS → SeqS), (s.modSeq k u).porst = s.porst := fun _ _ _ => rfl
@[simp] theorem State.modSeq_frame : ∀ (s : State) (k : SeqN) (u : SeqS → SeqS), (s.modSeq k u).frame = s.frame := fun _ _ _ => rfl
@[simp] theorem State.modSeq_results : ∀ (s : State) (k : SeqN) (u : SeqS → SeqS), (s.modSeq k u).results = s.results := fun _ _ _ => rfl
@[simp] theorem State.modSeq_resultAt : ∀ (s : State) (k : SeqN) (u : SeqS → SeqS), (s.modSeq k u).resultAt = s.resultAt := fun _ _ _ => rfl
@[simp] theorem State.modSeq_senseAt : ∀ (s : State) (k : SeqN) (u : SeqS → SeqS), (s.modSeq k u).senseAt = s.senseAt := fun _ _ _ => rfl
@[simp] theorem State.modSeq_capture : ∀ (s : State) (k : SeqN) (u : SeqS → SeqS), (s.modSeq k u).capture = s.capture := fun _ _ _ => rfl
@[simp] theorem State.modSeq_bridge : ∀ (s : State) (k : SeqN) (u : SeqS → SeqS), (s.modSeq k u).bridge = s.bridge := fun _ _ _ => rfl
@[simp] theorem State.modSeq_trims : ∀ (s : State) (k : SeqN) (u : SeqS → SeqS), (s.modSeq k u).trims = s.trims := fun _ _ _ => rfl
@[simp] theorem State.modSeq_out : ∀ (s : State) (k : SeqN) (u : SeqS → SeqS), (s.modSeq k u).out = s.out := fun _ _ _ => rfl
@[simp] theorem State.modSeq_free : ∀ (s : State) (k : SeqN) (u : SeqS → SeqS), (s.modSeq k u).free = s.free := fun _ _ _ => rfl
@[simp] theorem State.modSeq_accepted : ∀ (s : State) (k : SeqN) (u : SeqS → SeqS), (s.modSeq k u).accepted = s.accepted := fun _ _ _ => rfl
@[simp] theorem State.modSeq_pending : ∀ (s : State) (k : SeqN) (u : SeqS → SeqS), (s.modSeq k u).pending = s.pending := fun _ _ _ => rfl
@[simp] theorem State.modSeq_get : ∀ (s : State) (k : SeqN) (u : SeqS → SeqS) (f : Fld) (i : Nat), (s.modSeq k u).get f i = s.get f i := fun _ _ _ _ _ => rfl
@[simp] theorem State.modSeq_app : ∀ (s : State) (k : SeqN) (u : SeqS → SeqS) (f : Fld) (i : Nat), (s.modSeq k u).app f i = s.app f i := fun _ _ _ _ _ => rfl
@[simp] theorem State.modSeq_isSet : ∀ (s : State) (k : SeqN) (u : SeqS → SeqS) (f : Fld) (i : Nat), (s.modSeq k u).isSet f i = s.isSet f i := fun _ _ _ _ _ => rfl
@[simp] theorem State.modSeq_appSet : ∀ (s : State) (k : SeqN) (u : SeqS → SeqS) (f : Fld) (i : Nat), (s.modSeq k u).appSet f i = s.appSet f i := fun _ _ _ _ _ => rfl
@[simp] theorem State.modSeq_half : ∀ (s : State) (k : SeqN) (u : SeqS → SeqS) (x : Half), (s.modSeq k u).half x = s.half x := fun _ _ _ _ => rfl
@[simp] theorem State.modSeq_group : ∀ (s : State) (k : SeqN) (u : SeqS → SeqS) (x : Group), (s.modSeq k u).group x = s.group x := fun _ _ _ _ => rfl
@[simp] theorem State.modSeq_port : ∀ (s : State) (k : SeqN) (u : SeqS → SeqS) (x : Lane), (s.modSeq k u).port x = s.port x := fun _ _ _ _ => rfl
@[simp] theorem State.modSeq_lane : ∀ (s : State) (k : SeqN) (u : SeqS → SeqS) (x : Lane), (s.modSeq k u).lane x = s.lane x := fun _ _ _ _ => rfl
@[simp] theorem State.modSeq_hlane : ∀ (s : State) (k : SeqN) (u : SeqS → SeqS) (x : HLane), (s.modSeq k u).hlane x = s.hlane x := fun _ _ _ _ => rfl
@[simp] theorem State.modSeq_ctx : ∀ (s : State) (k : SeqN) (u : SeqS → SeqS) (x : Ctx), (s.modSeq k u).ctx x = s.ctx x := fun _ _ _ _ => rfl
@[simp] theorem State.modSeq_chan : ∀ (s : State) (k : SeqN) (u : SeqS → SeqS) (x : Chan), (s.modSeq k u).chan x = s.chan x := fun _ _ _ _ => rfl
@[simp] theorem State.modSeq_chain : ∀ (s : State) (k : SeqN) (u : SeqS → SeqS) (x : ChainN), (s.modSeq k u).chain x = s.chain x := fun _ _ _ _ => rfl
@[simp] theorem State.modSeq_die : ∀ (s : State) (k : SeqN) (u : SeqS → SeqS) (x : DieSensor), (s.modSeq k u).die x = s.die x := fun _ _ _ _ => rfl
@[simp] theorem State.modSeq_eng : ∀ (s : State) (k : SeqN) (u : SeqS → SeqS) (x : EngSensor), (s.modSeq k u).eng x = s.eng x := fun _ _ _ _ => rfl
@[simp] theorem State.modSeq_knd : ∀ (s : State) (k : SeqN) (u : SeqS → SeqS) (x : Knd), (s.modSeq k u).knd x = s.knd x := fun _ _ _ _ => rfl
@[simp] theorem State.modSeq_fi : ∀ (s : State) (k : SeqN) (u : SeqS → SeqS) (x : Fin 32), (s.modSeq k u).fi x = s.fi x := fun _ _ _ _ => rfl

/-! ### `modChain` -/

@[simp] theorem State.modChain_f : ∀ (s : State) (k : ChainN) (u : ChainS → ChainS), (s.modChain k u).f = s.f := fun _ _ _ => rfl
@[simp] theorem State.modChain_ap : ∀ (s : State) (k : ChainN) (u : ChainS → ChainS), (s.modChain k u).ap = s.ap := fun _ _ _ => rfl
@[simp] theorem State.modChain_written : ∀ (s : State) (k : ChainN) (u : ChainS → ChainS), (s.modChain k u).written = s.written := fun _ _ _ => rfl
@[simp] theorem State.modChain_halves : ∀ (s : State) (k : ChainN) (u : ChainS → ChainS), (s.modChain k u).halves = s.halves := fun _ _ _ => rfl
@[simp] theorem State.modChain_groups : ∀ (s : State) (k : ChainN) (u : ChainS → ChainS), (s.modChain k u).groups = s.groups := fun _ _ _ => rfl
@[simp] theorem State.modChain_ports : ∀ (s : State) (k : ChainN) (u : ChainS → ChainS), (s.modChain k u).ports = s.ports := fun _ _ _ => rfl
@[simp] theorem State.modChain_lanes : ∀ (s : State) (k : ChainN) (u : ChainS → ChainS), (s.modChain k u).lanes = s.lanes := fun _ _ _ => rfl
@[simp] theorem State.modChain_dmt : ∀ (s : State) (k : ChainN) (u : ChainS → ChainS), (s.modChain k u).dmt = s.dmt := fun _ _ _ => rfl
@[simp] theorem State.modChain_hlanes : ∀ (s : State) (k : ChainN) (u : ChainS → ChainS), (s.modChain k u).hlanes = s.hlanes := fun _ _ _ => rfl
@[simp] theorem State.modChain_ctxs : ∀ (s : State) (k : ChainN) (u : ChainS → ChainS), (s.modChain k u).ctxs = s.ctxs := fun _ _ _ => rfl
@[simp] theorem State.modChain_chans : ∀ (s : State) (k : ChainN) (u : ChainS → ChainS), (s.modChain k u).chans = s.chans := fun _ _ _ => rfl
@[simp] theorem State.modChain_seqs : ∀ (s : State) (k : ChainN) (u : ChainS → ChainS), (s.modChain k u).seqs = s.seqs := fun _ _ _ => rfl
@[simp] theorem State.modChain_dies : ∀ (s : State) (k : ChainN) (u : ChainS → ChainS), (s.modChain k u).dies = s.dies := fun _ _ _ => rfl
@[simp] theorem State.modChain_engs : ∀ (s : State) (k : ChainN) (u : ChainS → ChainS), (s.modChain k u).engs = s.engs := fun _ _ _ => rfl
@[simp] theorem State.modChain_knds : ∀ (s : State) (k : ChainN) (u : ChainS → ChainS), (s.modChain k u).knds = s.knds := fun _ _ _ => rfl
@[simp] theorem State.modChain_faulty : ∀ (s : State) (k : ChainN) (u : ChainS → ChainS), (s.modChain k u).faulty = s.faulty := fun _ _ _ => rfl
@[simp] theorem State.modChain_trackers : ∀ (s : State) (k : ChainN) (u : ChainS → ChainS), (s.modChain k u).trackers = s.trackers := fun _ _ _ => rfl
@[simp] theorem State.modChain_fis : ∀ (s : State) (k : ChainN) (u : ChainS → ChainS), (s.modChain k u).fis = s.fis := fun _ _ _ => rfl
@[simp] theorem State.modChain_sticky : ∀ (s : State) (k : ChainN) (u : ChainS → ChainS), (s.modChain k u).sticky = s.sticky := fun _ _ _ => rfl
@[simp] theorem State.modChain_rows : ∀ (s : State) (k : ChainN) (u : ChainS → ChainS), (s.modChain k u).rows = s.rows := fun _ _ _ => rfl
@[simp] theorem State.modChain_badRows : ∀ (s : State) (k : ChainN) (u : ChainS → ChainS), (s.modChain k u).badRows = s.badRows := fun _ _ _ => rfl
@[simp] theorem State.modChain_testmode : ∀ (s : State) (k : ChainN) (u : ChainS → ChainS), (s.modChain k u).testmode = s.testmode := fun _ _ _ => rfl
@[simp] theorem State.modChain_extest : ∀ (s : State) (k : ChainN) (u : ChainS → ChainS), (s.modChain k u).extest = s.extest := fun _ _ _ => rfl
@[simp] theorem State.modChain_porst : ∀ (s : State) (k : ChainN) (u : ChainS → ChainS), (s.modChain k u).porst = s.porst := fun _ _ _ => rfl
@[simp] theorem State.modChain_frame : ∀ (s : State) (k : ChainN) (u : ChainS → ChainS), (s.modChain k u).frame = s.frame := fun _ _ _ => rfl
@[simp] theorem State.modChain_results : ∀ (s : State) (k : ChainN) (u : ChainS → ChainS), (s.modChain k u).results = s.results := fun _ _ _ => rfl
@[simp] theorem State.modChain_resultAt : ∀ (s : State) (k : ChainN) (u : ChainS → ChainS), (s.modChain k u).resultAt = s.resultAt := fun _ _ _ => rfl
@[simp] theorem State.modChain_senseAt : ∀ (s : State) (k : ChainN) (u : ChainS → ChainS), (s.modChain k u).senseAt = s.senseAt := fun _ _ _ => rfl
@[simp] theorem State.modChain_capture : ∀ (s : State) (k : ChainN) (u : ChainS → ChainS), (s.modChain k u).capture = s.capture := fun _ _ _ => rfl
@[simp] theorem State.modChain_bridge : ∀ (s : State) (k : ChainN) (u : ChainS → ChainS), (s.modChain k u).bridge = s.bridge := fun _ _ _ => rfl
@[simp] theorem State.modChain_trims : ∀ (s : State) (k : ChainN) (u : ChainS → ChainS), (s.modChain k u).trims = s.trims := fun _ _ _ => rfl
@[simp] theorem State.modChain_out : ∀ (s : State) (k : ChainN) (u : ChainS → ChainS), (s.modChain k u).out = s.out := fun _ _ _ => rfl
@[simp] theorem State.modChain_free : ∀ (s : State) (k : ChainN) (u : ChainS → ChainS), (s.modChain k u).free = s.free := fun _ _ _ => rfl
@[simp] theorem State.modChain_accepted : ∀ (s : State) (k : ChainN) (u : ChainS → ChainS), (s.modChain k u).accepted = s.accepted := fun _ _ _ => rfl
@[simp] theorem State.modChain_pending : ∀ (s : State) (k : ChainN) (u : ChainS → ChainS), (s.modChain k u).pending = s.pending := fun _ _ _ => rfl
@[simp] theorem State.modChain_get : ∀ (s : State) (k : ChainN) (u : ChainS → ChainS) (f : Fld) (i : Nat), (s.modChain k u).get f i = s.get f i := fun _ _ _ _ _ => rfl
@[simp] theorem State.modChain_app : ∀ (s : State) (k : ChainN) (u : ChainS → ChainS) (f : Fld) (i : Nat), (s.modChain k u).app f i = s.app f i := fun _ _ _ _ _ => rfl
@[simp] theorem State.modChain_isSet : ∀ (s : State) (k : ChainN) (u : ChainS → ChainS) (f : Fld) (i : Nat), (s.modChain k u).isSet f i = s.isSet f i := fun _ _ _ _ _ => rfl
@[simp] theorem State.modChain_appSet : ∀ (s : State) (k : ChainN) (u : ChainS → ChainS) (f : Fld) (i : Nat), (s.modChain k u).appSet f i = s.appSet f i := fun _ _ _ _ _ => rfl
@[simp] theorem State.modChain_half : ∀ (s : State) (k : ChainN) (u : ChainS → ChainS) (x : Half), (s.modChain k u).half x = s.half x := fun _ _ _ _ => rfl
@[simp] theorem State.modChain_group : ∀ (s : State) (k : ChainN) (u : ChainS → ChainS) (x : Group), (s.modChain k u).group x = s.group x := fun _ _ _ _ => rfl
@[simp] theorem State.modChain_port : ∀ (s : State) (k : ChainN) (u : ChainS → ChainS) (x : Lane), (s.modChain k u).port x = s.port x := fun _ _ _ _ => rfl
@[simp] theorem State.modChain_lane : ∀ (s : State) (k : ChainN) (u : ChainS → ChainS) (x : Lane), (s.modChain k u).lane x = s.lane x := fun _ _ _ _ => rfl
@[simp] theorem State.modChain_hlane : ∀ (s : State) (k : ChainN) (u : ChainS → ChainS) (x : HLane), (s.modChain k u).hlane x = s.hlane x := fun _ _ _ _ => rfl
@[simp] theorem State.modChain_ctx : ∀ (s : State) (k : ChainN) (u : ChainS → ChainS) (x : Ctx), (s.modChain k u).ctx x = s.ctx x := fun _ _ _ _ => rfl
@[simp] theorem State.modChain_chan : ∀ (s : State) (k : ChainN) (u : ChainS → ChainS) (x : Chan), (s.modChain k u).chan x = s.chan x := fun _ _ _ _ => rfl
@[simp] theorem State.modChain_sequ : ∀ (s : State) (k : ChainN) (u : ChainS → ChainS) (x : SeqN), (s.modChain k u).sequ x = s.sequ x := fun _ _ _ _ => rfl
@[simp] theorem State.modChain_die : ∀ (s : State) (k : ChainN) (u : ChainS → ChainS) (x : DieSensor), (s.modChain k u).die x = s.die x := fun _ _ _ _ => rfl
@[simp] theorem State.modChain_eng : ∀ (s : State) (k : ChainN) (u : ChainS → ChainS) (x : EngSensor), (s.modChain k u).eng x = s.eng x := fun _ _ _ _ => rfl
@[simp] theorem State.modChain_knd : ∀ (s : State) (k : ChainN) (u : ChainS → ChainS) (x : Knd), (s.modChain k u).knd x = s.knd x := fun _ _ _ _ => rfl
@[simp] theorem State.modChain_fi : ∀ (s : State) (k : ChainN) (u : ChainS → ChainS) (x : Fin 32), (s.modChain k u).fi x = s.fi x := fun _ _ _ _ => rfl

/-! ### `modDie` -/

@[simp] theorem State.modDie_f : ∀ (s : State) (k : DieSensor) (u : SensS → SensS), (s.modDie k u).f = s.f := fun _ _ _ => rfl
@[simp] theorem State.modDie_ap : ∀ (s : State) (k : DieSensor) (u : SensS → SensS), (s.modDie k u).ap = s.ap := fun _ _ _ => rfl
@[simp] theorem State.modDie_written : ∀ (s : State) (k : DieSensor) (u : SensS → SensS), (s.modDie k u).written = s.written := fun _ _ _ => rfl
@[simp] theorem State.modDie_halves : ∀ (s : State) (k : DieSensor) (u : SensS → SensS), (s.modDie k u).halves = s.halves := fun _ _ _ => rfl
@[simp] theorem State.modDie_groups : ∀ (s : State) (k : DieSensor) (u : SensS → SensS), (s.modDie k u).groups = s.groups := fun _ _ _ => rfl
@[simp] theorem State.modDie_ports : ∀ (s : State) (k : DieSensor) (u : SensS → SensS), (s.modDie k u).ports = s.ports := fun _ _ _ => rfl
@[simp] theorem State.modDie_lanes : ∀ (s : State) (k : DieSensor) (u : SensS → SensS), (s.modDie k u).lanes = s.lanes := fun _ _ _ => rfl
@[simp] theorem State.modDie_dmt : ∀ (s : State) (k : DieSensor) (u : SensS → SensS), (s.modDie k u).dmt = s.dmt := fun _ _ _ => rfl
@[simp] theorem State.modDie_hlanes : ∀ (s : State) (k : DieSensor) (u : SensS → SensS), (s.modDie k u).hlanes = s.hlanes := fun _ _ _ => rfl
@[simp] theorem State.modDie_ctxs : ∀ (s : State) (k : DieSensor) (u : SensS → SensS), (s.modDie k u).ctxs = s.ctxs := fun _ _ _ => rfl
@[simp] theorem State.modDie_chans : ∀ (s : State) (k : DieSensor) (u : SensS → SensS), (s.modDie k u).chans = s.chans := fun _ _ _ => rfl
@[simp] theorem State.modDie_seqs : ∀ (s : State) (k : DieSensor) (u : SensS → SensS), (s.modDie k u).seqs = s.seqs := fun _ _ _ => rfl
@[simp] theorem State.modDie_chains : ∀ (s : State) (k : DieSensor) (u : SensS → SensS), (s.modDie k u).chains = s.chains := fun _ _ _ => rfl
@[simp] theorem State.modDie_engs : ∀ (s : State) (k : DieSensor) (u : SensS → SensS), (s.modDie k u).engs = s.engs := fun _ _ _ => rfl
@[simp] theorem State.modDie_knds : ∀ (s : State) (k : DieSensor) (u : SensS → SensS), (s.modDie k u).knds = s.knds := fun _ _ _ => rfl
@[simp] theorem State.modDie_faulty : ∀ (s : State) (k : DieSensor) (u : SensS → SensS), (s.modDie k u).faulty = s.faulty := fun _ _ _ => rfl
@[simp] theorem State.modDie_trackers : ∀ (s : State) (k : DieSensor) (u : SensS → SensS), (s.modDie k u).trackers = s.trackers := fun _ _ _ => rfl
@[simp] theorem State.modDie_fis : ∀ (s : State) (k : DieSensor) (u : SensS → SensS), (s.modDie k u).fis = s.fis := fun _ _ _ => rfl
@[simp] theorem State.modDie_sticky : ∀ (s : State) (k : DieSensor) (u : SensS → SensS), (s.modDie k u).sticky = s.sticky := fun _ _ _ => rfl
@[simp] theorem State.modDie_rows : ∀ (s : State) (k : DieSensor) (u : SensS → SensS), (s.modDie k u).rows = s.rows := fun _ _ _ => rfl
@[simp] theorem State.modDie_badRows : ∀ (s : State) (k : DieSensor) (u : SensS → SensS), (s.modDie k u).badRows = s.badRows := fun _ _ _ => rfl
@[simp] theorem State.modDie_testmode : ∀ (s : State) (k : DieSensor) (u : SensS → SensS), (s.modDie k u).testmode = s.testmode := fun _ _ _ => rfl
@[simp] theorem State.modDie_extest : ∀ (s : State) (k : DieSensor) (u : SensS → SensS), (s.modDie k u).extest = s.extest := fun _ _ _ => rfl
@[simp] theorem State.modDie_porst : ∀ (s : State) (k : DieSensor) (u : SensS → SensS), (s.modDie k u).porst = s.porst := fun _ _ _ => rfl
@[simp] theorem State.modDie_frame : ∀ (s : State) (k : DieSensor) (u : SensS → SensS), (s.modDie k u).frame = s.frame := fun _ _ _ => rfl
@[simp] theorem State.modDie_results : ∀ (s : State) (k : DieSensor) (u : SensS → SensS), (s.modDie k u).results = s.results := fun _ _ _ => rfl
@[simp] theorem State.modDie_resultAt : ∀ (s : State) (k : DieSensor) (u : SensS → SensS), (s.modDie k u).resultAt = s.resultAt := fun _ _ _ => rfl
@[simp] theorem State.modDie_senseAt : ∀ (s : State) (k : DieSensor) (u : SensS → SensS), (s.modDie k u).senseAt = s.senseAt := fun _ _ _ => rfl
@[simp] theorem State.modDie_capture : ∀ (s : State) (k : DieSensor) (u : SensS → SensS), (s.modDie k u).capture = s.capture := fun _ _ _ => rfl
@[simp] theorem State.modDie_bridge : ∀ (s : State) (k : DieSensor) (u : SensS → SensS), (s.modDie k u).bridge = s.bridge := fun _ _ _ => rfl
@[simp] theorem State.modDie_trims : ∀ (s : State) (k : DieSensor) (u : SensS → SensS), (s.modDie k u).trims = s.trims := fun _ _ _ => rfl
@[simp] theorem State.modDie_out : ∀ (s : State) (k : DieSensor) (u : SensS → SensS), (s.modDie k u).out = s.out := fun _ _ _ => rfl
@[simp] theorem State.modDie_free : ∀ (s : State) (k : DieSensor) (u : SensS → SensS), (s.modDie k u).free = s.free := fun _ _ _ => rfl
@[simp] theorem State.modDie_accepted : ∀ (s : State) (k : DieSensor) (u : SensS → SensS), (s.modDie k u).accepted = s.accepted := fun _ _ _ => rfl
@[simp] theorem State.modDie_pending : ∀ (s : State) (k : DieSensor) (u : SensS → SensS), (s.modDie k u).pending = s.pending := fun _ _ _ => rfl
@[simp] theorem State.modDie_get : ∀ (s : State) (k : DieSensor) (u : SensS → SensS) (f : Fld) (i : Nat), (s.modDie k u).get f i = s.get f i := fun _ _ _ _ _ => rfl
@[simp] theorem State.modDie_app : ∀ (s : State) (k : DieSensor) (u : SensS → SensS) (f : Fld) (i : Nat), (s.modDie k u).app f i = s.app f i := fun _ _ _ _ _ => rfl
@[simp] theorem State.modDie_isSet : ∀ (s : State) (k : DieSensor) (u : SensS → SensS) (f : Fld) (i : Nat), (s.modDie k u).isSet f i = s.isSet f i := fun _ _ _ _ _ => rfl
@[simp] theorem State.modDie_appSet : ∀ (s : State) (k : DieSensor) (u : SensS → SensS) (f : Fld) (i : Nat), (s.modDie k u).appSet f i = s.appSet f i := fun _ _ _ _ _ => rfl
@[simp] theorem State.modDie_half : ∀ (s : State) (k : DieSensor) (u : SensS → SensS) (x : Half), (s.modDie k u).half x = s.half x := fun _ _ _ _ => rfl
@[simp] theorem State.modDie_group : ∀ (s : State) (k : DieSensor) (u : SensS → SensS) (x : Group), (s.modDie k u).group x = s.group x := fun _ _ _ _ => rfl
@[simp] theorem State.modDie_port : ∀ (s : State) (k : DieSensor) (u : SensS → SensS) (x : Lane), (s.modDie k u).port x = s.port x := fun _ _ _ _ => rfl
@[simp] theorem State.modDie_lane : ∀ (s : State) (k : DieSensor) (u : SensS → SensS) (x : Lane), (s.modDie k u).lane x = s.lane x := fun _ _ _ _ => rfl
@[simp] theorem State.modDie_hlane : ∀ (s : State) (k : DieSensor) (u : SensS → SensS) (x : HLane), (s.modDie k u).hlane x = s.hlane x := fun _ _ _ _ => rfl
@[simp] theorem State.modDie_ctx : ∀ (s : State) (k : DieSensor) (u : SensS → SensS) (x : Ctx), (s.modDie k u).ctx x = s.ctx x := fun _ _ _ _ => rfl
@[simp] theorem State.modDie_chan : ∀ (s : State) (k : DieSensor) (u : SensS → SensS) (x : Chan), (s.modDie k u).chan x = s.chan x := fun _ _ _ _ => rfl
@[simp] theorem State.modDie_sequ : ∀ (s : State) (k : DieSensor) (u : SensS → SensS) (x : SeqN), (s.modDie k u).sequ x = s.sequ x := fun _ _ _ _ => rfl
@[simp] theorem State.modDie_chain : ∀ (s : State) (k : DieSensor) (u : SensS → SensS) (x : ChainN), (s.modDie k u).chain x = s.chain x := fun _ _ _ _ => rfl
@[simp] theorem State.modDie_eng : ∀ (s : State) (k : DieSensor) (u : SensS → SensS) (x : EngSensor), (s.modDie k u).eng x = s.eng x := fun _ _ _ _ => rfl
@[simp] theorem State.modDie_knd : ∀ (s : State) (k : DieSensor) (u : SensS → SensS) (x : Knd), (s.modDie k u).knd x = s.knd x := fun _ _ _ _ => rfl
@[simp] theorem State.modDie_fi : ∀ (s : State) (k : DieSensor) (u : SensS → SensS) (x : Fin 32), (s.modDie k u).fi x = s.fi x := fun _ _ _ _ => rfl

/-! ### `modEng` -/

@[simp] theorem State.modEng_f : ∀ (s : State) (k : EngSensor) (u : SensS → SensS), (s.modEng k u).f = s.f := fun _ _ _ => rfl
@[simp] theorem State.modEng_ap : ∀ (s : State) (k : EngSensor) (u : SensS → SensS), (s.modEng k u).ap = s.ap := fun _ _ _ => rfl
@[simp] theorem State.modEng_written : ∀ (s : State) (k : EngSensor) (u : SensS → SensS), (s.modEng k u).written = s.written := fun _ _ _ => rfl
@[simp] theorem State.modEng_halves : ∀ (s : State) (k : EngSensor) (u : SensS → SensS), (s.modEng k u).halves = s.halves := fun _ _ _ => rfl
@[simp] theorem State.modEng_groups : ∀ (s : State) (k : EngSensor) (u : SensS → SensS), (s.modEng k u).groups = s.groups := fun _ _ _ => rfl
@[simp] theorem State.modEng_ports : ∀ (s : State) (k : EngSensor) (u : SensS → SensS), (s.modEng k u).ports = s.ports := fun _ _ _ => rfl
@[simp] theorem State.modEng_lanes : ∀ (s : State) (k : EngSensor) (u : SensS → SensS), (s.modEng k u).lanes = s.lanes := fun _ _ _ => rfl
@[simp] theorem State.modEng_dmt : ∀ (s : State) (k : EngSensor) (u : SensS → SensS), (s.modEng k u).dmt = s.dmt := fun _ _ _ => rfl
@[simp] theorem State.modEng_hlanes : ∀ (s : State) (k : EngSensor) (u : SensS → SensS), (s.modEng k u).hlanes = s.hlanes := fun _ _ _ => rfl
@[simp] theorem State.modEng_ctxs : ∀ (s : State) (k : EngSensor) (u : SensS → SensS), (s.modEng k u).ctxs = s.ctxs := fun _ _ _ => rfl
@[simp] theorem State.modEng_chans : ∀ (s : State) (k : EngSensor) (u : SensS → SensS), (s.modEng k u).chans = s.chans := fun _ _ _ => rfl
@[simp] theorem State.modEng_seqs : ∀ (s : State) (k : EngSensor) (u : SensS → SensS), (s.modEng k u).seqs = s.seqs := fun _ _ _ => rfl
@[simp] theorem State.modEng_chains : ∀ (s : State) (k : EngSensor) (u : SensS → SensS), (s.modEng k u).chains = s.chains := fun _ _ _ => rfl
@[simp] theorem State.modEng_dies : ∀ (s : State) (k : EngSensor) (u : SensS → SensS), (s.modEng k u).dies = s.dies := fun _ _ _ => rfl
@[simp] theorem State.modEng_knds : ∀ (s : State) (k : EngSensor) (u : SensS → SensS), (s.modEng k u).knds = s.knds := fun _ _ _ => rfl
@[simp] theorem State.modEng_faulty : ∀ (s : State) (k : EngSensor) (u : SensS → SensS), (s.modEng k u).faulty = s.faulty := fun _ _ _ => rfl
@[simp] theorem State.modEng_trackers : ∀ (s : State) (k : EngSensor) (u : SensS → SensS), (s.modEng k u).trackers = s.trackers := fun _ _ _ => rfl
@[simp] theorem State.modEng_fis : ∀ (s : State) (k : EngSensor) (u : SensS → SensS), (s.modEng k u).fis = s.fis := fun _ _ _ => rfl
@[simp] theorem State.modEng_sticky : ∀ (s : State) (k : EngSensor) (u : SensS → SensS), (s.modEng k u).sticky = s.sticky := fun _ _ _ => rfl
@[simp] theorem State.modEng_rows : ∀ (s : State) (k : EngSensor) (u : SensS → SensS), (s.modEng k u).rows = s.rows := fun _ _ _ => rfl
@[simp] theorem State.modEng_badRows : ∀ (s : State) (k : EngSensor) (u : SensS → SensS), (s.modEng k u).badRows = s.badRows := fun _ _ _ => rfl
@[simp] theorem State.modEng_testmode : ∀ (s : State) (k : EngSensor) (u : SensS → SensS), (s.modEng k u).testmode = s.testmode := fun _ _ _ => rfl
@[simp] theorem State.modEng_extest : ∀ (s : State) (k : EngSensor) (u : SensS → SensS), (s.modEng k u).extest = s.extest := fun _ _ _ => rfl
@[simp] theorem State.modEng_porst : ∀ (s : State) (k : EngSensor) (u : SensS → SensS), (s.modEng k u).porst = s.porst := fun _ _ _ => rfl
@[simp] theorem State.modEng_frame : ∀ (s : State) (k : EngSensor) (u : SensS → SensS), (s.modEng k u).frame = s.frame := fun _ _ _ => rfl
@[simp] theorem State.modEng_results : ∀ (s : State) (k : EngSensor) (u : SensS → SensS), (s.modEng k u).results = s.results := fun _ _ _ => rfl
@[simp] theorem State.modEng_resultAt : ∀ (s : State) (k : EngSensor) (u : SensS → SensS), (s.modEng k u).resultAt = s.resultAt := fun _ _ _ => rfl
@[simp] theorem State.modEng_senseAt : ∀ (s : State) (k : EngSensor) (u : SensS → SensS), (s.modEng k u).senseAt = s.senseAt := fun _ _ _ => rfl
@[simp] theorem State.modEng_capture : ∀ (s : State) (k : EngSensor) (u : SensS → SensS), (s.modEng k u).capture = s.capture := fun _ _ _ => rfl
@[simp] theorem State.modEng_bridge : ∀ (s : State) (k : EngSensor) (u : SensS → SensS), (s.modEng k u).bridge = s.bridge := fun _ _ _ => rfl
@[simp] theorem State.modEng_trims : ∀ (s : State) (k : EngSensor) (u : SensS → SensS), (s.modEng k u).trims = s.trims := fun _ _ _ => rfl
@[simp] theorem State.modEng_out : ∀ (s : State) (k : EngSensor) (u : SensS → SensS), (s.modEng k u).out = s.out := fun _ _ _ => rfl
@[simp] theorem State.modEng_free : ∀ (s : State) (k : EngSensor) (u : SensS → SensS), (s.modEng k u).free = s.free := fun _ _ _ => rfl
@[simp] theorem State.modEng_accepted : ∀ (s : State) (k : EngSensor) (u : SensS → SensS), (s.modEng k u).accepted = s.accepted := fun _ _ _ => rfl
@[simp] theorem State.modEng_pending : ∀ (s : State) (k : EngSensor) (u : SensS → SensS), (s.modEng k u).pending = s.pending := fun _ _ _ => rfl
@[simp] theorem State.modEng_get : ∀ (s : State) (k : EngSensor) (u : SensS → SensS) (f : Fld) (i : Nat), (s.modEng k u).get f i = s.get f i := fun _ _ _ _ _ => rfl
@[simp] theorem State.modEng_app : ∀ (s : State) (k : EngSensor) (u : SensS → SensS) (f : Fld) (i : Nat), (s.modEng k u).app f i = s.app f i := fun _ _ _ _ _ => rfl
@[simp] theorem State.modEng_isSet : ∀ (s : State) (k : EngSensor) (u : SensS → SensS) (f : Fld) (i : Nat), (s.modEng k u).isSet f i = s.isSet f i := fun _ _ _ _ _ => rfl
@[simp] theorem State.modEng_appSet : ∀ (s : State) (k : EngSensor) (u : SensS → SensS) (f : Fld) (i : Nat), (s.modEng k u).appSet f i = s.appSet f i := fun _ _ _ _ _ => rfl
@[simp] theorem State.modEng_half : ∀ (s : State) (k : EngSensor) (u : SensS → SensS) (x : Half), (s.modEng k u).half x = s.half x := fun _ _ _ _ => rfl
@[simp] theorem State.modEng_group : ∀ (s : State) (k : EngSensor) (u : SensS → SensS) (x : Group), (s.modEng k u).group x = s.group x := fun _ _ _ _ => rfl
@[simp] theorem State.modEng_port : ∀ (s : State) (k : EngSensor) (u : SensS → SensS) (x : Lane), (s.modEng k u).port x = s.port x := fun _ _ _ _ => rfl
@[simp] theorem State.modEng_lane : ∀ (s : State) (k : EngSensor) (u : SensS → SensS) (x : Lane), (s.modEng k u).lane x = s.lane x := fun _ _ _ _ => rfl
@[simp] theorem State.modEng_hlane : ∀ (s : State) (k : EngSensor) (u : SensS → SensS) (x : HLane), (s.modEng k u).hlane x = s.hlane x := fun _ _ _ _ => rfl
@[simp] theorem State.modEng_ctx : ∀ (s : State) (k : EngSensor) (u : SensS → SensS) (x : Ctx), (s.modEng k u).ctx x = s.ctx x := fun _ _ _ _ => rfl
@[simp] theorem State.modEng_chan : ∀ (s : State) (k : EngSensor) (u : SensS → SensS) (x : Chan), (s.modEng k u).chan x = s.chan x := fun _ _ _ _ => rfl
@[simp] theorem State.modEng_sequ : ∀ (s : State) (k : EngSensor) (u : SensS → SensS) (x : SeqN), (s.modEng k u).sequ x = s.sequ x := fun _ _ _ _ => rfl
@[simp] theorem State.modEng_chain : ∀ (s : State) (k : EngSensor) (u : SensS → SensS) (x : ChainN), (s.modEng k u).chain x = s.chain x := fun _ _ _ _ => rfl
@[simp] theorem State.modEng_die : ∀ (s : State) (k : EngSensor) (u : SensS → SensS) (x : DieSensor), (s.modEng k u).die x = s.die x := fun _ _ _ _ => rfl
@[simp] theorem State.modEng_knd : ∀ (s : State) (k : EngSensor) (u : SensS → SensS) (x : Knd), (s.modEng k u).knd x = s.knd x := fun _ _ _ _ => rfl
@[simp] theorem State.modEng_fi : ∀ (s : State) (k : EngSensor) (u : SensS → SensS) (x : Fin 32), (s.modEng k u).fi x = s.fi x := fun _ _ _ _ => rfl

/-! ### `modKnd` -/

@[simp] theorem State.modKnd_f : ∀ (s : State) (k : Knd) (u : KndS → KndS), (s.modKnd k u).f = s.f := fun _ _ _ => rfl
@[simp] theorem State.modKnd_ap : ∀ (s : State) (k : Knd) (u : KndS → KndS), (s.modKnd k u).ap = s.ap := fun _ _ _ => rfl
@[simp] theorem State.modKnd_written : ∀ (s : State) (k : Knd) (u : KndS → KndS), (s.modKnd k u).written = s.written := fun _ _ _ => rfl
@[simp] theorem State.modKnd_halves : ∀ (s : State) (k : Knd) (u : KndS → KndS), (s.modKnd k u).halves = s.halves := fun _ _ _ => rfl
@[simp] theorem State.modKnd_groups : ∀ (s : State) (k : Knd) (u : KndS → KndS), (s.modKnd k u).groups = s.groups := fun _ _ _ => rfl
@[simp] theorem State.modKnd_ports : ∀ (s : State) (k : Knd) (u : KndS → KndS), (s.modKnd k u).ports = s.ports := fun _ _ _ => rfl
@[simp] theorem State.modKnd_lanes : ∀ (s : State) (k : Knd) (u : KndS → KndS), (s.modKnd k u).lanes = s.lanes := fun _ _ _ => rfl
@[simp] theorem State.modKnd_dmt : ∀ (s : State) (k : Knd) (u : KndS → KndS), (s.modKnd k u).dmt = s.dmt := fun _ _ _ => rfl
@[simp] theorem State.modKnd_hlanes : ∀ (s : State) (k : Knd) (u : KndS → KndS), (s.modKnd k u).hlanes = s.hlanes := fun _ _ _ => rfl
@[simp] theorem State.modKnd_ctxs : ∀ (s : State) (k : Knd) (u : KndS → KndS), (s.modKnd k u).ctxs = s.ctxs := fun _ _ _ => rfl
@[simp] theorem State.modKnd_chans : ∀ (s : State) (k : Knd) (u : KndS → KndS), (s.modKnd k u).chans = s.chans := fun _ _ _ => rfl
@[simp] theorem State.modKnd_seqs : ∀ (s : State) (k : Knd) (u : KndS → KndS), (s.modKnd k u).seqs = s.seqs := fun _ _ _ => rfl
@[simp] theorem State.modKnd_chains : ∀ (s : State) (k : Knd) (u : KndS → KndS), (s.modKnd k u).chains = s.chains := fun _ _ _ => rfl
@[simp] theorem State.modKnd_dies : ∀ (s : State) (k : Knd) (u : KndS → KndS), (s.modKnd k u).dies = s.dies := fun _ _ _ => rfl
@[simp] theorem State.modKnd_engs : ∀ (s : State) (k : Knd) (u : KndS → KndS), (s.modKnd k u).engs = s.engs := fun _ _ _ => rfl
@[simp] theorem State.modKnd_faulty : ∀ (s : State) (k : Knd) (u : KndS → KndS), (s.modKnd k u).faulty = s.faulty := fun _ _ _ => rfl
@[simp] theorem State.modKnd_trackers : ∀ (s : State) (k : Knd) (u : KndS → KndS), (s.modKnd k u).trackers = s.trackers := fun _ _ _ => rfl
@[simp] theorem State.modKnd_fis : ∀ (s : State) (k : Knd) (u : KndS → KndS), (s.modKnd k u).fis = s.fis := fun _ _ _ => rfl
@[simp] theorem State.modKnd_sticky : ∀ (s : State) (k : Knd) (u : KndS → KndS), (s.modKnd k u).sticky = s.sticky := fun _ _ _ => rfl
@[simp] theorem State.modKnd_rows : ∀ (s : State) (k : Knd) (u : KndS → KndS), (s.modKnd k u).rows = s.rows := fun _ _ _ => rfl
@[simp] theorem State.modKnd_badRows : ∀ (s : State) (k : Knd) (u : KndS → KndS), (s.modKnd k u).badRows = s.badRows := fun _ _ _ => rfl
@[simp] theorem State.modKnd_testmode : ∀ (s : State) (k : Knd) (u : KndS → KndS), (s.modKnd k u).testmode = s.testmode := fun _ _ _ => rfl
@[simp] theorem State.modKnd_extest : ∀ (s : State) (k : Knd) (u : KndS → KndS), (s.modKnd k u).extest = s.extest := fun _ _ _ => rfl
@[simp] theorem State.modKnd_porst : ∀ (s : State) (k : Knd) (u : KndS → KndS), (s.modKnd k u).porst = s.porst := fun _ _ _ => rfl
@[simp] theorem State.modKnd_frame : ∀ (s : State) (k : Knd) (u : KndS → KndS), (s.modKnd k u).frame = s.frame := fun _ _ _ => rfl
@[simp] theorem State.modKnd_results : ∀ (s : State) (k : Knd) (u : KndS → KndS), (s.modKnd k u).results = s.results := fun _ _ _ => rfl
@[simp] theorem State.modKnd_resultAt : ∀ (s : State) (k : Knd) (u : KndS → KndS), (s.modKnd k u).resultAt = s.resultAt := fun _ _ _ => rfl
@[simp] theorem State.modKnd_senseAt : ∀ (s : State) (k : Knd) (u : KndS → KndS), (s.modKnd k u).senseAt = s.senseAt := fun _ _ _ => rfl
@[simp] theorem State.modKnd_capture : ∀ (s : State) (k : Knd) (u : KndS → KndS), (s.modKnd k u).capture = s.capture := fun _ _ _ => rfl
@[simp] theorem State.modKnd_bridge : ∀ (s : State) (k : Knd) (u : KndS → KndS), (s.modKnd k u).bridge = s.bridge := fun _ _ _ => rfl
@[simp] theorem State.modKnd_trims : ∀ (s : State) (k : Knd) (u : KndS → KndS), (s.modKnd k u).trims = s.trims := fun _ _ _ => rfl
@[simp] theorem State.modKnd_out : ∀ (s : State) (k : Knd) (u : KndS → KndS), (s.modKnd k u).out = s.out := fun _ _ _ => rfl
@[simp] theorem State.modKnd_free : ∀ (s : State) (k : Knd) (u : KndS → KndS), (s.modKnd k u).free = s.free := fun _ _ _ => rfl
@[simp] theorem State.modKnd_accepted : ∀ (s : State) (k : Knd) (u : KndS → KndS), (s.modKnd k u).accepted = s.accepted := fun _ _ _ => rfl
@[simp] theorem State.modKnd_pending : ∀ (s : State) (k : Knd) (u : KndS → KndS), (s.modKnd k u).pending = s.pending := fun _ _ _ => rfl
@[simp] theorem State.modKnd_get : ∀ (s : State) (k : Knd) (u : KndS → KndS) (f : Fld) (i : Nat), (s.modKnd k u).get f i = s.get f i := fun _ _ _ _ _ => rfl
@[simp] theorem State.modKnd_app : ∀ (s : State) (k : Knd) (u : KndS → KndS) (f : Fld) (i : Nat), (s.modKnd k u).app f i = s.app f i := fun _ _ _ _ _ => rfl
@[simp] theorem State.modKnd_isSet : ∀ (s : State) (k : Knd) (u : KndS → KndS) (f : Fld) (i : Nat), (s.modKnd k u).isSet f i = s.isSet f i := fun _ _ _ _ _ => rfl
@[simp] theorem State.modKnd_appSet : ∀ (s : State) (k : Knd) (u : KndS → KndS) (f : Fld) (i : Nat), (s.modKnd k u).appSet f i = s.appSet f i := fun _ _ _ _ _ => rfl
@[simp] theorem State.modKnd_half : ∀ (s : State) (k : Knd) (u : KndS → KndS) (x : Half), (s.modKnd k u).half x = s.half x := fun _ _ _ _ => rfl
@[simp] theorem State.modKnd_group : ∀ (s : State) (k : Knd) (u : KndS → KndS) (x : Group), (s.modKnd k u).group x = s.group x := fun _ _ _ _ => rfl
@[simp] theorem State.modKnd_port : ∀ (s : State) (k : Knd) (u : KndS → KndS) (x : Lane), (s.modKnd k u).port x = s.port x := fun _ _ _ _ => rfl
@[simp] theorem State.modKnd_lane : ∀ (s : State) (k : Knd) (u : KndS → KndS) (x : Lane), (s.modKnd k u).lane x = s.lane x := fun _ _ _ _ => rfl
@[simp] theorem State.modKnd_hlane : ∀ (s : State) (k : Knd) (u : KndS → KndS) (x : HLane), (s.modKnd k u).hlane x = s.hlane x := fun _ _ _ _ => rfl
@[simp] theorem State.modKnd_ctx : ∀ (s : State) (k : Knd) (u : KndS → KndS) (x : Ctx), (s.modKnd k u).ctx x = s.ctx x := fun _ _ _ _ => rfl
@[simp] theorem State.modKnd_chan : ∀ (s : State) (k : Knd) (u : KndS → KndS) (x : Chan), (s.modKnd k u).chan x = s.chan x := fun _ _ _ _ => rfl
@[simp] theorem State.modKnd_sequ : ∀ (s : State) (k : Knd) (u : KndS → KndS) (x : SeqN), (s.modKnd k u).sequ x = s.sequ x := fun _ _ _ _ => rfl
@[simp] theorem State.modKnd_chain : ∀ (s : State) (k : Knd) (u : KndS → KndS) (x : ChainN), (s.modKnd k u).chain x = s.chain x := fun _ _ _ _ => rfl
@[simp] theorem State.modKnd_die : ∀ (s : State) (k : Knd) (u : KndS → KndS) (x : DieSensor), (s.modKnd k u).die x = s.die x := fun _ _ _ _ => rfl
@[simp] theorem State.modKnd_eng : ∀ (s : State) (k : Knd) (u : KndS → KndS) (x : EngSensor), (s.modKnd k u).eng x = s.eng x := fun _ _ _ _ => rfl
@[simp] theorem State.modKnd_fi : ∀ (s : State) (k : Knd) (u : KndS → KndS) (x : Fin 32), (s.modKnd k u).fi x = s.fi x := fun _ _ _ _ => rfl

/-! ### `modFi` -/

@[simp] theorem State.modFi_f : ∀ (s : State) (k : Fin 32) (u : FiS → FiS), (s.modFi k u).f = s.f := fun _ _ _ => rfl
@[simp] theorem State.modFi_ap : ∀ (s : State) (k : Fin 32) (u : FiS → FiS), (s.modFi k u).ap = s.ap := fun _ _ _ => rfl
@[simp] theorem State.modFi_written : ∀ (s : State) (k : Fin 32) (u : FiS → FiS), (s.modFi k u).written = s.written := fun _ _ _ => rfl
@[simp] theorem State.modFi_halves : ∀ (s : State) (k : Fin 32) (u : FiS → FiS), (s.modFi k u).halves = s.halves := fun _ _ _ => rfl
@[simp] theorem State.modFi_groups : ∀ (s : State) (k : Fin 32) (u : FiS → FiS), (s.modFi k u).groups = s.groups := fun _ _ _ => rfl
@[simp] theorem State.modFi_ports : ∀ (s : State) (k : Fin 32) (u : FiS → FiS), (s.modFi k u).ports = s.ports := fun _ _ _ => rfl
@[simp] theorem State.modFi_lanes : ∀ (s : State) (k : Fin 32) (u : FiS → FiS), (s.modFi k u).lanes = s.lanes := fun _ _ _ => rfl
@[simp] theorem State.modFi_dmt : ∀ (s : State) (k : Fin 32) (u : FiS → FiS), (s.modFi k u).dmt = s.dmt := fun _ _ _ => rfl
@[simp] theorem State.modFi_hlanes : ∀ (s : State) (k : Fin 32) (u : FiS → FiS), (s.modFi k u).hlanes = s.hlanes := fun _ _ _ => rfl
@[simp] theorem State.modFi_ctxs : ∀ (s : State) (k : Fin 32) (u : FiS → FiS), (s.modFi k u).ctxs = s.ctxs := fun _ _ _ => rfl
@[simp] theorem State.modFi_chans : ∀ (s : State) (k : Fin 32) (u : FiS → FiS), (s.modFi k u).chans = s.chans := fun _ _ _ => rfl
@[simp] theorem State.modFi_seqs : ∀ (s : State) (k : Fin 32) (u : FiS → FiS), (s.modFi k u).seqs = s.seqs := fun _ _ _ => rfl
@[simp] theorem State.modFi_chains : ∀ (s : State) (k : Fin 32) (u : FiS → FiS), (s.modFi k u).chains = s.chains := fun _ _ _ => rfl
@[simp] theorem State.modFi_dies : ∀ (s : State) (k : Fin 32) (u : FiS → FiS), (s.modFi k u).dies = s.dies := fun _ _ _ => rfl
@[simp] theorem State.modFi_engs : ∀ (s : State) (k : Fin 32) (u : FiS → FiS), (s.modFi k u).engs = s.engs := fun _ _ _ => rfl
@[simp] theorem State.modFi_knds : ∀ (s : State) (k : Fin 32) (u : FiS → FiS), (s.modFi k u).knds = s.knds := fun _ _ _ => rfl
@[simp] theorem State.modFi_faulty : ∀ (s : State) (k : Fin 32) (u : FiS → FiS), (s.modFi k u).faulty = s.faulty := fun _ _ _ => rfl
@[simp] theorem State.modFi_trackers : ∀ (s : State) (k : Fin 32) (u : FiS → FiS), (s.modFi k u).trackers = s.trackers := fun _ _ _ => rfl
@[simp] theorem State.modFi_sticky : ∀ (s : State) (k : Fin 32) (u : FiS → FiS), (s.modFi k u).sticky = s.sticky := fun _ _ _ => rfl
@[simp] theorem State.modFi_rows : ∀ (s : State) (k : Fin 32) (u : FiS → FiS), (s.modFi k u).rows = s.rows := fun _ _ _ => rfl
@[simp] theorem State.modFi_badRows : ∀ (s : State) (k : Fin 32) (u : FiS → FiS), (s.modFi k u).badRows = s.badRows := fun _ _ _ => rfl
@[simp] theorem State.modFi_testmode : ∀ (s : State) (k : Fin 32) (u : FiS → FiS), (s.modFi k u).testmode = s.testmode := fun _ _ _ => rfl
@[simp] theorem State.modFi_extest : ∀ (s : State) (k : Fin 32) (u : FiS → FiS), (s.modFi k u).extest = s.extest := fun _ _ _ => rfl
@[simp] theorem State.modFi_porst : ∀ (s : State) (k : Fin 32) (u : FiS → FiS), (s.modFi k u).porst = s.porst := fun _ _ _ => rfl
@[simp] theorem State.modFi_frame : ∀ (s : State) (k : Fin 32) (u : FiS → FiS), (s.modFi k u).frame = s.frame := fun _ _ _ => rfl
@[simp] theorem State.modFi_results : ∀ (s : State) (k : Fin 32) (u : FiS → FiS), (s.modFi k u).results = s.results := fun _ _ _ => rfl
@[simp] theorem State.modFi_resultAt : ∀ (s : State) (k : Fin 32) (u : FiS → FiS), (s.modFi k u).resultAt = s.resultAt := fun _ _ _ => rfl
@[simp] theorem State.modFi_senseAt : ∀ (s : State) (k : Fin 32) (u : FiS → FiS), (s.modFi k u).senseAt = s.senseAt := fun _ _ _ => rfl
@[simp] theorem State.modFi_capture : ∀ (s : State) (k : Fin 32) (u : FiS → FiS), (s.modFi k u).capture = s.capture := fun _ _ _ => rfl
@[simp] theorem State.modFi_bridge : ∀ (s : State) (k : Fin 32) (u : FiS → FiS), (s.modFi k u).bridge = s.bridge := fun _ _ _ => rfl
@[simp] theorem State.modFi_trims : ∀ (s : State) (k : Fin 32) (u : FiS → FiS), (s.modFi k u).trims = s.trims := fun _ _ _ => rfl
@[simp] theorem State.modFi_out : ∀ (s : State) (k : Fin 32) (u : FiS → FiS), (s.modFi k u).out = s.out := fun _ _ _ => rfl
@[simp] theorem State.modFi_free : ∀ (s : State) (k : Fin 32) (u : FiS → FiS), (s.modFi k u).free = s.free := fun _ _ _ => rfl
@[simp] theorem State.modFi_accepted : ∀ (s : State) (k : Fin 32) (u : FiS → FiS), (s.modFi k u).accepted = s.accepted := fun _ _ _ => rfl
@[simp] theorem State.modFi_pending : ∀ (s : State) (k : Fin 32) (u : FiS → FiS), (s.modFi k u).pending = s.pending := fun _ _ _ => rfl
@[simp] theorem State.modFi_get : ∀ (s : State) (k : Fin 32) (u : FiS → FiS) (f : Fld) (i : Nat), (s.modFi k u).get f i = s.get f i := fun _ _ _ _ _ => rfl
@[simp] theorem State.modFi_app : ∀ (s : State) (k : Fin 32) (u : FiS → FiS) (f : Fld) (i : Nat), (s.modFi k u).app f i = s.app f i := fun _ _ _ _ _ => rfl
@[simp] theorem State.modFi_isSet : ∀ (s : State) (k : Fin 32) (u : FiS → FiS) (f : Fld) (i : Nat), (s.modFi k u).isSet f i = s.isSet f i := fun _ _ _ _ _ => rfl
@[simp] theorem State.modFi_appSet : ∀ (s : State) (k : Fin 32) (u : FiS → FiS) (f : Fld) (i : Nat), (s.modFi k u).appSet f i = s.appSet f i := fun _ _ _ _ _ => rfl
@[simp] theorem State.modFi_half : ∀ (s : State) (k : Fin 32) (u : FiS → FiS) (x : Half), (s.modFi k u).half x = s.half x := fun _ _ _ _ => rfl
@[simp] theorem State.modFi_group : ∀ (s : State) (k : Fin 32) (u : FiS → FiS) (x : Group), (s.modFi k u).group x = s.group x := fun _ _ _ _ => rfl
@[simp] theorem State.modFi_port : ∀ (s : State) (k : Fin 32) (u : FiS → FiS) (x : Lane), (s.modFi k u).port x = s.port x := fun _ _ _ _ => rfl
@[simp] theorem State.modFi_lane : ∀ (s : State) (k : Fin 32) (u : FiS → FiS) (x : Lane), (s.modFi k u).lane x = s.lane x := fun _ _ _ _ => rfl
@[simp] theorem State.modFi_hlane : ∀ (s : State) (k : Fin 32) (u : FiS → FiS) (x : HLane), (s.modFi k u).hlane x = s.hlane x := fun _ _ _ _ => rfl
@[simp] theorem State.modFi_ctx : ∀ (s : State) (k : Fin 32) (u : FiS → FiS) (x : Ctx), (s.modFi k u).ctx x = s.ctx x := fun _ _ _ _ => rfl
@[simp] theorem State.modFi_chan : ∀ (s : State) (k : Fin 32) (u : FiS → FiS) (x : Chan), (s.modFi k u).chan x = s.chan x := fun _ _ _ _ => rfl
@[simp] theorem State.modFi_sequ : ∀ (s : State) (k : Fin 32) (u : FiS → FiS) (x : SeqN), (s.modFi k u).sequ x = s.sequ x := fun _ _ _ _ => rfl
@[simp] theorem State.modFi_chain : ∀ (s : State) (k : Fin 32) (u : FiS → FiS) (x : ChainN), (s.modFi k u).chain x = s.chain x := fun _ _ _ _ => rfl
@[simp] theorem State.modFi_die : ∀ (s : State) (k : Fin 32) (u : FiS → FiS) (x : DieSensor), (s.modFi k u).die x = s.die x := fun _ _ _ _ => rfl
@[simp] theorem State.modFi_eng : ∀ (s : State) (k : Fin 32) (u : FiS → FiS) (x : EngSensor), (s.modFi k u).eng x = s.eng x := fun _ _ _ _ => rfl
@[simp] theorem State.modFi_knd : ∀ (s : State) (k : Fin 32) (u : FiS → FiS) (x : Knd), (s.modFi k u).knd x = s.knd x := fun _ _ _ _ => rfl

/-! ### The unit that an update names -/

theorem get_set_vector {α : Type} {n : Nat} (v : Vector α n) (k x : Fin n) (a : α) :
    (v.set k a).get x = if x = k then a else v.get x := by
  rw [show (v.set k a).get x = (v.set k a)[x.val] from rfl, show v.get x = v[x.val] from rfl, Vector.getElem_set]
  by_cases h : x = k
  · simp [h]
  · rw [if_neg (fun e => h (Fin.ext e.symm)), if_neg h]

theorem State.half_modHalf (k x : Half) (u : HalfS → HalfS) : (s.modHalf k u).half x = if x = k then u (s.half k) else s.half x :=
  get_set_vector s.halves k x (u (s.half k))
@[simp] theorem State.half_modHalf_self (k : Half) (u : HalfS → HalfS) : (s.modHalf k u).half k = u (s.half k) := by simp [State.half_modHalf]
theorem State.group_modGroup (k x : Group) (u : GroupS → GroupS) : (s.modGroup k u).group x = if x = k then u (s.group k) else s.group x :=
  get_set_vector s.groups k x (u (s.group k))
@[simp] theorem State.group_modGroup_self (k : Group) (u : GroupS → GroupS) : (s.modGroup k u).group k = u (s.group k) := by simp [State.group_modGroup]
theorem State.port_modPort (k x : Lane) (u : PortS → PortS) : (s.modPort k u).port x = if x = k then u (s.port k) else s.port x :=
  get_set_vector s.ports k x (u (s.port k))
@[simp] theorem State.port_modPort_self (k : Lane) (u : PortS → PortS) : (s.modPort k u).port k = u (s.port k) := by simp [State.port_modPort]
theorem State.lane_modLane (k x : Lane) (u : LaneS → LaneS) : (s.modLane k u).lane x = if x = k then u (s.lane k) else s.lane x :=
  get_set_vector s.lanes k x (u (s.lane k))
@[simp] theorem State.lane_modLane_self (k : Lane) (u : LaneS → LaneS) : (s.modLane k u).lane k = u (s.lane k) := by simp [State.lane_modLane]
theorem State.hlane_modHlane (k x : HLane) (u : HLaneS → HLaneS) : (s.modHlane k u).hlane x = if x = k then u (s.hlane k) else s.hlane x :=
  get_set_vector s.hlanes k x (u (s.hlane k))
@[simp] theorem State.hlane_modHlane_self (k : HLane) (u : HLaneS → HLaneS) : (s.modHlane k u).hlane k = u (s.hlane k) := by simp [State.hlane_modHlane]
theorem State.ctx_modCtx (k x : Ctx) (u : CtxS → CtxS) : (s.modCtx k u).ctx x = if x = k then u (s.ctx k) else s.ctx x :=
  get_set_vector s.ctxs k x (u (s.ctx k))
@[simp] theorem State.ctx_modCtx_self (k : Ctx) (u : CtxS → CtxS) : (s.modCtx k u).ctx k = u (s.ctx k) := by simp [State.ctx_modCtx]
theorem State.chan_modChan (k x : Chan) (u : ChanS → ChanS) : (s.modChan k u).chan x = if x = k then u (s.chan k) else s.chan x :=
  get_set_vector s.chans k x (u (s.chan k))
@[simp] theorem State.chan_modChan_self (k : Chan) (u : ChanS → ChanS) : (s.modChan k u).chan k = u (s.chan k) := by simp [State.chan_modChan]
theorem State.sequ_modSeq (k x : SeqN) (u : SeqS → SeqS) : (s.modSeq k u).sequ x = if x = k then u (s.sequ k) else s.sequ x :=
  get_set_vector s.seqs k x (u (s.sequ k))
@[simp] theorem State.sequ_modSeq_self (k : SeqN) (u : SeqS → SeqS) : (s.modSeq k u).sequ k = u (s.sequ k) := by simp [State.sequ_modSeq]
theorem State.chain_modChain (k x : ChainN) (u : ChainS → ChainS) : (s.modChain k u).chain x = if x = k then u (s.chain k) else s.chain x :=
  get_set_vector s.chains k x (u (s.chain k))
@[simp] theorem State.chain_modChain_self (k : ChainN) (u : ChainS → ChainS) : (s.modChain k u).chain k = u (s.chain k) := by simp [State.chain_modChain]
theorem State.die_modDie (k x : DieSensor) (u : SensS → SensS) : (s.modDie k u).die x = if x = k then u (s.die k) else s.die x :=
  get_set_vector s.dies k x (u (s.die k))
@[simp] theorem State.die_modDie_self (k : DieSensor) (u : SensS → SensS) : (s.modDie k u).die k = u (s.die k) := by simp [State.die_modDie]
theorem State.eng_modEng (k x : EngSensor) (u : SensS → SensS) : (s.modEng k u).eng x = if x = k then u (s.eng k) else s.eng x :=
  get_set_vector s.engs k x (u (s.eng k))
@[simp] theorem State.eng_modEng_self (k : EngSensor) (u : SensS → SensS) : (s.modEng k u).eng k = u (s.eng k) := by simp [State.eng_modEng]
theorem State.knd_modKnd (k x : Knd) (u : KndS → KndS) : (s.modKnd k u).knd x = if x = k then u (s.knd k) else s.knd x :=
  get_set_vector s.knds k x (u (s.knd k))
@[simp] theorem State.knd_modKnd_self (k : Knd) (u : KndS → KndS) : (s.modKnd k u).knd k = u (s.knd k) := by simp [State.knd_modKnd]
theorem State.fi_modFi (k x : Fin 32) (u : FiS → FiS) : (s.modFi k u).fi x = if x = k then u (s.fi k) else s.fi x :=
  get_set_vector s.fis k x (u (s.fi k))
@[simp] theorem State.fi_modFi_self (k : Fin 32) (u : FiS → FiS) : (s.modFi k u).fi k = u (s.fi k) := by simp [State.fi_modFi]

/-! ### Folds -/

@[simp] theorem State.each_nil {α : Type} (u : State → α → State) : s.each [] u = s := rfl
@[simp] theorem State.each_cons {α : Type} (x : α) (xs : List α) (u : State → α → State) :
    s.each (x :: xs) u = (u s x).each xs u := rfl

/-- A property that every step of a fold keeps holds after it. -/
theorem State.each_keeps {α : Type} {P : State → Prop} {u : State → α → State} {xs : List α} {s : State}
    (h : ∀ t x, x ∈ xs → P t → P (u t x)) (h0 : P s) : P (s.each xs u) := by
  induction xs generalizing s with
  | nil => exact h0
  | cons x xs ih => exact ih (fun t y hy => h t y (List.mem_cons_of_mem _ hy)) (h s x (by simp) h0)

/-! ### The canonical form -/

theorem State.wf_f_put (g : Fld) (j v : Nat) (h : FStore.wf s.f = true) : FStore.wf (s.put g j v).f = true := FStore.wf_put g j v h
theorem State.wf_ap_putApp (g : Fld) (j v : Nat) (h : FStore.wf s.ap = true) : FStore.wf (s.putApp g j v).ap = true :=
  FStore.wf_put g j v h

end Sys2Proof.Machine
end

