-- ==== Sys2Proof/Laws/Same.lean ====
section
/-! SUPPORT. What the end of a step, a raised event and a completion leave alone. `SameBut` is an equivalence; so each operation that keeps it may be
dropped from either side, and the laws below say so for the small updates and then for every operation made of them. -/

namespace Sys2Proof.SameBut

open Machine

variable {W : Fld → Bool} {s t : State}

theorem refl (W : Fld → Bool) (s : State) : SameBut W s s := by constructor <;> simp

theorem trans {r : State} (a : SameBut W s t) (b : SameBut W t r) : SameBut W s r := by
  constructor <;> simp_all [a.get, b.get, a.half, b.half, a.group, b.group, a.port, b.port, a.lane, b.lane, a.hlane, b.hlane, a.chan, b.chan,
    a.ap, b.ap, a.written, b.written, a.units, b.units, a.rams, b.rams, a.rest, b.rest, a.memory, b.memory, a.pins, b.pins, a.pending, b.pending]

theorem symm (a : SameBut W s t) : SameBut W t s := by
  refine ⟨fun f i h => (a.get f i h).symm, ?_, ?_, ?_, ?_, ?_, ?_, ?_, ?_, ?_, ?_, ?_, ?_, ?_, ?_⟩ <;> simp [a.half, a.group, a.port, a.lane, a.hlane, a.chan, a.ap, a.written, a.units, a.rams, a.rest, a.memory, a.pins, a.pending]

/-- A larger set of fields. -/
theorem weaken {V : Fld → Bool} (a : SameBut V s t) (h : ∀ f, W f = false → V f = false) : SameBut W s t :=
  { a with get := fun f i k => a.get f i (h f k) }

/-- Two states that agree are alike to a third. -/
theorem iff_of {u : State} (h : SameBut W t u) : SameBut W s u ↔ SameBut W s t := ⟨fun a => a.trans h.symm, fun a => a.trans h⟩

theorem refl_iff : SameBut W s s ↔ True := iff_true_intro (refl W s)

theorem ite_iff {c : Prop} [Decidable c] {a b : State} : SameBut W s (if c then a else b) ↔ if c then SameBut W s a else SameBut W s b := by
  split <;> rfl

theorem put_iff {g : Fld} (h : W g = true) (j v : Nat) : SameBut W s (t.put g j v) ↔ SameBut W s t :=
  iff_of { refl W t with get := fun f _ k => State.get_put_of_ne t (fun e : f = g => by rw [e, h] at k; cases k) _ j v }

theorem flag_iff {g : Fld} (h : W g = true) (j : Nat) : SameBut W s (t.flag g j) ↔ SameBut W s t := put_iff h j 1

theorem putBool_iff {g : Fld} (h : W g = true) (j : Nat) (b : Bool) : SameBut W s (t.putBool g j b) ↔ SameBut W s t := put_iff h j _

theorem incSat_iff {g : Fld} (h : W g = true) (j n : Nat) : SameBut W s (t.incSat g j n) ↔ SameBut W s t := put_iff h j _

theorem emit_iff (o : Out) : SameBut W s (t.emit o) ↔ SameBut W s t := iff_of { refl W t with }

theorem modBridge_iff (u : BridgeS → BridgeS) : SameBut W s (t.modBridge u) ↔ SameBut W s t := iff_of { refl W t with }

theorem draw_iff : SameBut W s t.draw.2 ↔ SameBut W s t := iff_of { refl W t with }

theorem capture_iff (m : Ram) : SameBut W s { t with capture := m } ↔ SameBut W s t := iff_of { refl W t with }

theorem modCtx_iff (x : Ctx) (u : CtxS → CtxS) : SameBut W s (t.modCtx x u) ↔ SameBut W s t := iff_of { refl W t with }


theorem modHalf_iff (k : Half) {u : HalfS → HalfS} (h : ∀ y, (u y).base = y.base) : SameBut W s (t.modHalf k u) ↔ SameBut W s t :=
  iff_of { refl W t with half := fun x => by rw [State.half_modHalf]; split <;> simp_all }

theorem modGroup_iff (k : Group) {u : GroupS → GroupS} (h : ∀ y, (u y).base = y.base) : SameBut W s (t.modGroup k u) ↔ SameBut W s t :=
  iff_of { refl W t with group := fun x => by rw [State.group_modGroup]; split <;> simp_all }

theorem modLane_iff (k : Lane) {u : LaneS → LaneS} (h : ∀ y, (u y).base = y.base) : SameBut W s (t.modLane k u) ↔ SameBut W s t :=
  iff_of { refl W t with lane := fun x => by rw [State.lane_modLane]; split <;> simp_all }

theorem modHlane_iff (k : HLane) {u : HLaneS → HLaneS} (h : ∀ y, (u y).base = y.base) : SameBut W s (t.modHlane k u) ↔ SameBut W s t :=
  iff_of { refl W t with hlane := fun x => by rw [State.hlane_modHlane]; split <;> simp_all }

theorem modChan_iff (k : Chan) {u : ChanS → ChanS} (h : ∀ y, { u y with rest := true } = { y with rest := true }) : SameBut W s (t.modChan k u) ↔ SameBut W s t :=
  iff_of { refl W t with chan := fun x => by rw [State.chan_modChan]; split <;> simp_all }

theorem modPort_iff (k : Lane) {u : PortS → PortS} (h : ∀ y, (u y).fences = y.fences ∧ (u y).txDisable = y.txDisable) : SameBut W s (t.modPort k u) ↔ SameBut W s t :=
  iff_of { refl W t with port := fun x => by rw [State.port_modPort]; split <;> simp_all }

theorem each_after {α : Type} {u : State → α → State} {xs : List α} (a : SameBut W s t) (h : ∀ t x, SameBut W t (u t x)) :
    SameBut W s (t.each xs u) :=
  State.each_keeps (P := fun r => SameBut W s r) (fun r x _ b => b.trans (h r x)) a

theorem each_iff {α : Type} {u : State → α → State} (xs : List α) (h : ∀ t x, SameBut W t (u t x)) :
    SameBut W s (t.each xs u) ↔ SameBut W s t := iff_of ((refl W t).each_after h)

end Sys2Proof.SameBut

namespace Sys2Proof.Machine

open SameBut

/-! ### Counting -/

theorem perfAdd_same (s : State) (b fuel j n : Nat) : SameBut Fld.follows s (s.perfAdd b fuel j n) := by
  induction fuel generalizing s j n with
  | zero => exact SameBut.refl _ _
  | succ k ih =>
    rw [State.perfAdd]
    simp (disch := decide) only [ite_iff, put_iff, refl_iff, iff_of (ih _ _ _), ite_self]

theorem perf_same (s : State) (b e n : Nat) : SameBut Fld.follows s (s.perf b e n) :=
  (SameBut.refl _ s).each_after (xs := List.range 8) (u := fun s j =>
    if s.isSet .PERF_SEL_EN (b * 8 + j) && (j == 0 || !s.isSet .PERF_SEL_CHAIN (b * 8 + j)) && s.get .PERF_SEL_EVT (b * 8 + j) == e
    then s.perfAdd b 8 j n else s) fun t j => by simp only [ite_iff, refl_iff, iff_of (perfAdd_same t b 8 j n), ite_self]

theorem perf_iff {s t : State} (b e n : Nat) : SameBut Fld.follows s (t.perf b e n) ↔ SameBut Fld.follows s t := iff_of (perf_same t b e n)

theorem perfHalf_same (s : State) (h : Half) (e n : Nat) : SameBut Fld.follows s (s.perfHalf h e n) := perf_same _ _ _ _

theorem perfHalf_iff {s t : State} (h : Half) (e n : Nat) : SameBut Fld.follows s (t.perfHalf h e n) ↔ SameBut Fld.follows s t :=
  iff_of (perfHalf_same t h e n)

theorem perfLane_same (s : State) (l : Lane) (e : Nat) (n : Nat) : SameBut Fld.follows s (s.perfLane l e n) := by
  unfold State.perfLane
  simp (disch := first | decide | with_unfolding_all exact id fun _ => rfl | exact id fun _ => ⟨rfl, rfl⟩) only [ite_iff, refl_iff, ite_self, perf_iff]

theorem perfLane_iff {s t : State} (l : Lane) (e : Nat) (n : Nat) : SameBut Fld.follows s (t.perfLane l e n) ↔ SameBut Fld.follows s t :=
  iff_of (perfLane_same t l e n)

/-! ### Events and completions -/

theorem signal_same (s : State) (h : Half) (v : Nat) : SameBut Fld.follows s (s.signal h v) := by
  unfold State.signal
  simp (disch := first | decide | with_unfolding_all exact id fun _ => rfl | exact id fun _ => ⟨rfl, rfl⟩) only [ite_iff, refl_iff, ite_self, emit_iff, modHalf_iff, perf_iff]

theorem signal_iff {s t : State} (h : Half) (v : Nat) : SameBut Fld.follows s (t.signal h v) ↔ SameBut Fld.follows s t :=
  iff_of (signal_same t h v)

theorem sevHit_same (s : State) (h : Half) : SameBut Fld.follows s (s.hifFlag h .HIF_SEV_HIT) := by
  unfold State.hifFlag
  simp (disch := first | decide | with_unfolding_all exact id fun _ => rfl | exact id fun _ => ⟨rfl, rfl⟩) only [ite_iff, refl_iff, ite_self, flag_iff, signal_iff]

theorem sevHit_iff {s t : State} (h : Half) : SameBut Fld.follows s (t.hifFlag h .HIF_SEV_HIT) ↔ SameBut Fld.follows s t :=
  iff_of (sevHit_same t h)

theorem raise_same (s : State) (h : Half) (e : Ev) : SameBut Fld.follows s (s.raise h e) := by
  unfold State.raise
  simp (disch := first | decide | with_unfolding_all exact id fun _ => rfl | exact id fun _ => ⟨rfl, rfl⟩) only [ite_iff, refl_iff, ite_self, modBridge_iff, modHalf_iff, perfHalf_iff, sevHit_iff]

theorem raise_iff {s t : State} (h : Half) (e : Ev) : SameBut Fld.follows s (t.raise h e) ↔ SameBut Fld.follows s t :=
  iff_of (raise_same t h e)

/-- The mark of one ring is no part of what stays. -/
theorem freeRing_same (s : State) (h : Half) (q : Nat) : SameBut Fld.follows s (s.freeRing h q) := by
  refine (modHalf_iff h fun y => ?_).2 (SameBut.refl _ s)
  have e : (y.rings.setIfInBounds q { (y.rings[q]?.getD {}) with busy := false }).map (fun r => { r with busy := false })
      = y.rings.map fun r : RingS => { r with busy := false } := by
    apply Vector.ext
    intro k hk
    rw [Vector.getElem_map, Vector.getElem_setIfInBounds, Vector.getElem_map]
    by_cases c : q = k <;> simp [c, hk]
  simp only [HalfS.base, e]

theorem freeRing_iff {s t : State} (h : Half) (q : Nat) : SameBut Fld.follows s (t.freeRing h q) ↔ SameBut Fld.follows s t :=
  iff_of (freeRing_same t h q)

theorem complete_same (s : State) (c : Cmd) (r : Res) : SameBut Fld.follows s (s.complete c r) := by
  unfold State.complete
  simp (disch := first | decide | with_unfolding_all exact id fun _ => rfl | exact id fun _ => ⟨rfl, rfl⟩) only [ite_iff, refl_iff, ite_self, freeRing_iff, modBridge_iff, modHalf_iff, perfHalf_iff, raise_iff]

theorem complete_iff {s t : State} (c : Cmd) (r : Res) : SameBut Fld.follows s (t.complete c r) ↔ SameBut Fld.follows s t :=
  iff_of (complete_same t c r)

/-! ### Line lanes -/

theorem endRamp_same (s : State) (l : Lane) : SameBut Fld.follows s (s.endRamp l) :=
  ((modLane_iff l (u := fun x => { x with ramp := false }) fun _ => rfl).2 (SameBut.refl _ s)).each_after fun t h =>
    (modHalf_iff h (u := fun x => { x with commits := x.commits.map _ }) fun _ => rfl).2 (SameBut.refl _ t)

theorem endRamp_iff {s t : State} (l : Lane) : SameBut Fld.follows s (t.endRamp l) ↔ SameBut Fld.follows s t := iff_of (endRamp_same t l)

theorem setDecoder_same (s : State) (l : Lane) (d : Nat) : SameBut Fld.follows s (s.setDecoder l d) := by
  unfold State.setDecoder
  simp (disch := first | decide | with_unfolding_all exact id fun _ => rfl | exact id fun _ => ⟨rfl, rfl⟩) only [ite_iff, refl_iff, ite_self, flag_iff, put_iff]

theorem setDecoder_iff {s t : State} (l : Lane) (d : Nat) : SameBut Fld.follows s (t.setDecoder l d) ↔ SameBut Fld.follows s t :=
  iff_of (setDecoder_same t l d)

theorem setCwLock_same (s : State) (l : Lane) (b : Bool) : SameBut Fld.follows s (s.setCwLock l b) := by
  unfold State.setCwLock
  simp (disch := first | decide | with_unfolding_all exact id fun _ => rfl | exact id fun _ => ⟨rfl, rfl⟩) only [ite_iff, refl_iff, ite_self, flag_iff, putBool_iff]

theorem setCwLock_iff {s t : State} (l : Lane) (b : Bool) : SameBut Fld.follows s (t.setCwLock l b) ↔ SameBut Fld.follows s t :=
  iff_of (setCwLock_same t l b)

theorem abandonSlice_same (s : State) (l : Lane) : SameBut Fld.follows s (s.abandonSlice l) := by
  unfold State.abandonSlice
  simp (disch := first | decide | with_unfolding_all exact id fun _ => rfl | exact id fun _ => ⟨rfl, rfl⟩) only [ite_iff, refl_iff, ite_self, flag_iff, modGroup_iff, put_iff]

theorem abandonSlice_iff {s t : State} (l : Lane) : SameBut Fld.follows s (t.abandonSlice l) ↔ SameBut Fld.follows s t :=
  iff_of (abandonSlice_same t l)

theorem cancelSwaps_same (s : State) (l : Lane) : SameBut Fld.follows s (s.cancelSwaps l) := by
  unfold State.cancelSwaps
  try dsimp only
  split <;>
    simp (disch := first | decide | with_unfolding_all exact id fun _ => rfl | exact id fun _ => ⟨rfl, rfl⟩) only [refl_iff, complete_iff, modLane_iff, put_iff]

theorem cancelSwaps_iff {s t : State} (l : Lane) : SameBut Fld.follows s (t.cancelSwaps l) ↔ SameBut Fld.follows s t :=
  iff_of (cancelSwaps_same t l)

theorem endData_same (s : State) (l : Lane) : SameBut Fld.follows s (s.endData l) := by
  unfold State.endData
  simp (disch := first | decide | with_unfolding_all exact id fun _ => rfl | exact id fun _ => ⟨rfl, rfl⟩) only [ite_iff, refl_iff, ite_self, abandonSlice_iff, cancelSwaps_iff, endRamp_iff, flag_iff, incSat_iff, modLane_iff, put_iff, setCwLock_iff, setDecoder_iff]

theorem endData_iff {s t : State} (l : Lane) : SameBut Fld.follows s (t.endData l) ↔ SameBut Fld.follows s t :=
  iff_of (endData_same t l)

theorem clearAcq_same (s : State) (l : Lane) : SameBut Fld.follows s (s.clearAcq l) := by
  unfold State.clearAcq
  simp (disch := first | decide | with_unfolding_all exact id fun _ => rfl | exact id fun _ => ⟨rfl, rfl⟩) only [refl_iff, modLane_iff, put_iff]

theorem clearAcq_iff {s t : State} (l : Lane) : SameBut Fld.follows s (t.clearAcq l) ↔ SameBut Fld.follows s t :=
  iff_of (clearAcq_same t l)

theorem startAdapt_same (s : State) (l : Lane) : SameBut Fld.follows s (s.startAdapt l) := by
  unfold State.startAdapt
  simp (disch := first | decide | with_unfolding_all exact id fun _ => rfl | exact id fun _ => ⟨rfl, rfl⟩) only [refl_iff, modLane_iff, put_iff]

theorem startAdapt_iff {s t : State} (l : Lane) : SameBut Fld.follows s (t.startAdapt l) ↔ SameBut Fld.follows s t :=
  iff_of (startAdapt_same t l)

theorem freshLock_same (s : State) (l : Lane) : SameBut Fld.follows s (s.freshLock l) := by
  unfold State.freshLock
  simp (disch := first | decide | with_unfolding_all exact id fun _ => rfl | exact id fun _ => ⟨rfl, rfl⟩) only [ite_iff, refl_iff, ite_self, setCwLock_iff]

theorem freshLock_iff {s t : State} (l : Lane) : SameBut Fld.follows s (t.freshLock l) ↔ SameBut Fld.follows s t :=
  iff_of (freshLock_same t l)

theorem toIdle_same (s : State) (l : Lane) : SameBut Fld.follows s (s.toIdle l) := by
  unfold State.toIdle
  simp (disch := first | decide | with_unfolding_all exact id fun _ => rfl | exact id fun _ => ⟨rfl, rfl⟩) only [refl_iff, clearAcq_iff, endData_iff, modLane_iff, put_iff, setCwLock_iff]

theorem toIdle_iff {s t : State} (l : Lane) : SameBut Fld.follows s (t.toIdle l) ↔ SameBut Fld.follows s t :=
  iff_of (toIdle_same t l)

theorem toLink_same (s : State) (l : Lane) : SameBut Fld.follows s (s.toLink l) := by
  unfold State.toLink
  simp (disch := first | decide | with_unfolding_all exact id fun _ => rfl | exact id fun _ => ⟨rfl, rfl⟩) only [refl_iff, clearAcq_iff, endData_iff, freshLock_iff, modLane_iff, put_iff, startAdapt_iff]

theorem toLink_iff {s t : State} (l : Lane) : SameBut Fld.follows s (t.toLink l) ↔ SameBut Fld.follows s t :=
  iff_of (toLink_same t l)

theorem toBlind_same (s : State) (l : Lane) : SameBut Fld.follows s (s.toBlind l) := by
  unfold State.toBlind
  simp (disch := first | decide | with_unfolding_all exact id fun _ => rfl | exact id fun _ => ⟨rfl, rfl⟩) only [refl_iff, clearAcq_iff, endData_iff, freshLock_iff, modLane_iff, put_iff, startAdapt_iff]

theorem toBlind_iff {s t : State} (l : Lane) : SameBut Fld.follows s (t.toBlind l) ↔ SameBut Fld.follows s t :=
  iff_of (toBlind_same t l)

theorem acquire_same (s : State) (l : Lane) : SameBut Fld.follows s (s.acquire l) := by
  unfold State.acquire
  simp (disch := first | decide | with_unfolding_all exact id fun _ => rfl | exact id fun _ => ⟨rfl, rfl⟩) only [ite_iff, refl_iff, ite_self, toBlind_iff, toLink_iff]

theorem acquire_iff {s t : State} (l : Lane) : SameBut Fld.follows s (t.acquire l) ↔ SameBut Fld.follows s t :=
  iff_of (acquire_same t l)

theorem settleLane_same (s : State) (l : Lane) : SameBut Fld.follows s (s.settleLane l) := by
  unfold State.settleLane
  simp (disch := first | decide | with_unfolding_all exact id fun _ => rfl | exact id fun _ => ⟨rfl, rfl⟩) only [ite_iff, refl_iff, ite_self, acquire_iff, toIdle_iff]

theorem settleLane_iff {s t : State} (l : Lane) : SameBut Fld.follows s (t.settleLane l) ↔ SameBut Fld.follows s t :=
  iff_of (settleLane_same t l)

/-! ### Host lanes, ports, lasers -/

theorem setStage_same (s : State) (x : HLane) (n : Nat) : SameBut Fld.follows s (s.setStage x n) := by
  unfold State.setStage
  simp (disch := first | decide | with_unfolding_all exact id fun _ => rfl | exact id fun _ => ⟨rfl, rfl⟩) only [ite_iff, refl_iff, ite_self, flag_iff, modHlane_iff, put_iff]

theorem setStage_iff {s t : State} (x : HLane) (n : Nat) : SameBut Fld.follows s (t.setStage x n) ↔ SameBut Fld.follows s t :=
  iff_of (setStage_same t x n)

theorem settleHost_same (s : State) (x : HLane) : SameBut Fld.follows s (s.settleHost x) := by
  unfold State.settleHost
  simp (disch := first | decide | with_unfolding_all exact id fun _ => rfl | exact id fun _ => ⟨rfl, rfl⟩) only [ite_iff, refl_iff, ite_self, modHlane_iff, setStage_iff]

theorem settleHost_iff {s t : State} (x : HLane) : SameBut Fld.follows s (t.settleHost x) ↔ SameBut Fld.follows s t :=
  iff_of (settleHost_same t x)

theorem measureSkew_same (s : State) (p : Lane) : SameBut Fld.follows s (s.measureSkew p) := by
  unfold State.measureSkew
  simp (disch := decide) only [ite_iff, refl_iff, put_iff, draw_iff, ite_self]

theorem measureSkew_iff {s t : State} (p : Lane) : SameBut Fld.follows s (t.measureSkew p) ↔ SameBut Fld.follows s t :=
  iff_of (measureSkew_same t p)

theorem settlePort_same (s : State) (p : Lane) : SameBut Fld.follows s (s.settlePort p) := by
  unfold State.settlePort
  simp (disch := first | decide | with_unfolding_all exact id fun _ => rfl | exact id fun _ => ⟨rfl, rfl⟩) only [ite_iff, refl_iff, ite_self, flag_iff, measureSkew_iff, modPort_iff, putBool_iff, put_iff]

theorem settlePort_iff {s t : State} (p : Lane) : SameBut Fld.follows s (t.settlePort p) ↔ SameBut Fld.follows s t :=
  iff_of (settlePort_same t p)

theorem settleRot_same (s : State) (l : Lane) : SameBut Fld.follows s (s.settleRot l) := by
  unfold State.settleRot
  simp (disch := first | decide | with_unfolding_all exact id fun _ => rfl | exact id fun _ => ⟨rfl, rfl⟩) only [refl_iff, putBool_iff]

theorem settleRot_iff {s t : State} (l : Lane) : SameBut Fld.follows s (t.settleRot l) ↔ SameBut Fld.follows s t :=
  iff_of (settleRot_same t l)

theorem settleApr_same (s : State) (l : Lane) : SameBut Fld.follows s (s.settleApr l) := by
  unfold State.settleApr
  simp (disch := first | decide | with_unfolding_all exact id fun _ => rfl | exact id fun _ => ⟨rfl, rfl⟩) only [ite_iff, refl_iff, ite_self, flag_iff, modLane_iff, raise_iff]

theorem settleApr_iff {s t : State} (l : Lane) : SameBut Fld.follows s (t.settleApr l) ↔ SameBut Fld.follows s t :=
  iff_of (settleApr_same t l)

theorem settleDark_same (s : State) (l : Lane) : SameBut Fld.follows s (s.settleDark l) := by
  unfold State.settleDark
  simp (disch := first | decide | with_unfolding_all exact id fun _ => rfl | exact id fun _ => ⟨rfl, rfl⟩) only [refl_iff, modLane_iff]

theorem settleDark_iff {s t : State} (l : Lane) : SameBut Fld.follows s (t.settleDark l) ↔ SameBut Fld.follows s t :=
  iff_of (settleDark_same t l)

theorem settlePulse_same (s : State) (l : Lane) : SameBut Fld.follows s (s.settlePulse l) := by
  unfold State.settlePulse
  simp (disch := first | decide | with_unfolding_all exact id fun _ => rfl | exact id fun _ => ⟨rfl, rfl⟩) only [refl_iff, put_iff]

theorem settlePulse_iff {s t : State} (l : Lane) : SameBut Fld.follows s (t.settlePulse l) ↔ SameBut Fld.follows s t :=
  iff_of (settlePulse_same t l)

theorem finishCommit_same (s : State) (c : PendCommit) : SameBut Fld.follows s (s.finishCommit c) := by
  unfold State.finishCommit
  try dsimp only
  split <;>
    simp (disch := first | decide | with_unfolding_all exact id fun _ => rfl | exact id fun _ => ⟨rfl, rfl⟩) only [refl_iff, complete_iff]

theorem finishCommit_iff {s t : State} (c : PendCommit) : SameBut Fld.follows s (t.finishCommit c) ↔ SameBut Fld.follows s t :=
  iff_of (finishCommit_same t c)

theorem settleCommits_same (s : State) (h : Half) : SameBut Fld.follows s (s.settleCommits h) :=
  ((modHalf_iff h (u := fun x => { x with commits := x.commits.filter _ }) fun _ => rfl).2 (SameBut.refl _ s)).each_after finishCommit_same

theorem forceBias_same (s : State) (c : Chan) : SameBut Fld.follows s (s.forceBias c) := by
  unfold State.forceBias
  simp (disch := first | decide | with_unfolding_all exact id fun _ => rfl | exact id fun _ => ⟨rfl, rfl⟩) only [refl_iff, modChan_iff, put_iff]

theorem forceBias_iff {s t : State} (c : Chan) : SameBut Fld.follows s (t.forceBias c) ↔ SameBut Fld.follows s t :=
  iff_of (forceBias_same t c)

theorem settleLaser_same (s : State) (l : Lane) : SameBut Fld.follows s (s.settleLaser l) := by
  unfold State.settleLaser
  simp (disch := first | decide | with_unfolding_all exact id fun _ => rfl | exact id fun _ => ⟨rfl, rfl⟩) only [ite_iff, refl_iff, ite_self, forceBias_iff, modLane_iff, putBool_iff, put_iff]

theorem settleLaser_iff {s t : State} (l : Lane) : SameBut Fld.follows s (t.settleLaser l) ↔ SameBut Fld.follows s t :=
  iff_of (settleLaser_same t l)

/-! ### Contexts -/

theorem endInjection_same (s : State) (x : Ctx) : SameBut Fld.follows s (s.endInjection x) := by
  unfold State.endInjection
  simp (disch := first | decide | with_unfolding_all exact id fun _ => rfl | exact id fun _ => ⟨rfl, rfl⟩) only [ite_iff, refl_iff, ite_self, modGroup_iff, put_iff]

theorem endInjection_iff {s t : State} (x : Ctx) : SameBut Fld.follows s (t.endInjection x) ↔ SameBut Fld.follows s t :=
  iff_of (endInjection_same t x)

theorem capTrigger_same (s : State) (x : Ctx) (w : Nat) : SameBut Fld.follows s (s.capTrigger x w) := by
  unfold State.capTrigger
  dsimp only
  split
  · simp (disch := first | decide | with_unfolding_all exact id fun _ => rfl) only [modGroup_iff, put_iff]
    exact (SameBut.refl _ s).each_after fun t _ => (capture_iff _).2 (SameBut.refl _ t)
  · exact SameBut.refl _ _

theorem capTrigger_iff {s t : State} (x : Ctx) (w : Nat) : SameBut Fld.follows s (t.capTrigger x w) ↔ SameBut Fld.follows s t :=
  iff_of (capTrigger_same t x w)

theorem setCtxState_same (s : State) (x : Ctx) (n : Nat) (m : Nat) : SameBut Fld.follows s (s.setCtxState x n m) := by
  unfold State.setCtxState
  simp (disch := first | decide | with_unfolding_all exact id fun _ => rfl | exact id fun _ => ⟨rfl, rfl⟩) only [refl_iff, put_iff]

theorem setCtxState_iff {s t : State} (x : Ctx) (n : Nat) (m : Nat) : SameBut Fld.follows s (t.setCtxState x n m) ↔ SameBut Fld.follows s t :=
  iff_of (setCtxState_same t x n m)

theorem startCtx_same (s : State) (x : Ctx) : SameBut Fld.follows s (s.startCtx x) := by
  unfold State.startCtx
  simp (disch := first | decide | with_unfolding_all exact id fun _ => rfl | exact id fun _ => ⟨rfl, rfl⟩) only [refl_iff, modCtx_iff, setCtxState_iff]

theorem startCtx_iff {s t : State} (x : Ctx) : SameBut Fld.follows s (t.startCtx x) ↔ SameBut Fld.follows s t :=
  iff_of (startCtx_same t x)

theorem holdExt_same (s : State) (x : Ctx) (n : Nat) : SameBut Fld.follows s (s.holdExt x n) := by
  unfold State.holdExt
  simp (disch := first | decide | with_unfolding_all exact id fun _ => rfl | exact id fun _ => ⟨rfl, rfl⟩) only [refl_iff, capTrigger_iff, endInjection_iff, modCtx_iff, setCtxState_iff]

theorem holdExt_iff {s t : State} (x : Ctx) (n : Nat) : SameBut Fld.follows s (t.holdExt x n) ↔ SameBut Fld.follows s t :=
  iff_of (holdExt_same t x n)

theorem settleRunning_same (s : State) (x : Ctx) : SameBut Fld.follows s (s.settleRunning x) := by
  unfold State.settleRunning
  simp (disch := first | decide | with_unfolding_all exact id fun _ => rfl | exact id fun _ => ⟨rfl, rfl⟩) only [ite_iff, refl_iff, ite_self, holdExt_iff, modCtx_iff, put_iff, setCtxState_iff, startCtx_iff]

theorem settleRunning_iff {s t : State} (x : Ctx) : SameBut Fld.follows s (t.settleRunning x) ↔ SameBut Fld.follows s t :=
  iff_of (settleRunning_same t x)

theorem settleCtx_same (s : State) (x : Ctx) : SameBut Fld.follows s (s.settleCtx x) := by
  unfold State.settleCtx
  simp (disch := first | decide | with_unfolding_all exact id fun _ => rfl | exact id fun _ => ⟨rfl, rfl⟩) only [ite_iff, refl_iff, ite_self, endInjection_iff, modCtx_iff, setCtxState_iff, settleRunning_iff]

theorem settleCtx_iff {s t : State} (x : Ctx) : SameBut Fld.follows s (t.settleCtx x) ↔ SameBut Fld.follows s t :=
  iff_of (settleCtx_same t x)

theorem settleMaps_same (s : State) (g : Group) : SameBut Fld.follows s (s.settleMaps g) := by
  unfold State.settleMaps
  simp (disch := first | decide | with_unfolding_all exact id fun _ => rfl | exact id fun _ => ⟨rfl, rfl⟩) only [refl_iff, put_iff]

theorem settleMaps_iff {s t : State} (g : Group) : SameBut Fld.follows s (t.settleMaps g) ↔ SameBut Fld.follows s t :=
  iff_of (settleMaps_same t g)

theorem settleAlert_same (s : State) (h : Half) : SameBut Fld.follows s (s.settleAlert h) := by
  unfold State.settleAlert
  simp (disch := first | decide | with_unfolding_all exact id fun _ => rfl | exact id fun _ => ⟨rfl, rfl⟩) only [refl_iff, putBool_iff]

theorem settleAlert_iff {s t : State} (h : Half) : SameBut Fld.follows s (t.settleAlert h) ↔ SameBut Fld.follows s t :=
  iff_of (settleAlert_same t h)

/-! ### The end of a step -/

/-- The end of a step writes the fields that follow, and of the units' structures only what follows. -/
theorem settle_same (s : State) : SameBut Fld.follows s (settle s) :=
  (SameBut.refl Fld.follows s).each_after settleLane_same |>.each_after settleHost_same |>.each_after settlePort_same
    |>.each_after settleRot_same |>.each_after settleApr_same |>.each_after settleDark_same |>.each_after settlePulse_same |>.each_after settleCommits_same
    |>.each_after settleLaser_same |>.each_after settleCtx_same |>.each_after settleMaps_same |>.each_after settleAlert_same

/-- A field that does not follow reads after the end of a step as before it. -/
theorem settle_get {f : Fld} (h : f.follows = false) (s : State) (i : Nat) : (settle s).get f i = s.get f i :=
  (settle_same s).get f i h

end Sys2Proof.Machine
end

