-- ==== Sys2Proof/Laws/Settled.lean ====
section
/-! SUPPORT. Every command answers a next state, and that state is a settled one: the shape of every meaning, said once for each. -/

namespace Sys2Proof.Machine

set_option linter.unreachableTactic false
set_option linter.unusedTactic false

/-- The outcome is a next state that has been settled. -/
def Settled (o : Host.Outcome State Fault Refusal) : Prop := ∃ t, o = .next (settle t)

theorem settled_done (t : State) : Settled (done t) := ⟨t, rfl⟩

theorem execRegisterWrite_settled (h : Half) (bar : Bar) (off : BitVec 20) (size : Nat) (v : W32) (s : State) : Settled (execRegisterWrite h bar off size v s) := by
  unfold execRegisterWrite
  repeat' first | with_reducible exact settled_done _ | split | dsimp only
theorem execLowWordReadLatch_settled (h : Half) (rd : HostRead) (s : State) : Settled (execLowWordReadLatch h rd s) := by
  unfold execLowWordReadLatch
  repeat' first | with_reducible exact settled_done _ | split | dsimp only
theorem execHeartbeatSend_settled (h : Half) (s : State) : Settled (execHeartbeatSend h s) := by
  unfold execHeartbeatSend
  repeat' first | with_reducible exact settled_done _ | split | dsimp only
theorem execHeartbeatReceive_settled (h : Half) (beat : Heartbeat) (s : State) : Settled (execHeartbeatReceive h beat s) := by
  unfold execHeartbeatReceive
  repeat' first | with_reducible exact settled_done _ | split | dsimp only
theorem execHeartbeatWindowExpiry_settled (h : Half) (s : State) : Settled (execHeartbeatWindowExpiry h s) := by
  unfold execHeartbeatWindowExpiry
  repeat' first | with_reducible exact settled_done _ | split | dsimp only
theorem execReleaseHeartbeatTimeout_settled (h : Half) (s : State) : Settled (execReleaseHeartbeatTimeout h s) := by
  unfold execReleaseHeartbeatTimeout
  repeat' first | with_reducible exact settled_done _ | split | dsimp only
theorem execRejoinTimeStep_settled (s : State) : Settled (execRejoinTimeStep s) := by
  unfold execRejoinTimeStep
  repeat' first | with_reducible exact settled_done _ | split | dsimp only
theorem execCellFail_settled (u : CellUnit) (s : State) : Settled (execCellFail u s) := by
  unfold execCellFail
  repeat' first | with_reducible exact settled_done _ | split | dsimp only
theorem execRefclkLoss_settled (h : Half) (s : State) : Settled (execRefclkLoss h s) := by
  unfold execRefclkLoss
  repeat' first | with_reducible exact settled_done _ | split | dsimp only
theorem execCommitApply_settled (l : Lane) (s : State) : Settled (execCommitApply l s) := by
  unfold execCommitApply
  repeat' first | with_reducible exact settled_done _ | split | dsimp only
theorem execSnapshotLatch_settled (h : Half) (s : State) : Settled (execSnapshotLatch h s) := by
  unfold execSnapshotLatch
  repeat' first | with_reducible exact settled_done _ | split | dsimp only
theorem execSwingRampStep_settled (l : Lane) (s : State) : Settled (execSwingRampStep l s) := by
  unfold execSwingRampStep
  repeat' first | with_reducible exact settled_done _ | split | dsimp only
theorem execSegmentSwapStart_settled (t : SegStart) (s : State) : Settled (execSegmentSwapStart t s) := by
  unfold execSegmentSwapStart
  repeat' first | with_reducible exact settled_done _ | split | dsimp only
theorem execSegmentSwapComplete_settled (l : Lane) (cal : CalResult) (s : State) : Settled (execSegmentSwapComplete l cal s) := by
  unfold execSegmentSwapComplete
  repeat' first | with_reducible exact settled_done _ | split | dsimp only
theorem execSegmentSwapTimeout_settled (l : Lane) (bothRuns : Bool) (s : State) : Settled (execSegmentSwapTimeout l bothRuns s) := by
  unfold execSegmentSwapTimeout
  repeat' first | with_reducible exact settled_done _ | split | dsimp only
theorem execGainHoldExpiry_settled (l : Lane) (errQ : Int) (s : State) : Settled (execGainHoldExpiry l errQ s) := by
  unfold execGainHoldExpiry
  repeat' first | with_reducible exact settled_done _ | split | dsimp only
theorem execGainStepApply_settled (l : Lane) (s : State) : Settled (execGainStepApply l s) := by
  unfold execGainStepApply
  repeat' first | with_reducible exact settled_done _ | split | dsimp only
theorem execOverloadStep_settled (l : Lane) (clips : Nat) (samples : Nat) (s : State) : Settled (execOverloadStep l clips samples s) := by
  unfold execOverloadStep
  repeat' first | with_reducible exact settled_done _ | split | dsimp only
theorem execSigDetClear_settled (l : Lane) (levelQ : Int) (s : State) : Settled (execSigDetClear l levelQ s) := by
  unfold execSigDetClear
  repeat' first | with_reducible exact settled_done _ | split | dsimp only
theorem execSigDetSet_settled (l : Lane) (levelQ : Int) (s : State) : Settled (execSigDetSet l levelQ s) := by
  unfold execSigDetSet
  repeat' first | with_reducible exact settled_done _ | split | dsimp only
theorem execSubadcRotationStart_settled (l : Lane) (cal : CalResult) (s : State) : Settled (execSubadcRotationStart l cal s) := by
  unfold execSubadcRotationStart
  repeat' first | with_reducible exact settled_done _ | split | dsimp only
theorem execSubadcRotationRetry_settled (l : Lane) (cal : Option CalResult) (s : State) : Settled (execSubadcRotationRetry l cal s) := by
  unfold execSubadcRotationRetry
  repeat' first | with_reducible exact settled_done _ | split | dsimp only
theorem execHandoverEnd_settled (l : Lane) (cmp : HandoverCmp) (s : State) : Settled (execHandoverEnd l cmp s) := by
  unfold execHandoverEnd
  repeat' first | with_reducible exact settled_done _ | split | dsimp only
theorem execSubadcEnsembleCheck_settled (l : Lane) (m : EnsembleMeasure) (s : State) : Settled (execSubadcEnsembleCheck l m s) := by
  unfold execSubadcEnsembleCheck
  repeat' first | with_reducible exact settled_done _ | split | dsimp only
theorem execAdaptBlockEnd_settled (l : Lane) (m : BlockMeasures) (s : State) : Settled (execAdaptBlockEnd l m s) := by
  unfold execAdaptBlockEnd
  repeat' first | with_reducible exact settled_done _ | split | dsimp only
theorem execKneaderUpdate_settled (l : Lane) (k : Knd) (s : State) : Settled (execKneaderUpdate l k s) := by
  unfold execKneaderUpdate
  repeat' first | with_reducible exact settled_done _ | split | dsimp only
theorem execCoeffBankSwap_settled (l : Lane) (s : State) : Settled (execCoeffBankSwap l s) := by
  unfold execCoeffBankSwap
  repeat' first | with_reducible exact settled_done _ | split | dsimp only
theorem execCheckpointTimer_settled (l : Lane) (s : State) : Settled (execCheckpointTimer l s) := by
  unfold execCheckpointTimer
  repeat' first | with_reducible exact settled_done _ | split | dsimp only
theorem execCheckpointRevert_settled (l : Lane) (s : State) : Settled (execCheckpointRevert l s) := by
  unfold execCheckpointRevert
  repeat' first | with_reducible exact settled_done _ | split | dsimp only
theorem execTimingLockSet_settled (l : Lane) (s : State) : Settled (execTimingLockSet l s) := by
  unfold execTimingLockSet
  repeat' first | with_reducible exact settled_done _ | split | dsimp only
theorem execTimingLockLoss_settled (l : Lane) (s : State) : Settled (execTimingLockLoss l s) := by
  unfold execTimingLockLoss
  repeat' first | with_reducible exact settled_done _ | split | dsimp only
theorem execEffortChangeApply_settled (l : Lane) (s : State) : Settled (execEffortChangeApply l s) := by
  unfold execEffortChangeApply
  repeat' first | with_reducible exact settled_done _ | split | dsimp only
theorem execSliceRotationStart_settled (g : Group) (s : State) : Settled (execSliceRotationStart g s) := by
  unfold execSliceRotationStart
  cases s.savesLane g with
  | some l => exact settled_done _
  | none =>
    dsimp only
    split
    · exact settled_done _
    · generalize s.planRotation g = t
      cases t.nextTurn g with
      | none => exact settled_done _
      | some l => dsimp only; split <;> exact settled_done _
theorem execSliceRotationComplete_settled (g : Group) (rxSame : Bool) (txSame : Bool) (s : State) : Settled (execSliceRotationComplete g rxSame txSame s) := by
  unfold execSliceRotationComplete
  repeat' first | with_reducible exact settled_done _ | split | dsimp only
theorem execSliceFail_settled (l : Lane) (s : State) : Settled (execSliceFail l s) := by
  unfold execSliceFail
  repeat' first | with_reducible exact settled_done _ | split | dsimp only
theorem execCaptureWrite_settled (l : Lane) (v : W32) (s : State) : Settled (execCaptureWrite l v s) := by
  unfold execCaptureWrite
  repeat' first | with_reducible exact settled_done _ | split | dsimp only
theorem execEqBankCapture_settled (l : Lane) (s : State) : Settled (execEqBankCapture l s) := by
  unfold execEqBankCapture
  repeat' first | with_reducible exact settled_done _ | split | dsimp only
theorem execCodewordReceive_settled (l : Lane) (cw : RxCodeword) (s : State) : Settled (execCodewordReceive l cw s) := by
  unfold execCodewordReceive
  repeat' first | with_reducible exact settled_done _ | split | dsimp only
theorem execCwLockLoss_settled (l : Lane) (s : State) : Settled (execCwLockLoss l s) := by
  unfold execCwLockLoss
  repeat' first | with_reducible exact settled_done _ | split | dsimp only
theorem execFecClearWrite_settled (l : Lane) (v : W32) (s : State) : Settled (execFecClearWrite l v s) := by
  unfold execFecClearWrite
  repeat' first | with_reducible exact settled_done _ | split | dsimp only
theorem execFecCounterClear_settled (l : Lane) (s : State) : Settled (execFecCounterClear l s) := by
  unfold execFecCounterClear
  repeat' first | with_reducible exact settled_done _ | split | dsimp only
theorem execLatencyMeasured_settled (l : Lane) (txLat : BitVec 16) (rxLat : BitVec 16) (s : State) : Settled (execLatencyMeasured l txLat rxLat s) := by
  unfold execLatencyMeasured
  repeat' first | with_reducible exact settled_done _ | split | dsimp only
theorem execFeqBlockEnd_settled (l : Lane) (codes : List (List Nat)) (phase : Fin 64) (first : W32) (s : State) : Settled (execFeqBlockEnd l codes phase first s) := by
  unfold execFeqBlockEnd
  repeat' first | with_reducible exact settled_done _ | split | dsimp only
theorem execSnrWindowEnd_settled (l : Lane) (syms : List DmtSymbol) (s : State) : Settled (execSnrWindowEnd l syms s) := by
  unfold execSnrWindowEnd
  repeat' first | with_reducible exact settled_done _ | split | dsimp only
theorem execLoadingComputed_settled (l : Lane) (s : State) : Settled (execLoadingComputed l s) := by
  unfold execLoadingComputed
  repeat' first | with_reducible exact settled_done _ | split | dsimp only
theorem execSwapReqReceive_settled (l : Lane) (fr : AcqFrame) (ago : Nat) (s : State) : Settled (execSwapReqReceive l fr ago s) := by
  unfold execSwapReqReceive
  repeat' first | with_reducible exact settled_done _ | split | dsimp only
theorem execSwapRespReceive_settled (l : Lane) (fr : AcqFrame) (s : State) : Settled (execSwapRespReceive l fr s) := by
  unfold execSwapRespReceive
  repeat' first | with_reducible exact settled_done _ | split | dsimp only
theorem execBitswapTxSwitch_settled (l : Lane) (s : State) : Settled (execBitswapTxSwitch l s) := by
  unfold execBitswapTxSwitch
  repeat' first | with_reducible exact settled_done _ | split | dsimp only
theorem execBitswapRxDecide_settled (l : Lane) (syms : List DmtSymbol) (s : State) : Settled (execBitswapRxDecide l syms s) := by
  unfold execBitswapRxDecide
  repeat' first | with_reducible exact settled_done _ | split | dsimp only
theorem execPilotFlagUnexpected_settled (l : Lane) (syms : List DmtSymbol) (s : State) : Settled (execPilotFlagUnexpected l syms s) := by
  unfold execPilotFlagUnexpected
  repeat' first | with_reducible exact settled_done _ | split | dsimp only
theorem execBitswapRetry_settled (l : Lane) (s : State) : Settled (execBitswapRetry l s) := by
  unfold execBitswapRetry
  repeat' first | with_reducible exact settled_done _ | split | dsimp only
theorem execSwapSuspendEnd_settled (l : Lane) (s : State) : Settled (execSwapSuspendEnd l s) := by
  unfold execSwapSuspendEnd
  repeat' first | with_reducible exact settled_done _ | split | dsimp only
theorem execTableWindowWrite_settled (g : Group) (v : W32) (s : State) : Settled (execTableWindowWrite g v s) := by
  unfold execTableWindowWrite
  repeat' first | with_reducible exact settled_done _ | split | dsimp only
theorem execTableWindowRead_settled (g : Group) (s : State) : Settled (execTableWindowRead g s) := by
  unfold execTableWindowRead
  repeat' first | with_reducible exact settled_done _ | split | dsimp only
theorem execHostDetectProbe_settled (hl : HLane) (s : State) : Settled (execHostDetectProbe hl s) := by
  unfold execHostDetectProbe
  repeat' first | with_reducible exact settled_done _ | split | dsimp only
theorem execHostDetectComplete_settled (hl : HLane) (s : State) : Settled (execHostDetectComplete hl s) := by
  unfold execHostDetectComplete
  repeat' first | with_reducible exact settled_done _ | split | dsimp only
theorem execHostTrainingFrameReceive_settled (hl : HLane) (fr : HostFrame) (s : State) : Settled (execHostTrainingFrameReceive hl fr s) := by
  unfold execHostTrainingFrameReceive
  repeat' first | with_reducible exact settled_done _ | split | dsimp only
theorem execHostTrainComplete_settled (hl : HLane) (s : State) : Settled (execHostTrainComplete hl s) := by
  unfold execHostTrainComplete
  repeat' first | with_reducible exact settled_done _ | split | dsimp only
theorem execHostTrainTimeout_settled (hl : HLane) (s : State) : Settled (execHostTrainTimeout hl s) := by
  unfold execHostTrainTimeout
  repeat' first | with_reducible exact settled_done _ | split | dsimp only
theorem execHostLockComplete_settled (m : HostLock) (s : State) : Settled (execHostLockComplete m s) := by
  unfold execHostLockComplete
  repeat' first | with_reducible exact settled_done _ | split | dsimp only
theorem execHostLockTimeout_settled (hl : HLane) (s : State) : Settled (execHostLockTimeout hl s) := by
  unfold execHostLockTimeout
  repeat' first | with_reducible exact settled_done _ | split | dsimp only
theorem execHostCapComplete_settled (hl : HLane) (m : HostMarkers) (s : State) : Settled (execHostCapComplete hl m s) := by
  unfold execHostCapComplete
  repeat' first | with_reducible exact settled_done _ | split | dsimp only
theorem execHostCapTimeout_settled (hl : HLane) (s : State) : Settled (execHostCapTimeout hl s) := by
  unfold execHostCapTimeout
  repeat' first | with_reducible exact settled_done _ | split | dsimp only
theorem execHostMarkerLockLoss_settled (hl : HLane) (s : State) : Settled (execHostMarkerLockLoss hl s) := by
  unfold execHostMarkerLockLoss
  repeat' first | with_reducible exact settled_done _ | split | dsimp only
theorem execHostActiveLoss_settled (hl : HLane) (loss : HostLoss) (s : State) : Settled (execHostActiveLoss hl loss s) := by
  unfold execHostActiveLoss
  repeat' first | with_reducible exact settled_done _ | split | dsimp only
theorem execHostEnWrite_settled (hl : HLane) (v : W32) (s : State) : Settled (execHostEnWrite hl v s) := by
  unfold execHostEnWrite
  repeat' first | with_reducible exact settled_done _ | split | dsimp only
theorem execSkewOvr_settled (p : Lane) (line : Bool) (skew : Nat) (s : State) : Settled (execSkewOvr p line skew s) := by
  unfold execSkewOvr
  repeat' first | with_reducible exact settled_done _ | split | dsimp only
theorem execPreambleDetect_settled (l : Lane) (rx : PreambleRx) (s : State) : Settled (execPreambleDetect l rx s) := by
  unfold execPreambleDetect
  repeat' first | with_reducible exact settled_done _ | split | dsimp only
theorem execHeaderReceive_settled (l : Lane) (sync : W32) (hdr : BitVec 64) (s : State) : Settled (execHeaderReceive l sync hdr s) := by
  unfold execHeaderReceive
  repeat' first | with_reducible exact settled_done _ | split | dsimp only
theorem execReceptionLevelAbort_settled (l : Lane) (block : List Int) (s : State) : Settled (execReceptionLevelAbort l block s) := by
  unfold execReceptionLevelAbort
  repeat' first | with_reducible exact settled_done _ | split | dsimp only
theorem execCapFrameSend_settled (l : Lane) (s : State) : Settled (execCapFrameSend l s) := by
  unfold execCapFrameSend
  repeat' first | with_reducible exact settled_done _ | split | dsimp only
theorem execCapFrameReceive_settled (l : Lane) (fr : AcqFrame) (s : State) : Settled (execCapFrameReceive l fr s) := by
  unfold execCapFrameReceive
  repeat' first | with_reducible exact settled_done _ | split | dsimp only
theorem execEnterTrain_settled (l : Lane) (s : State) : Settled (execEnterTrain l s) := by
  unfold execEnterTrain
  repeat' first | with_reducible exact settled_done _ | split | dsimp only
theorem execLinkWaitTimer_settled (l : Lane) (s : State) : Settled (execLinkWaitTimer l s) := by
  unfold execLinkWaitTimer
  repeat' first | with_reducible exact settled_done _ | split | dsimp only
theorem execTrainingBlockStart_settled (l : Lane) (ui : Nat) (s : State) : Settled (execTrainingBlockStart l ui s) := by
  unfold execTrainingBlockStart
  repeat' first | with_reducible exact settled_done _ | split | dsimp only
theorem execStatusFrameReceive_settled (l : Lane) (fr : SlotFrame) (s : State) : Settled (execStatusFrameReceive l fr s) := by
  unfold execStatusFrameReceive
  repeat' first | with_reducible exact settled_done _ | split | dsimp only
theorem execPresetFrameReceive_settled (l : Lane) (fr : SlotFrame) (s : State) : Settled (execPresetFrameReceive l fr s) := by
  unfold execPresetFrameReceive
  repeat' first | with_reducible exact settled_done _ | split | dsimp only
theorem execRhoSearchComplete_settled (l : Lane) (margins : List Nat) (s : State) : Settled (execRhoSearchComplete l margins s) := by
  unfold execRhoSearchComplete
  repeat' first | with_reducible exact settled_done _ | split | dsimp only
theorem execTxDataStart_settled (l : Lane) (s : State) : Settled (execTxDataStart l s) := by
  unfold execTxDataStart
  repeat' first | with_reducible exact settled_done _ | split | dsimp only
theorem execRxDataStart_settled (l : Lane) (s : State) : Settled (execRxDataStart l s) := by
  unfold execRxDataStart
  repeat' first | with_reducible exact settled_done _ | split | dsimp only
theorem execDmtShortenComplete_settled (l : Lane) (taps : List Int) (window : BitVec 12) (s : State) : Settled (execDmtShortenComplete l taps window s) := by
  unfold execDmtShortenComplete
  repeat' first | with_reducible exact settled_done _ | split | dsimp only
theorem execLoadFrameReceive_settled (l : Lane) (fr : AcqFrame) (s : State) : Settled (execLoadFrameReceive l fr s) := by
  unfold execLoadFrameReceive
  repeat' first | with_reducible exact settled_done _ | split | dsimp only
theorem execAckFrameReceive_settled (l : Lane) (fr : AcqFrame) (s : State) : Settled (execAckFrameReceive l fr s) := by
  unfold execAckFrameReceive
  repeat' first | with_reducible exact settled_done _ | split | dsimp only
theorem execLoadRetry_settled (l : Lane) (s : State) : Settled (execLoadRetry l s) := by
  unfold execLoadRetry
  repeat' first | with_reducible exact settled_done _ | split | dsimp only
theorem execAcqTimeout_settled (l : Lane) (s : State) : Settled (execAcqTimeout l s) := by
  unfold execAcqTimeout
  repeat' first | with_reducible exact settled_done _ | split | dsimp only
theorem execHoldoffEnd_settled (l : Lane) (s : State) : Settled (execHoldoffEnd l s) := by
  unfold execHoldoffEnd
  repeat' first | with_reducible exact settled_done _ | split | dsimp only
theorem execLoopFrame_settled (s : State) : Settled (execLoopFrame s) := by
  unfold execLoopFrame
  repeat' first | with_reducible exact settled_done _ | split | dsimp only
theorem execLoopConfigLatch_settled (g : Group) (s : State) : Settled (execLoopConfigLatch g s) := by
  unfold execLoopConfigLatch
  repeat' first | with_reducible exact settled_done _ | split | dsimp only
theorem execLoopSample_settled (x : Ctx) (s : State) : Settled (execLoopSample x s) := by
  unfold execLoopSample
  repeat' first | with_reducible exact settled_done _ | split | dsimp only
theorem execHoldTimeout_settled (x : Ctx) (s : State) : Settled (execHoldTimeout x s) := by
  unfold execHoldTimeout
  repeat' first | with_reducible exact settled_done _ | split | dsimp only
theorem execParkComplete_settled (x : Ctx) (s : State) : Settled (execParkComplete x s) := by
  unfold execParkComplete
  repeat' first | with_reducible exact settled_done _ | split | dsimp only
theorem execInjectionStart_settled (g : Group) (s : State) : Settled (execInjectionStart g s) := by
  unfold execInjectionStart
  repeat' first | with_reducible exact settled_done _ | split | dsimp only
theorem execInjectionStop_settled (g : Group) (s : State) : Settled (execInjectionStop g s) := by
  unfold execInjectionStop
  repeat' first | with_reducible exact settled_done _ | split | dsimp only
theorem execInjectionEnd_settled (g : Group) (s : State) : Settled (execInjectionEnd g s) := by
  unfold execInjectionEnd
  repeat' first | with_reducible exact settled_done _ | split | dsimp only
theorem execCaptureArm_settled (g : Group) (s : State) : Settled (execCaptureArm g s) := by
  unfold execCaptureArm
  repeat' first | with_reducible exact settled_done _ | split | dsimp only
theorem execCaptureDone_settled (g : Group) (s : State) : Settled (execCaptureDone g s) := by
  unfold execCaptureDone
  repeat' first | with_reducible exact settled_done _ | split | dsimp only
theorem execCaptureDataRead_settled (g : Group) (s : State) : Settled (execCaptureDataRead g s) := by
  unfold execCaptureDataRead
  repeat' first | with_reducible exact settled_done _ | split | dsimp only
theorem execLsLockWrite_settled (h : Half) (v : W32) (s : State) : Settled (execLsLockWrite h v s) := by
  unfold execLsLockWrite
  repeat' first | with_reducible exact settled_done _ | split | dsimp only
theorem execLsCeilWrite_settled (l : Lane) (v : W32) (s : State) : Settled (execLsCeilWrite l v s) := by
  unfold execLsCeilWrite
  repeat' first | with_reducible exact settled_done _ | split | dsimp only
theorem execBiasHoldEnd_settled (l : Lane) (s : State) : Settled (execBiasHoldEnd l s) := by
  unfold execBiasHoldEnd
  repeat' first | with_reducible exact settled_done _ | split | dsimp only
theorem execOverPowerTrip_settled (l : Lane) (microAmps : Nat) (s : State) : Settled (execOverPowerTrip l microAmps s) := by
  unfold execOverPowerTrip
  repeat' first | with_reducible exact settled_done _ | split | dsimp only
theorem execSafeOffAssert_settled (h : Half) (s : State) : Settled (execSafeOffAssert h s) := by
  unfold execSafeOffAssert
  repeat' first | with_reducible exact settled_done _ | split | dsimp only
theorem execSafeOffDeassert_settled (h : Half) (s : State) : Settled (execSafeOffDeassert h s) := by
  unfold execSafeOffDeassert
  repeat' first | with_reducible exact settled_done _ | split | dsimp only
theorem execSafeOffAutoRelease_settled (h : Half) (s : State) : Settled (execSafeOffAutoRelease h s) := by
  unfold execSafeOffAutoRelease
  repeat' first | with_reducible exact settled_done _ | split | dsimp only
theorem execSafeOffResumeWrite_settled (h : Half) (v : W32) (s : State) : Settled (execSafeOffResumeWrite h v s) := by
  unfold execSafeOffResumeWrite
  repeat' first | with_reducible exact settled_done _ | split | dsimp only
theorem execAprHoldEntry_settled (l : Lane) (s : State) : Settled (execAprHoldEntry l s) := by
  unfold execAprHoldEntry
  repeat' first | with_reducible exact settled_done _ | split | dsimp only
theorem execAprThresholdLower_settled (l : Lane) (s : State) : Settled (execAprThresholdLower l s) := by
  unfold execAprThresholdLower
  repeat' first | with_reducible exact settled_done _ | split | dsimp only
theorem execAprRestartPulse_settled (l : Lane) (s : State) : Settled (execAprRestartPulse l s) := by
  unfold execAprRestartPulse
  repeat' first | with_reducible exact settled_done _ | split | dsimp only
theorem execAprPulseEnd_settled (l : Lane) (s : State) : Settled (execAprPulseEnd l s) := by
  unfold execAprPulseEnd
  repeat' first | with_reducible exact settled_done _ | split | dsimp only
theorem execSequenceDue_settled (q : SeqN) (s : State) : Settled (execSequenceDue q s) := by
  unfold execSequenceDue
  repeat' first | with_reducible exact settled_done _ | split | dsimp only
theorem execSequenceRunStart_settled (q : SeqN) (s : State) : Settled (execSequenceRunStart q s) := by
  unfold execSequenceRunStart
  repeat' first | with_reducible exact settled_done _ | split | dsimp only
theorem execMonitorConversion_settled (q : SeqN) (applied : Int) (slots : Nat) (s : State) : Settled (execMonitorConversion q applied slots s) := by
  unfold execMonitorConversion
  repeat' first | with_reducible exact settled_done _ | split | dsimp only
theorem execInputConfigWrite_settled (i : InputN) (v : W32) (s : State) : Settled (execInputConfigWrite i v s) := by
  unfold execInputConfigWrite
  repeat' first | with_reducible exact settled_done _ | split | dsimp only
theorem execMonitorEntryWrite_settled (n : EntryN) (word : Fin 4) (v : W32) (s : State) : Settled (execMonitorEntryWrite n word v s) := by
  unfold execMonitorEntryWrite
  repeat' first | with_reducible exact settled_done _ | split | dsimp only
theorem execChainConfigWrite_settled (ch : ChainN) (word : Fin 2) (v : W32) (s : State) : Settled (execChainConfigWrite ch word v s) := by
  unfold execChainConfigWrite
  repeat' first | with_reducible exact settled_done _ | split | dsimp only
theorem execChainRestartWrite_settled (ch : ChainN) (v : W32) (s : State) : Settled (execChainRestartWrite ch v s) := by
  unfold execChainRestartWrite
  repeat' first | with_reducible exact settled_done _ | split | dsimp only
theorem execCdacUpdate_settled (h : Half) (s : State) : Settled (execCdacUpdate h s) := by
  unfold execCdacUpdate
  repeat' first | with_reducible exact settled_done _ | split | dsimp only
theorem execCdacCodeWrite_settled (c : Chan) (v : W32) (s : State) : Settled (execCdacCodeWrite c v s) := by
  unfold execCdacCodeWrite
  repeat' first | with_reducible exact settled_done _ | split | dsimp only
theorem execCdacClrCodeWrite_settled (c : Chan) (v : W32) (s : State) : Settled (execCdacClrCodeWrite c v s) := by
  unfold execCdacClrCodeWrite
  repeat' first | with_reducible exact settled_done _ | split | dsimp only
theorem execCdacModeWrite_settled (c : Chan) (v : W32) (s : State) : Settled (execCdacModeWrite c v s) := by
  unfold execCdacModeWrite
  repeat' first | with_reducible exact settled_done _ | split | dsimp only
theorem execCdacReconnect_settled (c : Chan) (s : State) : Settled (execCdacReconnect c s) := by
  unfold execCdacReconnect
  repeat' first | with_reducible exact settled_done _ | split | dsimp only
theorem execClrAssert_settled (h : Half) (s : State) : Settled (execClrAssert h s) := by
  unfold execClrAssert
  repeat' first | with_reducible exact settled_done _ | split | dsimp only
theorem execClrDeassert_settled (h : Half) (s : State) : Settled (execClrDeassert h s) := by
  unfold execClrDeassert
  repeat' first | with_reducible exact settled_done _ | split | dsimp only
theorem execVctlValid_settled (h : Half) (s : State) : Settled (execVctlValid h s) := by
  unfold execVctlValid
  repeat' first | with_reducible exact settled_done _ | split | dsimp only
theorem execVctlInvalid_settled (h : Half) (s : State) : Settled (execVctlInvalid h s) := by
  unfold execVctlInvalid
  repeat' first | with_reducible exact settled_done _ | split | dsimp only
theorem execDieSensorConversion_settled (d : DieSensor) (temp : Int) (s : State) : Settled (execDieSensorConversion d temp s) := by
  unfold execDieSensorConversion
  repeat' first | with_reducible exact settled_done _ | split | dsimp only
theorem execEngineSensorConversion_settled (e : EngSensor) (r : EngReading) (s : State) : Settled (execEngineSensorConversion e r s) := by
  unfold execEngineSensorConversion
  repeat' first | with_reducible exact settled_done _ | split | dsimp only
theorem execAonRetrim_settled (h : Half) (s : State) : Settled (execAonRetrim h s) := by
  unfold execAonRetrim
  repeat' first | with_reducible exact settled_done _ | split | dsimp only
theorem execThrottleTick_settled (g : Group) (s : State) : Settled (execThrottleTick g s) := by
  unfold execThrottleTick
  repeat' first | with_reducible exact settled_done _ | split | dsimp only
theorem execThermalTrip_settled (d : DieSensor) (s : State) : Settled (execThermalTrip d s) := by
  unfold execThermalTrip
  repeat' first | with_reducible exact settled_done _ | split | dsimp only
theorem execThermtripPinTrip_settled (h : Half) (s : State) : Settled (execThermtripPinTrip h s) := by
  unfold execThermtripPinTrip
  repeat' first | with_reducible exact settled_done _ | split | dsimp only
theorem execThermalTripClear_settled (h : Half) (v : W32) (s : State) : Settled (execThermalTripClear h v s) := by
  unfold execThermalTripClear
  repeat' first | with_reducible exact settled_done _ | split | dsimp only
theorem execMonitorAdcCalibration_settled (h : Half) (cal : CalResult) (s : State) : Settled (execMonitorAdcCalibration h cal s) := by
  unfold execMonitorAdcCalibration
  repeat' first | with_reducible exact settled_done _ | split | dsimp only
theorem execCdacDriftCheck_settled (c : Chan) (readback : Int) (s : State) : Settled (execCdacDriftCheck c readback s) := by
  unfold execCdacDriftCheck
  repeat' first | with_reducible exact settled_done _ | split | dsimp only
theorem execCalibrationStarved_settled (h : Half) (s : State) : Settled (execCalibrationStarved h s) := by
  unfold execCalibrationStarved
  repeat' first | with_reducible exact settled_done _ | split | dsimp only
theorem execTrimReapply_settled (g : Group) (s : State) : Settled (execTrimReapply g s) := by
  unfold execTrimReapply
  repeat' first | with_reducible exact settled_done _ | split | dsimp only
theorem execTimeTick_settled (h : Half) (s : State) : Settled (execTimeTick h s) := by
  unfold execTimeTick
  repeat' first | with_reducible exact settled_done _ | split | dsimp only
theorem execTimeAddendWrite_settled (h : Half) (v : W32) (s : State) : Settled (execTimeAddendWrite h v s) := by
  unfold execTimeAddendWrite
  repeat' first | with_reducible exact settled_done _ | split | dsimp only
theorem execTimeSlewWrite_settled (h : Half) (v : W32) (s : State) : Settled (execTimeSlewWrite h v s) := by
  unfold execTimeSlewWrite
  repeat' first | with_reducible exact settled_done _ | split | dsimp only
theorem execTimeStepWrite_settled (h : Half) (v : W32) (s : State) : Settled (execTimeStepWrite h v s) := by
  unfold execTimeStepWrite
  repeat' first | with_reducible exact settled_done _ | split | dsimp only
theorem execTimeStepApply_settled (h : Half) (s : State) : Settled (execTimeStepApply h s) := by
  unfold execTimeStepApply
  repeat' first | with_reducible exact settled_done _ | split | dsimp only
theorem execTimeFracRead_settled (h : Half) (s : State) : Settled (execTimeFracRead h s) := by
  unfold execTimeFracRead
  repeat' first | with_reducible exact settled_done _ | split | dsimp only
theorem execPpsInEdge_settled (s : State) : Settled (execPpsInEdge s) := by
  unfold execPpsInEdge
  repeat' first | with_reducible exact settled_done _ | split | dsimp only
theorem execPpsLost_settled (s : State) : Settled (execPpsLost s) := by
  unfold execPpsLost
  repeat' first | with_reducible exact settled_done _ | split | dsimp only
theorem execPpsFracRead_settled (h : Half) (s : State) : Settled (execPpsFracRead h s) := by
  unfold execPpsFracRead
  repeat' first | with_reducible exact settled_done _ | split | dsimp only
theorem execPpsOutPulseEnd_settled (s : State) : Settled (execPpsOutPulseEnd s) := by
  unfold execPpsOutPulseEnd
  repeat' first | with_reducible exact settled_done _ | split | dsimp only
theorem execPtpTransmitMessage_settled (l : Lane) (m : PtpMsg) (s : State) : Settled (execPtpTransmitMessage l m s) := by
  unfold execPtpTransmitMessage
  repeat' first | with_reducible exact settled_done _ | split | dsimp only
theorem execPtpReceiveMessage_settled (l : Lane) (m : PtpMsg) (s : State) : Settled (execPtpReceiveMessage l m s) := by
  unfold execPtpReceiveMessage
  repeat' first | with_reducible exact settled_done _ | split | dsimp only
theorem execTimestampRecordWrite_settled (h : Half) (s : State) : Settled (execTimestampRecordWrite h s) := by
  unfold execTimestampRecordWrite
  repeat' first | with_reducible exact settled_done _ | split | dsimp only
theorem execScheduledActionFire_settled (h : Half) (s : State) : Settled (execScheduledActionFire h s) := by
  unfold execScheduledActionFire
  repeat' first | with_reducible exact settled_done _ | split | dsimp only
theorem execKneaderTrap_settled (k : Knd) (cause : TrapCause) (s : State) : Settled (execKneaderTrap k cause s) := by
  unfold execKneaderTrap
  repeat' first | with_reducible exact settled_done _ | split | dsimp only
theorem execKneaderReloadComplete_settled (k : Knd) (verified : Bool) (s : State) : Settled (execKneaderReloadComplete k verified s) := by
  unfold execKneaderReloadComplete
  repeat' first | with_reducible exact settled_done _ | split | dsimp only
theorem execKneaderSubstitutionComplete_settled (k : Knd) (s : State) : Settled (execKneaderSubstitutionComplete k s) := by
  unfold execKneaderSubstitutionComplete
  repeat' first | with_reducible exact settled_done _ | split | dsimp only
theorem execSpareKneaderTest_settled (u : SpareUnit) (sig : W32) (s : State) : Settled (execSpareKneaderTest u sig s) := by
  unfold execSpareKneaderTest
  repeat' first | with_reducible exact settled_done _ | split | dsimp only
theorem execSelftestComplete_settled (h : Half) (e : EndedTest) (sig : W32) (s : State) : Settled (execSelftestComplete h e sig s) := by
  unfold execSelftestComplete
  repeat' first | with_reducible exact settled_done _ | split | dsimp only
theorem execTestmodeAssert_settled (s : State) : Settled (execTestmodeAssert s) := by
  unfold execTestmodeAssert
  repeat' first | with_reducible exact settled_done _ | split | dsimp only
theorem execJtagScanInstruction_settled (extest : Bool) (s : State) : Settled (execJtagScanInstruction extest s) := by
  unfold execJtagScanInstruction
  repeat' first | with_reducible exact settled_done _ | split | dsimp only
theorem execScrubRead_settled (m : MemUnit) (r : ScrubResult) (s : State) : Settled (execScrubRead m r s) := by
  unfold execScrubRead
  repeat' first | with_reducible exact settled_done _ | split | dsimp only
theorem execMemoryCorrectedRead_settled (m : MemUnit) (arr : BitVec 10) (word : BitVec 17) (s : State) : Settled (execMemoryCorrectedRead m arr word s) := by
  unfold execMemoryCorrectedRead
  repeat' first | with_reducible exact settled_done _ | split | dsimp only
theorem execTrackerWriteBack_settled (m : MemUnit) (arr : BitVec 10) (word : BitVec 17) (s : State) : Settled (execTrackerWriteBack m arr word s) := by
  unfold execTrackerWriteBack
  repeat' first | with_reducible exact settled_done _ | split | dsimp only
theorem execMemoryUncorrectableRead_settled (m : MemUnit) (arr : BitVec 10) (word : BitVec 17) (rd : UeReader) (s : State) : Settled (execMemoryUncorrectableRead m arr word rd s) := by
  unfold execMemoryUncorrectableRead
  repeat' first | with_reducible exact settled_done _ | split | dsimp only
theorem execMemUeRelease_settled (rd : CkptRead) (s : State) : Settled (execMemUeRelease rd s) := by
  unfold execMemUeRelease
  repeat' first | with_reducible exact settled_done _ | split | dsimp only
theorem execRepairLogFlashCopy_settled (h : Half) (s : State) : Settled (execRepairLogFlashCopy h s) := by
  unfold execRepairLogFlashCopy
  repeat' first | with_reducible exact settled_done _ | split | dsimp only
theorem execBusMasterDisable_settled (h : Half) (s : State) : Settled (execBusMasterDisable h s) := by
  unfold execBusMasterDisable
  repeat' first | with_reducible exact settled_done _ | split | dsimp only
theorem execBusMasterEnable_settled (h : Half) (s : State) : Settled (execBusMasterEnable h s) := by
  unfold execBusMasterEnable
  repeat' first | with_reducible exact settled_done _ | split | dsimp only
theorem execMsixModerationTimer_settled (h : Half) (q : Fin 8) (s : State) : Settled (execMsixModerationTimer h q s) := by
  unfold execMsixModerationTimer
  repeat' first | with_reducible exact settled_done _ | split | dsimp only
theorem execMdioPmaResetWrite_settled (h : Half) (prtad : BitVec 5) (v : BitVec 16) (s : State) : Settled (execMdioPmaResetWrite h prtad v s) := by
  unfold execMdioPmaResetWrite
  repeat' first | with_reducible exact settled_done _ | split | dsimp only
theorem execMdioTxDisableWrite_settled (h : Half) (prtad : BitVec 5) (v : BitVec 16) (s : State) : Settled (execMdioTxDisableWrite h prtad v s) := by
  unfold execMdioTxDisableWrite
  repeat' first | with_reducible exact settled_done _ | split | dsimp only
theorem execMdioStatusRead_settled (h : Half) (prtad : BitVec 5) (s : State) : Settled (execMdioStatusRead h prtad s) := by
  unfold execMdioStatusRead
  repeat' first | with_reducible exact settled_done _ | split | dsimp only
theorem execMdioFrame_settled (h : Half) (prtad : BitVec 5) (devad : BitVec 5) (reg : BitVec 16) (write : Bool) (v : BitVec 16) (s : State) : Settled (execMdioFrame h prtad devad reg write v s) := by
  unfold execMdioFrame
  repeat' first | with_reducible exact settled_done _ | split | dsimp only
theorem execCommandDoorbell_settled (h : Half) (q : Fin 4) (v : W32) (s : State) : Settled (execCommandDoorbell h q v s) := by
  unfold execCommandDoorbell
  repeat' first | with_reducible exact settled_done _ | split | dsimp only
theorem execCompletionDoorbell_settled (h : Half) (v : W32) (s : State) : Settled (execCompletionDoorbell h v s) := by
  unfold execCompletionDoorbell
  repeat' first | with_reducible exact settled_done _ | split | dsimp only
theorem execEventDoorbell_settled (h : Half) (v : W32) (s : State) : Settled (execEventDoorbell h v s) := by
  unfold execEventDoorbell
  repeat' first | with_reducible exact settled_done _ | split | dsimp only
theorem execTelemetryDoorbell_settled (h : Half) (v : W32) (s : State) : Settled (execTelemetryDoorbell h v s) := by
  unfold execTelemetryDoorbell
  repeat' first | with_reducible exact settled_done _ | split | dsimp only
theorem execTimestampDoorbell_settled (h : Half) (v : W32) (s : State) : Settled (execTimestampDoorbell h v s) := by
  unfold execTimestampDoorbell
  repeat' first | with_reducible exact settled_done _ | split | dsimp only
theorem execDescriptorFetch_settled (h : Half) (q : Fin 4) (s : State) : Settled (execDescriptorFetch h q s) := by
  unfold execDescriptorFetch
  repeat' first | with_reducible exact settled_done _ | split | dsimp only
theorem execDescriptorDataReceive_settled (h : Half) (q : Fin 4) (data : DescData) (s : State) : Settled (execDescriptorDataReceive h q data s) := by
  unfold execDescriptorDataReceive
  repeat' first | with_reducible exact settled_done _ | split | dsimp only
theorem execDescriptorTake_settled (h : Half) (s : State) : Settled (execDescriptorTake h s) := by
  unfold execDescriptorTake
  repeat' first | with_reducible exact settled_done _ | split | dsimp only
theorem execBridgeCommandReceive_settled (s : State) : Settled (execBridgeCommandReceive s) := by
  unfold execBridgeCommandReceive
  repeat' first | with_reducible exact settled_done _ | split | dsimp only
theorem execBridgeCompletionReceive_settled (s : State) : Settled (execBridgeCompletionReceive s) := by
  unfold execBridgeCompletionReceive
  repeat' first | with_reducible exact settled_done _ | split | dsimp only
theorem execCompletionWrite_settled (h : Half) (s : State) : Settled (execCompletionWrite h s) := by
  unfold execCompletionWrite
  repeat' first | with_reducible exact settled_done _ | split | dsimp only
theorem execStatusBlockWrite_settled (h : Half) (s : State) : Settled (execStatusBlockWrite h s) := by
  unfold execStatusBlockWrite
  repeat' first | with_reducible exact settled_done _ | split | dsimp only
theorem execEventRecordWrite_settled (h : Half) (s : State) : Settled (execEventRecordWrite h s) := by
  unfold execEventRecordWrite
  repeat' first | with_reducible exact settled_done _ | split | dsimp only
theorem execTelemetryRecordWrite_settled (h : Half) (s : State) : Settled (execTelemetryRecordWrite h s) := by
  unfold execTelemetryRecordWrite
  repeat' first | with_reducible exact settled_done _ | split | dsimp only
theorem execRingReset_settled (h : Half) (q : Fin 8) (v : W32) (s : State) : Settled (execRingReset h q v s) := by
  unfold execRingReset
  repeat' first | with_reducible exact settled_done _ | split | dsimp only
theorem execRingEnable_settled (h : Half) (q : Fin 8) (v : W32) (s : State) : Settled (execRingEnable h q v s) := by
  unfold execRingEnable
  repeat' first | with_reducible exact settled_done _ | split | dsimp only
theorem execIdentify_settled (h : Half) (r : Req) (s : State) : Settled (execIdentify h r s) := by
  unfold execIdentify
  repeat' first | with_reducible exact settled_done _ | split | dsimp only
theorem execCommit_settled (h : Half) (r : Req) (s : State) : Settled (execCommit h r s) := by
  unfold execCommit
  repeat' first | with_reducible exact settled_done _ | split | dsimp only
theorem execSchedCancel_settled (h : Half) (r : Req) (s : State) : Settled (execSchedCancel h r s) := by
  unfold execSchedCancel
  repeat' first | with_reducible exact settled_done _ | split | dsimp only
theorem execTimeFreq_settled (h : Half) (r : Req) (s : State) : Settled (execTimeFreq h r s) := by
  unfold execTimeFreq
  repeat' first | with_reducible exact settled_done _ | split | dsimp only
theorem execTimeSlew_settled (h : Half) (r : Req) (s : State) : Settled (execTimeSlew h r s) := by
  unfold execTimeSlew
  repeat' first | with_reducible exact settled_done _ | split | dsimp only
theorem execTimeStep_settled (h : Half) (r : Req) (s : State) : Settled (execTimeStep h r s) := by
  unfold execTimeStep
  repeat' first | with_reducible exact settled_done _ | split | dsimp only
theorem execNop_settled (h : Half) (r : Req) (s : State) : Settled (execNop h r s) := by
  unfold execNop
  repeat' first | with_reducible exact settled_done _ | split | dsimp only
theorem execCfgWrite_settled (h : Half) (r : Req) (s : State) : Settled (execCfgWrite h r s) := by
  unfold execCfgWrite
  repeat' first | with_reducible exact settled_done _ | split | dsimp only
theorem execCfgDiscard_settled (h : Half) (r : Req) (s : State) : Settled (execCfgDiscard h r s) := by
  unfold execCfgDiscard
  repeat' first | with_reducible exact settled_done _ | split | dsimp only
theorem execBitswap_settled (h : Half) (r : Req) (s : State) : Settled (execBitswap h r s) := by
  unfold execBitswap
  repeat' first | with_reducible exact settled_done _ | split | dsimp only
theorem execRetrain_settled (h : Half) (r : Req) (s : State) : Settled (execRetrain h r s) := by
  unfold execRetrain
  repeat' first | with_reducible exact settled_done _ | split | dsimp only
theorem execFenceRelease_settled (h : Half) (r : Req) (s : State) : Settled (execFenceRelease h r s) := by
  unfold execFenceRelease
  repeat' first | with_reducible exact settled_done _ | split | dsimp only
theorem execEqCapture_settled (h : Half) (r : Req) (s : State) : Settled (execEqCapture h r s) := by
  unfold execEqCapture
  repeat' first | with_reducible exact settled_done _ | split | dsimp only
theorem execLsLock_settled (h : Half) (r : Req) (s : State) : Settled (execLsLock h r s) := by
  unfold execLsLock
  repeat' first | with_reducible exact settled_done _ | split | dsimp only
theorem execSafeResume_settled (h : Half) (r : Req) (s : State) : Settled (execSafeResume h r s) := by
  unfold execSafeResume
  repeat' first | with_reducible exact settled_done _ | split | dsimp only
theorem execAprRestart_settled (h : Half) (r : Req) (s : State) : Settled (execAprRestart h r s) := by
  unfold execAprRestart
  repeat' first | with_reducible exact settled_done _ | split | dsimp only
theorem execLoopStatus_settled (h : Half) (r : Req) (s : State) : Settled (execLoopStatus h r s) := by
  unfold execLoopStatus
  repeat' first | with_reducible exact settled_done _ | split | dsimp only
theorem execCntClear_settled (h : Half) (r : Req) (s : State) : Settled (execCntClear h r s) := by
  unfold execCntClear
  repeat' first | with_reducible exact settled_done _ | split | dsimp only
theorem execMonRead_settled (h : Half) (r : Req) (s : State) : Settled (execMonRead h r s) := by
  unfold execMonRead
  repeat' first | with_reducible exact settled_done _ | split | dsimp only
theorem execEventFilter_settled (h : Half) (r : Req) (s : State) : Settled (execEventFilter h r s) := by
  unfold execEventFilter
  repeat' first | with_reducible exact settled_done _ | split | dsimp only
theorem execSubscribe_settled (h : Half) (r : Req) (s : State) : Settled (execSubscribe h r s) := by
  unfold execSubscribe
  repeat' first | with_reducible exact settled_done _ | split | dsimp only
theorem execUnsubscribe_settled (h : Half) (r : Req) (s : State) : Settled (execUnsubscribe h r s) := by
  unfold execUnsubscribe
  repeat' first | with_reducible exact settled_done _ | split | dsimp only
theorem execSnapshot_settled (h : Half) (r : Req) (s : State) : Settled (execSnapshot h r s) := by
  unfold execSnapshot
  repeat' first | with_reducible exact settled_done _ | split | dsimp only
theorem execGroupState_settled (h : Half) (r : Req) (s : State) : Settled (execGroupState h r s) := by
  unfold execGroupState
  repeat' first | with_reducible exact settled_done _ | split | dsimp only
theorem execDeviceState_settled (h : Half) (r : Req) (s : State) : Settled (execDeviceState h r s) := by
  unfold execDeviceState
  repeat' first | with_reducible exact settled_done _ | split | dsimp only
theorem execPadRelease_settled (h : Half) (r : Req) (s : State) : Settled (execPadRelease h r s) := by
  unfold execPadRelease
  repeat' first | with_reducible exact settled_done _ | split | dsimp only
theorem execFenceReleaseGroup_settled (h : Half) (r : Req) (s : State) : Settled (execFenceReleaseGroup h r s) := by
  unfold execFenceReleaseGroup
  repeat' first | with_reducible exact settled_done _ | split | dsimp only
theorem execReset_settled (h : Half) (r : Req) (s : State) : Settled (execReset h r s) := by
  unfold execReset
  repeat' first | with_reducible exact settled_done _ | split | dsimp only
theorem execSelftest_settled (h : Half) (r : Req) (s : State) : Settled (execSelftest h r s) := by
  unfold execSelftest
  repeat' first | with_reducible exact settled_done _ | split | dsimp only
theorem execUpdLoad_settled (h : Half) (r : Req) (s : State) : Settled (execUpdLoad h r s) := by
  unfold execUpdLoad
  repeat' first | with_reducible exact settled_done _ | split | dsimp only
theorem execUpdVerify_settled (h : Half) (r : Req) (s : State) : Settled (execUpdVerify h r s) := by
  unfold execUpdVerify
  repeat' first | with_reducible exact settled_done _ | split | dsimp only
theorem execUpdVerifyComplete_settled (h : Half) (checks : ApplyChecks) (s : State) : Settled (execUpdVerifyComplete h checks s) := by
  unfold execUpdVerifyComplete
  repeat' first | with_reducible exact settled_done _ | split | dsimp only
theorem execUpdActivate_settled (h : Half) (r : Req) (s : State) : Settled (execUpdActivate h r s) := by
  unfold execUpdActivate
  repeat' first | with_reducible exact settled_done _ | split | dsimp only
theorem execUpdConfirm_settled (h : Half) (r : Req) (s : State) : Settled (execUpdConfirm h r s) := by
  unfold execUpdConfirm
  repeat' first | with_reducible exact settled_done _ | split | dsimp only
theorem execUpdRollback_settled (h : Half) (r : Req) (s : State) : Settled (execUpdRollback h r s) := by
  unfold execUpdRollback
  repeat' first | with_reducible exact settled_done _ | split | dsimp only
theorem execDumpBuf_settled (h : Half) (r : Req) (s : State) : Settled (execDumpBuf h r s) := by
  unfold execDumpBuf
  repeat' first | with_reducible exact settled_done _ | split | dsimp only
theorem execDumpFetch_settled (h : Half) (r : Req) (s : State) : Settled (execDumpFetch h r s) := by
  unfold execDumpFetch
  repeat' first | with_reducible exact settled_done _ | split | dsimp only
theorem execFiUnlock_settled (h : Half) (r : Req) (s : State) : Settled (execFiUnlock h r s) := by
  unfold execFiUnlock
  repeat' first | with_reducible exact settled_done _ | split | dsimp only
theorem execFiSet_settled (h : Half) (r : Req) (s : State) : Settled (execFiSet h r s) := by
  unfold execFiSet
  repeat' first | with_reducible exact settled_done _ | split | dsimp only
theorem execFiClear_settled (h : Half) (r : Req) (s : State) : Settled (execFiClear h r s) := by
  unfold execFiClear
  repeat' first | with_reducible exact settled_done _ | split | dsimp only
theorem execAttOpen_settled (h : Half) (r : Req) (s : State) : Settled (execAttOpen h r s) := by
  unfold execAttOpen
  repeat' first | with_reducible exact settled_done _ | split | dsimp only
theorem execAttQuote_settled (h : Half) (r : Req) (s : State) : Settled (execAttQuote h r s) := by
  unfold execAttQuote
  repeat' first | with_reducible exact settled_done _ | split | dsimp only
theorem execAttCert_settled (h : Half) (r : Req) (s : State) : Settled (execAttCert h r s) := by
  unfold execAttCert
  repeat' first | with_reducible exact settled_done _ | split | dsimp only
theorem execAttClose_settled (h : Half) (r : Req) (s : State) : Settled (execAttClose h r s) := by
  unfold execAttClose
  repeat' first | with_reducible exact settled_done _ | split | dsimp only
theorem execHandshakeDelayEnd_settled (g : Group) (s : State) : Settled (execHandshakeDelayEnd g s) := by
  unfold execHandshakeDelayEnd
  repeat' first | with_reducible exact settled_done _ | split | dsimp only
theorem execHandshakeTimeout_settled (g : Group) (s : State) : Settled (execHandshakeTimeout g s) := by
  unfold execHandshakeTimeout
  repeat' first | with_reducible exact settled_done _ | split | dsimp only
theorem execPowerSaveComplete_settled (g : Group) (s : State) : Settled (execPowerSaveComplete g s) := by
  unfold execPowerSaveComplete
  repeat' first | with_reducible exact settled_done _ | split | dsimp only
theorem execProofWindowOpen_settled (g : Group) (s : State) : Settled (execProofWindowOpen g s) := by
  unfold execProofWindowOpen
  repeat' first | with_reducible exact settled_done _ | split | dsimp only
theorem execProofWindowClose_settled (g : Group) (s : State) : Settled (execProofWindowClose g s) := by
  unfold execProofWindowClose
  repeat' first | with_reducible exact settled_done _ | split | dsimp only
theorem execWakeRailCheck_settled (g : Group) (good : Bool) (s : State) : Settled (execWakeRailCheck g good s) := by
  unfold execWakeRailCheck
  repeat' first | with_reducible exact settled_done _ | split | dsimp only
theorem execWakeComplete_settled (g : Group) (s : State) : Settled (execWakeComplete g s) := by
  unfold execWakeComplete
  repeat' first | with_reducible exact settled_done _ | split | dsimp only
theorem execD3hotEntry_settled (h : Half) (s : State) : Settled (execD3hotEntry h s) := by
  unfold execD3hotEntry
  repeat' first | with_reducible exact settled_done _ | split | dsimp only
theorem execD3hotRetry_settled (h : Half) (s : State) : Settled (execD3hotRetry h s) := by
  unfold execD3hotRetry
  repeat' first | with_reducible exact settled_done _ | split | dsimp only
theorem execD0Return_settled (h : Half) (s : State) : Settled (execD0Return h s) := by
  unfold execD0Return
  repeat' first | with_reducible exact settled_done _ | split | dsimp only
theorem execPorstAssert_settled (s : State) : Settled (execPorstAssert s) := by
  unfold execPorstAssert
  repeat' first | with_reducible exact settled_done _ | split | dsimp only
theorem execPorstDeassert_settled (s : State) : Settled (execPorstDeassert s) := by
  unfold execPorstDeassert
  repeat' first | with_reducible exact settled_done _ | split | dsimp only
theorem execPerstAssert_settled (h : Half) (s : State) : Settled (execPerstAssert h s) := by
  unfold execPerstAssert
  repeat' first | with_reducible exact settled_done _ | split | dsimp only
theorem execPerstDeassert_settled (h : Half) (s : State) : Settled (execPerstDeassert h s) := by
  unfold execPerstDeassert
  repeat' first | with_reducible exact settled_done _ | split | dsimp only
theorem execFlr_settled (h : Half) (s : State) : Settled (execFlr h s) := by
  unfold execFlr
  repeat' first | with_reducible exact settled_done _ | split | dsimp only
theorem execStartStepComplete_settled (h : Half) (r : StartResult) (s : State) : Settled (execStartStepComplete h r s) := by
  unfold execStartStepComplete
  repeat' first | with_reducible exact settled_done _ | split | dsimp only
theorem execStartRelease_settled (h : Half) (r : ReleaseInfo) (s : State) : Settled (execStartRelease h r s) := by
  unfold execStartRelease
  repeat' first | with_reducible exact settled_done _ | split | dsimp only
theorem execStarterRequestWrite_settled (h : Half) (v : W32) (s : State) : Settled (execStarterRequestWrite h v s) := by
  unfold execStarterRequestWrite
  repeat' first | with_reducible exact settled_done _ | split | dsimp only
theorem execStarterLoadGo_settled (h : Half) (v : W32) (s : State) : Settled (execStarterLoadGo h v s) := by
  unfold execStarterLoadGo
  repeat' first | with_reducible exact settled_done _ | split | dsimp only
theorem execStarterLoadComplete_settled (h : Half) (r : LoadEnd) (img : ImageInfo) (s : State) : Settled (execStarterLoadComplete h r img s) := by
  unfold execStarterLoadComplete
  repeat' first | with_reducible exact settled_done _ | split | dsimp only
theorem execSettingsRecordWrite_settled (h : Half) (s : State) : Settled (execSettingsRecordWrite h s) := by
  unfold execSettingsRecordWrite
  repeat' first | with_reducible exact settled_done _ | split | dsimp only
theorem execFatalError_settled (h : Half) (cause : FatalCause) (kn : Knd) (s : State) : Settled (execFatalError h cause kn s) := by
  unfold execFatalError
  repeat' first | with_reducible exact settled_done _ | split | dsimp only
theorem execSubscriptionLatch_settled (h : Half) (s : State) : Settled (execSubscriptionLatch h s) := by
  unfold execSubscriptionLatch
  repeat' first | with_reducible exact settled_done _ | split | dsimp only
theorem execPerfSampleWrite_settled (b : PerfBlk) (v : W32) (s : State) : Settled (execPerfSampleWrite b v s) := by
  unfold execPerfSampleWrite
  repeat' first | with_reducible exact settled_done _ | split | dsimp only
theorem execPerfClearWrite_settled (b : PerfBlk) (v : W32) (s : State) : Settled (execPerfClearWrite b v s) := by
  unfold execPerfClearWrite
  repeat' first | with_reducible exact settled_done _ | split | dsimp only
theorem execHistogramClearWrite_settled (b : PerfBlk) (v : W32) (s : State) : Settled (execHistogramClearWrite b v s) := by
  unfold execHistogramClearWrite
  repeat' first | with_reducible exact settled_done _ | split | dsimp only
theorem execFiKeyWrite_settled (h : Half) (v : W32) (s : State) : Settled (execFiKeyWrite h v s) := by
  unfold execFiKeyWrite
  repeat' first | with_reducible exact settled_done _ | split | dsimp only
theorem execFiRelockWrite_settled (h : Half) (v : W32) (s : State) : Settled (execFiRelockWrite h v s) := by
  unfold execFiRelockWrite
  repeat' first | with_reducible exact settled_done _ | split | dsimp only
theorem execFaultInjectionExpiry_settled (h : Half) (slot : Fin 16) (s : State) : Settled (execFaultInjectionExpiry h slot s) := by
  unfold execFaultInjectionExpiry
  repeat' first | with_reducible exact settled_done _ | split | dsimp only
theorem execAonSupplyLoss_settled (s : State) : Settled (execAonSupplyLoss s) := by
  unfold execAonSupplyLoss
  repeat' first | with_reducible exact settled_done _ | split | dsimp only
theorem execRailUndervoltage_settled (s : State) : Settled (execRailUndervoltage s) := by
  unfold execRailUndervoltage
  repeat' first | with_reducible exact settled_done _ | split | dsimp only
theorem execRefclkRestored_settled (h : Half) (s : State) : Settled (execRefclkRestored h s) := by
  unfold execRefclkRestored
  repeat' first | with_reducible exact settled_done _ | split | dsimp only
theorem execAonSupplyRestored_settled (s : State) : Settled (execAonSupplyRestored s) := by
  unfold execAonSupplyRestored
  repeat' first | with_reducible exact settled_done _ | split | dsimp only
theorem execThermtripPinHigh_settled (h : Half) (s : State) : Settled (execThermtripPinHigh h s) := by
  unfold execThermtripPinHigh
  repeat' first | with_reducible exact settled_done _ | split | dsimp only
theorem execCodewordAlignmentGained_settled (l : Lane) (s : State) : Settled (execCodewordAlignmentGained l s) := by
  unfold execCodewordAlignmentGained
  repeat' first | with_reducible exact settled_done _ | split | dsimp only
theorem execSearchResume_settled (l : Lane) (s : State) : Settled (execSearchResume l s) := by
  unfold execSearchResume
  repeat' first | with_reducible exact settled_done _ | split | dsimp only
theorem execUnlistedFrameReceive_settled (l : Lane) (fr : AcqFrame) (s : State) : Settled (execUnlistedFrameReceive l fr s) := by
  unfold execUnlistedFrameReceive
  repeat' first | with_reducible exact settled_done _ | split | dsimp only
theorem execUpdLoadComplete_settled (h : Half) (data : Option (List (BitVec 8))) (s : State) : Settled (execUpdLoadComplete h data s) := by
  unfold execUpdLoadComplete
  repeat' first | with_reducible exact settled_done _ | split | dsimp only
theorem execGroupResetComplete_settled (g : Group) (s : State) : Settled (execGroupResetComplete g s) := by
  unfold execGroupResetComplete
  repeat' first | with_reducible exact settled_done _ | split | dsimp only
theorem execPllLockLoss_settled (u : PllUnit) (s : State) : Settled (execPllLockLoss u s) := by
  unfold execPllLockLoss
  repeat' first | with_reducible exact settled_done _ | split | dsimp only
theorem execBridgeRecordReceive_settled (s : State) : Settled (execBridgeRecordReceive s) := by
  unfold execBridgeRecordReceive
  repeat' first | with_reducible exact settled_done _ | split | dsimp only

/-- Every command answers a next state, and that state is settled. -/
theorem exec_settled (i : Instr) (s : State) : Settled (exec i s) := by
  cases i <;> simp only [exec] <;> simp only [execRegisterWrite_settled, execLowWordReadLatch_settled, execHeartbeatSend_settled, execHeartbeatReceive_settled, execHeartbeatWindowExpiry_settled,
    execReleaseHeartbeatTimeout_settled, execRejoinTimeStep_settled, execCellFail_settled, execRefclkLoss_settled, execCommitApply_settled,
    execSnapshotLatch_settled, execSwingRampStep_settled, execSegmentSwapStart_settled, execSegmentSwapComplete_settled, execSegmentSwapTimeout_settled,
    execGainHoldExpiry_settled, execGainStepApply_settled, execOverloadStep_settled, execSigDetClear_settled, execSigDetSet_settled,
    execSubadcRotationStart_settled, execSubadcRotationRetry_settled, execHandoverEnd_settled, execSubadcEnsembleCheck_settled, execAdaptBlockEnd_settled,
    execKneaderUpdate_settled, execCoeffBankSwap_settled, execCheckpointTimer_settled, execCheckpointRevert_settled, execTimingLockSet_settled,
    execTimingLockLoss_settled, execEffortChangeApply_settled, execSliceRotationStart_settled, execSliceRotationComplete_settled, execSliceFail_settled,
    execCaptureWrite_settled, execEqBankCapture_settled, execCodewordReceive_settled, execCwLockLoss_settled, execFecClearWrite_settled,
    execFecCounterClear_settled, execLatencyMeasured_settled, execFeqBlockEnd_settled, execSnrWindowEnd_settled, execLoadingComputed_settled,
    execSwapReqReceive_settled, execSwapRespReceive_settled, execBitswapTxSwitch_settled, execBitswapRxDecide_settled, execPilotFlagUnexpected_settled,
    execBitswapRetry_settled, execSwapSuspendEnd_settled, execTableWindowWrite_settled, execTableWindowRead_settled, execHostDetectProbe_settled,
    execHostDetectComplete_settled, execHostTrainingFrameReceive_settled, execHostTrainComplete_settled, execHostTrainTimeout_settled, execHostLockComplete_settled,
    execHostLockTimeout_settled, execHostCapComplete_settled, execHostCapTimeout_settled, execHostMarkerLockLoss_settled, execHostActiveLoss_settled,
    execHostEnWrite_settled, execSkewOvr_settled, execPreambleDetect_settled, execHeaderReceive_settled, execReceptionLevelAbort_settled,
    execCapFrameSend_settled, execCapFrameReceive_settled, execEnterTrain_settled, execLinkWaitTimer_settled, execTrainingBlockStart_settled,
    execStatusFrameReceive_settled, execPresetFrameReceive_settled, execRhoSearchComplete_settled, execTxDataStart_settled, execRxDataStart_settled,
    execDmtShortenComplete_settled, execLoadFrameReceive_settled, execAckFrameReceive_settled, execLoadRetry_settled, execAcqTimeout_settled,
    execHoldoffEnd_settled, execLoopFrame_settled, execLoopConfigLatch_settled, execLoopSample_settled, execHoldTimeout_settled,
    execParkComplete_settled, execInjectionStart_settled, execInjectionStop_settled, execInjectionEnd_settled, execCaptureArm_settled,
    execCaptureDone_settled, execCaptureDataRead_settled, execLsLockWrite_settled, execLsCeilWrite_settled, execBiasHoldEnd_settled,
    execOverPowerTrip_settled, execSafeOffAssert_settled, execSafeOffDeassert_settled, execSafeOffAutoRelease_settled, execSafeOffResumeWrite_settled,
    execAprHoldEntry_settled, execAprThresholdLower_settled, execAprRestartPulse_settled, execAprPulseEnd_settled, execSequenceDue_settled,
    execSequenceRunStart_settled, execMonitorConversion_settled, execInputConfigWrite_settled, execMonitorEntryWrite_settled, execChainConfigWrite_settled,
    execChainRestartWrite_settled, execCdacUpdate_settled, execCdacCodeWrite_settled, execCdacClrCodeWrite_settled, execCdacModeWrite_settled,
    execCdacReconnect_settled, execClrAssert_settled, execClrDeassert_settled, execVctlValid_settled, execVctlInvalid_settled,
    execDieSensorConversion_settled, execEngineSensorConversion_settled, execAonRetrim_settled, execThrottleTick_settled, execThermalTrip_settled,
    execThermtripPinTrip_settled, execThermalTripClear_settled, execMonitorAdcCalibration_settled, execCdacDriftCheck_settled, execCalibrationStarved_settled,
    execTrimReapply_settled, execTimeTick_settled, execTimeAddendWrite_settled, execTimeSlewWrite_settled, execTimeStepWrite_settled,
    execTimeStepApply_settled, execTimeFracRead_settled, execPpsInEdge_settled, execPpsLost_settled, execPpsFracRead_settled,
    execPpsOutPulseEnd_settled, execPtpTransmitMessage_settled, execPtpReceiveMessage_settled, execTimestampRecordWrite_settled, execScheduledActionFire_settled,
    execKneaderTrap_settled, execKneaderReloadComplete_settled, execKneaderSubstitutionComplete_settled, execSpareKneaderTest_settled, execSelftestComplete_settled,
    execTestmodeAssert_settled, execJtagScanInstruction_settled, execScrubRead_settled, execMemoryCorrectedRead_settled, execTrackerWriteBack_settled,
    execMemoryUncorrectableRead_settled, execMemUeRelease_settled, execRepairLogFlashCopy_settled, execBusMasterDisable_settled, execBusMasterEnable_settled,
    execMsixModerationTimer_settled, execMdioPmaResetWrite_settled, execMdioTxDisableWrite_settled, execMdioStatusRead_settled, execMdioFrame_settled,
    execCommandDoorbell_settled, execCompletionDoorbell_settled, execEventDoorbell_settled, execTelemetryDoorbell_settled, execTimestampDoorbell_settled,
    execDescriptorFetch_settled, execDescriptorDataReceive_settled, execDescriptorTake_settled, execBridgeCommandReceive_settled, execBridgeCompletionReceive_settled,
    execCompletionWrite_settled, execStatusBlockWrite_settled, execEventRecordWrite_settled, execTelemetryRecordWrite_settled, execRingReset_settled,
    execRingEnable_settled, execIdentify_settled, execCommit_settled, execSchedCancel_settled, execTimeFreq_settled,
    execTimeSlew_settled, execTimeStep_settled, execNop_settled, execCfgWrite_settled, execCfgDiscard_settled,
    execBitswap_settled, execRetrain_settled, execFenceRelease_settled, execEqCapture_settled, execLsLock_settled,
    execSafeResume_settled, execAprRestart_settled, execLoopStatus_settled, execCntClear_settled, execMonRead_settled,
    execEventFilter_settled, execSubscribe_settled, execUnsubscribe_settled, execSnapshot_settled, execGroupState_settled,
    execDeviceState_settled, execPadRelease_settled, execFenceReleaseGroup_settled, execReset_settled, execSelftest_settled,
    execUpdLoad_settled, execUpdVerify_settled, execUpdVerifyComplete_settled, execUpdActivate_settled, execUpdConfirm_settled,
    execUpdRollback_settled, execDumpBuf_settled, execDumpFetch_settled, execFiUnlock_settled, execFiSet_settled,
    execFiClear_settled, execAttOpen_settled, execAttQuote_settled, execAttCert_settled, execAttClose_settled,
    execHandshakeDelayEnd_settled, execHandshakeTimeout_settled, execPowerSaveComplete_settled, execProofWindowOpen_settled, execProofWindowClose_settled,
    execWakeRailCheck_settled, execWakeComplete_settled, execD3hotEntry_settled, execD3hotRetry_settled, execD0Return_settled,
    execPorstAssert_settled, execPorstDeassert_settled, execPerstAssert_settled, execPerstDeassert_settled, execFlr_settled,
    execStartStepComplete_settled, execStartRelease_settled, execStarterRequestWrite_settled, execStarterLoadGo_settled, execStarterLoadComplete_settled,
    execSettingsRecordWrite_settled, execFatalError_settled, execSubscriptionLatch_settled, execPerfSampleWrite_settled, execPerfClearWrite_settled,
    execHistogramClearWrite_settled, execFiKeyWrite_settled, execFiRelockWrite_settled, execFaultInjectionExpiry_settled, execAonSupplyLoss_settled,
    execRailUndervoltage_settled, execRefclkRestored_settled, execAonSupplyRestored_settled, execThermtripPinHigh_settled, execCodewordAlignmentGained_settled,
    execSearchResume_settled, execUnlistedFrameReceive_settled, execUpdLoadComplete_settled, execGroupResetComplete_settled, execPllLockLoss_settled,
    execBridgeRecordReceive_settled]

end Sys2Proof.Machine
end

