-- ==== Sys2Proof/Laws/Frame.lean ====
section
/-! SUPPORT. The frame of commands, closed under the updates and operations that meanings are made of, and what reads give after an
event, a completion and the end of a step. -/

namespace Sys2Proof

open Machine

/-- The settled answer of a command and what holds before settling give what it answers. -/
theorem Does.mono {i : Instr} {s : State} {P Q : State → Prop} (h : Does i s P) (k : ∀ t, P t → Q t) : Does i s Q :=
  let ⟨t, e, p⟩ := h
  ⟨t, e, k t p⟩

theorem Does.answers {i : Instr} {s : State} {P Q : State → Prop} (h : Does i s P) (k : ∀ t, P t → Q (settle t)) : Answers i s Q :=
  let ⟨t, e, p⟩ := h
  ⟨settle t, e, k t p⟩

namespace Frame

variable {W : List (Fld × Nat)} {s t : State}

theorem refl (W : List (Fld × Nat)) (s : State) : Frame W s s := by constructor <;> simp

theorem trans {r : State} (a : Frame W s t) (b : Frame W t r) : Frame W s r := by
  constructor <;> simp_all [a.get, b.get, a.ap, b.ap, a.written, b.written, a.rams, b.rams, a.pins, b.pins, a.frame, b.frame, a.pending, b.pending]

theorem ofSame (a : Frame W s t) {r : State} (b : SameBut Fld.follows t r) : Frame W s r :=
  a.trans { b with get := fun f i _ k => b.get f i k, frame := b.rest.2.2.2 }

/-- A field that the command names, or one that follows, may be written. -/
theorem put (a : Frame W s t) {g : Fld} {j : Nat} (h : (g, j) ∈ W ∨ g.follows = true) (v : Nat) : Frame W s (t.put g j v) :=
  { a with
    get := fun f i k l => by
      rw [State.get_put, if_neg, a.get f i k l]
      rintro ⟨rfl, rfl⟩
      simp [k, l] at h }

theorem flag (a : Frame W s t) {g : Fld} {j : Nat} (h : (g, j) ∈ W ∨ g.follows = true) : Frame W s (t.flag g j) := a.put h _

theorem putBool (a : Frame W s t) {g : Fld} {j : Nat} (h : (g, j) ∈ W ∨ g.follows = true) (b : Bool) : Frame W s (t.putBool g j b) := a.put h _

theorem putS (a : Frame W s t) {g : Fld} {j : Nat} (h : (g, j) ∈ W ∨ g.follows = true) (b : Int) : Frame W s (t.putS g j b) := a.put h _

theorem inc (a : Frame W s t) {g : Fld} {j : Nat} (h : (g, j) ∈ W ∨ g.follows = true) (n : Nat) : Frame W s (t.inc g j n) := a.put h _

theorem incSat (a : Frame W s t) {g : Fld} {j : Nat} (h : (g, j) ∈ W ∨ g.follows = true) (n : Nat) : Frame W s (t.incSat g j n) := a.put h _

/-! What a unit holds beside its fields is no part of the frame. -/

theorem modHalf (a : Frame W s t) (k : Half) (u : HalfS → HalfS) : Frame W s (t.modHalf k u) := { a with }
theorem modGroup (a : Frame W s t) (k : Group) (u : GroupS → GroupS) : Frame W s (t.modGroup k u) := { a with }
theorem modPort (a : Frame W s t) (k : Lane) (u : PortS → PortS) : Frame W s (t.modPort k u) := { a with }
theorem modLane (a : Frame W s t) (k : Lane) (u : LaneS → LaneS) : Frame W s (t.modLane k u) := { a with }
theorem modHlane (a : Frame W s t) (k : HLane) (u : HLaneS → HLaneS) : Frame W s (t.modHlane k u) := { a with }
theorem modCtx (a : Frame W s t) (k : Ctx) (u : CtxS → CtxS) : Frame W s (t.modCtx k u) := { a with }
theorem modChan (a : Frame W s t) (k : Chan) (u : ChanS → ChanS) : Frame W s (t.modChan k u) := { a with }
theorem modSeq (a : Frame W s t) (k : SeqN) (u : SeqS → SeqS) : Frame W s (t.modSeq k u) := { a with }
theorem modChain (a : Frame W s t) (k : ChainN) (u : ChainS → ChainS) : Frame W s (t.modChain k u) := { a with }
theorem modDie (a : Frame W s t) (k : DieSensor) (u : SensS → SensS) : Frame W s (t.modDie k u) := { a with }
theorem modEng (a : Frame W s t) (k : EngSensor) (u : SensS → SensS) : Frame W s (t.modEng k u) := { a with }
theorem modKnd (a : Frame W s t) (k : Knd) (u : KndS → KndS) : Frame W s (t.modKnd k u) := { a with }
theorem modFi (a : Frame W s t) (k : Fin 32) (u : FiS → FiS) : Frame W s (t.modFi k u) := { a with }
theorem modBridge (a : Frame W s t) (u : BridgeS → BridgeS) : Frame W s (t.modBridge u) := { a with }
theorem emit (a : Frame W s t) (o : Out) : Frame W s (t.emit o) := { a with }

theorem each {α : Type} {u : State → α → State} {xs : List α} (a : Frame W s t) (h : ∀ t x, x ∈ xs → Frame W t (u t x)) :
    Frame W s (t.each xs u) :=
  State.each_keeps (P := fun r => Frame W s r) (fun r x m b => b.trans (h r x m)) a

theorem raise (a : Frame W s t) (h : Half) (e : Ev) : Frame W s (t.raise h e) := a.ofSame (raise_same _ _ _)
theorem complete (a : Frame W s t) (c : Cmd) (r : Res) : Frame W s (t.complete c r) := a.ofSame (complete_same _ _ _)
theorem signal (a : Frame W s t) (h : Half) (v : Nat) : Frame W s (t.signal h v) := a.ofSame (signal_same _ _ _)
theorem perf (a : Frame W s t) (b e n : Nat) : Frame W s (t.perf b e n) := a.ofSame (perf_same _ _ _ _)
theorem perfHalf (a : Frame W s t) (h : Half) (e n : Nat) : Frame W s (t.perfHalf h e n) := a.ofSame (perfHalf_same _ _ _ _)
theorem settle (a : Frame W s t) : Frame W s (settle t) := a.ofSame (settle_same _)

end Frame

namespace Machine

theorem raise_get {f : Fld} (h : f.follows = false) (s : State) (x : Half) (e : Ev) (i : Nat) : (s.raise x e).get f i = s.get f i :=
  (raise_same s x e).get f i h
theorem complete_get {f : Fld} (h : f.follows = false) (s : State) (c : Cmd) (r : Res) (i : Nat) : (s.complete c r).get f i = s.get f i :=
  (complete_same s c r).get f i h
theorem perf_get {f : Fld} (h : f.follows = false) (s : State) (b e n i : Nat) : (s.perf b e n).get f i = s.get f i :=
  (perf_same s b e n).get f i h
theorem signal_get {f : Fld} (h : f.follows = false) (s : State) (x : Half) (v i : Nat) : (s.signal x v).get f i = s.get f i :=
  (signal_same s x v).get f i h
theorem perfLane_get {f : Fld} (h : f.follows = false) (s : State) (l : Lane) (e n i : Nat) : (s.perfLane l e n).get f i = s.get f i :=
  (perfLane_same s l e n).get f i h

end Machine

end Sys2Proof
end

