-- ==== Sys2Proof/Tests/Slice0.lean ====
section
/-! SUPPORT. The model's own tests: ill-formed commands that the check refuses, the spec's worked cases, small steps, and for each
statement a state and operands that meet its hypotheses (one theorem for each statement, one conjunct for each clause). -/

set_option maxRecDepth 8000
set_option Elab.async false
set_option linter.unusedVariables false

namespace Sys2Proof.Tests

open Sys2Proof Sys2Proof.Machine

/-! ### States -/

/-- The part running: both halves released. -/
def up : State := (State.reset.put .BOOT_STATE 0 1).put .BOOT_STATE 1 1
/-- A lane in DATA with signal, of a port at its own slot: rate and line mode. -/
def laneMode (l : Lane) (rate lmode : Nat) : State :=
  let s := (((up.putApp .PORT_EN l 1).putApp .FE_RX_EN l 1).putApp .FE_TX_EN l 1).put .ACQ_STATE l 3
  (((s.put .FE_SIG_DET l 1).put .FE_GAIN_STEP l 5).putApp .PORT_RATE l rate).putApp .PORT_LMODE l lmode
def laneUp (l : Lane) : State := laneMode l 0 0
def laneT (l : Lane) : State := laneMode l 2 2
def laneD (l : Lane) : State := laneMode l 2 3
/-- A frame with its CRC. -/
def goodFrame (type arg seq : Nat) (payload : List (BitVec 8)) : AcqFrame :=
  let fr : AcqFrame := ⟨BitVec.ofNat 8 type, 1, BitVec.ofNat 4 arg, BitVec.ofNat 8 seq, 5, 0, payload, 0⟩
  { fr with crc := BitVec.ofNat 32 (frameCrc fr) }
/-- Host lane 0 of port 0 in a stage. -/
def hostAt (st : Nat) : State := ((((laneUp 0).putApp .PORT_HMODE 0 0).putApp .HST_EN 0 1).put .HST_STAGE 0 st).putApp .HST_DET_EN 0 1
/-- A lane of a port in an acquisition state. -/
def acqAt (s : State) (st : Nat) : State := s.put .ACQ_STATE 0 st
/-- A CAP payload that matches lane 0 of a 400G LM400T port. -/
def capOk (seen : Bool) : List (BitVec 8) := [1, 15, (if seen then 144 else 128), 64, 1, 2, 3, 4, 9, 0, 0, 0]
/-- Context 0 in a state, with feedback from a result that was never formed. -/
def ctxAt (st : Nat) : State := (((up.putApp .CTX_OUT_KIND 0 0).putApp .CTX_EN 0 1).put .CTX_STATE 0 st).putApp .CTX_LANE 0 15
/-- Context 0 in a state, with feedback 2000 from entry 0. -/
def ctxFed (st : Nat) : State :=
  let s := (((ctxAt st).putApp .CTX_FB_SRC 0 0).put .ENT_EN 0 1).put .ENT_CODE 0 2000
  { s with results := s.results.set 0 7 }
/-- Every condition of R308 holds for a lane, and LASEN is high. -/
def laserOn (l : Lane) : State :=
  let s := ((((laneUp l).put .LSH_LOCK l.half 1).putApp .LS_LASER_EN l 1).put .LSH_SOFF_PIN l.half 1).put .LSH_SOFF_HELD l.half 0
  s.put .LS_LASEN l 1
/-- Sequence 0 with the first of its entries at the head of a run. -/
def runAt (w0 w1 : Nat) : State := up.modSeq 0 fun y => { y with run := some [(0, w0, w1)] }
/-- An immediate request of ring 0. -/
def req (scope id : Nat) (ps : List Nat) : Req :=
  ⟨0, 3, false, false, false, false, 7, 0, BitVec.ofNat 4 scope, BitVec.ofNat 6 id, 0, .ofFn fun k => BitVec.ofNat 32 (ps.getD k 0)⟩
/-- Ring `q` of half A running, with space for the host's entries. -/
def ringUp (q : Fin 8) : State :=
  ((((up.put .HIF_RUN 0 1).put .RING_EN q.val 1).put .RING_ACTIVE q.val 1).put .RING_SIZE_LOG2 q.val 4).modHalf 0 fun y => { y with bme := true }
/-- A delta whose operations spell the 512 bytes of an image for half A: a header of 24 bytes, then zeros. -/
def goodDelta : List (BitVec 8) :=
  wordBytes 0x544C444B ++ wordBytes 1 ++ wordBytes 2 ++ wordBytes 512 ++ wordBytes 40 ++ List.replicate 108 0
    ++ wordBytes (2 * 2 ^ 28 + 24) ++ wordBytes 0
    ++ wordBytes 0x474D494B ++ wordBytes (0x4896 * 65536) ++ List.replicate 16 0
    ++ wordBytes (3 * 2 ^ 28 + 488) ++ wordBytes 0 ++ List.replicate 96 0
/-- A start step that ends well and brings nothing with it. -/
def okStart : StartResult := ⟨true, 0, [], [], [], ⟨0, true, true, true⟩, ⟨0, true, true, true⟩, 0⟩
/-- The 512 bytes of an image for half A: a header without a body. -/
def goodImage : List (BitVec 8) := wordBytes 0x474D494B ++ wordBytes (0x4896 * 65536) ++ List.replicate 504 0
/-- A lane whose reception is in BODY after the header of a frame. -/
def receiving (s : State) (l : Lane) (fr : AcqFrame) : State := s.modLane l fun x => { x with phase := .body, hdr := headerWord fr }
/-- An Ethernet frame with a PTP message of 44 octets. -/
def ptpFrame (type flags corr sec ns : Nat) : List (BitVec 8) :=
  List.replicate 12 0 ++ bytesOf 2 0x88F7 ++ bytesOf 1 type ++ bytesOf 1 2 ++ bytesOf 2 44 ++ [0, 0] ++ bytesOf 2 flags ++ bytesOf 8 corr
    ++ List.replicate 14 0 ++ bytesOf 2 9 ++ [0, 0] ++ bytesOf 6 sec ++ bytesOf 4 ns ++ List.replicate 4 0

/-! ### Well-formed and ill-formed commands -/

/-- A frame with a payload of a length. -/
def frameOf (n : Nat) : AcqFrame := ⟨1, 1, 0, 0, 0, 0, List.replicate n 0, 0⟩

theorem test_wf_write_size : (Instr.registerWrite 0 .bar0 0x40000 4 1).wellFormed = true
    ∧ (Instr.registerWrite 0 .bar0 0x40000 3 1).wellFormed = false := by decide
theorem test_wf_write_offset : (Instr.registerWrite 0 .bar2 0x0FFC 4 1).wellFormed = true
    ∧ (Instr.registerWrite 0 .bar2 0x1000 4 1).wellFormed = false ∧ (Instr.registerWrite 0 .bar4 0x4000 4 1).wellFormed = false := by decide
theorem test_wf_clips : (Instr.overloadStep 0 5 5).wellFormed = true ∧ (Instr.overloadStep 0 6 5).wellFormed = false := by decide
theorem test_wf_block : (Instr.adaptBlockEnd 0 ⟨[⟨List.replicate 48 0, List.replicate 8 0, 0, 0⟩], []⟩).wellFormed = true
    ∧ (Instr.adaptBlockEnd 0 ⟨[⟨List.replicate 47 0, List.replicate 8 0, 0, 0⟩], []⟩).wellFormed = false := by decide
theorem test_wf_codeword : (Instr.codewordReceive 0 (.line [255] 0)).wellFormed = true
    ∧ (Instr.codewordReceive 0 (.line [256] 0)).wellFormed = false
    ∧ (Instr.codewordReceive 0 (.dmt [⟨[0, 256], 3⟩])).wellFormed = false := by decide +kernel
theorem test_wf_symbol : (Instr.snrWindowEnd 0 [⟨[255], 0⟩]).wellFormed = true
    ∧ (Instr.snrWindowEnd 0 [⟨[256], 0⟩]).wellFormed = false := by decide
theorem test_wf_preamble : (Instr.preambleDetect 0 ⟨false, List.replicate 260 0, 0⟩).wellFormed = true
    ∧ (Instr.preambleDetect 0 ⟨false, List.replicate 259 0, 0⟩).wellFormed = false := by decide +kernel
theorem test_wf_engine : (Instr.engineSensorConversion 2 (.thermistor 1000)).wellFormed = true
    ∧ (Instr.engineSensorConversion 1 (.thermistor 1000)).wellFormed = false
    ∧ (Instr.engineSensorConversion 2 (.diode 1 2 3)).wellFormed = false := by decide
theorem test_wf_frame : (Instr.loadFrameReceive 0 (frameOf 2048)).wellFormed = true
    ∧ (Instr.loadFrameReceive 0 (frameOf 4096)).wellFormed = false := by decide +kernel
theorem test_wf_search : (Instr.rhoSearchComplete 0 (List.replicate 9 0)).wellFormed = true
    ∧ (Instr.rhoSearchComplete 0 (List.replicate 8 0)).wellFormed = false := by decide
theorem test_wf_taps : (Instr.dmtShortenComplete 0 (List.replicate 16 0) 0).wellFormed = true
    ∧ (Instr.dmtShortenComplete 0 (List.replicate 15 0) 0).wellFormed = false := by decide
theorem test_wf_descriptor : (Instr.descriptorDataReceive 0 0 (.ok (List.replicate 16 0))).wellFormed = true
    ∧ (Instr.descriptorDataReceive 0 0 (.ok (List.replicate 15 0))).wellFormed = false := by decide

/-- The table gives no row a bit pattern: no word spells a command. -/
theorem test_no_word_spells (nbits w : Nat) : decodeTableWord nbits w = none := rfl

/-! ### Worked cases of the spec -/

/-- The lane of R95's worked case: four TX FIR taps, and D31 = −2. -/
def r95 : State :=
  let put := fun (s : State) (k : Nat) (v : Int) => s.putApp .EQ_TXF_SHADOW (13 * 7 + k) (ofSigned (Fld.width .EQ_TXF_SHADOW) v)
  (put (put (put (put State.reset 1 64) 2 (-192)) 3 640) 4 (-128)).put .EQ_PRED3 (13 * 16 + 7) 0
    |>.putApp .EQ_PRED3 (13 * 16 + 7) (ofSigned (Fld.width .EQ_PRED3) (-2))
/-- Its symbols, a[n + 3] first. -/
def r95a : List Int := [0, 1, 3, 3, -1, 0, 0]

/-- R95: v = 1.5, the table index 31, the DAC code 189. -/
theorem test_r95 : r95.txFir 13 r95a = 1536 ∧ predIndex r95a = 31 ∧ r95.predEntry 13 31 = -2 ∧ r95.txCode 13 r95a = 189 := by
  decide +kernel

/-- R142: the first frame of 0x34D and 0x065 from state 0. -/
theorem test_r142 : ((tcFrame 0 ([true, false, true, true, false, false, true, false, true, true]
      ++ [true, false, true, false, false, true, true])).1.map fun b => levelNum (levelOf b.1 b.2)) = [1, -1, 3, 1, -3, -3, 1, -1, 1]
    ∧ (tcFrame 0 [true, false, true, true, false, false, true, false, true, true, true, false, true, false, false, true, true]).2 = 4 := by
  decide +kernel

/-- R181: a loading of 264 tones of 5 bits and 750 of 4 has 4,320 label positions, 2,028 of them in class 0. -/
theorem test_r181 : (labelPositions fun t => if t ∈ dataTones.take 264 then 5 else 4).length = 4320
    ∧ ((labelPositions fun t => if t ∈ dataTones.take 264 then 5 else 4).filter fun p => p.2.2 == 0).length = 2028 := by decide +kernel

/-- R173: 1,014 data tones. -/
theorem test_r173 : dataTones.length = 1014 ∧ isDataTone 40 = false ∧ isDataTone 64 = false ∧ isDataTone 1 = true := by decide +kernel

/-! ### What meets the hypotheses of each statement -/

theorem witness_stepRunsTheFrontCommand :
    ((fun (s : State) (c : Instr) (rest : List Instr) => (s.pending = c :: rest)) ({ laserOn 3 with pending := [.gainStepApply 3] }) (.gainStepApply 3) ([])) ∧
    ((fun (s : State) => (s.pending = [])) (up)) :=
  by and_intros <;> decide +kernel

theorem witness_everyCommandAnswers :
    ((fun (s : State) (h : Half) (r : Req) (l : Lane) => (Takes s h .cfgWrite r) ∧ (reqParam r 0 = 1) ∧ (l.val < 8) ∧ (r.scope = 4) ∧ (r.id.toNat = l.val) ∧ (cfgEntry r 0 = (0x12004 + 0x40 * l.val, 0x2300, 0x3F00))) (up) (0) (req 4 3 [1, 0x120C4, 0x2300, 0x3F00]) (3)) ∧
    ((fun (s : State) (h : Half) (r : Req) => (Takes s h .cfgDiscard r)) ((up.writeShadow .FE_SWING 0 5).writeShadow .FE_SWING 1 5) (0) (req 4 0 [])) ∧
    ((fun (s : State) (h : Half) (r : Req) => (Takes s h .bitswap r) ∧ (s.lmode (reqLane r) = 3) ∧ (s.get .ACQ_STATE (reqLane r) = 3)) (laneD 0) (0) (req 4 0 [1])) ∧
    ((fun (s : State) (h : Half) (r : Req) => (Takes s h .retrain r)) (laneUp 0) (0) (req 4 0 [])) ∧
    ((fun (s : State) (h : Half) (r : Req) (ks : List Cause) => (Takes s h .fenceRelease r) ∧ ((s.namedCauses (reqUnit r) (reqParam r 0)).toOption = some ks) ∧ (ks.findSome? (s.releaseFault (reqUnit r) (Config.stillBright s.draw.1)) = none)) ((laneUp 0).modLane 0 fun x => { x with fences := [.feSeg, .slice] }) (0) (req 4 0 [0]) ([.feSeg])) ∧
    ((fun (s : State) (h : Half) (r : Req) => (Takes s h .eqCapture r) ∧ ((s.scopeLanes r).all s.inData = true) ∧ ((s.scopeLanes r) ≠ [])) (laneUp 0) (0) (req 4 0 [])) ∧
    ((fun (s : State) (h : Half) (r : Req) => (Takes s h .lsLock r) ∧ (s.get .LSH_LOCK h ≠ 1)) (up) (0) (req 1 0 [1])) ∧
    ((fun (s : State) (h : Half) (r : Req) => (Takes s h .safeResume r) ∧ (∀ k ∈ reqHalves r, s.get .LSH_SOFF_PIN k = 1 ∧ s.get .LSH_SOFF_HELD k = 1 ∧ s.get .LSH_SOFF_RESUME k ≠ 1)) (((up.put .LSH_SOFF_PIN 0 1).put .LSH_SOFF_HELD 0 1).put .LSH_SOFF_RESUME 0 0) (0) (req 1 0 [])) ∧
    ((fun (s : State) (h : Half) (r : Req) => (Takes s h .aprRestart r) ∧ ((s.lane (reqLane r)).apr = .hold)) (((((laneUp 0).put .FE_SIG_DET 0 0).putApp .LS_APR_EN 0 1).putApp .LS_LASER_EN 0 1).modLane 0 fun x => { x with apr := .hold }) (0) (req 4 0 [])) ∧
    ((fun (s : State) (h : Half) (r : Req) (x : Ctx) => (Takes s h .loopStatus r) ∧ (x.val = 32 * r.id.toNat + reqParam r 0 % 32)) (up.put .CTX_O_NOW 34 99) (0) (req 2 1 [2]) (34)) ∧
    ((fun (s : State) (h : Half) (r : Req) => (Takes s h .cntClear r)) (laneUp 0) (0) (req 2 0 [])) ∧
    ((fun (s : State) (h : Half) (r : Req) => (Takes s h .monRead r)) (up.put .ENT_CODE 9 1234) (0) (req 1 0 [9])) ∧
    ((fun (s : State) (h : Half) (r : Req) => (Takes s h .eventFilter r) ∧ (reqParam r 0 % 65536 ≠ 0xFFFF)) (up) (0) (req 1 0 [0x30106])) ∧
    ((fun (s : State) (h : Half) (r : Req) => (Takes s h .subscribe r)) (up) (0) (req 2 1 [10])) ∧
    ((fun (s : State) (h : Half) (r : Req) => (Takes s h .unsubscribe r) ∧ ((s.half h).subs.any (fun x => x.id == reqParam r 0) = true)) (up.modHalf 0 fun y => { y with subs := [⟨1, [0], 10, 0⟩] }) (0) (req 1 0 [1])) ∧
    ((fun (s : State) (h : Half) (r : Req) => (Takes s h .snapshot r)) (up) (0) (req 4 3 [])) ∧
    ((fun (s : State) (h : Half) (r : Req) => (Takes s h .groupState r) ∧ (s.get .PG_STATE (reqGroup r) = 0) ∧ (2 ≤ reqParam r 0) ∧ (∀ b : Fin 4, s.askBlock (reqGroup r) b = .accept) ∧ ((fiSlots (reqGroup r).half).all (fun i => s.get .FIS_ACTIVE i != 1) = true) ∧ ((s.half (reqGroup r).half).dev = none) ∧ ((reqGroup r).half.groups.all (fun g => (s.group g).moves.isEmpty) = true) ∧ ((s.half halfA).devWait = [])) (up) (0) (req 2 1 [3])) ∧
    ((fun (s : State) (h : Half) (r : Req) => (Takes s h .deviceState r) ∧ (∀ k : Half, (s.half k).dev = none) ∧ (∀ k : Half, s.get .PH_DSTATE k ≠ reqParam r 0) ∧ (reqParam r 0 ≠ 0) ∧ (∀ g : Group, s.get .PG_STATE g = 3 ∧ (s.group g).moves = [])) ((List.finRange 6).foldl (fun (s : State) (g : Fin 6) => s.put .PG_STATE g 3) up) (0) (req 0 0 [1])) ∧
    ((fun (s : State) (h : Half) (r : Req) => (Takes s h .padRelease r) ∧ (∀ g ∈ reqGroups r, s.get .PG_STATE g = 0 ∧ s.get .PG_PADS_HELD g = 1)) (((up.put .PG_PADS_HELD 0 1).put .PG_PADS_HELD 1 1).put .PG_PADS_HELD 2 1) (0) (req 1 0 [])) ∧
    ((fun (s : State) (h : Half) (r : Req) (g : Group) => (Takes s h .fenceReleaseGroup r) ∧ (r.scope = 2) ∧ (reqGroup r = g) ∧ ((s.group g).fences = [.groupPower]) ∧ (reqParam r 0 = 0)) ((laneUp 9).modGroup 1 fun y => { y with fences := [.groupPower] }) (0) (req 2 1 [0]) (1)) ∧
    ((fun (s : State) (h : Half) (r : Req) => (Takes s h .reset r)) (laneUp 9) (0) (req 4 9 [])) :=
  by and_intros <;> decide +kernel

theorem witness_laserSafety :
    ((fun (s : State) (c : Instr) (rest : List Instr) => (s.pending = c :: rest)) ({ laserOn 3 with pending := [.gainStepApply 3] }) (.gainStepApply 3) ([])) ∧
    ((fun (s : State) (c : Instr) (rest : List Instr) => (s.pending = c :: rest)) ({ laserOn 3 with pending := [.gainStepApply 3] }) (.gainStepApply 3) ([])) ∧
    ((fun (s : State) (c : Instr) (rest : List Instr) => (s.pending = c :: rest)) ({ laserOn 3 with pending := [.gainStepApply 3] }) (.gainStepApply 3) ([])) ∧
    ((fun (s : State) => (LaserSafe s)) (State.reset)) :=
  by and_intros <;> decide +kernel

theorem witness_lanesHeldIdle :
    ((fun (s : State) (c : Instr) (rest : List Instr) => (s.pending = c :: rest)) ({ laserOn 3 with pending := [.gainStepApply 3] }) (.gainStepApply 3) ([])) ∧
    ((fun (s : State) (c : Instr) (rest : List Instr) => (s.pending = c :: rest)) ({ laserOn 3 with pending := [.gainStepApply 3] }) (.gainStepApply 3) ([])) :=
  by and_intros <;> decide +kernel

theorem witness_portUp :
    ((fun (s : State) (c : Instr) (rest : List Instr) => (s.pending = c :: rest)) ({ laserOn 3 with pending := [.gainStepApply 3] }) (.gainStepApply 3) ([])) :=
  by decide +kernel

theorem witness_alertPins :
    ((fun (s : State) (c : Instr) (rest : List Instr) => (s.pending = c :: rest)) ({ laserOn 3 with pending := [.gainStepApply 3] }) (.gainStepApply 3) ([])) :=
  by decide +kernel

theorem witness_frameCoding :
    ((fun (st : Nat) (p : List Bool) (k : Nat) => (p.length = 17) ∧ (k < 8)) (0) (List.replicate 17 true) (7)) ∧
    ((fun (st : Nat) (p : List Bool) => (p.length = 17)) (0) (List.replicate 17 true)) ∧
    ((fun (frames : List (List (Bool × Bool))) (k f : Nat) (x : List (Bool × Bool)) => (frames.length = 240) ∧ (k < 9) ∧ (frames[f]? = some x)) (List.replicate 240 (List.replicate 9 (true, false))) (8) (239) (List.replicate 9 (true, false))) :=
  by and_intros <;> decide +kernel

theorem witness_mdio :
    ((fun (s : State) (h : Half) (a : BitVec 5) (p : Lane) (v : BitVec 16) => (s.mdioPort h a = some p) ∧ (v.getLsbD 15 = true) ∧ (s.get .ACQ_STATE p ≠ 0) ∧ (s.portLanes p = [p])) (laneUp 2) (0) (2) (2) (0x8000)) ∧
    ((fun (s : State) (h : Half) (a : BitVec 5) (p : Lane) (v : BitVec 16) => (s.mdioPort h a = some p) ∧ (v.getLsbD 15 = false)) (laneUp 2) (0) (2) (2) (0x7FFF)) ∧
    ((fun (s : State) (h : Half) (a : BitVec 5) (v : BitVec 16) => (s.mdioPort h a = none)) (up) (0) (2) (0)) ∧
    ((fun (s : State) (h : Half) (a : BitVec 5) (p : Lane) (v : BitVec 16) => (s.mdioPort h a = some p) ∧ (s.portLanes p = [p])) (laneUp 2) (0) (2) (2) (2)) ∧
    ((fun (s : State) (h : Half) (a : BitVec 5) (p : Lane) => (s.mdioPort h a = some p)) ((laneUp 2).modPort 2 fun x => { x with downSeen := true }) (0) (2) (2)) ∧
    ((fun (s : State) (h : Half) (a : BitVec 5) (p : Lane) (d : BitVec 5) (r v : BitVec 16) => (s.mdioPort h a = some p) ∧ (d ≠ 1)) (laneUp 2) (0) (2) (2) (3) (1) (0)) ∧
    ((fun (s : State) (h : Half) (a : BitVec 5) (p : Lane) (v : BitVec 16) => (s.mdioPort h a = some p)) (laneUp 2) (0) (2) (2) (0)) :=
  by and_intros <;> decide +kernel

theorem witness_gainAndSignalDetect :
    ((fun (s : State) (l : Lane) (q : Int) => (s.app .FE_AGC_MODE l = 0) ∧ (s.app .FE_RX_EN l = 1) ∧ ((s.setLevel l q).heldLong l = true)) (((laneUp 0).modLane 0 fun x => { x with condAt := some (-1, 0) }).modHalf 0 fun y => { y with ticks := 250000 }) (0) (7)) ∧
    ((fun (s : State) (l : Lane) (q : Int) => (s.app .FE_AGC_MODE l = 0) ∧ ((s.setLevel l q).heldLong l = false)) (laneUp 0) (0) (7)) ∧
    ((fun (s : State) (l : Lane) (q : Int) => (s.app .FE_AGC_MODE l = 1)) ((laneUp 0).putApp .FE_AGC_MODE 0 1) (0) (7)) ∧
    ((fun (s : State) (l : Lane) => ((s.lane l).gain = none)) (laneUp 0) (0)) ∧
    ((fun (s : State) (l : Lane) (d : Int) (n : Nat) => ((s.lane l).gain = some d) ∧ (s.inData l = true) ∧ ((s.lmode l = 3 → s.swapNow l = false)) ∧ (n = (clampInt (s.app .FE_STEP_MIN l) (s.app .FE_STEP_MAX l) (s.get .FE_GAIN_STEP l + d)).toNat) ∧ (n ≠ s.get .FE_GAIN_STEP l)) ((laneUp 0).modLane 0 fun x => { x with gain := some 1 }) (0) (1) (6)) ∧
    ((fun (s : State) (l : Lane) (d : Int) => ((s.lane l).gain = some d) ∧ (s.inData l = false) ∧ ((s.lane l).phase = .search)) (((laneUp 0).put .ACQ_STATE 0 1).modLane 0 fun x => { x with gain := some (-1) }) (0) (-1)) ∧
    ((fun (s : State) (l : Lane) (clips samples : Nat) => (s.inData l = true) ∧ (s.app .FE_AGC_MODE l = 0) ∧ (samples < clips * 1000) ∧ (s.app .FE_STEP_MIN l < s.get .FE_GAIN_STEP l) ∧ ((s.lane l).overAt.all (fun u => u + 2500 ≤ s.ticks l.half) = true)) (laneUp 0) (0) (2) (1999)) ∧
    ((fun (s : State) (l : Lane) (clips samples : Nat) => (clips * 1000 ≤ samples)) (laneUp 0) (0) (2) (2000)) ∧
    ((fun (s : State) (l : Lane) (q : Int) => (s.get .FE_SIG_DET l = 1) ∧ (s.get .FE_GAIN_STEP l = s.app .FE_STEP_MAX l) ∧ (q - s.appS .FE_TARGET l < -(s.app .FE_LOS_THR l : Int))) ((laneUp 0).put .FE_GAIN_STEP 0 ((laneUp 0).app .FE_STEP_MAX 0)) (0) (-100)) ∧
    ((fun (s : State) (l : Lane) (q : Int) => (s.get .FE_SIG_DET l = 1) ∧ (-(s.app .FE_LOS_THR l : Int) ≤ q - s.appS .FE_TARGET l)) (laneUp 0) (0) (0)) ∧
    ((fun (s : State) (l : Lane) (q : Int) => (s.get .FE_SIG_DET l ≠ 1) ∧ (s.app .FE_RX_EN l = 1) ∧ ((q - s.appS .FE_TARGET l).natAbs + 12 ≤ s.app .FE_LOS_THR l) ∧ (s.fiOn l 2 0 = none)) ((laneUp 0).put .FE_SIG_DET 0 0) (0) ((laneUp 0).appS .FE_TARGET 0)) ∧
    ((fun (s : State) (l : Lane) (q : Int) => (s.app .FE_LOS_THR l < (q - s.appS .FE_TARGET l).natAbs + 12)) ((laneUp 0).put .FE_SIG_DET 0 0) (0) ((laneUp 0).appS .FE_TARGET 0 + 100)) :=
  by and_intros <;> decide +kernel

theorem witness_swingAndSegments :
    ((fun (s : State) (l : Lane) => ((s.lane l).ramp = false)) (laneUp 0) (0)) ∧
    ((fun (s : State) (l : Lane) => ((s.lane l).ramp = true) ∧ ((s.lane l).clk.rampAt + 25000 ≤ s.ticks l.half)) (((laneUp 0).modLane 0 fun x => { x with ramp := true, vsw := 20 }).modHalf 0 fun y => { y with ticks := 25000 }) (0)) ∧
    ((fun (s : State) (l : Lane) => (s.appSet .FE_SEG_ROT_EN l = true) ∧ (s.inData l = true) ∧ (s.get .FE_SEG_FAILED l < 2) ∧ (s.squelched l = false) ∧ ((s.lane l).segSwap = false) ∧ ((s.lane l).segCal.isSome = true) ∧ (s.calServed l.group = true) ∧ ((s.lane l).segDue ≤ s.ticks l.half ∨ (s.lane l).segRetry = true) ∧ ((s.lane l).segOk = true) ∧ ((s.lane l).ramp = false)) (laneUp 0) (0)) ∧
    ((fun (s : State) (l : Lane) => (s.appSet .FE_SEG_ROT_EN l = true) ∧ (s.inData l = true) ∧ (s.get .FE_SEG_FAILED l < 2) ∧ (s.squelched l = false) ∧ ((s.lane l).segSwap = false) ∧ ((s.lane l).segCal.isSome = true) ∧ (s.calServed l.group = true) ∧ ((s.lane l).segDue ≤ s.ticks l.half ∨ (s.lane l).segRetry = true) ∧ ((s.lane l).segOk = true) ∧ ((s.lane l).ramp = true)) ((laneUp 0).modLane 0 fun x => { x with ramp := true }) (0)) ∧
    ((fun (s : State) (l : Lane) (cal : CalResult) => (s.appSet .FE_SEG_ROT_EN l = true) ∧ (s.inData l = true) ∧ (s.get .FE_SEG_FAILED l < 2) ∧ (s.squelched l = false) ∧ ((s.lane l).segSwap = false) ∧ ((s.lane l).segCal.isSome = true) ∧ (s.calServed l.group = true) ∧ ((s.lane l).segDue ≤ s.ticks l.half ∨ (s.lane l).segRetry = true) ∧ ((s.lane l).segOk = false) ∧ (calAgrees cal 1 = true) ∧ (calBad cal 1 = false) ∧ ((s.lane l).ramp = false)) ((laneUp 0).modLane 0 fun x => { x with segOk := false }) (0) (⟨⟨1000, 1000, 5, 9⟩, ⟨1010, 1010, 6, 9⟩, 1005, 1000⟩)) ∧
    ((fun (s : State) (l : Lane) (cal : CalResult) (c : Nat) => ((s.lane l).segSwap = true) ∧ ((s.lane l).segCal = some c) ∧ (calBad cal 1 = false)) ((laneUp 0).modLane 0 fun x => { x with segSwap := true }) (0) (⟨⟨1000, 1000, 5, 9⟩, ⟨1010, 1010, 6, 9⟩, 1005, 1000⟩) (128)) ∧
    ((fun (s : State) (l : Lane) (cal : CalResult) => ((s.lane l).segSwap = true) ∧ (calBad cal 1 = true)) (((laneUp 0).put .FE_SEG_FAILED 0 2).modLane 0 fun x => { x with segSwap := true }) (0) (⟨⟨200, 1000, 5, 9⟩, ⟨210, 1010, 6, 9⟩, 105, 1000⟩)) ∧
    ((fun (s : State) (l : Lane) => ((s.lane l).segSwap = true) ∧ ((s.lane l).clk.segAt + 5000 ≤ s.ticks l.half)) (((laneUp 0).modLane 0 fun x => { x with segSwap := true }).modHalf 0 fun y => { y with ticks := 5000 }) (0)) ∧
    ((fun (s : State) (l : Lane) => ((s.lane l).segSwap = true) ∧ ((s.lane l).clk.segAt + 5000 ≤ s.ticks l.half) ∧ ((s.lane l).segCal.isSome = true) ∧ (s.get .FE_SEG_FAILED l < 2)) (((laneUp 0).modLane 0 fun x => { x with segSwap := true }).modHalf 0 fun y => { y with ticks := 5000 }) (0)) :=
  by and_intros <;> decide +kernel

theorem witness_subAdcRotation :
    ((fun (s : State) (l : Lane) (cal : CalResult) (p : Nat) => (s.appSet .FE_ROT_EN l = true) ∧ (s.inData l = true) ∧ (s.get .FE_SADC_FAILED l = 0) ∧ (s.get .FE_HANDOVER l ≠ 1) ∧ (s.calServed l.group = true) ∧ ((s.lane l).sadcDue ≤ s.ticks l.half) ∧ ((s.lane l).spare = some p) ∧ (calAgrees cal 0 = true) ∧ (calBad cal 0 = false) ∧ (s.actionSoon l (sadcRun (s.lmode l)) = false)) (laneUp 0) (0) (⟨⟨100, 1000, 5, 9⟩, ⟨110, 1010, 6, 9⟩, 105, 1000⟩) (64)) ∧
    ((fun (s : State) (l : Lane) (cal : CalResult) (p : Nat) => (s.appSet .FE_ROT_EN l = true) ∧ (s.inData l = true) ∧ (s.get .FE_SADC_FAILED l = 0) ∧ (s.get .FE_HANDOVER l ≠ 1) ∧ (s.calServed l.group = true) ∧ ((s.lane l).sadcDue ≤ s.ticks l.half) ∧ ((s.lane l).spare = some p) ∧ (calAgrees cal 0 = false)) (laneUp 0) (0) (⟨⟨100, 1000, 5, 9⟩, ⟨1100, 1010, 6, 9⟩, 105, 1000⟩) (64)) ∧
    ((fun (s : State) (l : Lane) (cal : CalResult) => (s.ticks l.half < (s.lane l).sadcDue)) ((laneUp 0).modLane 0 fun x => { x with sadcDue := 9 }) (0) (⟨⟨100, 1000, 5, 9⟩, ⟨110, 1010, 6, 9⟩, 105, 1000⟩)) ∧
    ((fun (s : State) (l : Lane) => (s.appSet .FE_ROT_EN l = true) ∧ (s.inData l = true) ∧ (s.get .FE_SADC_FAILED l = 0) ∧ (s.get .FE_HANDOVER l ≠ 1) ∧ (s.calServed l.group = true) ∧ ((s.lane l).sparePassed = true) ∧ (s.actionSoon l (sadcRun (s.lmode l)) = false) ∧ ((s.lane l).sadcRetry = true)) ((laneUp 0).modLane 0 fun x => { x with sadcRetry := true }) (0)) ∧
    ((fun (s : State) (l : Lane) (cal : CalResult) (p : Nat) => (s.appSet .FE_ROT_EN l = true) ∧ (s.inData l = true) ∧ (s.get .FE_SADC_FAILED l = 0) ∧ (s.get .FE_HANDOVER l ≠ 1) ∧ (s.calServed l.group = true) ∧ ((s.lane l).spare = some p) ∧ (calAgrees cal 0 = true) ∧ (calBad cal 0 = false) ∧ (s.actionSoon l (sadcRun (s.lmode l)) = false) ∧ ((s.lane l).sadcRetry = true)) ((laneUp 0).modLane 0 fun x => { x with sadcRetry := true, sparePassed := false }) (0) (⟨⟨100, 1000, 5, 9⟩, ⟨110, 1010, 6, 9⟩, 105, 1000⟩) (64)) ∧
    ((fun (s : State) (l : Lane) => (s.appSet .FE_ROT_EN l = true) ∧ (s.inData l = true) ∧ (s.get .FE_SADC_FAILED l = 0) ∧ (s.get .FE_HANDOVER l ≠ 1) ∧ (s.calServed l.group = true) ∧ ((s.lane l).sparePassed = true) ∧ (s.actionSoon l (sadcRun (s.lmode l)) = true) ∧ ((s.lane l).sadcRetry = true)) ((laneUp 0).modLane 0 fun x => { x with gain := some 1, sadcRetry := true }) (0)) ∧
    ((fun (s : State) (l : Lane) (cal : Option CalResult) => ((s.lane l).sadcRetry = false)) (laneUp 0) (0) (none)) ∧
    ((fun (s : State) (l : Lane) (c : HandoverCmp) (p k n : Nat) => (s.get .FE_HANDOVER l = 1) ∧ ((s.lane l).spare = some p) ∧ ((s.lane l).outgoing = some (k, n)) ∧ (2048 ≤ c.pairs) ∧ (c.meanMilli.natAbs ≤ 125) ∧ (c.rmsMilli ≤ 600)) ((laneUp 0).put .FE_HANDOVER 0 1) (0) (⟨2048, -125, 600, ⟨⟨100, 1000, 5, 9⟩, ⟨110, 1010, 6, 9⟩, 105, 1000⟩, ⟨⟨100, 1000, 5, 9⟩, ⟨110, 1010, 6, 9⟩, 105, 1000⟩⟩) (64) (0) (0)) ∧
    ((fun (s : State) (l : Lane) (c : HandoverCmp) => (s.get .FE_HANDOVER l = 1) ∧ (c.pairs < 2048) ∧ ((s.lane l).disagree < 2)) ((laneUp 0).put .FE_HANDOVER 0 1) (0) (⟨2047, 0, 0, ⟨⟨100, 1000, 5, 9⟩, ⟨110, 1010, 6, 9⟩, 105, 1000⟩, ⟨⟨100, 1000, 5, 9⟩, ⟨110, 1010, 6, 9⟩, 105, 1000⟩⟩)) ∧
    ((fun (s : State) (l : Lane) (c : HandoverCmp) (p k n : Nat) => (s.get .FE_HANDOVER l = 1) ∧ (600 < c.rmsMilli) ∧ ((s.lane l).disagree = 2) ∧ ((s.lane l).spare = some p) ∧ ((s.lane l).outgoing = some (k, n)) ∧ (calBad c.incoming 0 = true) ∧ (calBad c.outgoing 0 = false) ∧ (s.get .FE_SADC_FAILED l = 0)) (((laneUp 0).put .FE_HANDOVER 0 1).modLane 0 fun x => { x with disagree := 2 }) (0) (⟨4160, 0, 601, ⟨⟨5000, 1000, 5, 9⟩, ⟨5010, 1010, 6, 9⟩, 105, 1000⟩, ⟨⟨100, 1000, 5, 9⟩, ⟨110, 1010, 6, 9⟩, 105, 1000⟩⟩) (64) (0) (0)) ∧
    ((fun (s : State) (l : Lane) (devs : List SubAdcDev) (clips samples : Nat) => (s.get .FE_HANDOVER l ≠ 1) ∧ ((devs.all fun d => !sadcOff d.offset d.gain) = true)) ((laneUp 0).modLane 0 fun x => { x with outside := [4] }) (0) ([⟨4, 2000, -2000⟩]) (1) (9999)) ∧
    ((fun (s : State) (l : Lane) (d : SubAdcDev) (clips samples : Nat) => (s.get .FE_HANDOVER l ≠ 1) ∧ (sadcOff d.offset d.gain = true) ∧ (d.sub.val ∈ (s.lane l).phases) ∧ (d.sub.val ∉ (s.lane l).outside)) (laneUp 0) (0) (⟨4, 2001, 0⟩) (0) (9999)) ∧
    ((fun (s : State) (l : Lane) (d : SubAdcDev) (clips samples : Nat) => (s.get .FE_HANDOVER l ≠ 1) ∧ (sadcOff d.offset d.gain = true) ∧ (d.sub.val ∈ (s.lane l).phases) ∧ (d.sub.val ∈ (s.lane l).outside)) (((laneUp 0).put .FE_SADC_FAILED 0 1).modLane 0 fun x => { x with outside := [4] }) (0) (⟨4, 0, -2001⟩) (0) (9999)) :=
  by and_intros <;> decide +kernel

theorem witness_registerWrites :
    ((fun (s : State) (h : Half) (off : BitVec 20) (v : W32) => (s.running h = true) ∧ (s.answers h = true) ∧ (off.toNat % 4 = 0)) (up) (0) (0x70000) (0x5A00)) ∧
    ((fun (s : State) (h : Half) (off : BitVec 20) (v : W32) => (s.answers h = true) ∧ (off.toNat % 4 = 0)) (up) (0) (0x800) (5)) ∧
    ((fun (s : State) (h : Half) (off : BitVec 20) (n : Nat) (v : W32) => (s.running h = true) ∧ (s.answers h = true) ∧ (n ≠ 4 ∨ off.toNat % 4 ≠ 0) ∧ (s.get .HIF_BAD_ACCESS h ≠ 1)) (up) (0) (0x40000) (2) (5)) ∧
    ((fun (s : State) (h : Half) (off : BitVec 20) (v : W32) => (s.get .BOOT_STATE h = 0) ∧ (off.toNat % 4 = 0)) (State.reset) (0) (0x40000) (5)) ∧
    ((fun (s : State) (h : Half) (b : Bar) (off : BitVec 20) (n : Nat) (v : W32) => (s.answers h = false)) (up.put .PH_D3_HOT 0 1) (0) (.bar0) (0) (4) (5)) ∧
    ((fun (s : State) (h : Half) (v : W32) => (s.running h = true) ∧ (s.answers h = true)) ((up.put .TIME_SLEW_DONE 0 1).put .TIME_STEP_DONE 0 1) (0) (0x20)) ∧
    ((fun (s : State) (g : Group) (i : Fin 8) (off : BitVec 20) (v : W32) => (s.running g.half = true) ∧ (s.answers g.half = true) ∧ (off.toNat = 0x12004 + 0x10000 * (g.val % 3) + 0x40 * i.val)) (up) (4) (2) (0x22084) (0x3F00)) ∧
    ((fun (s : State) (h : Half) (v : W32) => (s.running h = true) ∧ (s.answers h = true) ∧ (85 ≤ v.toNat / 256 % 256) ∧ (v.toNat / 256 % 256 ≤ 101)) (up) (0) (0x5A00)) ∧
    ((fun (s : State) (h : Half) (v : W32) => (s.running h = true) ∧ (s.answers h = true) ∧ (s.get .LSH_LOCK h = 1) ∧ (s.manages h = true) ∧ ((s.half h).filter 0x0106 ≤ 1)) (up.put .LSH_LOCK 0 1) (0) (3)) ∧
    ((fun (s : State) (h : Half) => (s.running h = true) ∧ (s.answers h = true) ∧ (∀ x ∈ (s.half h).latch, x.1 ≠ 0x1800)) (up.put .PC_CYC 7 9) (1)) ∧
    ((fun (s : State) (l : Lane) (off : BitVec 20) => (s.running l.half = true) ∧ (s.answers l.half = true) ∧ (off.toNat = 0x16020 + 0x10000 * (l.group.val % 3) + 0x100 * (l.val % 8))) (up.put .FECS_CW 18 (2 ^ 32 + 5)) (9) (0x26120)) ∧
    ((fun (s : State) (l : Lane) (off : BitVec 20) (v : Nat) => (s.running l.half = true) ∧ (s.answers l.half = true) ∧ (off.toNat = 0x16024 + 0x10000 * (l.group.val % 3) + 0x100 * (l.val % 8)) ∧ ((s.half l.half).latch.find? (fun p => p.1 == off.toNat) = some (off.toNat, v))) (up.modHalf 0 fun y => { y with latch := [(0x60000, 3), (0x26124, 7)] }) (9) (0x26124) (7)) ∧
    ((fun (s : State) (h : Half) => (s.answers h = true) ∧ (s.running h = false) ∧ (s.get .BOOT_STATE h ≠ 2)) (State.reset) (0)) ∧
    ((fun (s : State) (h : Half) (off : BitVec 20) => (s.running h = true) ∧ (s.answers h = true) ∧ (off.toNat % 4 = 0)) (up) (0) (0x70000)) ∧
    ((fun (s : State) (h : Half) (off : BitVec 20) => (s.answers h = true) ∧ (off.toNat % 4 = 0)) (up) (0) (0xC00)) ∧
    ((fun (s : State) (h : Half) (off : BitVec 20) => (s.answers h = true) ∧ (off.toNat % 8 = 0)) (up) (0) (0x1000)) ∧
    ((fun (s : State) (h : Half) (b : Bar) (off : BitVec 20) (n : Nat) => (s.answers h = true) ∧ (b ≠ .bar4) ∧ (n ≠ 4 ∨ off.toNat % 4 ≠ 0)) (up) (0) (.bar2) (6) (4)) :=
  by and_intros <;> decide +kernel

theorem witness_adaptation :
    ((fun (s : State) (l : Lane) (m : BlockMeasures) => (s.get .EQ_ADAPT l = 0)) ((laneUp 0).put .EQ_ADAPT 0 0) (0) (⟨[], []⟩)) ∧
    ((fun (s : State) (l : Lane) (m : BlockMeasures) => (s.get .EQ_ADAPT l ≠ 0) ∧ (s.lmode l ≤ 1) ∧ ((s.lane l).block.isSome = true) ∧ (m.samples.length = s.blockSamples l)) (((laneUp 0).put .EQ_ADAPT 0 2).putApp .EQ_BLOCK_LOG2 0 4 |>.putApp .EQ_DECIM_LOG2 0 4 |>.modLane 0 fun x => { x with block := some 0 }) (0) (⟨[⟨List.replicate 48 7, List.replicate 8 0, 2, 1⟩], []⟩)) ∧
    ((fun (s : State) (l : Lane) (m : BlockMeasures) => (s.get .EQ_ADAPT l ≠ 0) ∧ (s.lmode l = 2) ∧ ((s.lane l).block.isSome = true) ∧ (m.samples.length = s.blockSamples l) ∧ ((s.lane l).lamN ≠ 0)) ((((laneT 0).put .EQ_ADAPT 0 2).putApp .EQ_BLOCK_LOG2 0 4 |>.putApp .EQ_DECIM_LOG2 0 4 |>.modLane 0 fun x => { x with block := some 0 }).modLane 0 fun x => { x with lamSum := 3, lamN := 2 }) (0) (⟨[⟨List.replicate 48 7, List.replicate 8 0, 2, 1⟩], []⟩)) ∧
    ((fun (s : State) (l : Lane) (m : BlockMeasures) => (s.get .EQ_ADAPT l ≠ 0) ∧ (s.lmode l = 3) ∧ ((s.lane l).lamN ≠ 0)) (((laneD 0).put .EQ_ADAPT 0 2).modLane 0 fun x => { x with lamSum := 3, lamN := 2 }) (0) (⟨[], []⟩)) ∧
    ((fun (s : State) (l : Lane) (a : Accum) => (s.get .EQ_ADAPT l = 1 ∨ s.get .EQ_ADAPT l = 2) ∧ (s.get .EQ_HOLD l ≠ 1) ∧ (s.lmode l ≠ 3) ∧ ((s.lane l).acc = some a)) (((laneUp 0).put .EQ_ADAPT 0 2).modLane 0 fun x => { x with acc := some {} }) (0) ({})) ∧
    ((fun (s : State) (l : Lane) (k : Knd) => ((s.get .EQ_ADAPT l ≠ 1 ∧ s.get .EQ_ADAPT l ≠ 2) ∨ s.get .EQ_HOLD l = 1 ∨ s.lmode l = 3 ∨ k ≠ l.adaptKnd)) ((laneUp 0).put .EQ_ADAPT 0 3) (0) (7)) ∧
    ((fun (s : State) (l : Lane) (b : Bank) => (s.lmode l ≠ 3) ∧ ((s.lane l).swap = some b) ∧ (∀ h : Half, (s.half h).snaps = [])) ((laneUp 0).modLane 0 fun x => { x with swap := some ⟨List.replicate 48 20000, [7], 3⟩ }) (0) (⟨List.replicate 48 20000, [7], 3⟩)) ∧
    ((fun (s : State) (l : Lane) => (s.lmode l = 3) ∧ ((s.lane l).feq ≠ []) ∧ (s.swapNow l = false) ∧ (∀ h : Half, (s.half h).snaps = [])) ((laneD 0).modLane 0 fun x => { x with feq := [(3, 5, -6), (4, 40000, 0)] }) (0)) ∧
    ((fun (s : State) (l : Lane) => (s.lmode l = 3) ∧ (s.swapNow l = true)) ((laneD 0).modLane 0 fun x => { x with feq := [(3, 5, -6)], switched := some 0 }) (0)) ∧
    ((fun (s : State) (l : Lane) => (s.lmode l ≠ 3) ∧ ((s.lane l).swap = none) ∧ ((s.lane l).feq = [])) (laneUp 0) (0)) ∧
    ((fun (s : State) (l : Lane) (m : Rat) => ((s.lane l).ckptDue ≤ s.ticks l.half) ∧ ((s.lane l).mse.head? = some m) ∧ (s.inData l = true) ∧ (s.lmode l ≠ 3) ∧ (s.get .EQ_CKPT_VALID l ≠ 1 ∨ 16 * m ≤ 20 * (s.lane l).ckptMse)) (((laneUp 0).put .EQ_CKPT_VALID 0 1).modLane 0 fun x => { x with mse := [(5 : Rat) / 4], ckptMse := 1 }) (0) ((5 : Rat) / 4)) ∧
    ((fun (s : State) (l : Lane) (m : Rat) => ((s.lane l).mse.head? = some m) ∧ (s.get .EQ_CKPT_VALID l = 1) ∧ (20 * (s.lane l).ckptMse < 16 * m)) (((laneUp 0).put .EQ_CKPT_VALID 0 1).modLane 0 fun x => { x with mse := [(6 : Rat) / 4], ckptMse := 1 }) (0) ((6 : Rat) / 4)) ∧
    ((fun (s : State) (l : Lane) => ((s.lane l).revertDue = true) ∧ (s.lmode l ≠ 3) ∧ (∀ h : Half, (s.half h).snaps = []) ∧ (((s.lane l).reverts.filter fun u => s.ticks l.half - u < 25000000).length < 3)) (((laneUp 0).put .EQ_ADAPT 0 2).modLane 0 fun x => { x with revertDue := true, swap := some {} }) (0)) ∧
    ((fun (s : State) (l : Lane) => ((s.lane l).revertDue = true) ∧ (s.lmode l ≠ 3) ∧ (∀ h : Half, (s.half h).snaps = []) ∧ (3 ≤ ((s.lane l).reverts.filter fun u => s.ticks l.half - u < 25000000).length)) (((laneUp 0).put .EQ_ADAPT 0 2).modLane 0 fun x => { x with revertDue := true, reverts := [0, 0, 0] }) (0)) ∧
    ((fun (s : State) (l : Lane) (c : Accum) (k : Nat) => (k < 48) ∧ (inWindow (s.get .EQ_EFFORT l) (s.app .EQ_MAIN l) k = false)) ((laneUp 0).put .EQ_EFFORT 0 0) (0) ({}) (47)) ∧
    ((fun (s : State) (l : Lane) (c : Accum) (k : Nat) => (k < 48) ∧ (s.inData l = true) ∧ (k + 1 = s.app .EQ_MAIN l)) (laneUp 0) (0) ({}) ((laneUp 0).app .EQ_MAIN 0 - 1)) ∧
    ((fun (s : State) (l : Lane) (b : Bank) (k : Nat) => (b.ffe.length = 48) ∧ (k < 48) ∧ (s.inData l = true) ∧ (k + 1 = s.app .EQ_MAIN l)) (laneUp 0) (0) (⟨List.replicate 48 9, [], 0⟩) ((laneUp 0).app .EQ_MAIN 0 - 1)) ∧
    ((fun (mu n mx frac w old : Nat) (corr : Rat) => (0 < w)) (3) (64) (8) (12) (14) (8191) (-4294967296)) :=
  by and_intros <;> decide +kernel

theorem witness_timingLock :
    ((fun (s : State) (l : Lane) => (s.get .EQ_LOCK l ≠ 1) ∧ (s.get .ACQ_STATE l ≠ 0) ∧ (s.get .ACQ_STATE l ≠ 5 ∨ s.get .FEC_CW_LOCK l ≠ 1)) (laneUp 0) (0)) ∧
    ((fun (s : State) (l : Lane) => (s.get .EQ_LOCK l ≠ 1) ∧ (s.get .ACQ_STATE l = 5) ∧ (s.get .FEC_CW_LOCK l = 1) ∧ (s.lmode l ≠ 3) ∧ (s.kndOut l.acqKnd = false)) (((laneUp 0).put .ACQ_STATE 0 5).put .FEC_CW_LOCK 0 1) (0)) ∧
    ((fun (s : State) (l : Lane) => (s.get .EQ_LOCK l = 1) ∧ (s.inData l = true)) ((laneUp 0).put .EQ_LOCK 0 1) (0)) ∧
    ((fun (s : State) (l : Lane) => (s.get .EQ_LOCK l = 1) ∧ (s.inData l = false)) (((laneUp 0).put .EQ_LOCK 0 1).put .ACQ_STATE 0 1) (0)) ∧
    ((fun (s : State) (l : Lane) => (s.get .EQ_LOCK l ≠ 1)) (laneUp 0) (0)) ∧
    ((fun (s : State) (l : Lane) => (s.lmode l ≤ 1) ∧ (s.get .ACQ_STATE l = 5) ∧ (s.get .EQ_LOCK l = 1) ∧ (s.kndOut l.acqKnd = false)) (((laneUp 0).put .ACQ_STATE 0 5).put .EQ_LOCK 0 1) (0)) ∧
    ((fun (s : State) (l : Lane) => (s.lmode l ≤ 1) ∧ (s.get .ACQ_STATE l ≠ 0) ∧ (s.get .ACQ_STATE l ≠ 5 ∨ s.get .EQ_LOCK l ≠ 1) ∧ (s.get .ACQ_STATE l ≠ 2 ∨ (s.lane l).rxBegun = false)) (laneUp 0) (0)) :=
  by and_intros <;> decide +kernel

theorem witness_effortAndSlices :
    ((fun (s : State) (l : Lane) => ((s.lane l).effortDue = true) ∧ (∀ h : Half, (s.half h).snaps = [])) ((laneUp 0).modLane 0 fun x => { x with effortDue := true, throttle := 1 }) (0)) ∧
    ((fun (s : State) (g : Group) (l : Lane) => (s.savesLane g = none) ∧ (s.sliceReady g = true) ∧ (s.nextTurn g = some l) ∧ ((s.group g).rotDue ≤ s.ticks g.half ∨ (s.group g).rotRetry.isSome = true) ∧ (s.actionSoon l (sliceRunNs (s.lmode l)) = false)) (((laneUp 0).putApp .SROT_EN 0 1).modGroup 0 fun x => { x with tested := true }) (0) (0)) ∧
    ((fun (s : State) (g : Group) => (s.savesLane g = none) ∧ (s.ticks g.half + msTicks 2 < (s.group g).rotDue) ∧ ((s.group g).rotRetry = none)) ((laneUp 0).modGroup 0 fun x => { x with rotDue := 1000000 }) (0)) ∧
    ((fun (s : State) (g : Group) (l : Lane) => (s.savesLane g = some l) ∧ ((s.group g).sliceRun = none) ∧ (s.get .SP_SLICE_SPARE (Group.spIdx g) ≠ 0) ∧ (s.inData l = true) ∧ (s.actionSoon l (sliceRunNs (s.lmode l)) = false) ∧ ((s.group g).sliceTest = none) ∧ (l.group = g)) ((((laneUp 0).put .ST_STATE 0 1).put .ST_KIND 0 0).modHalf 0 fun y => { y with stCmd := some ⟨.selftest, req 1 0 [0], 0, 0, 0, 0, 0, none, 0⟩ }) (0) (0)) ∧
    ((fun (s : State) (g : Group) (l : Lane) => (s.savesLane g = none) ∧ (s.sliceReady g = true) ∧ (s.nextTurn g = some l) ∧ ((s.group g).rotDue ≤ s.ticks g.half ∨ (s.group g).rotRetry.isSome = true) ∧ (s.actionSoon l (sliceRunNs (s.lmode l)) = true)) ((((laneUp 0).putApp .SROT_EN 0 1).modGroup 0 fun x => { x with tested := true }).modLane 0 fun x => { x with gain := some 1 }) (0) (0)) ∧
    ((fun (s : State) (g : Group) (l : Lane) => ((s.group g).sliceRun = some l) ∧ (s.savesLane g = none)) ((laneUp 0).modGroup 0 fun x => { x with sliceRun := some 0, tested := true }) (0) (0)) ∧
    ((fun (s : State) (g : Group) (l : Lane) (rx tx : Bool) => ((s.group g).sliceRun = some l) ∧ ((rx && tx) = false) ∧ ((s.group g).mismatch = 0)) ((laneUp 0).modGroup 0 fun x => { x with sliceRun := some 0 }) (0) (0) (true) (false)) ∧
    ((fun (s : State) (g : Group) (l : Lane) (rx tx : Bool) => ((s.group g).sliceRun = some l) ∧ ((rx && tx) = false) ∧ (1 ≤ (s.group g).mismatch)) ((laneUp 0).modGroup 0 fun x => { x with sliceRun := some 0, mismatch := 1 }) (0) (0) (false) (true)) ∧
    ((fun (s : State) (l : Lane) => (s.get .SP_SLICE_SPARE (Group.spIdx l.group) = 0) ∧ (Cause.slice ∉ (s.lane l).fences) ∧ (s.idleLane l = none)) (((laneUp 0).put .SP_SLICE_SPARE 0 0).each ([1, 2, 3, 4, 5, 6, 7] : List Lane) fun s k => s.modLane k fun x => { x with fences := [Cause.slice] }) (0)) ∧
    ((fun (s : State) (l m : Lane) => (s.get .SP_SLICE_SPARE (Group.spIdx l.group) = 0) ∧ (Cause.slice ∉ (s.lane l).fences) ∧ (s.idleLane l = some m) ∧ ((s.group l.group).sliceRun = none) ∧ (s.testLends l.half 0 (Group.spIdx l.group) = false)) ((laneUp 0).put .SP_SLICE_SPARE 0 0) (0) (1)) ∧
    ((fun (s : State) (l : Lane) => (s.get .SP_SLICE_SPARE (Group.spIdx l.group) ≠ 0) ∧ (Cause.slice ∉ (s.lane l).fences)) (laneUp 0) (0)) ∧
    ((fun (s : State) (l : Lane) (v : W32) => (s.running l.half = true) ∧ (s.answers l.half = true) ∧ (v.getLsbD 0 = true) ∧ (s.inData l = true)) (laneUp 0) (0) (1)) ∧
    ((fun (s : State) (l : Lane) (v : W32) => (s.running l.half = true) ∧ (s.answers l.half = true) ∧ (v.getLsbD 0 = true) ∧ (s.inData l = false)) ((laneUp 0).put .ACQ_STATE 0 1) (0) (1)) ∧
    ((fun (s : State) (l : Lane) => ((s.lane l).capture = true)) ((laneUp 0).modLane 0 fun x => { x with capture := true, swap := some ⟨[5], [], 3⟩ }) (0)) ∧
    ((fun (s : State) (l : Lane) => ((s.lane l).capture = false)) (laneUp 0) (0)) :=
  by and_intros <;> decide +kernel

theorem witness_codewords :
    ((fun (fs : FecSet) (e : Bool) (w : List (Nat × Rat)) => ((decodeWord fs e w).1 = .delivered)) (⟨0, 0, false, false⟩) (false) ([])) ∧
    ((fun (fs : FecSet) (e : Bool) (w : List (Nat × Rat)) => ((decodeWord fs e w).1 = .uncorrectable)) (⟨0, 0, false, false⟩) (false) ((List.range 16).map fun k => (k + 1, 0))) ∧
    ((fun (fs : FecSet) (e : Bool) (w : List (Nat × Rat)) => ((rsSyndromes (w.map (·.1))).all (· == 0) = true)) (⟨0, 0, false, false⟩) (true) ([(0, 0)])) ∧
    ((fun (s : State) (l : Lane) (side : Fin 2) (fs : FecSet) => (s.app .FEC_FEC_MODE l = 0 ∨ fs.eraseEn = false ∨ side = 1 ∨ s.lmode l ≤ 1)) (laneT 0) (0) (0) (⟨0, 0, true, false⟩)) ∧
    ((fun (s : State) (l p : Lane) (codes : List Nat) (phase : Fin 64) => (s.portOf l = some p) ∧ (s.get .ACQ_RX_DATA l = 1) ∧ (s.lmode l ≤ 1) ∧ (s.portLanes p = [l]) ∧ ((s.port p).lineBits = []) ∧ (s.fiOn l 3 0 = none) ∧ (s.fiOn l 4 0 = none)) ((laneUp 0).put .ACQ_RX_DATA 0 1) (0) (0) ([]) (0)) ∧
    ((fun (s : State) (l p : Lane) (codes : List Nat) (phase : Fin 64) => (s.portOf l = some p) ∧ ((s.portLanes p).all (fun x => s.isSet .ACQ_RX_DATA x) = true) ∧ (s.lmode l ≤ 1) ∧ (2 ≤ (s.portLanes p).length) ∧ ((s.port p).lineBits = [])) (((laneMode 0 2 0).put .ACQ_RX_DATA 0 1).put .ACQ_RX_DATA 1 1 |>.put .ACQ_RX_DATA 2 1 |>.put .ACQ_RX_DATA 3 1) (0) (0) ([]) (0)) ∧
    ((fun (s : State) (l p : Lane) (codes : List Nat) (phase : Fin 64) => (s.portOf l = some p) ∧ (s.get .ACQ_RX_DATA l = 1) ∧ (s.lmode l = 2) ∧ (s.fiOn l 3 0 = none) ∧ (s.fiOn l 4 0 = none)) ((laneT 0).put .ACQ_RX_DATA 0 1) (0) (0) ([]) (0)) ∧
    ((fun (s : State) (l p : Lane) (syms : List DmtSymbol) => (s.portOf l = some p) ∧ (s.get .ACQ_RX_DATA l = 1) ∧ (s.lmode l = 3) ∧ (s.fiOn l 3 0 = none) ∧ (s.fiOn l 4 0 = none)) ((laneD 0).put .ACQ_RX_DATA 0 1) (0) (0) ([])) ∧
    ((fun (s : State) (l p : Lane) (codes : List Nat) (phase : Fin 64) => (s.portOf l = some p) ∧ (s.get .ACQ_RX_DATA l ≠ 1) ∧ (s.lmode l ≠ 3) ∧ (l ∈ s.portLanes p)) ((laneT 0).put .ACQ_RX_DATA 0 0) (0) (0) ([]) (0)) ∧
    ((fun (s : State) (l m : Lane) (ws : List (List Bool)) => (s.portOf l = some l) ∧ (ws.length = (s.portHlanes l).length) ∧ (s.hostUp l = true) ∧ (m ∈ s.portLanes l)) (((hostAt 5).put .HST_STAGE 1 5).put .HST_STAGE 2 5 |>.put .HST_STAGE 3 5) (0) (0) ([[], []])) ∧
    ((fun (s : State) (l : Lane) (ws : List (List Bool)) => (s.portOf l = some l) ∧ (ws.length = (s.portHlanes l).length) ∧ (s.hostUp l = false) ∧ ((s.portLanes l).any (fun m => s.sendsData m) = false)) (hostAt 5) (0) ([[], []])) ∧
    ((fun (s : State) (l : Lane) (ws : List (List Bool)) => (s.portOf l ≠ some l ∨ ws.length ≠ (s.portHlanes l).length)) (hostAt 5) (0) ([])) ∧
    ((fun (s : State) (l : Lane) => (s.get .FEC_CW_LOCK l = 1) ∧ (s.lmode l ≤ 1 ∨ 64 ≤ (s.lane l).uncorr) ∧ (s.inData l = true)) (((laneT 0).put .FEC_CW_LOCK 0 1).modLane 0 fun x => { x with uncorr := 64 }) (0)) ∧
    ((fun (s : State) (l : Lane) => (s.get .FEC_CW_LOCK l = 1) ∧ (s.lmode l ≤ 1) ∧ (s.inData l = false)) (((laneUp 0).put .FEC_CW_LOCK 0 1).put .ACQ_STATE 0 5) (0)) ∧
    ((fun (s : State) (l : Lane) => (2 ≤ s.lmode l) ∧ ((s.lane l).uncorr < 64)) ((laneT 0).put .FEC_CW_LOCK 0 1) (0)) ∧
    ((fun (s : State) (l : Lane) (v : W32) => (s.running l.half = true) ∧ (s.answers l.half = true) ∧ (v.getLsbD 0 = true)) (laneT 0) (0) (1)) ∧
    ((fun (s : State) (l : Lane) => ((s.lane l).clear = true)) (((laneT 1).put .FECS_SYM_ERR 3 8).modLane 1 fun x => { x with clear := true }) (1)) ∧
    ((fun (s : State) (l : Lane) (tx rx : BitVec 16) => (s.inData l = true) ∧ (s.get .FEC_LAT_VALID l ≠ 1) ∧ (s.latencyOk l false tx.toNat = true) ∧ (s.latencyOk l true rx.toNat = true) ∧ (s.fiAny l 6 = none)) (laneT 0) (0) (1888) (2432)) :=
  by and_intros <;> decide +kernel

theorem witness_doorbellsAndRings :
    ((fun (s : State) (h : Half) (q : Fin 4) (v : W32) => (s.answers h = true) ∧ (v.toNat % 65536 < s.depth h (cmdRing q)) ∧ (s.manages h = true)) (up) (0) (2) (0x10005)) ∧
    ((fun (s : State) (h : Half) (v : W32) => (s.answers h = true) ∧ (v.toNat % 65536 < s.depth h (4))) (up) (0) (0x10005)) ∧
    ((fun (s : State) (h : Half) (v : W32) => (s.answers h = true) ∧ (v.toNat % 65536 < s.depth h (5))) (up) (0) (0x10005)) ∧
    ((fun (s : State) (h : Half) (v : W32) => (s.answers h = true) ∧ (v.toNat % 65536 < s.depth h (6))) (up) (0) (0x10005)) ∧
    ((fun (s : State) (h : Half) (v : W32) => (s.answers h = true) ∧ (v.toNat % 65536 < s.depth h (7))) (up) (0) (0x10005)) ∧
    ((fun (s : State) (h : Half) (q : Fin 4) (v : W32) => (s.answers h = true) ∧ (s.manages h = true) ∧ (s.depth h (cmdRing q) ≤ v.toNat % 65536) ∧ (s.get .RING_HALTED (ringIdx h (cmdRing q)) ≠ 1)) (up) (0) (2) (16)) ∧
    ((fun (s : State) (h : Half) (q : Fin 4) (v : W32) => (s.manages h = false)) (up) (1) (2) (5)) ∧
    ((fun (s : State) (h : Half) (q : Fin 8) (v : W32) => (s.running h = true) ∧ (s.answers h = true) ∧ (v.toNat.testBit 30 = true)) ((ringUp 2).put .RING_INDEX 2 7) (0) (2) (0x40000004)) ∧
    ((fun (s : State) (h : Half) (q : Fin 8) (v : W32) => (s.running h = true) ∧ (s.answers h = true) ∧ (s.manages h = true) ∧ (v.toNat.testBit 30 = false) ∧ (v.toNat.testBit 31 = true) ∧ (4 ≤ v.toNat % 16) ∧ (v.toNat % 16 ≤ 12)) (up.put .HIF_RUN 0 1) (0) (5) (0x8003000C)) ∧
    ((fun (s : State) (h : Half) (q : Fin 8) (v : W32) => (s.running h = true) ∧ (s.answers h = true) ∧ (s.manages h = true) ∧ (v.toNat.testBit 30 = false) ∧ (v.toNat.testBit 31 = true) ∧ (v.toNat % 16 < 4 ∨ 12 < v.toNat % 16) ∧ (s.get .RING_HALTED (ringIdx h q) ≠ 1)) (up) (0) (5) (0x8003000D)) ∧
    ((fun (s : State) (h : Half) (q : Fin 8) (v : W32) => (s.running h = true) ∧ (s.answers h = true) ∧ (s.manages h = true) ∧ (v.toNat.testBit 30 = false) ∧ (v.toNat.testBit 31 = false) ∧ (4 ≤ v.toNat % 16) ∧ (v.toNat % 16 ≤ 12)) ((up.put .RING_EN 5 1).put .RING_SIZE_LOG2 5 12) (0) (5) (0x0003000C)) ∧
    ((fun (s : State) (h : Half) => (s.answers h = true)) (up.modHalf 0 fun y => { y with msixPend := [5, 3, 6], msixTbl := [⟨23, 1⟩, ⟨27, 1⟩] }) (0)) ∧
    ((fun (s : State) (h : Half) (q : Fin 8) => (4 ≤ q.val) ∧ ((s.ring h q).unsig ≠ 0) ∧ (s.get .RING_TIME (ringIdx h q) ≠ 0) ∧ ((s.ring h q).unsigAt + 250 * s.get .RING_TIME (ringIdx h q) ≤ s.ticks h)) ((((ringUp 5).put .RING_TIME 5 10).modRing 0 5 fun r => { r with unsig := 2 }).modHalf 0 fun y => { y with ticks := 2500, msixTbl := [⟨3, 1⟩] }) (0) (5)) ∧
    ((fun (s : State) (h : Half) (q : Fin 8) => ((s.ring h q).unsig = 0 ∨ s.ticks h < (s.ring h q).unsigAt + 250 * s.get .RING_TIME (ringIdx h q))) (up) (0) (5)) :=
  by and_intros <;> decide +kernel

theorem witness_bitSwaps :
    ((fun (s : State) (l : Lane) (fr : AcqFrame) (ago : Nat) => (Accepts s l fr) ∧ (s.inData l = true) ∧ (s.lmode l = 3) ∧ (fr.type = 6) ∧ ((s.lane l).txSwap.isSome = true)) (receiving ((laneD 0).modLane 0 fun x => { x with txSwap := some (77, []) }) 0 (goodFrame 6 0 3 [0, 0, 0, 9, 0, 3, 0, 0])) (0) (goodFrame 6 0 3 [0, 0, 0, 9, 0, 3, 0, 0]) (0)) ∧
    ((fun (s : State) (l : Lane) (fr : AcqFrame) (ago : Nat) => (Accepts s l fr) ∧ (s.inData l = true) ∧ (s.lmode l = 3) ∧ (fr.type = 6) ∧ ((s.lane l).txSwap = none) ∧ (s.get .DMT_TX_ACT l < 2)) (receiving (laneD 0) 0 (goodFrame 6 0 3 [0, 0, 0, 9, 0, 3, 0, 0])) (0) (goodFrame 6 0 3 [0, 0, 0, 9, 0, 3, 0, 0]) (5)) ∧
    ((fun (s : State) (l : Lane) (w : Nat × List (Nat × Nat)) => ((s.lane l).txSwap = some w) ∧ (idxAhead w.1 (s.txIdx l) ≤ 0)) ((laneD 0).modLane 0 fun x => { x with txSwap := some (0, []) }) (0) ((0, []))) ∧
    ((fun (s : State) (l : Lane) (w : Nat × List (Nat × Nat)) => ((s.lane l).txSwap = some w) ∧ (0 < idxAhead w.1 (s.txIdx l))) ((laneD 0).modLane 0 fun x => { x with txSwap := some (77, []) }) (0) ((77, []))) ∧
    ((fun (s : State) (l : Lane) (syms : List DmtSymbol) (w : RxSwap) => ((s.lane l).rxSwap = some w) ∧ (w.sent = true) ∧ (idxAhead w.s (s.symIdx l) ≤ 0) ∧ ((s.lane l).trigHeld = false) ∧ ((s.lane l).swapFails < 2)) ((laneD 0).modLane 0 fun x => { x with rxSwap := some ⟨0, [], false, true, false, none⟩ }) (0) ([]) (⟨0, [], false, true, false, none⟩)) ∧
    ((fun (s : State) (l : Lane) (syms : List DmtSymbol) => ((s.lane l).rxSwap = none)) (laneD 0) (0) ([])) ∧
    ((fun (s : State) (l : Lane) (fr : AcqFrame) (w : RxSwap) => (Accepts s l fr) ∧ (s.inData l = true) ∧ (fr.type = 7) ∧ ((s.lane l).rxSwap = some w) ∧ (w.sent = true) ∧ (payloadNum fr.payload 0 4 = w.s) ∧ (fr.arg = 0)) (receiving ((laneD 0).modLane 0 fun x => { x with rxSwap := some ⟨9, [], false, true, false, none⟩ }) 0 (goodFrame 7 0 3 [0, 0, 0, 9])) (0) (goodFrame 7 0 3 [0, 0, 0, 9]) (⟨9, [], false, true, false, none⟩)) ∧
    ((fun (s : State) (l : Lane) (fr : AcqFrame) (w : RxSwap) => (Accepts s l fr) ∧ (s.inData l = true) ∧ (fr.type = 7) ∧ ((s.lane l).rxSwap = some w) ∧ (w.sent = true) ∧ (payloadNum fr.payload 0 4 = w.s) ∧ (fr.arg ≠ 0) ∧ ((s.lane l).swapFails = 2)) (receiving ((laneD 0).modLane 0 fun x => { x with swapFails := 2, rxSwap := some ⟨9, [], false, true, false, none⟩ }) 0 (goodFrame 7 2 3 [0, 0, 0, 9])) (0) (goodFrame 7 2 3 [0, 0, 0, 9]) (⟨9, [], false, true, false, none⟩)) ∧
    ((fun (s : State) (l : Lane) (syms : List DmtSymbol) => (s.lmode l = 3) ∧ (s.inData l = true) ∧ ((s.lane l).rxSwap = none)) (laneD 0) (0) ([])) ∧
    ((fun (s : State) (l : Lane) => ((s.lane l).swapRetry = true) ∧ ((s.lane l).clk.failAt + msTicks 1 ≤ s.ticks l.half) ∧ (s.inData l = true) ∧ ((s.lane l).rxSwap = none)) (((laneD 0).modLane 0 fun x => { x with swapRetry := true }).modHalf 0 fun y => { y with ticks := 250000 }) (0)) ∧
    ((fun (s : State) (l : Lane) => ((s.lane l).suspended = true) ∧ ((s.lane l).clk.suspAt + msTicks 1000 ≤ s.ticks l.half) ∧ ((s.lane l).trigHeld = false)) (((laneD 0).modLane 0 fun x => { x with suspended := true }).modHalf 0 fun y => { y with ticks := 250000000 }) (0)) ∧
    ((fun (s : State) (l : Lane) => ((s.lane l).suspended = true) ∧ ((s.lane l).clk.suspAt + msTicks 1000 ≤ s.ticks l.half) ∧ ((s.lane l).trigHeld = true) ∧ ((s.lane l).rxSwap = none) ∧ (s.inData l = true) ∧ (s.get .EQ_HOLD l ≠ 1)) (((laneD 0).modLane 0 fun x => { x with suspended := true, trigHeld := true }).modHalf 0 fun y => { y with ticks := 250000000 }) (0)) ∧
    ((fun (s : State) (l : Lane) => ((s.lane l).suspended = false ∨ s.ticks l.half < (s.lane l).clk.suspAt + msTicks 1000)) (laneD 0) (0)) :=
  by and_intros <;> decide +kernel

theorem witness_dmtTables :
    ((fun (s : State) (l : Lane) (codes : List (List Nat)) (phase : Fin 64) (first : W32) => (s.lmode l ≠ 3 ∨ s.feqReady l first.toNat codes.length = false)) (laneT 0) (0) ([]) (0) (0)) ∧
    ((fun (s : State) (l : Lane) (codes : List (List Nat)) (phase : Fin 64) (first : W32) => (s.lmode l = 3) ∧ (s.inData l = true ∨ s.get .ACQ_STATE l = 2) ∧ (s.feqReady l first.toNat codes.length = true) ∧ (s.get .EQ_HOLD l ≠ 1) ∧ (s.get .EQ_ADAPT l ≠ 3)) (((laneD 0).modHalf 0 fun y => { y with ticks := 1000000 })) (0) (List.replicate (2 ^ (laneD 0).app .DMT_FEQ_LOG2 0) []) (0) (0)) ∧
    ((fun (s : State) (l : Lane) (codes : List (List Nat)) (phase : Fin 64) (first : W32) => (s.lmode l = 3) ∧ (s.inData l = true) ∧ (s.feqReady l first.toNat codes.length = true) ∧ (s.get .EQ_HOLD l = 1 ∨ s.get .EQ_ADAPT l = 3)) (((laneD 0).modHalf 0 fun y => { y with ticks := 1000000 }).put .EQ_HOLD 0 1) (0) (List.replicate (2 ^ (laneD 0).app .DMT_FEQ_LOG2 0) []) (0) (0)) ∧
    ((fun (s : State) (l : Lane) (syms : List DmtSymbol) => (s.lmode l = 3) ∧ (s.get .ACQ_STATE l = 2) ∧ (syms.length = 2 ^ s.app .DMT_SNR_LOG2 l) ∧ (s.received l (s.lane l).snrFrom syms.length = true) ∧ (s.get .DMT_RX_ACT l < 2) ∧ (s.dmt.wf = true)) (((laneD 0).modHalf 0 fun y => { y with ticks := 1000000 }).put .ACQ_STATE 0 2) (0) (List.replicate (2 ^ (laneD 0).app .DMT_SNR_LOG2 0) ⟨[], 0⟩)) ∧
    ((fun (s : State) (l : Lane) (syms : List DmtSymbol) => (syms.length ≠ 2 ^ s.app .DMT_SNR_LOG2 l ∨ s.received l (s.lane l).snrFrom syms.length = false)) (laneD 0) (0) ([])) ∧
    ((fun (s : State) (l : Lane) => (s.lmode l = 3) ∧ (s.get .ACQ_STATE l = 2) ∧ (s.get .ACQ_SUBSTATE l = 2) ∧ ((s.lane l).snrDone = true)) ((((laneD 0).put .ACQ_STATE 0 2).put .ACQ_SUBSTATE 0 2).modLane 0 fun x => { x with snrDone := true }) (0)) ∧
    ((fun (s : State) (l : Lane) (w : RxSwap) => (s.lmode l = 3) ∧ (s.inData l = true) ∧ ((s.lane l).rxSwap = some w) ∧ (w.sent = false) ∧ (w.fromHost = false)) ((laneD 0).modLane 0 fun x => { x with rxSwap := some ⟨0, [], false, false, false, none⟩ }) (0) (⟨0, [], false, false, false, none⟩)) ∧
    ((fun (s : State) (l : Lane) (taps : List Int) (w : BitVec 12) => (s.lmode l = 3) ∧ (s.get .ACQ_STATE l = 2) ∧ (s.get .ACQ_SUBSTATE l = 0) ∧ (s.app .ACQ_SHORT_AUTO l = 1)) (((laneD 0).put .ACQ_STATE 0 2).putApp .ACQ_SHORT_AUTO 0 1) (0) ([-5, 7]) (9)) ∧
    ((fun (s : State) (l : Lane) (taps : List Int) (w : BitVec 12) => (s.lmode l = 3) ∧ (s.get .ACQ_STATE l = 2) ∧ (s.get .ACQ_SUBSTATE l = 0) ∧ (s.app .ACQ_SHORT_AUTO l = 0)) (((laneD 0).put .ACQ_STATE 0 2).putApp .ACQ_SHORT_AUTO 0 0) (0) ([-5, 7]) (9)) ∧
    ((fun (s : State) (g : Group) (v : W32) => (s.running g.half = true) ∧ (s.answers g.half = true) ∧ (s.get .DTW_TABLE g < 2) ∧ (s.inData (s.windowLane g) = false)) ((up.put .DTW_TONE 0 1023).put .DTW_AUTO_INC 0 1) (0) (0x80001234)) ∧
    ((fun (s : State) (g : Group) (v : W32) => (s.running g.half = true) ∧ (s.answers g.half = true) ∧ (2 ≤ s.get .DTW_TABLE g)) ((up.put .DTW_TONE 0 1023).put .DTW_TABLE 0 2) (0) (0x80001234)) ∧
    ((fun (s : State) (g : Group) (v : W32) => (s.running g.half = true) ∧ (s.answers g.half = true) ∧ (s.get .DTW_TABLE g < 2) ∧ (s.inData (s.windowLane g) = true) ∧ (s.get .DMT_RX_ACT (s.windowLane g) = s.get .DTW_TABLE g) ∧ (s.get .DMT_TX_ACT (s.windowLane g) ≠ s.get .DTW_TABLE g)) (((laneD 0).put .DMT_TX_ACT 0 1).setDmt 0 0 0 0xABCD0000) (0) (0x80001234)) ∧
    ((fun (s : State) (g : Group) => (s.running g.half = true) ∧ (s.answers g.half = true)) ((laneD 0).setDmt 0 0 0 0xABCD0000) (0)) :=
  by and_intros <;> decide +kernel

theorem witness_hostLanesAndSkew :
    ((fun (s : State) (x : HLane) => (s.get .HST_STAGE x = 1) ∧ (s.hostRuns x = true) ∧ (s.app .HST_DET_EN x = 1)) (hostAt 1) (0)) ∧
    ((fun (s : State) (x : HLane) => (s.get .HST_STAGE x = 1) ∧ (s.hostRuns x = true) ∧ (s.get .HST_LOCK_FAIL x ≠ 1) ∧ (s.fiHost x 2 = false) ∧ (s.app .HST_DET_EN x = 1 → s.stageOver x 1 = true)) ((hostAt 1).modHalf 0 fun y => { y with ticks := 250000 }) (0)) ∧
    ((fun (s : State) (x : HLane) => (s.get .HST_STAGE x = 1) ∧ (s.hostRuns x = true) ∧ (s.app .HST_DET_EN x = 1) ∧ (s.stageOver x 1 = false)) (hostAt 1) (0)) ∧
    ((fun (s : State) (x : HLane) (fr : HostFrame) => (s.get .HST_STAGE x = 2) ∧ (s.hostRuns x = true) ∧ (s.hostTx x = .training)) ((hostAt 2).modHlane 0 fun y => { y with tap := [0, 0, 0, 0] }) (0) (⟨3, -1, false⟩)) ∧
    ((fun (s : State) (x : HLane) (fr : HostFrame) => (s.get .HST_STAGE x = 2) ∧ (s.hostRuns x = true) ∧ (s.hostTx x = .idle)) (((hostAt 2).putApp .PORT_EN 0 0).modHlane 0 fun y => { y with tap := [0, 0, 0, 0] }) (0) (⟨3, -1, true⟩)) ∧
    ((fun (s : State) (x : HLane) => (s.get .HST_STAGE x = 2) ∧ (s.hostRuns x = true) ∧ ((s.hlane x).ready = true) ∧ ((s.hlane x).farReady = true)) ((hostAt 2).modHlane 0 fun y => { y with ready := true, farReady := true }) (0)) ∧
    ((fun (s : State) (x : HLane) => (s.get .HST_STAGE x = 2) ∧ (s.hostRuns x = true) ∧ ((s.hlane x).ready = false ∨ (s.hlane x).farReady = false)) (hostAt 2) (0)) ∧
    ((fun (s : State) (x : HLane) => (s.get .HST_STAGE x = 2) ∧ (s.hostRuns x = true) ∧ (s.stageOver x (100 * s.app .HST_TRAIN_TO x) = true) ∧ ((s.hlane x).trainFails < 2)) ((hostAt 2).modHalf 0 fun y => { y with ticks := 2500000000 }) (0)) ∧
    ((fun (s : State) (x : HLane) => (s.get .HST_STAGE x = 2) ∧ (s.hostRuns x = true) ∧ (s.stageOver x (100 * s.app .HST_TRAIN_TO x) = true) ∧ ((s.hlane x).trainFails = 2)) (((hostAt 2).modHlane 0 fun y => { y with trainFails := 2 }).modHalf 0 fun y => { y with ticks := 2500000000 }) (0)) ∧
    ((fun (s : State) (x : HLane) (k : BitVec 10) => (s.get .HST_STAGE x = 3) ∧ (s.hostRuns x = true) ∧ (140 ≤ k.toNat)) (hostAt 3) (0) (140)) ∧
    ((fun (s : State) (x : HLane) (k : BitVec 10) => (s.get .HST_STAGE x = 3) ∧ (s.hostRuns x = true) ∧ (k.toNat < 140)) (hostAt 3) (0) (139)) ∧
    ((fun (s : State) (x : HLane) => (s.get .HST_STAGE x = 3) ∧ (s.hostRuns x = true) ∧ (s.stageOver x 20 = true) ∧ ((s.hlane x).lockFails < 2)) ((hostAt 3).modHalf 0 fun y => { y with ticks := 5000000 }) (0)) ∧
    ((fun (s : State) (x : HLane) => (s.get .HST_STAGE x = 3) ∧ (s.hostRuns x = true) ∧ (s.stageOver x 20 = true) ∧ ((s.hlane x).lockFails = 2)) (((hostAt 3).modHlane 0 fun y => { y with lockFails := 2 }).modHalf 0 fun y => { y with ticks := 5000000 }) (0)) ∧
    ((fun (s : State) (x : HLane) (r : Nat) (pcs : List Nat) (k : BitVec 8) (p : Lane) => (s.get .HST_STAGE x = 4) ∧ (s.hostRuns x = true) ∧ (s.hportOf x = some p) ∧ (s.markersOk p x r pcs = true)) ((hostAt 4).putApp .PORT_RATE 0 1) (0) (1) ([5, 3]) (160) (0)) ∧
    ((fun (s : State) (x : HLane) (r : Nat) (pcs : List Nat) (k : BitVec 8) (p : Lane) => (s.get .HST_STAGE x = 4) ∧ (s.hostRuns x = true) ∧ (s.hportOf x = some p) ∧ (s.markersOk p x r pcs = false)) (hostAt 4) (0) (3) ([]) (160) (0)) ∧
    ((fun (s : State) (x : HLane) => (s.get .HST_STAGE x = 4) ∧ (s.hostRuns x = true) ∧ (s.stageOver x 10 = true)) ((hostAt 4).modHalf 0 fun y => { y with ticks := 2500000 }) (0)) ∧
    ((fun (s : State) (x : HLane) => (s.get .HST_STAGE x = 5) ∧ (s.hostRuns x = true)) (hostAt 5) (0)) ∧
    ((fun (s : State) (x : HLane) (e : HostLoss) => (s.get .HST_STAGE x = 5) ∧ (s.hostRuns x = true) ∧ (e = .signal ∨ e = .bitLock)) (hostAt 5) (0) (.signal)) ∧
    ((fun (s : State) (x : HLane) (e : HostLoss) => (s.hostRuns x = true) ∧ (s.get .HST_STAGE x = 3 ∨ s.get .HST_STAGE x = 4) ∧ (e = .signal ∨ e = .bitLock)) (hostAt 4) (0) (.bitLock)) ∧
    ((fun (s : State) (x : HLane) (k : Nat) => (s.hostRuns x = true) ∧ (3 ≤ s.get .HST_STAGE x) ∧ (k < 120)) (hostAt 5) (0) (119)) ∧
    ((fun (s : State) (x : HLane) (v : W32) => (s.running x.group.half = true) ∧ (s.answers x.group.half = true) ∧ (v.getLsbD 0 = true)) ((hostAt 1).put .HST_LOCK_FAIL 0 1) (0) (1)) ∧
    ((fun (s : State) (p : Lane) (k : Nat) => (s.portLanes p = [p]) ∧ (s.inData p = true) ∧ (s.skewOver p true k = true)) (laneUp 0) (0) (513)) ∧
    ((fun (s : State) (p : Lane) (k : Nat) (x : HLane) => (x ∈ s.portHlanes p) ∧ (s.get .HST_STAGE x = 5) ∧ (s.skewOver p false k = true)) (hostAt 5) (0) (161) (0)) ∧
    ((fun (s : State) (p : Lane) (b : Bool) (k : Nat) => (s.skewOver p b k = false)) (laneUp 0) (0) (true) (512)) :=
  by and_intros <;> decide +kernel

theorem witness_commandDescriptors :
    ((fun (s : State) (h : Half) (q : Fin 4) => (s.fetchReady h (cmdRing q) = true) ∧ ((s.ring h (cmdRing q)).reads = [])) ((((ringUp 2).put .RING_EN 4 1).put .RING_SIZE_LOG2 4 4).modRing 0 2 fun r => { r with host := 3 }) (0) (2)) ∧
    ((fun (s : State) (h : Half) (q : Fin 4) => (s.fetchReady h (cmdRing q) = false)) (ringUp 2) (0) (2)) ∧
    ((fun (s : State) (h : Half) (q : Fin 4) (i k : Nat) (rest : List (Nat × Nat)) (ws : List W32) => ((s.ring h (cmdRing q)).reads = (i, k) :: rest)) ((ringUp 2).modRing 0 2 fun r => { r with reads := [(15, 0)] }) (0) (2) (15) (0) ([]) ([1, 2])) ∧
    ((fun (s : State) (h : Half) (q : Fin 4) (i k : Nat) (rest : List (Nat × Nat)) => ((s.ring h (cmdRing q)).reads = (i, k) :: rest) ∧ (s.get .RING_HALTED (ringIdx h (cmdRing q)) ≠ 1)) ((ringUp 2).modRing 0 2 fun r => { r with reads := [(15, 0)] }) (0) (2) (15) (0) ([])) ∧
    ((fun (s : State) (h : Half) (q : Fin 4) (i k : Nat) (ws : List W32) (rest : List (Nat × Nat × List W32)) => (s.mayTake h q = true) ∧ (∀ p : Fin 4, p < q → s.mayTake h p = false) ∧ ((s.ring h (cmdRing q)).staged = (i, k, ws) :: rest)) ((ringUp 2).modRing 0 2 fun r => { r with staged := [(3, 0, [0x01020000, 7, 0, 0x40000000])] }) (0) (2) (3) (0) ([0x01020000, 7, 0, 0x40000000]) ([])) ∧
    ((fun (s : State) (h : Half) (q : Fin 4) (i k : Nat) (ws : List W32) (rest : List (Nat × Nat × List W32)) (r : Req) => (s.mayTake h q = true) ∧ (∀ p : Fin 4, p < q → s.mayTake h p = false) ∧ ((s.ring h (cmdRing q)).staged = (i, k, ws) :: rest) ∧ (parseOpc ws = some .nop) ∧ (parseReq q i ws = r) ∧ (Takes s h .nop r)) ((ringUp 2).modRing 0 2 fun r => { r with staged := [(3, 0, [0x01070000, 7, 0, 0x10000000])] }) (0) (2) (3) (0) ([0x01070000, 7, 0, 0x10000000]) ([]) (⟨2, 3, false, false, false, false, 7, 0, 1, 0, 0, .ofFn fun _ => 0⟩)) ∧
    ((fun (s : State) (h : Half) (q : Fin 4) (i k : Nat) (ws : List W32) (rest : List (Nat × Nat × List W32)) (e : Nat) => (s.mayTake h q = true) ∧ (∀ p : Fin 4, p < q → s.mayTake h p = false) ∧ ((s.ring h (cmdRing q)).staged = (i, k, ws) :: rest) ∧ (s.invalid (parseOpc ws) (parseReq q i ws) = some e)) ((ringUp 2).modRing 0 2 fun r => { r with staged := [(3, 0, [0x99990000, 7, 0, 0x10000000])] }) (0) (2) (3) (0) ([0x99990000, 7, 0, 0x10000000]) ([]) (0x71)) ∧
    ((fun (s : State) (h : Half) => (∀ q : Fin 4, s.mayTake h q = false)) (ringUp 2) (0)) :=
  by and_intros <;> decide +kernel

theorem witness_reception :
    ((fun (s : State) (l : Lane) (c : Bool) (xs : List Int) (q : Nat) => (s.get .ACQ_STATE l ≠ 0) ∧ ((s.lane l).stopped = false) ∧ (s.listens l c = true) ∧ (s.fires l xs = true) ∧ ((s.lane l).phase = .search)) (acqAt (laneT 0) 1) (0) (false) (preamble.foldl (fun (a : List Int) b => a ++ [if b then 1000 else -1000]) [0, 0] ++ [0, 0]) (0)) ∧
    ((fun (s : State) (l : Lane) (c : Bool) (xs : List Int) (q : Nat) => (s.get .ACQ_STATE l ≠ 0) ∧ ((s.lane l).stopped = false) ∧ (s.listens l c = true) ∧ (s.fires l xs = true) ∧ ((s.lane l).phase = .header) ∧ (threeDbAbove (corrMetric c xs) (s.lane l).mc = true)) ((acqAt (laneT 0) 1).modLane 0 fun x => { x with phase := .header }) (0) (false) (preamble.foldl (fun (a : List Int) b => a ++ [if b then 1000 else -1000]) [0, 0] ++ [0, 0]) (0)) ∧
    ((fun (s : State) (l : Lane) (c : Bool) (xs : List Int) (q : Nat) => (s.fires l xs = false ∨ s.listens l c = false ∨ (s.lane l).stopped = true ∨ (s.lane l).phase = .body)) (acqAt (laneT 0) 1) (0) (false) ([]) (0)) ∧
    ((fun (s : State) (l : Lane) (y : W32) (h : BitVec 64) => ((s.lane l).phase = .header) ∧ (syncOk y = true) ∧ (headerOk h = true) ∧ (s.tooLong l (h.toNat / 2 ^ 56) (h.toNat / 2 ^ 16 % 4096) = false)) ((acqAt (laneT 0) 1).modLane 0 fun x => { x with phase := .header }) (0) (0xB5E23C47) (BitVec.ofNat 64 (headerWord (goodFrame 1 0 0 (capOk true))))) ∧
    ((fun (s : State) (l : Lane) (y : W32) (h : BitVec 64) => ((s.lane l).phase = .header) ∧ (syncOk y = false)) ((acqAt (laneT 0) 1).modLane 0 fun x => { x with phase := .header }) (0) (0xB5E23C40) (0)) ∧
    ((fun (s : State) (l : Lane) (y : W32) (h : BitVec 64) => ((s.lane l).phase = .header) ∧ (syncOk y = true) ∧ (headerOk h = false)) ((acqAt (laneT 0) 1).modLane 0 fun x => { x with phase := .header }) (0) (0xB5E23C44) (0)) ∧
    ((fun (s : State) (l : Lane) (b : List Int) => ((s.lane l).phase ≠ .search) ∧ (levelStep (blockLevel (s.lane l).rxC3 b) (s.lane l).level = true)) ((acqAt (laneT 0) 1).modLane 0 fun x => { x with phase := .body, level := 100 }) (0) (List.replicate 64 21)) ∧
    ((fun (s : State) (l : Lane) (b : List Int) => (levelStep (blockLevel (s.lane l).rxC3 b) (s.lane l).level = false)) ((acqAt (laneT 0) 1).modLane 0 fun x => { x with phase := .body, level := 100 }) (0) (List.replicate 64 19)) ∧
    ((fun (s : State) (l : Lane) (fr : AcqFrame) => (Accepts s l fr) ∧ (s.unlisted l fr.type.toNat = true)) (receiving (acqAt (laneT 0) 1) 0 (goodFrame 9 0 0 [])) (0) (goodFrame 9 0 0 [])) ∧
    ((fun (s : State) (l : Lane) (fr : AcqFrame) => (s.get .ACQ_STATE l ≠ 0) ∧ (s.inBody l fr = true) ∧ (s.unlisted l fr.type.toNat = true) ∧ (fr.crc.toNat ≠ frameCrc fr)) (receiving (acqAt (laneT 0) 1) 0 ({ goodFrame 9 0 0 [] with crc := 1 })) (0) ({ goodFrame 9 0 0 [] with crc := 1 })) ∧
    ((fun (s : State) (l : Lane) (fr : AcqFrame) => ((s.lane l).phase ≠ .body)) (acqAt (laneT 0) 1) (0) (goodFrame 9 0 0 [])) :=
  by and_intros <;> decide +kernel

theorem witness_link :
    ((fun (s : State) (l : Lane) => (s.get .ACQ_STATE l = 1) ∧ (s.kndOut l.acqKnd = false)) (acqAt (laneT 0) 1) (0)) ∧
    ((fun (s : State) (l : Lane) (fr : AcqFrame) (p : Lane) => (Accepts s l fr) ∧ (fr.type = 1) ∧ (s.get .ACQ_STATE l = 1) ∧ (payloadNum fr.payload 8 1 ≠ l.val ∨ payloadNum fr.payload 4 4 ≠ s.devTag l.half) ∧ (payloadNum fr.payload 0 1 = 1) ∧ ((payloadNum fr.payload 1 1).testBit (s.lmode l) = true) ∧ (payloadNum fr.payload 2 1 / 64 = s.lmode l) ∧ (s.portOf l = some p) ∧ (payloadNum fr.payload 3 1 / 32 = s.app .PORT_RATE p) ∧ (payloadNum fr.payload 3 1 / 4 % 8 = posInPort p l)) (receiving (acqAt (laneT 0) 1) 0 (goodFrame 1 0 0 (capOk true))) (0) (goodFrame 1 0 0 (capOk true)) (0)) ∧
    ((fun (s : State) (l : Lane) (fr : AcqFrame) (p : Lane) => (Accepts s l fr) ∧ (fr.type = 1) ∧ (s.get .ACQ_STATE l = 1) ∧ (payloadNum fr.payload 8 1 ≠ l.val ∨ payloadNum fr.payload 4 4 ≠ s.devTag l.half) ∧ (s.portOf l = some p) ∧ (payloadNum fr.payload 0 1 ≠ 1 ∨ ¬ (payloadNum fr.payload 1 1).testBit (s.lmode l) ∨ payloadNum fr.payload 2 1 / 64 ≠ s.lmode l ∨ payloadNum fr.payload 3 1 / 32 ≠ s.app .PORT_RATE p ∨ payloadNum fr.payload 3 1 / 4 % 8 ≠ posInPort p l)) (receiving (acqAt (laneT 0) 1) 0 (goodFrame 1 0 0 ((capOk true).set 3 32))) (0) (goodFrame 1 0 0 ((capOk true).set 3 32)) (0)) ∧
    ((fun (s : State) (l : Lane) => (s.get .ACQ_STATE l = 1) ∧ ((s.lane l).seen = true) ∧ (8 ≤ (s.lane l).caps) ∧ (s.kndOut l.acqKnd = false) ∧ (s.get .FE_SIG_DET l = 1)) ((acqAt (laneT 0) 1).modLane 0 fun x => { x with seen := true, caps := 8 }) (0)) ∧
    ((fun (s : State) (l : Lane) => (s.get .ACQ_STATE l = 1) ∧ ((s.lane l).seen = true) ∧ (8 ≤ (s.lane l).caps) ∧ (s.kndOut l.acqKnd = false) ∧ (s.get .FE_SIG_DET l ≠ 1)) (((acqAt (laneT 0) 1).modLane 0 fun x => { x with seen := true, caps := 8 }).put .FE_SIG_DET 0 0) (0)) ∧
    ((fun (s : State) (l : Lane) => ((s.lane l).caps < 8)) (acqAt (laneT 0) 1) (0)) ∧
    ((fun (s : State) (l : Lane) => (s.get .ACQ_STATE l = 1) ∧ ((s.lane l).matched = false) ∧ ((s.lane l).noticed = false) ∧ ((s.lane l).start + msTicks 1000 ≤ s.ticks l.half)) ((acqAt (laneT 0) 1).modHalf 0 fun y => { y with ticks := 250000000 }) (0)) ∧
    ((fun (s : State) (l : Lane) (fr : AcqFrame) (k : Int) => (Accepts s l fr) ∧ (fr.type = 2) ∧ (s.get .ACQ_STATE l = 1) ∧ ((s.lane l).matched = true) ∧ (s.inSlot l k = true) ∧ (s.get .FE_SIG_DET l = 1)) (receiving ((acqAt (laneT 0) 1).modLane 0 fun x => { x with matched := true }) 0 (goodFrame 2 0 0 [0, 0, 0, 0])) (0) (goodFrame 2 0 0 [0, 0, 0, 0]) (3)) :=
  by and_intros <;> decide +kernel

theorem witness_trainingSlots :
    ((fun (s : State) (l : Lane) (n : Nat) => (s.get .ACQ_STATE l = 2) ∧ (s.get .ACQ_TX_DATA l ≠ 1) ∧ (s.lmode l ≠ 3) ∧ (s.kndOut l.acqKnd = false)) (acqAt (laneT 0) 2) (0) (9)) ∧
    ((fun (s : State) (l : Lane) (n : Nat) => (s.get .ACQ_STATE l = 2) ∧ (s.get .ACQ_TX_DATA l ≠ 1) ∧ (s.lmode l = 3) ∧ (s.kndOut l.acqKnd = false) ∧ ((s.lane l).ohc = [])) (acqAt (laneD 0) 2) (0) (9)) ∧
    ((fun (s : State) (l : Lane) (n : Nat) (p : Nat × List (BitVec 8)) => (s.get .ACQ_STATE l = 2) ∧ (s.get .ACQ_TX_DATA l ≠ 1) ∧ (s.kndOut l.acqKnd = true) ∧ ((s.lane l).lastStatus = some p)) (((acqAt (laneT 0) 2).put .KND_STATE (Lane.acqKnd 0).val 1).modLane 0 fun x => { x with lastStatus := some (3, [1]) }) (0) (9) ((3, [1]))) ∧
    ((fun (s : State) (l : Lane) (n : Nat) (c : Nat × Nat) => (s.get .ACQ_STATE l = 2) ∧ (s.get .ACQ_TX_DATA l ≠ 1) ∧ (s.lmode l ≠ 3) ∧ (s.kndOut l.acqKnd = false) ∧ ((s.lane l).count = some c)) ((acqAt (laneT 0) 2).modLane 0 fun x => { x with count := some (7, 5) }) (0) (9) ((7, 5))) ∧
    ((fun (s : State) (l : Lane) (n : Nat) => (s.get .ACQ_STATE l = 2) ∧ (s.get .ACQ_TX_DATA l ≠ 1) ∧ (s.lmode l ≤ 2) ∧ (s.kndOut l.acqKnd = false) ∧ ((s.lane l).count = none) ∧ ((s.lane l).go = true)) ((acqAt (laneT 0) 2).modLane 0 fun x => { x with go := true }) (0) (5761)) ∧
    ((fun (s : State) (l : Lane) (n : Nat) (p : Nat × List Nat) => (s.get .ACQ_STATE l = 2) ∧ (s.get .ACQ_TX_DATA l ≠ 1) ∧ (s.lmode l ≠ 3) ∧ (s.kndOut l.acqKnd = false) ∧ ((s.lane l).apply = some p) ∧ (s.ticks l.half < (s.lane l).applyAt + 50)) ((acqAt (laneT 0) 2).modLane 0 fun x => { x with apply := some (9, []) }) (0) (0) ((9, []))) ∧
    ((fun (s : State) (l : Lane) (n : Nat) (p : Nat × List Nat) => (s.get .ACQ_STATE l = 2) ∧ (s.get .ACQ_TX_DATA l ≠ 1) ∧ (s.lmode l ≠ 3) ∧ (s.kndOut l.acqKnd = false) ∧ ((s.lane l).apply = some p) ∧ ((s.lane l).applyAt + 50 ≤ s.ticks l.half)) (((acqAt (laneT 0) 2).modHalf 0 fun y => { y with ticks := 50 }).modLane 0 fun x => { x with apply := some (9, [1, 2, 3, 700, 4, 5, 4095]) }) (0) (0) ((9, [1, 2, 3, 700, 4, 5, 4095]))) ∧
    ((fun (s : State) (l : Lane) (n : Nat) => (s.get .ACQ_STATE l ≠ 2 ∨ s.get .ACQ_TX_DATA l = 1)) (laneT 0) (0) (9)) ∧
    ((fun (s : State) (l : Lane) (fr : AcqFrame) (k : Int) => (Accepts s l fr) ∧ (fr.type = 3) ∧ (s.get .ACQ_STATE l = 2) ∧ (s.lmode l ≠ 3) ∧ (s.inSlot l k = true)) (receiving (acqAt (laneT 0) 2) 0 (goodFrame 3 0 9 (List.replicate 14 1))) (0) (goodFrame 3 0 9 (List.replicate 14 1)) (64)) ∧
    ((fun (s : State) (l : Lane) (fr : AcqFrame) (k : Int) => (Accepts s l fr) ∧ (fr.type = 2) ∧ (s.get .ACQ_STATE l = 2) ∧ ((payloadNum fr.payload 0 4).testBit 31 = true) ∧ (s.lmode l ≠ 3) ∧ ((s.lane l).preset = none) ∧ (s.inSlot l k = true)) (receiving (acqAt (laneT 0) 2) 0 (goodFrame 2 0 0 [128, 0, 0, 0])) (0) (goodFrame 2 0 0 [128, 0, 0, 0]) (-64)) ∧
    ((fun (s : State) (l : Lane) (fr : AcqFrame) (k : Int) => (Accepts s l fr) ∧ (fr.type = 2) ∧ (s.get .ACQ_STATE l = 2) ∧ ((payloadNum fr.payload 0 4).testBit 31 = true) ∧ (s.lmode l = 3) ∧ ((s.lane l).preset = none) ∧ ((s.lane l).count = none) ∧ (s.get .ACQ_TX_DATA l ≠ 1) ∧ (s.inSlot l k = true)) (receiving (acqAt (laneD 0) 2) 0 (goodFrame 2 0 0 [128, 0, 0, 0])) (0) (goodFrame 2 0 0 [128, 0, 0, 0]) (0)) ∧
    ((fun (s : State) (l : Lane) (fr : AcqFrame) (k : Int) => (Accepts s l fr) ∧ (s.inSlot l k = false)) (receiving ((acqAt (laneT 0) 2).modLane 0 fun x => { x with slotSeen := true }) 0 (goodFrame 2 0 0 [128, 0, 0, 0])) (0) (goodFrame 2 0 0 [128, 0, 0, 0]) (65)) ∧
    ((fun (s : State) (l : Lane) (fr : AcqFrame) (k : Int) (p : Nat × List Nat) => (Accepts s l fr) ∧ (fr.type = 2) ∧ (s.get .ACQ_STATE l = 2) ∧ (s.lmode l ≠ 3) ∧ (s.inSlot l k = true) ∧ ((s.lane l).preset = some p) ∧ (p.1 = payloadNum fr.payload 0 4 / 2 ^ 6 % 256)) (receiving ((acqAt (laneT 0) 2).modLane 0 fun x => { x with preset := some (3, []) }) 0 (goodFrame 2 0 0 [0, 0, 0, 224])) (0) (goodFrame 2 0 0 [0, 0, 0, 224]) (0) ((3, []))) ∧
    ((fun (s : State) (l : Lane) (ms : List Nat) => (s.get .ACQ_STATE l = 2) ∧ (s.lmode l = 2) ∧ (s.app .ACQ_RHO_AUTO l = 1) ∧ ((s.lane l).rhoDone = false)) ((acqAt (laneT 0) 2).putApp .ACQ_RHO_AUTO 0 1) (0) ([1, 2, 9, 9, 3, 0, 0, 0, 5])) :=
  by and_intros <;> decide +kernel

theorem witness_hostRecords :
    ((fun (s : State) (h : Half) (c : Cpl) (rest : List Cpl) => ((s.half h).cpls = c :: rest) ∧ (s.ringMoves h 4 = true) ∧ (s.ringSpace h 4 ≠ 0) ∧ ((s.half h).resets.all (fun x => x.1 != c.tag) = true)) (((ringUp 4).put .RING_INDEX 4 15).modHalf 0 fun y => { y with cpls := [⟨0, 3, 7, false, 0, 0, 1, 2, none⟩], rings := y.rings.set 4 { (y.rings.get 4) with host := 3 } }) (0) (⟨0, 3, 7, false, 0, 0, 1, 2, none⟩) ([])) ∧
    ((fun (s : State) (h : Half) => ((s.half h).cpls = [] ∨ s.ringMoves h 4 = false ∨ s.ringSpace h 4 = 0)) (up) (0)) ∧
    ((fun (s : State) (h : Half) (e : Evt) (rest : List Evt) => ((s.half h).evts = e :: rest) ∧ ((s.half h).evtDrop = 0) ∧ (s.ringMoves h 5 = true) ∧ (s.recordsServed h = true) ∧ (s.ringSpace h 5 ≠ 0)) ((ringUp 5).modHalf 0 fun y => { y with evts := [⟨1, 1, 0x0106, 0, 0, 0, 1, 1, 0, 0, 0, 0⟩] }) (0) (⟨1, 1, 0x0106, 0, 0, 0, 1, 1, 0, 0, 0, 0⟩) ([])) ∧
    ((fun (s : State) (h : Half) => ((s.half h).evtDrop ≠ 0) ∧ (s.ringMoves h 5 = true) ∧ (s.recordsServed h = true) ∧ (s.ringSpace h 5 ≠ 0) ∧ (s.manages h = true) ∧ ((s.half h).filter 0x0107 ≤ 1)) ((ringUp 5).modHalf 0 fun y => { y with evtDrop := 3 }) (0)) ∧
    ((fun (s : State) (h : Half) (e : Evt) (rest : List Evt) => ((s.half h).evts = e :: rest) ∧ (s.ringMoves h 5 = true) ∧ (s.recordsServed h = true) ∧ (s.ringSpace h 5 = 0)) (((ringUp 5).put .RING_INDEX 5 15).modHalf 0 fun y => { y with evts := [⟨1, 1, 0x0106, 0, 0, 0, 1, 1, 0, 0, 0, 0⟩] }) (0) (⟨1, 1, 0x0106, 0, 0, 0, 1, 1, 0, 0, 0, 0⟩) ([])) ∧
    ((fun (s : State) (h : Half) (x : Tlm) (rest : List Tlm) => ((s.half h).tlms = x :: rest) ∧ ((s.half h).tlmDrop = 0) ∧ (s.ringMoves h 6 = true) ∧ (s.recordServed h x = true) ∧ (x.units.length ≤ s.ringSpace h 6)) ((ringUp 6).modHalf 0 fun y => { y with tlms := [⟨0, none, false, List.replicate 16 0⟩] }) (0) (⟨0, none, false, List.replicate 16 0⟩) ([])) ∧
    ((fun (s : State) (h : Half) => ((s.half h).tlmDrop ≠ 0) ∧ (s.ringMoves h 6 = true) ∧ ((s.half h).tlms.head?.all (s.recordServed h) = true) ∧ (s.ringSpace h 6 ≠ 0)) ((ringUp 6).modHalf 0 fun y => { y with tlmDrop := 3 }) (0)) ∧
    ((fun (s : State) (h : Half) (x : Tlm) (rest : List Tlm) => ((s.half h).tlms = x :: rest) ∧ (s.ringMoves h 6 = true) ∧ (s.recordServed h x = true) ∧ (s.ringSpace h 6 = 0) ∧ (x.words.length ≠ 0)) (((ringUp 6).put .RING_INDEX 6 15).modHalf 0 fun y => { y with tlms := [⟨0, none, false, List.replicate 16 0⟩] }) (0) (⟨0, none, false, List.replicate 16 0⟩) ([])) ∧
    ((fun (s : State) (h : Half) (r : List W32) (rest : List (List W32)) => ((s.half h).tsq = r :: rest) ∧ (s.manages h = true) ∧ (s.ringMoves h 7 = true) ∧ (s.ringSpace h 7 ≠ 0)) ((ringUp 7).modHalf 0 fun y => { y with tsq := [[1, 2, 3, 4]] }) (0) ([1, 2, 3, 4]) ([])) ∧
    ((fun (s : State) (h : Half) (r : List W32) (rest : List (List W32)) => ((s.half h).tsq = r :: rest) ∧ (s.manages h = false) ∧ (s.get .BR_STATE halfA ≠ 1)) (up.modHalf 1 fun y => { y with tsq := [[1, 2, 3, 4]] }) (1) ([1, 2, 3, 4]) ([])) ∧
    ((fun (s : State) (h : Half) => ((s.half h).sbDirty = true) ∧ (s.masters h = true) ∧ (s.get .HIF_RUN h = 1) ∧ (s.running h = true)) ((ringUp 0).modHalf 0 fun y => { y with sbDirty := true }) (0)) ∧
    ((fun (s : State) (h : Half) => ((s.half h).sbDirty = false)) (up) (0)) :=
  by and_intros <;> decide +kernel

theorem witness_startOfData :
    ((fun (s : State) (l : Lane) => (s.get .ACQ_STATE l = 2) ∧ (s.countOver l = true) ∧ (s.get .ACQ_TX_DATA l ≠ 1) ∧ (s.get .ACQ_RX_DATA l ≠ 1)) ((acqAt (laneT 0) 2).modLane 0 fun x => { x with count := some (0, 4) }) (0)) ∧
    ((fun (s : State) (l : Lane) => (s.get .ACQ_STATE l = 2) ∧ (s.countOver l = false)) ((acqAt (laneT 0) 2).modLane 0 fun x => { x with count := some (1, 4) }) (0)) ∧
    ((fun (s : State) (l : Lane) => (s.get .ACQ_STATE l = 2) ∧ (s.countOver l = true) ∧ (s.get .ACQ_TX_DATA l ≠ 1) ∧ (s.get .ACQ_RX_DATA l = 1) ∧ (s.kndOut l.acqKnd = false) ∧ (s.lmode l ≠ 3 ∨ s.rxValid l (s.get .DMT_RX_ACT l) = true ∧ s.txValid l (s.get .DMT_TX_ACT l) = true) ∧ (s.get .FE_SIG_DET l = 1) ∧ (s.get .EQ_LOCK l = 1) ∧ (s.lmode l ≤ 1 → s.get .FEC_CW_LOCK l = 1)) ((((acqAt (laneT 0) 2).put .ACQ_RX_DATA 0 1).put .EQ_LOCK 0 1).modLane 0 fun x => { x with count := some (0, 4) }) (0)) ∧
    ((fun (s : State) (l : Lane) => (s.get .ACQ_STATE l = 2) ∧ (s.countOver l = true) ∧ (s.get .ACQ_TX_DATA l ≠ 1) ∧ (s.get .ACQ_RX_DATA l = 1) ∧ (s.kndOut l.acqKnd = false) ∧ (s.lmode l = 3) ∧ (s.rxValid l (s.get .DMT_RX_ACT l) = false ∨ s.txValid l (s.get .DMT_TX_ACT l) = false)) (((acqAt (laneD 0) 2).put .ACQ_RX_DATA 0 1).modLane 0 fun x => { x with count := some (0, 0) }) (0)) ∧
    ((fun (s : State) (l : Lane) (d : Nat × Nat) => (s.get .ACQ_STATE l = 2) ∧ ((s.lane l).dataAt = some d) ∧ (s.get .ACQ_RX_DATA l ≠ 1) ∧ (s.get .ACQ_TX_DATA l ≠ 1) ∧ (2 ≤ s.lmode l ∨ s.get .FEC_CW_LOCK l = 1)) ((acqAt (laneT 0) 2).modLane 0 fun x => { x with dataAt := some (0, 4) }) (0) ((0, 4))) ∧
    ((fun (s : State) (l : Lane) (d : Nat × Nat) => (s.get .ACQ_STATE l = 2) ∧ ((s.lane l).dataAt = some d) ∧ (s.get .ACQ_RX_DATA l ≠ 1) ∧ (s.get .ACQ_TX_DATA l = 1) ∧ (s.kndOut l.acqKnd = false) ∧ (s.get .FE_SIG_DET l = 1) ∧ (s.get .EQ_LOCK l = 1) ∧ (s.lmode l = 2 ∨ s.lmode l < 2 ∧ s.get .FEC_CW_LOCK l = 1)) ((((acqAt (laneT 0) 2).put .ACQ_TX_DATA 0 1).put .EQ_LOCK 0 1).modLane 0 fun x => { x with dataAt := some (0, 4) }) (0) ((0, 4))) ∧
    ((fun (s : State) (l : Lane) (fr : AcqFrame) => (Accepts s l fr) ∧ (fr.type = 4) ∧ (s.get .ACQ_STATE l = 2) ∧ (s.lmode l = 3) ∧ (s.get .DMT_TX_ACT l < 2) ∧ (s.dmt.wf = true)) (receiving (acqAt (laneD 0) 2) 0 (goodFrame 4 0 7 [])) (0) (goodFrame 4 0 7 [])) ∧
    ((fun (s : State) (l : Lane) (fr : AcqFrame) => (Accepts s l fr) ∧ (fr.type = 5) ∧ (s.get .ACQ_STATE l = 2) ∧ (s.lmode l = 3) ∧ (s.get .ACQ_SUBSTATE l = 3) ∧ (payloadNum fr.payload 0 1 = 4) ∧ (payloadNum fr.payload 1 1 = (s.lane l).seq) ∧ (payloadNum fr.payload 2 1 ≤ 1)) (receiving ((acqAt (laneD 0) 2).put .ACQ_SUBSTATE 0 3) 0 (goodFrame 5 0 0 [4, 0, 0, 0])) (0) (goodFrame 5 0 0 [4, 0, 0, 0])) ∧
    ((fun (s : State) (l : Lane) => (s.get .ACQ_STATE l = 2) ∧ (s.lmode l = 3) ∧ (s.get .ACQ_SUBSTATE l = 3) ∧ (s.kndOut l.acqKnd = false) ∧ ((s.lane l).clk.loadAt + msTicks 1 ≤ s.ticks l.half) ∧ ((s.lane l).loadTries < 8)) ((((acqAt (laneD 0) 2).put .ACQ_SUBSTATE 0 3).modLane 0 fun x => { x with loadTries := 7, carrierAt := 250000 }).modHalf 0 fun y => { y with ticks := 250000 }) (0)) ∧
    ((fun (s : State) (l : Lane) => (s.get .ACQ_STATE l = 2) ∧ (s.lmode l = 3) ∧ (s.get .ACQ_SUBSTATE l = 3) ∧ (s.kndOut l.acqKnd = false) ∧ ((s.lane l).clk.loadAt + msTicks 1 ≤ s.ticks l.half) ∧ (8 ≤ (s.lane l).loadTries)) ((((acqAt (laneD 0) 2).put .ACQ_SUBSTATE 0 3).modLane 0 fun x => { x with loadTries := 8, carrierAt := 250000 }).modHalf 0 fun y => { y with ticks := 250000 }) (0)) ∧
    ((fun (s : State) (l : Lane) => (s.get .ACQ_STATE l = 2) ∧ (s.acqOver l = true)) (((acqAt (laneT 0) 2).modLane 0 fun x => { x with carrierAt := 1099511627776 }).modHalf 0 fun y => { y with ticks := 1099511627776 }) (0)) ∧
    ((fun (s : State) (l : Lane) => (s.get .ACQ_STATE l = 5) ∧ (s.acqOver l = true)) (((acqAt (laneUp 0) 5).modLane 0 fun x => { x with carrierAt := 1099511627776 }).modHalf 0 fun y => { y with ticks := 1099511627776 }) (0)) ∧
    ((fun (s : State) (l : Lane) => (s.get .ACQ_STATE l = 4) ∧ ((s.lane l).clk.holdAt + msTicks 1 ≤ s.ticks l.half)) (((acqAt (laneT 0) 4).modLane 0 fun x => { x with carrierAt := 250000 }).modHalf 0 fun y => { y with ticks := 250000 }) (0)) :=
  by and_intros <;> decide +kernel

theorem witness_loopSamples :
    ((fun (s : State) (x : Ctx) (r : Int) => (s.engineKept x.group = false) ∧ (s.engineOff x.group = false) ∧ (s.samples276 x = true) ∧ (s.belowStops x = false) ∧ ((fiSlots x.group.half).all (fun i => s.get .FIS_ACTIVE i == 0) = true) ∧ (s.get .CTX_STATE x = 1) ∧ (s.source x (s.inUse .CTX_FB_SRC x) = .ok r) ∧ (s.inUse .CTX_DEMOD x = 0) ∧ (s.inUse .CTX_MODE x = 1) ∧ ((s.ctx x).fresh = false)) (((ctxFed 1).putApp .CTX_MODE 0 1).modCtx 0 fun y => { y with tgt := 65536, vmax := 100000, amax := 100000, jmax := 100000 }) (0) (2000)) ∧
    ((fun (s : State) (x : Ctx) (r : Int) => (s.engineKept x.group = false) ∧ (s.engineOff x.group = false) ∧ (s.samples276 x = true) ∧ (s.belowStops x = false) ∧ ((fiSlots x.group.half).all (fun i => s.get .FIS_ACTIVE i == 0) = true) ∧ (s.get .CTX_STATE x = 1) ∧ (s.source x (s.inUse .CTX_FB_SRC x) = .ok r) ∧ (s.cs .CTX_OUT_MIN x ≤ s.cs .CTX_OUT_MAX x)) (((((ctxFed 1).putApp .CTX_FE_LIM 0 0).putApp .CTX_FREEZE_FLOOR 0 0).modCtx 0 fun y => { y with fresh := true })) (0) (2000)) ∧
    ((fun (s : State) (x : Ctx) => (s.engineKept x.group = false) ∧ (s.engineOff x.group = false) ∧ (s.samples276 x = true) ∧ (s.belowStops x = false) ∧ ((fiSlots x.group.half).all (fun i => s.get .FIS_ACTIVE i == 0) = true) ∧ (s.get .CTX_STATE x = 1) ∧ (s.inUse .CTX_MODE x = 0) ∧ (s.source x (s.inUse .CTX_FB_SRC x) = .invalid) ∧ ((s.ctx x).bad + 1 < s.inUse .CTX_LOST_N x)) ((ctxAt 1).putApp .CTX_LOST_N 0 3) (0)) ∧
    ((fun (s : State) (x : Ctx) => (s.engineKept x.group = false) ∧ (s.engineOff x.group = false) ∧ (s.samples276 x = true) ∧ (s.belowStops x = false) ∧ ((fiSlots x.group.half).all (fun i => s.get .FIS_ACTIVE i == 0) = true) ∧ (s.get .CTX_STATE x = 1) ∧ (s.inUse .CTX_MODE x = 0) ∧ (s.source x (s.inUse .CTX_FB_SRC x) = .invalid) ∧ (s.inUse .CTX_LOST_N x ≤ (s.ctx x).bad + 1)) (((ctxAt 1).putApp .CTX_LOST_N 0 3).modCtx 0 fun y => { y with bad := 2 }) (0)) ∧
    ((fun (s : State) (x : Ctx) => (s.engineKept x.group = false) ∧ (s.engineOff x.group = false) ∧ (s.samples276 x = true) ∧ (s.belowStops x = false) ∧ ((fiSlots x.group.half).all (fun i => s.get .FIS_ACTIVE i == 0) = true) ∧ (s.get .CTX_STATE x = 1) ∧ (s.inUse .CTX_MODE x = 0) ∧ (s.source x (s.inUse .CTX_FB_SRC x) = .suspect)) ((ctxFed 1).put .ENT_SUSPECT 0 1) (0)) ∧
    ((fun (s : State) (x : Ctx) => (s.engineKept x.group = false) ∧ (s.engineOff x.group = false) ∧ (s.samples276 x = true) ∧ (s.belowStops x = true) ∧ (s.get .CTX_STATE x = 1 ∨ s.get .CTX_STATE x = 2)) (((ctxAt 1).putApp .CTX_OUT_KIND 0 2).putApp .CTX_OUT_CTX 0 1) (0)) ∧
    ((fun (s : State) (x : Ctx) => (s.engineKept x.group = false) ∧ (s.engineOff x.group = false) ∧ (s.samples276 x = true) ∧ (s.belowStops x = false) ∧ ((fiSlots x.group.half).all (fun i => s.get .FIS_ACTIVE i == 0) = true) ∧ (s.get .CTX_STATE x = 2) ∧ ((s.ctx x).clears = false) ∧ (s.source x (s.inUse .CTX_FB_SRC x) = .invalid) ∧ (s.app .CTX_OUT_KIND x = 0)) ((ctxAt 2).modCtx 0 fun y => { y with held := -5, good := 7 }) (0)) ∧
    ((fun (s : State) (x : Ctx) => (s.engineKept x.group = false) ∧ (s.engineOff x.group = false) ∧ (s.samples276 x = true) ∧ (s.belowStops x = false) ∧ ((fiSlots x.group.half).all (fun i => s.get .FIS_ACTIVE i == 0) = true) ∧ (s.get .CTX_STATE x = 3) ∧ (s.app .CTX_OUT_KIND x = 0)) ((ctxAt 3).modCtx 0 fun y => { y with p := 65536 * 65536, vmax := 100000, amax := 100000, jmax := 100000 }) (0)) ∧
    ((fun (s : State) (x : Ctx) => (s.engineKept x.group = false) ∧ (s.engineOff x.group = false) ∧ (s.samples276 x = true) ∧ (s.belowStops x = false) ∧ ((fiSlots x.group.half).all (fun i => s.get .FIS_ACTIVE i == 0) = true) ∧ (s.get .CTX_STATE x = 2) ∧ ((s.ctx x).clears = true) ∧ ((s.ctx x).restart = false) ∧ ((s.ctx x).before = []) ∧ (s.source x (s.inUse .CTX_FB_SRC x) = .invalid) ∧ (s.inUse .CTX_MODE x = 0) ∧ (1 < s.inUse .CTX_LOST_N x)) (((ctxAt 2).putApp .CTX_LOST_N 0 3).modCtx 0 fun y => { y with clears := true }) (0)) ∧
    ((fun (s : State) (x : Ctx) => (s.samples276 x = false)) ((ctxAt 1).modCtx 0 fun y => { y with last := some 0 }) (0)) ∧
    ((fun (s : State) (x : Ctx) => (s.engineOff x.group = true)) (State.reset) (0)) :=
  by and_intros <;> decide +kernel

theorem witness_loopHoldsAndInjection :
    ((fun (s : State) (x : Ctx) => (s.get .CTX_STATE x = 2) ∧ (s.engineKept x.group = false) ∧ (s.holdOver x = true) ∧ ((s.ctx x).clears = false) ∧ (s.ctxLane x = none)) ((ctxAt 2).putApp .CTX_HOLD_TO 0 0) (0)) ∧
    ((fun (s : State) (x : Ctx) (l : Lane) => (s.get .CTX_STATE x = 2) ∧ (s.engineKept x.group = false) ∧ (s.holdOver x = true) ∧ ((s.ctx x).clears = false) ∧ (s.ctxLane x = some l) ∧ (s.inUse .CTX_FENCE_EN x = 1)) ((((ctxAt 2).putApp .CTX_HOLD_TO 0 0).putApp .CTX_LANE 0 0).putApp .CTX_FENCE_EN 0 1) (0) (0)) ∧
    ((fun (s : State) (x : Ctx) => (s.holdOver x = false)) (ctxAt 2) (0)) ∧
    ((fun (s : State) (x : Ctx) => (s.get .CTX_STATE x = 3) ∧ ((s.ctx x).p = s.cs .CTX_PARK x * 65536) ∧ ((s.ctx x).v = 0) ∧ ((s.ctx x).a = 0)) (ctxAt 3) (0)) ∧
    ((fun (s : State) (g : Group) => (s.running g.half = true) ∧ (s.answers g.half = true)) (up) (0)) ∧
    ((fun (s : State) (g : Group) => (s.running g.half = true) ∧ (s.answers g.half = true)) (up.put .CTX_INJ 3 1) (0)) ∧
    ((fun (s : State) (g : Group) => (s.get .LG_LEN g ≠ 0) ∧ (s.get .LG_LEN g ≤ (s.group g).inj.k)) (((up.put .CTX_INJ 3 1).put .LG_LEN 0 4).modGroup 0 fun y => { y with inj := { y.inj with k := 4 } }) (0)) ∧
    ((fun (s : State) (g : Group) => (s.running g.half = true) ∧ (s.answers g.half = true)) (up) (0)) ∧
    ((fun (s : State) (g : Group) => ((s.group g).inj.run = true) ∧ (s.get .LG_COUNT g = 4096)) ((up.put .LG_COUNT 0 4096).modGroup 0 fun y => { y with inj := { y.inj with run := true } }) (0)) ∧
    ((fun (s : State) (g : Group) => (s.running g.half = true) ∧ (s.answers g.half = true)) (up.put .LG_CAP_ADDR 0 4095) (0)) :=
  by and_intros <;> decide +kernel

theorem witness_laserCommands :
    ((fun (s : State) (l : Lane) (i : Nat) => (s.isExcess l i = true) ∧ ((s.lane l).ovpTrip = false) ∧ (Cause.laserOvp ∉ (s.lane l).fences)) (laneUp 0) (0) (3)) ∧
    ((fun (s : State) (l : Lane) (i : Nat) => (s.isExcess l i = false)) (laneUp 0) (0) (2)) ∧
    ((fun (s : State) (l : Lane) => ((s.lane l).biasHold = true) ∧ ((s.lane l).clk.biasAt + 2500 ≤ (s.half l.half).aon)) (((laserOn 0).modLane 0 fun x => { x with biasHold := true }).modHalf 0 fun y => { y with aon := 2500 }) (0)) ∧
    ((fun (s : State) (h : Half) => (s.get .LSH_SOFF_PIN h = 1)) (up.put .LSH_SOFF_PIN 0 1) (0)) ∧
    ((fun (s : State) (h : Half) => (s.get .LSH_SOFF_PIN h = 1) ∧ (s.get .LSH_SOFF_RESUME h = 1) ∧ ((s.half h).soffAt + msTicks 1 ≤ (s.half h).aon)) ((((up.put .LSH_SOFF_PIN 0 1).put .LSH_SOFF_RESUME 0 1).put .LSH_SOFF_HELD 0 1).modHalf 0 fun y => { y with aon := 250000 }) (0)) ∧
    ((fun (s : State) (h : Half) => (s.running h = true) ∧ (s.answers h = true) ∧ (s.get .LSH_SOFF_PIN h = 1) ∧ (s.get .LSH_SOFF_RESUME h ≠ 1)) (((up.put .LSH_SOFF_PIN 0 1).put .LSH_SOFF_RESUME 0 0).put .LSH_SOFF_HELD 0 1) (0)) ∧
    ((fun (s : State) (h : Half) => (s.get .LSH_SOFF_PIN h ≠ 1)) (up) (0)) ∧
    ((fun (s : State) (l : Lane) => (s.aprRuns l = true) ∧ (s.get .FE_SIG_DET l ≠ 1) ∧ ((s.lane l).apr = .off) ∧ ((s.lane l).clk.darkAt.any (fun t => s.aprOver l t 500) = true)) ((((((laneUp 0).put .FE_SIG_DET 0 0).putApp .LS_APR_EN 0 1).putApp .LS_LASER_EN 0 1).modLane 0 fun x => { x with clk.darkAt := some 0 }).modHalf 0 fun y => { y with aon := 125000000 }) (0)) ∧
    ((fun (s : State) (l : Lane) => ((s.lane l).apr = .hold) ∧ (s.app .LS_APR_MODE l = 1) ∧ (s.aprOver l (s.lane l).clk.aprAt 50 = true)) (((((((laneUp 0).put .FE_SIG_DET 0 0).putApp .LS_APR_EN 0 1).putApp .LS_LASER_EN 0 1).putApp .LS_APR_MODE 0 1).modLane 0 fun x => { x with apr := .hold }).modHalf 0 fun y => { y with aon := 12500000 }) (0)) ∧
    ((fun (s : State) (l : Lane) => ((s.lane l).apr = .hold ∨ (s.lane l).apr = .pulse) ∧ (s.aprOver l (s.lane l).pulseAt 100000 = true)) ((((((laneUp 0).put .FE_SIG_DET 0 0).putApp .LS_APR_EN 0 1).putApp .LS_LASER_EN 0 1).modLane 0 fun x => { x with apr := .hold }).modHalf 0 fun y => { y with aon := 25000000000 }) (0)) ∧
    ((fun (s : State) (l : Lane) => ((s.lane l).apr = .pulse) ∧ (s.aprOver l (s.lane l).clk.aprAt 2000 = true)) ((((((laneUp 0).put .FE_SIG_DET 0 0).putApp .LS_APR_EN 0 1).putApp .LS_LASER_EN 0 1).modLane 0 fun x => { x with apr := .pulse }).modHalf 0 fun y => { y with aon := 500000000 }) (0)) ∧
    ((fun (s : State) (l : Lane) (v : W32) => (s.running l.half = true) ∧ (s.answers l.half = true) ∧ (s.get .LSH_LOCK l.half = 1)) ((laneUp 0).put .LSH_LOCK 0 1) (0) (0)) ∧
    ((fun (s : State) (l : Lane) (v : W32) => (s.running l.half = true) ∧ (s.answers l.half = true) ∧ (s.get .LSH_LOCK l.half ≠ 1) ∧ (v.toNat / 2 ^ 24 = s.laserCd l) ∧ (s.laserCdOk l (s.laserCd l) = true)) (laneUp 0) (0) (0x08123456)) ∧
    ((fun (s : State) (h : Half) => (s.running h = true) ∧ (s.answers h = true) ∧ (s.get .LSH_LOCK h ≠ 1)) (up) (0)) :=
  by and_intros <;> decide +kernel

theorem witness_commitsAtBoundaries :
    ((fun (s : State) (h : Half) (r : Req) => (Takes s h .commit r) ∧ (s.commitFault (s.affected r (s.with (s.shadowChanges r))) (s.with (s.shadowChanges r)) = none)) ((((laneUp 0).putApp .PORT_HMODE 0 0).writeShadow .FE_SWING 0 35)) (0) (req 4 0 [])) ∧
    ((fun (s : State) (h : Half) (r : Req) (b : Bad) => (Takes s h .commit r) ∧ (s.commitFault (s.affected r (s.with (s.shadowChanges r))) (s.with (s.shadowChanges r)) = some b)) (((laneUp 0).writeShadow .PORT_RATE 0 5)) (0) (req 3 0 []) (⟨3, 0x10, 3, 0, 0x10200⟩)) ∧
    ((fun (s : State) (l : Lane) (h : Half) (c : PendCommit) => (s.commitsIn (fun k => k.lanes.contains l && k.due s l.half) = [(h, c)]) ∧ ((s.half h).commits.all (fun k => k.order != c.order || k == c) = true) ∧ ((s.lane l).resetDue = false) ∧ ((c.cells.map fun p => (p.2.fld, p.2.idx)).Nodup)) ((laneUp 0).modHalf 0 fun y => { y with ticks := 100, commits := [⟨none, 0, 0, 0, 0, [(0, ⟨.FE_SWING, 0, 35⟩), (0, ⟨.FE_MANUAL_STEP, 0, 3⟩)], [0, 1], [], [], 0⟩] }) (0) (0) (⟨none, 0, 0, 0, 0, [(0, ⟨.FE_SWING, 0, 35⟩), (0, ⟨.FE_MANUAL_STEP, 0, 3⟩)], [0, 1], [], [], 0⟩)) ∧
    ((fun (s : State) (l : Lane) => (∀ h : Half, (s.half h).snaps = [] ∧ (s.half h).commits.all (fun c => !(c.lanes.contains l && c.due s l.half)) = true) ∧ ((s.lane l).resetDue = false)) ((laneUp 0).modHalf 0 fun y => { y with ticks := 24, commits := [⟨none, 0, 0, 0, 0, [(0, ⟨.FE_SWING, 0, 35⟩), (0, ⟨.FE_MANUAL_STEP, 0, 3⟩)], [0, 1], [], [], 0⟩] }) (0)) ∧
    ((fun (s : State) (g : Group) (h : Half) (c : PendCommit) => (s.commitsIn (fun k => k.ctxWait.contains g && k.due s g.half) = [(h, c)]) ∧ ((c.cells.map fun p => (p.2.fld, p.2.idx)).Nodup)) (up.modHalf 0 fun y => { y with ticks := 100, commits := [⟨none, 0, 0, 0, 0, [(8, ⟨.CTX_PERIOD, 33, 35⟩), (8, ⟨.CTX_KP, 34, 3⟩)], [], [], [1], 0⟩] }) (1) (0) (⟨none, 0, 0, 0, 0, [(8, ⟨.CTX_PERIOD, 33, 35⟩), (8, ⟨.CTX_KP, 34, 3⟩)], [], [], [1], 0⟩)) ∧
    ((fun (s : State) (g : Group) (h : Half) (c : PendCommit) (k : Cmd) (i v : Nat) => ((s.half h).snaps = []) ∧ ((s.half (otherHalf h)).snaps = []) ∧ ((s.half h).commits = [c]) ∧ ((s.half (otherHalf h)).commits = []) ∧ (c.ctxWait = [g]) ∧ (c.due s g.half = true) ∧ (c.cells = [(g.lane 0, ⟨.CTX_PERIOD, i, v⟩)]) ∧ (i / 32 = g.val) ∧ (c.lanes = []) ∧ (c.ramp = []) ∧ (c.cmd = some k) ∧ (k.org = h) ∧ (k.exe = h)) (up.modHalf 0 fun y => { y with ticks := 100, commits := [⟨some ⟨.commit, req 2 1 [], 0, 0, 0, 0, 0, none, 0⟩, 0, 0, 0, 0, [(8, ⟨.CTX_PERIOD, 33, 35⟩)], [], [], [1], 0⟩] }) (1) (0) (⟨some ⟨.commit, req 2 1 [], 0, 0, 0, 0, 0, none, 0⟩, 0, 0, 0, 0, [(8, ⟨.CTX_PERIOD, 33, 35⟩)], [], [], [1], 0⟩) (⟨.commit, req 2 1 [], 0, 0, 0, 0, 0, none, 0⟩) (33) (35)) ∧
    ((fun (s : State) (g : Group) => (∀ h : Half, (s.half h).snaps = [] ∧ (s.half h).commits.all (fun c => !(c.ctxWait.contains g && c.due s g.half)) = true)) (up) (1)) ∧
    ((fun (s : State) (h : Half) (x : Snap) => ((s.half h).snaps.filter (fun y => !y.latched && y.due ≤ s.ticks h) = [x]) ∧ ((s.half h).snaps.all (fun y => y.key != x.key || y == x) = true) ∧ (x.half = h)) ((laneUp 0).modHalf 0 fun y => { y with snaps := [⟨⟨.snapshot, req 4 0 [], 0, 0, 0, 0, 0, none, 0⟩, 0, 0, [0, 1], false, none⟩] }) (0) (⟨⟨.snapshot, req 4 0 [], 0, 0, 0, 0, 0, none, 0⟩, 0, 0, [0, 1], false, none⟩)) ∧
    ((fun (s : State) (h : Half) => ((s.half h).snaps = [])) (up) (0)) :=
  by and_intros <;> decide +kernel

theorem witness_monitorSequences :
    ((fun (s : State) (q : SeqN) => ((s.sequ q).en = true) ∧ (s.frame % (s.sequ q).period = 0) ∧ ((s.sequ q).waiting = false) ∧ ((s.sequ q).run = none)) (up.modSeq 0 fun y => { y with en := true }) (0)) ∧
    ((fun (s : State) (q : SeqN) => ((s.sequ q).en = true) ∧ (s.frame % (s.sequ q).period = 0) ∧ ((s.sequ q).waiting = true ∨ (s.sequ q).run.isSome = true)) (up.modSeq 0 fun y => { y with en := true, waiting := true }) (0)) ∧
    ((fun (s : State) (q : SeqN) => ((s.sequ q).en = false)) (up) (0)) ∧
    ((fun (s : State) (q : SeqN) => (s.mayRun q = true) ∧ (s.runEntries q ≠ []) ∧ ((s.enabledEntries q).all (fun e => !entChainEn e.2 || feedsAsBefore q.half (s.sequ q).took e) = true)) (((up.put .ENT_EN 0 1).put .SEQ_LEN 0 1).modSeq 0 fun y => { y with waiting := true }) (0)) ∧
    ((fun (s : State) (q : SeqN) => (s.mayRun q = false)) (up) (0)) ∧
    ((fun (s : State) (q : SeqN) => (s.mayRun q = true) ∧ (s.runEntries q = []) ∧ (s.enabledEntries q = [])) (up.modSeq 0 fun y => { y with waiting := true }) (0)) ∧
    ((fun (s : State) (q : SeqN) (n : EntryN) (w0 w1 : Nat) (v : Int) (k : Nat) => ((s.sequ q).run = some [(n.val, w0, w1)]) ∧ (s.inputLive q.half (entInput w0) = true) ∧ (entChainEn w0 = false) ∧ (s.recentSense n.half (entInput w0) = false) ∧ (3 ≤ s.orngAgo n.half (q.val % 4 / 2) + slotsSince (s.sequ q).fresh w0 k) ∧ (w0.testBit 12 = false) ∧ (0 ≤ s.seen n.half (entTest w0) (entInput w0) v) ∧ (s.seen n.half (entTest w0) (entInput w0) v ≤ 32768000)) (runAt 0x80000000 0) (0) (0) (0x80000000) (0) (2048000) (3)) ∧
    ((fun (s : State) (q : SeqN) (n : EntryN) (w0 w1 : Nat) (v : Int) (k : Nat) => ((s.sequ q).run = some [(n.val, w0, w1)]) ∧ (s.inputLive q.half (entInput w0) = true) ∧ (entChainEn w0 = false) ∧ (s.recentSense n.half (entInput w0) = false) ∧ (3 ≤ s.orngAgo n.half (q.val % 4 / 2) + slotsSince (s.sequ q).fresh w0 k) ∧ (w0.testBit 12 = false) ∧ (32768000 < s.seen n.half (entTest w0) (entInput w0) v)) (runAt 0x80000000 0) (0) (0) (0x80000000) (0) (2048001) (3)) ∧
    ((fun (s : State) (q : SeqN) (n : EntryN) (w0 w1 : Nat) (v : Int) (k : Nat) => ((s.sequ q).run = some [(n.val, w0, w1)]) ∧ (s.inputLive q.half (entInput w0) = true) ∧ (entChainEn w0 = false) ∧ (0 ≤ s.seen n.half (entTest w0) (entInput w0) v) ∧ (s.seen n.half (entTest w0) (entInput w0) v ≤ 32768000) ∧ (s.orngAgo n.half (q.val % 4 / 2) + slotsSince (s.sequ q).fresh w0 k < 3 ∨ s.recentSense n.half (entInput w0) = true)) ((runAt 0x80000000 0).modHalf 0 fun y => { y with orngAgo := [0, 3] }) (0) (0) (0x80000000) (0) (1000) (2)) ∧
    ((fun (s : State) (q : SeqN) (n : EntryN) (w0 w1 : Nat) (v : Int) (k : Nat) (c : Nat) => ((s.sequ q).run = some [(n.val, w0, w1)]) ∧ (s.inputLive q.half (entInput w0) = true) ∧ (entChainEn w0 = false) ∧ (s.recentSense n.half (entInput w0) = false) ∧ (3 ≤ s.orngAgo n.half (q.val % 4 / 2) + slotsSince (s.sequ q).fresh w0 k) ∧ (w0.testBit 12 = true) ∧ (0 ≤ s.seen n.half (entTest w0) (entInput w0) v) ∧ (s.seen n.half (entTest w0) (entInput w0) v ≤ 32768000) ∧ (c = (codeOf (s.seen n.half (entTest w0) (entInput w0) v))) ∧ (w1 / 65536 < c ∨ c < w1 % 65536) ∧ (s.get .ENT_OUTSIDE n ≠ 1)) (runAt 0x80001000 0x00100000) (0) (0) (0x80001000) (0x00100000) (1000) (3) (32)) ∧
    ((fun (s : State) (q : SeqN) (n : EntryN) (w0 w1 : Nat) (v : Int) (k : Nat) => ((s.sequ q).run = some [(n.val, w0, w1)]) ∧ (s.inputLive q.half (entInput w0) = true) ∧ (entChainEn w0 = true) ∧ (s.recentSense n.half (entInput w0) = false) ∧ (3 ≤ s.orngAgo n.half (q.val % 4 / 2) + slotsSince (s.sequ q).fresh w0 k) ∧ (0 ≤ s.seen n.half (entTest w0) (entInput w0) v) ∧ (s.seen n.half (entTest w0) (entInput w0) v ≤ 32768000) ∧ (s.get .CH_STEP_THR (entChain n.half w0) = 0)) (runAt 0x80080000 0) (0) (0) (0x80080000) (0) (1000) (3)) ∧
    ((fun (s : State) (q : SeqN) (n : EntryN) (w0 w1 : Nat) (v : Int) (k : Nat) => ((s.sequ q).run = some [(n.val, w0, w1)]) ∧ (s.inputLive q.half (entInput w0) = true) ∧ (entChainEn w0 = true) ∧ (0 ≤ s.seen n.half (entTest w0) (entInput w0) v) ∧ (s.seen n.half (entTest w0) (entInput w0) v ≤ 32768000) ∧ (s.orngAgo n.half (q.val % 4 / 2) + slotsSince (s.sequ q).fresh w0 k < 3 ∨ s.recentSense n.half (entInput w0) = true)) ((runAt 0x80080000 0).modHalf 0 fun y => { y with orngAgo := [0, 3] }) (0) (0) (0x80080000) (0) (1000) (2)) ∧
    ((fun (s : State) (q : SeqN) (n : EntryN) (w0 w1 : Nat) (v : Int) (k : Nat) => ((s.sequ q).run = some [(n.val, w0, w1)]) ∧ (s.inputLive q.half (entInput w0) = false)) ((runAt 0x80000000 0).put .PG_STATE 0 3) (0) (0) (0x80000000) (0) (5) (3)) :=
  by and_intros <;> decide +kernel

theorem witness_monitorConfiguration :
    ((fun (s : State) (i : InputN) (v : W32) => (s.running i.half = true) ∧ (s.answers i.half = true) ∧ (v.toNat % 8 < 7)) (up) (0) (0xB)) ∧
    ((fun (s : State) (n : EntryN) (v : W32) => (s.running n.half = true) ∧ (s.answers n.half = true) ∧ (v.toNat % 65536 ≤ v.toNat / 65536)) (up) (0) (0x00200010)) ∧
    ((fun (s : State) (n : EntryN) (v : W32) => (s.running n.half = true) ∧ (s.answers n.half = true) ∧ (v.toNat / 65536 < v.toNat % 65536)) (up) (0) (0x00100020)) ∧
    ((fun (s : State) (n : EntryN) (v : W32) => (s.running n.half = true) ∧ (s.answers n.half = true) ∧ (entTest v.toNat = true) ∧ (s.entryRead n = true)) ((up.putApp .CTX_EN 0 1).putApp .CTX_FB_SRC 0 0) (0) (0x80002000)) ∧
    ((fun (s : State) (c : ChainN) => (s.running c.half = true) ∧ (s.answers c.half = true)) (up) (0)) ∧
    ((fun (s : State) (c : ChainN) (v : W32) => (s.running c.half = true) ∧ (s.answers c.half = true) ∧ ((slots c.half (0x52000 + 0x20 * (c.val % 32) + 4)).all (fun x => x.fld.inRange (x.value v.toNat)) = true)) (up) (0) (0x00010203)) :=
  by and_intros <;> decide +kernel

theorem witness_controlDac :
    ((fun (s : State) (c : Chan) (v : W32) => (s.running c.half = true) ∧ (s.answers c.half = true) ∧ (s.laserOf c = none) ∧ (s.driven c = false) ∧ (s.overrideOf c = .none) ∧ ((s.chan c).changing = false)) (up) (0) (0x1FFF)) ∧
    ((fun (s : State) (c : Chan) (v : W32) (l : Lane) => (s.running c.half = true) ∧ (s.answers c.half = true) ∧ (s.laserOf c = some l) ∧ (s.get .LSH_LOCK c.half ≠ 1) ∧ (s.driven c = false) ∧ (s.get .LS_BIAS_CEIL l < v.toNat % 4096)) (up) (8) (7) (0)) ∧
    ((fun (s : State) (c : Chan) (v : W32) => (s.running c.half = true) ∧ (s.answers c.half = true) ∧ (s.driven c = true)) (((up.putApp .CTX_EN 0 1).putApp .CTX_OUT_KIND 0 1).putApp .CTX_OUT_CD 0 0) (0) (7)) ∧
    ((fun (s : State) (c : Chan) (v : W32) => (s.running c.half = true) ∧ (s.answers c.half = true) ∧ (s.laserOf c = none)) (up) (0) (7)) ∧
    ((fun (s : State) (c : Chan) => (s.get .CD_HIZ c = 0) ∧ ((s.chan c).changing = false) ∧ (s.overrideOf c = .none) ∧ (s.chanHeld c = false) ∧ (s.weight c = 0) ∧ ((s.chan c).rest = false) ∧ (s.get .CD_SLEW_EN c = 0)) ((((up.put .CD_HIZ 0 0).put .CD_SLEW_EN 0 0).put .CD_REQ 0 77).modChan 0 fun x => { x with rest := false }) (0)) ∧
    ((fun (s : State) (c : Chan) => (s.get .CD_HIZ c = 0) ∧ ((s.chan c).changing = false) ∧ (s.overrideOf c = .clear)) (((up.put .CD_HIZ 0 0).put .CLRH_CLR_PIN 0 1).put .CD_CLR_CODE 0 5) (0)) ∧
    ((fun (s : State) (h : Half) => (s.get .CLRH_CLR_PIN h ≠ 1)) (up.put .CD_HIZ 0 0) (0)) ∧
    ((fun (s : State) (c : Chan) (v : W32) => (s.running c.half = true) ∧ (s.answers c.half = true) ∧ (s.chanLocked c = false) ∧ (s.driven c = false) ∧ ((slots c.half (cdOff c 0)).all (fun x => x.fld.inRange (x.value v.toNat)) = true) ∧ ((s.setWord c.half (slots c.half (cdOff c 0)) v.toNat).get .CD_MODE c ≠ s.get .CD_MODE c) ∧ ((s.chan c).changing = false)) (up) (0) (0xE0100001)) ∧
    ((fun (s : State) (c : Chan) => ((s.chan c).changing = true) ∧ (s.overrideOf c = .none)) (up.modChan 0 fun x => { x with changing := true }) (0)) ∧
    ((fun (s : State) (c : Chan) => (s.get .CD_HIZ c = 1)) (up) (0)) ∧
    ((fun (s : State) (c : Chan) => (s.porst = false) ∧ ((s.half c.half).off = false)) (up.put .CD_HIZ 0 0) (0)) ∧
    ((fun (limit : Nat) (ds : List Draw) => (∀ d ∈ ds, d.fixed = false)) (409500) ([⟨0, 4095, 4095, 100, false, false⟩, ⟨1, 0, 4095, 25, false, false⟩])) ∧
    ((fun (limit : Nat) (ds : List Draw) (c : Chan) => (c ∉ ds.map (·.chan))) (409500) ([⟨0, 4095, 4095, 100, false, false⟩, ⟨1, 0, 4095, 25, false, false⟩]) (2)) :=
  by and_intros <;> decide +kernel

theorem witness_laneCommands :
    ((fun (s : State) (h : Half) (r : Req) => (Takes s h .cfgWrite r) ∧ (((List.range (reqParam r 0)).map (cfgEntry r)).all (s.cfgOk h r) = true)) (up) (0) (req 4 3 [1, 0x120C4, 0x2300, 0x3F00])) ∧
    ((fun (s : State) (h : Half) (r : Req) => (Takes s h .cfgWrite r) ∧ (((List.range (reqParam r 0)).map (cfgEntry r)).all (s.cfgOk h r) = false)) (up) (0) (req 4 0 [1, 0x12005, 5, 5])) ∧
    ((fun (s : State) (h : Half) (r : Req) (l : Lane) => (Takes s h .cfgWrite r) ∧ (reqParam r 0 = 1) ∧ (l.val < 8) ∧ (r.scope = 4) ∧ (r.id.toNat = l.val) ∧ (cfgEntry r 0 = (0x12004 + 0x40 * l.val, 0x2300, 0x3F00))) (up) (0) (req 4 3 [1, 0x120C4, 0x2300, 0x3F00]) (3)) ∧
    ((fun (s : State) (h : Half) (r : Req) => (Takes s h .cfgDiscard r)) ((up.writeShadow .FE_SWING 0 5).writeShadow .FE_SWING 1 5) (0) (req 4 0 [])) ∧
    ((fun (s : State) (h : Half) (r : Req) => (Takes s h .bitswap r) ∧ (s.lmode (reqLane r) ≠ 3)) (laneUp 0) (0) (req 4 0 [0])) ∧
    ((fun (s : State) (h : Half) (r : Req) => (Takes s h .bitswap r) ∧ (s.lmode (reqLane r) = 3) ∧ (s.get .ACQ_STATE (reqLane r) = 3)) (laneD 0) (0) (req 4 0 [1])) ∧
    ((fun (s : State) (h : Half) (r : Req) => (Takes s h .retrain r)) (laneUp 0) (0) (req 4 0 [])) ∧
    ((fun (s : State) (h : Half) (r : Req) => (Takes s h .fenceRelease r) ∧ (s.causes (reqUnit r) = [])) (laneUp 0) (0) (req 4 0 [0])) ∧
    ((fun (s : State) (h : Half) (r : Req) (ks : List Cause) => (Takes s h .fenceRelease r) ∧ ((s.namedCauses (reqUnit r) (reqParam r 0)).toOption = some ks) ∧ (ks.findSome? (s.releaseFault (reqUnit r) (Config.stillBright s.draw.1)) = none)) ((laneUp 0).modLane 0 fun x => { x with fences := [.feSeg, .slice] }) (0) (req 4 0 [0]) ([.feSeg])) ∧
    ((fun (s : State) (h : Half) (r : Req) => (Takes s h .eqCapture r) ∧ ((s.scopeLanes r).all s.inData = true) ∧ ((s.scopeLanes r) ≠ [])) (laneUp 0) (0) (req 4 0 [])) ∧
    ((fun (s : State) (h : Half) (r : Req) => (Takes s h .lsLock r) ∧ (s.get .LSH_LOCK h ≠ 1)) (up) (0) (req 1 0 [1])) ∧
    ((fun (s : State) (h : Half) (r : Req) => (Takes s h .lsLock r) ∧ (s.get .LSH_LOCK h = 1)) (up.put .LSH_LOCK 0 1) (0) (req 1 0 [1])) ∧
    ((fun (s : State) (h : Half) (r : Req) => (Takes s h .safeResume r) ∧ (∀ k ∈ reqHalves r, s.get .LSH_SOFF_PIN k = 1 ∧ s.get .LSH_SOFF_HELD k = 1 ∧ s.get .LSH_SOFF_RESUME k ≠ 1)) (((up.put .LSH_SOFF_PIN 0 1).put .LSH_SOFF_HELD 0 1).put .LSH_SOFF_RESUME 0 0) (0) (req 1 0 [])) ∧
    ((fun (s : State) (h : Half) (r : Req) => (Takes s h .safeResume r) ∧ (r.scope = 1) ∧ (reqHalf r = h) ∧ (s.get .LSH_SOFF_PIN h ≠ 1)) (up) (0) (req 1 0 [])) ∧
    ((fun (s : State) (h : Half) (r : Req) => (Takes s h .aprRestart r) ∧ ((s.lane (reqLane r)).apr = .hold)) (((((laneUp 0).put .FE_SIG_DET 0 0).putApp .LS_APR_EN 0 1).putApp .LS_LASER_EN 0 1).modLane 0 fun x => { x with apr := .hold }) (0) (req 4 0 [])) ∧
    ((fun (s : State) (h : Half) (r : Req) => (Takes s h .aprRestart r) ∧ ((s.lane (reqLane r)).apr ≠ .hold)) (laneUp 0) (0) (req 4 0 [])) ∧
    ((fun (s : State) (h : Half) (r : Req) (x : Ctx) => (Takes s h .loopStatus r) ∧ (x.val = 32 * r.id.toNat + reqParam r 0 % 32)) (up.put .CTX_O_NOW 34 99) (0) (req 2 1 [2]) (34)) :=
  by and_intros <;> decide +kernel

theorem witness_sensorReadings :
    ((fun (s : State) (d : DieSensor) (x : Int) => ((s.half d.half).off = false) ∧ (s.get .DS_FAULT d ≠ 1) ∧ (-2560 ≤ x) ∧ (x ≤ 8000) ∧ (s.farFromPeers d x = false)) (up) (3) (6400)) ∧
    ((fun (s : State) (d : DieSensor) (x : Int) (g : Group) => ((s.half d.half).off = false) ∧ (g.val = 3 * d.half.val + d.val % 16 / 5) ∧ (d.val % 16 ≠ 15)) (up) (3) (6400) (0)) ∧
    ((fun (s : State) (d : DieSensor) (x : Int) => ((s.half d.half).off = false) ∧ (s.get .DS_FAULT d ≠ 1) ∧ (x < -2560 ∨ 8000 < x)) (up) (3) (8001)) ∧
    ((fun (s : State) (e : EngSensor) (a b c : Nat) (x : Int) => (s.get .ENG_EN e = 1) ∧ (s.sensesEngine e.group = true) ∧ (s.get .ENG_FAULT e = 0 ∨ 100 ≤ (s.eng e).good + 1) ∧ (e.val % 4 < 2) ∧ (x = diodeTemp a b c (s.get .ENG_BETA_NF e % 256)) ∧ (-2560 ≤ x) ∧ (x ≤ 9600)) (up) (4) (0) (40000000) (80000000) (diodeTemp 0 40000000 80000000 116)) ∧
    ((fun (s : State) (e : EngSensor) (r : Nat) => (s.get .ENG_EN e = 1) ∧ (s.sensesEngine e.group = true) ∧ (s.get .ENG_FAULT e = 0 ∨ 100 ≤ (s.eng e).good + 1) ∧ (2 ≤ e.val % 4) ∧ (10 ≤ r) ∧ (r ≤ 100000)) (up) (6) (1200)) ∧
    ((fun (s : State) (e : EngSensor) (r : EngReading) => (s.get .ENG_EN e = 1) ∧ (s.sensesEngine e.group = true) ∧ (s.get .ENG_FAULT e = 0) ∧ (r = .open ∨ r = .short)) (up) (6) (.open)) ∧
    ((fun (s : State) (e : EngSensor) (r : EngReading) => (s.get .ENG_EN e = 1) ∧ (s.sensesEngine e.group = true) ∧ (s.get .ENG_FAULT e ≠ 0) ∧ ((s.eng e).good + 1 < 100)) (up.put .ENG_FAULT 6 1) (6) (.short)) ∧
    ((fun (s : State) (e : EngSensor) (r : EngReading) => (s.get .ENG_EN e ≠ 1)) (up.put .ENG_EN 6 0) (6) (.open)) ∧
    ((fun (s : State) (h : Half) => (s.validTemps h ≠ [])) ((up.put .DS_VALID 0 1).put .DS_TEMP 0 640) (0)) :=
  by and_intros <;> decide +kernel

theorem witness_throttlingAndTrip :
    ((fun (s : State) (g : Group) => (s.running g.half = true) ∧ (s.kndOut (grpKnd g 15) = false) ∧ (s.groupFenced g = false)) (((laneUp 0).put .DS_VALID 1 1).modDie 1 fun x => { x with last := [6400] }) (0)) ∧
    ((fun (s : State) (g : Group) (p : Lane) => (s.running g.half = true) ∧ (s.kndOut (grpKnd g 15) = false) ∧ (s.groupFenced g = false) ∧ (s.groupTemp g = (tf, false, false)) ∧ (s.get .THM_TRIP g.half ≠ 1) ∧ ((g.lanes.filter fun (q : Lane) => s.app .PORT_EN q == 1 && (s.port q).fences.isEmpty) = [p])) (((laneUp 0).put .DS_VALID 1 1).modDie 1 fun x => { x with last := [6720] }) (0) (0)) ∧
    ((fun (s : State) (g : Group) => (s.kndOut (grpKnd g 15) = true)) (up.put .KND_STATE 15 1) (0)) ∧
    ((fun (c : Nat) (te : Int) (tt : Int) => (tt < te) ∧ (te < tf)) (20) (6500) (6208)) ∧
    ((fun (s : State) (d : DieSensor) => ((s.half d.half).off = false) ∧ (s.porst = false) ∧ (s.get .THM_TRIP d.half ≠ 1) ∧ ((s.half d.half).dev = none)) (laneUp 0) (5)) ∧
    ((fun (s : State) (d : DieSensor) => (s.get .THM_TRIP d.half = 1)) (up.put .THM_TRIP 0 1) (5)) ∧
    ((fun (s : State) (h : Half) => ((s.half h).off = false) ∧ (s.porst = false) ∧ (s.get .THM_TRIP h ≠ 1) ∧ ((s.half h).dev = none) ∧ ((s.half h).pinArmed = true)) (up) (1)) ∧
    ((fun (s : State) (h : Half) => ((s.half h).off = false) ∧ (s.porst = false) ∧ ((s.half h).pinArmed = false)) (up.modHalf 0 fun y => { y with pinArmed := false }) (0)) ∧
    ((fun (s : State) (h : Half) => (∀ k : Half, s.get .THM_TRIP k ≠ 1)) (up) (0)) ∧
    ((fun (s : State) (h : Half) (v : W32) (k : Nat) => (s.running h = true) ∧ (s.answers h = true) ∧ (v.toNat.testBit 0 = true) ∧ (s.get .THM_TRIP h = 1) ∧ ((s.half h).coolSince = some k) ∧ (k + 25000000 ≤ s.ticks h)) ((up.put .THM_TRIP 0 1).modHalf 0 fun y => { y with coolSince := some 0, ticks := 25000000 }) (0) (1) (0)) ∧
    ((fun (s : State) (h : Half) (v : W32) => (s.running h = true) ∧ (s.answers h = true) ∧ (s.get .THM_TRIP h = 1) ∧ ((s.half h).coolSince = none)) (up.put .THM_TRIP 0 1) (0) (1)) :=
  by and_intros <;> decide +kernel

theorem witness_calibrations :
    ((fun (s : State) (h : Half) (cal : CalResult) => (s.running h = true) ∧ (calAgrees cal 3 = false)) (up) (0) (⟨⟨0, 0, 0, 0⟩, ⟨2001, 5, 0, 0⟩, 0, 0⟩)) ∧
    ((fun (s : State) (h : Half) (cal : CalResult) => (s.running h = true) ∧ (calAgrees cal 3 = true)) (up) (0) (⟨⟨0, 0, 0, 0⟩, ⟨2000, 5, 0, 0⟩, 0, 0⟩)) ∧
    ((fun (s : State) (h : Half) (cal : CalResult) => (s.running h = false)) (State.reset) (0) (⟨⟨0, 0, 0, 0⟩, ⟨0, 5, 0, 0⟩, 0, 0⟩)) ∧
    ((fun (x : Trim) (t v : Int) => (x.pts.length = 5) ∧ ((∃ i : Fin 5, (trimTemps.getD i 0 - t).natAbs ≤ 320)) ∧ (-320 ≤ t) ∧ (t ≤ 6720)) (⟨0, 0, 0, [0, 0, 0, 0, 0], 1⟩) (1600) (5)) ∧
    ((fun (x : Trim) (t v : Int) => ((∀ i : Fin 5, 320 < (trimTemps.getD i 0 - t).natAbs))) (⟨0, 0, 0, [0, 0, 0, 0, 0], 1⟩) (2560) (5)) ∧
    ((fun (s : State) (c : Chan) (v : Int) => (4 < (v - s.get .CD_OUT c).natAbs)) (up) (81) (5)) ∧
    ((fun (s : State) (c : Chan) (v : Int) => ((v - s.get .CD_OUT c).natAbs ≤ 4)) (up) (81) (-4)) ∧
    ((fun (s : State) (h : Half) => (s.running h = true) ∧ ((s.half h).slotAt + msTicks 10000 ≤ s.ticks h)) (up.modHalf 1 fun y => { y with ticks := 2500000000 }) (1)) ∧
    ((fun (s : State) (h : Half) => (s.running h = false ∨ s.ticks h < (s.half h).slotAt + msTicks 10000)) (up) (1)) ∧
    ((fun (s : State) (g : Group) (a : Rat) => ((s.group g).trimTemp = some a)) ((up.put .THG_TG 0 640).modGroup 0 fun y => { y with trimTemp := some 600, trimGoal := 600 }) (0) (600)) ∧
    ((fun (s : State) (g : Group) => ((s.group g).trimTemp = none)) (up.put .THG_TG 0 640) (0)) ∧
    ((fun (s : State) (g : Group) (a b : Rat) (n : Nat) => (s.smallMove g a b = true)) (up) (0) (600) (600) (3)) :=
  ⟨by decide +kernel, by decide +kernel, by decide +kernel, by decide +kernel, by decide +kernel, by decide +kernel, by decide +kernel, by decide +kernel, by decide +kernel, by decide +kernel, by decide +kernel, by show State.smallMove up 0 600 600 = true; simp [State.smallMove, ratAbs]; intros; norm_num⟩

theorem witness_countersAndEvents :
    ((fun (s : State) (h : Half) (r : Req) => (Takes s h .cntClear r)) (laneUp 0) (0) (req 2 0 [])) ∧
    ((fun (s : State) (h : Half) (r : Req) => (Takes s h .monRead r)) (up.put .ENT_CODE 9 1234) (0) (req 1 0 [9])) ∧
    ((fun (s : State) (h : Half) (r : Req) => (Takes s h .eventFilter r) ∧ (reqParam r 0 % 65536 ≠ 0xFFFF)) (up) (0) (req 1 0 [0x30106])) ∧
    ((fun (s : State) (h : Half) (r : Req) => (Takes s h .eventFilter r) ∧ (reqParam r 0 % 65536 = 0xFFFF)) (up) (0) (req 1 0 [0x3FFFF])) ∧
    ((fun (s : State) (h : Half) (r : Req) => (Takes s h .subscribe r)) (up) (0) (req 2 1 [10])) ∧
    ((fun (s : State) (h : Half) (r : Req) => (Takes s h .unsubscribe r) ∧ ((s.half h).subs.any (fun x => x.id == reqParam r 0) = true)) (up.modHalf 0 fun y => { y with subs := [⟨1, [0], 10, 0⟩] }) (0) (req 1 0 [1])) ∧
    ((fun (s : State) (h : Half) (r : Req) => (Takes s h .unsubscribe r) ∧ ((s.half h).subs.any (fun x => x.id == reqParam r 0) = false)) (up) (0) (req 1 0 [1])) ∧
    ((fun (s : State) (h : Half) (r : Req) => (Takes s h .snapshot r)) (up) (0) (req 4 3 [])) :=
  by and_intros <;> decide +kernel

theorem witness_timeBase :
    ((fun (y : HalfS) (rate : Nat) => (y.ns < 1000000000) ∧ (y.sec + 1 < 2 ^ 48) ∧ (0 ≤ (y.frac : Int) + y.advance rate) ∧ ((y.frac : Int) + y.advance rate < 1000000000 * 2 ^ 28)) ({ State.reset.half 0 with addend := 1073741824 }) (50)) ∧
    ((fun (s : State) (h : Half) => (h = halfA ∨ s.get .BR_STATE halfB ≠ 0) ∧ ((s.half h).clock = true) ∧ ((s.half h).pendAddend = none) ∧ ((s.half h).pendSlew = none) ∧ ((s.half h).rejoinSlew = false)) (up.modHalf 0 fun y => { y with clock := true }) (0)) ∧
    ((fun (s : State) (h : Half) (a : Nat) (n : Int) => (h = halfA ∨ s.get .BR_STATE halfB ≠ 0) ∧ ((s.half h).clock = true) ∧ ((s.half h).pendAddend = some a) ∧ ((s.half h).pendSlew = some n) ∧ (n ≠ 0) ∧ (50 * a < 1000000 * (n * 2 ^ 28).natAbs) ∧ (s.get .TIME_RATE h ≤ 50)) (up.modHalf 0 fun y => { y with clock := true, pendAddend := some 1073741825, pendSlew := some (-3) }) (0) (1073741825) (-3)) ∧
    ((fun (s : State) => (s.get .BR_STATE halfB = 0) ∧ ((s.half halfA).clock = true) ∧ ((s.half halfB).clock = true) ∧ ((s.half halfB).rejoinSlew = false)) ((up.modHalf 0 fun y => { y with clock := true, addend := 5, remain := -3 }).modHalf 1 fun y => { y with clock := true })) ∧
    ((fun (s : State) (h : Half) => ((s.half h).clock = false)) (up) (0)) ∧
    ((fun (s : State) (v : W32) => (s.running halfA = true) ∧ (s.answers halfA = true) ∧ (s.get .BR_STATE halfA = 0) ∧ (0x3FFE5C92 ≤ v.toNat) ∧ (v.toNat ≤ 0x4001A36E)) (up) (0x40000001)) ∧
    ((fun (s : State) (v : W32) => (s.running halfA = true) ∧ (s.answers halfA = true) ∧ (v.toNat < 0x3FFE5C92 ∨ 0x4001A36E < v.toNat)) (up) (0x3FFE5C91)) ∧
    ((fun (s : State) (v : W32) => (s.running halfB = true) ∧ (s.answers halfB = true) ∧ (s.manages halfB = true) ∧ ((s.half halfB).filter 0x0106 ≤ 1)) (up.modHalf 1 fun y => { y with promoted := true }) (0x40000001)) ∧
    ((fun (s : State) (v : W32) => (s.running halfA = true) ∧ (s.answers halfA = true) ∧ (s.get .BR_STATE halfA = 0) ∧ ((toSigned 32 v.toNat).natAbs ≤ 1000000000)) (up) (0xFFFFFFFF)) ∧
    ((fun (s : State) (v : W32) (h : Half) => (s.running h = true) ∧ (s.answers h = true) ∧ ((s.timeBlocked h).isSome = true)) (up.put .BR_STATE 0 1) (5) (0)) ∧
    ((fun (s : State) (v : W32) => (s.running halfA = true) ∧ (s.answers halfA = true) ∧ (s.get .BR_STATE halfA = 0) ∧ (1 ≤ v.toNat % 512) ∧ (v.toNat % 512 ≤ 500) ∧ (v.toNat.testBit 31 = true) ∧ ((s.half halfA).step = none)) (up) (0x80000064)) ∧
    ((fun (s : State) (v : W32) => (s.running halfA = true) ∧ (s.answers halfA = true) ∧ (v.toNat % 512 = 0 ∨ 500 < v.toNat % 512)) (up) (0x800001F5)) ∧
    ((fun (s : State) (r : StepReq) => ((s.half halfA).step = some r) ∧ ((s.half halfA).clock = true) ∧ (r.atSecond = false ∨ (s.half halfA).wrapped = true) ∧ (r.cmds = [])) (up.modHalf 0 fun y => { y with clock := true, step := some ⟨5, 6, false, []⟩ }) (⟨5, 6, false, []⟩)) ∧
    ((fun (s : State) (r : StepReq) (h : Half) => ((s.half h).step = some r) ∧ (r.atSecond = true) ∧ ((s.half h).wrapped = false)) (up.modHalf 0 fun y => { y with clock := true, step := some ⟨5, 6, true, []⟩ }) (⟨5, 6, true, []⟩) (0)) :=
  by and_intros <;> decide +kernel

theorem witness_timeCaptures :
    ((fun (s : State) (h : Half) => (s.running h = true) ∧ (s.answers h = true)) (up.modHalf 1 fun y => { y with sec := 2 ^ 33 + 1, ns := 7, frac := 8192 }) (1)) ∧
    ((fun (s : State) => ((s.half halfA).ppsSeen = true) ∧ ((s.half halfA).ppsEdge + msTicks 1100 ≤ s.ticks halfA) ∧ ((s.half halfA).filter 0x010C ≤ 1)) (up.modHalf 0 fun y => { y with ppsSeen := true, ticks := 275000000 })) ∧
    ((fun (s : State) => ((s.half halfA).ppsSeen = false ∨ s.ticks halfA < (s.half halfA).ppsEdge + msTicks 1100)) (up)) ∧
    ((fun (s : State) (h : Half) => (s.running h = true) ∧ (s.answers h = true)) (up.modHalf 0 fun y => { y with ppsSec := 2 ^ 33 + 1, ppsNs := 7, ppsFrac := 819 }) (0)) ∧
    ((fun (s : State) => ((s.half halfA).ppsHigh = true) ∧ ((s.half halfA).ppsAt + msTicks (s.get .TIME_PPS_WIDTH halfA) ≤ (s.half halfA).ticks)) (up.modHalf 0 fun y => { y with ppsHigh := true, ticks := 250000000 })) ∧
    ((fun (s : State) => ((s.half halfA).ppsHigh = false ∨ (s.half halfA).ticks < (s.half halfA).ppsAt + msTicks (s.get .TIME_PPS_WIDTH halfA))) (up)) :=
  by and_intros <;> decide +kernel

theorem witness_eventMessages :
    ((fun (s : State) (l p : Lane) (m : PtpMsg) => (s.accurate p = true)) (((((((laneUp 0).putApp .TSP_TS_EN 0 1).putApp .TSP_ENCAP 0 7).putApp .FEC_FEC_MODE 0 1).put .FEC_LAT_VALID 0 1).modHalf 0 fun y => { y with sec := 5, ns := 6, frac := 40960 })) (0) (0) (⟨ptpFrame 0 0 100 3 4, false, 1000⟩)) ∧
    ((fun (s : State) (l : Lane) (m : PtpMsg) => (s.stamps l m = none)) (up) (0) (⟨ptpFrame 0 0 100 3 4, false, 1000⟩)) ∧
    ((fun (s : State) (l : Lane) (m : PtpMsg) => (s.stamps l m = none)) (up) (0) (⟨ptpFrame 0 0 100 3 4, false, 1000⟩)) ∧
    ((fun (s : State) (l p : Lane) (m : PtpMsg) => (s.stamps l m = some p) ∧ (s.app .TSP_ONE_STEP p = 1) ∧ (m.msgType = 0) ∧ (m.twoStep = false) ∧ ((s.app .TSP_TX_REC p).testBit 0 = false)) (((((((laneUp 0).putApp .TSP_TS_EN 0 1).putApp .TSP_ENCAP 0 7).putApp .FEC_FEC_MODE 0 1).put .FEC_LAT_VALID 0 1).modHalf 0 fun y => { y with sec := 5, ns := 6, frac := 40960 }).putApp .TSP_ONE_STEP 0 1 |>.putApp .TSP_TX_REC 0 14) (0) (0) (⟨ptpFrame 0 0 100 3 4, false, 1000⟩)) ∧
    ((fun (s : State) (l p : Lane) (m : PtpMsg) => (s.stamps l m = some p) ∧ (s.app .TSP_ONE_STEP p = 2) ∧ (m.msgType = 0) ∧ (m.twoStep = false) ∧ ((s.app .TSP_TX_REC p).testBit 0 = false) ∧ (1000000000 * 65536 ≤ (s.stamp p l m false - (m.originSec * 1000000000 + m.originNs : Nat) * 65536).natAbs)) (((((((laneUp 0).putApp .TSP_TS_EN 0 1).putApp .TSP_ENCAP 0 7).putApp .FEC_FEC_MODE 0 1).put .FEC_LAT_VALID 0 1).modHalf 0 fun y => { y with sec := 5, ns := 6, frac := 40960 }).putApp .TSP_ONE_STEP 0 2 |>.putApp .TSP_TX_REC 0 14) (0) (0) (⟨ptpFrame 0 0 100 3 4, false, 1000⟩)) ∧
    ((fun (s : State) (l p : Lane) (m : PtpMsg) => (s.stamps l m = some p) ∧ (s.app .TSP_ONE_STEP p = 2) ∧ (m.msgType = 0) ∧ (m.twoStep = false) ∧ ((s.app .TSP_TX_REC p).testBit 0 = false) ∧ ((s.stamp p l m false - (m.originSec * 1000000000 + m.originNs : Nat) * 65536).natAbs < 1000000000 * 65536)) (((((((laneUp 0).putApp .TSP_TS_EN 0 1).putApp .TSP_ENCAP 0 7).putApp .FEC_FEC_MODE 0 1).put .FEC_LAT_VALID 0 1).modHalf 0 fun y => { y with sec := 5, ns := 6, frac := 40960 }).putApp .TSP_ONE_STEP 0 2 |>.putApp .TSP_TX_REC 0 14) (0) (0) (⟨ptpFrame 0 0 100 5 4, false, 1000⟩)) ∧
    ((fun (s : State) (l p : Lane) (m : PtpMsg) => (s.stamps l m = some p) ∧ ((s.app .TSP_TX_REC p).testBit m.msgType = true) ∧ (m.twoStep = true) ∧ ((s.half l.half).tsq.length < 64)) (((((((laneUp 0).putApp .TSP_TS_EN 0 1).putApp .TSP_ENCAP 0 7).putApp .FEC_FEC_MODE 0 1).put .FEC_LAT_VALID 0 1).modHalf 0 fun y => { y with sec := 5, ns := 6, frac := 40960 }).putApp .TSP_TX_REC 0 15) (0) (0) (⟨ptpFrame 0 512 100 5 4, false, 1000⟩)) ∧
    ((fun (s : State) (l p : Lane) (m : PtpMsg) => (s.stamps l m = some p) ∧ (s.app .TSP_RX_REC p = 1) ∧ (s.app .TSP_RX_INSERT p = 1) ∧ (m.over 2 = false) ∧ ((s.half l.half).tsq.length < 64)) (((((((laneUp 0).putApp .TSP_TS_EN 0 1).putApp .TSP_ENCAP 0 7).putApp .FEC_FEC_MODE 0 1).put .FEC_LAT_VALID 0 1).modHalf 0 fun y => { y with sec := 5, ns := 6, frac := 40960 }).putApp .TSP_RX_REC 0 1 |>.putApp .TSP_RX_INSERT 0 1) (0) (0) (⟨ptpFrame 0 0 100 3 4, false, 1000⟩)) ∧
    ((fun (s : State) (l p : Lane) (m : PtpMsg) => (s.stamps l m = some p) ∧ (s.app .TSP_RX_REC p = 1) ∧ (s.app .TSP_RX_INSERT p = 0) ∧ (64 ≤ (s.half l.half).tsq.length)) (((((((laneUp 0).putApp .TSP_TS_EN 0 1).putApp .TSP_ENCAP 0 7).putApp .FEC_FEC_MODE 0 1).put .FEC_LAT_VALID 0 1).modHalf 0 fun y => { y with sec := 5, ns := 6, frac := 40960 }).putApp .TSP_RX_REC 0 1 |>.modHalf 0 fun y => { y with tsq := List.replicate 64 [] }) (0) (0) (⟨ptpFrame 0 0 100 3 4, false, 1000⟩)) :=
  by and_intros <;> decide +kernel

theorem witness_scheduledAndGeneralCommands :
    ((fun (s : State) (h : Half) => (s.managing h = true) ∧ ((s.half h).sched.all (fun a => !a.due (s.now h)) = true)) (up.modHalf 0 fun y => { y with sched := [⟨⟨.nop, ⟨0, 3, false, false, false, false, 7, 0, 0, 0, 0, .ofFn fun _ => 0⟩, 0, 0, 0, 0, 0, none, 0⟩, 100, []⟩] }) (0)) ∧
    ((fun (s : State) (h : Half) => (s.managing h = true) ∧ ((s.half h).sched.all (fun a => a.cmd.op != .timeStep || !a.due (s.now h)) = true)) (up.modHalf 0 fun y => { y with ns := 100, sched := [⟨⟨.nop, ⟨0, 3, false, false, false, false, 7, 0, 0, 0, 0, .ofFn fun _ => 0⟩, 0, 0, 0, 0, 0, none, 0⟩, 100, []⟩] }) (0)) ∧
    ((fun (s : State) (h : Half) (r : Req) (w : Nat) => (s.managing h = true) ∧ (s.manages h = true) ∧ ((s.half h).sched = [⟨⟨.nop, r, h, h, 0, 0, 0, none, 0⟩, w, []⟩]) ∧ (w ≤ s.now h)) (up.modHalf 0 fun y => { y with ns := 100, sched := [⟨⟨.nop, ⟨0, 3, false, false, false, false, 7, 0, 0, 0, 0, .ofFn fun _ => 0⟩, 0, 0, 0, 0, 0, none, 0⟩, 100, []⟩] }) (0) (⟨0, 3, false, false, false, false, 7, 0, 0, 0, 0, .ofFn fun _ => 0⟩) (100)) ∧
    ((fun (s : State) (h : Half) => (s.managing h = false)) (State.reset) (0)) ∧
    ((fun (s : State) (h : Half) (r : Req) => (Takes s h .identify r)) (up.put .BOOT_VERSION 0 0x10203) (0) (req 1 0 [])) ∧
    ((fun (s : State) (h : Half) (r : Req) => (Takes s h .nop r)) (up) (0) (req 2 1 [])) ∧
    ((fun (s : State) (h : Half) (r : Req) => (Takes s h .timeFreq r)) (up) (0) (req 0 0 [0x40000001])) ∧
    ((fun (s : State) (h : Half) (r : Req) => (Takes s h .timeSlew r)) (up) (0) (req 0 0 [0xFFFFFFFE, 20])) ∧
    ((fun (s : State) (h : Half) (r : Req) => (Takes s h .timeStep r)) (up) (0) (req 0 0 [9, 8, 1, 1])) ∧
    ((fun (s : State) (h : Half) (r : Req) => (Takes s h .schedCancel r) ∧ ((List.finRange 2).all (fun k => (s.pendingTag k (BitVec.ofNat 32 (reqParam r 0))).isNone) = true)) (up) (0) (req 1 0 [77])) ∧
    ((fun (s : State) (h : Half) (r : Req) (a : Sched) => (Takes s h .schedCancel r) ∧ (s.pendingTag h (BitVec.ofNat 32 (reqParam r 0)) = some a)) (up.modHalf 0 fun y => { y with sched := [⟨⟨.nop, { req 1 0 [] with tag := 77 }, 0, 0, 0, 0, 0, none, 0⟩, 100, []⟩] }) (0) (req 1 0 [77]) (⟨⟨.nop, { req 1 0 [] with tag := 77 }, 0, 0, 0, 0, 0, none, 0⟩, 100, []⟩)) ∧
    ((fun (s : State) (h : Half) (r : Req) (a : Sched) => (Takes s h .schedCancel r) ∧ (s.get .BR_STATE h = 0) ∧ (s.pendingTag h (BitVec.ofNat 32 (reqParam r 0)) = none) ∧ (s.pendingTag (otherHalf h) (BitVec.ofNat 32 (reqParam r 0)) = some a)) (up.modHalf 1 fun y => { y with sched := [⟨⟨.nop, { req 1 1 [] with tag := 77 }, 0, 1, 0, 0, 0, none, 0⟩, 100, []⟩] }) (0) (req 1 0 [77]) (⟨⟨.nop, { req 1 1 [] with tag := 77 }, 0, 1, 0, 0, 0, none, 0⟩, 100, []⟩)) ∧
    ((fun (s : State) (h : Half) (r : Req) (o : Opc) => (Takes s h o r)) (up) (0) (req 4 3 [1, 0x120C4, 0x2300, 0x3F00]) (.cfgWrite)) ∧
    ((fun (s : State) (h : Half) (r : Req) (o : Opc) => (s.running h = true) ∧ (s.manages h = true) ∧ (s.invalid (some o) r = none) ∧ (s.inIsland h h o r = false) ∧ (reqExe r = h) ∧ (r.sched = true) ∧ (s.busyReason h o r = none) ∧ (s.needsTested o (if o = .commit then s.shadowChanges r else []) = none) ∧ (0 < dOf r.w.toNat (s.n40 h))) (laneUp 0) (0) ({ req 4 0 [] with sched := true, w := 1000 }) (.retrain)) ∧
    ((fun (s : State) (h : Half) (r : Req) (o : Opc) => (s.running h = true) ∧ (s.manages h = true) ∧ (s.invalid (some o) r = none) ∧ (s.inIsland h h o r = false) ∧ (reqExe r = h) ∧ (r.sched = true) ∧ (r.discard = false) ∧ (s.busyReason h o r = none) ∧ (s.needsTested o (if o = .commit then s.shadowChanges r else []) = none) ∧ (dOf r.w.toNat (s.n40 h) ≤ 0)) ((laneUp 0).modHalf 0 fun y => { y with ns := 5000 }) (0) ({ req 4 0 [] with sched := true, w := 1000 }) (.retrain)) ∧
    ((fun (s : State) (r : Req) (o : Opc) => (s.running halfA = true) ∧ (s.invalid (some o) r = none) ∧ (s.inIsland halfA halfA o r = false) ∧ (reqExe r = halfB)) (up) (req 4 33 []) (.retrain)) ∧
    ((fun (s : State) (h : Half) (r : Req) => (Takes s h .commit r) ∧ (s.commitFault (s.affected r (s.with (s.shadowChanges r))) (s.with (s.shadowChanges r)) = none)) ((((laneUp 0).putApp .PORT_HMODE 0 0).writeShadow .FE_SWING 0 35)) (0) (req 4 0 [])) ∧
    ((fun (s : State) (l : Lane) (h : Half) (c : PendCommit) => (s.commitsIn (fun k => k.lanes.contains l && k.due s l.half) = [(h, c)]) ∧ ((s.half h).commits.all (fun k => k.order != c.order || k == c) = true) ∧ ((s.lane l).resetDue = false) ∧ ((c.cells.map fun p => (p.2.fld, p.2.idx)).Nodup)) ((laneUp 0).modHalf 0 fun y => { y with ticks := 100, commits := [⟨none, 0, 0, 0, 0, [(0, ⟨.FE_SWING, 0, 35⟩), (0, ⟨.FE_MANUAL_STEP, 0, 3⟩)], [0, 1], [], [], 0⟩] }) (0) (0) (⟨none, 0, 0, 0, 0, [(0, ⟨.FE_SWING, 0, 35⟩), (0, ⟨.FE_MANUAL_STEP, 0, 3⟩)], [0, 1], [], [], 0⟩)) ∧
    ((fun (s : State) (g : Group) (h : Half) (c : PendCommit) => (s.commitsIn (fun k => k.ctxWait.contains g && k.due s g.half) = [(h, c)]) ∧ ((c.cells.map fun p => (p.2.fld, p.2.idx)).Nodup)) (up.modHalf 0 fun y => { y with ticks := 100, commits := [⟨none, 0, 0, 0, 0, [(8, ⟨.CTX_PERIOD, 33, 35⟩), (8, ⟨.CTX_KP, 34, 3⟩)], [], [], [1], 0⟩] }) (1) (0) (⟨none, 0, 0, 0, 0, [(8, ⟨.CTX_PERIOD, 33, 35⟩), (8, ⟨.CTX_KP, 34, 3⟩)], [], [], [1], 0⟩)) ∧
    ((fun (s : State) (h : Half) (x : Snap) => ((s.half h).snaps.filter (fun y => !y.latched && y.due ≤ s.ticks h) = [x]) ∧ ((s.half h).snaps.all (fun y => y.key != x.key || y == x) = true) ∧ (x.half = h)) ((laneUp 0).modHalf 0 fun y => { y with snaps := [⟨⟨.snapshot, req 4 0 [], 0, 0, 0, 0, 0, none, 0⟩, 0, 0, [0, 1], false, none⟩] }) (0) (⟨⟨.snapshot, req 4 0 [], 0, 0, 0, 0, 0, none, 0⟩, 0, 0, [0, 1], false, none⟩)) :=
  by and_intros <;> decide +kernel

theorem witness_powerCommands :
    ((fun (s : State) (h : Half) (r : Req) => (Takes s h .groupState r) ∧ (s.get .PG_STATE (reqGroup r) = reqParam r 0) ∧ (s.get .PG_STATE (reqGroup r) < 5) ∧ ((s.half (reqGroup r).half).dev = none) ∧ ((reqGroup r).half.groups.all (fun g => (s.group g).moves.isEmpty) = true) ∧ ((s.half halfA).devWait = [])) (up) (0) (req 2 1 [0])) ∧
    ((fun (s : State) (h : Half) (r : Req) => (Takes s h .groupState r) ∧ (2 ≤ s.get .PG_STATE (reqGroup r)) ∧ (s.get .PG_STATE (reqGroup r) ≤ 3) ∧ (2 ≤ reqParam r 0) ∧ (s.get .PG_STATE (reqGroup r) ≠ reqParam r 0) ∧ ((s.half (reqGroup r).half).dev = none) ∧ ((reqGroup r).half.groups.all (fun g => (s.group g).moves.isEmpty) = true) ∧ ((s.half halfA).devWait = [])) (up.put .PG_STATE 1 2) (0) (req 2 1 [3])) ∧
    ((fun (s : State) (h : Half) (r : Req) => (Takes s h .groupState r) ∧ (s.get .PG_STATE (reqGroup r) = 0) ∧ (1 ≤ reqParam r 0) ∧ (s.groupFenced (reqGroup r) = false) ∧ ((reqGroup r).lanes.any (fun l => (s.portOf l).isSome) = true) ∧ ((s.half (reqGroup r).half).dev = none) ∧ ((reqGroup r).half.groups.all (fun g => (s.group g).moves.isEmpty) = true) ∧ ((s.half halfA).devWait = [])) (laneUp 9) (0) (req 2 1 [3])) ∧
    ((fun (s : State) (h : Half) (r : Req) => (Takes s h .groupState r) ∧ (s.get .PG_STATE (reqGroup r) = 0) ∧ (reqParam r 0 = 1) ∧ (∀ b : Fin 4, s.askBlock (reqGroup r) b = .accept) ∧ ((fiSlots (reqGroup r).half).all (fun i => s.get .FIS_ACTIVE i != 1) = true) ∧ ((s.half (reqGroup r).half).dev = none) ∧ ((reqGroup r).half.groups.all (fun g => (s.group g).moves.isEmpty) = true) ∧ ((s.half halfA).devWait = [])) (up) (0) (req 2 1 [1])) ∧
    ((fun (s : State) (h : Half) (r : Req) => (Takes s h .groupState r) ∧ (s.get .PG_STATE (reqGroup r) = 0) ∧ (2 ≤ reqParam r 0) ∧ (∀ b : Fin 4, s.askBlock (reqGroup r) b = .accept) ∧ ((fiSlots (reqGroup r).half).all (fun i => s.get .FIS_ACTIVE i != 1) = true) ∧ ((s.half (reqGroup r).half).dev = none) ∧ ((reqGroup r).half.groups.all (fun g => (s.group g).moves.isEmpty) = true) ∧ ((s.half halfA).devWait = [])) (up) (0) (req 2 1 [3])) ∧
    ((fun (s : State) (h : Half) (r : Req) (b : Fin 4) => (Takes s h .groupState r) ∧ (s.get .PG_STATE (reqGroup r) = 0) ∧ (1 ≤ reqParam r 0) ∧ (∀ k : Fin 4, k < b → s.askBlock (reqGroup r) k = .accept) ∧ (s.askBlock (reqGroup r) b = .delay) ∧ ((s.half (reqGroup r).half).dev = none) ∧ ((reqGroup r).half.groups.all (fun g => (s.group g).moves.isEmpty) = true) ∧ ((s.half halfA).devWait = [])) (up.put .CTX_INJ 32 1) (0) (req 2 1 [3]) (1)) ∧
    ((fun (s : State) (h : Half) (r : Req) => (Takes s h .groupState r) ∧ (s.get .PG_STATE (reqGroup r) = 1) ∧ (reqParam r 0 = 0) ∧ ((s.half (reqGroup r).half).dev = none) ∧ ((reqGroup r).half.groups.all (fun g => (s.group g).moves.isEmpty) = true) ∧ ((s.half halfA).devWait = [])) (up.put .PG_STATE 1 1) (0) (req 2 1 [0])) ∧
    ((fun (s : State) (h : Half) (r : Req) => (Takes s h .groupState r) ∧ (s.get .PG_STATE (reqGroup r) = 1) ∧ (2 ≤ reqParam r 0) ∧ (s.askBlock (reqGroup r) 3 = .accept) ∧ ((fiSlots (reqGroup r).half).all (fun i => s.get .FIS_ACTIVE i != 1) = true) ∧ ((s.half (reqGroup r).half).dev = none) ∧ ((reqGroup r).half.groups.all (fun g => (s.group g).moves.isEmpty) = true) ∧ ((s.half halfA).devWait = [])) (up.put .PG_STATE 1 1) (0) (req 2 1 [3])) ∧
    ((fun (s : State) (h : Half) (r : Req) => (Takes s h .groupState r) ∧ (2 ≤ s.get .PG_STATE (reqGroup r)) ∧ (s.get .PG_STATE (reqGroup r) ≤ 4) ∧ (reqParam r 0 = 0 ∨ (reqParam r 0 = 1 ∧ s.get .PG_STATE (reqGroup r) ≠ 4)) ∧ ((s.half (reqGroup r).half).dev = none) ∧ ((reqGroup r).half.groups.all (fun g => (s.group g).moves.isEmpty) = true) ∧ ((s.half halfA).devWait = [])) (up.put .PG_STATE 1 3) (0) (req 2 1 [0])) ∧
    ((fun (s : State) (h : Half) (r : Req) => (Takes s h .groupState r) ∧ (5 ≤ s.get .PG_STATE (reqGroup r)) ∧ (s.get .PG_STATE (reqGroup r) ≤ 6) ∧ ((s.half (reqGroup r).half).dev = none) ∧ ((reqGroup r).half.groups.all (fun g => (s.group g).moves.isEmpty) = true) ∧ ((s.half halfA).devWait = [])) (up.put .PG_STATE 1 5) (0) (req 2 1 [0])) ∧
    ((fun (s : State) (h : Half) (r : Req) => (Takes s h .deviceState r) ∧ (∀ k : Half, (s.half k).dev = none) ∧ (reqParam r 0 = 0)) (up.put .PH_DSTATE 0 1) (0) (req 0 0 [0])) ∧
    ((fun (s : State) (h : Half) (r : Req) => (Takes s h .deviceState r) ∧ (∀ k : Half, (s.half k).dev = none) ∧ (∀ k : Half, s.get .PH_DSTATE k = reqParam r 0)) (up) (0) (req 0 0 [0])) ∧
    ((fun (s : State) (h : Half) (r : Req) => (Takes s h .deviceState r) ∧ (∀ k : Half, (s.half k).dev = none) ∧ (∀ k : Half, s.get .PH_DSTATE k ≠ reqParam r 0) ∧ (reqParam r 0 ≠ 0) ∧ (∀ g : Group, s.get .PG_STATE g = 3 ∧ (s.group g).moves = [])) ((List.finRange 6).foldl (fun (s : State) (g : Fin 6) => s.put .PG_STATE g 3) up) (0) (req 0 0 [1])) ∧
    ((fun (s : State) (h : Half) (r : Req) => (Takes s h .deviceState r) ∧ ((s.half halfA).dev.isSome = true ∨ (s.half halfB).dev.isSome = true)) (up.modHalf 1 fun y => { y with dev := some ⟨1, 0, none, false⟩ }) (0) (req 0 0 [1])) ∧
    ((fun (s : State) (h : Half) (r : Req) => (Takes s h .padRelease r) ∧ (∀ g ∈ reqGroups r, s.get .PG_STATE g = 0 ∧ s.get .PG_PADS_HELD g = 1)) (((up.put .PG_PADS_HELD 0 1).put .PG_PADS_HELD 1 1).put .PG_PADS_HELD 2 1) (0) (req 1 0 [])) ∧
    ((fun (s : State) (h : Half) (r : Req) => (Takes s h .padRelease r) ∧ (¬ ∀ g ∈ reqGroups r, s.get .PG_STATE g = 0 ∧ s.get .PG_PADS_HELD g = 1)) (up) (0) (req 2 1 [])) ∧
    ((fun (s : State) (h : Half) (r : Req) (ks : List Cause) => (Takes s h .fenceReleaseGroup r) ∧ ((s.namedCauses (reqUnit r) (reqParam r 0)).toOption = some ks) ∧ (ks.findSome? (s.releaseFault (reqUnit r) (Config.stillBright s.draw.1)) = none)) (up.modHalf 0 fun y => { y with fences := [.halfPower, .knd] }) (0) (req 1 0 [12]) ([.halfPower])) ∧
    ((fun (s : State) (h : Half) (r : Req) (g : Group) => (Takes s h .fenceReleaseGroup r) ∧ (r.scope = 2) ∧ (reqGroup r = g) ∧ ((s.group g).fences = [.groupPower]) ∧ (reqParam r 0 = 0)) ((laneUp 9).modGroup 1 fun y => { y with fences := [.groupPower] }) (0) (req 2 1 [0]) (1)) ∧
    ((fun (s : State) (h : Half) (r : Req) => (Takes s h .reset r)) (laneUp 9) (0) (req 4 9 [])) ∧
    ((fun (s : State) (h : Half) (c : Cpl) (rest : List Cpl) => ((s.half h).cpls = c :: rest) ∧ (s.ringMoves h 4 = true) ∧ (s.ringSpace h 4 ≠ 0) ∧ ((s.half h).resets.all (fun x => x.1 != c.tag || x.2.1 == 4) = true)) ((ringUp 4).modHalf 0 fun y => { y with cpls := [⟨0, 3, 7, false, 0, 0, 1, 2, none⟩], resets := [(7, 4, 9), (8, 4, 1), (7, 4, 2)] }) (0) (⟨0, 3, 7, false, 0, 0, 1, 2, none⟩) ([])) ∧
    ((fun (s : State) (h : Half) (c : Cpl) (rest : List Cpl) (k d : Nat) => ((s.half h).cpls = c :: rest) ∧ (s.ringMoves h 4 = true) ∧ (s.ringSpace h 4 ≠ 0) ∧ ((s.half h).resets = [(c.tag, k, d)])) ((ringUp 4).modHalf 0 fun y => { y with cpls := [⟨0, 3, 7, false, 0, 0, 1, 2, none⟩], resets := [(7, 2, 1)] }) (0) (⟨0, 3, 7, false, 0, 0, 1, 2, none⟩) ([]) (2) (1)) :=
  by and_intros <;> decide +kernel

theorem witness_kneaderService :
    ((fun (s : State) (k : Knd) (c : TrapCause) => (s.kndRuns k = true) ∧ (s.get .KND_STATE k = 0) ∧ (((s.knd k).traps.filter fun x => s.ticks k.half - x < 250000000).length < 2)) (laneUp 0) (3) (.watchdog)) ∧
    ((fun (s : State) (k : Knd) (c : TrapCause) => (s.kndRuns k = true) ∧ (s.get .KND_STATE k = 0) ∧ (2 ≤ ((s.knd k).traps.filter fun x => s.ticks k.half - x < 250000000).length) ∧ (s.get .SP_KND_SPARE (kndSpare k) ≠ 0) ∧ ((kndMates k).all (fun j => j == k || s.get .KND_STATE j != 2) = true) ∧ (s.testLends k.half (kndTestKind k) (kndSpare k) = false)) ((laneUp 0).modKnd 3 fun y => { y with traps := [0, 0] }) (3) (.illegal)) ∧
    ((fun (s : State) (k : Knd) (c : TrapCause) => (s.kndRuns k = true) ∧ (s.get .KND_STATE k = 0) ∧ (2 ≤ ((s.knd k).traps.filter fun x => s.ticks k.half - x < 250000000).length) ∧ (s.get .SP_KND_SPARE (kndSpare k) = 0) ∧ (s.get .ST_STATE k.half = 0)) ((up.put .SP_KND_SPARE 3 0).modKnd 121 fun y => { y with traps := [0, 0] }) (121) (.dataUe)) ∧
    ((fun (s : State) (k : Knd) (c : TrapCause) => (s.kndRuns k = false ∨ s.get .KND_STATE k = 1)) (up.put .KND_STATE 7 1) (7) (.fetchUe)) ∧
    ((fun (s : State) (k : Knd) => (s.reloading k = true)) (((laneUp 0).put .KND_STATE 3 1).modHalf 0 fun y => { y with reloads := [3] }) (3)) ∧
    ((fun (s : State) (k : Knd) => (s.reloading k = true) ∧ ((s.knd k).badImage = false)) (((laneUp 0).put .KND_STATE 3 1).modHalf 0 fun y => { y with reloads := [3] }) (3)) ∧
    ((fun (s : State) (k : Knd) => (s.reloading k = true) ∧ ((s.knd k).badImage = true)) ((((laneUp 0).put .KND_STATE 3 1).modHalf 0 fun y => { y with reloads := [3] }).modKnd 3 fun y => { y with badImage := true }) (3)) ∧
    ((fun (s : State) (k : Knd) (b : Bool) => (s.reloading k = false)) (up) (3) (true)) ∧
    ((fun (s : State) (k : Knd) => (s.get .KND_STATE k = 2) ∧ (s.testsKnd k = true)) (((((up.put .KND_STATE 4 2).put .ST_STATE 0 1).put .ST_KIND 0 1).put .ST_UNIT 0 4).modHalf 0 fun y => { y with stCmd := some ⟨.selftest, ⟨0, 3, false, false, false, false, 7, 0, 0, 0, 0, .ofFn fun _ => 0⟩, 0, 0, 0, 0, 0, none, 0⟩ }) (4)) ∧
    ((fun (s : State) (k : Knd) => (s.get .KND_STATE k = 2) ∧ (s.testsKnd k = false)) (up.put .KND_STATE 3 2) (3)) ∧
    ((fun (s : State) (g : Group) (v : W32) => (s.running g.half = true) ∧ (s.get .SP_KND_SPARE (Group.spIdx g) ≠ 0) ∧ (s.testLends g.half 1 (Group.spIdx g) = false)) (up) (4) (7)) ∧
    ((fun (s : State) (h : Half) (v : W32) => (s.running h = true) ∧ (s.get .SP_KND_SPARE (4 * h.val + 3) ≠ 0) ∧ (s.testLends h 2 (4 * h.val + 3) = false)) (up) (1) (7)) :=
  by and_intros <;> decide +kernel

theorem witness_selfTests :
    ((fun (s : State) (h : Half) (k : Fin 4) (sig : W32) (c : Cmd) => ((s.half h).stCmd = some c) ∧ (s.get .ST_STATE h = 2) ∧ (s.get .ST_KIND h = k)) ((((up.put .ST_STATE 0 2).put .ST_KIND 0 1).put .ST_UNIT 0 4).modHalf 0 fun y => { y with stCmd := some ⟨.selftest, ⟨0, 3, false, false, false, false, 7, 0, 0, 0, 0, .ofFn fun _ => 0⟩, 0, 0, 0, 0, 0, none, 0⟩ }) (0) (1) (77) (⟨.selftest, ⟨0, 3, false, false, false, false, 7, 0, 0, 0, 0, .ofFn fun _ => 0⟩, 0, 0, 0, 0, 0, none, 0⟩)) ∧
    ((fun (s : State) (h : Half) (k : Fin 4) (sig : W32) => (s.onTest h = false ∨ s.get .ST_STATE h ≠ 2 ∨ s.get .ST_KIND h ≠ k)) (up) (0) (2) (77)) ∧
    ((fun (s : State) (g : Group) (k : Fin 3) (cal : CalResult) (sig : W32) => (g.val = 3 * g.half.val + k.val) ∧ ((s.group g).sliceTest.isSome = true)) (up.modGroup 4 fun x => { x with sliceTest := some 0 }) (4) (1) (⟨⟨0, 0, 0, 0⟩, ⟨0, 0, 0, 0⟩, 0, 0⟩) (77)) ∧
    ((fun (s : State) (g : Group) (k : Fin 3) (cal : CalResult) (sig : W32) => (g.val = 3 * g.half.val + k.val) ∧ ((s.group g).sliceTest = none)) (up) (4) (1) (⟨⟨0, 0, 0, 0⟩, ⟨0, 0, 0, 0⟩, 0, 0⟩) (77)) ∧
    ((fun (s : State) => (s.testmode = false)) (up.modHalf 0 fun y => { y with sessions := [1] })) ∧
    ((fun (s : State) (h : Half) (r : Req) => (Takes s h .selftest r) ∧ (s.testFault h (reqParam r 0 % 8) (reqParam r 0 / 256) = none)) (up) (0) (req 1 0 [0x0501])) ∧
    ((fun (s : State) (h : Half) (r : Req) => (Takes s h .fiUnlock r) ∧ (reqParam r 0 = 0x46494E4A) ∧ (s.get .FI_DISABLE h ≠ 1 ∨ s.get .FI_LOCK h ≠ 1)) (up) (0) (req 1 0 [0x46494E4A])) ∧
    ((fun (s : State) (h : Half) (r : Req) (i : Fin 32) => (Takes s h .fiSet r) ∧ (s.get .FI_UNLOCKED h = 1) ∧ ((fiSlots h).find? (fun j => s.get .FIS_ACTIVE j != 1) = some i) ∧ ((fiSlots h).all (fun j => s.get .FIS_ACTIVE j != 1 || s.get .FIS_KIND j != reqParam r 0 || (s.scopeLanes r).all (fun l => !s.slotCovers j l)) = true)) ((laneUp 1).put .FI_UNLOCKED 0 1) (0) (req 4 1 [4, 0, 5, 2]) (0)) ∧
    ((fun (s : State) (h : Half) (r : Req) => (Takes s h .fiClear r)) ((((((laneUp 1).put .FI_UNLOCKED 0 1).put .FIS_ACTIVE 0 1).put .FIS_KIND 0 4).put .FIS_SCOPE 0 4).put .FIS_ID 0 1) (0) (req 1 0 [])) ∧
    ((fun (s : State) (h : Half) => (s.running h = true) ∧ (s.answers h = true) ∧ (s.get .FI_DISABLE h ≠ 1 ∨ s.get .FI_LOCK h ≠ 1)) (up) (1)) ∧
    ((fun (s : State) (h : Half) (v : W32) => (s.running h = true) ∧ (s.answers h = true) ∧ (v.toNat.testBit 30 = true)) (((up.put .FI_UNLOCKED 0 1).put .FIS_ACTIVE 3 1).put .FI_ACTIVE_MAP 0 8) (0) (0x40000000)) ∧
    ((fun (s : State) (h : Half) (j : Fin 16) (i : Fin 32) => (i.val = 16 * h.val + j.val) ∧ (s.get .FIS_ACTIVE i = 1) ∧ (s.injectionOver i = true)) (((laneUp 1).put .FIS_ACTIVE 17 1).put .FIS_KIND 17 1 |>.modFi 17 (fun y => { y with p2 := 5 }) |>.modHalf 1 fun y => { y with aon := 1250 }) (1) (1) (17)) ∧
    ((fun (s : State) (h : Half) (r : Req) => (Takes s h .attOpen r) ∧ (s.get .REL_KEY_LOCKED h ≠ 1)) (up.modHalf 0 fun y => { y with sessions := [(1, 0)] }) (0) (req 1 0 [1, 2, 3, 4, 5, 6, 7, 8])) ∧
    ((fun (s : State) (h : Half) (r : Req) (m : Nat) => (Takes s h .attQuote r) ∧ (s.get .REL_KEY_LOCKED h ≠ 1) ∧ ((s.half h).nonce (reqParam r 0) = some m) ∧ (1024 ≤ reqParam r 3)) (up.modHalf 0 fun y => { y with sessions := [(1, 77)] }) (0) (req 1 0 [1, 4096, 0, 2048]) (77)) ∧
    ((fun (s : State) (h : Half) (r : Req) => (Takes s h .attCert r) ∧ (s.get .REL_KEY_LOCKED h ≠ 1) ∧ (4096 ≤ reqParam r 3)) (up) (0) (req 1 0 [0, 4096, 0, 4096])) ∧
    ((fun (s : State) (h : Half) (r : Req) => (Takes s h .attClose r) ∧ (s.get .REL_KEY_LOCKED h ≠ 1) ∧ (((s.half h).nonce (reqParam r 0)).isSome = true)) (up.modHalf 0 fun y => { y with sessions := [(1, 5)] }) (0) (req 1 0 [1])) :=
  by and_intros <;> decide +kernel

theorem witness_memoryProtection :
    ((fun (s : State) (m : MemUnit) (a : BitVec 10) (w : BitVec 17) => (memHere m = true) ∧ ((memIdx m, a.toNat, w.toNat) ∉ s.sticky) ∧ ((s.trackerOf m).find? (fun e => e.unit == memIdx m && e.arr == a.toNat && e.word == w.toNat) = none)) (up) (⟨0, 2, 1⟩) (5) (6)) ∧
    ((fun (s : State) (m : MemUnit) (a : BitVec 10) (w : BitVec 17) (e : TrkE) => (memHere m = true) ∧ ((memIdx m, a.toNat, w.toNat) ∉ s.sticky) ∧ ((s.trackerOf m).find? (fun e => e.unit == memIdx m && e.arr == a.toNat && e.word == w.toNat) = some e) ∧ (e.done = true)) ({ up with trackers := [⟨9, 5, 6, true⟩] }) (⟨0, 2, 1⟩) (5) (6) (⟨9, 5, 6, true⟩)) ∧
    ((fun (s : State) (m : MemUnit) (a : BitVec 10) (w : BitVec 17) (e : TrkE) => (memHere m = true) ∧ ((memIdx m, a.toNat, w.toNat) ∉ s.sticky) ∧ ((s.trackerOf m).find? (fun e => e.unit == memIdx m && e.arr == a.toNat && e.word == w.toNat) = some e) ∧ (e.done = false)) ({ up with trackers := [⟨9, 5, 6, false⟩] }) (⟨0, 2, 1⟩) (5) (6) (⟨9, 5, 6, false⟩)) ∧
    ((fun (s : State) (m : MemUnit) (a : BitVec 10) (w : BitVec 17) => (memHere m = true) ∧ ((memIdx m, a.toNat, w.toNat) ∈ s.sticky)) ({ up with sticky := [(9, 5, 6)] }) (⟨0, 2, 1⟩) (5) (6)) ∧
    ((fun (s : State) (m : MemUnit) (a : BitVec 10) (w : BitVec 17) => (memHere m = false)) (up) (⟨0, 2, 3⟩) (5) (6)) ∧
    ((fun (s : State) (m : MemUnit) (a : BitVec 10) (w : BitVec 17) => (⟨memIdx m, a.toNat, w.toNat, false⟩ ∈ s.trackers)) ({ up with trackers := [⟨9, 5, 6, false⟩] }) (⟨0, 2, 1⟩) (5) (6)) ∧
    ((fun (s : State) (m : MemUnit) (r : ScrubResult) => (memHere m = true) ∧ (s.get .REL_EN m.half = 1) ∧ (s.running m.half = true) ∧ (s.scrubFind (memIdx m) r = .clean) ∧ (r.lapEnd = none)) (up) (⟨0, 2, 1⟩) (⟨.clean, 5, 6, none⟩)) ∧
    ((fun (s : State) (m : MemUnit) (r : ScrubResult) (ms : Nat) => (memHere m = true) ∧ (s.get .REL_EN m.half = 1) ∧ (s.running m.half = true) ∧ (s.scrubFind (memIdx m) r = .uncorrectable) ∧ (r.lapEnd = some ms) ∧ (s.get .REL_LAP_LIM m.half < ms)) (up) (⟨0, 2, 1⟩) (⟨.uncorrectable, 5, 6, some 70000⟩) (70000)) ∧
    ((fun (s : State) (m : MemUnit) (r : ScrubResult) => (memHere m = true) ∧ (s.get .REL_EN m.half = 1) ∧ (s.running m.half = true) ∧ (s.scrubFind (memIdx m) r = .corrected) ∧ (r.lapEnd = none)) (up) (⟨0, 2, 1⟩) (⟨.corrected, 5, 6, none⟩)) ∧
    ((fun (s : State) (m : MemUnit) (a : BitVec 10) (w : BitVec 17) (rd : UeReader) => (memHere m = true)) (laneUp 0) (⟨0, 2, 1⟩) (5) (6) (.sliceInactive 0)) ∧
    ((fun (s : State) (m : MemUnit) (a : BitVec 10) (w : BitVec 17) (k : Knd) => (memHere m = true) ∧ (s.kndRuns k = true) ∧ (s.get .KND_STATE k = 0)) (laneUp 0) (⟨0, 2, 1⟩) (5) (6) (3)) ∧
    ((fun (s : State) (m : MemUnit) (a : BitVec 10) (w : BitVec 17) (k : Fin 9) => (memHere m = true)) (up.put .PH_AREA_OK 0 511) (⟨0, 2, 1⟩) (5) (6) (3)) ∧
    ((fun (s : State) (m : MemUnit) (a : BitVec 10) (w : BitVec 17) (l : Lane) => (memHere m = true) ∧ (Cause.memUe ∉ (s.lane l).fences)) (laneUp 0) (⟨0, 2, 1⟩) (5) (6) (0)) ∧
    ((fun (s : State) (m : MemUnit) (a : BitVec 10) (w : BitVec 17) (o : BitVec 20) => (memHere m = true)) (up) (⟨0, 2, 1⟩) (5) (6) (64)) ∧
    ((fun (s : State) (m : MemUnit) (a : BitVec 10) (w : BitVec 17) (q : Fin 8) => (memHere m = true) ∧ (s.get .RING_HALTED (ringIdx m.half q) ≠ 1)) (up) (⟨0, 2, 1⟩) (5) (6) (5)) ∧
    ((fun (s : State) (l : Lane) (b : Bool) => (Cause.memUe ∈ (s.lane l).fences)) ((laneUp 0).modLane 0 fun x => { x with fences := [.memUe] }) (0) (true)) ∧
    ((fun (s : State) (l : Lane) (b : Bool) => (Cause.memUe ∉ (s.lane l).fences)) (laneUp 0) (0) (true)) ∧
    ((fun (s : State) (h : Half) => (s.kndOut (sysKnd h 2) = false) ∧ ((s.half h).log.length ≠ (s.half h).logFlash)) (up.modHalf 0 fun y => { y with log := [(0, 3)] }) (0)) :=
  by and_intros <;> decide +kernel

theorem witness_serviceCommands :
    ((fun (s : State) (h : Half) (r : Req) => (Takes s h .selftest r) ∧ (s.testFault h (reqParam r 0 % 8) (reqParam r 0 / 256) = none)) (up) (0) (req 1 0 [0x0501])) ∧
    ((fun (s : State) (h : Half) (r : Req) (e : Nat) => (Takes s h .selftest r) ∧ (s.testFault h (reqParam r 0 % 8) (reqParam r 0 / 256) = some e)) (up.put .SP_KND_SPARE 0 0) (0) (req 1 0 [0x0501]) (0x0A)) ∧
    ((fun (s : State) (h : Half) (r : Req) => (Takes s h .updLoad r) ∧ (∀ k ∈ reqHalves r, (s.half k).loadCmd = none ∧ (((s.get .BOOT_UPD_STAGE k = 0 ∨ s.get .BOOT_UPD_STAGE k = 3) ∧ reqParam r 3 = 0) ∨ (s.get .BOOT_UPD_STAGE k = 1 ∧ (reqParam r 3 = 0 ∨ reqParam r 3 = s.get .BOOT_LOADED k)))) ∧ (reqParam r 3 + reqParam r 2 ≤ 16777216)) (up) (0) (req 1 0 [64, 0, 4096, 0])) ∧
    ((fun (s : State) (h : Half) (r : Req) => (Takes s h .updLoad r) ∧ (r.scope = 1) ∧ (reqHalf r = h) ∧ (s.get .BOOT_UPD_STAGE h = 2 ∨ (s.half h).loadCmd.isSome = true)) (up.put .BOOT_UPD_STAGE 0 2) (0) (req 1 0 [64, 0, 4096, 0])) ∧
    ((fun (s : State) (h : Half) (p : DeltaPiece) (data : List (BitVec 8)) => ((s.half h).loadCmd = some p)) (up.modHalf 0 fun y => { y with loadCmd := some ⟨none, 0, 4⟩ }) (0) (⟨none, 0, 4⟩) ([1, 2, 3])) ∧
    ((fun (s : State) (h : Half) (c : Cmd) (p : DeltaPiece) (data : List (BitVec 8)) => ((s.half h).loadCmd = some p) ∧ (p.cmd = some c) ∧ (s.loadMate h p.cmd = false) ∧ (c.org = c.exe)) (up.modHalf 0 fun y => { y with loadCmd := some ⟨some ⟨.updLoad, req 1 0 [], 0, 0, 0, 0, 0, none, 0⟩, 0, 4⟩ }) (0) (⟨.updLoad, req 1 0 [], 0, 0, 0, 0, 0, none, 0⟩) (⟨some ⟨.updLoad, req 1 0 [], 0, 0, 0, 0, 0, none, 0⟩, 0, 4⟩) ([1, 2, 3, 4])) ∧
    ((fun (s : State) (h : Half) (c : Cmd) (p : DeltaPiece) => ((s.half h).loadCmd = some p) ∧ (p.cmd = some c) ∧ (c.org = c.exe)) (up.modHalf 0 fun y => { y with loadCmd := some ⟨some ⟨.updLoad, req 1 0 [], 0, 0, 0, 0, 0, none, 0⟩, 0, 4⟩ }) (0) (⟨.updLoad, req 1 0 [], 0, 0, 0, 0, 0, none, 0⟩) (⟨some ⟨.updLoad, req 1 0 [], 0, 0, 0, 0, 0, none, 0⟩, 0, 4⟩)) ∧
    ((fun (s : State) (h : Half) (data : Option (List (BitVec 8))) => ((s.half h).loadCmd = none)) (up) (0) (some [])) ∧
    ((fun (s : State) (h : Half) (r : Req) => (Takes s h .updVerify r) ∧ (∀ k ∈ reqHalves r, (s.half k).loadCmd = none ∧ s.get .BOOT_UPD_STAGE k = 1)) (up.put .BOOT_UPD_STAGE 0 1) (0) (req 1 0 [])) ∧
    ((fun (s : State) (h : Half) (k : ApplyChecks) (e : Nat) => (s.get .BOOT_UPD_STAGE h = 2) ∧ ((s.applyDelta h ((1 - (s.half h).boot.active) % 2) k).2 = e) ∧ (e ≠ 0)) (up.put .BOOT_UPD_STAGE 0 2) (0) (⟨true, true, ⟨0, true, true, true⟩⟩) (6)) ∧
    ((fun (s : State) (h : Half) (k : ApplyChecks) (c : Cmd) => (s.get .BOOT_UPD_STAGE h = 2) ∧ ((s.applyDelta h ((1 - (s.half h).boot.active) % 2) k).2 ≠ 0) ∧ ((s.half h).updCmd = some c) ∧ (c.org = c.exe)) ((up.put .BOOT_UPD_STAGE 0 2).modHalf 0 fun y => { y with updCmd := some ⟨.updVerify, req 1 0 [], 0, 0, 0, 0, 0, none, 0⟩ }) (0) (⟨true, true, ⟨0, true, true, true⟩⟩) (⟨.updVerify, req 1 0 [], 0, 0, 0, 0, 0, none, 0⟩)) ∧
    ((fun (s : State) (h : Half) (k : ApplyChecks) => (s.get .BOOT_UPD_STAGE h = 2) ∧ ((s.applyDelta h ((1 - (s.half h).boot.active) % 2) k).2 = 0)) ((up.put .BOOT_UPD_STAGE 0 2).modHalf 0 fun y => { y with store := goodDelta, run := some ⟨[], ⟨0, true, true, true⟩⟩ }) (0) (⟨true, true, ⟨0, true, true, true⟩⟩)) ∧
    ((fun (s : State) (h : Half) (k : ApplyChecks) => (s.get .BOOT_UPD_STAGE h ≠ 2)) (up) (0) (⟨true, true, ⟨0, true, true, true⟩⟩)) ∧
    ((fun (s : State) (h : Half) (r : Req) => (Takes s h .updActivate r) ∧ (∀ k ∈ reqHalves r, (s.half k).loadCmd = none ∧ s.get .BOOT_UPD_STAGE k = 3)) (up.put .BOOT_UPD_STAGE 0 3) (0) (req 1 0 [])) ∧
    ((fun (s : State) (h : Half) (r : Req) => (Takes s h .updConfirm r) ∧ (∀ k ∈ reqHalves r, (s.half k).loadCmd = none ∧ s.get .BOOT_UPD_STAGE k = 5)) (up.put .BOOT_UPD_STAGE 0 5) (0) (req 1 0 [])) ∧
    ((fun (s : State) (h : Half) (r : Req) => (Takes s h .updRollback r) ∧ (∀ k ∈ reqHalves r, (s.half k).loadCmd = none ∧ (s.get .BOOT_UPD_STAGE k = 1 ∨ s.get .BOOT_UPD_STAGE k = 3 ∨ s.get .BOOT_UPD_STAGE k = 4 ∨ s.get .BOOT_UPD_STAGE k = 5))) (up.put .BOOT_UPD_STAGE 0 5) (0) (req 1 0 [])) ∧
    ((fun (s : State) (h : Half) (r : Req) => (Takes s h .dumpBuf r) ∧ (4 * 2 ^ 20 ≤ reqParam r 2)) (up) (0) (req 1 0 [4096, 0, 4194304])) ∧
    ((fun (s : State) (h : Half) (r : Req) (d : Dump) => (Takes s h .dumpFetch r) ∧ ((s.half h).pantryDump = some d) ∧ (65536 ≤ reqParam r 2)) (up.modHalf 0 fun y => { y with pantryDump := some ⟨[1], []⟩ }) (0) (req 1 0 [4096, 0, 65536]) (⟨[1], []⟩)) ∧
    ((fun (s : State) (h : Half) (r : Req) => (Takes s h .dumpFetch r) ∧ ((s.half h).pantryDump = none)) (up) (0) (req 1 0 [4096, 0, 65536])) :=
  by and_intros <;> decide +kernel

theorem witness_cellsAndSupplies :
    ((fun (s : State) (l : Lane) (k : Fin 130) => (s.get .FE_SEG_FAILED l < 2)) (laneUp 9) (9) (7)) ∧
    ((fun (s : State) (l : Lane) (k : Fin 130) => (2 ≤ s.get .FE_SEG_FAILED l)) ((laneUp 9).put .FE_SEG_FAILED 9 2) (9) (7)) ∧
    ((fun (s : State) (l : Lane) (k : Fin 65) => (s.get .FE_SADC_FAILED l = 0)) (laneUp 9) (9) (7)) ∧
    ((fun (s : State) (l : Lane) (k : Fin 65) => (1 ≤ s.get .FE_SADC_FAILED l)) ((laneUp 9).put .FE_SADC_FAILED 9 1) (9) (7)) ∧
    ((fun (s : State) (h : Half) (g : Fin 4) (c : Fin 7) (a : BitVec 10) (w : BitVec 17) => (memHere ⟨h, c, g⟩ = true) ∧ ((memIdx ⟨h, c, g⟩, a.toNat, w.toNat) ∉ s.badRows)) (up) (0) (1) (2) (9) (4)) ∧
    ((fun (s : State) (l : Lane) => (s.get .SP_SLICE_SPARE (Group.spIdx l.group) = 0) ∧ ((s.group l.group).sliceRun = none) ∧ (s.idleLane l = none)) (((List.range 8).foldl (fun s k => s.putApp .PORT_EN (8 + k) 1) (laneUp 9)).put .SP_SLICE_SPARE 1 0) (9)) ∧
    ((fun (s : State) (l : Lane) (m : Lane) => (s.get .SP_SLICE_SPARE (Group.spIdx l.group) = 0) ∧ (Cause.slice ∉ (s.lane l).fences) ∧ ((s.group l.group).sliceRun = none) ∧ (s.testLends l.half 0 (Group.spIdx l.group) = false) ∧ (s.idleLane l = some m)) ((laneUp 9).put .SP_SLICE_SPARE 1 0) (9) (8)) ∧
    ((fun (s : State) (g : Group) => (Cause.groupIo ∉ (s.group g).fences) ∧ (s.manages g.half = true)) (up) (2)) ∧
    ((fun (s : State) (h : Half) => ((s.half h).off = false) ∧ (s.porst = false)) (up) (1)) ∧
    ((fun (s : State) (g : Group) => (s.get .PG_STATE g ≤ 1)) (up) (1)) ∧
    ((fun (s : State) (h : Half) => ((s.half h).off = false)) (up) (1)) ∧
    ((fun (s : State) => (s.porst = false)) (up)) ∧
    ((fun (s : State) => (s.porst = true)) ({ up with porst := true })) :=
  by and_intros <;> decide +kernel

theorem witness_heartbeats :
    ((fun (s : State) (h : Half) => (s.beats h = true)) (up) (0)) ∧
    ((fun (s : State) (h : Half) => (s.beats h = false)) (State.reset) (1)) ∧
    ((fun (s : State) (h : Half) (b : Heartbeat) => (s.managing h = true) ∧ (b.good = true) ∧ (s.get .BR_STATE h = 0) ∧ (b.state ≠ 1) ∧ (h = halfA)) (up.put .BR_MISSED 0 5) (0) (⟨true, 0, 0⟩)) ∧
    ((fun (s : State) (b : Heartbeat) => (s.managing halfB = true) ∧ (b.good = true) ∧ (s.get .BR_STATE halfB = 0) ∧ (b.state ≠ 1) ∧ (b.offset16.natAbs ≤ 16000)) (up) (⟨true, 0, -32⟩)) ∧
    ((fun (s : State) (h : Half) (b : Heartbeat) => (s.managing h = true) ∧ (b.good = false)) (up.put .BR_MISSED 0 5) (0) (⟨false, 0, 0⟩)) ∧
    ((fun (s : State) (h : Half) (b : Heartbeat) => (s.managing h = true) ∧ (b.good = true) ∧ (s.get .BR_STATE h = 0) ∧ (b.state = 1)) (up) (1) (⟨true, 1, 0⟩)) ∧
    ((fun (s : State) (h : Half) => (s.managing h = true) ∧ ((s.half h).heard = true) ∧ ((s.half h).windowAt + 2500 ≤ s.ticks h) ∧ (s.get .BR_MISSED h < 7)) (up.modHalf 0 fun y => { y with heard := true, ticks := 2500 }) (0)) ∧
    ((fun (s : State) (h : Half) => (s.managing h = true) ∧ ((s.half h).heard = true) ∧ ((s.half h).windowAt + 2500 ≤ s.ticks h) ∧ (7 ≤ s.get .BR_MISSED h) ∧ (s.get .BR_STATE h ≠ 1)) ((up.put .BR_MISSED 1 7).modHalf 1 fun y => { y with heard := true, ticks := 2500 }) (1)) ∧
    ((fun (s : State) (h : Half) => (s.managing h = true) ∧ ((s.half h).heard = false) ∧ ((s.half h).releasedAt + msTicks 1000 ≤ s.ticks h) ∧ (s.get .BR_STATE h ≠ 1)) (up.modHalf 0 fun y => { y with ticks := 250000000 }) (0)) ∧
    ((fun (s : State) (h : Half) => (s.ticks h < (s.half h).windowAt + 2500)) (up) (0)) ∧
    ((fun (s : State) (h : Half) => ((s.half h).heard = true ∨ s.ticks h < (s.half h).releasedAt + msTicks 1000)) (up.modHalf 0 fun y => { y with heard := true }) (0)) :=
  by and_intros <;> decide +kernel

theorem witness_islandAndRejoin :
    ((fun (s : State) => (s.managing halfB = true) ∧ ((s.half halfB).heard = false) ∧ ((s.half halfB).releasedAt + msTicks 1000 ≤ s.ticks halfB) ∧ (s.get .BR_STATE halfB ≠ 1) ∧ (s.ringsProgrammed = true) ∧ ((s.half halfA).snaps = [])) (up.modHalf 1 fun y => { y with ticks := 250000000, setup := [0x40008, 0x4000C] ++ (List.range 8).flatMap fun q => [0x40100 + 32 * q, 0x40104 + 32 * q, 0x40108 + 32 * q] })) ∧
    ((fun (s : State) => (s.managing halfB = true) ∧ ((s.half halfB).heard = false) ∧ ((s.half halfB).releasedAt + msTicks 1000 ≤ s.ticks halfB) ∧ (s.get .BR_STATE halfB ≠ 1) ∧ (s.ringsProgrammed = false) ∧ ((s.half halfB).promoted = false)) (up.modHalf 1 fun y => { y with ticks := 250000000 })) ∧
    ((fun (s : State) (b : Heartbeat) => (s.managing halfA = true) ∧ (b.good = true) ∧ (s.get .BR_STATE halfA = 1) ∧ (s.get .BR_STATE halfB = 1) ∧ (999 ≤ (s.half halfA).good) ∧ (1000 ≤ (s.half halfB).good) ∧ (16000 < (s.getS .TIME_B_OFFSET halfB).natAbs)) ((((up.put .BR_STATE 0 1).put .BR_STATE 1 1).put .TIME_B_OFFSET 1 20000).modHalf 0 (fun y => { y with good := 1000 }) |>.modHalf 1 fun y => { y with good := 1000 }) (⟨true, 1, 0⟩)) ∧
    ((fun (s : State) (k : Nat) => ((s.half halfB).rejoinStepAt = some k) ∧ (k ≤ (s.half halfA).sec)) (up.modHalf 1 (fun y => { y with rejoinStepAt := some 5 }) |>.modHalf 0 fun y => { y with sec := 5, ns := 3, frac := 9 }) (5)) ∧
    ((fun (s : State) (k : Nat) => ((s.half halfB).rejoinStepAt = some k) ∧ ((s.half halfA).sec < k)) (up.modHalf 1 fun y => { y with rejoinStepAt := some 5 }) (5)) ∧
    ((fun (s : State) (c : Cpl) (rest : List Cpl) (k : Cmd) => (s.bridge.cpls = c :: rest) ∧ ((s.half halfA).fwd = [k]) ∧ (k.req.tag = c.tag) ∧ (k.req.ring = c.ring) ∧ (k.req.index = c.index)) ({ up with bridge := { up.bridge with cpls := [⟨0, 3, 7, false, 0, 0, 1, 2, none⟩] } }.modHalf 0 fun y => { y with fwd := [⟨.nop, ⟨0, 3, false, false, false, false, 7, 0, 0, 0, 0, .ofFn fun _ => 0⟩, 0, 1, 0, 0, 0, none, 0⟩] }) (⟨0, 3, 7, false, 0, 0, 1, 2, none⟩) ([]) (⟨.nop, ⟨0, 3, false, false, false, false, 7, 0, 0, 0, 0, .ofFn fun _ => 0⟩, 0, 1, 0, 0, 0, none, 0⟩)) ∧
    ((fun (s : State) => (s.bridge.cpls = [])) (up)) ∧
    ((fun (s : State) (e : Evt) (rest : List BRec) => (s.bridge.recs = .evt e :: rest) ∧ (s.get .BR_STATE halfA ≠ 1)) ({ up with bridge := { up.bridge with recs := [.evt ⟨1, 1, 0x0106, 0, 0, 0, 1, 1, 0, 0, 0, 0⟩] } }) (⟨1, 1, 0x0106, 0, 0, 0, 1, 1, 0, 0, 0, 0⟩) ([])) ∧
    ((fun (s : State) (x : Tlm) (rest : List BRec) => (s.bridge.recs = .tlm x :: rest) ∧ (s.get .BR_STATE halfA ≠ 1)) ({ up with bridge := { up.bridge with recs := [.tlm ⟨1, none, false, []⟩] } }) (⟨1, none, false, []⟩) ([])) ∧
    ((fun (s : State) (x : List W32) (rest : List BRec) => (s.bridge.recs = .ts x :: rest) ∧ (s.get .BR_STATE halfA ≠ 1) ∧ ((s.half halfA).tsq.length < 64)) ({ up with bridge := { up.bridge with recs := [.ts [7]] } }) ([7]) ([])) ∧
    ((fun (s : State) (c : Cmd) (rest : List Cmd) => (s.bridge.cmds = c :: rest) ∧ (s.managing halfB = true) ∧ (s.split halfB = false)) ({ up with bridge := { up.bridge with cmds := [⟨.nop, ⟨0, 3, false, false, false, false, 7, 0, 1, 1, 0, .ofFn fun _ => 0⟩, 0, 1, 0, 0, 0, none, 0⟩] } }) (⟨.nop, ⟨0, 3, false, false, false, false, 7, 0, 1, 1, 0, .ofFn fun _ => 0⟩, 0, 1, 0, 0, 0, none, 0⟩) ([])) ∧
    ((fun (s : State) (c : Cmd) (rest : List Cmd) => (s.bridge.cmds = c :: rest) ∧ (s.managing halfB = true) ∧ (s.get .BR_STATE halfB ≠ 1) ∧ (c.op = .nop) ∧ (c.exe = halfB) ∧ (c.org = halfA) ∧ (c.req.sched = false) ∧ (s.invalid (some .nop) c.req = none) ∧ (s.busyReason halfB .nop c.req = none) ∧ ((s.half halfB).promoted = false)) ({ up with bridge := { up.bridge with cmds := [⟨.nop, ⟨0, 3, false, false, false, false, 7, 0, 1, 1, 0, .ofFn fun _ => 0⟩, 0, 1, 0, 0, 0, none, 0⟩] } }) (⟨.nop, ⟨0, 3, false, false, false, false, 7, 0, 1, 1, 0, .ofFn fun _ => 0⟩, 0, 1, 0, 0, 0, none, 0⟩) ([])) :=
  by and_intros <;> decide +kernel

theorem witness_injectionAndAttestation :
    ((fun (s : State) (h : Half) (r : Req) => (Takes s h .fiUnlock r) ∧ (reqParam r 0 = 0x46494E4A) ∧ (s.get .FI_DISABLE h ≠ 1 ∨ s.get .FI_LOCK h ≠ 1)) (up) (0) (req 1 0 [0x46494E4A])) ∧
    ((fun (s : State) (h : Half) (r : Req) => (Takes s h .fiUnlock r) ∧ (reqParam r 0 = 0x46494E4A) ∧ (s.get .FI_DISABLE h = 1) ∧ (s.get .FI_LOCK h = 1)) ((up.put .FI_DISABLE 0 1).put .FI_LOCK 0 1) (0) (req 1 0 [0x46494E4A])) ∧
    ((fun (s : State) (h : Half) (r : Req) => (Takes s h .fiSet r) ∧ (s.get .FI_UNLOCKED h ≠ 1)) (up) (0) (req 4 1 [1, 0, 5])) ∧
    ((fun (s : State) (h : Half) (r : Req) (i : Fin 32) => (Takes s h .fiSet r) ∧ (s.get .FI_UNLOCKED h = 1) ∧ ((fiSlots h).find? (fun j => s.get .FIS_ACTIVE j != 1) = some i) ∧ ((fiSlots h).all (fun j => s.get .FIS_ACTIVE j != 1 || s.get .FIS_KIND j != reqParam r 0 || (s.scopeLanes r).all (fun l => !s.slotCovers j l)) = true)) ((laneUp 1).put .FI_UNLOCKED 0 1) (0) (req 4 1 [4, 0, 5, 2]) (0)) ∧
    ((fun (s : State) (h : Half) (r : Req) (i : Fin 32) => (Takes s h .fiSet r) ∧ (s.get .FI_UNLOCKED h = 1) ∧ ((fiSlots h).find? (fun j => s.get .FIS_ACTIVE j != 1) = some i) ∧ ((fiSlots h).all (fun j => s.get .FIS_ACTIVE j != 1) = true) ∧ (reqParam r 0 = 1 ∨ reqParam r 0 = 3 ∨ reqParam r 0 = 4 ∨ reqParam r 0 = 7 ∨ reqParam r 0 = 8)) ((laneUp 1).put .FI_UNLOCKED 0 1) (0) (req 4 1 [4, 0, 5, 2]) (0)) ∧
    ((fun (s : State) (h : Half) (r : Req) => (Takes s h .fiSet r) ∧ (s.get .FI_UNLOCKED h = 1) ∧ (s.get .FIS_ACTIVE (16 * h.val) = 1) ∧ (s.get .FIS_ACTIVE (16 * h.val + 1) ≠ 1) ∧ (s.get .FIS_KIND (16 * h.val) = reqParam r 0) ∧ (s.get .FIS_SCOPE (16 * h.val) = 4) ∧ (r.scope = 4) ∧ (s.get .FIS_ID (16 * h.val) = r.id.toNat)) ((((((laneUp 1).put .FI_UNLOCKED 0 1).put .FIS_ACTIVE 0 1).put .FIS_KIND 0 4).put .FIS_SCOPE 0 4).put .FIS_ID 0 1) (0) (req 4 1 [4, 0, 5, 2])) ∧
    ((fun (s : State) (h : Half) (r : Req) => (Takes s h .fiClear r)) ((((((laneUp 1).put .FI_UNLOCKED 0 1).put .FIS_ACTIVE 0 1).put .FIS_KIND 0 4).put .FIS_SCOPE 0 4).put .FIS_ID 0 1) (0) (req 1 0 [])) ∧
    ((fun (s : State) (h : Half) (j : Fin 16) (i : Fin 32) => (i.val = 16 * h.val + j.val) ∧ (s.get .FIS_ACTIVE i = 1) ∧ (s.injectionOver i = true)) (((laneUp 1).put .FIS_ACTIVE 17 1).put .FIS_KIND 17 1 |>.modFi 17 (fun y => { y with p2 := 5 }) |>.modHalf 1 fun y => { y with aon := 1250 }) (1) (1) (17)) ∧
    ((fun (s : State) (h : Half) (j : Fin 16) (i : Fin 32) => (i.val = 16 * h.val + j.val) ∧ (s.get .FIS_ACTIVE i = 0)) (up) (1) (1) (17)) ∧
    ((fun (s : State) (h : Half) => (s.running h = true) ∧ (s.answers h = true) ∧ (s.get .FI_DISABLE h ≠ 1 ∨ s.get .FI_LOCK h ≠ 1)) (up) (1)) ∧
    ((fun (s : State) (h : Half) (v : W32) => (v ≠ 0x46494E4A)) (up) (1) (5)) ∧
    ((fun (s : State) (h : Half) (v : W32) => (s.running h = true) ∧ (s.answers h = true) ∧ (v.toNat.testBit 30 = true)) (((up.put .FI_UNLOCKED 0 1).put .FIS_ACTIVE 3 1).put .FI_ACTIVE_MAP 0 8) (0) (0x40000000)) ∧
    ((fun (s : State) (h : Half) (v : W32) => (s.running h = true) ∧ (s.answers h = true) ∧ (v.toNat.testBit 30 = false)) (up) (0) (1)) ∧
    ((fun (s : State) (h : Half) (r : Req) => (Takes s h .attOpen r) ∧ (s.get .REL_KEY_LOCKED h ≠ 1)) (up.modHalf 0 fun y => { y with sessions := [(1, 0)] }) (0) (req 1 0 [1, 2, 3, 4, 5, 6, 7, 8])) ∧
    ((fun (s : State) (h : Half) (r : Req) (m : Nat) => (Takes s h .attQuote r) ∧ (s.get .REL_KEY_LOCKED h ≠ 1) ∧ ((s.half h).nonce (reqParam r 0) = some m) ∧ (1024 ≤ reqParam r 3)) (up.modHalf 0 fun y => { y with sessions := [(1, 77)] }) (0) (req 1 0 [1, 4096, 0, 2048]) (77)) ∧
    ((fun (s : State) (h : Half) (r : Req) => (Takes s h .attCert r) ∧ (s.get .REL_KEY_LOCKED h ≠ 1) ∧ (4096 ≤ reqParam r 3)) (up) (0) (req 1 0 [0, 4096, 0, 4096])) ∧
    ((fun (s : State) (h : Half) (r : Req) => (Takes s h .attClose r) ∧ (s.get .REL_KEY_LOCKED h ≠ 1) ∧ (((s.half h).nonce (reqParam r 0)).isSome = true)) (up.modHalf 0 fun y => { y with sessions := [(1, 5)] }) (0) (req 1 0 [1])) ∧
    ((fun (s : State) (h : Half) (r : Req) => (Takes s h .attClose r) ∧ (s.get .REL_KEY_LOCKED h = 1)) (up.put .REL_KEY_LOCKED 0 1) (0) (req 1 0 [1])) :=
  by and_intros <;> decide +kernel

theorem witness_proofAndWake :
    ((fun (s : State) (g : Group) => (s.get .PG_STATE g = 2) ∧ (s.get .THM_TRIP g.half ≠ 1) ∧ ((s.group g).proofDue ≤ (s.half g.half).aon) ∧ ((List.range 4).all (fun k => !(s.get .PG_SEQ_MASK g).testBit k) = true)) (up.put .PG_STATE 4 2) (4)) ∧
    ((fun (s : State) (g : Group) (k : Fin 4) (q : SeqN) => (s.get .PG_STATE g = 2) ∧ (s.get .THM_TRIP g.half ≠ 1) ∧ ((s.group g).proofDue ≤ (s.half g.half).aon) ∧ ((s.get .PG_SEQ_MASK g).testBit k = true) ∧ (q.val = 4 * (g.val / 3) + k.val) ∧ ((s.sequ q).waiting = false) ∧ ((s.sequ q).run = none)) ((up.put .PG_STATE 4 2).put .PG_SEQ_MASK 4 10) (4) (3) (7)) ∧
    ((fun (s : State) (g : Group) (k : Fin 4) (q : SeqN) => (s.get .PG_STATE g = 2) ∧ (s.get .THM_TRIP g.half ≠ 1) ∧ ((s.group g).proofDue ≤ (s.half g.half).aon) ∧ ((s.get .PG_SEQ_MASK g).testBit k = true) ∧ (q.val = 4 * (g.val / 3) + k.val) ∧ ((s.sequ q).waiting = true)) (((up.put .PG_STATE 4 2).put .PG_SEQ_MASK 4 10).modSeq 5 fun y => { y with waiting := true }) (4) (1) (5)) ∧
    ((fun (s : State) (g : Group) => (s.get .PG_STATE g ≠ 2 ∨ (s.half g.half).aon < (s.group g).proofDue)) (up) (4)) ∧
    ((fun (s : State) (g : Group) => ((s.group g).proof = false ∨ (s.half g.half).aon < (s.group g).proofEnd)) (up) (2)) ∧
    ((fun (s : State) (g : Group) => ((s.group g).proofEnd ≤ (s.half g.half).aon)) (up.modGroup 2 fun y => { y with proof := true }) (2)) ∧
    ((fun (s : State) (g : Group) (w : Wake) => ((s.group g).wake = some w) ∧ (w.railGood = false) ∧ ((s.half g.half).dev = none) ∧ (g.half.groups.all (fun k => (s.group k).moves.isEmpty) = true) ∧ ((s.half halfA).devWait = [])) (up.put .PG_STATE 2 6 |>.modGroup 2 fun y => { y with wake := some ⟨false, false, 0, 0, none⟩ }) (2) (⟨false, false, 0, 0, none⟩)) ∧
    ((fun (s : State) (g : Group) (w : Wake) => ((s.group g).wake = some w) ∧ (w.railGood = false) ∧ (w.second = false) ∧ (w.began + msTicks 2 ≤ (s.half g.half).aon) ∧ ((s.half g.half).dev = none) ∧ (g.half.groups.all (fun k => (s.group k).moves.isEmpty) = true) ∧ ((s.half halfA).devWait = [])) (up.put .PG_STATE 2 6 |>.modHalf 0 (fun y => { y with aon := 500000 }) |>.modGroup 2 fun y => { y with wake := some ⟨false, false, 0, 0, none⟩ }) (2) (⟨false, false, 0, 0, none⟩)) ∧
    ((fun (s : State) (g : Group) (w : Wake) => ((s.group g).wake = some w) ∧ (w.railGood = false) ∧ (w.second = true) ∧ (w.began + msTicks 2 ≤ (s.half g.half).aon) ∧ ((s.half g.half).dev = none) ∧ (g.half.groups.all (fun k => (s.group k).moves.isEmpty) = true) ∧ ((s.half halfA).devWait = []) ∧ ((fiSlots g.half).all (fun i => s.get .FIS_ACTIVE i != 1) = true)) (up.put .PG_STATE 2 6 |>.modHalf 0 (fun y => { y with aon := 500000 }) |>.modGroup 2 fun y => { y with wake := some ⟨true, false, 0, 0, none⟩ }) (2) (⟨true, false, 0, 0, none⟩)) ∧
    ((fun (s : State) (g : Group) (w : Wake) => ((s.group g).wake = some w) ∧ (w.railGood = true) ∧ (w.target = 0) ∧ ((s.half g.half).dev = none) ∧ (g.half.groups.all (fun k => (s.group k).moves.isEmpty) = true) ∧ ((s.half halfA).devWait = [])) (up.put .PG_STATE 2 6 |>.modGroup 2 fun y => { y with wake := some ⟨true, true, 0, 0, none⟩ }) (2) (⟨true, true, 0, 0, none⟩)) ∧
    ((fun (s : State) (g : Group) (w : Wake) => ((s.group g).wake = some w) ∧ (w.railGood = true) ∧ (w.target = 1) ∧ ((s.half g.half).dev = none) ∧ (g.half.groups.all (fun k => (s.group k).moves.isEmpty) = true) ∧ ((s.half halfA).devWait = []) ∧ ((fiSlots g.half).all (fun i => s.get .FIS_ACTIVE i != 1) = true) ∧ ((g.lanes.all fun l => (s.portOf l).isNone && s.get .LS_LASEN l != 1) = true) ∧ (s.groupFenced g = false)) (up.put .PG_STATE 2 6 |>.modGroup 2 fun y => { y with wake := some ⟨true, true, 0, 1, none⟩ }) (2) (⟨true, true, 0, 1, none⟩)) ∧
    ((fun (s : State) (g : Group) (w : Wake) => ((s.group g).wake = some w) ∧ ((s.half g.half).aon < w.began + msTicks 2) ∧ ((s.half g.half).dev = none) ∧ (g.half.groups.all (fun k => (s.group k).moves.isEmpty) = true) ∧ ((s.half halfA).devWait = [])) (up.put .PG_STATE 2 6 |>.modGroup 2 fun y => { y with wake := some ⟨false, false, 0, 0, none⟩ }) (2) (⟨false, false, 0, 0, none⟩)) ∧
    ((fun (s : State) (g : Group) (ok : Bool) => ((s.group g).wake = none)) (up) (2) (true)) ∧
    ((fun (s : State) (g : Group) => (((s.group g).wake.any fun w => w.railGood) = false) ∧ ((s.half g.half).dev = none) ∧ (g.half.groups.all (fun k => (s.group k).moves.isEmpty) = true) ∧ ((s.half halfA).devWait = [])) (up) (2)) ∧
    ((fun (s : State) (g : Group) (j : Fin 20) => ((s.group g).resetting = true) ∧ (s.get .KND_STATE (grpKnd g j) = 1)) ((up.modGroup 2 fun y => { y with resetting := true }).put .KND_STATE (grpKnd 2 9) 1) (2) (9)) ∧
    ((fun (s : State) (g : Group) => ((s.group g).resetting = true)) ((up.modGroup 2 fun y => { y with resetting := true }).put .KND_STATE (grpKnd 2 9) 1) (2)) :=
  by and_intros <;> decide +kernel

theorem witness_functionPowerStates :
    ((fun (s : State) (h : Half) => (s.running h = true) ∧ (s.get .PH_DSTATE h = 0) ∧ ((s.half h).dev = none)) (up) (0)) ∧
    ((fun (s : State) (h : Half) => (s.running h = true) ∧ (s.get .PH_D3_HOT h = 1) ∧ ((s.half h).d3At + msTicks 99 ≤ (s.half h).aon) ∧ (s.get .PH_DSTATE h = 0) ∧ ((s.half h).dev = none)) ((up.put .PH_D3_HOT 0 1).modHalf 0 fun y => { y with aon := 24750000 }) (0)) ∧
    ((fun (s : State) (h : Half) => (s.get .PH_DSTATE h = 1)) ((up.put .PH_DSTATE 0 1).modHalf 0 fun y => { y with held := [0, 3, 1] }) (0)) ∧
    ((fun (s : State) (h : Half) => (s.running h = false ∨ s.get .PH_DSTATE h ≠ 0 ∨ (s.half h).dev.isSome = true)) (up.put .PH_DSTATE 0 1) (0)) ∧
    ((fun (s : State) (h : Half) => (s.running h = true) ∧ (s.get .PH_DSTATE h = 0) ∧ ((s.half h).dev = none) ∧ (s.allDormant h = true) ∧ (h.groups.all (fun k => (s.group k).moves.isEmpty) = true)) (((up.put .PG_STATE 3 3).put .PG_STATE 4 3).put .PG_STATE 5 3) (1)) ∧
    ((fun (s : State) (h : Half) (g : Group) => (s.running h = true) ∧ (s.get .PH_DSTATE h = 0) ∧ ((s.half h).dev = none) ∧ ((s.half h).held = []) ∧ (h.groups.head? = some g) ∧ (s.get .PG_STATE g = 0) ∧ (s.groupFenced g = false) ∧ (g.lanes.any (fun l => (s.portOf l).isSome) = true) ∧ (h.groups.all (fun k => (s.group k).moves.isEmpty && (s.group k).hs.isNone) = true)) (laneUp 3) (0) (0)) ∧
    ((fun (s : State) (h : Half) => (s.running h = true) ∧ (s.get .PH_D3_HOT h = 1) ∧ ((s.half h).d3At + msTicks 99 ≤ (s.half h).aon) ∧ (s.get .PH_DSTATE h = 0) ∧ ((s.half h).dev = none) ∧ (s.allDormant h = true) ∧ (h.groups.all (fun k => (s.group k).moves.isEmpty) = true)) ((((up.put .PG_STATE 3 3).put .PG_STATE 4 3).put .PG_STATE 5 3).put .PH_D3_HOT 1 1 |>.modHalf 1 fun y => { y with aon := 24750000 }) (1)) ∧
    ((fun (s : State) (h : Half) => (s.get .PH_D3_HOT h ≠ 1 ∨ (s.half h).aon < (s.half h).d3At + msTicks 99)) (up) (1)) ∧
    ((fun (s : State) (h : Half) => (s.get .PH_DSTATE h = 1) ∧ ((s.half h).held = [])) ((up.put .PH_DSTATE 0 1).put .PH_D3_HOT 0 1) (0)) ∧
    ((fun (s : State) (h : Half) (g : Group) => (s.get .PH_DSTATE h = 1) ∧ (h.groups.head? = some g) ∧ ((s.half h).held = [0, 3, 3]) ∧ (s.get .PG_STATE g = 3) ∧ ((s.group g).hs = none) ∧ ((h.groups.drop 1).all (fun k => (s.group k).hs.isNone) = true)) ((((up.put .PG_STATE 0 3).put .PG_STATE 1 3).put .PG_STATE 2 3).put .PH_DSTATE 0 1 |>.modHalf 0 fun y => { y with held := [0, 3, 3] }) (0) (0)) ∧
    ((fun (s : State) (h : Half) => (s.get .PH_DSTATE h ≠ 1)) (up) (0)) ∧
    ((fun (s : State) (g : Group) (hs : Handshake) => ((s.group g).hs = some hs) ∧ (hs.delaying = true) ∧ (hs.block = 3) ∧ (s.askBlock g 3 = .accept) ∧ (2 ≤ hs.target) ∧ ((fiSlots g.half).all (fun i => s.get .FIS_ACTIVE i != 1) = true) ∧ ((s.half g.half).dev = none) ∧ (g.half.groups.all (fun k => (s.group k).moves.isEmpty) = true) ∧ ((s.half halfA).devWait = [])) (((up.put .PG_STATE 1 5).modGroup 1 fun y => { y with hs := some ⟨3, 0, 3, true, 0, none⟩ })) (1) (⟨3, 0, 3, true, 0, none⟩)) ∧
    ((fun (s : State) (g : Group) (hs : Handshake) => ((s.group g).hs = some hs) ∧ (hs.delaying = true) ∧ (hs.block < 4) ∧ (hs.asked + msTicks 10 ≤ (s.half g.half).aon) ∧ ((s.half g.half).dev = none) ∧ (g.half.groups.all (fun k => (s.group k).moves.isEmpty) = true) ∧ ((s.half halfA).devWait = [])) ((((up.modHalf 0 fun y => { y with aon := 2500000 }).put .PG_STATE 1 5).modGroup 1 fun y => { y with hs := some ⟨1, 0, 1, true, 0, none⟩ })) (1) (⟨1, 0, 1, true, 0, none⟩)) ∧
    ((fun (s : State) (g : Group) (hs : Handshake) => ((s.group g).hs = some hs) ∧ (hs.block = 4) ∧ (hs.target = 2 ∨ hs.target = 3) ∧ ((s.half g.half).dev = none) ∧ (g.half.groups.all (fun k => (s.group k).moves.isEmpty) = true) ∧ ((s.half halfA).devWait = [])) ((((laneUp 9).put .PG_STATE 1 5).modGroup 1 fun y => { y with hs := some ⟨3, 0, 4, false, 0, none⟩ })) (1) (⟨3, 0, 4, false, 0, none⟩)) :=
  by and_intros <;> decide +kernel

theorem witness_powerOnReset :
    ((fun (s : State) => (s.porst = true)) ({ State.reset with porst := true })) ∧
    ((fun (s : State) => (s.porst = false)) (up)) ∧
    ((fun (s : State) => (s.porst = false) ∧ (∀ h, (s.half h).live = false)) ((up.modHalf 0 fun y => { y with live := false }).modHalf 1 fun y => { y with live := false })) ∧
    ((fun (s : State) (h : Half) => (s.porst = true ∨ (s.half h).live = true)) (up) (0)) :=
  by and_intros <;> decide +kernel

theorem witness_halfResets :
    ((fun (s : State) (h : Half) => ((s.half h).perst = false) ∧ ((s.half h).off = false)) (laneUp 30) (1)) ∧
    ((fun (s : State) (h : Half) => ((s.half h).perst = false) ∧ ((s.half h).off = true)) ((laneUp 30).modHalf 1 fun y => { y with off := true }) (1)) ∧
    ((fun (s : State) (h : Half) (l : Lane) => ((s.half h).perst = false) ∧ ((s.half h).off = false) ∧ (l ∈ h.lanes)) ((laneUp 30).putApp .FE_SWING 30 9) (1) (30)) ∧
    ((fun (s : State) (h : Half) => ((s.half h).perst = true)) (up.modHalf 1 fun y => { y with perst := true }) (1)) ∧
    ((fun (s : State) (h : Half) => ((s.half h).perst = true) ∧ (s.porst = false) ∧ ((s.half h).off = false) ∧ (s.get .PH_VALID h = 1)) ((up.put .PH_VALID 1 1).modHalf 1 fun y => { y with perst := true, live := false }) (1)) ∧
    ((fun (s : State) (h : Half) => ((s.half h).perst = true) ∧ (s.porst = false) ∧ ((s.half h).off = false) ∧ (s.get .PH_VALID h ≠ 1)) (up.modHalf 1 fun y => { y with perst := true, live := false }) (1)) ∧
    ((fun (s : State) (h : Half) => ((s.half h).perst = true) ∧ (s.porst = false) ∧ ((s.half h).off = true)) ((up.put .PH_VALID 1 1).modHalf 1 fun y => { y with perst := true, live := false, off := true, held := [3, 3, 3] }) (1)) ∧
    ((fun (s : State) (h : Half) => ((s.half h).perst = true) ∧ (s.porst = true)) ({ up with porst := true }.modHalf 1 fun y => { y with perst := true, live := false }) (1)) ∧
    ((fun (s : State) (h : Half) => ((s.half h).perst = false)) (up) (1)) ∧
    ((fun (s : State) (h : Half) (l : Lane) => (l ∈ h.lanes)) (laneUp 30) (1) (30)) :=
  by and_intros <;> decide +kernel

theorem witness_entryHandshake :
    ((fun (s : State) (g : Group) (hs : Handshake) (r : Nat) => ((s.group g).hs = some hs) ∧ (hs.delaying = true) ∧ (hs.block < 4) ∧ (s.askBlock g hs.block = .refuse r) ∧ ((s.half g.half).dev = none) ∧ (g.half.groups.all (fun k => (s.group k).moves.isEmpty) = true) ∧ ((s.half halfA).devWait = [])) ((((laneUp 9).put .PG_STATE 1 5).modGroup 1 fun y => { y with hs := some ⟨3, 0, 0, true, 0, none⟩ })) (1) (⟨3, 0, 0, true, 0, none⟩) (1)) ∧
    ((fun (s : State) (g : Group) (hs : Handshake) => ((s.group g).hs = some hs) ∧ (hs.delaying = true) ∧ (hs.block = 3) ∧ (s.askBlock g 3 = .accept) ∧ (2 ≤ hs.target) ∧ ((fiSlots g.half).all (fun i => s.get .FIS_ACTIVE i != 1) = true) ∧ ((s.half g.half).dev = none) ∧ (g.half.groups.all (fun k => (s.group k).moves.isEmpty) = true) ∧ ((s.half halfA).devWait = [])) (((up.put .PG_STATE 1 5).modGroup 1 fun y => { y with hs := some ⟨3, 0, 3, true, 0, none⟩ })) (1) (⟨3, 0, 3, true, 0, none⟩)) ∧
    ((fun (s : State) (g : Group) (hs : Handshake) => ((s.group g).hs = some hs) ∧ (hs.delaying = true) ∧ (hs.block = 3) ∧ (s.askBlock g 3 = .accept) ∧ (hs.target = 1) ∧ ((fiSlots g.half).all (fun i => s.get .FIS_ACTIVE i != 1) = true) ∧ ((s.half g.half).dev = none) ∧ (g.half.groups.all (fun k => (s.group k).moves.isEmpty) = true) ∧ ((s.half halfA).devWait = [])) (((up.put .PG_STATE 1 5).modGroup 1 fun y => { y with hs := some ⟨1, 0, 3, true, 0, none⟩ })) (1) (⟨1, 0, 3, true, 0, none⟩)) ∧
    ((fun (s : State) (g : Group) (hs : Handshake) => ((s.group g).hs = some hs) ∧ (hs.delaying = true) ∧ (hs.block < 4) ∧ (s.askBlock g hs.block = .delay) ∧ ((s.half g.half).dev = none) ∧ (g.half.groups.all (fun k => (s.group k).moves.isEmpty) = true) ∧ ((s.half halfA).devWait = [])) (((up.put .PG_STATE 1 5).modGroup 1 fun y => { y with hs := some ⟨1, 0, 1, true, 0, none⟩ }).put .CTX_INJ 32 1) (1) (⟨1, 0, 1, true, 0, none⟩)) ∧
    ((fun (s : State) (g : Group) (hs : Handshake) (c : Cmd) (r : Nat) => ((s.group g).hs = some hs) ∧ (hs.delaying = true) ∧ (hs.block < 4) ∧ (s.askBlock g hs.block = .refuse r) ∧ (hs.cmd = some c) ∧ (c.org = c.exe) ∧ ((s.half g.half).dev = none) ∧ (g.half.groups.all (fun k => (s.group k).moves.isEmpty) = true) ∧ ((s.half halfA).devWait = [])) ((((laneUp 9).put .PG_STATE 1 5).modGroup 1 fun y => { y with hs := some ⟨3, 0, 0, true, 0, some ⟨.groupState, req 2 1 [3], 0, 0, 0, 0, 0, none, 0⟩⟩ })) (1) (⟨3, 0, 0, true, 0, some ⟨.groupState, req 2 1 [3], 0, 0, 0, 0, 0, none, 0⟩⟩) (⟨.groupState, req 2 1 [3], 0, 0, 0, 0, 0, none, 0⟩) (1)) ∧
    ((fun (s : State) (g : Group) (hs : Handshake) => ((s.group g).hs = some hs) ∧ (hs.delaying = true)) ((((laneUp 9).put .PG_STATE 1 5).modGroup 1 fun y => { y with hs := some ⟨3, 0, 0, true, 0, none⟩ })) (1) (⟨3, 0, 0, true, 0, none⟩)) ∧
    ((fun (s : State) (g : Group) (hs : Handshake) => ((s.group g).hs = some hs) ∧ (hs.delaying = true) ∧ (hs.asked + msTicks 10 ≤ (s.half g.half).aon)) (((((laneUp 9).modHalf 0 fun y => { y with aon := 2500000 }).put .PG_STATE 1 5).modGroup 1 fun y => { y with hs := some ⟨3, 0, 0, true, 0, none⟩ })) (1) (⟨3, 0, 0, true, 0, none⟩)) ∧
    ((fun (s : State) (g : Group) (hs : Handshake) => ((s.group g).hs = some hs) ∧ ((s.half g.half).aon < hs.asked + msTicks 10)) ((((laneUp 9).put .PG_STATE 1 5).modGroup 1 fun y => { y with hs := some ⟨3, 0, 0, true, 0, none⟩ })) (1) (⟨3, 0, 0, true, 0, none⟩)) ∧
    ((fun (s : State) (g : Group) => (((s.group g).hs.any fun k => k.delaying) = false)) (up) (1)) ∧
    ((fun (s : State) (g : Group) (hs : Handshake) => ((s.group g).hs = some hs) ∧ (hs.delaying = true) ∧ (hs.block < 4) ∧ (hs.asked + msTicks 10 ≤ (s.half g.half).aon) ∧ ((s.half g.half).dev = none) ∧ (g.half.groups.all (fun k => (s.group k).moves.isEmpty) = true) ∧ ((s.half halfA).devWait = [])) ((((up.modHalf 0 fun y => { y with aon := 2500000 }).put .PG_STATE 1 5).modGroup 1 fun y => { y with hs := some ⟨1, 0, 1, true, 0, none⟩ })) (1) (⟨1, 0, 1, true, 0, none⟩)) ∧
    ((fun (s : State) (g : Group) (hs : Handshake) => ((s.group g).hs = some hs) ∧ (hs.block = 4) ∧ (hs.target = 2 ∨ hs.target = 3) ∧ ((s.half g.half).dev = none) ∧ (g.half.groups.all (fun k => (s.group k).moves.isEmpty) = true) ∧ ((s.half halfA).devWait = [])) ((((laneUp 9).put .PG_STATE 1 5).modGroup 1 fun y => { y with hs := some ⟨3, 0, 4, false, 0, none⟩ })) (1) (⟨3, 0, 4, false, 0, none⟩)) ∧
    ((fun (s : State) (g : Group) (hs : Handshake) => ((s.group g).hs = some hs) ∧ (hs.block = 4)) ((((laneUp 9).put .PG_STATE 1 5).modGroup 1 fun y => { y with hs := some ⟨3, 0, 4, false, 0, none⟩ })) (1) (⟨3, 0, 4, false, 0, none⟩)) ∧
    ((fun (s : State) (g : Group) => (((s.group g).hs.any fun k => k.block == 4) = false) ∧ ((s.half g.half).dev = none) ∧ (g.half.groups.all (fun k => (s.group k).moves.isEmpty) = true) ∧ ((s.half halfA).devWait = [])) (up) (1)) :=
  by and_intros <;> decide +kernel

theorem witness_startSteps :
    ((fun (s : State) (h : Half) (r : StartResult) => (s.get .BOOT_STATE h = 0) ∧ ((s.half h).live = true) ∧ ((s.half h).refOk = true) ∧ (r.ok = true) ∧ (s.get .BOOT_STEP h = 0)) (State.reset) (0) (okStart)) ∧
    ((fun (s : State) (h : Half) (r : StartResult) => (s.get .BOOT_STATE h = 0) ∧ ((s.half h).live = true) ∧ ((s.half h).refOk = true) ∧ (r.ok = true) ∧ (s.get .BOOT_STEP h = 1)) (State.reset.put .BOOT_STEP 0 1) (0) (okStart)) ∧
    ((fun (s : State) (h : Half) (r : StartResult) => (s.get .BOOT_STATE h = 0) ∧ ((s.half h).live = true) ∧ ((s.half h).refOk = true) ∧ (r.ok = true) ∧ (s.get .BOOT_STEP h = 2) ∧ (s.get .BOOT_START_KIND h ≠ 1)) (State.reset.put .BOOT_STEP 0 2) (0) (okStart)) ∧
    ((fun (s : State) (h : Half) (r : StartResult) => (s.get .BOOT_STATE h = 0) ∧ ((s.half h).live = true) ∧ ((s.half h).refOk = true) ∧ (r.ok = true) ∧ (s.get .BOOT_STEP h = 2) ∧ (s.get .BOOT_START_KIND h = 1) ∧ (s.testsSecurity h = false)) (((State.reset.put .BOOT_STEP 0 2).put .BOOT_START_KIND 0 1).modHalf 0 fun y => { y with passed := testUnits 0 }) (0) (okStart)) ∧
    ((fun (s : State) (h : Half) (r : StartResult) => (s.get .BOOT_STATE h = 0) ∧ ((s.half h).live = true) ∧ ((s.half h).refOk = true) ∧ (r.ok = true) ∧ (s.get .BOOT_STEP h = 2) ∧ (s.get .BOOT_START_KIND h = 1) ∧ (s.testsSecurity h = true)) ((State.reset.put .BOOT_STEP 0 2).put .BOOT_START_KIND 0 1) (0) (okStart)) ∧
    ((fun (s : State) (h : Half) (r : StartResult) => (s.get .BOOT_STATE h = 0) ∧ ((s.half h).live = true) ∧ ((s.half h).refOk = true) ∧ (r.ok = true) ∧ (s.get .BOOT_STEP h = 3)) (State.reset.put .BOOT_STEP 0 3) (0) (okStart)) ∧
    ((fun (s : State) (h : Half) (r : StartResult) => (s.get .BOOT_STATE h = 0) ∧ ((s.half h).live = true) ∧ ((s.half h).refOk = true) ∧ (r.ok = true) ∧ (s.get .BOOT_STEP h = 4)) (State.reset.put .BOOT_STEP 0 4) (0) (okStart)) ∧
    ((fun (s : State) (h : Half) (r : StartResult) => (s.get .BOOT_STATE h = 0) ∧ ((s.half h).live = true) ∧ ((s.half h).refOk = true) ∧ (r.ok = true) ∧ (s.get .BOOT_STEP h = 5) ∧ ((s.half h).boot.starterReq = true ∨ 3 ≤ (s.half h).boot.fail)) ((State.reset.put .BOOT_STEP 0 5).modHalf 0 fun y => { y with boot := { y.boot with fail := 3 } }) (0) (okStart)) ∧
    ((fun (b : BootRec) => (b.pending = 0)) ({})) ∧
    ((fun (b : BootRec) => (b.pending ≠ 0) ∧ (b.trial = false ∨ b.fail = 0)) ({ pending := 2 })) ∧
    ((fun (b : BootRec) => (b.pending ≠ 0) ∧ (b.trial = true) ∧ (1 ≤ b.fail)) ({ pending := 2, trial := true, fail := 1 })) ∧
    ((fun (s : State) (h : Half) (r : StartResult) (k : Fin 2) => (s.get .BOOT_STATE h = 0) ∧ ((s.half h).live = true) ∧ ((s.half h).refOk = true) ∧ (r.ok = true) ∧ (s.get .BOOT_STEP h = 5) ∧ ((s.half h).boot.starterReq = false) ∧ ((s.half h).boot.fail < 3) ∧ ((chooseSlot (s.half h).boot).2.1 = k) ∧ (s.verifies h (if k = 0 then (⟨s.slotBytes h 0, r.slotA⟩ : ImageInfo) else ⟨s.slotBytes h 1, r.slotB⟩) = true)) ((State.reset.put .BOOT_STEP 0 5).modHalf 0 fun y => { y with slots := #v[some goodImage, some goodImage], boot := { y.boot with pending := 2 } }) (0) (okStart) (1)) ∧
    ((fun (s : State) (h : Half) (r : StartResult) (k : Fin 2) => (s.get .BOOT_STATE h = 0) ∧ ((s.half h).live = true) ∧ ((s.half h).refOk = true) ∧ (r.ok = true) ∧ (s.get .BOOT_STEP h = 5) ∧ ((s.half h).boot.starterReq = false) ∧ ((s.half h).boot.fail < 3) ∧ ((chooseSlot (s.half h).boot).2.1 = k) ∧ (s.verifies h (if k = 0 then (⟨s.slotBytes h 0, r.slotA⟩ : ImageInfo) else ⟨s.slotBytes h 1, r.slotB⟩) = false) ∧ ((chooseSlot (s.half h).boot).1.valid (1 - k.val) = true) ∧ ((chooseSlot (s.half h).boot).2.2 ≠ some (1 - k.val)) ∧ (s.verifies h (if k = 0 then (⟨s.slotBytes h 1, r.slotB⟩ : ImageInfo) else ⟨s.slotBytes h 0, r.slotA⟩) = true)) ((State.reset.put .BOOT_STEP 0 5).modHalf 0 fun y => { y with slots := #v[some goodImage, some goodImage], boot := { y.boot with validB := true } }) (0) ({ okStart with slotA := ⟨0, true, false, true⟩ }) (0)) ∧
    ((fun (s : State) (h : Half) (r : StartResult) (k : Fin 2) => (s.get .BOOT_STATE h = 0) ∧ ((s.half h).live = true) ∧ ((s.half h).refOk = true) ∧ (r.ok = true) ∧ (s.get .BOOT_STEP h = 5) ∧ ((s.half h).boot.starterReq = false) ∧ ((s.half h).boot.fail < 3) ∧ ((chooseSlot (s.half h).boot).2.1 = k) ∧ (s.verifies h (if k = 0 then (⟨s.slotBytes h 0, r.slotA⟩ : ImageInfo) else ⟨s.slotBytes h 1, r.slotB⟩) = false) ∧ ((chooseSlot (s.half h).boot).1.valid (1 - k.val) = false ∨ (chooseSlot (s.half h).boot).2.2 = some (1 - k.val))) ((State.reset.put .BOOT_STEP 0 5).modHalf 0 fun y => { y with slots := #v[some goodImage, some goodImage], boot := { y.boot with validB := false } }) (0) ({ okStart with slotA := ⟨0, true, false, true⟩ }) (0)) ∧
    ((fun (s : State) (h : Half) (r : StartResult) (k : Fin 2) => (s.get .BOOT_STATE h = 0) ∧ ((s.half h).live = true) ∧ ((s.half h).refOk = true) ∧ (r.ok = true) ∧ (s.get .BOOT_STEP h = 5) ∧ ((s.half h).boot.starterReq = false) ∧ ((s.half h).boot.fail < 3) ∧ ((chooseSlot (s.half h).boot).2.1 = k) ∧ (s.verifies h (if k = 0 then (⟨s.slotBytes h 0, r.slotA⟩ : ImageInfo) else ⟨s.slotBytes h 1, r.slotB⟩) = false) ∧ ((chooseSlot (s.half h).boot).1.valid (1 - k.val) = true) ∧ ((chooseSlot (s.half h).boot).2.2 ≠ some (1 - k.val)) ∧ (s.verifies h (if k = 0 then (⟨s.slotBytes h 1, r.slotB⟩ : ImageInfo) else ⟨s.slotBytes h 0, r.slotA⟩) = false)) ((State.reset.put .BOOT_STEP 0 5).modHalf 0 fun y => { y with slots := #v[some goodImage, some goodImage], boot := { y.boot with validB := true } }) (0) ({ okStart with slotA := ⟨0, true, false, true⟩, slotB := ⟨0, false, true, true⟩ }) (0)) ∧
    ((fun (s : State) (h : Half) (r : StartResult) => (s.get .BOOT_STATE h = 0) ∧ ((s.half h).live = true) ∧ ((s.half h).refOk = true) ∧ (r.ok = false) ∧ (s.get .BOOT_STEP h ≠ 5 ∨ r.err ≠ 2)) (State.reset) (0) ({ okStart with ok := false, err := 1 })) ∧
    ((fun (s : State) (h : Half) (r : StartResult) => (s.get .BOOT_STATE h = 0) ∧ ((s.half h).live = true) ∧ ((s.half h).refOk = true) ∧ (r.ok = false) ∧ (s.get .BOOT_STEP h = 5) ∧ (r.err = 2)) (State.reset.put .BOOT_STEP 0 5) (0) ({ okStart with ok := false, err := 2 })) ∧
    ((fun (s : State) (h : Half) (r : StartResult) => (s.get .BOOT_STATE h ≠ 0)) (up) (0) (okStart)) ∧
    ((fun (s : State) (h : Half) (r : ReleaseInfo) => (s.get .BOOT_STATE h = 0) ∧ (s.get .BOOT_STEP h = 6)) ((State.reset.put .BOOT_STEP 0 6).put .CH_FULLW 3 1) (0) (⟨true, false⟩)) ∧
    ((fun (s : State) (h : Half) (r : ReleaseInfo) => (s.get .BOOT_STATE h = 0) ∧ (s.get .BOOT_STEP h = 6) ∧ (s.get .BOOT_TRIAL h ≠ 1) ∧ ((s.half h).fromStarter = false) ∧ (s.get .BOOT_START_KIND h = 1) ∧ ((s.half h).setUsed = (s.half h).boot.setActive)) (((State.reset.put .BOOT_STEP 0 6).put .BOOT_START_KIND 0 1).modHalf 0 fun y => { y with setUsed := 1, boot := { y.boot with setActive := 1 } }) (0) (⟨false, false⟩)) ∧
    ((fun (s : State) (h : Half) (r : ReleaseInfo) => (s.get .BOOT_STATE h = 0) ∧ (s.get .BOOT_STEP h = 6) ∧ (s.get .BOOT_TRIAL h ≠ 1) ∧ ((s.half h).fromStarter = false) ∧ (r.activeOk = false) ∧ (s.get .BOOT_START_KIND h ≠ 1 ∨ (s.half h).setUsed ≠ (s.half h).boot.setActive)) ((State.reset.put .BOOT_STEP 0 6).putApp .FEC_RHO 3 5) (0) (⟨false, false⟩)) ∧
    ((fun (s : State) (h : Half) (r : ReleaseInfo) => (s.get .BOOT_STATE h ≠ 0 ∨ s.get .BOOT_STEP h ≠ 6)) (up) (0) (⟨true, false⟩)) :=
  by and_intros <;> decide +kernel

theorem witness_starterModeAndFatal :
    ((fun (s : State) (h : Half) (v : W32) => (s.running h = true) ∧ (s.answers h = true) ∧ (v.toNat / 65536 = 0x5354) ∧ (v.getLsbD 0 = true)) (up) (0) (0x53540001)) ∧
    ((fun (s : State) (h : Half) (v : W32) => (s.running h = false ∨ v.toNat / 65536 ≠ 0x5354 ∨ v.getLsbD 0 = false)) (up) (0) (0x53550001)) ∧
    ((fun (s : State) (h : Half) (v : W32) => (s.get .BOOT_STATE h = 2) ∧ (s.answers h = true) ∧ (s.get .BOOT_BUSY h ≠ 1) ∧ (v.getLsbD 31 = true)) (State.reset.put .BOOT_STATE 0 2) (0) (0xC0000000)) ∧
    ((fun (s : State) (h : Half) (v : W32) => (s.get .BOOT_STATE h = 2) ∧ (s.answers h = true) ∧ (s.get .BOOT_BUSY h ≠ 1) ∧ (v.getLsbD 31 = false)) (State.reset.put .BOOT_STATE 0 2) (0) (0x40000000)) ∧
    ((fun (s : State) (h : Half) (v : W32) => (s.get .BOOT_STATE h ≠ 2 ∨ s.get .BOOT_BUSY h = 1)) (up) (0) (0xC0000000)) ∧
    ((fun (s : State) (h : Half) (d f : Bool) (img : ImageInfo) (k : Fin 2) => (s.get .BOOT_BUSY h = 1) ∧ (s.get .BOOT_ST_SLOT h % 2 = k.val) ∧ (s.starterResult h d f img = 1)) ((((State.reset.put .BOOT_STATE 0 2).put .BOOT_BUSY 0 1).put .BOOT_ST_SLOT 0 1).put .BOOT_ST_LEN 0 512) (0) (true) (true) (⟨goodImage, ⟨9, true, true, true⟩⟩) (1)) ∧
    ((fun (s : State) (h : Half) (d f : Bool) (img : ImageInfo) => (s.get .BOOT_BUSY h = 1) ∧ (s.starterResult h d f img ≠ 1)) (((State.reset.put .BOOT_STATE 0 2).put .BOOT_BUSY 0 1).put .BOOT_ST_SLOT 0 1) (0) (false) (true) (⟨goodImage, ⟨9, true, true, true⟩⟩)) ∧
    ((fun (s : State) (h : Half) (d f : Bool) (img : ImageInfo) => (s.get .BOOT_BUSY h ≠ 1)) (up) (0) (true) (true) (⟨goodImage, ⟨9, true, true, true⟩⟩)) ∧
    ((fun (s : State) (h : Half) => (s.get .BOOT_STATE h = 1) ∧ (s.kndOut (sysKnd h 2) = false) ∧ (s.get .BOOT_TRIAL h ≠ 1) ∧ (s.settingsDue h = true) ∧ (s.settingsMoved h (s.half h).boot.setActive = true)) (up.putApp .FEC_RHO 0 5) (0)) ∧
    ((fun (s : State) (h : Half) => (s.get .BOOT_STATE h = 1) ∧ (s.kndOut (sysKnd h 2) = false) ∧ (s.get .BOOT_TRIAL h = 1) ∧ ((s.half h).boot.setTrial ≠ 0) ∧ (s.settingsDue h = true) ∧ (s.settingsMoved h (s.half h).boot.setTrial = true)) (((up.putApp .FEC_RHO 0 5).put .BOOT_TRIAL 0 1).modHalf 0 fun y => { y with boot := { y.boot with setTrial := 2 } }) (0)) ∧
    ((fun (s : State) (h : Half) => (s.get .BOOT_STATE h ≠ 1 ∨ s.kndOut (sysKnd h 2) = true ∨ s.settingsDue h = false ∨ s.settingsMoved h (if s.get .BOOT_TRIAL h = 1 then (s.half h).boot.setTrial else (s.half h).boot.setActive) = false)) (State.reset) (0)) ∧
    ((fun (s : State) (h : Half) (c : FatalCause) (k : Knd) => (s.get .BOOT_STATE h = 1) ∧ ((s.half h).dumpBuf = none ∨ (s.half h).bme = false) ∧ (s.get .BOOT_UPD_STAGE h ≠ 2)) (up) (0) (.assert) (7)) ∧
    ((fun (s : State) (h : Half) (c : FatalCause) (k : Knd) (a n : Nat) => (s.get .BOOT_STATE h = 1) ∧ ((s.half h).dumpBuf = some (a, n)) ∧ ((s.half h).bme = true) ∧ (s.get .KND_STATE (if h = halfA then 121 else 125) = 0) ∧ (s.get .BOOT_UPD_STAGE h ≠ 2)) (up.modHalf 0 fun y => { y with bme := true, dumpBuf := some (64, 4194304) }) (0) (.assert) (7) (64) (4194304)) ∧
    ((fun (s : State) (h : Half) (c : FatalCause) (k : Knd) => (s.get .BOOT_STATE h = 1)) (up.put .BOOT_UPD_STAGE 0 2) (0) (.image) (7)) ∧
    ((fun (s : State) (h : Half) (c : FatalCause) (k : Knd) => (s.get .BOOT_STATE h ≠ 1)) (State.reset) (0) (.sysKnd) (7)) ∧
    ((fun (s : State) (h : Half) (r : Req) => (Takes s h .updLoad r) ∧ (∀ k ∈ reqHalves r, (s.half k).loadCmd = none ∧ (((s.get .BOOT_UPD_STAGE k = 0 ∨ s.get .BOOT_UPD_STAGE k = 3) ∧ reqParam r 3 = 0) ∨ (s.get .BOOT_UPD_STAGE k = 1 ∧ (reqParam r 3 = 0 ∨ reqParam r 3 = s.get .BOOT_LOADED k)))) ∧ (reqParam r 3 + reqParam r 2 ≤ 16777216)) (up) (0) (req 1 0 [64, 0, 4096, 0])) ∧
    ((fun (s : State) (h : Half) (p : DeltaPiece) (data : List (BitVec 8)) => ((s.half h).loadCmd = some p)) (up.modHalf 0 fun y => { y with loadCmd := some ⟨none, 0, 4⟩ }) (0) (⟨none, 0, 4⟩) ([1, 2, 3])) ∧
    ((fun (s : State) (h : Half) (r : Req) => (Takes s h .updVerify r) ∧ (∀ k ∈ reqHalves r, (s.half k).loadCmd = none ∧ s.get .BOOT_UPD_STAGE k = 1)) (up.put .BOOT_UPD_STAGE 0 1) (0) (req 1 0 [])) ∧
    ((fun (s : State) (h : Half) (k : ApplyChecks) => (s.get .BOOT_UPD_STAGE h = 2) ∧ ((s.applyDelta h ((1 - (s.half h).boot.active) % 2) k).2 = 0)) ((up.put .BOOT_UPD_STAGE 0 2).modHalf 0 fun y => { y with store := goodDelta, run := some ⟨[], ⟨0, true, true, true⟩⟩ }) (0) (⟨true, true, ⟨0, true, true, true⟩⟩)) ∧
    ((fun (s : State) (h : Half) (r : Req) => (Takes s h .updActivate r) ∧ (∀ k ∈ reqHalves r, (s.half k).loadCmd = none ∧ s.get .BOOT_UPD_STAGE k = 3)) (up.put .BOOT_UPD_STAGE 0 3) (0) (req 1 0 [])) ∧
    ((fun (s : State) (h : Half) (r : Req) => (Takes s h .updConfirm r) ∧ (∀ k ∈ reqHalves r, (s.half k).loadCmd = none ∧ s.get .BOOT_UPD_STAGE k = 5)) (up.put .BOOT_UPD_STAGE 0 5) (0) (req 1 0 [])) ∧
    ((fun (s : State) (h : Half) (r : Req) => (Takes s h .updRollback r) ∧ (∀ k ∈ reqHalves r, (s.half k).loadCmd = none ∧ (s.get .BOOT_UPD_STAGE k = 1 ∨ s.get .BOOT_UPD_STAGE k = 3 ∨ s.get .BOOT_UPD_STAGE k = 4 ∨ s.get .BOOT_UPD_STAGE k = 5))) (up.put .BOOT_UPD_STAGE 0 5) (0) (req 1 0 [])) ∧
    ((fun (s : State) (h : Half) (r : Req) => (Takes s h .dumpBuf r) ∧ (4 * 2 ^ 20 ≤ reqParam r 2)) (up) (0) (req 1 0 [4096, 0, 4194304])) ∧
    ((fun (s : State) (h : Half) (r : Req) (d : Dump) => (Takes s h .dumpFetch r) ∧ ((s.half h).pantryDump = some d) ∧ (65536 ≤ reqParam r 2)) (up.modHalf 0 fun y => { y with pantryDump := some ⟨[1], []⟩ }) (0) (req 1 0 [4096, 0, 65536]) (⟨[1], []⟩)) :=
  by and_intros <;> decide +kernel

theorem witness_telemetryAndCounterBlocks :
    ((fun (s : State) (h : Half) (x : Sub) => ((s.half h).subs = [x]) ∧ (x.next ≤ s.now h) ∧ (s.manages h = true)) ((laneUp 3).modHalf 0 fun y => { y with sec := 3, subs := [⟨5, [3, 4], 10, 3000000000⟩] }) (0) (⟨5, [3, 4], 10, 3000000000⟩)) ∧
    ((fun (s : State) (h : Half) => ((s.half h).subs.all (fun x => s.now h < x.next) = true)) (up) (0)) ∧
    ((fun (s : State) (b : PerfBlk) (v : W32) (j : Fin 8) => (s.running (PerfBlk.half b) = true) ∧ (s.answers (PerfBlk.half b) = true) ∧ (v.getLsbD 30 = true)) (up.put .PC_CNT 18 77) (2) (0x40000000) (2)) ∧
    ((fun (s : State) (b : PerfBlk) (v : W32) (j : Fin 8) (k : Fin 16) => (s.running (PerfBlk.half b) = true) ∧ (s.answers (PerfBlk.half b) = true) ∧ (v.getLsbD 29 = true)) (up.put .PC_CNT 18 77) (2) (0x20000000) (2) (3)) ∧
    ((fun (s : State) (b : PerfBlk) (v : W32) => (s.running (PerfBlk.half b) = true) ∧ (s.answers (PerfBlk.half b) = true)) (up.put .PC_CNT 18 77) (2) (0x20000003)) ∧
    ((fun (s : State) (b : PerfBlk) (v : W32) => (s.running (PerfBlk.half b) = true) ∧ (s.answers (PerfBlk.half b) = true)) (up.put .PC_CNT 18 77) (2) (0x20000003)) ∧
    ((fun (s : State) (b : PerfBlk) (v : W32) => (s.running (PerfBlk.half b) = true) ∧ (s.answers (PerfBlk.half b) = true)) (up.put .PC_CNT 18 77) (2) (0x20000003)) ∧
    ((fun (s : State) (b : PerfBlk) (v : W32) (k : Fin 16) => (s.running (PerfBlk.half b) = true) ∧ (s.answers (PerfBlk.half b) = true) ∧ (v.getLsbD 30 = true) ∧ (s.wordBad (PerfBlk.half b) (perfOff b + 0x30) v.toNat = false)) ((up.put .PC_H0 35 77)) (2) (0x40000000) (3)) ∧
    ((fun (s : State) (b : PerfBlk) (v : W32) => (s.running (PerfBlk.half b) = false)) (State.reset) (7) (0x40000000)) ∧
    ((fun (s : State) (g : Group) (i : Fin 8) (off : BitVec 20) (v : W32) => (s.running g.half = true) ∧ (s.answers g.half = true) ∧ (off.toNat = 0x12004 + 0x10000 * (g.val % 3) + 0x40 * i.val)) (up) (4) (2) (0x22084) (0x3F00)) ∧
    ((fun (s : State) (l : Lane) (off : BitVec 20) => (s.running l.half = true) ∧ (s.answers l.half = true) ∧ (off.toNat = 0x16020 + 0x10000 * (l.group.val % 3) + 0x100 * (l.val % 8))) (up.put .FECS_CW 18 (2 ^ 32 + 5)) (9) (0x26120)) ∧
    ((fun (s : State) (h : Half) (a : BitVec 5) (p : Lane) (v : BitVec 16) => (s.mdioPort h a = some p) ∧ (v.getLsbD 15 = true) ∧ (s.get .ACQ_STATE p ≠ 0) ∧ (s.portLanes p = [p])) (laneUp 2) (0) (2) (2) (0x8000)) ∧
    ((fun (s : State) (h : Half) (a : BitVec 5) (p : Lane) (v : BitVec 16) => (s.mdioPort h a = some p) ∧ (s.portLanes p = [p])) (laneUp 2) (0) (2) (2) (2)) ∧
    ((fun (s : State) (h : Half) (a : BitVec 5) (p : Lane) => (s.mdioPort h a = some p)) ((laneUp 2).modPort 2 fun x => { x with downSeen := true }) (0) (2) (2)) ∧
    ((fun (s : State) (h : Half) (a : BitVec 5) (p : Lane) (v : BitVec 16) => (s.mdioPort h a = some p)) (laneUp 2) (0) (2) (2) (0)) ∧
    ((fun (s : State) (h : Half) (q : Fin 4) (v : W32) => (s.answers h = true) ∧ (v.toNat % 65536 < s.depth h (cmdRing q)) ∧ (s.manages h = true)) (up) (0) (2) (0x10005)) ∧
    ((fun (s : State) (h : Half) (v : W32) => (s.answers h = true) ∧ (v.toNat % 65536 < s.depth h (4))) (up) (0) (0x10005)) ∧
    ((fun (s : State) (h : Half) (v : W32) => (s.answers h = true) ∧ (v.toNat % 65536 < s.depth h (5))) (up) (0) (0x10005)) ∧
    ((fun (s : State) (h : Half) (v : W32) => (s.answers h = true) ∧ (v.toNat % 65536 < s.depth h (6))) (up) (0) (0x10005)) ∧
    ((fun (s : State) (h : Half) (v : W32) => (s.answers h = true) ∧ (v.toNat % 65536 < s.depth h (7))) (up) (0) (0x10005)) ∧
    ((fun (s : State) (h : Half) (q : Fin 8) (v : W32) => (s.running h = true) ∧ (s.answers h = true) ∧ (v.toNat.testBit 30 = true)) ((ringUp 2).put .RING_INDEX 2 7) (0) (2) (0x40000004)) ∧
    ((fun (s : State) (h : Half) (q : Fin 8) (v : W32) => (s.running h = true) ∧ (s.answers h = true) ∧ (s.manages h = true) ∧ (v.toNat.testBit 30 = false) ∧ (v.toNat.testBit 31 = true) ∧ (4 ≤ v.toNat % 16) ∧ (v.toNat % 16 ≤ 12)) (up.put .HIF_RUN 0 1) (0) (5) (0x8003000C)) ∧
    ((fun (s : State) (h : Half) => (s.answers h = true)) (up.modHalf 0 fun y => { y with msixPend := [5, 3, 6], msixTbl := [⟨23, 1⟩, ⟨27, 1⟩] }) (0)) ∧
    ((fun (s : State) (h : Half) (q : Fin 8) => (4 ≤ q.val) ∧ ((s.ring h q).unsig ≠ 0) ∧ (s.get .RING_TIME (ringIdx h q) ≠ 0) ∧ ((s.ring h q).unsigAt + 250 * s.get .RING_TIME (ringIdx h q) ≤ s.ticks h)) ((((ringUp 5).put .RING_TIME 5 10).modRing 0 5 fun r => { r with unsig := 2 }).modHalf 0 fun y => { y with ticks := 2500, msixTbl := [⟨3, 1⟩] }) (0) (5)) ∧
    ((fun (s : State) (h : Half) (q : Fin 4) => (s.fetchReady h (cmdRing q) = true) ∧ ((s.ring h (cmdRing q)).reads = [])) ((((ringUp 2).put .RING_EN 4 1).put .RING_SIZE_LOG2 4 4).modRing 0 2 fun r => { r with host := 3 }) (0) (2)) ∧
    ((fun (s : State) (h : Half) (q : Fin 4) (i k : Nat) (rest : List (Nat × Nat)) (ws : List W32) => ((s.ring h (cmdRing q)).reads = (i, k) :: rest)) ((ringUp 2).modRing 0 2 fun r => { r with reads := [(15, 0)] }) (0) (2) (15) (0) ([]) ([1, 2])) ∧
    ((fun (s : State) (h : Half) (q : Fin 4) (i k : Nat) (ws : List W32) (rest : List (Nat × Nat × List W32)) (r : Req) => (s.mayTake h q = true) ∧ (∀ p : Fin 4, p < q → s.mayTake h p = false) ∧ ((s.ring h (cmdRing q)).staged = (i, k, ws) :: rest) ∧ (parseOpc ws = some .nop) ∧ (parseReq q i ws = r) ∧ (Takes s h .nop r)) ((ringUp 2).modRing 0 2 fun r => { r with staged := [(3, 0, [0x01070000, 7, 0, 0x10000000])] }) (0) (2) (3) (0) ([0x01070000, 7, 0, 0x10000000]) ([]) (⟨2, 3, false, false, false, false, 7, 0, 1, 0, 0, .ofFn fun _ => 0⟩)) ∧
    ((fun (s : State) (h : Half) (c : Cpl) (rest : List Cpl) => ((s.half h).cpls = c :: rest) ∧ (s.ringMoves h 4 = true) ∧ (s.ringSpace h 4 ≠ 0) ∧ ((s.half h).resets.all (fun x => x.1 != c.tag) = true)) (((ringUp 4).put .RING_INDEX 4 15).modHalf 0 fun y => { y with cpls := [⟨0, 3, 7, false, 0, 0, 1, 2, none⟩], rings := y.rings.set 4 { (y.rings.get 4) with host := 3 } }) (0) (⟨0, 3, 7, false, 0, 0, 1, 2, none⟩) ([])) ∧
    ((fun (s : State) (h : Half) (e : Evt) (rest : List Evt) => ((s.half h).evts = e :: rest) ∧ ((s.half h).evtDrop = 0) ∧ (s.ringMoves h 5 = true) ∧ (s.recordsServed h = true) ∧ (s.ringSpace h 5 ≠ 0)) ((ringUp 5).modHalf 0 fun y => { y with evts := [⟨1, 1, 0x0106, 0, 0, 0, 1, 1, 0, 0, 0, 0⟩] }) (0) (⟨1, 1, 0x0106, 0, 0, 0, 1, 1, 0, 0, 0, 0⟩) ([])) ∧
    ((fun (s : State) (h : Half) (x : Tlm) (rest : List Tlm) => ((s.half h).tlms = x :: rest) ∧ ((s.half h).tlmDrop = 0) ∧ (s.ringMoves h 6 = true) ∧ (s.recordServed h x = true) ∧ (x.units.length ≤ s.ringSpace h 6)) ((ringUp 6).modHalf 0 fun y => { y with tlms := [⟨0, none, false, List.replicate 16 0⟩] }) (0) (⟨0, none, false, List.replicate 16 0⟩) ([])) ∧
    ((fun (s : State) (h : Half) (r : List W32) (rest : List (List W32)) => ((s.half h).tsq = r :: rest) ∧ (s.manages h = true) ∧ (s.ringMoves h 7 = true) ∧ (s.ringSpace h 7 ≠ 0)) ((ringUp 7).modHalf 0 fun y => { y with tsq := [[1, 2, 3, 4]] }) (0) ([1, 2, 3, 4]) ([])) ∧
    ((fun (s : State) (h : Half) => ((s.half h).sbDirty = true) ∧ (s.masters h = true) ∧ (s.get .HIF_RUN h = 1) ∧ (s.running h = true)) ((ringUp 0).modHalf 0 fun y => { y with sbDirty := true }) (0)) :=
  by and_intros <;> decide +kernel

end Sys2Proof.Tests
end

/-! The state after reset (R9, R497): no store lists a cell, so every field reads its reset value, and every unit is as declared. -/

namespace Sys2Proof.Machine

theorem State.get_reset (f : Fld) (i : Nat) : State.reset.get f i = f.reset i := rfl

theorem State.app_reset (f : Fld) (i : Nat) : State.reset.app f i = f.reset i := ite_self _

theorem State.half_reset (h : Half) : State.reset.half h = {} := Vector.getElem_replicate h.isLt

/-- R498: no half has been released at reset. -/
theorem State.running_reset (h : Half) : State.reset.running h = false := by
  have hb : State.reset.get .BOOT_STATE h = 0 := rfl
  simp [State.running, hb]

/-- R309: at reset no laser enable is high. -/
theorem State.lasen_reset (l : Lane) : State.reset.isSet .LS_LASEN l = false := rfl

theorem State.now_reset (h : Half) : State.reset.now h = 0 := by simp [State.now, State.half_reset]

end Sys2Proof.Machine

namespace Sys2Proof

open Machine

/-- Settles O2: reads of fields come from the empty stores, those of units from the declared defaults; `LaserSafe` asks nothing of a part
whose laser enables are all low. -/
theorem resetState : Obligations.ResetState := by
  refine ⟨fun f i => ⟨State.get_reset f i, State.app_reset f i⟩, ⟨rfl, rfl, rfl, rfl, fun l => ⟨rfl, rfl, rfl, rfl⟩, fun h => ?_, rfl, rfl, rfl⟩,
    fun l on => ?_⟩
  · rw [State.half_reset]
    exact ⟨rfl, rfl, rfl, rfl, State.now_reset h, rfl, rfl, State.running_reset h⟩
  · rw [State.lasen_reset] at on
    contradiction

end Sys2Proof

/-! What the end of a step sends. An event is signalled where its severity is above ALERT_SEV (R471), and the end of a step raises INFO and
NOTICE events only; so where no half has ALERT_SEV = 0, `settle` sends nothing. The state's voice is what this turns on. -/

namespace Sys2Proof.Machine

/-- ALERT_SEV of the halves, and what has left the part. -/
def State.voice (s : State) : (Half → Nat) × List Out := (fun h => s.get .HIF_ALERT_SEV h, s.out)

/-- On no half does a NOTICE event reach ALERT_SEV. -/
def Hushed (v : (Half → Nat) × List Out) : Prop := ∀ h, v.1 h ≠ 0

/-! ### Small updates -/

section
variable (s : State)

theorem State.get_alertSev (h : Half) : s.get .HIF_ALERT_SEV h = s.voice.1 h := rfl

theorem State.out_eq : s.out = s.voice.2 := rfl

@[simp] theorem State.put_voice {g : Fld} (hg : g ≠ .HIF_ALERT_SEV) (j v : Nat) : (s.put g j v).voice = s.voice := by
  simp [State.voice, State.get_put_of_ne s hg.symm]

@[simp] theorem State.modHalf_voice (h : Half) (u : HalfS → HalfS) : (s.modHalf h u).voice = s.voice := rfl
@[simp] theorem State.modGroup_voice (g : Group) (u : GroupS → GroupS) : (s.modGroup g u).voice = s.voice := rfl
@[simp] theorem State.modPort_voice (p : Lane) (u : PortS → PortS) : (s.modPort p u).voice = s.voice := rfl
@[simp] theorem State.modLane_voice (l : Lane) (u : LaneS → LaneS) : (s.modLane l u).voice = s.voice := rfl
@[simp] theorem State.modHlane_voice (x : HLane) (u : HLaneS → HLaneS) : (s.modHlane x u).voice = s.voice := rfl
@[simp] theorem State.modCtx_voice (x : Ctx) (u : CtxS → CtxS) : (s.modCtx x u).voice = s.voice := rfl
@[simp] theorem State.modChan_voice (c : Chan) (u : ChanS → ChanS) : (s.modChan c u).voice = s.voice := rfl
@[simp] theorem State.modBridge_voice (u : BridgeS → BridgeS) : (s.modBridge u).voice = s.voice := rfl
@[simp] theorem State.draw_voice : s.draw.2.voice = s.voice := rfl

end

/-- A fold keeps the voice where each step does, from any state of that voice. -/
theorem State.each_voice {α : Type} {u : State → α → State} {s : State} {v : (Half → Nat) × List Out} (e : s.voice = v) (xs : List α)
    (h : ∀ t x, t.voice = v → (u t x).voice = t.voice) : (s.each xs u).voice = v :=
  State.each_keeps (P := fun t => t.voice = v) (fun t x _ k => (h t x k).trans k) e

/-! ### Counting, events and completions -/

@[simp] theorem State.perfAdd_voice (s : State) (b fuel j n : Nat) : (s.perfAdd b fuel j n).voice = s.voice := by
  induction fuel generalizing s j n with
  | zero => rfl
  | succ k ih => simp [State.perfAdd, apply_ite State.voice, ih]

@[simp] theorem State.perf_voice (s : State) (b e n : Nat) : (s.perf b e n).voice = s.voice :=
  State.each_voice rfl (List.range 8) fun t j _ => by simp [apply_ite State.voice]

@[simp] theorem State.perfHalf_voice (s : State) (h : Half) (e n : Nat) : (s.perfHalf h e n).voice = s.voice := State.perf_voice _ _ _ _

/-- An INFO or NOTICE event sends nothing where the halves are hushed. -/
theorem State.raise_voice {s : State} (hs : Hushed s.voice) (h : Half) {e : Ev} (he : e.sev ≤ 1) : (s.raise h e).voice = s.voice := by
  have low : ¬ s.voice.1 h + 1 ≤ e.sev := by have := hs h; omega
  simp [State.raise, apply_ite State.voice, State.get_alertSev, low]

theorem State.complete_voice {s : State} (hs : Hushed s.voice) (c : Cmd) (r : Res) : (s.complete c r).voice = s.voice := by
  simp [State.complete, State.freeRing, apply_ite State.voice, State.raise_voice hs, Cpl.fwdExecuted]

/-! ### Line lanes -/

@[simp] theorem State.endRamp_voice (s : State) (l : Lane) : (s.endRamp l).voice = s.voice :=
  State.each_voice (State.modLane_voice s l _) _ fun _ _ _ => rfl

@[simp] theorem State.setDecoder_voice (s : State) (l : Lane) (d : Nat) : (s.setDecoder l d).voice = s.voice := by
  simp [State.setDecoder, apply_ite State.voice]

@[simp] theorem State.setCwLock_voice (s : State) (l : Lane) (b : Bool) : (s.setCwLock l b).voice = s.voice := by
  simp [State.setCwLock, apply_ite State.voice]

@[simp] theorem State.abandonSlice_voice (s : State) (l : Lane) : (s.abandonSlice l).voice = s.voice := by
  simp [State.abandonSlice, apply_ite State.voice]

@[simp] theorem State.clearAcq_voice (s : State) (l : Lane) : (s.clearAcq l).voice = s.voice := by simp [State.clearAcq]

@[simp] theorem State.startAdapt_voice (s : State) (l : Lane) : (s.startAdapt l).voice = s.voice := by simp [State.startAdapt]

@[simp] theorem State.freshLock_voice (s : State) (l : Lane) : (s.freshLock l).voice = s.voice := by
  simp [State.freshLock, apply_ite State.voice]

@[simp] theorem State.cancelSwaps_voice {s : State} (hs : Hushed s.voice) (l : Lane) : (s.cancelSwaps l).voice = s.voice := by
  unfold State.cancelSwaps
  dsimp only
  split
  · rw [State.complete_voice (by simpa using hs)]
    simp
  · simp

@[simp] theorem State.endData_voice {s : State} (hs : Hushed s.voice) (l : Lane) : (s.endData l).voice = s.voice := by
  unfold State.endData
  split
  · simp only [State.put_voice, State.modLane_voice, State.setDecoder_voice, State.setCwLock_voice, ne_eq, reduceCtorEq, not_false_eq_true]
    rw [State.cancelSwaps_voice, State.abandonSlice_voice, apply_ite State.voice]
    · simp
    · rw [State.abandonSlice_voice, apply_ite State.voice]
      simpa using hs
  · rfl

theorem State.toIdle_voice {s : State} (hs : Hushed s.voice) (l : Lane) : (s.toIdle l).voice = s.voice := by
  simp [State.toIdle, hs]

theorem State.acquire_voice {s : State} (hs : Hushed s.voice) (l : Lane) : (s.acquire l).voice = s.voice := by
  simp [State.acquire, State.toBlind, State.toLink, apply_ite State.voice, hs]

theorem State.settleLane_voice {s : State} (hs : Hushed s.voice) (l : Lane) : (s.settleLane l).voice = s.voice := by
  simp [State.settleLane, apply_ite State.voice, State.toIdle_voice hs, State.acquire_voice hs]

/-! ### Host lanes, ports, lasers, commits -/

@[simp] theorem State.setStage_voice (s : State) (x : HLane) (n : Nat) : (s.setStage x n).voice = s.voice := by
  simp [State.setStage, apply_ite State.voice]

theorem State.settleHost_voice (s : State) (x : HLane) : (s.settleHost x).voice = s.voice := by
  simp [State.settleHost, apply_ite State.voice]

@[simp] theorem State.measureSkew_voice (s : State) (p : Lane) : (s.measureSkew p).voice = s.voice := by
  simp [State.measureSkew, apply_ite State.voice]

theorem State.settlePort_voice (s : State) (p : Lane) : (s.settlePort p).voice = s.voice := by
  simp [State.settlePort, apply_ite State.voice]

theorem State.settleRot_voice (s : State) (l : Lane) : (s.settleRot l).voice = s.voice := by simp [State.settleRot]

theorem State.settleApr_voice {s : State} (hs : Hushed s.voice) (l : Lane) : (s.settleApr l).voice = s.voice := by
  unfold State.settleApr
  split
  · dsimp only
    rw [State.raise_voice (by simpa using hs) _ (Nat.zero_le 1)]
    simp
  · rfl

theorem State.settleDark_voice (s : State) (l : Lane) : (s.settleDark l).voice = s.voice := rfl

theorem State.settlePulse_voice (s : State) (l : Lane) : (s.settlePulse l).voice = s.voice := by simp [State.settlePulse]

theorem State.finishCommit_voice {s : State} (hs : Hushed s.voice) (c : PendCommit) : (s.finishCommit c).voice = s.voice := by
  unfold State.finishCommit
  split
  · exact State.complete_voice hs _ _
  · rfl

theorem State.settleCommits_voice {s : State} (hs : Hushed s.voice) (h : Half) : (s.settleCommits h).voice = s.voice :=
  State.each_voice (State.modHalf_voice s h _) _ fun _ c e => State.finishCommit_voice (by rw [e]; exact hs) c

@[simp] theorem State.forceBias_voice (s : State) (c : Chan) : (s.forceBias c).voice = s.voice := by simp [State.forceBias]

theorem State.settleLaser_voice (s : State) (l : Lane) : (s.settleLaser l).voice = s.voice := by
  simp [State.settleLaser, apply_ite State.voice]

/-! ### Contexts -/

@[simp] theorem State.endInjection_voice (s : State) (x : Ctx) : (s.endInjection x).voice = s.voice := by
  simp [State.endInjection, apply_ite State.voice]

@[simp] theorem State.capTrigger_voice (s : State) (x : Ctx) (w : Nat) : (s.capTrigger x w).voice = s.voice := by
  unfold State.capTrigger
  dsimp only
  split
  · simp only [State.modGroup_voice, ne_eq, reduceCtorEq, not_false_eq_true, State.put_voice]
    exact State.each_voice rfl _ fun _ _ _ => rfl
  · rfl

@[simp] theorem State.setCtxState_voice (s : State) (x : Ctx) (n m : Nat) : (s.setCtxState x n m).voice = s.voice := by
  simp [State.setCtxState]

@[simp] theorem State.startCtx_voice (s : State) (x : Ctx) : (s.startCtx x).voice = s.voice := by simp [State.startCtx]

@[simp] theorem State.holdExt_voice (s : State) (x : Ctx) (c : Nat) : (s.holdExt x c).voice = s.voice := by simp [State.holdExt]

@[simp] theorem State.settleRunning_voice (s : State) (x : Ctx) : (s.settleRunning x).voice = s.voice := by
  simp [State.settleRunning, apply_ite State.voice]

theorem State.settleCtx_voice (s : State) (x : Ctx) : (s.settleCtx x).voice = s.voice := by
  simp [State.settleCtx, apply_ite State.voice]

theorem State.settleMaps_voice (s : State) (g : Group) : (s.settleMaps g).voice = s.voice := by simp [State.settleMaps]

theorem State.settleAlert_voice (s : State) (h : Half) : (s.settleAlert h).voice = s.voice := by simp [State.settleAlert]

/-! ### The end of a step -/

/-- The end of a step sends nothing where the halves are hushed. -/
theorem settle_voice {s : State} (hs : Hushed s.voice) : (settle s).voice = s.voice := by
  have keep {t : State} (e : t.voice = s.voice) : Hushed t.voice := by rwa [e]
  have e := State.each_voice rfl allLanes fun _ l e => State.settleLane_voice (keep e) l
  have e := State.each_voice e allHlanes fun t x _ => State.settleHost_voice t x
  have e := State.each_voice e allLanes fun t l _ => State.settlePort_voice t l
  have e := State.each_voice e allLanes fun t l _ => State.settleRot_voice t l
  have e := State.each_voice e allLanes fun _ l e => State.settleApr_voice (keep e) l
  have e := State.each_voice e allLanes fun t l _ => State.settleDark_voice t l
  have e := State.each_voice e allLanes fun t l _ => State.settlePulse_voice t l
  have e := State.each_voice e allHalves fun _ h e => State.settleCommits_voice (keep e) h
  have e := State.each_voice e allLanes fun t l _ => State.settleLaser_voice t l
  have e := State.each_voice e allCtxs fun t x _ => State.settleCtx_voice t x
  have e := State.each_voice e allGroups fun t g _ => State.settleMaps_voice t g
  exact State.each_voice e allHalves fun t h _ => State.settleAlert_voice t h

theorem settle_out {s : State} (hs : Hushed s.voice) : (settle s).out = s.out := by
  rw [State.out_eq, settle_voice hs, State.out_eq]

end Sys2Proof.Machine

/-! A bad read of BAR0 or BAR2 (R442): it answers all ones and sets BAD_ACCESS, and the flag set signals ERR_VEC (R444). -/

namespace Sys2Proof.Machine

/-- R442: what a read of BAR0 or BAR2 comes to that is not aligned or not of 32 bits. -/
theorem exec_read_bad {s : State} {h : Half} {b : Bar} {off : BitVec 20} {n : Nat} (ha : s.answers h = true) (hb : b ≠ .bar4)
    (hn : badAccess off.toNat n = true) : exec (.lowWordReadLatch h ⟨b, off, n⟩) s = .next (settle (s.badRead h b off.toNat n)) := by
  change execLowWordReadLatch h ⟨b, off, n⟩ s = _
  cases b <;> simp_all [execLowWordReadLatch, done]

/-- R444: a vector of a half that masters the bus leaves the part where it is not masked. -/
theorem State.signal_out {s : State} {h : Half} {v : Nat} (hm : s.masters h = true) (hv : (s.half h).masked v = false) :
    (s.signal h v).out = .msix h v :: s.out := by
  rw [State.signal, if_pos (by simp [hm, hv]), State.out_eq, State.perf_voice]
  rfl

/-- R444: a flag of HIF_STAT that becomes set sends the MSI-X message of ERR_VEC. -/
theorem State.hifFlag_out {s : State} {h : Half} {f : Fld} (hf : s.isSet f h = false) (hm : (s.flag f h).masters h = true)
    (hv : (s.half h).masked (s.get .HIF_ERR_VEC h) = false) : (s.hifFlag h f).out = .msix h (s.get .HIF_ERR_VEC h) :: s.out := by
  rw [State.hifFlag, if_neg (by simp [hf])]
  exact State.signal_out hm hv

/-- R442 and R444: the first bad read of a released half, its answer followed by the MSI-X message of ERR_VEC. -/
theorem State.badRead_out {s : State} {h : Half} {b : Bar} {off n : Nat} (hr : s.running h = true) (hf : s.isSet .HIF_BAD_ACCESS h = false)
    (hm : (s.flag .HIF_BAD_ACCESS h).masters h = true) (hv : (s.half h).masked (s.get .HIF_ERR_VEC h) = false) :
    (s.badRead h b off n).out = .msix h (s.get .HIF_ERR_VEC h) :: .readBar h b off (2 ^ (8 * n) - 1) :: s.out := by
  rw [State.badRead, if_pos (show (s.emit _).running h = true from hr)]
  exact State.hifFlag_out (s := s.emit _) hf hm hv

/-- Half A has been released and may master the bus; its host has unmasked vector 0, which ERR_VEC names. -/
def errVecOpen : State := (State.reset.put .BOOT_STATE 0 1).modHalf 0 fun y => { y with bme := true, msixTbl := [⟨3, 1⟩] }

theorem badRead_errVecOpen_out : (errVecOpen.badRead 0 .bar2 6 4).out = [.msix 0 0, .readBar 0 .bar2 6 0xFFFFFFFF] :=
  State.badRead_out (by decide +kernel) (by decide +kernel) (by decide +kernel) (by decide +kernel)

end Sys2Proof.Machine

namespace Sys2Proof

open Machine

/-- Refutes O13: its last clause says that a bad read adds its answer, and nothing more, to what has left the part; but the read sets
BAD_ACCESS, and the flag set sends the MSI-X message of ERR_VEC (R444). The read is of 32 bits at 6 of BAR2, in `errVecOpen`. -/
theorem not_registerWrites : ¬ Obligations.RegisterWrites := by
  rintro ⟨-, -, -, -, -, -, -, -, -, -, -, -, -, -, -, -, -, badRead⟩
  obtain ⟨t, ht, out, -, frame⟩ := badRead errVecOpen 0 .bar2 6 4 (by decide +kernel) (by decide) (by decide)
  rw [exec_read_bad (by decide +kernel) (by decide) (by decide)] at ht
  have same : settle (errVecOpen.badRead 0 .bar2 6 4) = settle t := Host.Outcome.next.inj ht
  have hushed : Hushed t.voice := fun h => by
    rw [← State.get_alertSev, frame.get _ _ (by simp) (by decide)]
    revert h
    decide +kernel
  have sent : (errVecOpen.badRead 0 .bar2 6 4).out = t.out := by
    rw [← settle_out (s := errVecOpen.badRead 0 .bar2 6 4) (by unfold Hushed; decide +kernel), same, settle_out hushed]
  rw [badRead_errVecOpen_out, out] at sent
  exact absurd sent (by decide)

end Sys2Proof

/-! What refutes a statement: the state that a command answers has been settled, and the end of a step leaves alone all but what follows. -/

namespace Sys2Proof

open Machine

/-- Two states that the end of a step makes equal agree but for what follows. -/
theorem Machine.same_of_settle_eq {s t : State} (h : settle s = settle t) : SameBut Fld.follows s t := by
  have a := settle_same s
  rw [h] at a
  exact a.trans (settle_same t).symm

/-- What the base of a half holds is the same on both sides. -/
theorem SameBut.ofHalf {α : Type} {W : Fld → Bool} {s t : State} (a : SameBut W s t) (f : HalfS → α) (hf : ∀ y : HalfS, f y.base = f y) (h : Half) :
    f (t.half h) = f (s.half h) := by
  rw [← hf, a.half, hf]

/-- A command answers one state: what it is said to do holds of a state that agrees with the one it makes. -/
theorem exists_same_of_next {i : Instr} {s u : State} {P : State → Prop} (e : exec i s = .next (settle u))
    (h : ∃ t, exec i s = .next (settle t) ∧ P t) : ∃ t, SameBut Fld.follows u t ∧ P t := by
  obtain ⟨t, ht, p⟩ := h
  exact ⟨t, same_of_settle_eq (Host.Outcome.next.inj (e.symm.trans ht)), p⟩

end Sys2Proof

/-! A half in FATAL: its planes run, its management plane does not (R520), so it takes no command. `Takes` asks only that the half runs. -/

namespace Sys2Proof.Machine

/-- R520: a half whose management plane has stopped takes no command. -/
theorem State.takeCmd_of_not_managing {s : State} {h : Half} (hm : s.managing h = false) (o : Opc) (r : Req) : s.takeCmd o h r = s := by
  simp [State.takeCmd, hm]

/-- Half A has been released and has met a fatal error since. -/
def fatalA : State := State.reset.put .BOOT_STATE 0 3

theorem managing_fatalA : fatalA.managing 0 = false := by decide +kernel

/-- A descriptor of ring 0 with scope HALF, of half A, with one PARAM word. -/
def halfReq (p : W32) : Req := ⟨0, 0, false, false, false, false, 0, 0, 1, 0, 0, (Vector.replicate 10 0).set 0 p⟩

theorem takes_lsLock_fatalA : Takes fatalA 0 .lsLock (halfReq 1) := by decide +kernel

theorem takes_subscribe_fatalA : Takes fatalA 0 .subscribe (halfReq 10) := by decide +kernel

theorem exec_lsLock_fatalA : exec (.lsLock 0 (halfReq 1)) fatalA = .next (settle fatalA) :=
  congrArg done (State.takeCmd_of_not_managing managing_fatalA _ _)

theorem exec_subscribe_fatalA : exec (.subscribe 0 (halfReq 10)) fatalA = .next (settle fatalA) :=
  congrArg done (State.takeCmd_of_not_managing managing_fatalA _ _)

/-- LS_LOCK taken in FATAL leaves LOCK as it is. -/
theorem lsLock_fatalA_ne {t : State} (same : SameBut Fld.follows fatalA t) : t.get .LSH_LOCK (0 : Half) ≠ 1 := by
  rw [same.get _ _ rfl]
  decide +kernel

end Sys2Proof.Machine

namespace Sys2Proof

open Machine

/-- Refutes O3: LS_LOCK is said to lock the ceilings of every half that runs; a half in FATAL runs, but its management plane has stopped. -/
theorem not_everyCommandAnswers : ¬ Obligations.EveryCommandAnswers := by
  rintro ⟨-, -, -, -, -, -, -, lsLock, -⟩
  obtain ⟨t, same, -, locked, -⟩ := exists_same_of_next exec_lsLock_fatalA (lsLock fatalA 0 (halfReq 1) takes_lsLock_fatalA (by decide +kernel))
  exact lsLock_fatalA_ne same locked

/-- Refutes O35: the same LS_LOCK of a half in FATAL. -/
theorem not_laneCommands : ¬ Obligations.LaneCommands := by
  rintro ⟨-, -, -, -, -, -, -, -, -, -, lsLock, -⟩
  obtain ⟨t, same, -, locked, -⟩ := exists_same_of_next exec_lsLock_fatalA (lsLock fatalA 0 (halfReq 1) takes_lsLock_fatalA (by decide +kernel))
  exact lsLock_fatalA_ne same locked

/-- Refutes O39: SUBSCRIBE is said to add a subscription on every half that runs; one in FATAL takes no command. -/
theorem not_countersAndEvents : ¬ Obligations.CountersAndEvents := by
  rintro ⟨-, -, -, -, subscribe, -⟩
  obtain ⟨t, same, added, -⟩ := exists_same_of_next exec_subscribe_fatalA (subscribe fatalA 0 (halfReq 10) takes_subscribe_fatalA)
  have kept := same.ofHalf (·.subs) (fun _ => rfl) 0
  simp [kept] at added

end Sys2Proof

/-! The time base of half B outside JOINED: at its first tick there it follows half A's slew no longer (R385, R386). -/

namespace Sys2Proof.Machine

/-- Half B has just entered ISLAND while it followed a slew of half A by 1 ns each tick. -/
def islandAfterSlew : State := (State.reset.put .BR_STATE 1 1).modHalf 1 fun y => { y with clock := true, follow := 2 ^ 28 }

theorem exec_timeTick_island : ∃ u, exec (.timeTick 1) islandAfterSlew = .next (settle u) ∧ (u.half 1).ns = 4 :=
  ⟨_, rfl, by decide +kernel⟩

end Sys2Proof.Machine

namespace Sys2Proof

open Machine

/-- Refutes O40: its third clause has a tick of half B outside JOINED advance by the slew of half A that half B followed before; that tick is the
first to follow none (R385), so it adds 4 ns here and not 5. -/
theorem not_timeBase : ¬ Obligations.TimeBase := by
  rintro ⟨-, -, tick, -⟩
  obtain ⟨u, hu, ns⟩ := exec_timeTick_island
  obtain ⟨t, same, -, claim, -⟩ := exists_same_of_next hu
    (tick islandAfterSlew 1 (.inr (by decide +kernel)) (by decide +kernel) (by decide +kernel) (by decide +kernel) (by decide +kernel))
  rw [same.ofHalf (·.ns) (fun _ => rfl), ns] at claim
  exact absurd claim (by decide +kernel)

end Sys2Proof

/-! A commit that lowers EFFORT_MAX: the taps that leave the window of the lower level go to the hold store (R112). -/

namespace Sys2Proof.Machine

/-- Lane 0 of half A has a tap outside the window of E0, and a commit that takes EFFORT_MAX to 0 waits for its boundary. -/
def effortCommit : PendCommit := ⟨none, 0, 0, 0, 0, [(0, ⟨.EQ_EFFORT_MAX, 0, 0⟩)], [0], [], [], 0⟩

def lowersEffort : State :=
  ((State.reset.put .EQ_EFFORT 0 2).putApp .EQ_FFE_SHADOW 0 5).modHalf 0 fun y => { y with ticks := 25, commits := [effortCommit] }


/-- The commit is the only one that lane 0 waits for, and it is due. -/
theorem lowersEffort_takes : lowersEffort.commitsIn (fun k => k.lanes.contains 0 && k.due lowersEffort (Lane.half 0)) = [(0, effortCommit)] := by decide +kernel

theorem exec_commitApply_effort : ∃ u, exec (.commitApply 0) lowersEffort = .next (settle u) ∧ u.app .EQ_FFE_SHADOW 0 = 0 :=
  ⟨_, rfl, by decide +kernel⟩

end Sys2Proof.Machine

namespace Sys2Proof

open Machine

/-- The applied value of a field that the end of a step leaves alone. -/
theorem SameBut.app {W : Fld → Bool} {s t : State} (a : SameBut W s t) {f : Fld} (hf : W f = false) (i : Nat) : t.app f i = s.app f i := by
  have same := a.get f i hf
  unfold State.app
  split
  · rw [a.ap]
  · exact same

/-- Refutes O31: its third clause keeps every applied value that the commit does not name; a commit that takes EQ_EFFORT_MAX to 0 also takes
the bank of the lane to E0, which clears a tap outside the window of that level (R112). -/
theorem not_commitsAtBoundaries : ¬ Obligations.CommitsAtBoundaries := by
  rintro ⟨-, -, apply, -⟩
  obtain ⟨u, hu, cleared⟩ := exec_commitApply_effort
  obtain ⟨t, same, -, kept, -⟩ := exists_same_of_next hu
    (apply lowersEffort 0 0 effortCommit lowersEffort_takes (by decide +kernel) (by decide +kernel) (by decide +kernel))
  have claim := kept .EQ_FFE_SHADOW 0 rfl (by decide +kernel)
  rw [same.app rfl, cleared] at claim
  exact absurd claim (by decide +kernel)

end Sys2Proof

/-! The end of a step is made of few small updates. A property that those keep is kept by every pass of `settle`; `W` says which cells of the
register fields may be written. -/

namespace Sys2Proof.Machine

/-- A property that what loop contexts are settled with keeps: writes of the cells that `W` allows, and updates of groups, contexts and the capture
buffer. -/
structure KeptByLoops (W : Fld → Nat → Prop) (P : State → Prop) : Prop where
  put : ∀ {s : State} {g : Fld} {j : Nat} (v : Nat), W g j → P s → P (s.put g j v)
  group : ∀ {s : State} (k : Group) (u : GroupS → GroupS), P s → P (s.modGroup k u)
  ctx : ∀ {s : State} (x : Ctx) (u : CtxS → CtxS), P s → P (s.modCtx x u)
  capture : ∀ {s : State} (m : Ram), P s → P { s with capture := m }

/-- A property that what a step ends with keeps: besides, updates of lanes, ports, host lanes, channels and waiting commits, draws, events and
completions. -/
structure Kept (W : Fld → Nat → Prop) (P : State → Prop) : Prop extends KeptByLoops W P where
  lane : ∀ {s : State} (l : Lane) (u : LaneS → LaneS), P s → P (s.modLane l u)
  port : ∀ {s : State} (p : Lane) (u : PortS → PortS), P s → P (s.modPort p u)
  hlane : ∀ {s : State} (x : HLane) (u : HLaneS → HLaneS), P s → P (s.modHlane x u)
  chan : ∀ {s : State} (c : Chan) (u : ChanS → ChanS), P s → P (s.modChan c u)
  commits : ∀ {s : State} (h : Half) (u : List PendCommit → List PendCommit), P s → P (s.modHalf h fun y => { y with commits := u y.commits })
  draw : ∀ {s : State}, P s → P s.draw.2
  raise : ∀ {s : State} (h : Half) (e : Ev), P s → P (s.raise h e)
  complete : ∀ {s : State} (c : Cmd) (r : Res), P s → P (s.complete c r)

/-- A fold keeps a property that each of its steps keeps. -/
theorem State.each_kept {α : Type} {P : State → Prop} {u : State → α → State} {s : State} (xs : List α) (h : ∀ t x, P t → P (u t x)) (p : P s) :
    P (s.each xs u) := State.each_keeps (fun t x _ => h t x) p

/-- A fold over units establishes what the step of a unit establishes of it and every step keeps. -/
theorem State.each_establishes {α : Type} {P : State → Prop} {u : State → α → State} {s : State} {xs : List α} {x : α} (hx : x ∈ xs)
    (own : ∀ t, P (u t x)) (keeps : ∀ t y, P t → P (u t y)) : P (s.each xs u) := by
  induction xs generalizing s with
  | nil => contradiction
  | cons y ys ih =>
    rcases List.mem_cons.1 hx with rfl | hx
    · exact State.each_kept ys keeps (own s)
    · exact ih hx

/-! ### Loop contexts -/

section
variable {W : Fld → Nat → Prop} {P : State → Prop} {s : State}

/-- The fields that the passes after the lasers write: states of contexts, ALERT. -/
def Fld.afterLasers : Fld → Bool
  | .CTX_STATE | .CTX_CAUSE | .CTX_INJ | .LG_ARMED | .LG_COUNT | .LG_HOLD_MAP | .LG_PARK_MAP | .HIF_ALERT => true
  | _ => false

section
variable (K : KeptByLoops W P) (hW : ∀ g j, g.afterLasers = true → W g j)
include K hW

theorem KeptByLoops.setCtxState (x : Ctx) (st cause : Nat) (p : P s) : P (s.setCtxState x st cause) :=
  K.put _ (hW _ _ rfl) (K.put _ (hW _ _ rfl) p)

theorem KeptByLoops.endInjection (x : Ctx) (p : P s) : P (s.endInjection x) := by
  unfold State.endInjection
  split
  · exact K.group _ _ (K.put _ (hW _ _ rfl) p)
  · exact p

theorem KeptByLoops.capTrigger (x : Ctx) (w : Nat) (p : P s) : P (s.capTrigger x w) := by
  unfold State.capTrigger
  dsimp only
  split
  · exact K.group _ _ (K.put _ (hW _ _ rfl) (K.put _ (hW _ _ rfl) (State.each_kept _ (fun _ _ => K.capture _) p)))
  · exact p

theorem KeptByLoops.startCtx (x : Ctx) (p : P s) : P (s.startCtx x) := by
  unfold State.startCtx
  exact K.ctx _ _ (K.setCtxState hW _ _ _ p)

theorem KeptByLoops.holdExt (x : Ctx) (c : Nat) (p : P s) : P (s.holdExt x c) :=
  K.ctx _ _ (K.setCtxState hW _ _ _ (K.capTrigger hW _ _ (K.endInjection hW _ p)))

theorem KeptByLoops.settleRunning (x : Ctx) (p : P s) : P (s.settleRunning x) := by
  unfold State.settleRunning
  extract_lets st r st' c c'
  have begun : P r := by
    unfold r
    split
    · exact K.startCtx hW x p
    · exact p
  clear_value r
  split_ifs
  · exact K.holdExt hW x c begun
  · exact begun
  · exact K.ctx _ _ (K.put _ (hW _ _ rfl) begun)
  · exact K.startCtx hW x begun
  · exact K.ctx _ _ (K.setCtxState hW _ _ _ begun)
  · exact begun

theorem KeptByLoops.settleCtx (x : Ctx) (p : P s) : P (s.settleCtx x) := by
  unfold State.settleCtx
  split_ifs
  · exact p
  · exact K.ctx _ _ (K.setCtxState hW _ _ _ (K.endInjection hW _ p))
  · exact p
  · exact K.settleRunning hW x p

theorem KeptByLoops.settleMaps (g : Group) (p : P s) : P (s.settleMaps g) := K.put _ (hW _ _ rfl) (K.put _ (hW _ _ rfl) p)

theorem KeptByLoops.settleAlert (h : Half) (p : P s) : P (s.settleAlert h) := K.put _ (hW _ _ rfl) p

/-- The passes after the lasers. -/
theorem KeptByLoops.afterLasers (p : P s) :
    P (((s.each allCtxs State.settleCtx).each allGroups State.settleMaps).each allHalves State.settleAlert) :=
  State.each_kept _ (fun _ h => K.settleAlert hW h)
    (State.each_kept _ (fun _ g => K.settleMaps hW g) (State.each_kept _ (fun _ x => K.settleCtx hW x) p))

end

/-! ### Lasers, commits, ports -/

/-- The fields that the passes from the ports to the lasers write. -/
def Fld.ofPorts : Fld → Bool
  | .PORT_LINE_SKEW | .PORT_HOST_UP | .PORT_LINE_UP | .PORT_STATE | .PORT_UP_CHG | .TSP_ACC_OK | .FE_SADC_ROT | .FE_SEG_ROT
  | .LS_APR_OUT | .LS_NEXT_PULSE | .LS_OFF_CAUSE | .LS_STATE | .LS_LASEN | .CD_OUT | .CD_FORCED0 => true
  | _ => false

section
variable (K : Kept W P) (hW : ∀ g j, g.ofPorts = true → W g j)
include K

theorem Kept.finishCommit (c : PendCommit) (p : P s) : P (s.finishCommit c) := by
  unfold State.finishCommit
  split
  · exact K.complete _ _ p
  · exact p

theorem Kept.settleCommits (h : Half) (p : P s) : P (s.settleCommits h) :=
  State.each_kept _ (fun _ c => K.finishCommit c) (K.commits h (fun cs => cs.filter _) p)

theorem Kept.settleDark (l : Lane) (p : P s) : P (s.settleDark l) := by
  unfold State.settleDark
  exact K.lane _ _ p

include hW

theorem Kept.measureSkew (q : Lane) (p : P s) : P (s.measureSkew q) := by
  unfold State.measureSkew
  dsimp only
  split_ifs
  · exact p
  · exact K.put _ (hW _ _ rfl) p
  · exact K.put _ (hW _ _ rfl) (K.draw p)

theorem Kept.settlePort (q : Lane) (p : P s) : P (s.settlePort q) := by
  unfold State.settlePort
  extract_lets r h n st was r' r'' r'''
  have skew : P r := K.measureSkew hW q p
  have shown : P r' := K.put _ (hW _ _ rfl) (K.put _ (hW _ _ rfl) (K.put _ (hW _ _ rfl) (K.put _ (hW _ _ rfl) skew)))
  have changed : P r'' := by
    unfold r''
    split
    · exact K.put _ (hW _ _ rfl) shown
    · exact shown
  have seen : P r''' := by
    unfold r'''
    split
    · exact K.port _ _ changed
    · exact changed
  split
  · exact K.port _ _ seen
  · exact seen

theorem Kept.settleRot (l : Lane) (p : P s) : P (s.settleRot l) := K.put _ (hW _ _ rfl) (K.put _ (hW _ _ rfl) p)

theorem Kept.settleApr (l : Lane) (p : P s) : P (s.settleApr l) := by
  unfold State.settleApr
  split
  · exact K.raise _ _ (K.put _ (hW _ _ rfl) (K.lane _ _ p))
  · exact p

theorem Kept.settlePulse (l : Lane) (p : P s) : P (s.settlePulse l) := K.put _ (hW _ _ rfl) p

theorem Kept.forceBias (c : Chan) (p : P s) : P (s.forceBias c) := K.chan _ _ (K.put _ (hW _ _ rfl) (K.put _ (hW _ _ rfl) p))

theorem Kept.settleLaser (l : Lane) (p : P s) : P (s.settleLaser l) := by
  unfold State.settleLaser
  extract_lets cause on was r r'
  have shown : P r' := K.put _ (hW _ _ rfl) (K.put _ (hW _ _ rfl) (K.put _ (hW _ _ rfl) p))
  split_ifs
  · exact K.lane _ _ (K.forceBias hW _ shown)
  · exact K.lane _ _ (K.forceBias hW _ shown)
  · exact shown

/-- The passes from the ports to the lasers. -/
theorem Kept.portsToLasers (p : P s) :
    P ((((((s.each allLanes State.settlePort).each allLanes State.settleRot).each allLanes State.settleApr).each allLanes State.settleDark).each
      allLanes State.settlePulse).each allHalves State.settleCommits |>.each allLanes State.settleLaser) :=
  State.each_kept _ (fun _ l => K.settleLaser hW l) (State.each_kept _ (fun _ h => K.settleCommits h) (State.each_kept _ (fun _ l => K.settlePulse hW l)
    (State.each_kept _ (fun _ l => K.settleDark l) (State.each_kept _ (fun _ l => K.settleApr hW l) (State.each_kept _ (fun _ l => K.settleRot hW l)
      (State.each_kept _ (fun _ l => K.settlePort hW l) p))))))

end

/-! ### Host lanes -/

/-- The fields that settling the host lanes writes. -/
def Fld.ofHosts : Fld → Bool
  | .HST_STAGE | .HST_STAGE_CHG | .HST_DET | .HST_BIT_LOCK | .HST_SYM_LOCK | .HST_AM_LOCK => true
  | _ => false

section
variable (K : Kept W P) (x : HLane) (hW : ∀ g, g.ofHosts = true → W g x)
include K hW

theorem Kept.setStage (n : Nat) (p : P s) : P (s.setStage x n) := by
  unfold State.setStage
  extract_lets t r
  have moved : P r := K.hlane _ _ (K.put _ (hW _ rfl) (K.put _ (hW _ rfl) p))
  split_ifs
  · exact p
  · exact K.hlane _ _ (K.put _ (hW _ rfl) (K.put _ (hW _ rfl) (K.put _ (hW _ rfl) (K.put _ (hW _ rfl) moved))))
  · exact moved

theorem Kept.settleHost (p : P s) : P (s.settleHost x) := by
  unfold State.settleHost
  dsimp only
  split_ifs
  · exact K.hlane _ _ (K.setStage x hW _ p)
  · exact K.hlane _ _ p
  · exact K.hlane _ _ (K.setStage x hW _ p)
  · exact p

end

/-! ### Line lanes -/

/-- The fields that settling the line lanes writes. -/
def Fld.ofLanes : Fld → Bool
  | .ACQ_STATE | .ACQ_SUBSTATE | .ACQ_PEER_SEEN | .ACQ_LOOPBACK | .ACQ_TX_DATA | .ACQ_RX_DATA | .ACQ_RX_READY | .ACQ_PEER_READY
  | .ACQ_LEAVE_DATA | .EQ_ADAPT | .EQ_PARALLEL | .EQ_SLICE_ABANDON | .EQ_LS_MEMBER | .FE_HANDOVER | .FE_HO_DEFER | .FE_AGC_TRACK
  | .FEC_DEC | .FEC_DEC_CHG | .FEC_CW_LOCK | .FEC_CW_LOCK_CHG | .FEC_LAT_VALID | .DMT_PEND_RX | .DMT_PEND_TX | .EQ_VALID => true
  | _ => false

section
variable (K : Kept W P) (l : Lane)
include K

theorem Kept.endRamp (p : P s) : P (s.endRamp l) :=
  State.each_kept _ (fun _ h => K.commits h (fun cs => cs.map _)) (K.lane _ _ p)

variable (hW : ∀ g, g.ofLanes = true → W g l)
include hW

theorem Kept.setDecoder (d : Nat) (p : P s) : P (s.setDecoder l d) := by
  unfold State.setDecoder
  split
  · exact p
  · exact K.put _ (hW _ rfl) (K.put _ (hW _ rfl) p)

theorem Kept.setCwLock (b : Bool) (p : P s) : P (s.setCwLock l b) := by
  unfold State.setCwLock
  split
  · exact p
  · exact K.put _ (hW _ rfl) (K.put _ (hW _ rfl) p)

theorem Kept.abandonSlice (p : P s) : P (s.abandonSlice l) := by
  unfold State.abandonSlice
  split
  · exact K.put _ (hW _ rfl) (K.put _ (hW _ rfl) (K.group _ _ p))
  · exact p

theorem Kept.cancelSwaps (p : P s) : P (s.cancelSwaps l) := by
  unfold State.cancelSwaps
  extract_lets cmd r r'
  have ended : P r' := K.put _ (hW _ rfl) (K.put _ (hW _ rfl) (K.lane _ _ p))
  cases cmd with
  | some c => exact K.complete _ _ ended
  | none => exact ended

theorem Kept.endData (p : P s) : P (s.endData l) := by
  unfold State.endData
  split
  · extract_lets r₁ r₂ r₃ r₄ r₅ r₆ r₇ r₈
    have ramp : P r₃ := K.endRamp l (K.lane _ _ (K.put _ (hW _ rfl) p))
    have run : P r₄ := by
      unfold r₄
      split
      · exact K.put _ (hW _ rfl) (K.put _ (hW _ rfl) ramp)
      · exact ramp
    have locks : P r₆ := K.setDecoder l hW _ (K.setCwLock l hW _ (K.cancelSwaps l hW (K.abandonSlice l hW run)))
    have flags : P r₇ := K.put _ (hW _ rfl) (K.put _ (hW _ rfl) (K.put _ (hW _ rfl) locks))
    exact K.put _ (hW _ rfl) (K.put _ (hW _ rfl) (K.lane _ _ (K.put _ (hW _ rfl) flags)))
  · exact p

theorem Kept.clearAcq (p : P s) : P (s.clearAcq l) := by
  unfold State.clearAcq
  exact K.lane _ _ (K.put _ (hW _ rfl) (K.put _ (hW _ rfl) (K.put _ (hW _ rfl) (K.put _ (hW _ rfl) (K.put _ (hW _ rfl) p)))))

theorem Kept.startAdapt (p : P s) : P (s.startAdapt l) := by
  unfold State.startAdapt
  exact K.lane _ _ (K.put _ (hW _ rfl) p)

theorem Kept.freshLock (p : P s) : P (s.freshLock l) := by
  unfold State.freshLock
  split
  · exact K.setCwLock l hW _ p
  · exact p

theorem Kept.toIdle (p : P s) : P (s.toIdle l) := by
  unfold State.toIdle
  exact K.lane _ _ (K.put _ (hW _ rfl) (K.put _ (hW _ rfl) (K.put _ (hW _ rfl) (K.setCwLock l hW _ (K.clearAcq l hW (K.endData l hW p))))))

theorem Kept.toLink (p : P s) : P (s.toLink l) := by
  unfold State.toLink
  exact K.lane _ _ (K.startAdapt l hW (K.put _ (hW _ rfl) (K.put _ (hW _ rfl) (K.put _ (hW _ rfl)
    (K.freshLock l hW (K.clearAcq l hW (K.endData l hW p)))))))

theorem Kept.toBlind (p : P s) : P (s.toBlind l) := by
  unfold State.toBlind
  exact K.lane _ _ (K.startAdapt l hW (K.put _ (hW _ rfl) (K.freshLock l hW (K.clearAcq l hW (K.endData l hW p)))))

theorem Kept.acquire (p : P s) : P (s.acquire l) := by
  unfold State.acquire
  split
  · exact K.toBlind l hW p
  · exact K.toLink l hW p

theorem Kept.settleLane (p : P s) : P (s.settleLane l) := by
  unfold State.settleLane
  split_ifs
  · exact p
  · exact K.toIdle l hW p
  · exact K.acquire l hW p
  · exact p

end
end

/-! ### The end of a step -/

section
variable {W : Fld → Nat → Prop} {P : State → Prop} {s : State} (K : Kept W P) (hW : ∀ g j, g.ofPorts = true ∨ g.afterLasers = true → W g j)
include K hW

/-- What holds once the lanes and the host lanes are settled holds at the end of the step, when the later passes keep it. -/
theorem Kept.afterHosts (p : P ((s.each allLanes State.settleLane).each allHlanes State.settleHost)) : P (settle s) :=
  K.afterLasers (fun _ _ hg => hW _ _ (.inr hg)) (K.portsToLasers (fun _ _ hg => hW _ _ (.inl hg)) p)

/-- What holds once the lanes are settled holds at the end of the step, when the later passes keep it. -/
theorem Kept.afterLanes (hosts : ∀ g j, g.ofHosts = true → W g j) (p : P (s.each allLanes State.settleLane)) : P (settle s) :=
  K.afterHosts hW (State.each_kept _ (fun _ x => K.settleHost x fun _ hg => hosts _ _ hg) p)

end

/-- The end of a step keeps what its updates keep, whatever fields they write. -/
theorem Kept.settle {P : State → Prop} (K : Kept (fun _ _ => True) P) {s : State} (p : P s) : P (settle s) :=
  K.afterLanes (fun _ _ _ => trivial) (fun _ _ _ => trivial) (State.each_kept _ (fun _ l => K.settleLane l fun _ _ => trivial) p)

end Sys2Proof.Machine

/-! What an event, a counted occurrence and a completion keep: they write counters and SEV_HIT, what a half holds, the bridge and what leaves the part. -/

namespace Sys2Proof.Machine

/-- The fields that an event or a counted occurrence writes. -/
def Fld.counted : Fld → Bool
  | .PC_CNT | .PERF_OVF | .HIF_SEV_HIT => true
  | _ => false

/-- A property that the updates keep which a counted occurrence or an interrupt is made of. -/
structure KeptBySignals (P : State → Prop) : Prop where
  put : ∀ {s : State} {g : Fld} (j v : Nat), g.counted = true → P s → P (s.put g j v)
  emit : ∀ {s : State} (o : Out), P s → P (s.emit o)
  pend : ∀ {s : State} (h : Half) (u : List Nat → List Nat), P s → P (s.modHalf h fun y => { y with msixPend := u y.msixPend })

/-- A property that the updates keep which an event or a completion is made of; none of them takes an event from those that wait. -/
structure KeptByEvents (P : State → Prop) : Prop extends KeptBySignals P where
  half : ∀ {s : State} (h : Half) {u : HalfS → HalfS}, (∀ y, y.evts <+: (u y).evts) → P s → P (s.modHalf h u)
  bridge : ∀ {s : State} (u : BridgeS → BridgeS), P s → P (s.modBridge u)

namespace KeptBySignals

variable {P : State → Prop} {s : State} (K : KeptBySignals P)
include K

theorem perfAdd (b fuel j n : Nat) (p : P s) : P (s.perfAdd b fuel j n) := by
  induction fuel generalizing s j n with
  | zero => exact p
  | succ fuel ih =>
    have counted : P (s.put .PC_CNT (b * 8 + j) (s.get .PC_CNT (b * 8 + j) + n)) := K.put _ _ rfl p
    rw [State.perfAdd]
    dsimp only
    split_ifs
    · exact counted
    · exact ih _ _ (K.put _ _ rfl counted)
    · exact K.put _ _ rfl counted

theorem perf (b e n : Nat) (p : P s) : P (s.perf b e n) :=
  State.each_kept (List.range 8) (u := fun s j =>
    if s.isSet .PERF_SEL_EN (b * 8 + j) && (j == 0 || !s.isSet .PERF_SEL_CHAIN (b * 8 + j)) && s.get .PERF_SEL_EVT (b * 8 + j) == e
    then s.perfAdd b 8 j n else s) (fun t j q => by
      split
      · exact K.perfAdd _ _ _ _ q
      · exact q) p

theorem signal (h : Half) (v : Nat) (p : P s) : P (s.signal h v) := by
  unfold State.signal
  dsimp only
  split_ifs
  · exact K.perf _ _ _ (K.emit _ p)
  · exact p
  · exact K.pend h (· ++ [v]) p

theorem sevHit (h : Half) (p : P s) : P (s.hifFlag h .HIF_SEV_HIT) := by
  unfold State.hifFlag
  split
  · exact p
  · exact K.signal _ _ (K.put _ _ rfl p)

end KeptBySignals

namespace KeptByEvents

variable {P : State → Prop} {s : State} (K : KeptByEvents P)
include K

theorem raise (h : Half) (e : Ev) (p : P s) : P (s.raise h e) := by
  unfold State.raise
  extract_lets hs r r₁ r₂ r₃
  have logged : P r₂ := K.perf _ _ _ (K.half _ (fun _ => List.prefix_rfl) p)
  have hit : P r₃ := by
    unfold r₃
    split
    · exact K.sevHit h logged
    · exact logged
  split_ifs
  · exact p
  · exact K.half _ (fun _ => List.prefix_append _ _) hit
  · exact K.bridge _ (K.perf _ _ _ hit)

theorem complete (c : Cmd) (r : Res) (p : P s) : P (s.complete c r) := by
  unfold State.complete
  dsimp only
  split_ifs
  · exact K.half _ (fun _ => List.prefix_rfl) (K.half _ (fun _ => List.prefix_rfl) p)
  · exact K.raise _ _ p
  · exact K.bridge _ (K.perf _ _ _ p)

end KeptByEvents

/-- A property that events keep, and single updates, is kept by what a step ends with. -/
theorem KeptByEvents.kept {W : Fld → Nat → Prop} {P : State → Prop} (K : KeptByEvents P)
    (put : ∀ {s : State} {g : Fld} {j : Nat} (v : Nat), W g j → P s → P (s.put g j v))
    (group : ∀ {s : State} (k : Group) (u : GroupS → GroupS), P s → P (s.modGroup k u))
    (ctx : ∀ {s : State} (x : Ctx) (u : CtxS → CtxS), P s → P (s.modCtx x u))
    (capture : ∀ {s : State} (m : Ram), P s → P { s with capture := m })
    (lane : ∀ {s : State} (l : Lane) (u : LaneS → LaneS), P s → P (s.modLane l u))
    (port : ∀ {s : State} (p : Lane) (u : PortS → PortS), P s → P (s.modPort p u))
    (hlane : ∀ {s : State} (x : HLane) (u : HLaneS → HLaneS), P s → P (s.modHlane x u))
    (chan : ∀ {s : State} (c : Chan) (u : ChanS → ChanS), P s → P (s.modChan c u))
    (draw : ∀ {s : State}, P s → P s.draw.2) : Kept W P :=
  { put, group, ctx, capture, lane, port, hlane, chan, draw
    commits := fun h _ => K.half h fun _ => List.prefix_rfl
    raise := K.raise
    complete := K.complete }

/-- An interrupt and a counted occurrence change nothing of a half but the vectors that wait. -/
theorem keptBySignals_half (h : Half) (Q : HalfS → Prop) : KeptBySignals fun s => Q { s.half h with msixPend := [] } where
  put _ _ _ q := q
  emit _ q := q
  pend k u q := by
    rw [State.half_modHalf]
    split
    · simpa [← ‹h = k›] using q
    · exact q

section
variable {α : Type} (f : HalfS → α) (hf : ∀ y : HalfS, f { y with msixPend := [] } = f y) (s : State) (h k : Half)
include hf

theorem State.perfHalf_half (e n : Nat) : f ((s.perfHalf k e n).half h) = f (s.half h) :=
  (hf _).symm.trans ((keptBySignals_half h fun y => f y = f (s.half h)).perf _ e n (hf _))

theorem State.sevHit_half : f ((s.hifFlag k .HIF_SEV_HIT).half h) = f (s.half h) :=
  (hf _).symm.trans ((keptBySignals_half h fun y => f y = f (s.half h)).sevHit k (hf _))

end

/-- The event that `raise` makes of what it is given. -/
def State.event (s : State) (h : Half) (e : Ev) : Evt :=
  ⟨e.sev, h, e.code, (s.half h).evtSeq, (s.half h).sec, (s.half h).ns, e.scope, e.id, e.cause, e.tag, e.d0 % 2 ^ 32, e.d1 % 2 ^ 32⟩

/-- R460: an event that no filter stops waits on a half that runs its own rings. -/
theorem State.raise_evts {s : State} {h : Half} {e : Ev} (pass : (s.half h).stops e = false) (own : s.manages h = true) :
    ((s.raise h e).half h).evts = (s.half h).evts ++ [s.event h e] := by
  unfold State.raise
  rw [if_neg (by simp [pass])]
  extract_lets hs r r₁ r₂ r₃
  have kept {α : Type} (f : HalfS → α) (hf : ∀ y : HalfS, f { y with msixPend := [] } = f y) : f (r₃.half h) = f (r₁.half h) := by
    unfold r₃
    split
    · rw [State.sevHit_half f hf, State.perfHalf_half f hf]
    · exact State.perfHalf_half f hf _ _ _ _ _
  have runs : r₃.manages h = true := by
    rw [State.manages, kept (·.promoted) fun _ => rfl, State.half_modHalf_self]
    exact own
  rw [if_pos runs, State.half_modHalf_self]
  change (r₃.half h).evts ++ [r] = _
  rw [kept (·.evts) fun _ => rfl, State.half_modHalf_self]
  rfl

/-- What a cell reads is kept by whatever does not write the cell. -/
theorem kept_get {W : Fld → Nat → Prop} {f : Fld} {i : Nat} (hf : f.counted = false) (hW : ∀ g j, W g j → ¬(g = f ∧ j = i)) (Q : Nat → Prop) :
    Kept W fun s => Q (s.get f i) :=
  have others : ∀ {s : State} {g : Fld} {j : Nat} (v : Nat), ¬(g = f ∧ j = i) → Q (s.get f i) → Q ((s.put g j v).get f i) := fun v h q => by
    rwa [State.get_put, if_neg fun e => h ⟨e.1.symm, e.2.symm⟩]
  KeptByEvents.kept (P := fun s => Q (s.get f i))
    ⟨⟨fun j v hg q => others v (fun e => by simp [← e.1, hg] at hf) q, fun _ q => q, fun _ _ q => q⟩, fun _ _ _ q => q, fun _ q => q⟩
    (fun v hg q => others v (hW _ _ hg) q) (fun _ _ q => q) (fun _ _ q => q) (fun _ q => q) (fun _ _ q => q) (fun _ _ q => q) (fun _ _ q => q)
    (fun _ _ q => q) (fun q => q)

end Sys2Proof.Machine

/-! What holds a lane in IDLE or a host lane DISABLED is read from what the end of a step leaves alone. -/

namespace Sys2Proof.SameBut

open Machine

variable {s t : State} (a : SameBut Fld.follows s t)
include a

theorem portLanes : Machine.portLanes t.app = Machine.portLanes s.app := funext fun p => by
  simp only [Machine.portLanes, a.app (f := .PORT_EN) rfl, a.app (f := .PORT_RATE) rfl, a.app (f := .PORT_LMODE) rfl]

theorem portHlanes : Machine.portHlanes t.app = Machine.portHlanes s.app := funext fun p => by
  simp only [Machine.portHlanes, a.app (f := .PORT_EN) rfl, a.app (f := .PORT_RATE) rfl, a.app (f := .PORT_HMODE) rfl,
    a.app (f := .PORT_HOST_BASE) rfl]

theorem portOf (l : Lane) : t.portOf l = s.portOf l := by
  rw [State.portOf, portOfLane, a.portLanes]
  rfl

theorem hportOf (x : HLane) : t.hportOf x = s.hportOf x := by
  rw [State.hportOf, portOfHlane, a.portHlanes]
  rfl

theorem laneOf {α : Type} (f : LaneS → α) (hf : ∀ y : LaneS, f y.base = f y) (l : Lane) : f (t.lane l) = f (s.lane l) := by
  rw [← hf, a.lane, hf]

theorem groupOf {α : Type} (f : GroupS → α) (hf : ∀ y : GroupS, f y.base = f y) (g : Group) : f (t.group g) = f (s.group g) := by
  rw [← hf, a.group, hf]

theorem groupFenced (g : Group) : t.groupFenced g = s.groupFenced g := by
  simp only [State.groupFenced, a.groupOf (·.fences) (fun _ => rfl), a.ofHalf (·.fences) (fun _ => rfl)]

theorem portFenced (p : Lane) : t.portFenced p = s.portFenced p := by
  simp only [State.portFenced, (a.port p).1, a.groupFenced]

theorem laneFenced (l : Lane) : t.laneFenced l = s.laneFenced l := by
  simp only [State.laneFenced, a.laneOf (·.fences) (fun _ => rfl), a.groupFenced, a.portOf, funext a.portFenced]

theorem groupOn (g : Group) : t.groupOn g = s.groupOn g := by
  simp only [State.groupOn, State.notYetStopped, State.isSet, a.get .PG_STATE _ rfl, a.get .PG_HS_BLOCK _ rfl, a.get .PG_PADS_HELD _ rfl,
    a.groupOf (·.resetting) (fun _ => rfl)]

theorem running (h : Half) : t.running h = s.running h := by
  simp only [State.running, a.ofHalf (·.live) (fun _ => rfl), a.get .BOOT_STATE _ rfl]

theorem heldIdle (l : Lane) : t.heldIdle l = s.heldIdle l := by
  simp only [State.heldIdle, a.portOf, a.laneFenced, a.groupOn, a.app (f := .FE_RX_EN) rfl, a.running]

end Sys2Proof.SameBut

/-! O5: the passes that settle lanes and host lanes bring ACQ_STATE and HST_STAGE in line, and no later pass writes either. -/

namespace Sys2Proof.Machine

/-- A step that takes a command settles the state that the command makes. -/
theorem step_eq_settle {s : State} {c : Instr} {rest : List Instr} (h : s.pending = c :: rest) : ∃ t, step s = .next (settle t) := by
  rw [step, h]
  exact exec_settled c _

section
variable (s : State) (l : Lane)

theorem State.toIdle_acqState : (s.toIdle l).get .ACQ_STATE l = 0 := by
  unfold State.toIdle
  simp [State.get_put]
  rfl

theorem State.toLink_acqState : (s.toLink l).get .ACQ_STATE l = 1 := by
  unfold State.toLink State.startAdapt
  simp [State.get_put]
  rfl

theorem State.toBlind_acqState : (s.toBlind l).get .ACQ_STATE l = 5 := by
  unfold State.toBlind State.startAdapt
  simp [State.get_put]
  rfl

/-- A lane that starts acquisition leaves IDLE. -/
theorem State.acquire_acqState : (s.acquire l).get .ACQ_STATE l ≠ 0 := by
  unfold State.acquire
  split
  · simp [State.toBlind_acqState]
  · simp [State.toLink_acqState]

/-- A lane is in IDLE exactly while something holds it there (R268). -/
def State.IdleWhenHeld : Prop := s.get .ACQ_STATE l = 0 ↔ s.heldIdle l = true

/-- R268: settling a lane brings it into IDLE or out of it. -/
theorem State.settleLane_idle : (s.settleLane l).IdleWhenHeld l := by
  have held : (s.settleLane l).heldIdle l = s.heldIdle l := (settleLane_same s l).heldIdle l
  rw [State.IdleWhenHeld, held]
  unfold State.settleLane
  split_ifs with h1 h2 h2
  · simp_all [acqIdle]
  · simp_all [State.toIdle_acqState]
  · simp_all [State.acquire_acqState]
  · simp_all [acqIdle]

end
end Sys2Proof.Machine

namespace Sys2Proof.Machine

/-- Settling another lane leaves ACQ_STATE of this one. -/
theorem State.settleLane_acqState_of_ne {l m : Lane} (h : m ≠ l) (s : State) : (s.settleLane m).get .ACQ_STATE l = s.get .ACQ_STATE l :=
  (kept_get (W := fun _ j => j = m.val) rfl (fun _ _ hj e => h (Fin.ext (hj.symm.trans e.2))) (· = s.get .ACQ_STATE l)).settleLane m (fun _ _ => rfl) rfl

theorem State.idleWhenHeld_congr {s t : State} {l : Lane} (a : SameBut Fld.follows s t) (h : t.get .ACQ_STATE l = s.get .ACQ_STATE l) (p : s.IdleWhenHeld l) :
    t.IdleWhenHeld l := by
  rwa [State.IdleWhenHeld, h, a.heldIdle]

/-- R268: settling the lanes brings each into IDLE or out of it. -/
theorem State.settleLanes_idle (s : State) (l : Lane) : (s.each allLanes State.settleLane).IdleWhenHeld l :=
  State.each_establishes (P := fun t => t.IdleWhenHeld l) (List.mem_finRange l) (fun t => t.settleLane_idle l) fun t m p => by
    by_cases h : m = l
    · subst h
      exact t.settleLane_idle m
    · exact State.idleWhenHeld_congr (settleLane_same t m) (State.settleLane_acqState_of_ne h t) p

/-- The passes after the lanes leave ACQ_STATE. -/
theorem settle_acqState (s : State) (l : Lane) : (settle s).get .ACQ_STATE l = (s.each allLanes State.settleLane).get .ACQ_STATE l :=
  (kept_get (W := fun g _ => g ≠ .ACQ_STATE) rfl (fun _ _ hg e => hg e.1) (· = (s.each allLanes State.settleLane).get .ACQ_STATE l)).afterLanes
    (fun g _ hg e => by simp [e, Fld.ofPorts, Fld.afterLasers] at hg) (fun g _ hg e => by simp [e, Fld.ofHosts] at hg) rfl

/-- R268: at the end of a step a lane is in IDLE exactly while something holds it there. -/
theorem settle_idle (s : State) (l : Lane) : (settle s).IdleWhenHeld l :=
  State.idleWhenHeld_congr ((settle_same s).symm.trans ((SameBut.refl _ s).each_after settleLane_same)).symm (settle_acqState s l) (s.settleLanes_idle l)

/-! ### Host lanes -/

/-- R227: a host lane of no port, one that is not enabled, and one of a half that is not released. -/
def State.hostOff (s : State) (x : HLane) : Prop := s.hportOf x = none ∨ s.app .HST_EN x ≠ 1 ∨ s.running x.group.half = false

theorem State.hostOff_congr {s t : State} (a : SameBut Fld.follows s t) (x : HLane) : t.hostOff x ↔ s.hostOff x := by
  simp only [State.hostOff, a.hportOf, a.app (f := .HST_EN) rfl, a.running]

/-- Entry to DISABLED. -/
theorem State.setStage_zero (s : State) (x : HLane) : (s.setStage x 0).get .HST_STAGE x = 0 := by
  unfold State.setStage
  split
  · assumption
  · simp [State.get_put]

/-- R227: settling a host lane that nothing lets run brings it into DISABLED. -/
theorem State.settleHost_disabled (s : State) (x : HLane) (h : s.hostOff x) : (s.settleHost x).get .HST_STAGE x = 0 := by
  have off : ((s.hportOf x).isNone || !s.appSet .HST_EN x || !s.running x.group.half) = true := by
    rcases h with h | h | h <;> simp [h, State.appSet]
  unfold State.settleHost
  rw [if_pos off]
  exact s.setStage_zero x

theorem State.settleHost_stage_of_ne {x y : HLane} (h : y ≠ x) (s : State) : (s.settleHost y).get .HST_STAGE x = s.get .HST_STAGE x :=
  (kept_get (W := fun _ j => j = y.val) rfl (fun _ _ hj e => h (Fin.ext (hj.symm.trans e.2))) (· = s.get .HST_STAGE x)).settleHost y (fun _ _ => rfl) rfl

/-- R227: settling the host lanes brings those into DISABLED that nothing lets run. -/
theorem State.settleHosts_disabled (s : State) (x : HLane) :
    (s.each allHlanes State.settleHost).hostOff x → (s.each allHlanes State.settleHost).get .HST_STAGE x = 0 :=
  State.each_establishes (P := fun t => t.hostOff x → t.get .HST_STAGE x = 0) (List.mem_finRange x)
    (fun t h => t.settleHost_disabled x ((State.hostOff_congr (settleHost_same t x) x).1 h)) fun t y p h => by
      have before := (State.hostOff_congr (settleHost_same t y) x).1 h
      by_cases e : y = x
      · exact e ▸ t.settleHost_disabled y (e ▸ before)
      · exact (State.settleHost_stage_of_ne e t).trans (p before)

/-- The passes after the host lanes leave HST_STAGE. -/
theorem settle_hostStage (s : State) (x : HLane) :
    (settle s).get .HST_STAGE x = ((s.each allLanes State.settleLane).each allHlanes State.settleHost).get .HST_STAGE x :=
  (kept_get (W := fun g _ => g ≠ .HST_STAGE) rfl (fun _ _ hg e => hg e.1)
    (· = ((s.each allLanes State.settleLane).each allHlanes State.settleHost).get .HST_STAGE x)).afterHosts
    (fun g _ hg e => by simp [e, Fld.ofPorts, Fld.afterLasers] at hg) rfl

/-- R227: at the end of a step a host lane that nothing lets run is DISABLED. -/
theorem settle_hostOff (s : State) (x : HLane) (h : (settle s).hostOff x) : (settle s).get .HST_STAGE x = 0 := by
  have same : SameBut Fld.follows ((s.each allLanes State.settleLane).each allHlanes State.settleHost) (settle s) :=
    (((SameBut.refl _ s).each_after settleLane_same).each_after settleHost_same).symm.trans (settle_same s)
  rw [settle_hostStage]
  exact State.settleHosts_disabled _ x ((State.hostOff_congr same x).1 h)

end Sys2Proof.Machine

namespace Sys2Proof

open Machine

/-- Settles O5: settling the lanes and the host lanes establishes both claims, and the passes after them write neither ACQ_STATE nor HST_STAGE nor
what the claims read. -/
theorem lanesHeldIdle : Obligations.LanesHeldIdle := by
  constructor <;> intro s c rest h <;> obtain ⟨t, ht⟩ := step_eq_settle h
  · refine ⟨settle t, ht, fun l => (settle_idle t l).trans ?_⟩
    simp [State.heldIdle, or_assoc]
  · exact ⟨settle t, ht, fun x => settle_hostOff t x⟩

end Sys2Proof

/-! O4: the pass that settles the lasers brings LASEN and the forced bias code of every lane in line; the passes after it leave alone what they are
read from. -/

namespace Sys2Proof.Machine

section
variable {s t : State} {l m : Lane}

/-- R308 is read from what the end of a step leaves alone, but for the APR state. -/
theorem offCause_congr (a : SameBut Fld.follows s t) (h : (t.lane l).apr = (s.lane l).apr) : t.offCause l = s.offCause l := by
  simp only [State.offCause, State.laserFenced, State.isSet, State.appSet, a.get .LSH_LOCK _ rfl, a.get .LSH_SOFF_PIN _ rfl, a.get .LSH_SOFF_HELD _ rfl,
    a.get .THM_TRIP _ rfl, a.app (f := .LS_LASER_EN) rfl, a.app (f := .LS_APR_MODE) rfl, a.laneOf (·.ovpTrip) (fun _ => rfl), a.laneOf (·.fences) (fun _ => rfl),
    a.laneOf (·.loopApc) (fun _ => rfl), a.groupFenced, a.groupOn, a.running, h]
  rfl

theorem laserCd_congr (a : SameBut Fld.follows s t) : t.laserCd l = s.laserCd l := by
  simp only [State.laserCd, a.get .LS_LASER_CD _ rfl]

theorem ite_eq_zero_of_ne {c : Prop} [Decidable c] {n m : Nat} (h : n ≠ 0) : (if c then n else m) = 0 ↔ ¬c ∧ m = 0 := by
  split <;> simp_all

/-- The conditions of R308, one by one. -/
theorem State.offCause_eq_zero : s.offCause l = 0 ↔
    s.get .LSH_LOCK l.half = 1 ∧ s.app .LS_LASER_EN l = 1 ∧ s.get .LSH_SOFF_PIN l.half = 1 ∧ s.get .LSH_SOFF_HELD l.half ≠ 1 ∧ (s.lane l).ovpTrip = false
      ∧ ((s.lane l).apr = .hold → s.app .LS_APR_MODE l = 1) ∧ ((s.lane l).fences.any fun x => x == .laserOvp || (x == .loop && (s.lane l).loopApc)) = false
      ∧ s.groupFenced l.group = false ∧ s.groupOn l.group = true ∧ s.running l.half = true ∧ s.get .THM_TRIP l.half ≠ 1 := by
  simp (disch := simp) only [State.offCause, ite_eq_zero_of_ne]
  simp [State.laserFenced, State.isSet, State.appSet, and_assoc, -List.any_eq_false, -List.any_eq_true]

/-- The bias channel of a lane is forced to code 0 (R309). -/
def State.biasForced (s : State) (c : Chan) : Prop := s.get .CD_OUT c = 0 ∧ s.get .CD_FORCED0 c = 1

/-- R308 and R309 hold of a lane: LASEN is high exactly while every condition of R308 holds and EXTEST is off; while it is low the bias channel is
forced to code 0. -/
structure State.LaserSettled (s : State) (l : Lane) : Prop where
  enable : s.get .LS_LASEN l = 1 ↔ s.offCause l = 0 ∧ s.extest = false
  bias : s.get .LS_LASEN l ≠ 1 → s.biasForced (s.laserCd l)

/-- It is read from what most updates leave alone. -/
theorem State.LaserSettled.congr (p : s.LaserSettled l) (a : SameBut Fld.follows s t) (apr : (t.lane l).apr = (s.lane l).apr)
    (lasen : t.get .LS_LASEN l = s.get .LS_LASEN l) (forced : ∀ c, s.biasForced c → t.biasForced c) : t.LaserSettled l where
  enable := by rw [lasen, offCause_congr a apr, a.pins.2.1, p.enable]
  bias h := by
    rw [laserCd_congr a]
    exact forced _ (p.bias (lasen ▸ h))

/-- A channel that is forced stays so when another is. -/
theorem State.forceBias_forced (c d : Chan) (h : s.biasForced d ∨ d = c) : (s.forceBias c).biasForced d := by
  simp only [State.biasForced, State.forceBias, State.get_put, State.modChan_get]
  rcases h with ⟨h₀, h₁⟩ | rfl
  · simp [h₀, h₁, show Fld.width .CD_FORCED0 = 1 from rfl]
  · simp [show Fld.width .CD_FORCED0 = 1 from rfl]

theorem State.settleLaser_lasen (s : State) (l m : Lane) : (s.settleLaser l).get .LS_LASEN m =
    if m = l then (if s.offCause l = 0 ∧ s.extest = false then 1 else 0) else s.get .LS_LASEN m := by
  simp only [State.settleLaser, apply_ite (fun t : State => t.get .LS_LASEN m), State.forceBias, State.modLane_get, State.modChan_get]
  by_cases h : m = l <;> by_cases h' : s.offCause l = 0 ∧ s.extest = false <;> simp [State.get_put, ← Fin.ext_iff, h, h', show Fld.width .LS_LASEN = 1 from rfl]


theorem State.settleLaser_apr (s : State) (l m : Lane) : ((s.settleLaser l).lane m).apr = (s.lane m).apr := by
  simp only [State.settleLaser, State.forceBias, apply_ite (fun t : State => (t.lane m).apr), State.lane_modLane]
  by_cases h : m = l <;> simp [h]

/-- Settling a laser leaves a forced channel forced. -/
theorem State.settleLaser_keeps_forced (s : State) (l : Lane) (c : Chan) (h : s.biasForced c) : (s.settleLaser l).biasForced c := by
  have shown : ((((s.put .LS_OFF_CAUSE l (s.offCause l)).put .LS_STATE l (s.laserState l (s.offCause l == 0 && !s.extest))).putBool .LS_LASEN l
      (s.offCause l == 0 && !s.extest))).biasForced c := by
    simpa [State.biasForced, State.get_put] using h
  unfold State.settleLaser
  dsimp only
  split_ifs
  · exact State.forceBias_forced _ c (.inl shown)
  · exact State.forceBias_forced _ c (.inl shown)
  · exact shown

/-- R309: settling a laser whose enable is low forces its bias channel. -/
theorem State.settleLaser_forces (s : State) (l : Lane) (h : ¬(s.offCause l = 0 ∧ s.extest = false)) : (s.settleLaser l).biasForced (s.laserCd l) := by
  have low : (!(s.offCause l == 0 && !s.extest)) = true := by simpa [or_iff_not_imp_left] using h
  unfold State.settleLaser
  dsimp only
  rw [if_pos low]
  refine State.forceBias_forced _ _ (.inr ?_)
  simp [State.laserCd, State.get_put]

theorem State.settleLaser_own (s : State) (l : Lane) : (s.settleLaser l).LaserSettled l := by
  have same := settleLaser_same s l
  have cause := offCause_congr same (s.settleLaser_apr l l)
  have lasen := s.settleLaser_lasen l l
  rw [if_pos rfl] at lasen
  refine ⟨?_, fun low => ?_⟩
  · rw [cause, same.pins.2.1, lasen]
    split <;> simp_all
  · rw [laserCd_congr same]
    exact s.settleLaser_forces l fun high => low (by rw [lasen, if_pos high])

/-- Settling every laser establishes R308 and R309 of each. -/
theorem State.settleLasers (s : State) (l : Lane) : (s.each allLanes State.settleLaser).LaserSettled l :=
  State.each_establishes (P := fun t => t.LaserSettled l) (List.mem_finRange l) (fun t => t.settleLaser_own l) fun t m p => by
    by_cases h : l = m
    · subst h
      exact t.settleLaser_own l
    · exact p.congr (settleLaser_same t m) (t.settleLaser_apr m l) (by rw [t.settleLaser_lasen, if_neg h]) (t.settleLaser_keeps_forced m)

/-- The state in which the lasers have been settled. -/
def lasersSettled (s : State) : State :=
  ((((((((s.each allLanes State.settleLane).each allHlanes State.settleHost).each allLanes State.settlePort).each allLanes State.settleRot).each
    allLanes State.settleApr).each allLanes State.settleDark).each allLanes State.settlePulse).each allHalves State.settleCommits).each allLanes
    State.settleLaser

theorem settle_eq_after_lasers (s : State) :
    settle s = (((lasersSettled s).each allCtxs State.settleCtx).each allGroups State.settleMaps).each allHalves State.settleAlert := rfl

theorem after_lasers_same (s : State) :
    SameBut Fld.follows s (((s.each allCtxs State.settleCtx).each allGroups State.settleMaps).each allHalves State.settleAlert) :=
  (SameBut.refl _ s).each_after settleCtx_same |>.each_after settleMaps_same |>.each_after settleAlert_same

/-- The passes after the lasers write none of the lasers' fields and leave the lanes. -/
theorem after_lasers_keep {f : Fld} (hf : f.afterLasers = false) (s : State) (i : Nat) :
    (((s.each allCtxs State.settleCtx).each allGroups State.settleMaps).each allHalves State.settleAlert).get f i = s.get f i :=
  have K : KeptByLoops (fun g _ => g.afterLasers = true) fun t => t.get f i = s.get f i :=
    ⟨fun v hg p => by rwa [State.get_put_of_ne _ fun e => by simp [← e, hf] at hg], fun _ _ p => p, fun _ _ p => p, fun _ p => p⟩
  K.afterLasers (fun _ _ h => h) rfl

theorem after_lasers_lane (s : State) (l : Lane) :
    (((s.each allCtxs State.settleCtx).each allGroups State.settleMaps).each allHalves State.settleAlert).lane l = s.lane l :=
  have K : KeptByLoops (fun _ _ => True) fun t => t.lane l = s.lane l := ⟨fun _ _ p => p, fun _ _ p => p, fun _ _ p => p, fun _ p => p⟩
  K.afterLasers (fun _ _ _ => trivial) rfl

/-- R308 and R309 hold of every lane at the end of a step. -/
theorem settle_lasers (s : State) (l : Lane) : (settle s).LaserSettled l := by
  rw [settle_eq_after_lasers]
  refine (State.settleLasers _ l).congr (after_lasers_same _) (by rw [after_lasers_lane]; rfl) (after_lasers_keep rfl _ _) fun c h => ?_
  rw [State.biasForced, after_lasers_keep rfl, after_lasers_keep rfl]
  exact h

end

end Sys2Proof.Machine

namespace Sys2Proof

open Machine

/-- Settles O4: the state that a command answers has been settled, and there R308 and R309 hold of every lane; a step with no command left answers
the state itself. -/
theorem laserSafety : Obligations.LaserSafety := by
  refine ⟨fun s c rest h => ?_, fun s c rest h => ?_, fun s c rest h => ?_, fun s safe t ht => ?_⟩
  · obtain ⟨u, hu⟩ := step_eq_settle h
    refine ⟨_, hu, fun l high => ?_⟩
    have ⟨cause, extest⟩ := (settle_lasers u l).enable.1 high
    simpa only [and_assoc] using And.intro (State.offCause_eq_zero.1 cause) extest
  · obtain ⟨u, hu⟩ := step_eq_settle h
    exact ⟨_, hu, fun l cause extest => (settle_lasers u l).enable.2 ⟨cause, extest⟩⟩
  · obtain ⟨u, hu⟩ := step_eq_settle h
    exact ⟨_, hu, fun l => (settle_lasers u l).bias⟩
  · cases h : s.pending with
    | nil =>
      rw [step, h] at ht
      exact Host.Outcome.next.inj ht ▸ safe
    | cons c rest =>
      obtain ⟨u, hu⟩ := step_eq_settle h
      obtain rfl := Host.Outcome.next.inj (hu.symm.trans ht)
      exact fun l high => (settle_lasers u l).enable.1 (by simpa [State.isSet] using high)

end Sys2Proof

/-! O49: the number of causes that FENCE_IN carries is a word of 32 bits (R460). -/

namespace Sys2Proof.Machine

/-- The end of a step takes no event from those that wait. -/
theorem settle_evts (s : State) (h : Half) : (s.half h).evts <+: ((settle s).half h).evts :=
  have K : KeptByEvents fun t => (s.half h).evts <+: (t.half h).evts :=
    { put := fun _ _ _ p => p
      emit := fun _ p => p
      pend := fun k u p => by
        rw [State.half_modHalf]
        split
        · next e => exact e ▸ p
        · exact p
      half := fun k u grows p => by
        rw [State.half_modHalf]
        split
        · next e =>
          subst e
          exact p.trans (grows _)
        · exact p
      bridge := fun _ p => p }
  (K.kept (fun _ _ p => p) (fun _ _ p => p) (fun _ _ p => p) (fun _ p => p) (fun _ _ p => p) (fun _ _ p => p) (fun _ _ p => p) (fun _ _ p => p)
    fun p => p).settle List.prefix_rfl

/-- States that the end of a step makes equal have the same first event waiting. -/
theorem head_evts_of_settle_eq {s t : State} (e : settle s = settle t) {h : Half} {a b : Evt} {as bs : List Evt} (ha : (s.half h).evts = a :: as)
    (hb : (t.half h).evts = b :: bs) : a = b := by
  have pa := settle_evts s h
  have pb := settle_evts t h
  rw [ha, e] at pa
  rw [hb] at pb
  obtain ⟨x, hx⟩ := pa
  obtain ⟨y, hy⟩ := pb
  exact (List.cons.inj (hx.trans hy.symm)).1

/-- The injections that end with a fence leave the halves and the groups. -/
theorem State.endSlotsIn_units (s : State) (h : Half) (ls : List Lane) :
    (s.endSlotsIn h ls).halves = s.halves ∧ (s.endSlotsIn h ls).groups = s.groups :=
  State.each_kept (P := fun t => t.halves = s.halves ∧ t.groups = s.groups) _ (fun t i p => by split <;> exact p) ⟨rfl, rfl⟩

/-- R42: FENCE_IN of a group carries the number of its causes, as a word. -/
theorem State.fenceIn_group_evts {s : State} {g : Group} {c : Cause} (fresh : c ∉ (s.group g).fences) (own : s.manages g.half = true) :
    ∃ e, ((s.fenceIn (.group g) c).half g.half).evts = (s.half g.half).evts ++ [e] ∧ e.d1 = ((s.group g).fences.length + 1) % 2 ^ 32 := by
  unfold State.fenceIn
  rw [if_neg (show c ∉ s.causes (.group g) from fresh)]
  extract_lets r
  obtain ⟨halves, groups⟩ : r.halves = s.halves ∧ r.groups = (s.setCauses (.group g) (s.causes (.group g) ++ [c])).groups := State.endSlotsIn_units _ _ _
  have half : r.half g.half = s.half g.half := by rw [State.half, halves, State.half]
  have causes : r.causes (.group g) = (s.group g).fences ++ [c] := by
    rw [State.causes, State.group, groups]
    exact congrArg GroupS.fences (State.group_modGroup_self (s := s) g _)
  clear_value r
  have raised := fun e pass => State.raise_evts (s := r) (h := g.half) (e := e) pass (by rwa [State.manages, half])
  rw [half] at raised
  refine ⟨_, raised _ rfl, ?_⟩
  rw [State.event, causes]
  simp

end Sys2Proof.Machine

namespace Sys2Proof

open Machine

/-- Group 0 has so many causes that one more makes their number 2^32. -/
def Machine.manyFences : State := State.reset.modGroup 0 fun y => { y with fences := List.replicate (2 ^ 32 - 1) .loop }

theorem Machine.fences_manyFences : (manyFences.group 0).fences = List.replicate (2 ^ 32 - 1) .loop :=
  congrArg GroupS.fences (State.group_modGroup_self (s := State.reset) 0 _)

/-- Refutes O49: its ninth clause has FENCE_IN carry the number of causes in DATA1 without a bound; DATA1 is one word, which reads 0 where the list of
causes grows to 2^32. -/
theorem not_cellsAndSupplies : ¬ Obligations.CellsAndSupplies := by
  rintro ⟨-, -, -, -, -, -, -, -, monitorIo, -⟩
  have fresh : Cause.groupIo ∉ (manyFences.group 0).fences := by
    rw [fences_manyFences]
    exact fun h => absurd (List.eq_of_mem_replicate h) (by decide)
  obtain ⟨t, ht, -, posted⟩ := monitorIo manyFences 0 fresh rfl
  obtain ⟨e, evts, d1⟩ := State.fenceIn_group_evts fresh (s := manyFences) rfl
  have none : (manyFences.half (Group.half 0)).evts = [] := rfl
  rw [fences_manyFences, List.length_replicate] at d1 posted
  rw [none] at evts
  rw [Posted, none, List.map_nil, List.nil_append, List.map_eq_singleton_iff] at posted
  obtain ⟨b, hb, reads⟩ := posted
  have same := head_evts_of_settle_eq (Host.Outcome.next.inj ht) evts hb
  rw [← same, d1] at reads
  exact absurd (Prod.mk.inj (Prod.mk.inj (Prod.mk.inj reads).2).2).2 (by decide)

end Sys2Proof

/-! What an operation leaves: the register fields outside a set, and what a function reads of a half. -/

namespace Sys2Proof

open Machine

/-- Every field outside `W` reads as before, and so does what `f` takes of each half. -/
structure Leaves (W : Fld → Bool) {α : Type} (f : HalfS → α) (s t : State) : Prop where
  get : ∀ g i, W g = false → t.get g i = s.get g i
  half : ∀ h, f (t.half h) = f (s.half h)

namespace Leaves

variable {W : Fld → Bool} {α : Type} {f : HalfS → α} {s t r : State}

theorem refl (s : State) : Leaves W f s s := ⟨fun _ _ _ => rfl, fun _ => rfl⟩

theorem trans (a : Leaves W f s t) (b : Leaves W f t r) : Leaves W f s r :=
  ⟨fun g i h => (b.get g i h).trans (a.get g i h), fun h => (b.half h).trans (a.half h)⟩

theorem put (a : Leaves W f s t) {g : Fld} (h : W g = true) (j v : Nat) : Leaves W f s (t.put g j v) :=
  ⟨fun k i hk => (State.get_put_of_ne t (fun e => by simp [e, h] at hk) i j v).trans (a.get k i hk), a.half⟩

theorem modHalf (a : Leaves W f s t) (k : Half) {u : HalfS → HalfS} (h : ∀ y, f (u y) = f y) : Leaves W f s (t.modHalf k u) :=
  ⟨a.get, fun x => by
    rw [State.half_modHalf, ← a.half]
    split
    · next e => rw [h, e]
    · rfl⟩

theorem modBridge (a : Leaves W f s t) (u : BridgeS → BridgeS) : Leaves W f s (t.modBridge u) := ⟨a.get, a.half⟩

theorem ite {c : Prop} [Decidable c] {x y : State} (a : Leaves W f s x) (b : Leaves W f s y) : Leaves W f s (if c then x else y) := by
  split
  · exact a
  · exact b

theorem each {β : Type} {u : State → β → State} {xs : List β} (a : Leaves W f s t) (h : ∀ t x, Leaves W f t (u t x)) : Leaves W f s (t.each xs u) :=
  State.each_kept xs (fun r x b => b.trans (h r x)) a

section
variable (hW : ∀ g, g.follows = true → W g = true) (hf : ∀ y : HalfS, f y.base = f y)
include hW hf

theorem ofSame (a : Leaves W f s t) (b : SameBut Fld.follows t r) : Leaves W f s r :=
  a.trans ⟨fun g i h => b.get g i (by_contra fun k => by simp [hW g (by simpa using k)] at h), b.ofHalf f hf⟩

theorem raise (a : Leaves W f s t) (h : Half) (e : Ev) : Leaves W f s (t.raise h e) := a.ofSame hW hf (raise_same _ _ _)
theorem complete (a : Leaves W f s t) (c : Cmd) (r : Res) : Leaves W f s (t.complete c r) := a.ofSame hW hf (complete_same _ _ _)
theorem signal (a : Leaves W f s t) (h : Half) (v : Nat) : Leaves W f s (t.signal h v) := a.ofSame hW hf (signal_same _ _ _)
theorem perfHalf (a : Leaves W f s t) (h : Half) (e n : Nat) : Leaves W f s (t.perfHalf h e n) := a.ofSame hW hf (perfHalf_same _ _ _ _)

end
end Leaves
end Sys2Proof

/-! ### Entry to ISLAND -/

namespace Sys2Proof.Machine

/-- The fields that the entry to ISLAND writes beside its own: counts of what is lost and of what is pending, and those of half B's rings. -/
def Fld.ofSplit : Fld → Bool
  | .TIME_PEND_ALL | .TIME_PEND_COMMIT | .TIME_PEND_SNAP | .HIF_EVT_LOST | .HIF_TLM_LOST | .TIME_TSQ_FILL | .TIME_TSQ_OVF | .TIME_DROP_CNT
  | .HIF_NO_RINGS | .BR_ROLE | .HIF_RUN | .RING_EN | .RING_ACTIVE => true
  | f => f.follows

theorem Fld.ofSplit_of_follows (f : Fld) (h : f.follows = true) : f.ofSplit = true := by
  unfold Fld.ofSplit
  split <;> first | rfl | exact h

/-- What of a half says whether half B runs its own rings and may, and whether it is in holdover. -/
def HalfS.role (y : HalfS) : Bool × List Nat × Bool := (y.promoted, y.setup, y.holdover)

/-- The entry to ISLAND writes what `Fld.ofSplit` names, and keeps the role of each half until half B promotes itself. -/
abbrev Split (s t : State) : Prop := Leaves Fld.ofSplit HalfS.role s t

namespace Split

variable {s t : State} (a : Split s t)
include a

theorem complete (c : Cmd) (r : Res) : Split s (t.complete c r) := Leaves.complete Fld.ofSplit_of_follows (fun _ => rfl) a c r
theorem raise (h : Half) (e : Ev) : Split s (t.raise h e) := Leaves.raise Fld.ofSplit_of_follows (fun _ => rfl) a h e
theorem signal (h : Half) (v : Nat) : Split s (t.signal h v) := Leaves.signal Fld.ofSplit_of_follows (fun _ => rfl) a h v
theorem countPending (h : Half) : Split s (t.countPending h) := ((Leaves.put a rfl _ _).put rfl _ _).put rfl _ _
theorem showPending (h : Half) : Split s (t.showPending h) := (countPending a h).countPending _

end Split

section
variable (s : State)

theorem State.splitSnapshots_split : Split s s.splitSnapshots := by
  refine (Leaves.refl s).each fun s x => ?_
  extract_lets k latched ended lanesB away r r'
  have posted : Split s r := by
    unfold r
    split
    · exact (Leaves.refl s).modHalf _ fun _ => by rfl
    · exact Leaves.refl s
  have cancelled : Split s r' := posted.each fun t h => (Leaves.refl t).modHalf _ fun _ => by rfl
  exact (Split.complete cancelled _ _).each fun t h => Split.showPending (Leaves.refl t) h

theorem State.cancelSpanning_split : Split s s.cancelSpanning := by
  refine (Leaves.refl s).each fun s h => ?_
  extract_lets gone r₁ r₂ late r₃
  have swept : Split s r₂ := Split.showPending (((Leaves.refl s).modHalf _ fun _ => by rfl).each fun t a => Split.complete (Leaves.refl t) _ _) _
  have answered : Split s r₃ := (swept.modHalf _ fun _ => by rfl).each fun t p => Split.complete (Leaves.refl t) _ _
  clear_value r₃
  split
  · exact Split.complete (answered.modHalf _ fun _ => by rfl) _ _
  · exact answered

theorem State.islandForwarded_split : Split s s.islandForwarded :=
  ((Leaves.refl s).modHalf _ fun _ => by rfl).each fun t c => Split.complete (Leaves.refl t) _ _

theorem State.pushRecord_split (h : Half) (r : List W32) : Split s (s.pushRecord h r) := by
  unfold State.pushRecord
  extract_lets q first r'
  have dropped : Split s r' := (((Leaves.refl s).put rfl _ _).put rfl _ _).modHalf _ fun _ => by rfl
  split_ifs
  · exact ((Leaves.refl s).modHalf _ fun _ => by rfl).put rfl _ _
  · exact Split.raise dropped _ _
  · exact dropped

theorem State.recallRecords_split : Split s s.recallRecords := by
  unfold State.recallRecords
  extract_lets rs evts subs snaps ts keys own r₁ room r₂ r₃
  have counted : Split s r₁ := ((Leaves.refl s).put rfl _ _).put rfl _ _
  have moved : Split s r₂ := counted.modHalf _ fun _ => by rfl
  have pushed : Split s r₃ := moved.each fun t r => t.pushRecord_split _ r
  exact (pushed.put rfl _ _).modBridge _

theorem State.hifNoRings_split (h : Half) : Split s (s.hifFlag h .HIF_NO_RINGS) := by
  unfold State.hifFlag
  split
  · exact Leaves.refl s
  · exact Split.signal ((Leaves.refl s).put rfl _ _) _ _

/-- What of a half its promotion leaves: whether it is in holdover. -/
theorem State.promote_leaves : Leaves Fld.ofSplit (·.holdover) s s.promote := by
  have split {u v : State} (a : Split u v) : Leaves Fld.ofSplit (·.holdover) u v := ⟨a.get, fun h => congrArg (·.2.2) (a.half h)⟩
  unfold State.promote
  extract_lets sent r r₁ r₂ r₃ r₄
  have recalled : Leaves Fld.ofSplit (·.holdover) s r := (split s.recallRecords_split).modBridge _
  have named : Leaves Fld.ofSplit (·.holdover) s r₁ := (recalled.modHalf _ fun _ => by rfl).put rfl _ _
  have enabled : Leaves Fld.ofSplit (·.holdover) s r₂ := (named.put rfl _ _).each fun t q => by
    unfold State.enableRing
    exact (Leaves.refl t).ite (((Leaves.refl t).put rfl _ _).modHalf _ fun _ => by rfl)
  have shown : Leaves Fld.ofSplit (·.holdover) s r₃ := (enabled.each fun t q => (Leaves.refl t).put rfl _ _).modHalf _ fun _ => by rfl
  split
  · exact recalled.trans (split (r.hifNoRings_split _))
  · exact (Leaves.raise Fld.ofSplit_of_follows (fun _ => rfl) shown _ _).each fun t c => Leaves.raise Fld.ofSplit_of_follows (fun _ => rfl) (Leaves.refl t) _ _

end
end Sys2Proof.Machine

/-! O50: what a half hears and misses, and the entry to ISLAND. -/

namespace Sys2Proof.Machine

/-- A half that enters ISLAND, before what spans both halves ends. -/
def State.entered (s : State) (h : Half) : State :=
  ((((s.put .BR_STATE h bridgeIsland).incSat .BR_ISLAND_CNT h).dirty h).modHalf h fun y => { y with good := 0 }).modHalf halfB
    fun y => { y with rejoinSlew := false, rejoinStepAt := none, remain := if y.rejoinSlew then 0 else y.remain }

section
variable {s : State} {h : Half}

/-- What spans both halves ends as ISLAND begins. -/
def State.severed (s : State) : State := s.splitSnapshots.cancelSpanning

theorem State.severed_split (s : State) : Split s s.severed := s.splitSnapshots_split.trans s.splitSnapshots.cancelSpanning_split

theorem State.enterIsland_halfA (e : s.get .BR_STATE halfA ≠ 1) : s.enterIsland halfA = (s.entered halfA).severed.islandForwarded :=
  (if_neg e).trans (if_pos rfl)

theorem State.enterIsland_halfB (e : s.get .BR_STATE halfB ≠ 1) : s.enterIsland halfB = (s.entered halfB).severed.holdoverB.promote :=
  (if_neg e).trans (if_neg (by decide))

theorem half_cases (h : Half) : h = halfA ∨ h = halfB := by decide +revert

theorem State.holdoverB_get {f : Fld} (hf : f ≠ .TIME_SYNC) (s : State) (i : Nat) : s.holdoverB.get f i = s.get f i := by
  simp [State.holdoverB, State.get_put, hf]

theorem State.holdoverB_sync (s : State) : s.holdoverB.get .TIME_SYNC halfB = 2 := by
  simp [State.holdoverB, show Fld.width .TIME_SYNC = 2 from rfl]

/-- The entry writes the state of the half, its count, TIME_SYNC and what `Fld.ofSplit` names. -/
theorem State.enterIsland_get (e : s.get .BR_STATE h ≠ 1) {f : Fld} (hf : f.ofSplit = false) (ht : f ≠ .TIME_SYNC) (i : Nat) :
    (s.enterIsland h).get f i = (s.entered h).get f i := by
  obtain rfl | rfl := half_cases h
  · rw [State.enterIsland_halfA e, (State.islandForwarded_split _).get f i hf]
    exact (s.entered halfA).severed_split.get f i hf
  · rw [State.enterIsland_halfB e, (State.promote_leaves _).get f i hf, State.holdoverB_get ht]
    exact (s.entered halfB).severed_split.get f i hf

/-- R45, R46 and R50: the half is in ISLAND and has counted it; what it knows of heartbeats stays. -/
theorem State.enterIsland_state (e : s.get .BR_STATE h ≠ 1) :
    (s.enterIsland h).get .BR_STATE h = 1 ∧ (s.enterIsland h).get .BR_ISLAND_CNT h = min (s.get .BR_ISLAND_CNT h + 1) 65535
      ∧ (s.enterIsland h).get .BR_MISSED h = s.get .BR_MISSED h := by
  rw [State.enterIsland_get e rfl (by decide), State.enterIsland_get e rfl (by decide), State.enterIsland_get e rfl (by decide)]
  simp [State.entered, State.dirty, State.incSat, State.get_put, bridgeIsland, show Fld.width .BR_STATE = 2 from rfl, show Fld.width .BR_ISLAND_CNT = 16 from rfl]

/-- R386: half B in ISLAND is in holdover. -/
theorem State.enterIsland_holdover (e : s.get .BR_STATE halfB ≠ 1) :
    (s.enterIsland halfB).get .TIME_SYNC halfB = 2 ∧ ((s.enterIsland halfB).half halfB).holdover = true := by
  rw [State.enterIsland_halfB e, (State.promote_leaves _).get .TIME_SYNC _ rfl, (State.promote_leaves _).half]
  exact ⟨State.holdoverB_sync _, by simp [State.holdoverB]⟩

end

/-! ### Heartbeats -/

section
variable {s : State} {h : Half} {b : Heartbeat}

theorem exec_heartbeatReceive (hm : s.managing h = true) : exec (.heartbeatReceive h b) s = .next (settle (s.heartbeat h b)) := if_pos hm

/-- A heartbeat has arrived: the missed count is 0 and the window starts afresh. -/
def State.hears (s : State) (h : Half) : State := (s.put .BR_MISSED h 0).modHalf h fun y => { y with heard := true, windowAt := y.ticks }

theorem State.hears_get {f : Fld} (hf : f ≠ .BR_MISSED) (i : Nat) : (s.hears h).get f i = s.get f i := by
  simp [State.hears, State.get_put, hf]

theorem State.heartbeat_joined (hg : b.good = true) (hj : s.get .BR_STATE h = 0) : s.heartbeat h b =
    if b.state = 1 then (s.hears h).enterIsland h else if h = halfB then (s.hears h).servo b.offset16 else s.hears h := by
  unfold State.heartbeat
  have st : (s.hears h).get .BR_STATE h = bridgeJoined := (State.hears_get (by decide) _).trans hj
  rw [if_neg (by simp [hg])]
  exact if_pos st

theorem State.hears_frame : Frame [(.BR_MISSED, h.val)] s (s.hears h) := ((Frame.refl _ s).put (.inl (by simp)) _).modHalf _ _

theorem State.hears_missed : (s.hears h).get .BR_MISSED h = 0 := by simp [State.hears]

theorem State.hears_heard : ((s.hears h).half h).heard = true := by simp [State.hears]

/-- A window has passed without a heartbeat. -/
def State.misses (s : State) (h : Half) : State :=
  (s.put .BR_MISSED h (min 8 (s.get .BR_MISSED h + 1))).modHalf h fun y => { y with good := 0, windowAt := y.ticks }

theorem State.misses_get {f : Fld} (hf : f ≠ .BR_MISSED) (i : Nat) : (s.misses h).get f i = s.get f i := by
  simp [State.misses, State.get_put, hf]

theorem State.misses_missed : (s.misses h).get .BR_MISSED h = min 8 (s.get .BR_MISSED h + 1) := by
  simp [State.misses, show Fld.width .BR_MISSED = 4 from rfl]

theorem exec_windowExpiry (hm : s.managing h = true) (hh : (s.half h).heard = true) (hw : (s.half h).windowAt + 2500 ≤ s.ticks h) :
    exec (.heartbeatWindowExpiry h) s = .next (settle (if min 8 (s.get .BR_MISSED h + 1) = 8 then (s.misses h).enterIsland h else s.misses h)) :=
  if_neg (by simp [hm, hh, hw])

theorem exec_releaseTimeout (hm : s.managing h = true) (hh : (s.half h).heard = false) (hw : (s.half h).releasedAt + msTicks 1000 ≤ s.ticks h) :
    exec (.releaseHeartbeatTimeout h) s = .next (settle ((s.put .BR_MISSED h 8).enterIsland h)) :=
  if_neg (by simp [hm, hh, hw])

/-- A bad heartbeat is heard and breaks the row of good ones. -/
theorem State.heartbeat_bad (hb : b.good = false) : s.heartbeat h b = (s.hears h).modHalf h fun y => { y with good := 0 } :=
  if_pos (by simp [hb])

/-- R385: within 1 µs half B is steered, and its time goes on. -/
theorem State.servo_near {off : Int} (ho : off.natAbs ≤ 16000) : s.servo off =
    (s.putS .TIME_B_OFFSET halfB (clampInt (-(2 ^ 31)) (2 ^ 31 - 1) off)).modHalf halfB fun y =>
      { y with corr := roundUp (-(off * 2 ^ 24)) 2500, corrs := ((y.ticks, roundUp (-(off * 2 ^ 24)) 2500) :: y.corrs).filter fun p => y.ticks < p.1 + 250000000 } :=
  if_neg (by omega)

/-- An offset within the field's range reads back. -/
theorem State.servo_offset {off : Int} (ho : off.natAbs ≤ 16000) : (s.servo off).getS .TIME_B_OFFSET halfB = off := by
  have clamp : clampInt (-(2 ^ 31)) (2 ^ 31 - 1) off = off := by simp [clampInt]; omega
  rw [State.servo_near ho, clamp]
  simp [State.getS, State.modHalf_get, show Fld.width .TIME_B_OFFSET = 32 from rfl, toSigned, ofSigned]
  omega

end
end Sys2Proof.Machine

namespace Sys2Proof

open Machine

/-- Settles O50, clause by clause: what is heard, what is missed, and the entry to ISLAND, which keeps the state of the half and its counts. -/
theorem heartbeats : Obligations.Heartbeats := by
  refine ⟨fun s h hb => ?_, fun s h hb => ?_, fun s h b hm hg hj hs hA => ?_, fun s b hm hg hj hs ho => ?_, fun s h b hm hg => ?_, fun s h b hm hg hj hs => ?_,
    fun s h hm hh hw hn => ?_, fun s h hm hh hw hn hi => ?_, fun s h hm hh hw hi => ?_, fun s h hw => ?_, fun s h hw => ?_⟩
  · exact ⟨_, if_neg (by simp [hb]), rfl, (Frame.refl _ s).emit _⟩
  · exact if_pos (by simp [hb])
  · subst hA
    refine ⟨_, exec_heartbeatReceive hm, ?_⟩
    rw [State.heartbeat_joined hg hj, if_neg hs, if_neg (by decide)]
    exact ⟨State.hears_missed, (State.hears_get (by decide) _).trans hj, State.hears_heard, State.hears_frame⟩
  · refine ⟨_, exec_heartbeatReceive hm, ?_⟩
    rw [State.heartbeat_joined hg hj, if_neg hs, if_pos rfl]
    refine ⟨State.servo_offset ho, ?_, ?_, ?_⟩ <;> rw [State.servo_near ho]
    · simp
    · simp [State.hears]
    · exact ((((Frame.refl _ s).put (.inl (by simp)) _).modHalf _ _).putS (.inl (by simp)) _).modHalf _ _
  · refine ⟨_, exec_heartbeatReceive hm, ?_⟩
    rw [State.heartbeat_bad hg]
    refine ⟨State.hears_missed, ?_, ?_, State.hears_frame.modHalf _ _⟩
    · simp [State.hears]
    · simp
  · refine ⟨_, exec_heartbeatReceive hm, ?_⟩
    rw [State.heartbeat_joined hg hj, if_pos hs]
    obtain ⟨state, count, missed⟩ := State.enterIsland_state (s := s.hears h) (h := h) (by rw [State.hears_get (by decide), hj]; decide)
    exact ⟨state, missed.trans State.hears_missed, by rw [count, State.hears_get (by decide)]⟩
  · refine ⟨_, exec_windowExpiry hm hh hw, ?_⟩
    rw [if_neg (by omega)]
    refine ⟨State.misses_missed.trans (by omega), ?_, ?_, ((Frame.refl _ s).put (.inl (by simp)) _).modHalf _ _⟩
    · simp [State.misses]
    · simp [State.misses]
      rfl
  · refine ⟨_, exec_windowExpiry hm hh hw, ?_⟩
    rw [if_pos (by omega)]
    have split : (s.misses h).get .BR_STATE h ≠ 1 := by rwa [State.misses_get (by decide)]
    obtain ⟨state, count, missed⟩ := State.enterIsland_state split
    refine ⟨missed.trans (State.misses_missed.trans (by omega)), state, by rw [count, State.misses_get (by decide)], ?_⟩
    rintro rfl
    exact State.enterIsland_holdover split
  · refine ⟨_, exec_releaseTimeout hm hh hw, ?_⟩
    obtain ⟨state, -, missed⟩ := State.enterIsland_state (s := s.put .BR_MISSED h 8) (h := h) (by rwa [State.get_put_of_ne s (by decide)])
    exact ⟨state, missed.trans (by simp [show Fld.width .BR_MISSED = 4 from rfl])⟩
  · exact if_pos (by simp [hw])
  · exact if_pos (by rcases hw with h | h <;> simp [h])

end Sys2Proof

/-! O51: half B on its own rings, the rejoin, and what crosses the bridge. -/

namespace Sys2Proof.Machine

section
variable {s : State} {h : Half}

/-- R46: an event of a half that runs its own rings does not cross the bridge. -/
theorem State.raise_bridge (own : s.manages h = true) (e : Ev) : (s.raise h e).bridge = s.bridge := by
  have K : KeptBySignals fun t => t.bridge = s.bridge := ⟨fun _ _ _ p => p, fun _ p => p, fun _ _ p => p⟩
  unfold State.raise
  extract_lets hs r r₁ r₂ r₃
  have runs : r₃.manages h = true := by
    have begun : (r₁.half h).promoted = (s.half h).promoted := by rw [State.half_modHalf_self]
    have same : (r₃.half h).promoted = (r₁.half h).promoted := by
      unfold r₃
      split
      · rw [State.sevHit_half (·.promoted) fun _ => rfl, State.perfHalf_half (·.promoted) fun _ => rfl]
      · exact State.perfHalf_half (·.promoted) (fun _ => rfl) _ _ _ _ _
    rwa [State.manages, same, begun]
  have logged : r₂.bridge = s.bridge := K.perf (s := r₁) (Half.perfBlk h) 0x03 1 rfl
  have hit : r₃.bridge = s.bridge := by
    unfold r₃
    split
    · exact K.sevHit h logged
    · exact logged
  clear_value r₃
  split_ifs
  · rfl
  · exact hit

/-! ### Promotion -/

/-- R46 and R47: half B runs its own rings, and nothing of it is on the bridge. -/
structure State.OwnRings (s : State) : Prop where
  promoted : (s.half halfB).promoted = true
  role : s.get .BR_ROLE halfB = 1
  run : s.get .HIF_RUN halfB = 1
  cmds : s.bridge.cmds = []
  recs : s.bridge.recs = []

theorem State.OwnRings.raise (p : s.OwnRings) (e : Ev) : (s.raise halfB e).OwnRings where
  promoted := by rw [(raise_same s halfB e).ofHalf (·.promoted) (fun _ => rfl), p.promoted]
  role := by rw [raise_get rfl, p.role]
  run := by rw [raise_get rfl, p.run]
  cmds := by rw [State.raise_bridge (by simp [State.manages, p.promoted]), p.cmds]
  recs := by rw [State.raise_bridge (by simp [State.manages, p.promoted]), p.recs]

theorem State.OwnRings.put (p : s.OwnRings) {f : Fld} (hr : f ≠ .BR_ROLE) (hn : f ≠ .HIF_RUN) (i v : Nat) : (s.put f i v).OwnRings :=
  ⟨p.promoted, (State.get_put_of_ne s hr.symm _ _ _).trans p.role, (State.get_put_of_ne s hn.symm _ _ _).trans p.run, p.cmds, p.recs⟩

theorem State.OwnRings.modHalf (p : s.OwnRings) (k : Half) {u : HalfS → HalfS} (hu : ∀ y, (u y).promoted = y.promoted) : (s.modHalf k u).OwnRings :=
  ⟨by
    rw [State.half_modHalf]
    split
    · next e => rw [hu, ← e, p.promoted]
    · exact p.promoted, p.role, p.run, p.cmds, p.recs⟩

theorem State.OwnRings.enableRing (p : s.OwnRings) (q : Fin 8) : (s.enableRing halfB q).OwnRings := by
  unfold State.enableRing
  dsimp only
  split
  · exact p
  · exact (p.put (by decide) (by decide) _ _).modHalf _ fun _ => by rfl

/-- A ring that is enabled stays so while others are. -/
theorem State.enableRing_enabled (s : State) (h : Half) (q : Fin 8) (i : Nat) (k : s.get .RING_EN i = 1 ∨ i = ringIdx h q) :
    (s.enableRing h q).get .RING_EN i = 1 := by
  unfold State.enableRing
  dsimp only
  split
  · next on =>
    rcases k with k | rfl
    · exact k
    · simpa [State.isSet] using on
  · rw [State.modRing, State.modHalf_get, State.get_put]
    split
    · rfl
    · next off => exact k.resolve_right fun e => off ⟨rfl, e⟩

theorem State.enableRings_enabled (s : State) (q : Fin 8) :
    (s.each (List.finRange 8) fun s q => s.enableRing halfB q).get .RING_EN (ringIdx halfB q) = 1 :=
  State.each_establishes (P := fun t => t.get .RING_EN (ringIdx halfB q) = 1) (List.mem_finRange q)
    (fun t => t.enableRing_enabled halfB q _ (.inr rfl)) fun t k p => t.enableRing_enabled halfB k _ (.inl p)

theorem State.ringsProgrammed_congr {t : State} (a : Split s t) : t.ringsProgrammed = s.ringsProgrammed := by
  have setup : (t.half halfB).setup = (s.half halfB).setup := congrArg (·.2.1) (a.half halfB)
  simp only [State.ringsProgrammed, setup, a.get .RING_SIZE_LOG2 _ rfl]

/-- Half B runs its own rings, and every one of them is enabled. -/
def State.AllRings (s : State) : Prop := s.OwnRings ∧ ∀ q : Fin 8, s.get .RING_EN (ringIdx halfB q) = 1

theorem State.AllRings.raise (p : s.AllRings) (e : Ev) : (s.raise halfB e).AllRings := ⟨p.1.raise e, fun q => (raise_get rfl _ _ _ _).trans (p.2 q)⟩

theorem State.AllRings.settleRings (p : s.AllRings) (h : Half) : (s.settleRings h).AllRings :=
  State.each_kept (P := State.AllRings) _
    (fun t k p => ⟨p.1.put (by decide) (by decide) _ _, fun q => (State.get_put_of_ne t (by decide) _ _ _).trans (p.2 q)⟩) p

theorem State.AllRings.dirty (p : s.AllRings) (h : Half) : (s.dirty h).AllRings := ⟨p.1.modHalf h fun _ => by rfl, p.2⟩

/-- R46 and R468: half B promotes itself when its rings are programmed. -/
theorem State.promote_programmed (hp : s.ringsProgrammed = true) : s.promote.AllRings := by
  unfold State.promote
  extract_lets sent r r₁ r₂ r₃ r₄
  have programmed : r.ringsProgrammed = true := (State.ringsProgrammed_congr (s.recallRecords_split.modBridge _)).trans hp
  have named : (r₁.put .HIF_RUN halfB 1).OwnRings :=
    ⟨by simp [r₁], by simp [r₁, State.get_put, show Fld.width .BR_ROLE = 1 from rfl], by simp [show Fld.width .HIF_RUN = 1 from rfl], rfl, rfl⟩
  have enabled : r₂.AllRings := ⟨State.each_kept (P := State.OwnRings) _ (fun t q p => p.enableRing q) named, State.enableRings_enabled _⟩
  have raised : r₄.AllRings := ((enabled.settleRings _).dirty _).raise _
  rw [if_neg (by simp [programmed])]
  exact State.each_kept (P := State.AllRings) _ (fun t c p => p.raise _) raised

/-- R47: half B finds its rings unprogrammed. -/
theorem State.promote_unprogrammed (hp : s.ringsProgrammed = false) :
    (s.promote.half halfB).promoted = (s.half halfB).promoted ∧ s.promote.get .HIF_NO_RINGS halfB = 1 := by
  unfold State.promote
  extract_lets sent r r₁ r₂ r₃ r₄
  have recalled : Split s r := s.recallRecords_split.modBridge _
  have unprogrammed : r.ringsProgrammed = false := (State.ringsProgrammed_congr recalled).trans hp
  rw [if_pos (by simp [unprogrammed])]
  clear_value r
  refine ⟨congrArg Prod.fst ((recalled.trans (r.hifNoRings_split halfB)).half halfB), ?_⟩
  unfold State.hifFlag
  split
  · next on => simpa [State.isSet] using on
  · rw [signal_get rfl]
    simp [show Fld.width .HIF_NO_RINGS = 1 from rfl]

end
end Sys2Proof.Machine

/-! O51: what begins and ends a rejoin. -/

namespace Sys2Proof.Machine

section
variable {s : State}

theorem State.now_modHalf_of_ne {h k : Half} (e : h ≠ k) (u : HalfS → HalfS) : (s.modHalf k u).now h = s.now h := by
  rw [State.now, State.half_modHalf, if_neg e]
  rfl

/-! ### Rejoin -/

/-- The fields that ending service of its rings writes. -/
def Fld.ofDrain : Fld → Bool
  | .HIF_RUN | .RING_EN | .RING_ACTIVE => true
  | _ => false

theorem State.settleRings_leaves {α : Type} {f : HalfS → α} (h : Half) : Leaves Fld.ofDrain f s (s.settleRings h) :=
  (Leaves.refl s).each fun t _ => (Leaves.refl t).put rfl _ _

theorem State.endDrain_leaves {α : Type} {f : HalfS → α} (h : Half) : Leaves Fld.ofDrain f s (s.endDrain h) := by
  unfold State.endDrain
  dsimp only
  split
  · exact Leaves.refl s
  · exact (((Leaves.refl s).put rfl _ _).each fun t _ => (Leaves.refl t).put rfl _ _).trans (State.settleRings_leaves h)

/-- What of a half stays when half B demotes: its time and its rate. -/
def HalfS.clockSet (y : HalfS) : Nat × Nat := (y.sec * 1000000000 + y.ns, y.addend)

/-- R468: half B runs its own rings no longer; its time stays. -/
theorem State.demote_leaves : ∃ r, Leaves Fld.ofDrain HalfS.clockSet s r ∧ (r.half halfB).promoted = false
    ∧ Leaves Fld.ofDrain (fun y => (y.clockSet, y.promoted)) (r.put .BR_ROLE halfB 0) s.demote := by
  unfold State.demote
  extract_lets r n r' r''
  have stopped : Leaves Fld.ofDrain HalfS.clockSet s r' :=
    ((Leaves.refl s).modHalf _ fun _ => by rfl).each fun t _ => (Leaves.refl t).modHalf _ fun _ => by rfl
  exact ⟨r'', stopped.modHalf _ fun _ => by rfl, by simp [r''], State.endDrain_leaves _⟩

theorem State.demote_get {f : Fld} (hf : f.ofDrain = false) (hr : f ≠ .BR_ROLE) (i : Nat) : s.demote.get f i = s.get f i := by
  obtain ⟨r, a, -, b⟩ := State.demote_leaves (s := s)
  rw [b.get f i hf, State.get_put_of_ne r hr, a.get f i hf]

theorem State.demote_clock (h : Half) : (s.demote.half h).clockSet = (s.half h).clockSet := by
  obtain ⟨r, a, -, b⟩ := State.demote_leaves (s := s)
  exact (congrArg Prod.fst (b.half h)).trans (a.half h)

theorem State.demote_role : (s.demote.half halfB).promoted = false ∧ s.demote.get .BR_ROLE halfB = 0 := by
  obtain ⟨r, -, role, b⟩ := State.demote_leaves (s := s)
  exact ⟨(congrArg Prod.snd (b.half halfB)).trans role, by rw [b.get _ _ rfl]; simp⟩

/-- The fields that a rejoin writes beside the states of the bridge. -/
def Fld.ofRejoin : Fld → Bool
  | .TIME_RATE | .TIME_ADDEND | .BR_ROLE => true
  | f => f.ofDrain

theorem Fld.ofRejoin_eq_false {f : Fld} (h : f.ofRejoin = false) : f.ofDrain = false ∧ f ≠ .BR_ROLE := by
  constructor
  · unfold Fld.ofRejoin at h
    split at h
    · contradiction
    · contradiction
    · contradiction
    · exact h
  · rintro rfl
    contradiction

/-- R48: both halves are REJOINING at half A's rate, and half B has demoted. -/
def State.rejoining (s : State) : State :=
  let s := (s.put .BR_STATE halfA bridgeRejoining).put .BR_STATE halfB bridgeRejoining
  let s := s.each allHalves fun s h => s.modHalf h fun y => { y with good := 0 }
  let s := (s.put .TIME_RATE halfB (s.get .TIME_RATE halfA)).put .TIME_ADDEND halfB (s.get .TIME_ADDEND halfA)
  let a := (s.half halfA).addend
  ((s.modHalf halfB fun y => { y with addend := a, corr := 0, corrs := [] }).dirty halfA).demote

theorem State.rejoining_get {f : Fld} (h : f.ofRejoin = false) (i : Nat) :
    s.rejoining.get f i = ((s.put .BR_STATE halfA bridgeRejoining).put .BR_STATE halfB bridgeRejoining).get f i := by
  unfold State.rejoining
  extract_lets r₁ r₂ r₃ a
  have rated : Leaves Fld.ofRejoin HalfS.clockSet r₁ r₃ :=
    (((Leaves.refl r₁).each fun t _ => (Leaves.refl t).modHalf _ fun _ => by rfl).put rfl _ _).put rfl _ _
  obtain ⟨drain, role⟩ := Fld.ofRejoin_eq_false h
  rw [State.demote_get drain role]
  exact rated.get f i h

theorem State.rejoining_states : s.rejoining.get .BR_STATE halfA = 2 ∧ s.rejoining.get .BR_STATE halfB = 2 := by
  rw [State.rejoining_get rfl, State.rejoining_get rfl]
  simp [State.get_put, bridgeRejoining, show Fld.width .BR_STATE = 2 from rfl]

theorem State.rejoining_role : (s.rejoining.half halfB).promoted = false ∧ s.rejoining.get .BR_ROLE halfB = 0 := State.demote_role

/-- Half A's time goes on; half B takes its rate. -/
theorem State.rejoining_clock : s.rejoining.now halfA = s.now halfA ∧ (s.rejoining.half halfB).addend = (s.half halfA).addend := by
  unfold State.rejoining
  extract_lets r₁ r₂ r₃ a
  have rated : Leaves Fld.ofRejoin HalfS.clockSet r₁ r₃ :=
    (((Leaves.refl r₁).each fun t _ => (Leaves.refl t).modHalf _ fun _ => by rfl).put rfl _ _).put rfl _ _
  have clock : (r₃.half halfA).clockSet = (s.half halfA).clockSet := rated.half halfA
  clear_value r₃
  constructor
  · refine congrArg Prod.fst ((State.demote_clock halfA).trans (Eq.trans ?_ clock))
    simp [State.dirty, State.half_modHalf, show halfA ≠ halfB by decide, HalfS.clockSet]
  · refine congrArg Prod.snd (State.demote_clock halfB) |>.trans (Eq.trans ?_ (congrArg Prod.snd clock))
    simp [State.dirty, State.half_modHalf, show halfB ≠ halfA by decide, HalfS.clockSet]
    rfl

/-- R48: with an offset beyond 1 µs half B waits for a second of half A. -/
theorem State.rejoinHalves_far (far : 16000 < (s.getS .TIME_B_OFFSET halfB).natAbs) : s.rejoinHalves =
    (s.rejoining.modHalf halfB fun y => { y with rejoinOffset := s.getS .TIME_B_OFFSET halfB }).modHalf halfB fun y =>
      { y with rejoinStepAt := some ((s.now halfA + 100000000 + 999999999) / 1000000000) } := by
  have steer : s.rejoining.getS .TIME_B_OFFSET halfB = s.getS .TIME_B_OFFSET halfB := by
    rw [State.getS, State.rejoining_get rfl]
    simp [State.get_put, State.getS]
  have goes (o : Int) : (s.rejoining.modHalf halfB fun y => { y with rejoinOffset := o }).now halfA = s.now halfA :=
    (State.now_modHalf_of_ne (by decide) _).trans State.rejoining_clock.1
  have nonzero : s.rejoining.getS .TIME_B_OFFSET halfB ≠ 0 := by omega
  have beyond : ¬ (s.rejoining.getS .TIME_B_OFFSET halfB).natAbs ≤ 16000 := by omega
  rw [← goes (s.getS .TIME_B_OFFSET halfB), ← steer]
  exact (if_neg nonzero).trans (if_neg beyond)

/-- R48: the thousandth good heartbeat on both sides of a split begins the rejoin. -/
theorem State.heartbeat_rejoins {b : Heartbeat} (hg : b.good = true) (hA : s.get .BR_STATE halfA = 1) (hB : s.get .BR_STATE halfB = 1)
    (gA : 999 ≤ (s.half halfA).good) (gB : 1000 ≤ (s.half halfB).good) :
    s.heartbeat halfA b = ((s.hears halfA).modHalf halfA fun y => { y with good := min 1000 (y.good + 1) }).rejoinHalves := by
  have state (h : Half) : (s.hears halfA).get .BR_STATE h = s.get .BR_STATE h := State.hears_get (by decide) _
  have mine : (s.hears halfA).get .BR_STATE halfA = 1 := (state halfA).trans hA
  have goodA : (((s.hears halfA).modHalf halfA fun y => { y with good := min 1000 (y.good + 1) }).half halfA).good = min 1000 ((s.half halfA).good + 1) := by
    simp [State.hears]
  have goodB : (((s.hears halfA).modHalf halfA fun y => { y with good := min 1000 (y.good + 1) }).half halfB).good = (s.half halfB).good := by
    simp [State.hears, State.half_modHalf, show halfB ≠ halfA by decide]
  unfold State.heartbeat
  rw [if_neg (by simp [hg])]
  change (if (s.hears halfA).get .BR_STATE halfA = bridgeJoined then _ else if (s.hears halfA).get .BR_STATE halfA = bridgeRejoining then _ else _) = _
  rw [mine, if_neg (by decide), if_neg (by decide)]
  exact if_pos ⟨by rw [if_neg (by decide)]; exact goodA ▸ (by omega), by rw [if_neg (by decide)]; exact goodB ▸ gB, by
    rw [if_neg (by decide)]
    exact (state halfB).trans hB⟩

/-! ### A step at rejoin -/

/-- The time of a half. -/
def HalfS.time (y : HalfS) : Nat × Nat × Nat := (y.sec, y.ns, y.frac)

/-- Whatever fields it writes, the time of each half stays. -/
abbrev TimeKept (s t : State) : Prop := Leaves (fun _ => true) HalfS.time s t

theorem State.showPending_time (h : Half) : TimeKept s (s.showPending h) :=
  (((((Leaves.refl s).put rfl _ _).put rfl _ _).put rfl _ _).put rfl _ _ |>.put rfl _ _).put rfl _ _

theorem TimeKept.complete {t : State} (a : TimeKept s t) (c : Cmd) (r : Res) : TimeKept s (t.complete c r) :=
  Leaves.complete (fun _ _ => rfl) (fun _ => rfl) a c r

theorem State.restep_time (h : Half) : TimeKept s (s.restep h) := by
  unfold State.restep
  extract_lets new of gone kept r
  have dropped : TimeKept s r := (Leaves.refl s).modHalf _ fun _ => by rfl
  exact (dropped.each fun t _ => TimeKept.complete (Leaves.refl t) _ _).trans (State.showPending_time h)

theorem TimeKept.option {t : State} {u : Nat → State} (o : Option Nat) (hn : TimeKept s t) (hs : ∀ w, TimeKept s (u w)) :
    TimeKept s (match o with
      | none => t
      | some w => u w) := by
  cases o with
  | none => exact hn
  | some w => exact hs w

theorem State.restepSnaps_time (h : Half) : TimeKept s (s.restepSnaps h) := by
  unfold State.restepSnaps
  refine (Leaves.refl s).each fun t x => TimeKept.option x.t (Leaves.refl t) fun w => ?_
  cases restepOf x.cmd w (s.now h) with
  | stays => exact Leaves.refl t
  | late n => exact (Leaves.refl t).modHalf _ fun _ => by rfl
  | gone r => exact (TimeKept.complete ((Leaves.refl t).each fun r _ => (Leaves.refl r).modHalf _ fun _ => by rfl) _ _).ite (Leaves.refl t)

theorem State.showSlew_time (h : Half) : TimeKept s (s.showSlew h) := ((Leaves.refl s).put rfl _ _).put rfl _ _

/-- R383: after a step SEC and NS read what it set. -/
theorem State.stepTo_time (h : Half) (sec ns : Nat) : ((s.stepTo h sec ns).half h).time = (sec, ns, 0) := by
  unfold State.stepTo
  rw [(State.showSlew_time h).half, (State.restepSnaps_time h).half, (State.restep_time h).half, State.half_modHalf_self]
  rfl

theorem State.finishRejoin_time (stepped : Bool) : TimeKept s (s.finishRejoin stepped) :=
  Leaves.raise (fun _ _ => rfl) (fun _ => rfl)
    (((((Leaves.refl s).modHalf _ fun _ => by rfl).put rfl _ _).put rfl _ _).put rfl _ _ |>.modHalf _ fun _ => by rfl) _ _

/-- R48: both halves are joined and no step is planned. -/
theorem State.finishRejoin_joined (stepped : Bool) : (s.finishRejoin stepped).get .BR_STATE halfA = 0 ∧ (s.finishRejoin stepped).get .BR_STATE halfB = 0
    ∧ (s.finishRejoin stepped).get .TIME_SYNC halfB = 1 ∧ ((s.finishRejoin stepped).half halfB).rejoinStepAt = none := by
  unfold State.finishRejoin
  dsimp only
  rw [raise_get rfl, raise_get rfl, raise_get rfl, (raise_same _ _ _).ofHalf (·.rejoinStepAt) fun _ => rfl]
  simp [State.dirty, State.get_put, State.half_modHalf, show halfB ≠ halfA by decide, show Fld.width .TIME_SYNC = 2 from rfl]

end
end Sys2Proof.Machine

/-! O51: what crosses the bridge. -/

namespace Sys2Proof.SameBut

open Machine

variable {s t : State} (a : SameBut Fld.follows s t)
include a

theorem invalid (o : Option Opc) (r : Req) : t.invalid o r = s.invalid o r := by
  simp only [State.invalid, State.scopeBad, State.paramBad, a.portLanes]
  rfl

theorem managing (h : Half) : t.managing h = s.managing h := by
  simp only [State.managing, a.running, a.get .BOOT_STATE _ rfl]

theorem split (h : Half) : t.split h = s.split h := by
  simp only [State.split, a.get .BR_STATE _ rfl]

theorem served (o : Opc) (r : Req) : t.served o r = s.served o r := by
  simp only [State.served, State.kndOut, State.scopeGroups, State.scopeLanes, a.portLanes, a.get .KND_STATE _ rfl]

end Sys2Proof.SameBut

namespace Sys2Proof.Machine

section
variable {s : State} {h : Half}

/-- A NOP waits for no limit: only a Kneader out of service makes it BUSY. -/
theorem State.busyReason_nop {r : Req} (hr : r.sched = false) : s.busyReason h .nop r = if s.served .nop r then none else some 0x36 := by
  simp [State.busyReason, hr]
  split <;> simp_all

theorem perfHalf_bridge (s : State) (h : Half) (e n : Nat) : (s.perfHalf h e n).bridge = s.bridge :=
  (KeptBySignals.mk (P := fun t => t.bridge = s.bridge) (fun _ _ _ p => p) (fun _ p => p) (fun _ _ p => p)).perf _ _ _ rfl

theorem State.nextOrder_half (s : State) : s.nextOrder.2.half = s.half := rfl

theorem State.nextOrder_bridge (s : State) : s.nextOrder.2.bridge = s.bridge := rfl

theorem State.nextOrder_frame {W : List (Fld × Nat)} {t : State} (a : Frame W s t) : Frame W s t.nextOrder.2 := { a with }

theorem State.bridge_modBridge (u : BridgeS → BridgeS) : (s.modBridge u).bridge = u s.bridge := rfl

/-- A command with its time of acceptance, in both forms, and its place in the order. -/
def Cmd.accepted (c : Cmd) (t40 base order : Nat) : Cmd := { c with t40 := t40, base := base, order := order }

theorem Cmd.accepted_org (c : Cmd) (t b o : Nat) : (c.accepted t b o).org = c.org := rfl
theorem Cmd.accepted_exe (c : Cmd) (t b o : Nat) : (c.accepted t b o).exe = c.exe := rfl

/-- What a NOP that is accepted says of itself. -/
theorem Cmd.accepted_cpl (c : Cmd) (t b o at' : Nat) : ((c.accepted t b o).cpl ((c.accepted t b o).timed at')).tag = c.req.tag
    ∧ ((c.accepted t b o).cpl ((c.accepted t b o).timed at')).status = if c.late = 0 then 0 else 1 := ⟨rfl, rfl⟩

/-- A command as the executing half accepts it: with its time and its place in the order. -/
abbrev State.accepts (s : State) (c : Cmd) : Cmd := c.accepted (s.n40 c.exe) (s.now c.exe) s.nextOrder.1

/-- A NOP that a half accepts at once completes in its time. -/
theorem State.accept_nop {c : Cmd} (op : c.op = .nop) (at' : c.req.sched = false) (free : s.busyReason c.exe .nop c.req = none) :
    s.accept c = s.nextOrder.2.complete (s.accepts c) ((s.accepts c).timed (s.now c.exe)) := by
  have served : s.nextOrder.2.served .nop c.req = s.served .nop c.req := rfl
  have still : s.nextOrder.2.busyReason c.exe .nop c.req = none := by rwa [State.busyReason_nop at', served, ← State.busyReason_nop at']
  simp [State.accept, op, still, State.needsTested, at', State.execute, Opc.fenceChecked, Opc.inStandby, State.effect, State.doNop, State.timedOk]
  rfl

/-- R457: what half B has done for half A is sent over the bridge. -/
theorem State.complete_crosses {c : Cmd} (org : c.org = halfA) (exe : c.exe = halfB) (own : (s.half halfB).promoted = false) (r : Res) :
    s.complete c r = (s.perfHalf halfB 0x0B).modBridge fun b => { b with cpls := b.cpls ++ [c.cpl r] } := by
  unfold State.complete
  rw [if_neg (by rw [org, exe]; decide), exe, if_neg (by simp [own])]

end

/-! ### What half A receives -/

section
variable {s : State} {rest : List BRec}

/-- A record from half B has been taken off the bridge. -/
def State.unloads (s : State) (rest : List BRec) : State := (s.modBridge fun b => { b with recs := rest }).perfHalf halfA 0x0C

theorem State.unloads_frame (W : List (Fld × Nat)) : Frame W s (s.unloads rest) := ((Frame.refl W s).modBridge _).perfHalf _ _ _

theorem State.unloads_recs : (s.unloads rest).bridge.recs = rest := by
  rw [State.unloads, perfHalf_bridge]
  rfl

theorem State.unloads_half {α : Type} (f : HalfS → α) (hf : ∀ y : HalfS, f { y with msixPend := [] } = f y) (h : Half) :
    f ((s.unloads rest).half h) = f (s.half h) := State.perfHalf_half f hf _ _ _ _ _

/-- Half A takes a record in. -/
def State.takesIn (s : State) (r : BRec) : State :=
  match r with
  | .evt e => s.modHalf halfA fun y => { y with evts := y.evts ++ [e] }
  | .tlm t => s.modHalf halfA fun y => { y with tlms := y.tlms ++ [t] }
  | .ts x => s.pushRecord halfA x

theorem exec_recordReceive {r : BRec} (hr : s.bridge.recs = r :: rest) (hi : s.get .BR_STATE halfA ≠ 1) :
    exec .bridgeRecordReceive s = .next (settle ((s.unloads rest).takesIn r)) := by
  change execBridgeRecordReceive s = _
  unfold execBridgeRecordReceive
  split
  · simp_all
  · next _ _ h =>
    obtain ⟨rfl, rfl⟩ := List.cons.inj (hr.symm.trans h)
    exact if_neg hi

/-- R399: a record for which the queue has room enters it. -/
theorem State.pushRecord_room {h : Half} (room : (s.half h).tsq.length < 64) (x : List W32) : s.pushRecord h x =
    (s.modHalf h fun y => { y with tsq := y.tsq ++ [x], tsqDropping := false }).put .TIME_TSQ_FILL h ((s.half h).tsq.length + 1) := if_pos room

end

section
variable {s : State}

theorem exec_rejoinTimeStep {k : Nat} (hk : (s.half halfB).rejoinStepAt = some k) : exec .rejoinTimeStep s =
    if (s.half halfA).sec < k then .next (settle s)
    else .next (settle (((s.stepTo halfB (s.half halfA).sec (s.half halfA).ns).modHalf halfB fun y => { y with frac := (s.half halfA).frac }).finishRejoin true)) := by
  change execRejoinTimeStep s = _
  rw [execRejoinTimeStep, hk]
  rfl

/-- Half A has answered the command that a completion from half B belongs to. -/
def State.arrive (s : State) (c : Cpl) (cs : List Cpl) : State :=
  (((s.modBridge fun b => { b with cpls := cs }).perfHalf halfA 0x0C).modHalf halfA fun y =>
    { y with fwd := y.fwd.eraseP (fun (k : Cmd) => k.req.tag == c.tag && k.req.ring == c.ring && k.req.index == c.index), cpls := y.cpls ++ [c] }).freeRing
    halfA c.ring

section
variable {c : Cpl} {cs : List Cpl} {k : Cmd}

theorem State.arrive_cpls : ((s.arrive c cs).half halfA).cpls = (s.half halfA).cpls ++ [c] := by
  rw [State.arrive, State.freeRing, State.half_modHalf_self, State.half_modHalf_self]
  exact congrArg (· ++ [c]) (State.perfHalf_half (·.cpls) (fun _ => rfl) _ _ _ _ _)

theorem State.arrive_bridge : (s.arrive c cs).bridge.cpls = cs := by
  simp [State.arrive, State.freeRing, perfHalf_bridge, State.bridge_modBridge]

theorem State.arrive_frame : Frame [] s (s.arrive c cs) :=
  ((((Frame.refl _ s).modBridge _).perfHalf _ _ _).modHalf _ _).ofSame (freeRing_same _ _ _)

variable (hf : (s.half halfA).fwd = [k]) (tag : k.req.tag = c.tag) (ring : k.req.ring = c.ring) (index : k.req.index = c.index)
include hf tag ring index

theorem State.arrive_fwd : ((s.arrive c cs).half halfA).fwd = [] := by
  have waits : (((s.modBridge fun b => { b with cpls := cs }).perfHalf halfA 0x0C).half halfA).fwd = [k] :=
    (State.perfHalf_half (·.fwd) (fun _ => rfl) _ _ _ _ _).trans hf
  rw [State.arrive, State.freeRing, State.half_modHalf_self, State.half_modHalf_self, waits]
  simp [tag, ring, index]

theorem exec_completionReceive (hc : s.bridge.cpls = c :: cs) : exec .bridgeCompletionReceive s = .next (settle (s.arrive c cs)) := by
  change execBridgeCompletionReceive s = _
  unfold execBridgeCompletionReceive
  split
  · simp_all
  · next _ _ h =>
    obtain ⟨rfl, rfl⟩ := List.cons.inj (hc.symm.trans h)
    refine if_pos ?_
    rw [State.perfHalf_half (·.fwd) fun _ => rfl]
    change (s.half halfA).fwd.any _ = true
    rw [hf]
    simp [tag, ring, index]

end

/-- The command at the head of the bridge has been taken off it. -/
def State.unboards (s : State) (rest : List Cmd) : State :=
  ((s.modBridge fun b => { b with cmds := rest }).perfHalf halfB 0x0C).perfHalf halfB 0x01

theorem State.unboards_same (rest : List Cmd) : SameBut Fld.follows s (s.unboards rest) :=
  (perfHalf_iff _ _ _).2 ((perfHalf_iff _ _ _).2 ((SameBut.modBridge_iff _).2 (SameBut.refl _ s)))

theorem State.unboards_bridge (rest : List Cmd) : (s.unboards rest).bridge = { s.bridge with cmds := rest } := by
  rw [State.unboards, perfHalf_bridge, perfHalf_bridge]
  rfl

/-- R453: a command that has been found invalid, for a reason, or valid. -/
def State.judged (s : State) (c : Cmd) (why : Option Nat) : State :=
  match why with
  | some e => s.complete c ⟨4, e, 0, 0⟩
  | none => s.accept c

theorem exec_commandReceive {c : Cmd} {rest : List Cmd} (hc : s.bridge.cmds = c :: rest) (hm : s.managing halfB = true) (hs : s.split halfB = false) :
    exec .bridgeCommandReceive s = .next (settle ((s.unboards rest).judged c (s.invalid (some c.op) c.req))) := by
  have first : SameBut Fld.follows s ((s.modBridge fun b => { b with cmds := rest }).perfHalf halfB 0x0C) :=
    (perfHalf_iff _ _ _).2 ((SameBut.modBridge_iff _).2 (SameBut.refl _ s))
  change execBridgeCommandReceive s = _
  unfold execBridgeCommandReceive
  split
  · simp_all
  · next _ _ h =>
    obtain ⟨rfl, rfl⟩ := List.cons.inj (hc.symm.trans h)
    rw [← (State.unboards_same rest).invalid]
    exact if_neg (by simp [first.managing, first.split, hm, hs])

end
end Sys2Proof.Machine

namespace Sys2Proof

open Machine

/-- The entry to ISLAND promotes neither half before half B promotes itself. -/
theorem Machine.Split.promoted {s t : State} (a : Split s t) (h : Half) : (t.half h).promoted = (s.half h).promoted := congrArg Prod.fst (a.half h)

section
variable {s : State}

/-- R46: what half B must know to enter ISLAND by the timeout. -/
theorem releaseTimeout_halfB (hm : s.managing halfB = true) (hh : (s.half halfB).heard = false)
    (hw : (s.half halfB).releasedAt + msTicks 1000 ≤ s.ticks halfB) (hi : s.get .BR_STATE halfB ≠ 1) :
    ∃ r : State, exec (.releaseHeartbeatTimeout halfB) s = .next (settle r.promote) ∧ r.ringsProgrammed = s.ringsProgrammed
      ∧ (r.half halfB).promoted = (s.half halfB).promoted := by
  have split : (s.put .BR_MISSED halfB 8).get .BR_STATE halfB ≠ 1 := by rwa [State.get_put_of_ne s (by decide)]
  let e := (s.put .BR_MISSED halfB 8).entered halfB
  have setup : (e.half halfB).setup = (s.half halfB).setup := by simp [e, State.entered, State.dirty]
  have entered : e.ringsProgrammed = s.ringsProgrammed := by
    have size (i : Nat) : e.get .RING_SIZE_LOG2 i = s.get .RING_SIZE_LOG2 i := by simp [e, State.entered, State.dirty, State.incSat, State.get_put]
    simp only [State.ringsProgrammed, setup, size]
  have promoted : (e.half halfB).promoted = (s.half halfB).promoted := by simp [e, State.entered, State.dirty]
  refine ⟨e.severed.holdoverB, ?_, ?_, ?_⟩
  · rw [exec_releaseTimeout hm hh hw, State.enterIsland_halfB split]
  · have severed := State.ringsProgrammed_congr e.severed_split
    have held : e.severed.holdoverB.ringsProgrammed = e.severed.ringsProgrammed := by
      simp only [State.ringsProgrammed, State.holdoverB_get (f := .RING_SIZE_LOG2) (by decide)]
      simp [State.holdoverB]
    exact held.trans (severed.trans entered)
  · have severed : (e.severed.half halfB).promoted = (e.half halfB).promoted := e.severed_split.promoted halfB
    simp [State.holdoverB, severed, promoted]

end

/-- R48: the thousandth good heartbeat, with an offset beyond 1 µs. -/
theorem heartbeatReceive_rejoins {s : State} {b : Heartbeat} (hm : s.managing halfA = true) (hg : b.good = true) (hA : s.get .BR_STATE halfA = 1)
    (hB : s.get .BR_STATE halfB = 1) (gA : 999 ≤ (s.half halfA).good) (gB : 1000 ≤ (s.half halfB).good)
    (far : 16000 < (s.getS .TIME_B_OFFSET halfB).natAbs) : Does (.heartbeatReceive halfA b) s fun t =>
      t.get .BR_STATE halfA = 2 ∧ t.get .BR_STATE halfB = 2 ∧ (t.half halfB).promoted = false ∧ t.get .BR_ROLE halfB = 0
        ∧ (t.half halfB).rejoinStepAt = some ((s.now halfA + 100000000 + 999999999) / 1000000000) ∧ (t.half halfB).addend = (s.half halfA).addend := by
  let u := (s.hears halfA).modHalf halfA fun y => { y with good := min 1000 (y.good + 1) }
  have offset : u.getS .TIME_B_OFFSET halfB = s.getS .TIME_B_OFFSET halfB := congrArg (toSigned _) (State.hears_get (by decide) _)
  have now : u.now halfA = s.now halfA := by simp [u, State.now, State.hears]
  have addend : (u.half halfA).addend = (s.half halfA).addend := by simp [u, State.hears]
  refine ⟨_, exec_heartbeatReceive hm, ?_⟩
  rw [State.heartbeat_rejoins hg hA hB gA gB, State.rejoinHalves_far (by rwa [offset])]
  simp only [State.modHalf_get, State.half_modHalf_self]
  exact ⟨State.rejoining_states.1, State.rejoining_states.2, State.rejoining_role.1, State.rejoining_role.2, by rw [now], State.rejoining_clock.2.trans addend⟩

/-- R48: half B steps to half A's time, and the halves are joined. -/
theorem rejoinTimeStep_joins {s : State} {k : Nat} (hk : (s.half halfB).rejoinStepAt = some k) (hs : k ≤ (s.half halfA).sec) :
    Does .rejoinTimeStep s fun t =>
      (t.half halfB).sec = (s.half halfA).sec ∧ (t.half halfB).ns = (s.half halfA).ns ∧ (t.half halfB).frac = (s.half halfA).frac
        ∧ (t.half halfB).rejoinStepAt = none ∧ t.get .BR_STATE halfA = 0 ∧ t.get .BR_STATE halfB = 0 ∧ t.get .TIME_SYNC halfB = 1 := by
  refine ⟨_, (exec_rejoinTimeStep hk).trans (if_neg (by omega)), ?_⟩
  let u := (s.stepTo halfB (s.half halfA).sec (s.half halfA).ns).modHalf halfB fun y => { y with frac := (s.half halfA).frac }
  have time : (u.half halfB).time = ((s.half halfA).sec, (s.half halfA).ns, (s.half halfA).frac) := by
    have stepped := State.stepTo_time (s := s) halfB (s.half halfA).sec (s.half halfA).ns
    simp only [HalfS.time, Prod.mk.injEq] at stepped
    simp [u, HalfS.time, stepped]
  have kept := ((State.finishRejoin_time (s := u) true).half halfB).trans time
  simp only [HalfS.time, Prod.mk.injEq] at kept
  obtain ⟨stateA, stateB, sync, planned⟩ := State.finishRejoin_joined (s := u) true
  exact ⟨kept.1, kept.2.1, kept.2.2, planned, stateA, stateB, sync⟩

/-- R457: half B executes a NOP of half A's and sends its completion back. -/
theorem commandReceive_nop {s : State} {c : Cmd} {rest : List Cmd} (hc : s.bridge.cmds = c :: rest) (hm : s.managing halfB = true)
    (hi : s.get .BR_STATE halfB ≠ 1) (op : c.op = .nop) (exe : c.exe = halfB) (org : c.org = halfA) (at' : c.req.sched = false)
    (valid : s.invalid (some .nop) c.req = none) (free : s.busyReason halfB .nop c.req = none) (own : (s.half halfB).promoted = false) :
    Does .bridgeCommandReceive s fun t =>
      t.bridge.cmds = rest ∧ t.bridge.cpls.map (fun x => (x.tag, x.status)) = s.bridge.cpls.map (fun x => (x.tag, x.status)) ++ [(c.req.tag, if c.late = 0 then 0 else 1)]
        ∧ Frame [] s t := by
  refine ⟨_, exec_commandReceive hc hm (by simpa [State.split, bridgeIsland] using hi), ?_⟩
  have same := State.unboards_same (s := s) rest
  have served : (s.unboards rest).busyReason c.exe .nop c.req = none := by
    rwa [State.busyReason_nop at', same.served, ← State.busyReason_nop (h := halfB) at']
  have still : ((s.unboards rest).nextOrder.2.half halfB).promoted = false := by
    rw [State.nextOrder_half, same.ofHalf (·.promoted) fun _ => rfl, own]
  rw [op, valid, State.judged, State.accept_nop op at' served, State.complete_crosses ((c.accepted_org _ _ _).trans org) ((c.accepted_exe _ _ _).trans exe) still]
  have bridge : ((s.unboards rest).nextOrder.2.perfHalf halfB 0x0B).bridge = { s.bridge with cmds := rest } := by
    rw [perfHalf_bridge, State.nextOrder_bridge, State.unboards_bridge]
  have accepted : Frame [] s (s.unboards rest).nextOrder.2 := State.nextOrder_frame ((Frame.refl [] s).ofSame same)
  beta_reduce
  rw [State.bridge_modBridge, bridge]
  refine ⟨rfl, ?_, Frame.modBridge (accepted.perfHalf halfB 0x0B 1) _⟩
  obtain ⟨tag, status⟩ := c.accepted_cpl ((s.unboards rest).n40 c.exe) ((s.unboards rest).now c.exe) (s.unboards rest).nextOrder.1 ((s.unboards rest).now c.exe)
  simp only [List.map_append, List.map_cons, List.map_nil, tag, status]

/-- Settles O51, clause by clause: promotion, its refusal, the rejoin with its step, and what crosses the bridge. -/
theorem islandAndRejoin : Obligations.IslandAndRejoin := by
  refine ⟨fun s hm hh hw hi hp _ => ?_, fun s hm hh hw hi hp hn => ?_, fun s b hm hg hA hB gA gB far => ?_, fun s k hk hs => ?_, fun s k hk hs => ?_,
    fun s c rest k hc hf tag ring index => ?_, fun s hc => ?_, fun s e rest hr hi => ?_, fun s x rest hr hi => ?_, fun s x rest hr hi room => ?_,
    fun s c rest hc hm hs => ?_, fun s c rest hc hm hi op exe org at' valid free own => ?_⟩
  · obtain ⟨r, hr, programmed, -⟩ := releaseTimeout_halfB hm hh hw hi
    obtain ⟨p, rings⟩ := State.promote_programmed (programmed.trans hp)
    exact ⟨_, hr, p.promoted, p.role, p.run, rings, p.cmds, p.recs⟩
  · obtain ⟨r, hr, programmed, promoted⟩ := releaseTimeout_halfB hm hh hw hi
    obtain ⟨role, flag⟩ := State.promote_unprogrammed (programmed.trans hp)
    exact ⟨_, hr, role.trans (promoted.trans hn), flag⟩
  · exact heartbeatReceive_rejoins hm hg hA hB gA gB far
  · exact rejoinTimeStep_joins hk hs
  · exact (exec_rejoinTimeStep hk).trans (if_pos hs)
  · exact ⟨_, exec_completionReceive hf tag ring index hc, State.arrive_cpls, State.arrive_fwd hf tag ring index, State.arrive_bridge, State.arrive_frame⟩
  · change execBridgeCompletionReceive s = _
    unfold execBridgeCompletionReceive
    split
    · rfl
    · simp_all
  · refine ⟨_, exec_recordReceive hr hi, ?_⟩
    rw [State.takesIn]
    refine ⟨?_, ?_, (State.unloads_frame _).modHalf _ _⟩
    · rw [State.half_modHalf_self, State.unloads_half (·.evts) fun _ => rfl]
    · rw [State.modHalf_bridge, State.unloads_recs]
  · refine ⟨_, exec_recordReceive hr hi, ?_⟩
    rw [State.takesIn]
    refine ⟨?_, ?_, (State.unloads_frame _).modHalf _ _⟩
    · rw [State.half_modHalf_self, State.unloads_half (·.tlms) fun _ => rfl]
    · rw [State.modHalf_bridge, State.unloads_recs]
  · have queue : ((s.unloads rest).half halfA).tsq = (s.half halfA).tsq := State.unloads_half (·.tsq) (fun _ => rfl) _
    refine ⟨_, exec_recordReceive hr hi, ?_⟩
    rw [State.takesIn, State.pushRecord_room (by rwa [queue])]
    refine ⟨?_, ?_, ((State.unloads_frame _).modHalf _ _).put (.inl (by simp)) _⟩
    · simp [queue]
    · rw [State.put_bridge, State.modHalf_bridge, State.unloads_recs]
  · refine ⟨_, exec_commandReceive hc hm hs, ?_⟩
    cases s.invalid (some c.op) c.req <;> rfl
  · exact commandReceive_nop hc hm hi op exe org at' valid free own

end Sys2Proof

/-! What an operation on lanes and slices leaves: the register fields outside a set, the applied values, and what a function reads of a lane and of a
group. -/

namespace Sys2Proof

open Machine

/-- Every field outside `W` and every applied value reads as before, and so does what `f` takes of each lane and `g` of each group. -/
structure Retains (W : Fld → Bool) {α β : Type} (f : LaneS → α) (g : GroupS → β) (s t : State) : Prop where
  get : ∀ x i, W x = false → t.get x i = s.get x i
  ap : t.ap = s.ap
  lane : ∀ l, f (t.lane l) = f (s.lane l)
  group : ∀ k, g (t.group k) = g (s.group k)

namespace Retains

variable {W : Fld → Bool} {α β : Type} {f : LaneS → α} {g : GroupS → β} {s t r : State}

theorem refl (s : State) : Retains W f g s s := ⟨fun _ _ _ => rfl, rfl, fun _ => rfl, fun _ => rfl⟩

theorem trans (a : Retains W f g s t) (b : Retains W f g t r) : Retains W f g s r :=
  ⟨fun x i h => (b.get x i h).trans (a.get x i h), b.ap.trans a.ap, fun l => (b.lane l).trans (a.lane l), fun k => (b.group k).trans (a.group k)⟩

theorem weaken {V : Fld → Bool} {γ δ : Type} {f' : LaneS → γ} {g' : GroupS → δ} (h : ∀ x, W x = true → V x = true) (a : Retains W id id s t) :
    Retains V f' g' s t :=
  ⟨fun x i hx => a.get x i (by_contra fun k => by simp [h x (by simpa using k)] at hx), a.ap, fun l => congrArg f' (a.lane l),
    fun k => congrArg g' (a.group k)⟩

/-- The applied value of a shadow field is as before. -/
theorem app (a : Retains W f g s t) {x : Fld} (h : x.info.shadow = true) (i : Nat) : t.app x i = s.app x i := by
  rw [State.app, State.app, if_pos h, if_pos h, a.ap]

theorem put (a : Retains W f g s t) {x : Fld} (h : W x = true) (j v : Nat) : Retains W f g s (t.put x j v) :=
  { a with get := fun k i hk => (State.get_put_of_ne t (fun e => by simp [e, h] at hk) i j v).trans (a.get k i hk) }

theorem modLane (a : Retains W f g s t) (k : Lane) {u : LaneS → LaneS} (h : ∀ y, f (u y) = f y) : Retains W f g s (t.modLane k u) :=
  ⟨a.get, a.ap, fun x => by
    rw [State.lane_modLane, ← a.lane]
    split
    · next e => rw [h, e]
    · rfl, a.group⟩

theorem modGroup (a : Retains W f g s t) (k : Group) {u : GroupS → GroupS} (h : ∀ y, g (u y) = g y) : Retains W f g s (t.modGroup k u) :=
  ⟨a.get, a.ap, a.lane, fun x => by
    rw [State.group_modGroup, ← a.group]
    split
    · next e => rw [h, e]
    · rfl⟩

theorem modHalf (a : Retains W f g s t) (k : Half) (u : HalfS → HalfS) : Retains W f g s (t.modHalf k u) := { a with }
theorem modChain (a : Retains W f g s t) (k : ChainN) (u : ChainS → ChainS) : Retains W f g s (t.modChain k u) := { a with }
theorem modFi (a : Retains W f g s t) (k : Fin 32) (u : FiS → FiS) : Retains W f g s (t.modFi k u) := { a with }
theorem setDmt (a : Retains W f g s t) (l : Lane) (table tone v : Nat) : Retains W f g s (t.setDmt l table tone v) := { a with }
theorem draw (a : Retains W f g s t) : Retains W f g s t.draw.2 := { a with }

theorem ite {c : Prop} [Decidable c] {x y : State} (a : Retains W f g s x) (b : Retains W f g s y) : Retains W f g s (if c then x else y) := by
  split
  · exact a
  · exact b

theorem each {γ : Type} {u : State → γ → State} {xs : List γ} (a : Retains W f g s t) (h : ∀ t x, Retains W f g t (u t x)) : Retains W f g s (t.each xs u) :=
  State.each_kept xs (fun r x b => b.trans (h r x)) a

section
variable (hW : ∀ x, x.counted = true → W x = true)
include hW

/-- Counted occurrences, events and completions touch no lane and no group. -/
theorem keptByEvents (f : LaneS → α) (g : GroupS → β) (s : State) : KeptByEvents (Retains W f g s) where
  put j v hx a := a.put (hW _ hx) j v
  emit _ a := { a with }
  pend h _ a := a.modHalf h _
  half h _ _ a := a.modHalf h _
  bridge _ a := { a with }

theorem raise (a : Retains W f g s t) (h : Half) (e : Ev) : Retains W f g s (t.raise h e) := (keptByEvents hW f g s).raise h e a
theorem complete (a : Retains W f g s t) (c : Cmd) (r : Res) : Retains W f g s (t.complete c r) := (keptByEvents hW f g s).complete c r a

theorem perfLane (a : Retains W f g s t) (l : Lane) (e n : Nat) : Retains W f g s (t.perfLane l e n) := by
  unfold State.perfLane
  exact ite ((keptByEvents hW f g s).perf _ e n a) a

end

theorem ofSame (hW : ∀ x, x.follows = true → W x = true) (hf : ∀ y : LaneS, f y.base = f y) (hg : ∀ y : GroupS, g y.base = g y) (a : Retains W f g s t)
    (b : SameBut Fld.follows t r) : Retains W f g s r :=
  a.trans ⟨fun x i h => b.get x i (by_contra fun k => by simp [hW x (by simpa using k)] at h), b.ap, b.laneOf f hf, b.groupOf g hg⟩

end Retains
end Sys2Proof

/-! ### Repairs -/

namespace Sys2Proof.Machine

/-- The fields that a record in the repair log writes. -/
def Fld.ofRepairs : Fld → Bool
  | .REL_LOG_USED | .REL_LOG_FULL | .PH_AREA_OK | .PH_USED_KIB => true
  | f => f.counted

theorem Fld.ofRepairs_of_counted (f : Fld) (h : f.counted = true) : f.ofRepairs = true := by
  unfold Fld.ofRepairs
  split
  · rfl
  · rfl
  · rfl
  · rfl
  · exact h

theorem State.logRepair_retains (s : State) (h : Half) (kind unit : Nat) : Retains Fld.ofRepairs id id s (s.logRepair h kind unit) := by
  unfold State.logRepair
  refine Retains.ite (((((Retains.refl s).modHalf _ _).put rfl _ _).put rfl _ _).put rfl _ _) (Retains.ite (Retains.refl s) ?_)
  exact ((Retains.refl s).put rfl _ _).raise Fld.ofRepairs_of_counted _ _

/-! ### The spare slice is freed for a lane -/

/-- The fields that freeing a spare slice may write: all but whether the group has one. -/
def Fld.notSpare : Fld → Bool
  | .SP_SLICE_SPARE => false
  | _ => true

theorem Fld.notSpare_of_follows (x : Fld) (h : x.follows = true) : x.notSpare = true := by
  unfold Fld.notSpare
  split
  · exact absurd h (by decide)
  · rfl

/-- The spare slices, the applied values, the fences of the lanes and the crossbars are as before. -/
abbrev SparesKept (s t : State) : Prop := Retains Fld.notSpare LaneS.fences GroupS.xbar s t

namespace SparesKept

variable {s t r : State} (a : SparesKept s t)
include a

theorem ofSame (b : SameBut Fld.follows t r) : SparesKept s r := Retains.ofSame Fld.notSpare_of_follows (fun _ => rfl) (fun _ => rfl) a b

theorem raise (h : Half) (e : Ev) : SparesKept s (t.raise h e) := a.ofSame (raise_same _ _ _)
theorem complete (c : Cmd) (res : Res) : SparesKept s (t.complete c res) := a.ofSame (complete_same _ _ _)

theorem acqFail (l : Lane) : SparesKept s (t.acqFail l) := by
  unfold State.acqFail
  extract_lets n blind r₁ r₂ r₃ now
  have failed : SparesKept s r₃ := raise ((((Retains.modLane a _ fun _ => by rfl)).put rfl _ _).put rfl _ _) _ _
  clear_value r₃
  split
  · exact failed.ofSame (toBlind_same _ _)
  · exact ((Retains.put (failed.ofSame (clearAcq_same _ _)) rfl _ _)).modLane _ fun _ => by rfl

theorem rejoin (l : Lane) : SparesKept s (t.rejoin l) := by
  unfold State.rejoin
  split
  · exact (Retains.put a rfl _ _).modLane _ fun _ => by rfl
  · exact Retains.put a rfl _ _

theorem leaveData (l : Lane) (why : Nat) : SparesKept s (t.leaveData l why) := by
  unfold State.leaveData
  split
  · exact (a.ofSame (acquire_same _ _)).raise _ _
  · exact a

theorem keepData (l : Lane) : SparesKept s (t.keepData l) := by
  unfold State.keepData
  exact Retains.ite (a.leaveData l 1) (Retains.ite (a.leaveData l 2) (Retains.ite (a.leaveData l 3) a))

theorem enterData (l : Lane) : SparesKept s (t.enterData l) := by
  unfold State.enterData
  split
  · exact a.acqFail l
  · extract_lets us r₁ r₂ n r₃ r₄ r₅ r₆ r₇
    have entered : SparesKept s r₂ := ((((((Retains.put a rfl _ _).put rfl _ _).put rfl _ _).put rfl _ _).put rfl _ _).put rfl _ _).put rfl _ _
    have adapts : SparesKept s r₄ := ((entered.modLane _ fun _ => by rfl).put rfl _ _).put rfl _ _
    have aligned : SparesKept s r₆ := by
      unfold r₆
      split
      · exact adapts.rejoin l
      · exact (adapts.rejoin l).ofSame (setCwLock_same _ _ _)
    exact ((aligned.ofSame (setDecoder_same _ _ _)).raise _ _).keepData l

theorem bothInData (l : Lane) : SparesKept s (t.bothInData l) := by
  unfold State.bothInData
  exact Retains.ite (a.enterData l) a

theorem blindDone (l : Lane) : SparesKept s (t.blindDone l) := by
  unfold State.blindDone
  exact Retains.ite (a.enterData l) a

theorem releaseTrigger (l : Lane) : SparesKept s (t.releaseTrigger l) := by
  unfold State.releaseTrigger
  split
  · exact (((Retains.modLane a _ fun _ => by rfl).put rfl _ _).modLane _ fun _ => by rfl).put rfl _ _
  · exact a

theorem openBlock (l : Lane) : SparesKept s (t.openBlock l) := by
  unfold State.openBlock
  exact Retains.modLane a l fun _ => by rfl

theorem openFeq (l : Lane) : SparesKept s (t.openFeq l) := by
  unfold State.openFeq
  exact Retains.modLane a l fun _ => by rfl

theorem returnKnd (k : Knd) : SparesKept s (t.returnKnd k) := by
  unfold State.returnKnd
  extract_lets r₁
  have adapts : SparesKept s r₁ := by
    unfold r₁
    split
    · exact releaseTrigger (openFeq (openBlock ((Retains.put a rfl _ _).modLane _ fun _ => by rfl) _) _) _
    · exact a
  exact adapts.each fun u l => blindDone (bothInData (Retains.refl u) l) l

theorem restartChain (c : ChainN) : SparesKept s (t.restartChain c) := by
  unfold State.restartChain
  exact (((Retains.put a rfl _ _).put rfl _ _).put rfl _ _).modChain _ _

theorem setFullWidth (h : Half) (on : Bool) : SparesKept s (t.setFullWidth h on) :=
  Retains.each a fun u _ => (Retains.refl u).ite (restartChain ((Retains.refl u).put rfl _ _) _)

theorem showTest (h : Half) : SparesKept s (t.showTest h) := by
  unfold State.showTest
  refine Retains.ite a (Retains.ite ?_ (Retains.put a rfl _ _))
  exact ((a.draw.put rfl _ _).put rfl _ _).put rfl _ _

theorem abortSpareTest (k : Group) : SparesKept s (t.abortSpareTest k) := by
  unfold State.abortSpareTest
  refine Retains.ite a ?_
  exact showTest ((((Retains.modGroup a _ fun _ => by rfl).put rfl _ _).put rfl _ _).put rfl _ _) _

theorem abortTest (h : Half) : SparesKept s (t.abortTest h) := by
  unfold State.abortTest
  split
  · exact a
  · extract_lets kind k l r₁ r₂ r₃ r₄ r₅
    have slice : SparesKept s r₁ := Retains.ite (a.ofSame (abandonSlice_same _ _)) a
    have kneader : SparesKept s r₂ := by
      refine Retains.ite ?_ slice
      split
      · exact returnKnd (slice.put rfl _ _) k
      · exact slice.put rfl _ _
      · exact slice
    have keys : SparesKept s r₃ := Retains.ite (kneader.put rfl _ _) kneader
    have shown : SparesKept s r₅ := ((setFullWidth ((keys.put rfl _ _).put rfl _ _) h false).put rfl _ _).put rfl _ _
    clear_value r₅
    split
    · exact showTest (complete (shown.modHalf _ _) _ _) h
    · exact shown

theorem freeSpare (k : Group) : SparesKept s (t.freeSpare k) := by
  unfold State.freeSpare
  extract_lets r₁ r₂
  have run : SparesKept s r₁ := by
    unfold r₁
    split
    · exact a.ofSame (abandonSlice_same _ _)
    · exact a
  exact Retains.ite ((run.abortSpareTest k).abortTest _) (run.abortSpareTest k)

theorem endSlotsIn (h : Half) (ls : List Lane) : SparesKept s (t.endSlotsIn h ls) :=
  Retains.each a fun u _ => Retains.ite
    ((((((((Retains.refl u).put rfl _ _).put rfl _ _).put rfl _ _).put rfl _ _).put rfl _ _).modFi _ _).put rfl _ _) (Retains.refl u)

theorem logRepair (h : Half) (kind unit : Nat) : SparesKept s (t.logRepair h kind unit) :=
  Retains.trans a ((t.logRepair_retains h kind unit).weaken fun x hx => by
    cases e : x.notSpare
    · unfold Fld.notSpare at e
      split at e
      · exact absurd hx (by decide)
      · exact absurd e (by decide)
    · rfl)

end SparesKept
end Sys2Proof.Machine

/-! O16, slice failure: which lane ends fenced for its slice, and which slice serves. -/

namespace Sys2Proof.Machine

section
variable {s t : State} {l m : Lane}

/-- The lane has the fence of a failed slice. -/
def State.sliceFenced (s : State) (l : Lane) : State := s.modLane l fun x => { x with fences := x.fences ++ [.slice] }

/-- The lane has lost the fence of a failed slice. -/
def State.sliceFreed (s : State) (l : Lane) : State := s.modLane l fun x => { x with fences := x.fences.erase .slice }

theorem State.sliceFenced_fences : ((s.sliceFenced l).lane l).fences = (s.lane l).fences ++ [.slice] := by simp [State.sliceFenced]

theorem State.sliceFreed_fences : ((s.sliceFreed l).lane l).fences = (s.lane l).fences.erase .slice := by simp [State.sliceFreed]

theorem State.sliceFenced_group (k : Group) : (s.sliceFenced l).group k = s.group k := rfl

theorem State.sliceFreed_group (k : Group) : (s.sliceFreed l).group k = s.group k := rfl

theorem State.sliceFenced_fences_of_ne (h : m ≠ l) : ((s.sliceFenced l).lane m).fences = (s.lane m).fences := by
  rw [State.sliceFenced, State.lane_modLane, if_neg h]

theorem State.sliceFreed_fences_of_ne (h : m ≠ l) : ((s.sliceFreed l).lane m).fences = (s.lane m).fences := by
  rw [State.sliceFreed, State.lane_modLane, if_neg h]

theorem SparesKept.sliceFenced (a : SparesKept s t) (l : Lane) : SparesKept (s.sliceFenced l) (t.sliceFenced l) :=
  ⟨a.get, a.ap, fun m => by
    by_cases h : m = l
    · rw [h, State.sliceFenced_fences, State.sliceFenced_fences, a.lane]
    · rw [State.sliceFenced_fences_of_ne h, State.sliceFenced_fences_of_ne h, a.lane], a.group⟩

theorem State.fenceIn_slice (h : Cause.slice ∉ (s.lane l).fences) : SparesKept (s.sliceFenced l) (s.fenceIn (.lane l) .slice) := by
  unfold State.fenceIn
  rw [if_neg (show Cause.slice ∉ s.causes (.lane l) from h)]
  have fenced : SparesKept (s.sliceFenced l) (s.setCauses (.lane l) (s.causes (.lane l) ++ [.slice])) :=
    ⟨fun _ _ _ => rfl, rfl, fun m => by
      rw [State.setCauses, State.lane_modLane, State.sliceFenced, State.lane_modLane]
      split
      · rfl
      · rfl, fun _ => rfl⟩
  exact (fenced.endSlotsIn _ _).raise _ _

theorem State.fenceOut_slice (s : State) (l : Lane) (byPart : Bool) : SparesKept (s.sliceFreed l) (s.fenceOut (.lane l) .slice byPart) := by
  unfold State.fenceOut
  split
  · exact SparesKept.raise (Retains.refl _) _ _
  · next h =>
    have sound : Cause.slice ∉ (s.lane l).fences := h
    refine ⟨fun _ _ _ => rfl, rfl, fun m => ?_, fun _ => rfl⟩
    by_cases e : m = l
    · rw [e, State.sliceFreed_fences, List.erase_of_not_mem sound]
    · rw [State.sliceFreed_fences_of_ne e]

theorem State.fenceOut_slice_get {f : Fld} (h : f.follows = false) (byPart : Bool) (i : Nat) :
    (s.fenceOut (.lane l) .slice byPart).get f i = s.get f i := by
  unfold State.fenceOut
  split
  · exact raise_get h _ _ _ _
  · rfl

theorem State.sliceServes_kept (s : State) (l : Lane) : SparesKept (s.sliceFreed l) (s.sliceServes l) := by
  unfold State.sliceServes
  extract_lets r r'
  have served : SparesKept s r' := SparesKept.raise ((SparesKept.logRepair (Retains.refl s) _ _ _).put rfl _ _) _ _
  have freed := r'.fenceOut_slice l true
  exact ⟨fun x i h => (freed.get x i h).trans (served.get x i h), freed.ap.trans served.ap, fun m => by
    rw [freed.lane]
    by_cases h : m = l
    · rw [h, State.sliceFreed_fences, State.sliceFreed_fences, served.lane]
    · rw [State.sliceFreed_fences_of_ne h, State.sliceFreed_fences_of_ne h, served.lane], fun k => (freed.group k).trans (served.group k)⟩

theorem State.sliceServes_used : (s.sliceServes l).get .REL_SPARE_USED l.half = 1 := by
  unfold State.sliceServes
  rw [State.fenceOut_slice_get rfl, raise_get rfl]
  exact (State.get_put_self ..).trans rfl

/-! ### The lane of no port whose slice serves -/

/-- Whose slice is free is read from the ports and from the fences of the other lanes. -/
theorem State.idleLane_congr (ap : t.ap = s.ap) (h : ∀ m, m ≠ l → (t.lane m).fences = (s.lane m).fences) : t.idleLane l = s.idleLane l := by
  have applied : ∀ x : Fld, x.info.shadow = true → t.app x = s.app x := fun x hx => funext fun i => by
    rw [State.app, State.app, if_pos hx, if_pos hx, ap]
  have ports : Machine.portLanes t.app = Machine.portLanes s.app := funext fun p => by
    simp only [Machine.portLanes, applied .PORT_EN rfl, applied .PORT_RATE rfl, applied .PORT_LMODE rfl]
  have port : ∀ m, t.portOf m = s.portOf m := fun m => by
    rw [State.portOf, portOfLane, ports]
    rfl
  unfold State.idleLane
  congr 1
  funext m
  by_cases e : m = l
  · simp [e]
  · rw [port, h m e]

theorem State.of_idleLane (h : s.idleLane l = some m) : m ≠ l ∧ Cause.slice ∉ (s.lane m).fences := by
  have found := List.find?_some h
  simp only [Bool.and_eq_true, bne_iff_ne, Bool.not_eq_true', List.contains_eq_mem, decide_eq_false_iff_not] at found
  exact ⟨found.1.1, found.2⟩

/-! ### A slice fails -/

/-- The slice of the lane has failed: the group's spare is free, and the lane is fenced and in IDLE. -/
def State.sliceOut (s : State) (l : Lane) : State := ((s.freeSpare l.group).fenceIn (.lane l) .slice).toIdle l

theorem State.sliceOut_kept (h : Cause.slice ∉ (s.lane l).fences) : SparesKept (s.sliceFenced l) (s.sliceOut l) := by
  have freed : SparesKept s (s.freeSpare l.group) := SparesKept.freeSpare (Retains.refl s) _
  have fenced := State.fenceIn_slice (s := s.freeSpare l.group) (l := l) (by rwa [freed.lane])
  exact SparesKept.ofSame ((freed.sliceFenced l).trans fenced) (toIdle_same _ _)

theorem State.sliceOut_idleLane (h : Cause.slice ∉ (s.lane l).fences) : (s.sliceOut l).idleLane l = s.idleLane l :=
  State.idleLane_congr (State.sliceOut_kept h).ap fun _ e => ((State.sliceOut_kept h).lane _).trans (State.sliceFenced_fences_of_ne e)

/-- R118: the slice of the lane is the spare one. -/
def State.servedBySpare (s : State) (l : Lane) : State :=
  ((s.modGroup l.group fun x => x.moveLane (Lane.index l)).dropSpareSlice l.group).sliceServes l

/-- R214: the slice of the lane is that of lane `m`, which has the failed one. -/
def State.servedByIdle (s : State) (l m : Lane) : State :=
  ((s.modGroup l.group fun x => x.swapLanes (Lane.index l) (Lane.index m)).fenceIn (.lane m) .slice).sliceServes l

theorem exec_sliceFail (s : State) (l : Lane) : exec (.sliceFail l) s = .next (settle
    (if (s.sliceOut l).get .SP_SLICE_SPARE (Group.spIdx l.group) ≠ 0 then (s.sliceOut l).servedBySpare l
     else match (s.sliceOut l).idleLane l with
      | some m => (s.sliceOut l).servedByIdle l m
      | none => s.sliceOut l)) := rfl

section
variable (fresh : Cause.slice ∉ (s.lane l).fences)
include fresh

theorem sliceFail_unserved (none : s.get .SP_SLICE_SPARE (Group.spIdx l.group) = 0) (alone : s.idleLane l = .none) :
    Does (.sliceFail l) s fun t => Cause.slice ∈ (t.lane l).fences ∧ t.get .ACQ_STATE l = 0 := by
  have kept := State.sliceOut_kept fresh
  refine ⟨s.sliceOut l, ?_, ?_, State.toIdle_acqState _ _⟩
  · rw [exec_sliceFail, if_neg (by rw [kept.get _ _ rfl]; exact not_not_intro none), State.sliceOut_idleLane fresh, alone]
  · rw [kept.lane, State.sliceFenced_fences]
    simp

theorem sliceFail_servedByIdle (none : s.get .SP_SLICE_SPARE (Group.spIdx l.group) = 0) (idle : s.idleLane l = some m) :
    Does (.sliceFail l) s fun t => Cause.slice ∈ (t.lane m).fences ∧ t.get .REL_SPARE_USED l.half = 1
      ∧ (t.group l.group).xbar = ((s.group l.group).swapLanes (Lane.index l) (Lane.index m)).xbar := by
  have kept := State.sliceOut_kept fresh
  obtain ⟨other, works⟩ := State.of_idleLane idle
  let r := (s.sliceOut l).modGroup l.group fun x => x.swapLanes (Lane.index l) (Lane.index m)
  have swapped : (r.group l.group).xbar = ((s.group l.group).swapLanes (Lane.index l) (Lane.index m)).xbar := by
    simp only [r, State.group_modGroup_self, GroupS.swapLanes, kept.group, State.sliceFenced_group]
  have sound : Cause.slice ∉ (r.lane m).fences := by
    rw [State.modGroup_lane, kept.lane, State.sliceFenced_fences_of_ne other]
    exact works
  have fenced := State.fenceIn_slice sound
  have serves := (r.fenceIn (.lane m) .slice).sliceServes_kept l
  refine ⟨(s.sliceOut l).servedByIdle l m, ?_, ?_, State.sliceServes_used, ?_⟩
  · rw [exec_sliceFail, if_neg (by rw [kept.get _ _ rfl]; exact not_not_intro none), State.sliceOut_idleLane fresh, idle]
  · rw [State.servedByIdle, serves.lane, State.sliceFreed_fences_of_ne other, fenced.lane, State.sliceFenced_fences]
    simp
  · rw [State.servedByIdle, serves.group, State.sliceFreed_group, fenced.group, State.sliceFenced_group, swapped]

theorem sliceFail_servedBySpare (spare : s.get .SP_SLICE_SPARE (Group.spIdx l.group) ≠ 0) :
    Does (.sliceFail l) s fun t => t.get .SP_SLICE_SPARE (Group.spIdx l.group) = 0 ∧ t.get .REL_SPARE_USED l.half = 1 ∧ Cause.slice ∉ (t.lane l).fences := by
  have kept := State.sliceOut_kept fresh
  have serves := (((s.sliceOut l).modGroup l.group fun x => x.moveLane (Lane.index l)).dropSpareSlice l.group).sliceServes_kept l
  refine ⟨(s.sliceOut l).servedBySpare l, ?_, ?_, State.sliceServes_used, ?_⟩
  · rw [exec_sliceFail, if_pos (by rwa [kept.get _ _ rfl])]
  · rw [State.servedBySpare, serves.get _ _ rfl]
    simp [State.sliceFreed, State.dropSpareSlice, State.get_put]
  · have own : ((s.sliceOut l).lane l).fences = (s.lane l).fences ++ [.slice] := (kept.lane l).trans State.sliceFenced_fences
    rw [State.servedBySpare, serves.lane, State.sliceFreed_fences]
    simp only [State.dropSpareSlice, State.modGroup_lane, State.put_lane, own, List.erase_append_right _ fresh]
    simpa using fresh

end
end
end Sys2Proof.Machine

/-! O16, slice rotation: the start of a parallel run, and its end. -/

namespace Sys2Proof.Machine

section
variable {s : State} {g : Group} {l : Lane}

theorem Group.of_mem_lanes (h : l ∈ g.lanes) : l.group = g := by
  obtain ⟨k, -, rfl⟩ := List.mem_map.1 h
  apply Fin.ext
  simp only [Group.lane, Lane.group]
  omega

theorem State.nextTurn_group (h : s.nextTurn g = some l) : l.group = g := by
  have found {i : Nat} (f : g.lanes.find? (fun l => l.val % 8 == i && s.inData l) = some l) : l.group = g := Group.of_mem_lanes (List.mem_of_find?_eq_some f)
  rw [State.nextTurn, Option.orElse_eq_or, Option.or_eq_some_iff] at h
  rcases h with h | ⟨-, h⟩
  · obtain ⟨i, -, f⟩ := Option.bind_eq_some_iff.1 h
    exact found f
  · obtain ⟨i, -, f⟩ := List.exists_of_findSome?_eq_some h
    exact found f

theorem State.savesLane_group (h : s.savesLane g = some l) : l.group = g := by
  rw [State.savesLane] at h
  split at h
  · next c =>
    obtain rfl := Option.some.inj h
    simp only [Bool.and_eq_true, beq_iff_eq] at c
    exact c.2
  · contradiction

/-! ### The slice state is copied into the spare slice -/

theorem State.mirror_frame : Frame [] s (s.mirror l) := by
  unfold State.mirror
  split
  · exact (Frame.refl _ s).modGroup _ _
  · exact Frame.refl _ s

theorem State.mirror_get (f : Fld) (i : Nat) : (s.mirror l).get f i = s.get f i := by
  unfold State.mirror
  split
  · rfl
  · rfl

theorem State.mirror_group : ∃ c, (s.mirror l).group l.group = { s.group l.group with copy := c } := by
  unfold State.mirror
  split
  · exact ⟨_, State.group_modGroup_self ..⟩
  · exact ⟨_, rfl⟩

theorem State.startRun_frame : Frame [] s (s.startRun l) :=
  (((Frame.refl [] s).modGroup _ _).put (.inr rfl) _).trans State.mirror_frame

theorem State.startRun_parallel : (s.startRun l).get .EQ_PARALLEL l = 1 :=
  (State.mirror_get _ _).trans ((State.get_put_self ..).trans rfl)

theorem State.startRun_group : ∃ c, (s.startRun l).group l.group = { s.group l.group with sliceRun := some l, copy := c } := by
  obtain ⟨c, h⟩ := State.mirror_group (s := (s.modGroup l.group fun x => { x with sliceRun := some l }).put .EQ_PARALLEL l 1) (l := l)
  exact ⟨c, h.trans (by rw [State.put_group, State.group_modGroup_self])⟩

/-! ### The schedule of a group's rotations -/

/-- R114: when the next rotation falls due, once one has. -/
def State.nextDue (s : State) (g : Group) : Nat :=
  if (s.group g).rotDue ≤ s.ticks g.half then dueAfter (s.ticks g.half) (s.group g).rotDue (msTicks (s.srotPeriod g)) else (s.group g).rotDue

theorem State.planRotation_group : (s.planRotation g).group g = { s.group g with rotDue := s.nextDue g } := by
  unfold State.planRotation State.nextDue
  dsimp only
  split
  · rw [State.group_modGroup_self]
  · rfl

theorem State.planRotation_frame : Frame [] s (s.planRotation g) := by
  unfold State.planRotation
  dsimp only
  split
  · exact (Frame.refl _ s).modGroup _ _
  · exact Frame.refl _ s

theorem State.planRotation_nextTurn : (s.planRotation g).nextTurn g = s.nextTurn g := by
  rw [State.nextTurn, State.planRotation_group, State.nextTurn, State.planRotation]
  dsimp only
  split
  · rfl
  · rfl

theorem State.planRotation_ready : (s.planRotation g).sliceReady g = s.sliceReady g := by
  rw [State.sliceReady, State.planRotation_group, State.sliceReady, State.planRotation]
  dsimp only
  split
  · rfl
  · rfl

theorem State.planRotation_lmode : (s.planRotation g).lmode l = s.lmode l := by
  unfold State.planRotation
  dsimp only
  split
  · rfl
  · rfl

theorem State.planRotation_soon (n : Nat) : (s.planRotation g).actionSoon l n = s.actionSoon l n := by
  unfold State.planRotation
  dsimp only
  split
  · rfl
  · rfl

/-! ### A rotation starts -/

/-- A rotation of the group falls due, and this lane's turn it is. -/
structure State.Turn (s : State) (g : Group) (l : Lane) : Prop where
  unsaved : s.savesLane g = none
  ready : s.sliceReady g = true
  next : s.nextTurn g = some l
  due : (s.group g).rotDue ≤ s.ticks g.half ∨ (s.group g).rotRetry.isSome = true

/-- The rotation that is due starts on the lane. -/
def State.rotates (s : State) (g : Group) (l : Lane) : State :=
  ((s.planRotation g).modGroup g fun x => { x with nextRot := (l.val + 1) % 8, rotRetry := none }).startRun l

/-- The rotation that is due waits to be retried. -/
def State.rotatesLater (s : State) (g : Group) (l : Lane) : State :=
  ((s.planRotation g).modGroup g fun x => { x with rotRetry := some (l.val % 8) }).testAhead g

theorem exec_rotationStart_turn (a : s.Turn g l) : exec (.sliceRotationStart g) s =
    .next (settle (if s.actionSoon l (sliceRunNs (s.lmode l)) then s.rotatesLater g l else s.rotates g l)) := by
  change execSliceRotationStart g s = _
  unfold execSliceRotationStart
  dsimp only
  rw [a.unsaved]
  dsimp only
  have due : ¬(¬(s.group g).rotDue ≤ s.ticks g.half ∧ (s.group g).rotRetry.isNone = true) := fun ⟨late, fresh⟩ => by
    rcases a.due with early | retry
    · exact late early
    · simp_all
  rw [if_neg due, State.planRotation_nextTurn, a.next]
  dsimp only
  rw [State.planRotation_ready, a.ready, State.planRotation_soon, State.planRotation_lmode]
  by_cases soon : s.actionSoon l (sliceRunNs (s.lmode l)) = true
  · rw [soon]
    rfl
  · rw [Bool.eq_false_iff.2 soon]
    rfl

theorem rotationStart_runs (a : s.Turn g l) (calm : s.actionSoon l (sliceRunNs (s.lmode l)) = false) : Does (.sliceRotationStart g) s fun t =>
    (t.group g).sliceRun = some l ∧ t.get .EQ_PARALLEL l = 1 ∧ (t.group g).nextRot = (l.val + 1) % 8 ∧ (t.group g).rotRetry = none
      ∧ (t.group g).rotDue = s.nextDue g ∧ Frame [] s t := by
  obtain rfl := State.nextTurn_group a.next
  refine ⟨s.rotates l.group l, ?_, ?_⟩
  · rw [exec_rotationStart_turn a, calm]
    rfl
  · obtain ⟨c, h⟩ := State.startRun_group (s := (s.planRotation l.group).modGroup l.group fun x => { x with nextRot := (l.val + 1) % 8, rotRetry := none }) (l := l)
    rw [State.group_modGroup_self, State.planRotation_group] at h
    rw [State.rotates, h]
    exact ⟨rfl, State.startRun_parallel, rfl, rfl, rfl, (State.planRotation_frame.modGroup _ _).trans State.startRun_frame⟩

theorem rotationStart_waits (a : s.Turn g l) (soon : s.actionSoon l (sliceRunNs (s.lmode l)) = true) : Does (.sliceRotationStart g) s fun t =>
    (t.group g).sliceRun = none ∧ (t.group g).rotRetry = some (l.val % 8) ∧ Frame [] s t := by
  have ready := a.ready
  simp only [State.sliceReady, Bool.and_eq_true, Option.isNone_iff_eq_none] at ready
  obtain ⟨⟨⟨⟨⟨⟨⟨-, ok⟩, tested⟩, -⟩, -⟩, run⟩, -⟩, -⟩ := ready
  have passed : s.rotatesLater g l = (s.planRotation g).modGroup g fun x => { x with rotRetry := some (l.val % 8) } := by
    rw [State.rotatesLater, State.testAhead, State.group_modGroup_self, State.planRotation_group, tested, ok]
    simp
  refine ⟨s.rotatesLater g l, ?_, ?_⟩
  · rw [exec_rotationStart_turn a, soon]
    rfl
  · rw [passed]
    beta_reduce
    rw [State.group_modGroup_self, State.planRotation_group]
    exact ⟨run, rfl, State.planRotation_frame.modGroup _ _⟩

theorem rotationStart_undue (unsaved : s.savesLane g = none) (early : s.ticks g.half + msTicks 2 < (s.group g).rotDue) (fresh : (s.group g).rotRetry = none) :
    exec (.sliceRotationStart g) s = .next (settle s) := by
  change execSliceRotationStart g s = _
  unfold execSliceRotationStart
  dsimp only
  rw [unsaved]
  dsimp only
  rw [if_pos ⟨by omega, by rw [fresh]; rfl⟩, if_neg (by simp; omega)]
  rfl

/-- A slice that an on-demand test takes is freed by a parallel run. -/
theorem rotationStart_frees (saves : s.savesLane g = some l) (idle : (s.group g).sliceRun = none) (spare : s.get .SP_SLICE_SPARE (Group.spIdx g) ≠ 0)
    (data : s.inData l = true) (calm : s.actionSoon l (sliceRunNs (s.lmode l)) = false) (untested : (s.group g).sliceTest = none) :
    Does (.sliceRotationStart g) s fun t =>
      (t.group g).sliceRun = some l ∧ t.get .EQ_PARALLEL l = 1 ∧ (t.group g).rotDue = (s.group g).rotDue ∧ Frame [] s t := by
  obtain rfl := State.savesLane_group saves
  refine ⟨s.startRun l, ?_, ?_⟩
  · change execSliceRotationStart l.group s = _
    unfold execSliceRotationStart
    dsimp only
    rw [saves]
    dsimp only
    rw [idle, State.freeLane]
    rw [if_neg spare, data, calm, untested]
    rfl
  · obtain ⟨c, h⟩ := State.startRun_group (s := s) (l := l)
    rw [h]
    exact ⟨rfl, State.startRun_parallel, rfl, State.startRun_frame⟩

end
end Sys2Proof.Machine

/-! O16, the end of a parallel run: the spare slice serves, or the run is abandoned and the spare slice tested, or retired. -/

namespace Sys2Proof.Machine

section
variable {s : State} {g : Group} {l : Lane}

/-- The parallel run on the lane ends. -/
def State.endsRun (s : State) (g : Group) (l : Lane) : State := (s.put .EQ_PARALLEL l 0).modGroup g fun x => { x with sliceRun := none, copy := none }

/-- R115 step 4: the slices agreed; they trade places. -/
def State.tradesSlices (s : State) (g : Group) (l : Lane) : State :=
  (((s.endsRun g l).inc .EQ_SWAP_CNT l).flag .EQ_SLICE_SWAP l).modGroup g fun x => { x.moveLane (Lane.index l) with mismatch := 0, tested := false }

theorem State.endsRun_group : (s.endsRun g l).group g = { s.group g with sliceRun := none, copy := none } := by
  rw [State.endsRun, State.group_modGroup_self, State.put_group]

/-- R117: the slices did not agree, as often in a row; the lane's turn comes again. -/
def State.mismatches (s : State) (g : Group) (l : Lane) (n : Nat) : State :=
  ((s.endsRun g l).flag .EQ_SLICE_ABANDON l).modGroup g fun x => { x with mismatch := n, rotRetry := some (l.val % 8), spareOk := false, tested := false }

/-! ### The background test of a spare slice -/

/-- The fields that show a self-test. -/
def Fld.ofTests : Fld → Bool
  | .ST_STATE | .ST_KIND | .ST_UNIT => true
  | _ => false

theorem State.showTest_retains (h : Half) : Retains Fld.ofTests id id s (s.showTest h) := by
  unfold State.showTest
  refine Retains.ite (Retains.refl s) (Retains.ite ?_ ((Retains.refl s).put rfl _ _))
  exact ((((Retains.refl s).draw).put rfl _ _).put rfl _ _).put rfl _ _

theorem State.draw_frame {W : List (Fld × Nat)} : Frame W s s.draw.2 := { Frame.refl W s with }

theorem State.showTest_frame (h : Half) : Frame [(.ST_STATE, h.val), (.ST_KIND, h.val), (.ST_UNIT, h.val)] s (s.showTest h) := by
  unfold State.showTest
  split_ifs
  · exact Frame.refl _ s
  · exact ((State.draw_frame.put (.inl (by simp)) _).put (.inl (by simp)) _).put (.inl (by simp)) _
  · exact (Frame.refl _ s).put (.inl (by simp)) _

/-- What of a group the start of that test leaves. -/
def GroupS.untested (y : GroupS) : GroupS := { y with sliceTest := none, tested := false }

theorem State.beginSpareTest_retains : Retains Fld.ofTests id GroupS.untested s (s.beginSpareTest g) := by
  unfold State.beginSpareTest
  refine Retains.ite (Retains.refl s) ?_
  exact ((Retains.refl s).modGroup _ fun _ => by rfl).trans ((State.showTest_retains _).weaken fun _ h => h)

theorem State.beginSpareTest_frame : Frame [(.ST_STATE, g.half.val), (.ST_KIND, g.half.val), (.ST_UNIT, g.half.val)] s (s.beginSpareTest g) := by
  unfold State.beginSpareTest
  dsimp only
  split_ifs
  · exact Frame.refl _ s
  · exact ((Frame.refl _ s).modGroup _ _).trans (State.showTest_frame _)

theorem State.beginSpareTest_began (fresh : (s.group g).sliceTest = none) (idle : (s.group g).sliceRun = none)
    (spare : s.get .SP_SLICE_SPARE (Group.spIdx g) ≠ 0) (served : s.calServed g = true) (kept : s.testLends g.half 0 (Group.spIdx g) = false) :
    ((s.beginSpareTest g).group g).sliceTest = some (s.ticks g.half) := by
  unfold State.beginSpareTest
  rw [if_neg (by simp [fresh, idle, spare, served, kept])]
  exact (congrArg GroupS.sliceTest ((State.showTest_retains _).group g)).trans (by rw [State.group_modGroup_self]; rfl)

section
variable (run : (s.group g).sliceRun = some l)
include run

theorem exec_rotationComplete_same (unsaved : s.savesLane g = none) :
    exec (.sliceRotationComplete g true true) s = .next (settle (s.tradesSlices g l)) := by
  have unsaved' : (s.tradesSlices g l).savesLane g = none := by
    rw [← unsaved]
    simp [State.savesLane, State.onTest, State.tradesSlices, State.endsRun, State.flag, State.inc, State.get_put]
  change execSliceRotationComplete g true true s = _
  unfold execSliceRotationComplete
  rw [run]
  change done (if (s.tradesSlices g l).savesLane g = some l then _ else s.tradesSlices g l) = _
  rw [unsaved', if_neg (by simp)]
  rfl

theorem exec_rotationComplete_differ {rx tx : Bool} (differ : (rx && tx) = false) {n : Nat} (count : (s.group g).mismatch + 1 = n) :
    exec (.sliceRotationComplete g rx tx) s =
      .next (settle (if 2 ≤ n then (s.mismatches g l n).retireSpareSlice g else (s.mismatches g l n).beginSpareTest g)) := by
  have counted : ((s.endsRun g l).group g).mismatch + 1 = n := by rw [State.endsRun_group, count]
  change execSliceRotationComplete g rx tx s = _
  unfold execSliceRotationComplete
  rw [run, differ]
  change (let m := ((s.endsRun g l).group g).mismatch + 1
    done (if 2 ≤ m then (s.mismatches g l m).retireSpareSlice g else (s.mismatches g l m).beginSpareTest g)) = _
  rw [counted]
  rfl

theorem rotationComplete_swaps (unsaved : s.savesLane g = none) : Does (.sliceRotationComplete g true true) s fun t =>
    (t.group g).sliceRun = none ∧ t.get .EQ_PARALLEL l = 0 ∧ t.get .EQ_SLICE_SWAP l = 1
      ∧ (t.group g).xbar = (s.group g).xbar.set (Lane.index l) (s.group g).freeSlice
      ∧ t.get .EQ_SWAP_CNT l = (s.get .EQ_SWAP_CNT l + 1) % 2 ^ Fld.width .EQ_SWAP_CNT ∧ (t.group g).mismatch = 0 ∧ (t.group g).tested = false
      ∧ Frame [(.EQ_SLICE_SWAP, l.val), (.EQ_SWAP_CNT, l.val)] s t := by
  refine ⟨s.tradesSlices g l, exec_rotationComplete_same run unsaved, ?_⟩
  have frame : Frame [(.EQ_SLICE_SWAP, l.val), (.EQ_SWAP_CNT, l.val)] s (s.tradesSlices g l) :=
    (((((Frame.refl _ s).put (.inr rfl) _).modGroup _ _).inc (.inl (by simp)) 1).flag (.inl (by simp))).modGroup _ _
  have own : (s.tradesSlices g l).group g = { ({ s.group g with sliceRun := none, copy := none } : GroupS).moveLane (Lane.index l) with
      mismatch := 0, tested := false } := by
    simp [State.tradesSlices, State.endsRun, State.flag, State.inc]
  beta_reduce
  rw [own]
  refine ⟨rfl, ?_, ?_, rfl, ?_, rfl, rfl, frame⟩
  · simp [State.tradesSlices, State.endsRun, State.flag, State.inc, State.get_put]
  · simp [State.tradesSlices, State.endsRun, State.flag, State.inc, State.get_put, show Fld.width .EQ_SLICE_SWAP = 1 from rfl]
  · simp [State.tradesSlices, State.endsRun, State.flag, State.inc, State.get_put]

end

/-! ### A mismatch -/

section
variable {n : Nat}

theorem State.mismatches_group : (s.mismatches g l n).group g =
    { s.group g with sliceRun := none, copy := none, mismatch := n, rotRetry := some (l.val % 8), spareOk := false, tested := false } := by
  rw [State.mismatches, State.group_modGroup_self, State.flag, State.put_group, State.endsRun_group]

theorem State.mismatches_frame : Frame [] s (s.mismatches g l n) :=
  ((((Frame.refl _ s).put (.inr rfl) _).modGroup _ _).flag (.inr rfl)).modGroup _ _

theorem State.mismatches_abandon : (s.mismatches g l n).get .EQ_SLICE_ABANDON l = 1 := by
  rw [State.mismatches, State.modGroup_get]
  exact (State.get_put_self ..).trans rfl

theorem State.mismatches_lends (h : Half) (kind sp : Nat) : (s.mismatches g l n).testLends h kind sp = s.testLends h kind sp := by
  have get (f : Fld) (i : Nat) (hf : f.follows = false) := (State.mismatches_frame (s := s) (g := g) (l := l) (n := n)).get f i (by simp) hf
  have cmd : ((s.mismatches g l n).half h).stCmd = (s.half h).stCmd := rfl
  simp only [State.testLends, State.onTest, get .ST_STATE _ rfl, get .ST_KIND _ rfl, get .ST_UNIT _ rfl, cmd]

theorem State.mismatches_served : (s.mismatches g l n).calServed g = s.calServed g := by
  simp only [State.calServed, State.kndOut, State.mismatches_frame.get .KND_STATE _ (by simp) rfl]

end

theorem rotationComplete_mismatch {rx tx : Bool} (run : (s.group g).sliceRun = some l) (differ : (rx && tx) = false) (first : (s.group g).mismatch = 0) :
    Does (.sliceRotationComplete g rx tx) s fun t =>
      (t.group g).sliceRun = none ∧ t.get .EQ_SLICE_ABANDON l = 1 ∧ (t.group g).mismatch = 1 ∧ (t.group g).xbar = (s.group g).xbar
        ∧ (t.group g).rotRetry = some (l.val % 8) ∧ (t.group g).spareOk = false ∧ t.get .EQ_SWAP_CNT l = s.get .EQ_SWAP_CNT l
        ∧ ((s.group g).sliceTest = none → s.get .SP_SLICE_SPARE (Group.spIdx g) ≠ 0 → s.calServed g = true →
            s.testLends g.half 0 (Group.spIdx g) = false → (t.group g).sliceTest = some (s.ticks g.half))
        ∧ Frame [(.EQ_SLICE_ABANDON, l.val), (.ST_STATE, g.half.val), (.ST_KIND, g.half.val), (.ST_UNIT, g.half.val)] s t := by
  let r := s.mismatches g l 1
  have own : r.group g = _ := State.mismatches_group
  have tests : Retains Fld.ofTests id GroupS.untested r (r.beginSpareTest g) := State.beginSpareTest_retains
  have kept {α : Type} (f : GroupS → α) (hf : ∀ y : GroupS, f y.untested = f y) : f ((r.beginSpareTest g).group g) = f (r.group g) :=
    (hf _).symm.trans ((congrArg f (tests.group g)).trans (hf _))
  have frame : Frame [(.ST_STATE, g.half.val), (.ST_KIND, g.half.val), (.ST_UNIT, g.half.val)] s (r.beginSpareTest g) :=
    Frame.trans { State.mismatches_frame with get := fun f i _ hf => State.mismatches_frame.get f i (by simp) hf } State.beginSpareTest_frame
  refine ⟨r.beginSpareTest g, ?_, ?_, ?_, ?_, ?_, ?_, ?_, ?_, ?_, ?_⟩
  · rw [exec_rotationComplete_differ run differ (n := 1) (by rw [first])]
    rfl
  · rw [kept (·.sliceRun) fun _ => rfl, own]
  · exact (tests.get _ _ rfl).trans State.mismatches_abandon
  · rw [kept (·.mismatch) fun _ => rfl, own]
  · rw [kept (·.xbar) fun _ => rfl, own]
  · rw [kept (·.rotRetry) fun _ => rfl, own]
  · rw [kept (·.spareOk) fun _ => rfl, own]
  · exact frame.get _ _ (by simp) rfl
  · intro fresh spare served lent
    refine State.beginSpareTest_began (by rw [own, fresh]) (by rw [own]) ?_ ?_ ?_
    · rwa [State.mismatches_frame.get _ _ (by simp) rfl]
    · rwa [State.mismatches_served]
    · rwa [State.mismatches_lends]
  · exact { frame with get := fun f i hi hf => frame.get f i (fun k => hi (List.mem_cons_of_mem _ k)) hf }

theorem rotationComplete_retires {rx tx : Bool} (run : (s.group g).sliceRun = some l) (differ : (rx && tx) = false) (again : 1 ≤ (s.group g).mismatch) :
    Does (.sliceRotationComplete g rx tx) s fun t => (t.group g).sliceRun = none ∧ t.get .EQ_SLICE_ABANDON l = 1
      ∧ t.get .SP_SLICE_SPARE (Group.spIdx g) = 0 ∧ t.get .EQ_SWAP_CNT l = s.get .EQ_SWAP_CNT l := by
  let r := s.mismatches g l ((s.group g).mismatch + 1)
  have logged := (r.dropSpareSlice g).logRepair_retains g.half 2 g
  have dropped {f : Fld} (hs : f ≠ .SP_SLICE_SPARE) (hc : f ≠ .CAL_INTERP_ONLY) (i : Nat) : (r.dropSpareSlice g).get f i = r.get f i := by
    rw [State.dropSpareSlice, State.modGroup_get, State.get_put_of_ne _ hc, State.get_put_of_ne _ hs]
  refine ⟨r.retireSpareSlice g, ?_, ?_, ?_, ?_, ?_⟩
  · rw [exec_rotationComplete_differ run differ rfl, if_pos (by omega)]
  · refine (congrArg GroupS.sliceRun (logged.group g)).trans ?_
    rw [id, State.dropSpareSlice, State.group_modGroup_self]
    exact congrArg GroupS.sliceRun State.mismatches_group
  · exact (logged.get _ _ rfl).trans ((dropped (by simp) (by simp) _).trans State.mismatches_abandon)
  · refine (logged.get _ _ rfl).trans ?_
    simp [State.dropSpareSlice, State.get_put]
  · exact (logged.get _ _ rfl).trans ((dropped (by simp) (by simp) _).trans (State.mismatches_frame.get _ _ (by simp) rfl))

end
end Sys2Proof.Machine

/-! O16: captures of the active bank, and the effort level. -/

namespace Sys2Proof.Machine

section
variable {s t : State} {l : Lane}

/-! ### A field that shows an applied value -/

/-- The field reads as the applied value of another. -/
def State.Shows (s : State) (shown of : Fld) (i : Nat) : Prop := s.get shown i = s.app of i % 2 ^ shown.width

theorem State.Shows.put {shown of x : Fld} {i : Nat} (a : s.Shows shown of i) (h : of.info.shadow = true) (ne : shown ≠ x) (j v : Nat) :
    (s.put x j v).Shows shown of i := by
  rw [State.Shows, State.get_put_of_ne s ne, State.app_put_of_shadow s h]
  exact a

theorem State.Shows.each {shown of x : Fld} {i : Nat} (a : s.Shows shown of i) (h : of.info.shadow = true) (ne : shown ≠ x) (xs : List Nat)
    (j v : State → Nat → Nat) : (s.each xs fun s k => s.put x (j s k) (v s k)).Shows shown of i :=
  State.each_kept (P := fun t => t.Shows shown of i) xs (fun _ _ p => p.put h ne _ _) a

theorem State.shows_put {shown of : Fld} (h : of.info.shadow = true) (i : Nat) : (s.put shown i (s.app of i)).Shows shown of i := by
  rw [State.Shows, State.get_put_self, State.app_put_of_shadow s h]

theorem State.shows_each {shown of : Fld} (h : of.info.shadow = true) {n b k : Nat} (hk : k < n) :
    (s.each (List.range n) fun s k => s.put shown (b + k) (s.app of (b + k))).Shows shown of (b + k) := by
  refine State.each_establishes (P := fun t => t.Shows shown of (b + k)) (List.mem_range.2 hk) (fun t => State.shows_put h _) fun t y a => ?_
  by_cases e : b + y = b + k
  · rw [e]
    exact State.shows_put h _
  · rw [State.Shows, State.get_put, if_neg (fun c => e c.2.symm), State.app_put_of_shadow t h]
    exact a

theorem State.Shows.congr {W : Fld → Bool} {α β : Type} {f : LaneS → α} {g : GroupS → β} {shown of : Fld} {i : Nat} (p : s.Shows shown of i)
    (a : Retains W f g s t) (h : of.info.shadow = true) (hW : W shown = false) : t.Shows shown of i := by
  rw [State.Shows, a.get _ _ hW, a.app h]
  exact p

/-! ### The capture of a bank -/

/-- The APPLIED fields take the active bank. -/
def State.showsApplied (s : State) (l : Lane) : State :=
  let s := s.each (List.range 7) fun s k => s.put .EQ_TXF_APPLIED (l * 7 + k) (s.app .EQ_TXF_SHADOW (l * 7 + k))
  let s := s.each (List.range 48) fun s k => s.put .EQ_FFE_APPLIED (l * 48 + k) (s.app .EQ_FFE_SHADOW (l * 48 + k))
  let s := s.each (List.range 12) fun s k => s.put .EQ_VOLT_APPLIED (l * 12 + k) (s.app .EQ_VOLT_SHADOW (l * 12 + k))
  let s := s.each (List.range 16) fun s k => s.put .DMT_SF_APPLIED (l * 16 + k) (s.app .DMT_SF_SHADOW (l * 16 + k))
  s.put .EQ_D1_APPLIED l (s.app .EQ_D1_SHADOW l)

/-- The commands that wait for this capture only complete. -/
def State.endCaptures (s : State) (l : Lane) : State :=
  s.each allHalves fun s h =>
    let w := (s.half h).capWait.map fun p => (p.1, p.2.filter (· != l))
    let s := s.modHalf h fun x => { x with capWait := w.filter fun p => !p.2.isEmpty }
    s.each (w.filter fun p => p.2.isEmpty) fun s p => s.complete p.1 (.ok 0 0)

theorem State.captureBank_eq : s.captureBank l = ((s.showsApplied l).modLane l fun x => { x with capture := false }).endCaptures l := rfl

/-- The fields that a capture writes. -/
def Fld.ofCapture : Fld → Bool
  | .EQ_TXF_APPLIED | .EQ_FFE_APPLIED | .EQ_VOLT_APPLIED | .DMT_SF_APPLIED | .EQ_D1_APPLIED => true
  | _ => false

theorem State.showsApplied_retains : Retains Fld.ofCapture id id s (s.showsApplied l) :=
  (((((Retains.refl s).each fun t _ => (Retains.refl t).put rfl _ _).each fun t _ => (Retains.refl t).put rfl _ _).each
    fun t _ => (Retains.refl t).put rfl _ _).each fun t _ => (Retains.refl t).put rfl _ _).put rfl _ _

theorem State.endCaptures_retains : Retains Fld.counted id id s (s.endCaptures l) :=
  (Retains.refl s).each fun t _ => ((Retains.refl t).modHalf _ _).each fun t _ => (Retains.refl t).complete (fun _ e => e) _ _

theorem State.captureBank_ap : (s.captureBank l).ap = s.ap := by
  rw [State.captureBank_eq, State.endCaptures_retains.ap, State.modLane_ap, State.showsApplied_retains.ap]

theorem State.captureBank_lane : (s.captureBank l).lane l = { s.lane l with capture := false } := by
  rw [State.captureBank_eq]
  have ended := State.endCaptures_retains (s := (s.showsApplied l).modLane l fun x => { x with capture := false }) (l := l)
  rw [show State.lane _ l = _ from ended.lane l, id, State.lane_modLane_self]
  exact congrArg (fun x : LaneS => { x with capture := false }) (State.showsApplied_retains.lane l)

/-- What the APPLIED fields show at once they show after the capture. -/
theorem State.Shows.captured {shown of : Fld} {i : Nat} (p : (s.showsApplied l).Shows shown of i) (h : of.info.shadow = true) (hc : shown.counted = false) :
    (s.captureBank l).Shows shown of i := by
  have cleared : ((s.showsApplied l).modLane l fun x => { x with capture := false }).Shows shown of i := by
    rw [State.Shows, State.modLane_get, State.modLane_app]
    exact p
  rw [State.captureBank_eq]
  exact cleared.congr State.endCaptures_retains h hc

theorem State.showsApplied_ffe {k : Nat} (hk : k < 48) : (s.showsApplied l).Shows .EQ_FFE_APPLIED .EQ_FFE_SHADOW (l * 48 + k) := by
  unfold State.showsApplied
  extract_lets r r₁ r₂ r₃
  have own : r₁.Shows .EQ_FFE_APPLIED .EQ_FFE_SHADOW (l * 48 + k) := State.shows_each rfl hk
  have volterra : r₂.Shows .EQ_FFE_APPLIED .EQ_FFE_SHADOW (l * 48 + k) := own.each rfl (by simp) _ _ _
  have slow : r₃.Shows .EQ_FFE_APPLIED .EQ_FFE_SHADOW (l * 48 + k) := volterra.each rfl (by simp) _ _ _
  exact slow.put rfl (by simp) _ _

theorem State.showsApplied_volt {j : Nat} (hj : j < 12) : (s.showsApplied l).Shows .EQ_VOLT_APPLIED .EQ_VOLT_SHADOW (l * 12 + j) := by
  unfold State.showsApplied
  extract_lets r r₁ r₂ r₃
  have own : r₂.Shows .EQ_VOLT_APPLIED .EQ_VOLT_SHADOW (l * 12 + j) := State.shows_each rfl hj
  have slow : r₃.Shows .EQ_VOLT_APPLIED .EQ_VOLT_SHADOW (l * 12 + j) := own.each rfl (by simp) _ _ _
  exact slow.put rfl (by simp) _ _

theorem State.showsApplied_d1 : (s.showsApplied l).Shows .EQ_D1_APPLIED .EQ_D1_SHADOW l := by
  unfold State.showsApplied
  exact State.shows_put rfl _

/-! ### A capture is asked for -/

theorem exec_captureWrite {v : W32} (run : s.running l.half = true) (up : s.answers l.half = true) (bit : v.getLsbD 0 = true) :
    exec (.captureWrite l v) s = .next (settle (s.askCapture l)) := by
  change done (s.hostWrite l.half fun s => s.latchWrite l v.toNat) = _
  rw [State.hostWrite, if_pos (by simp [run, up]), State.latchWrite, if_pos (by rwa [BitVec.testBit_toNat])]
  rfl

theorem captureWrite_waits {v : W32} (run : s.running l.half = true) (up : s.answers l.half = true) (bit : v.getLsbD 0 = true) (data : s.inData l = true) :
    Does (.captureWrite l v) s fun t => (t.lane l).capture = true ∧ Frame [] s t := by
  refine ⟨s.modLane l fun x => { x with capture := true }, ?_, ?_, (Frame.refl _ s).modLane _ _⟩
  · rw [exec_captureWrite run up bit, State.askCapture, if_pos data]
  · rw [State.lane_modLane_self]

theorem captureWrite_captures {v : W32} (run : s.running l.half = true) (up : s.answers l.half = true) (bit : v.getLsbD 0 = true) (data : s.inData l = false) :
    Does (.captureWrite l v) s fun t => (∀ k, k < 48 → t.get .EQ_FFE_APPLIED (l * 48 + k) = s.app .EQ_FFE_SHADOW (l * 48 + k) % 2 ^ 14) ∧ t.ap = s.ap := by
  refine ⟨s.captureBank l, ?_, fun k hk => ?_, State.captureBank_ap⟩
  · rw [exec_captureWrite run up bit, State.askCapture, if_neg (by simp [data])]
  · have applied : (s.captureBank l).app .EQ_FFE_SHADOW (l * 48 + k) = s.app .EQ_FFE_SHADOW (l * 48 + k) := by
      simp only [State.app, State.captureBank_ap, show (Fld.info .EQ_FFE_SHADOW).shadow = true from rfl, if_true]
    exact ((State.showsApplied_ffe hk).captured rfl rfl).trans (by rw [applied]; rfl)

end
end Sys2Proof.Machine

/-! O16: the boundary at which a capture takes place, and that at which the effort level changes. -/

namespace Sys2Proof.Machine

/-- The fields that an effort change leaves but for its own entries: the level, that it changed, and the throttle. -/
def Fld.notEffort : Fld → Bool
  | .EQ_EFFORT | .EQ_EFFORT_CHG | .EQ_THROTTLED => false
  | _ => true

theorem Fld.notEffort_of_counted (x : Fld) (h : x.counted = true) : x.notEffort = true := by
  unfold Fld.notEffort
  split
  · exact absurd h (by decide)
  · exact absurd h (by decide)
  · exact absurd h (by decide)
  · rfl

/-- What of a lane waits for a boundary: the bank to be swapped in, and an effort change. -/
def LaneS.waiting (x : LaneS) : Option Bank × Bool := (x.swap, x.effortDue)

/-- The effort fields, the applied values and what waits on the lanes are as before. -/
abbrev EffortKept (s t : State) : Prop := Retains Fld.notEffort LaneS.waiting (fun _ => ()) s t

namespace EffortKept

variable {s t : State} {l m : Lane} (a : EffortKept s t)
include a

theorem swap : (t.lane m).swap = (s.lane m).swap := congrArg Prod.fst (a.lane m)
theorem effortDue : (t.lane m).effortDue = (s.lane m).effortDue := congrArg Prod.snd (a.lane m)

theorem openBlock : EffortKept s (t.openBlock l) := by
  unfold State.openBlock
  exact Retains.modLane a l fun _ => by rfl

theorem openFeq : EffortKept s (t.openFeq l) := by
  unfold State.openFeq
  exact Retains.modLane a l fun _ => by rfl

theorem mirror : EffortKept s (t.mirror l) := by
  unfold State.mirror
  exact Retains.ite (Retains.modGroup a _ fun _ => rfl) a

theorem deliverEye : EffortKept s (t.deliverEye l) := by
  unfold State.deliverEye
  exact Retains.ite (Retains.modLane a l fun _ => by rfl) (Retains.modLane a l fun _ => by rfl)

theorem perfLane (e n : Nat) : EffortKept s (t.perfLane l e n) := Retains.perfLane Fld.notEffort_of_counted a l e n

theorem updateReady : EffortKept s (t.updateReady l) := by
  unfold State.updateReady
  exact Retains.ite (Retains.put a rfl _ _) a

theorem abandonSlice : EffortKept s (t.abandonSlice l) := by
  unfold State.abandonSlice
  exact Retains.ite (((Retains.modGroup a _ fun _ => rfl).put rfl _ _).put rfl _ _) a

theorem handDecoder (old new : Nat) : EffortKept s (t.handDecoder l old new) := by
  unfold State.handDecoder
  exact Retains.ite a (Retains.modLane a l fun _ => by rfl)

theorem setDecoder (d : Nat) : EffortKept s (t.setDecoder l d) := by
  unfold State.setDecoder
  exact Retains.ite a ((Retains.put a rfl _ _).put rfl _ _)

theorem hist (b v : Nat) : EffortKept s (t.hist b false v) := by
  unfold State.hist
  exact Retains.ite a (Retains.ite (Retains.put a rfl _ _) (Retains.put a rfl _ _))

theorem countSwap : EffortKept s (t.countSwap l) := by
  unfold State.countSwap
  extract_lets now b sel r r'
  have counted : EffortKept s r' := by
    unfold r'
    split
    · exact Retains.ite (hist (a.perfLane _ _) _ _) (a.perfLane _ _)
    · exact a.perfLane _ _
  exact counted.modLane _ fun _ => by rfl

end EffortKept

section
variable {s : State} {l : Lane}

/-! ### The coefficients of a bank -/

/-- Loading a bank writes applied values only. -/
theorem State.loadBank_keeps {P : State → Prop} (put : ∀ {t : State} (f : Fld) (i v : Nat), P t → P (t.putApp f i v)) (b : Bank) (p : P s) : P (s.loadBank l b) :=
  put _ _ _ (State.each_kept _ (fun _ _ => put _ _ _) (State.each_kept _ (fun _ _ => put _ _ _) p))

theorem State.loadBank_lane (b : Bank) (m : Lane) : (s.loadBank l b).lane m = s.lane m :=
  State.loadBank_keeps (P := fun t => t.lane m = s.lane m) (fun _ _ _ p => p) b rfl

theorem State.loadBank_get (b : Bank) (f : Fld) (i : Nat) : (s.loadBank l b).get f i = s.get f i :=
  State.loadBank_keeps (P := fun t => t.get f i = s.get f i) (fun _ _ _ p => p) b rfl

/-! ### The boundary of a capture -/

theorem State.swapBanks_swap : ((s.swapBanks l).lane l).swap = if s.lmode l = 3 then (s.lane l).swap else none := by
  unfold State.swapBanks
  split
  · extract_lets ts r
    have tables : EffortKept s r := EffortKept.countSwap ((Retains.refl s).each fun t _ => (Retains.refl t).setDmt _ _ _ _)
    split
    · rfl
    · exact tables.openFeq.deliverEye.swap
  · split
    · next none => exact none
    · next b _ =>
      extract_lets r
      have cleared : EffortKept (r.modLane l fun x => { x with swap := none }) _ := EffortKept.deliverEye (l := l)
        (EffortKept.mirror (l := l) (EffortKept.openBlock (l := l) (Retains.refl _)))
      refine cleared.swap.trans ?_
      rw [State.lane_modLane_self]

theorem State.swapBanks_of_none (pam : s.lmode l ≠ 3) (h : (s.lane l).swap = none) : s.swapBanks l = s := by
  rw [State.swapBanks, if_neg pam, h]

theorem eqBankCapture_captures (due : (s.lane l).capture = true) : Does (.eqBankCapture l) s fun t =>
    (∀ k, k < 48 → t.get .EQ_FFE_APPLIED (l * 48 + k) = t.app .EQ_FFE_SHADOW (l * 48 + k) % 2 ^ 14)
      ∧ (∀ j, j < 12 → t.get .EQ_VOLT_APPLIED (l * 12 + j) = t.app .EQ_VOLT_SHADOW (l * 12 + j) % 2 ^ 12)
      ∧ t.get .EQ_D1_APPLIED l = t.app .EQ_D1_SHADOW l % 2 ^ 10 ∧ (t.lane l).capture = false
      ∧ (t.lane l).swap = (if s.lmode l = 3 then (s.lane l).swap else none) ∧ (s.lmode l ≠ 3 → (s.lane l).swap = none → t.ap = s.ap) := by
  refine ⟨(s.swapBanks l).captureBank l, if_pos due, fun k hk => (State.showsApplied_ffe hk).captured rfl rfl,
    fun j hj => (State.showsApplied_volt hj).captured rfl rfl, State.showsApplied_d1.captured rfl rfl, ?_, ?_, fun pam none => ?_⟩
  · rw [State.captureBank_lane]
  · rw [State.captureBank_lane]
    exact State.swapBanks_swap
  · rw [State.captureBank_ap, State.swapBanks_of_none pam none]

theorem eqBankCapture_idle (h : (s.lane l).capture = false) : exec (.eqBankCapture l) s = .next (settle s) := if_neg (by simp [h])

/-! ### The boundary of an effort change -/

theorem State.latchAll_of_no_snaps (h : ∀ h : Half, (s.half h).snaps = []) : s.latchAll = s :=
  State.each_kept (P := fun t => t = s) allHalves (fun t k e => by
    rw [e, State.latchDue, h k]
    rfl) rfl

theorem State.dropUpdate_spec : ((s.dropUpdate l).lane l).swap = none ∧ ((s.dropUpdate l).lane l).effortDue = (s.lane l).effortDue
    ∧ ∀ f i, f.notEffort = false → (s.dropUpdate l).get f i = s.get f i := by
  unfold State.dropUpdate
  split
  · have dropped : EffortKept (s.modLane l fun x => { x with swap := none }) _ :=
      ((((EffortKept.openFeq (l := l) (Retains.refl _)).openBlock (l := l)).perfLane (l := l) 0x07 1).deliverEye (l := l))
    refine ⟨dropped.swap.trans ?_, dropped.effortDue.trans ?_, fun f i h => dropped.get f i h⟩
    · rw [State.lane_modLane_self]
    · rw [State.lane_modLane_self]
  · next h => exact ⟨by simpa using fun e => h (.inl e), rfl, fun _ _ _ => rfl⟩

/-- R111: whether the lane runs below the level that the host allows. -/
def State.throttled (s : State) (l : Lane) : Bool := s.effortLevel l < s.app .EQ_EFFORT_MAX l

theorem State.resizeBank_get (old new : Nat) (f : Fld) (i : Nat) : (s.resizeBank l old new).get f i = s.get f i := State.loadBank_get _ _ _

theorem State.resizeBank_effortDue (old new : Nat) : ((s.resizeBank l old new).lane l).effortDue = (s.lane l).effortDue := by
  unfold State.resizeBank
  extract_lets
  rw [State.loadBank_lane, State.lane_modLane_self]

/-- The lane's effort change no longer waits; whether it is throttled shows. -/
def State.takesEffort (s : State) (l : Lane) : State := (s.modLane l fun x => { x with effortDue := false }).putBool .EQ_THROTTLED l (s.throttled l)

theorem State.takesEffort_effortDue : ((s.takesEffort l).lane l).effortDue = false := by
  rw [State.takesEffort, State.putBool, State.put_lane, State.lane_modLane_self]

theorem State.takesEffort_throttled : (s.takesEffort l).get .EQ_THROTTLED l = if s.effortLevel l < s.app .EQ_EFFORT_MAX l then 1 else 0 := by
  rw [State.takesEffort, State.putBool, State.get_put_self, State.throttled]
  by_cases h : s.effortLevel l < s.app .EQ_EFFORT_MAX l
  · simp [h, show Fld.width .EQ_THROTTLED = 1 from rfl]
  · simp [h]

theorem State.applyEffort_same (same : s.get .EQ_EFFORT l = s.effortLevel l) : s.applyEffort l = s.takesEffort l := if_pos same

/-- What a change of level leaves on the lane: the level, that it changed, no update that waits, the throttle. -/
structure State.EffortChanged (s : State) (l : Lane) (t : State) : Prop where
  level : t.get .EQ_EFFORT l = s.effortLevel l % 4
  changed : t.get .EQ_EFFORT_CHG l = 1
  swap : (t.lane l).swap = none
  effortDue : (t.lane l).effortDue = false
  throttled : t.get .EQ_THROTTLED l = (s.takesEffort l).get .EQ_THROTTLED l

theorem State.EffortChanged.congr {t r : State} (p : s.EffortChanged l t) (a : EffortKept t r) : s.EffortChanged l r :=
  ⟨(a.get _ _ rfl).trans p.level, (a.get _ _ rfl).trans p.changed, a.swap.trans p.swap, a.effortDue.trans p.effortDue, (a.get _ _ rfl).trans p.throttled⟩

/-- The equaliser has dropped its update, and starts a block at the new level. -/
theorem State.dropped_effort {t : State} (due : (t.lane l).effortDue = false) (thr : t.get .EQ_THROTTLED l = (s.takesEffort l).get .EQ_THROTTLED l)
    {r : State} (a : EffortKept (t.dropUpdate l) r) : s.EffortChanged l ((r.put .EQ_EFFORT l (s.effortLevel l)).flag .EQ_EFFORT_CHG l) := by
  obtain ⟨swap, effortDue, get⟩ := t.dropUpdate_spec (l := l)
  refine ⟨?_, State.get_put_self .., a.swap.trans swap, (a.effortDue.trans effortDue).trans due, ?_⟩
  · rw [State.flag, State.get_put_of_ne _ (by simp), State.get_put_self]
    rfl
  · rw [State.flag, State.get_put_of_ne _ (by simp), State.get_put_of_ne _ (by simp), a.get _ _ rfl, get _ _ rfl, thr]

theorem State.applyEffort_changes (change : s.get .EQ_EFFORT l ≠ s.effortLevel l) : s.EffortChanged l (s.applyEffort l) := by
  unfold State.applyEffort
  extract_lets old new r₀ r₁ r₂ r₃ r₄ r₅ r₆ r₇
  rw [if_neg change]
  have freed : EffortKept (s.takesEffort l) r₁ := EffortKept.abandonSlice (Retains.refl _)
  have resized : (r₂.lane l).effortDue = false ∧ r₂.get .EQ_THROTTLED l = (s.takesEffort l).get .EQ_THROTTLED l := by
    unfold r₂
    split
    · exact ⟨freed.effortDue.trans State.takesEffort_effortDue, freed.get _ _ rfl⟩
    · exact ⟨(State.resizeBank_effortDue _ _).trans (freed.effortDue.trans State.takesEffort_effortDue),
        (State.resizeBank_get _ _ _ _).trans (freed.get _ _ rfl)⟩
  have fresh : EffortKept (r₂.dropUpdate l) r₃ := (EffortKept.openBlock (Retains.refl _)).modLane _ fun _ => by rfl
  have trained : EffortKept (r₂.dropUpdate l) r₄ := by
    unfold r₄
    split
    · exact EffortKept.updateReady (fresh.modLane _ fun _ => by rfl)
    · exact fresh
  have level : s.EffortChanged l r₅ := (State.dropped_effort resized.1 resized.2 trained).congr (EffortKept.perfLane (Retains.refl _) _ _)
  have handed : s.EffortChanged l r₆ := by
    unfold r₆
    split
    · exact level.congr (EffortKept.handDecoder (Retains.refl _) _ _)
    · exact level
  have decoding : s.EffortChanged l r₇ := by
    unfold r₇
    split
    · exact handed.congr (EffortKept.setDecoder (Retains.refl _) _)
    · exact handed
  split
  · exact decoding
  · exact decoding.congr (EffortKept.deliverEye (Retains.refl _))

theorem effortChange_applies (due : (s.lane l).effortDue = true) (still : ∀ h : Half, (s.half h).snaps = []) : Does (.effortChangeApply l) s fun t =>
    t.get .EQ_EFFORT l = (if s.get .EQ_EFFORT l = s.effortLevel l then s.get .EQ_EFFORT l else s.effortLevel l % 4)
      ∧ (s.get .EQ_EFFORT l ≠ s.effortLevel l → t.get .EQ_EFFORT_CHG l = 1 ∧ (t.lane l).swap = none) ∧ (t.lane l).effortDue = false
      ∧ t.get .EQ_THROTTLED l = (if s.effortLevel l < s.app .EQ_EFFORT_MAX l then 1 else 0) := by
  refine ⟨s.applyEffort l, ?_, ?_⟩
  · refine (if_pos due).trans ?_
    rw [State.latchAll_of_no_snaps still]
    rfl
  · by_cases same : s.get .EQ_EFFORT l = s.effortLevel l
    · rw [State.applyEffort_same same, if_pos same]
      exact ⟨State.get_put_of_ne _ (by simp) _ _ _, fun h => absurd same h, State.takesEffort_effortDue, State.takesEffort_throttled⟩
    · have new := State.applyEffort_changes same
      rw [if_neg same]
      exact ⟨new.level, fun _ => ⟨new.changed, new.swap⟩, new.effortDue, new.throttled.trans State.takesEffort_throttled⟩

end
end Sys2Proof.Machine

namespace Sys2Proof

open Machine

/-- Settles O16: effort changes, rotations and their ends, failed slices and captures, clause by clause. -/
theorem effortAndSlices : Obligations.EffortAndSlices := by
  unfold Obligations.EffortAndSlices
  refine ⟨fun s l => effortChange_applies, fun s g l unsaved ready next due calm => rotationStart_runs ⟨unsaved, ready, next, due⟩ calm,
    fun s g => rotationStart_undue, fun s g l saves idle spare data calm untested _ => rotationStart_frees saves idle spare data calm untested,
    fun s g l unsaved ready next due soon => rotationStart_waits ⟨unsaved, ready, next, due⟩ soon, fun s g l => rotationComplete_swaps,
    fun s g l rx tx => rotationComplete_mismatch, fun s g l rx tx => rotationComplete_retires,
    fun s l none fresh alone => sliceFail_unserved fresh none alone, fun s l m none fresh idle _ _ => sliceFail_servedByIdle fresh none idle,
    fun s l spare fresh => sliceFail_servedBySpare fresh spare, fun s l v => captureWrite_waits, fun s l v => captureWrite_captures,
    fun s l => eqBankCapture_captures, fun s l => eqBankCapture_idle⟩

end Sys2Proof

/-! O10: the level of a lane, and the gain steps that it asks for. -/

namespace Sys2Proof.Frame

open Machine

variable {W : List (Fld × Nat)} {s t : State} (a : Frame W s t)
include a

theorem perfLane (l : Lane) (e n : Nat) : Frame W s (t.perfLane l e n) := a.ofSame (perfLane_same _ _ _ _)

theorem setLevel {l : Lane} (h : (.FE_LEVEL, l.val) ∈ W) (q : Int) : Frame W s (t.setLevel l q) := by
  unfold State.setLevel
  exact (a.putS (.inl h) _).modLane _ _

theorem setGainStep {l : Lane} (h : (.FE_GAIN_STEP, l.val) ∈ W) (n : Nat) : Frame W s (t.setGainStep l n) := by
  unfold State.setGainStep
  exact (a.put (.inl h) _).modLane _ _

theorem abandonHandover (l : Lane) : Frame W s (t.abandonHandover l) := by
  unfold State.abandonHandover
  split
  · exact ((a.put (.inr rfl) _).incSat (.inr rfl) _).modLane _ _
  · exact a

end Sys2Proof.Frame

namespace Sys2Proof.Machine

theorem ofSigned_mod (w : Nat) (i : Int) : ofSigned w i % 2 ^ w = ofSigned w i := Nat.mod_eq_of_lt (by
  have pos : (0 : Int) < (2 ^ w : Nat) := by positivity
  have lt := Int.emod_lt_of_pos i pos
  have nonneg := Int.emod_nonneg i pos.ne'
  rw [ofSigned]
  omega)

theorem State.perfLane_retains (s : State) (l : Lane) (e n : Nat) : Retains Fld.counted id id s (s.perfLane l e n) :=
  Retains.perfLane (fun _ h => h) (Retains.refl s) l e n

theorem State.perfLane_lane (s : State) (l : Lane) (e n : Nat) (m : Lane) : (s.perfLane l e n).lane m = s.lane m := (s.perfLane_retains l e n).lane m

/-! ### What is read from the applied values alone -/

section
variable {s t : State} (ap : t.ap = s.ap)
include ap

theorem State.app_of_ap {f : Fld} (h : f.info.shadow = true) (i : Nat) : t.app f i = s.app f i := by
  rw [State.app, State.app, if_pos h, if_pos h, ap]

theorem State.portOf_of_ap (l : Lane) : t.portOf l = s.portOf l := by
  have lanes : Machine.portLanes t.app = Machine.portLanes s.app := funext fun p => by
    simp only [Machine.portLanes, State.app_of_ap ap (f := .PORT_EN) rfl, State.app_of_ap ap (f := .PORT_RATE) rfl,
      State.app_of_ap ap (f := .PORT_LMODE) rfl]
  rw [State.portOf, portOfLane, lanes]
  rfl

theorem State.lmode_of_ap (l : Lane) : t.lmode l = s.lmode l := by
  rw [State.lmode, State.app_of_ap ap rfl, State.portOf_of_ap ap, State.lmode]

theorem State.startsBlind_of_ap (l : Lane) : t.startsBlind l = s.startsBlind l := by
  rw [State.startsBlind, State.lmode_of_ap ap, State.app_of_ap ap rfl, State.startsBlind]

end

section
variable {s : State} {l : Lane} {q d : Int}

/-! ### The level -/

theorem State.agcManual_of_auto (auto : s.app .FE_AGC_MODE l = 0) : s.agcManual l = false := by simp [State.agcManual, auto]

theorem State.agcManual_of_manual (manual : s.app .FE_AGC_MODE l = 1) : s.agcManual l = true := by simp [State.agcManual, manual]

theorem State.setLevel_lane : (s.setLevel l q).lane l = { s.lane l with condAt := if s.agcManual l then none else s.holdSince l q } := by
  rw [State.setLevel, State.lane_modLane_self, State.putS, State.put_lane]

theorem State.setLevel_get {f : Fld} (h : f ≠ .FE_LEVEL) (i : Nat) : (s.setLevel l q).get f i = s.get f i := State.get_put_of_ne s h i l _

theorem State.setLevel_app {f : Fld} (h : f ≠ .FE_LEVEL) (i : Nat) : (s.setLevel l q).app f i = s.app f i := State.app_put_of_ne s h i l _

theorem State.setLevel_level : (s.setLevel l q).get .FE_LEVEL l = ofSigned 8 (clampInt (-128) 127 q) :=
  (State.get_put_self s .FE_LEVEL l _).trans (ofSigned_mod 8 _)

theorem State.setLevel_agcManual : (s.setLevel l q).agcManual l = s.agcManual l := by
  rw [State.agcManual, State.setLevel_app (by simp), State.agcManual]

theorem State.setLevel_gainWanted (p : Int) : (s.setLevel l q).gainWanted l p = s.gainWanted l p := by
  simp only [State.gainWanted, State.setLevel_get (f := .FE_GAIN_STEP) (by simp), State.setLevel_app (f := .FE_STEP_MIN) (by simp),
    State.setLevel_app (f := .FE_STEP_MAX) (by simp)]

/-! ### A hold may end -/

/-- R67: the level stands at the error, and the step that it asks for is scheduled. -/
def State.schedules (s : State) (l : Lane) (q : Int) : State := (s.setLevel l q).modLane l fun x => { x with gain := s.gainWanted l q }

theorem exec_gainHoldExpiry : exec (.gainHoldExpiry l q) s =
    .next (settle (if s.agcManual l || !s.appSet .FE_RX_EN l || !(s.setLevel l q).heldLong l then s.setLevel l q else s.schedules l q)) := by
  change execGainHoldExpiry l q s = _
  rw [execGainHoldExpiry, State.setLevel_agcManual, State.setLevel_gainWanted, State.appSet, State.setLevel_app (by simp)]
  exact (apply_ite done _ _ _).symm

/-- In MANUAL, and while the hold has not ended, the level and the condition follow the error and nothing is scheduled. -/
theorem gainHoldExpiry_measures (wait : s.agcManual l = true ∨ (s.setLevel l q).heldLong l = false) : Does (.gainHoldExpiry l q) s fun t =>
    (t.lane l).gain = (s.lane l).gain ∧ (t.lane l).condAt = (if s.agcManual l then none else s.holdSince l q)
      ∧ t.get .FE_LEVEL l = ofSigned 8 (clampInt (-128) 127 q) ∧ Frame [(.FE_LEVEL, l.val)] s t := by
  refine ⟨s.setLevel l q, ?_, ?_, ?_, State.setLevel_level, (Frame.refl _ s).setLevel (by simp) q⟩
  · rw [exec_gainHoldExpiry, if_pos (by rcases wait with h | h <;> simp [h])]
  · rw [State.setLevel_lane]
  · rw [State.setLevel_lane]

theorem gainHoldExpiry_schedules (auto : s.agcManual l = false) (rx : s.app .FE_RX_EN l = 1) (held : (s.setLevel l q).heldLong l = true) :
    Does (.gainHoldExpiry l q) s fun t => (t.lane l).gain = s.gainWanted l q
      ∧ t.get .FE_LEVEL l = ofSigned 8 (clampInt (-128) 127 q) ∧ Frame [(.FE_LEVEL, l.val)] s t := by
  refine ⟨s.schedules l q, ?_, ?_, State.setLevel_level, ((Frame.refl _ s).setLevel (by simp) q).modLane _ _⟩
  · rw [exec_gainHoldExpiry, if_neg (by simp [auto, held, State.appSet, rx])]
  · rw [State.schedules, State.lane_modLane_self]

/-! ### A gain step takes effect -/

/-- The step waits no longer, and a hold begins anew. -/
def State.endsHold (s : State) (l : Lane) : State := s.modLane l fun x => { x with gain := none, condAt := none }

/-- R68: the PGA of the lane stands at step `n`, with the ratio of that step, and the level moves with it. -/
def State.movesGain (s : State) (l : Lane) (n : Nat) : State :=
  (((s.endsHold l).setGainStep l n).setLevel l (s.getS .FE_LEVEL l + 6 * ((n : Int) - s.get .FE_GAIN_STEP l))).perfLane l 0x08

theorem State.movesGain_get {f : Fld} (counted : f.counted = false) (level : f ≠ .FE_LEVEL) (n i : Nat) :
    (s.movesGain l n).get f i = (s.put .FE_GAIN_STEP l n).get f i := by
  rw [State.movesGain, (State.perfLane_retains ..).get _ _ counted, State.setLevel_get level]
  rfl

theorem State.movesGain_get_of_ne {f : Fld} (counted : f.counted = false) (level : f ≠ .FE_LEVEL) (step : f ≠ .FE_GAIN_STEP) (n i : Nat) :
    (s.movesGain l n).get f i = s.get f i := (State.movesGain_get counted level n i).trans (State.get_put_of_ne s step i l n)

theorem State.movesGain_inData (n : Nat) : (s.movesGain l n).inData l = s.inData l := by
  rw [State.inData, State.movesGain_get_of_ne rfl (by simp) (by simp), State.inData]

theorem State.movesGain_lane (n : Nat) : ((s.movesGain l n).lane l).gain = none ∧ ((s.movesGain l n).lane l).comp = (s.lane l).pga.getD n 0x8000 := by
  rw [State.movesGain, State.perfLane_lane, State.setLevel_lane, State.setGainStep, State.lane_modLane_self, State.put_lane,
    State.endsHold, State.lane_modLane_self]
  exact ⟨rfl, rfl⟩

theorem State.movesGain_frame {W : List (Fld × Nat)} (step : (.FE_GAIN_STEP, l.val) ∈ W) (level : (.FE_LEVEL, l.val) ∈ W) (n : Nat) :
    Frame W s (s.movesGain l n) :=
  ((((Frame.refl W s).modLane l _).setGainStep step n).setLevel level _).perfLane l _ _

/-- The step that the lane takes: the present one moved by `d`, within STEP_MIN to STEP_MAX. -/
def State.gainAfter (s : State) (l : Lane) (d : Int) : Nat := s.stepInRange l (s.get .FE_GAIN_STEP l + d)

theorem State.takeGain_same (same : s.gainAfter l d = s.get .FE_GAIN_STEP l) : s.takeGain l d = s.endsHold l := if_pos same

theorem State.takeGain_moves (moves : s.gainAfter l d ≠ s.get .FE_GAIN_STEP l) : s.takeGain l d =
    if s.inData l then ((s.movesGain l (s.gainAfter l d)).flag .FE_EVT_GAIN_STEP l).inc .FE_GAIN_CNT l else s.movesGain l (s.gainAfter l d) := by
  rw [← State.movesGain_inData (s.gainAfter l d)]
  exact if_neg moves

theorem exec_gainStepApply (gain : (s.lane l).gain = some d) (idle : s.inData l = false → (s.lane l).phase = .search)
    (calm : s.inData l = true → s.lmode l = 3 → s.swapNow l = false) : exec (.gainStepApply l) s = .next (settle (s.takeGain l d)) := by
  change execGainStepApply l s = _
  rw [execGainStepApply, gain]
  dsimp only
  rw [if_neg, if_neg]
  · rfl
  · simp only [Bool.and_eq_true, beq_iff_eq]
    rintro ⟨⟨data, mode⟩, swap⟩
    simp [calm data mode] at swap
  · simp only [Bool.and_eq_true, Bool.not_eq_true', bne_iff_ne]
    rintro ⟨data, phase⟩
    exact phase (idle data)

theorem gainStepApply_idle (none : (s.lane l).gain = none) : exec (.gainStepApply l) s = .next (settle s) := by
  change execGainStepApply l s = _
  rw [execGainStepApply, none]
  rfl

theorem gainStepApply_inData {n : Nat} (gain : (s.lane l).gain = some d) (data : s.inData l = true) (calm : s.lmode l = 3 → s.swapNow l = false)
    (after : n = s.gainAfter l d) (moves : n ≠ s.get .FE_GAIN_STEP l) : Does (.gainStepApply l) s fun t =>
      t.get .FE_GAIN_STEP l = n % 2 ^ Fld.width .FE_GAIN_STEP ∧ t.get .FE_EVT_GAIN_STEP l = 1
        ∧ t.get .FE_GAIN_CNT l = (s.get .FE_GAIN_CNT l + 1) % 2 ^ Fld.width .FE_GAIN_CNT
        ∧ (t.lane l).gain = none ∧ (t.lane l).comp = (s.lane l).pga.getD n 0x8000
        ∧ Frame [(.FE_GAIN_STEP, l.val), (.FE_LEVEL, l.val), (.FE_EVT_GAIN_STEP, l.val), (.FE_GAIN_CNT, l.val)] s t := by
  subst after
  refine ⟨s.takeGain l d, exec_gainStepApply gain (fun h => by simp [data] at h) fun _ => calm, ?_⟩
  rw [State.takeGain_moves moves, if_pos data]
  refine ⟨?_, ?_, ?_, (State.movesGain_lane _).1, (State.movesGain_lane _).2,
    ((State.movesGain_frame (by simp) (by simp) _).flag (.inl (by simp))).inc (.inl (by simp)) _⟩
  · rw [State.inc, State.get_put_of_ne _ (by simp), State.flag, State.get_put_of_ne _ (by simp), State.movesGain_get rfl (by simp), State.get_put_self]
  · rw [State.inc, State.get_put_of_ne _ (by simp)]
    exact State.get_put_self ..
  · rw [State.inc, State.get_put_self, State.flag, State.get_put_of_ne _ (by simp), State.movesGain_get_of_ne rfl (by simp) (by simp)]

theorem gainStepApply_searching (gain : (s.lane l).gain = some d) (data : s.inData l = false) (search : (s.lane l).phase = .search) :
    Does (.gainStepApply l) s fun t =>
      t.get .FE_GAIN_STEP l % 2 ^ Fld.width .FE_GAIN_STEP = s.gainAfter l d % 2 ^ Fld.width .FE_GAIN_STEP
        ∧ (t.lane l).gain = none ∧ Frame [(.FE_GAIN_STEP, l.val), (.FE_LEVEL, l.val)] s t := by
  refine ⟨s.takeGain l d, exec_gainStepApply gain (fun _ => search) fun h => by simp [data] at h, ?_⟩
  by_cases same : s.gainAfter l d = s.get .FE_GAIN_STEP l
  · rw [State.takeGain_same same, same]
    exact ⟨rfl, by rw [State.endsHold, State.lane_modLane_self], (Frame.refl _ s).modLane _ _⟩
  · rw [State.takeGain_moves same, if_neg (by simp [data])]
    refine ⟨?_, (State.movesGain_lane _).1, State.movesGain_frame (by simp) (by simp) _⟩
    rw [State.movesGain_get rfl (by simp), State.get_put_self, Nat.mod_mod]

/-! ### Overload -/

theorem overloadStep_steps {clips samples : Nat} (ready : s.overloadReady l = true) (clipped : samples < clips * 1000) :
    Does (.overloadStep l clips samples) s fun t =>
      (t.lane l).gain = some (-1) ∧ (t.lane l).condAt = none ∧ (t.lane l).overAt = some (s.ticks l.half) ∧ t.get .FE_OVERLOAD_STEP l = 1
        ∧ t.get .FE_GAIN_STEP l = s.get .FE_GAIN_STEP l ∧ Frame [(.FE_OVERLOAD_STEP, l.val)] s t := by
  let steps (x : LaneS) : LaneS := { x with gain := some (-1), condAt := none, overAt := some (s.ticks l.half) }
  have frame : Frame [(.FE_OVERLOAD_STEP, l.val)] s (((s.abandonHandover l).modLane l steps).flag .FE_OVERLOAD_STEP l) :=
    (((Frame.refl _ s).abandonHandover l).modLane l _).flag (.inl (by simp))
  refine ⟨_, if_pos (by simp [ready, clipped]), ?_, ?_, ?_, State.get_put_self .., frame.get _ _ (by simp) rfl, frame⟩
  all_goals
    rw [State.flag, State.put_lane, State.lane_modLane_self]

theorem overloadStep_clean {clips samples : Nat} (few : clips * 1000 ≤ samples) : exec (.overloadStep l clips samples) s = .next (settle s) :=
  if_neg (by simp; omega)

/-! ### Signal detect -/

/-- Every field but LEAVE_DATA. -/
def Fld.notLeave : Fld → Bool
  | .ACQ_LEAVE_DATA => false
  | _ => true

theorem Fld.notLeave_of_counted (f : Fld) (h : f.counted = true) : f.notLeave = true := by
  unfold Fld.notLeave
  split
  · exact absurd h (by decide)
  · rfl

/-- LEAVE_DATA and the applied values are as before. -/
abbrev LeaveKept (s t : State) : Prop := Retains Fld.notLeave (fun _ => ()) (fun _ => ()) s t

namespace LeaveKept

variable {t : State} (a : LeaveKept s t)
include a

theorem endRamp : LeaveKept s (t.endRamp l) := (Retains.modLane a l fun _ => rfl).each fun r h => (Retains.refl r).modHalf h _

theorem abandonSlice : LeaveKept s (t.abandonSlice l) := by
  unfold State.abandonSlice
  exact Retains.ite (((Retains.modGroup a _ fun _ => rfl).put rfl _ _).put rfl _ _) a

theorem cancelSwaps : LeaveKept s (t.cancelSwaps l) := by
  unfold State.cancelSwaps
  extract_lets cmd r₁ r₂
  have ended : LeaveKept s r₂ := ((Retains.modLane a _ fun _ => rfl).put rfl _ _).put rfl _ _
  cases cmd with
  | some c => exact Retains.complete Fld.notLeave_of_counted ended _ _
  | none => exact ended

theorem setCwLock (b : Bool) : LeaveKept s (t.setCwLock l b) := by
  unfold State.setCwLock
  exact Retains.ite a ((Retains.put a rfl _ _).put rfl _ _)

theorem setDecoder (n : Nat) : LeaveKept s (t.setDecoder l n) := by
  unfold State.setDecoder
  exact Retains.ite a ((Retains.put a rfl _ _).put rfl _ _)

theorem clearAcq : LeaveKept s (t.clearAcq l) := by
  unfold State.clearAcq
  exact (((((Retains.put a rfl _ _).put rfl _ _).put rfl _ _).put rfl _ _).put rfl _ _).modLane _ fun _ => rfl

theorem freshLock : LeaveKept s (t.freshLock l) := by
  unfold State.freshLock
  exact Retains.ite (a.setCwLock _) a

theorem startAdapt : LeaveKept s (t.startAdapt l) := by
  unfold State.startAdapt
  exact (Retains.put a rfl _ _).modLane _ fun _ => rfl

end LeaveKept

/-- R268: a lane that leaves DATA shows it. -/
theorem State.endData_leaves (data : s.inData l = true) : (s.endData l).get .ACQ_LEAVE_DATA l = 1 := by
  unfold State.endData
  rw [if_pos data]
  extract_lets r₁ r₂ r₃ r₄ r₅ r₆ r₇ r₈
  have ramp : LeaveKept r₁ r₃ := LeaveKept.endRamp (Retains.modLane (Retains.refl _) _ fun _ => rfl)
  have run : LeaveKept r₁ r₄ := Retains.ite ((ramp.put rfl _ _).put rfl _ _) ramp
  have locks : LeaveKept r₁ r₆ := (run.abandonSlice.cancelSwaps.setCwLock false).setDecoder 3
  have ended : LeaveKept r₁ r₈ := ((((Retains.put locks rfl _ _).put rfl _ _).put rfl _ _).put rfl _ _).modLane _ fun _ => rfl
  exact (((ended.put rfl _ _).put rfl _ _).get .ACQ_LEAVE_DATA l rfl).trans (State.get_put_self ..)

theorem State.acquire_leaves (data : s.inData l = true) : (s.acquire l).get .ACQ_LEAVE_DATA l = 1 := by
  have fresh : LeaveKept (s.endData l) (((s.endData l).clearAcq l).freshLock l) := (LeaveKept.clearAcq (Retains.refl _)).freshLock
  have acquired : LeaveKept (s.endData l) (s.acquire l) := by
    unfold State.acquire State.toBlind State.toLink
    exact Retains.ite ((LeaveKept.startAdapt (fresh.put rfl _ _)).modLane _ fun _ => rfl)
      ((LeaveKept.startAdapt (((fresh.put rfl _ _).put rfl _ _).put rfl _ _)).modLane _ fun _ => rfl)
  exact (acquired.get _ _ rfl).trans (State.endData_leaves data)

/-- R247 and R268: a lane starts acquisition in BLIND or in LINK. -/
theorem State.acquire_state : (s.acquire l).get .ACQ_STATE l = if s.startsBlind l then 5 else 1 := by
  unfold State.acquire
  split
  · exact State.toBlind_acqState s l
  · exact State.toLink_acqState s l

theorem State.raise_acqState (h : Half) (e : Ev) : (s.raise h e).get .ACQ_STATE l = s.get .ACQ_STATE l :=
  (Retains.raise (W := Fld.counted) (f := id) (g := id) (fun _ h => h) (Retains.refl s) h e).get _ _ rfl

theorem State.raise_leaveData (h : Half) (e : Ev) : (s.raise h e).get .ACQ_LEAVE_DATA l = s.get .ACQ_LEAVE_DATA l :=
  (Retains.raise (W := Fld.counted) (f := id) (g := id) (fun _ h => h) (Retains.refl s) h e).get _ _ rfl

theorem leaveData_same (s : State) (l : Lane) (why : Nat) : SameBut Fld.follows s (s.leaveData l why) := by
  unfold State.leaveData
  split
  · exact (acquire_same s l).trans (raise_same _ _ _)
  · exact SameBut.refl _ _

/-- R70: SIG_DET of the lane has cleared. -/
def State.clearsSignal (s : State) (l : Lane) : State := (s.put .FE_SIG_DET l 0).flag .FE_SIG_CHG l

theorem State.clearsSignal_acqState : (s.clearsSignal l).get .ACQ_STATE l = s.get .ACQ_STATE l := by
  rw [State.clearsSignal, State.flag, State.get_put_of_ne _ (by simp), State.get_put_of_ne _ (by simp)]

theorem State.clearsSignal_inData : (s.clearsSignal l).inData l = s.inData l := by
  rw [State.inData, State.clearsSignal_acqState, State.inData]

theorem State.loseSignal_same : SameBut Fld.follows (s.clearsSignal l) (s.loseSignal l) := by
  unfold State.loseSignal
  extract_lets r₁ r₂
  have left : SameBut Fld.follows (s.clearsSignal l) r₂ := leaveData_same r₁ l 1
  split
  · exact left.trans (toLink_same r₂ l)
  · exact left

theorem State.loseSignal_flags : (s.loseSignal l).get .FE_SIG_DET l = 0 ∧ (s.loseSignal l).get .FE_SIG_CHG l = 1 := by
  rw [State.loseSignal_same.get _ _ rfl, State.loseSignal_same.get _ _ rfl, State.clearsSignal, State.flag, State.get_put_of_ne _ (by simp),
    State.get_put_self, State.get_put_self]
  exact ⟨rfl, rfl⟩

/-- R268: a lane in DATA without signal leaves it. -/
theorem State.loseSignal_inData (data : s.inData l = true) : (s.loseSignal l).get .ACQ_STATE l = (if s.startsBlind l then 5 else 1)
    ∧ (s.loseSignal l).get .ACQ_LEAVE_DATA l = 1 := by
  have before : (s.clearsSignal l).inData l = true := State.clearsSignal_inData.trans data
  have state : ((s.clearsSignal l).leaveData l 1).get .ACQ_STATE l = if s.startsBlind l then 5 else 1 := by
    rw [State.leaveData, if_pos before, State.raise_acqState, State.acquire_state, State.startsBlind_of_ap (s := s) (t := s.clearsSignal l) rfl]
  have left : s.loseSignal l = (s.clearsSignal l).leaveData l 1 := if_neg (by
    change ((s.clearsSignal l).leaveData l 1).get .ACQ_STATE l ≠ acqTrain
    rw [state]
    split <;> decide)
  rw [left, state, State.leaveData, if_pos before, State.raise_leaveData, State.acquire_leaves before]
  exact ⟨rfl, rfl⟩

/-- R268: a lane in TRAIN without signal returns to LINK. -/
theorem State.loseSignal_training (train : s.get .ACQ_STATE l = 2) : (s.loseSignal l).get .ACQ_STATE l = 1 := by
  have before : (s.clearsSignal l).get .ACQ_STATE l = 2 := State.clearsSignal_acqState.trans train
  have stays : (s.clearsSignal l).leaveData l 1 = s.clearsSignal l := if_neg (by rw [State.inData, before]; decide)
  have back : s.loseSignal l = ((s.clearsSignal l).leaveData l 1).toLink l := if_pos (by
    change ((s.clearsSignal l).leaveData l 1).get .ACQ_STATE l = acqTrain
    rw [stays, before]
    rfl)
  rw [back, State.toLink_acqState]

theorem sigDetClear_clears (det : s.get .FE_SIG_DET l = 1) (top : s.get .FE_GAIN_STEP l = s.app .FE_STEP_MAX l)
    (low : q - s.appS .FE_TARGET l < -(s.app .FE_LOS_THR l : Int)) : Does (.sigDetClear l q) s fun t =>
      t.get .FE_SIG_DET l = 0 ∧ t.get .FE_SIG_CHG l = 1
        ∧ (s.inData l = true → t.get .ACQ_STATE l = (if s.startsBlind l then 5 else 1) ∧ t.get .ACQ_LEAVE_DATA l = 1)
        ∧ (s.get .ACQ_STATE l = 2 → t.get .ACQ_STATE l = 1) := by
  have measured {p : Int} : (s.setLevel l p).get .ACQ_STATE l = s.get .ACQ_STATE l := State.setLevel_get (by simp) _
  refine ⟨(s.setLevel l (q - s.appS .FE_TARGET l)).loseSignal l, if_pos (by simp [State.isSet, det, top, low]), State.loseSignal_flags.1,
    State.loseSignal_flags.2, fun data => ?_, fun train => State.loseSignal_training (measured.trans train)⟩
  rw [← State.startsBlind_of_ap (s := s) (t := s.setLevel l (q - s.appS .FE_TARGET l)) rfl]
  exact State.loseSignal_inData (by rwa [State.inData, measured])

theorem sigDetClear_near (near : -(s.app .FE_LOS_THR l : Int) ≤ q - s.appS .FE_TARGET l) : exec (.sigDetClear l q) s = .next (settle s) :=
  if_neg (by simp; omega)

theorem sigDetSet_sets (dark : s.get .FE_SIG_DET l ≠ 1) (rx : s.app .FE_RX_EN l = 1)
    (near : (q - s.appS .FE_TARGET l).natAbs + 12 ≤ s.app .FE_LOS_THR l) (clear : s.fiOn l 2 0 = none) : Answers (.sigDetSet l q) s fun t =>
      t.get .FE_SIG_DET l = 1 ∧ t.get .FE_SIG_CHG l = 1 ∧ Frame [(.FE_SIG_DET, l.val), (.FE_SIG_CHG, l.val), (.FE_LEVEL, l.val)] s t := by
  let sets := (s.put .FE_SIG_DET l 1).flag .FE_SIG_CHG l
  have frame : Frame [(.FE_SIG_DET, l.val), (.FE_SIG_CHG, l.val), (.FE_LEVEL, l.val)] s (sets.setLevel l (q - s.appS .FE_TARGET l)) :=
    (((Frame.refl _ s).put (.inl (by simp)) _).flag (.inl (by simp))).setLevel (by simp) _
  refine ⟨_, if_pos (by simp [State.isSet, State.appSet, dark, rx, near, clear]), ?_, ?_, frame.settle⟩
  · rw [settle_get rfl, State.setLevel_get (by simp), State.flag, State.get_put_of_ne _ (by simp), State.get_put_self]
    rfl
  · rw [settle_get rfl, State.setLevel_get (by simp), State.flag, State.get_put_self]
    rfl

theorem sigDetSet_far (far : s.app .FE_LOS_THR l < (q - s.appS .FE_TARGET l).natAbs + 12) : exec (.sigDetSet l q) s = .next (settle s) :=
  if_neg (by simp; omega)

end
end Sys2Proof.Machine

namespace Sys2Proof

open Machine

/-- Settles O10: the hold, the step that it schedules, the overload step and SIG_DET, clause by clause. -/
theorem gainAndSignalDetect : Obligations.GainAndSignalDetect := by
  unfold Obligations.GainAndSignalDetect
  refine ⟨fun s l q auto => gainHoldExpiry_schedules (State.agcManual_of_auto auto), fun s l q auto wait => ?_, fun s l q manual => ?_,
    fun s l => gainStepApply_idle, fun s l d n => gainStepApply_inData, fun s l d => gainStepApply_searching,
    fun s l clips samples data auto clipped above spaced => ?_, fun s l clips samples => overloadStep_clean, fun s l q => sigDetClear_clears,
    fun s l q _ => sigDetClear_near, fun s l q => sigDetSet_sets, fun s l q => sigDetSet_far⟩
  · have measures := gainHoldExpiry_measures (.inr wait)
    rwa [State.agcManual_of_auto auto] at measures
  · refine (gainHoldExpiry_measures (.inl (State.agcManual_of_manual manual))).mono fun t ⟨gain, cond, _, frame⟩ => ⟨gain, ?_, frame⟩
    rw [cond, State.agcManual_of_manual manual, if_pos rfl]
  · exact overloadStep_steps (by simp [State.overloadReady, data, State.agcManual_of_auto auto, above, spaced]) clipped

end Sys2Proof

/-! O11: a segment swap whose calibration spare has failed meanwhile. -/

namespace Sys2Proof.Machine

/-- A segment swap runs on lane 0 while a second segment has failed: the calibration spare has replaced it, and none is left (R62). -/
def swapWithoutSpare : State :=
  (State.reset.put .FE_SEG_FAILED 0 2).modLane 0 fun x => { x with segSwap := true, segRes := none, segCal := none }

/-- Both runs put a segment at twice the mean current. -/
def doubleCurrent : CalResult := ⟨⟨2000, 0, 0, 0⟩, ⟨2000, 0, 0, 0⟩, 1000, 0⟩

theorem swapWithoutSpare_runs : (swapWithoutSpare.lane 0).segSwap = true := by decide +kernel

theorem exec_segmentSwapComplete_withoutSpare :
    ∃ u, exec (.segmentSwapComplete 0 doubleCurrent) swapWithoutSpare = .next (settle u) ∧ u.get .FE_SEG_FAILED 0 = 2 :=
  ⟨_, rfl, by decide +kernel⟩

end Sys2Proof.Machine

namespace Sys2Proof

open Machine

/-- Refutes O11: its seventh clause has every swap that ends in a bad measurement fail a segment; in `swapWithoutSpare` the swap has lost its incoming
segment to the failure of another cell, so nothing is moved or measured, and SEG_FAILED stays 2. -/
theorem not_swingAndSegments : ¬ Obligations.SwingAndSegments := by
  rintro ⟨-, -, -, -, -, -, fails, -⟩
  obtain ⟨u, hu, two⟩ := exec_segmentSwapComplete_withoutSpare
  obtain ⟨t, same, -, failed, -⟩ := exists_same_of_next hu (fails swapWithoutSpare 0 doubleCurrent swapWithoutSpare_runs (by decide))
  have claim : t.get .FE_SEG_FAILED 0 = min (swapWithoutSpare.get .FE_SEG_FAILED 0 + 1) 3 := failed
  rw [same.get _ _ rfl, two, show swapWithoutSpare.get .FE_SEG_FAILED 0 = 2 by decide +kernel] at claim
  exact absurd claim (by decide)

end Sys2Proof

/-! O12: what a calibration of a lane's cells leaves alone. -/

namespace Sys2Proof.Machine

/-- The cells that a calibration of a cell of the lane may write (R373, R537, R543). -/
abbrev calCells (l : Lane) : List (Fld × Nat) :=
  [(.CAL_CAL_CNT, l), (.CAL_LAST_SEC, l), (.CAL_LAST_NS, l), (.CAL_DISAGREE, l), (.CAL_DIS_CNT, l), (.PH_AREA_OK, l.half), (.PH_USED_KIB, l.half)]

/-- The fields that a calibration of a lane's cell may write. -/
def Fld.ofCalibration : Fld → Bool
  | .CAL_CAL_CNT | .CAL_LAST_SEC | .CAL_LAST_NS | .CAL_DISAGREE | .CAL_DIS_CNT | .PH_AREA_OK | .PH_USED_KIB => true
  | f => f.counted

theorem Fld.ofCalibration_of_counted (f : Fld) (h : f.counted = true) : f.ofCalibration = true := by
  unfold Fld.ofCalibration
  split
  on_goal 8 => exact h
  all_goals rfl

section
variable {s t : State} {l : Lane} {kind cell : Nat} {cal : CalResult}

/-- A count that saturates is never cut to the field's width. -/
theorem State.incSat_get (f : Fld) (i n : Nat) : (s.incSat f i n).get f i = min (s.get f i + n) (2 ^ f.width - 1) := by
  have pos : 0 < 2 ^ f.width := by positivity
  rw [State.incSat, State.get_put_self, Nat.mod_eq_of_lt (by omega)]

theorem State.setTrim_retains (x : Trim) : Retains Fld.ofCalibration id id s (s.setTrim x) := { Retains.refl s with }

theorem State.setTrim_frame {W : List (Fld × Nat)} (x : Trim) : Frame W s (s.setTrim x) := { Frame.refl W s with }

theorem State.passTrims_retains (kind unit cell : Nat) (at' : Int) (vs : List Int) : Retains Fld.ofCalibration id id s (s.passTrims kind unit cell at' vs) :=
  (Retains.refl s).each fun _ _ => State.setTrim_retains _

theorem State.passTrims_frame {W : List (Fld × Nat)} (kind unit cell : Nat) (at' : Int) (vs : List Int) : Frame W s (s.passTrims kind unit cell at' vs) :=
  (Frame.refl W s).each fun _ _ _ => State.setTrim_frame _

theorem State.passTrims_halves (kind unit cell : Nat) (at' : Int) (vs : List Int) : (s.passTrims kind unit cell at' vs).halves = s.halves :=
  State.each_kept (P := fun t => t.halves = s.halves) _ (fun _ _ p => p) rfl

theorem State.calLane_retains (s : State) (l : Lane) (kind cell : Nat) (cal : CalResult) : Retains Fld.ofCalibration id id s (s.calLane l kind cell cal) := by
  unfold State.calLane State.calibrate
  refine Retains.ite ?_ ?_
  · exact (((Retains.refl s).put rfl _ _).put rfl _ _).raise Fld.ofCalibration_of_counted _ _
  · exact (((((State.passTrims_retains ..).put rfl _ _).put rfl _ _).put rfl _ _).put rfl _ _).put rfl _ _

theorem State.calLane_frame (s : State) (l : Lane) (kind cell : Nat) (cal : CalResult) : Frame (calCells l) s (s.calLane l kind cell cal) := by
  unfold State.calLane State.calibrate
  split
  · exact (((Frame.refl _ s).flag (.inl (by simp))).incSat (.inl (by simp)) _).raise _ _
  · exact (((((State.passTrims_frame ..).put (.inl (by simp)) _).put (.inl (by simp)) _).inc (.inl (by simp)) _).put (.inl (by simp)) _).put (.inl (by simp)) _

/-- A calibration that passes raises no event. -/
theorem State.calLane_halves (agree : calAgrees cal kind = true) : (s.calLane l kind cell cal).halves = s.halves := by
  rw [State.calLane, State.calibrate, if_neg (by simp [agree])]
  exact State.passTrims_halves ..

theorem State.calLane_disagrees (differ : calAgrees cal kind = false) : (s.calLane l kind cell cal).get .CAL_DISAGREE l = 1 := by
  rw [State.calLane, State.calibrate, if_pos (by simp [differ]), raise_get rfl, State.incSat, State.get_put_of_ne _ (by simp)]
  exact State.get_put_self ..

/-! ### The spare sub-ADC is calibrated -/

variable {p : Nat} (spare : (s.lane l).spare = some p)
include spare

theorem State.calSpare_eq : s.calSpare l cal = (s.calLane l 0 p cal).modLane l fun x => { x with sparePassed := calAgrees cal 0 } := by
  rw [State.calSpare, spare]

theorem State.calSpare_lane : (s.calSpare l cal).lane l = { s.lane l with sparePassed := calAgrees cal 0 } := by
  have same : (s.calLane l 0 p cal).lane l = s.lane l := (State.calLane_retains ..).lane l
  rw [State.calSpare_eq spare, State.lane_modLane_self, same]

theorem State.calSpare_get {f : Fld} (h : f.ofCalibration = false) (i : Nat) : (s.calSpare l cal).get f i = s.get f i := by
  rw [State.calSpare_eq spare]
  exact (State.calLane_retains ..).get f i h

theorem State.calSpare_ap : (s.calSpare l cal).ap = s.ap := by
  rw [State.calSpare_eq spare]
  exact (State.calLane_retains ..).ap

theorem State.calSpare_halves (agree : calAgrees cal 0 = true) : (s.calSpare l cal).halves = s.halves := by
  rw [State.calSpare_eq spare]
  exact State.calLane_halves agree

theorem State.calSpare_frame : Frame (calCells l) s (s.calSpare l cal) := by
  rw [State.calSpare_eq spare]
  exact (State.calLane_frame ..).modLane _ _

end
end Sys2Proof.Machine

/-! O12: the start of a sub-ADC rotation. -/

namespace Sys2Proof.Machine

section
variable {s t : State} {l : Lane} {n p : Nat} {cal : CalResult}

/-! ### Whether an action of the lane is near -/

/-- What of a lane says when its next bit-swap and gain step take place. -/
def LaneS.actions (x : LaneS) : Option RxSwap × Option (Nat × List (Nat × Nat)) × (Nat × Nat) × Option Int × Option (Int × Nat) :=
  (x.rxSwap, x.txSwap, (x.rxTick, x.txTick), x.gain, x.condAt)

theorem State.reqHolds_of_ap (ap : t.ap = s.ap) (r : Req) : t.reqHolds r l = s.reqHolds r l := by
  rw [State.reqHolds, State.portOf_of_ap ap]
  rfl

/-- R19 and R76: the actions of a lane are read from the halves, the applied values and the lane. -/
theorem State.actionSoon_congr (ap : t.ap = s.ap) (halves : t.halves = s.halves) (lane : (t.lane l).actions = (s.lane l).actions) :
    t.actionSoon l n = s.actionSoon l n := by
  simp only [LaneS.actions, Prod.mk.injEq] at lane
  obtain ⟨rx, tx, ⟨rxTick, txTick⟩, gain, cond⟩ := lane
  simp only [State.actionSoon, State.schedWithin, State.swapWithin, State.gainWithin, State.symIdx, State.txIdx, State.ticks, State.now, State.half,
    State.reqHolds_of_ap ap, halves, rx, tx, rxTick, txTick, gain, cond]
  rfl

/-! ### A rotation may start -/

/-- R71: all that a rotation needs but a spare that has passed. -/
structure State.MayRotate (s : State) (l : Lane) : Prop where
  enabled : s.appSet .FE_ROT_EN l = true
  data : s.inData l = true
  sound : s.get .FE_SADC_FAILED l = 0
  idle : s.get .FE_HANDOVER l ≠ 1
  served : s.calServed l.group = true

/-- The fields that say whether a rotation may start. -/
def Fld.mayRotate : Fld → Bool
  | .ACQ_STATE | .FE_SADC_FAILED | .FE_HANDOVER | .KND_STATE => true
  | _ => false

theorem Fld.ofCalibration_of_mayRotate {f : Fld} (h : f.mayRotate = true) : f.ofCalibration = false := by
  unfold Fld.mayRotate at h
  split at h
  on_goal 5 => cases h
  all_goals rfl

theorem State.MayRotate.congr (may : s.MayRotate l) (ap : t.ap = s.ap) (get : ∀ f i, f.mayRotate = true → t.get f i = s.get f i) : t.MayRotate l where
  enabled := by rw [State.appSet, State.app_of_ap ap rfl]; exact may.enabled
  data := by rw [State.inData, get _ _ rfl]; exact may.data
  sound := by rw [get _ _ rfl]; exact may.sound
  idle := by rw [get _ _ rfl]; exact may.idle
  served := by
    simp only [State.calServed, State.kndOut, get .KND_STATE _ rfl]
    exact may.served

theorem State.MayRotate.ready (may : s.MayRotate l) : s.sadcReady l = (s.lane l).sparePassed := by
  simp [State.sadcReady, State.isSet, may.enabled, may.data, may.sound, may.idle, may.served]

/-! ### A rotation starts, or waits -/

theorem State.handTrims_frame {W : List (Fld × Nat)} : Frame W s (s.handTrims l) := by
  unfold State.handTrims
  split
  · exact (Frame.refl W s).each fun _ _ _ => State.setTrim_frame _
  · exact Frame.refl W s

theorem State.handTrims_retains : Retains Fld.ofCalibration id id s (s.handTrims l) := by
  unfold State.handTrims
  split
  · exact (Retains.refl s).each fun _ _ => State.setTrim_retains _
  · exact Retains.refl s

/-- R72 step 1: the parallel run of the lane begins. -/
def State.beginsRun (s : State) (l : Lane) : State := ((s.put .FE_HANDOVER l 1).handTrims l).modLane l fun x => { x with sadcRetry := false }

/-- R71: the rotation of the lane waits to be retried. -/
def State.retriesLater (s : State) (l : Lane) : State := s.modLane l fun x => { x with sadcRetry := true }

theorem State.startRotation_eq : s.startRotation l =
    if !s.sadcReady l then s.retriesLater l
    else if s.actionSoon l (sadcRun (s.lmode l)) then (s.incSat .FE_HO_DEFER l).retriesLater l else s.beginsRun l := rfl

theorem State.beginsRun_handover : (s.beginsRun l).get .FE_HANDOVER l = 1 :=
  (State.handTrims_retains.get _ _ rfl).trans (State.get_put_self ..)

theorem State.beginsRun_lane : (s.beginsRun l).lane l = { s.lane l with sadcRetry := false } := by
  have same : ((s.put .FE_HANDOVER l 1).handTrims l).lane l = (s.put .FE_HANDOVER l 1).lane l := State.handTrims_retains.lane l
  rw [State.beginsRun, State.lane_modLane_self, same, State.put_lane]

theorem State.beginsRun_frame {W : List (Fld × Nat)} : Frame W s (s.beginsRun l) :=
  (((Frame.refl W s).put (.inr rfl) _).trans State.handTrims_frame).modLane _ _

section
variable (may : s.MayRotate l)
include may

theorem State.startRotation_begins (passed : (s.lane l).sparePassed = true) (calm : s.actionSoon l (sadcRun (s.lmode l)) = false) :
    s.startRotation l = s.beginsRun l := by
  rw [State.startRotation_eq, may.ready, passed, calm]
  rfl

theorem State.startRotation_deferred (passed : (s.lane l).sparePassed = true) (soon : s.actionSoon l (sadcRun (s.lmode l)) = true) :
    s.startRotation l = (s.incSat .FE_HO_DEFER l).retriesLater l := by
  rw [State.startRotation_eq, may.ready, passed, soon]
  rfl

theorem State.startRotation_unpassed (failed : (s.lane l).sparePassed = false) : s.startRotation l = s.retriesLater l := by
  rw [State.startRotation_eq, may.ready, failed]
  rfl

/-- R71: a rotation starts once the spare has passed its calibration. -/
theorem State.calSpare_begins (spare : (s.lane l).spare = some p) (agree : calAgrees cal 0 = true) (calm : s.actionSoon l (sadcRun (s.lmode l)) = false) :
    (s.calSpare l cal).startRotation l = (s.calSpare l cal).beginsRun l := by
  refine State.startRotation_begins (may.congr (State.calSpare_ap spare) fun f i h => State.calSpare_get spare (Fld.ofCalibration_of_mayRotate h) i) ?_ ?_
  · rw [State.calSpare_lane spare]
    exact agree
  · rw [State.lmode_of_ap (State.calSpare_ap spare),
      State.actionSoon_congr (State.calSpare_ap spare) (State.calSpare_halves spare agree) (by rw [State.calSpare_lane spare]; rfl), calm]

/-- R371: a spare that disagreed does not serve; its rotation is retried. -/
theorem State.calSpare_waits (spare : (s.lane l).spare = some p) (differ : calAgrees cal 0 = false) :
    (s.calSpare l cal).startRotation l = (s.calSpare l cal).retriesLater l := by
  refine State.startRotation_unpassed (may.congr (State.calSpare_ap spare) fun f i h => State.calSpare_get spare (Fld.ofCalibration_of_mayRotate h) i) ?_
  rw [State.calSpare_lane spare]
  exact differ

end

/-- What a rotation leaves that starts after a calibration of the spare. -/
theorem State.calSpare_beginsRun (spare : (s.lane l).spare = some p) (agree : calAgrees cal 0 = true) :
    ((s.calSpare l cal).beginsRun l).get .FE_HANDOVER l = 1 ∧ (((s.calSpare l cal).beginsRun l).lane l).sadcRetry = false
      ∧ (((s.calSpare l cal).beginsRun l).lane l).sparePassed = true ∧ Frame (calCells l) s ((s.calSpare l cal).beginsRun l) := by
  rw [State.beginsRun_lane, State.calSpare_lane spare]
  exact ⟨State.beginsRun_handover, rfl, agree, (State.calSpare_frame spare).trans State.beginsRun_frame⟩

/-! ### A rotation falls due -/

/-- R83: the next rotation of the lane is planned. -/
def State.plansRotation (s : State) (l : Lane) : State :=
  s.modLane l fun x => { x with sadcDue := dueAfter (s.ticks l.half) x.sadcDue (msTicks (clampPeriod (s.app .FE_SADC_PERIOD l))) }

theorem State.plansRotation_lane : ∃ due, (s.plansRotation l).lane l = { s.lane l with sadcDue := due } := ⟨_, State.lane_modLane_self ..⟩

theorem State.plansRotation_mayRotate (may : s.MayRotate l) : (s.plansRotation l).MayRotate l := may.congr rfl fun _ _ _ => rfl

theorem State.plansRotation_spare : ((s.plansRotation l).lane l).spare = (s.lane l).spare := by
  obtain ⟨due, h⟩ := State.plansRotation_lane (s := s) (l := l)
  rw [h]

theorem State.plansRotation_soon : (s.plansRotation l).actionSoon l n = s.actionSoon l n := by
  obtain ⟨due, h⟩ := State.plansRotation_lane (s := s) (l := l)
  exact State.actionSoon_congr rfl rfl (by rw [h]; rfl)

theorem exec_subadcRotationStart (due : (s.lane l).sadcDue ≤ s.ticks l.half) :
    exec (.subadcRotationStart l cal) s = .next (settle (((s.plansRotation l).calSpare l cal).startRotation l)) := if_neg (by simpa using due)

theorem subadcRotationStart_early (early : s.ticks l.half < (s.lane l).sadcDue) : exec (.subadcRotationStart l cal) s = .next (settle s) := if_pos early

section
variable (may : s.MayRotate l) (due : (s.lane l).sadcDue ≤ s.ticks l.half) (spare : (s.lane l).spare = some p)
include may due spare

theorem subadcRotationStart_begins (agree : calAgrees cal 0 = true) (calm : s.actionSoon l (sadcRun (s.lmode l)) = false) :
    Does (.subadcRotationStart l cal) s fun t =>
      t.get .FE_HANDOVER l = 1 ∧ (t.lane l).sadcRetry = false ∧ (t.lane l).sparePassed = true ∧ Frame (calCells l) s t := by
  have planned : ((s.plansRotation l).lane l).spare = some p := State.plansRotation_spare.trans spare
  refine ⟨((s.plansRotation l).calSpare l cal).beginsRun l, ?_, ?_⟩
  · rw [exec_subadcRotationStart due, State.calSpare_begins (State.plansRotation_mayRotate may) planned agree]
    rwa [State.plansRotation_soon, State.lmode_of_ap (s := s) (t := s.plansRotation l) rfl]
  · obtain ⟨run, retry, passed, frame⟩ := State.calSpare_beginsRun planned agree
    exact ⟨run, retry, passed, ((Frame.refl _ s).modLane _ _).trans frame⟩

theorem subadcRotationStart_disagrees (differ : calAgrees cal 0 = false) : Does (.subadcRotationStart l cal) s fun t =>
      t.get .FE_HANDOVER l = s.get .FE_HANDOVER l ∧ t.get .CAL_DISAGREE l = 1 ∧ (t.lane l).sparePassed = false ∧ (t.lane l).sadcRetry = true
        ∧ Frame (calCells l) s t := by
  have planned : ((s.plansRotation l).lane l).spare = some p := State.plansRotation_spare.trans spare
  refine ⟨((s.plansRotation l).calSpare l cal).retriesLater l, ?_, State.calSpare_get planned rfl _, ?_, ?_, ?_,
    ((((Frame.refl _ s).modLane _ _).trans (State.calSpare_frame planned)).modLane _ _)⟩
  · rw [exec_subadcRotationStart due, State.calSpare_waits (State.plansRotation_mayRotate may) planned differ]
  · rw [State.calSpare_eq planned]
    exact State.calLane_disagrees differ
  · rw [State.retriesLater, State.lane_modLane_self, State.calSpare_lane planned]
    exact differ
  · rw [State.retriesLater, State.lane_modLane_self]

end

/-! ### A rotation is tried again -/

/-- The spare is calibrated again, where it was. -/
def State.calSpareAgain (s : State) (l : Lane) : Option CalResult → State
  | some cal => s.calSpare l cal
  | none => s

theorem exec_subadcRotationRetry (retry : (s.lane l).sadcRetry = true) (again : Option CalResult) :
    exec (.subadcRotationRetry l again) s = .next (settle ((s.calSpareAgain l again).startRotation l)) := by
  cases again with
  | none => exact if_pos retry
  | some c => exact if_pos retry

theorem subadcRotationRetry_idle (again : Option CalResult) (idle : (s.lane l).sadcRetry = false) :
    exec (.subadcRotationRetry l again) s = .next (settle s) := if_neg (by simp [idle])

section
variable (may : s.MayRotate l)
include may

theorem subadcRotationRetry_begins (passed : (s.lane l).sparePassed = true) (calm : s.actionSoon l (sadcRun (s.lmode l)) = false)
    (retry : (s.lane l).sadcRetry = true) :
    Does (.subadcRotationRetry l none) s fun t => t.get .FE_HANDOVER l = 1 ∧ (t.lane l).sadcRetry = false ∧ Frame [] s t := by
  refine ⟨s.beginsRun l, ?_, State.beginsRun_handover, ?_, State.beginsRun_frame⟩
  · rw [exec_subadcRotationRetry retry, State.calSpareAgain, State.startRotation_begins may passed calm]
  · rw [State.beginsRun_lane]

theorem subadcRotationRetry_calibrates (spare : (s.lane l).spare = some p) (agree : calAgrees cal 0 = true)
    (calm : s.actionSoon l (sadcRun (s.lmode l)) = false) (retry : (s.lane l).sadcRetry = true) :
    Does (.subadcRotationRetry l (some cal)) s fun t =>
      t.get .FE_HANDOVER l = 1 ∧ (t.lane l).sadcRetry = false ∧ (t.lane l).sparePassed = true ∧ Frame (calCells l) s t := by
  refine ⟨(s.calSpare l cal).beginsRun l, ?_, State.calSpare_beginsRun spare agree⟩
  rw [exec_subadcRotationRetry retry, State.calSpareAgain, State.calSpare_begins may spare agree calm]

theorem subadcRotationRetry_deferred (passed : (s.lane l).sparePassed = true) (soon : s.actionSoon l (sadcRun (s.lmode l)) = true)
    (retry : (s.lane l).sadcRetry = true) : Does (.subadcRotationRetry l none) s fun t =>
      t.get .FE_HANDOVER l = s.get .FE_HANDOVER l ∧ t.get .FE_HO_DEFER l = min (s.get .FE_HO_DEFER l + 1) (2 ^ Fld.width .FE_HO_DEFER - 1)
        ∧ (t.lane l).sadcRetry = true ∧ Frame [] s t := by
  refine ⟨(s.incSat .FE_HO_DEFER l).retriesLater l, ?_, State.get_put_of_ne _ (by simp) _ _ _, State.incSat_get .., ?_,
    ((Frame.refl _ s).incSat (.inr rfl) _).modLane _ _⟩
  · rw [exec_subadcRotationRetry retry, State.calSpareAgain, State.startRotation_deferred may passed soon]
  · rw [State.retriesLater, State.lane_modLane_self]

end
end
end Sys2Proof.Machine

/-! O12: a sub-ADC fails. -/

namespace Sys2Proof.Machine

/-- The fields that the end of an injection writes. -/
def Fld.ofSlots : Fld → Bool
  | .FIS_ACTIVE | .FIS_KIND | .FIS_SCOPE | .FIS_ID | .FIS_HOST_TAG | .FI_ACTIVE_MAP => true
  | f => f.counted

theorem Fld.ofSlots_of_counted (f : Fld) (h : f.counted = true) : f.ofSlots = true := by
  unfold Fld.ofSlots
  split
  on_goal 7 => exact h
  all_goals rfl

section
variable {s : State} {l : Lane} {c : Cause} {n : Nat}

theorem State.endSlotsIn_retains (h : Half) (ls : List Lane) : Retains Fld.ofSlots id id s (s.endSlotsIn h ls) :=
  (Retains.refl s).each fun u _ => Retains.ite
    ((((((((Retains.refl u).put rfl _ _).put rfl _ _).put rfl _ _).put rfl _ _).put rfl _ _).modFi _ _).put rfl _ _) (Retains.refl u)

/-- R39: a new fence of the lane changes nothing but its causes, the injections and the counts of events. -/
theorem State.fenceIn_lane_retains (new : c ∉ (s.lane l).fences) :
    Retains Fld.ofSlots id id (s.modLane l fun x => { x with fences := (s.lane l).fences ++ [c] }) (s.fenceIn (.lane l) c) := by
  unfold State.fenceIn
  rw [if_neg (show c ∉ s.causes (.lane l) from new)]
  exact (State.endSlotsIn_retains _ _).raise Fld.ofSlots_of_counted _ _

theorem State.fenceIn_lane_of_mem (had : c ∈ (s.lane l).fences) : s.fenceIn (.lane l) c = s := if_pos had

theorem State.fenceIn_lane_get {f : Fld} (h : f.ofSlots = false) (i : Nat) : (s.fenceIn (.lane l) c).get f i = s.get f i := by
  by_cases had : c ∈ (s.lane l).fences
  · rw [State.fenceIn_lane_of_mem had]
  · exact (State.fenceIn_lane_retains had).get f i h

/-- R39: a fenced lane has the cause. -/
theorem State.mem_fenceIn_lane : c ∈ ((s.fenceIn (.lane l) c).lane l).fences := by
  by_cases had : c ∈ (s.lane l).fences
  · rwa [State.fenceIn_lane_of_mem had]
  · have fenced : (s.fenceIn (.lane l) c).lane l = _ := (State.fenceIn_lane_retains had).lane l
    rw [fenced, id, State.lane_modLane_self]
    exact List.mem_append_right _ (List.mem_singleton_self c)

/-- R73 to R75: the sub-ADC has left the ring of the lane, and the failure shows. -/
def State.showsLoss (s : State) (l : Lane) (sub : Nat) : State :=
  ((((s.modLane l fun x => x.removeSub sub).put .FE_SADC_FAILED l (min (s.get .FE_SADC_FAILED l + 1) 2)).countSpares l.group).flag
    .FE_SADC_FAIL l).put .CAL_INTERP_ONLY l 1

theorem State.showsLoss_lane (sub : Nat) : (s.showsLoss l sub).lane l = (s.lane l).removeSub sub := by
  simp only [State.showsLoss, State.countSpares, State.flag, State.put_lane, State.lane_modLane_self]

theorem State.showsLoss_failed (sub : Nat) : (s.showsLoss l sub).get .FE_SADC_FAILED l = min (s.get .FE_SADC_FAILED l + 1) 2 := by
  rw [State.showsLoss, State.get_put_of_ne _ (by simp), State.flag, State.get_put_of_ne _ (by simp), State.countSpares, State.get_put_of_ne _ (by simp),
    State.get_put_of_ne _ (by simp), State.get_put_self, Nat.mod_eq_of_lt (lt_of_le_of_lt (Nat.min_le_right _ 2) (by decide))]

theorem State.showsLoss_fail (sub : Nat) : (s.showsLoss l sub).get .FE_SADC_FAIL l = 1 := by
  rw [State.showsLoss, State.get_put_of_ne _ (by simp)]
  exact State.get_put_self ..

theorem State.showsLoss_interpOnly (sub : Nat) : (s.showsLoss l sub).get .CAL_INTERP_ONLY l = 1 := State.get_put_self ..

/-- The failure is reported, and stands in the repair log. -/
def State.reportsLoss (s : State) (l : Lane) (sub : Nat) : State :=
  ((s.showsLoss l sub).raise l.half { sev := 1, code := 0x0202, scope := 4, id := l, d0 := min (s.get .FE_SADC_FAILED l + 1) 2 }).logRepair l.half 1
    (48 * sub + l)

theorem State.reportsLoss_retains (sub : Nat) : Retains Fld.ofRepairs id id (s.showsLoss l sub) (s.reportsLoss l sub) :=
  ((Retains.refl _).raise Fld.ofRepairs_of_counted _ _).trans (State.logRepair_retains ..)

theorem State.sadcFail_eq (s : State) (l : Lane) (sub : Nat) : s.sadcFail l sub =
    if min (s.get .FE_SADC_FAILED l + 1) 2 = 2 then (s.reportsLoss l sub).fenceIn (.lane l) .feSadc else s.reportsLoss l sub := rfl

theorem State.sadcFail_get {f : Fld} (repairs : f.ofRepairs = false) (slots : f.ofSlots = false) (sub i : Nat) :
    (s.sadcFail l sub).get f i = (s.showsLoss l sub).get f i := by
  rw [State.sadcFail_eq, ← (State.reportsLoss_retains sub).get f i repairs]
  split
  · exact State.fenceIn_lane_get slots i
  · rfl

/-- R75: the first failure of a lane leaves it without a spare. -/
theorem State.sadcFail_first (sound : s.get .FE_SADC_FAILED l = 0) (sub : Nat) : (s.sadcFail l sub).lane l = (s.lane l).removeSub sub := by
  rw [State.sadcFail_eq, if_neg (by simp [sound])]
  exact ((State.reportsLoss_retains sub).lane l).trans (State.showsLoss_lane sub)

/-- R75: the second failure fences the lane. -/
theorem State.sadcFail_second (failed : 1 ≤ s.get .FE_SADC_FAILED l) (sub : Nat) : Cause.feSadc ∈ ((s.sadcFail l sub).lane l).fences := by
  rw [State.sadcFail_eq, if_pos (by omega)]
  exact State.mem_fenceIn_lane

end
end Sys2Proof.Machine

/-! O12: the end of a parallel run, and the comparison with the ensemble. -/

namespace Sys2Proof.Machine

section
variable {s : State} {l : Lane} {c : HandoverCmp} {p k n : Nat}

/-! ### The outputs agree -/

/-- R72 step 4: the sub-ADCs agreed; the incoming one serves. -/
def State.handsOver (s : State) (l : Lane) : State := (((s.put .FE_HANDOVER l 0).inc .FE_HO_CNT l).perfLane l 0x09).modLane l LaneS.handOver

theorem exec_handoverEnd_agrees (run : s.get .FE_HANDOVER l = 1) (agree : handoverAgrees c = true) :
    exec (.handoverEnd l c) s = .next (settle (s.handsOver l)) := (if_neg (by simp [State.isSet, run])).trans (if_pos agree)

theorem State.handsOver_lane : (s.handsOver l).lane l = (s.lane l).handOver := by
  rw [State.handsOver, State.lane_modLane_self, State.perfLane_lane, State.inc, State.put_lane, State.put_lane]

theorem State.handsOver_get {f : Fld} (h : f.counted = false) (i : Nat) :
    (s.handsOver l).get f i = ((s.put .FE_HANDOVER l 0).inc .FE_HO_CNT l).get f i := (State.perfLane_retains ..).get f i h

theorem handoverEnd_agrees (run : s.get .FE_HANDOVER l = 1) (spare : (s.lane l).spare = some p) (outgoing : (s.lane l).outgoing = some (k, n))
    (agree : handoverAgrees c = true) : Does (.handoverEnd l c) s fun t =>
      t.get .FE_HANDOVER l = 0 ∧ t.get .FE_HO_CNT l = (s.get .FE_HO_CNT l + 1) % 2 ^ Fld.width .FE_HO_CNT ∧ (t.lane l).disagree = 0
        ∧ (t.lane l).phases = (s.lane l).phases.set k p ∧ (t.lane l).spare = some n ∧ Frame [(.FE_HO_CNT, l.val)] s t := by
  refine ⟨s.handsOver l, exec_handoverEnd_agrees run agree, ?_, ?_, ?_⟩
  · rw [State.handsOver_get rfl, State.inc, State.get_put_of_ne _ (by simp), State.get_put_self]
    rfl
  · rw [State.handsOver_get rfl, State.inc, State.get_put_self, State.get_put_of_ne _ (by simp)]
  · rw [State.handsOver_lane, LaneS.handOver, spare, outgoing]
    exact ⟨rfl, rfl, rfl, ((((Frame.refl _ s).put (.inr rfl) _).inc (.inl (by simp)) _).perfLane _ _ _).modLane _ _⟩

/-! ### The outputs disagree -/

/-- R72 and R73: the sub-ADCs disagreed; the third time in a row ends the count. -/
def State.disagrees (s : State) (l : Lane) : State :=
  (((s.put .FE_HANDOVER l 0).flag .FE_HO_DISAGREE l).incSat .FE_HO_DISAGREE_CNT l).modLane l fun x => { x with disagree := ((s.lane l).disagree + 1) % 3 }

theorem State.disagrees_lane : (s.disagrees l).lane l = { s.lane l with disagree := ((s.lane l).disagree + 1) % 3 } := by
  simp only [State.disagrees, State.incSat, State.flag, State.put_lane, State.lane_modLane_self]

theorem State.disagrees_sound : (s.disagrees l).get .FE_SADC_FAILED l = s.get .FE_SADC_FAILED l := by
  rw [State.disagrees, State.modLane_get, State.incSat, State.get_put_of_ne _ (by simp), State.flag, State.get_put_of_ne _ (by simp),
    State.get_put_of_ne _ (by simp)]

theorem handoverEnd_disagrees (run : s.get .FE_HANDOVER l = 1) (differ : handoverAgrees c = false) (few : (s.lane l).disagree < 2) :
    Does (.handoverEnd l c) s fun t =>
      t.get .FE_HANDOVER l = 0 ∧ t.get .FE_HO_DISAGREE l = 1 ∧ (t.lane l).disagree = (s.lane l).disagree + 1
        ∧ (t.lane l).phases = (s.lane l).phases ∧ Frame [(.FE_HO_DISAGREE, l.val), (.FE_HO_DISAGREE_CNT, l.val)] s t := by
  refine ⟨s.disagrees l, ?_, ?_, ?_, ?_, ?_,
    ((((Frame.refl _ s).put (.inr rfl) _).flag (.inl (by simp))).incSat (.inl (by simp)) _).modLane _ _⟩
  · change execHandoverEnd l c s = _
    rw [execHandoverEnd, if_neg (by simp [State.isSet, run])]
    dsimp only
    rw [if_neg (by simp [differ]), State.put_lane, decide_eq_true (by omega)]
    rfl
  · rw [State.disagrees, State.modLane_get, State.incSat, State.get_put_of_ne _ (by simp), State.flag, State.get_put_of_ne _ (by simp), State.get_put_self]
    rfl
  · rw [State.disagrees, State.modLane_get, State.incSat, State.get_put_of_ne _ (by simp)]
    exact State.get_put_self ..
  · rw [State.disagrees_lane, Nat.mod_eq_of_lt (by omega)]
  · rw [State.disagrees_lane]

/-- R73: the third disagreement in a row has the pair calibrated. -/
theorem exec_handoverEnd_third (run : s.get .FE_HANDOVER l = 1) (differ : handoverAgrees c = false) (third : (s.lane l).disagree = 2)
    (spare : (s.lane l).spare = some p) (outgoing : (s.lane l).outgoing = some (k, n)) :
    exec (.handoverEnd l c) s = .next (settle ((s.disagrees l).examinePair l p n c)) := by
  have ring : ((s.disagrees l).lane l).spare = some p ∧ ((s.disagrees l).lane l).outgoing = some (k, n) := by
    rw [State.disagrees_lane]
    exact ⟨spare, outgoing⟩
  change execHandoverEnd l c s = _
  rw [execHandoverEnd, if_neg (by simp [State.isSet, run])]
  dsimp only
  rw [if_neg (by simp [differ]), State.put_lane, decide_eq_false (by omega)]
  change (match false, ((s.disagrees l).lane l).spare, ((s.disagrees l).lane l).outgoing with
    | false, some p, some o => done ((s.disagrees l).examinePair l p o.2 c)
    | _, _, _ => done (s.disagrees l)) = _
  rw [ring.1, ring.2]
  rfl

/-- R73: of a pair of which the incoming sub-ADC alone is outside the limits, that one fails. -/
theorem State.examinePair_incoming (bad : calBad c.incoming 0 = true) (good : calBad c.outgoing 0 = false) :
    s.examinePair l p n c = ((s.calLane l 0 p c.incoming).calLane l 0 n c.outgoing).sadcFail l p := by
  rw [State.examinePair, bad, good]
  rfl

theorem handoverEnd_fails (run : s.get .FE_HANDOVER l = 1) (differ : handoverAgrees c = false) (third : (s.lane l).disagree = 2)
    (spare : (s.lane l).spare = some p) (outgoing : (s.lane l).outgoing = some (k, n)) (bad : calBad c.incoming 0 = true)
    (good : calBad c.outgoing 0 = false) (sound : s.get .FE_SADC_FAILED l = 0) : Does (.handoverEnd l c) s fun t =>
      t.get .FE_SADC_FAILED l = 1 ∧ t.get .FE_SADC_FAIL l = 1 ∧ (t.lane l).disagree = 0 ∧ (t.lane l).spare = none ∧ t.get .CAL_INTERP_ONLY l = 1 := by
  have measured : Retains Fld.ofCalibration id id (s.disagrees l) (((s.disagrees l).calLane l 0 p c.incoming).calLane l 0 n c.outgoing) :=
    (State.calLane_retains ..).trans (State.calLane_retains ..)
  refine ⟨_, exec_handoverEnd_third run differ third spare outgoing, ?_⟩
  rw [State.examinePair_incoming bad good]
  generalize ((s.disagrees l).calLane l 0 p c.incoming).calLane l 0 n c.outgoing = r at measured ⊢
  have whole : r.get .FE_SADC_FAILED l = 0 := (measured.get _ _ rfl).trans (State.disagrees_sound.trans sound)
  have lane : r.lane l = { s.lane l with disagree := 0 } := (measured.lane l).trans (by rw [id, State.disagrees_lane, third])
  have removed : (r.sadcFail l p).lane l = { s.lane l with disagree := 0, spare := none } := by
    rw [State.sadcFail_first whole, lane, LaneS.removeSub, if_pos spare]
  refine ⟨?_, ?_, ?_, ?_, ?_⟩
  · rw [State.sadcFail_get rfl rfl, State.showsLoss_failed, whole]
    rfl
  · rw [State.sadcFail_get rfl rfl, State.showsLoss_fail]
  · rw [removed]
  · rw [removed]
  · rw [State.sadcFail_get rfl rfl, State.showsLoss_interpOnly]

/-! ### The comparison with the ensemble -/

variable {m : EnsembleMeasure}

/-- R74: the sub-ADCs that a comparison puts outside the limits, as the one before did. -/
def State.outsideTwice (s : State) (l : Lane) (m : EnsembleMeasure) : List Nat :=
  ((s.lane l).outsideNow m.devs).filter fun n => (s.lane l).outside.contains n

/-- R74 and R84: the comparison is noted, and whether the lane clips. -/
def State.compares (s : State) (l : Lane) (m : EnsembleMeasure) : State :=
  (s.putBool .FE_CLIP l (m.samples < m.clips * 10000)).modLane l fun x =>
    { x with outside := ((s.lane l).outsideNow m.devs).filter fun n => !(s.outsideTwice l m).contains n }

theorem exec_subadcEnsembleCheck (idle : s.get .FE_HANDOVER l ≠ 1) :
    exec (.subadcEnsembleCheck l m) s = .next (settle ((s.compares l m).each (s.outsideTwice l m) fun s n => s.sadcFail l n)) :=
  if_neg (by rw [State.isSet, State.putBool, State.get_put_of_ne _ (by simp)]; simpa using idle)

theorem State.compares_outside : ((s.compares l m).lane l).outside =
    ((s.lane l).outsideNow m.devs).filter fun n => !(s.outsideTwice l m).contains n := by
  rw [State.compares, State.lane_modLane_self]

theorem State.compares_failed : (s.compares l m).get .FE_SADC_FAILED l = s.get .FE_SADC_FAILED l := State.get_put_of_ne _ (by simp) _ _ _

theorem State.compares_clip : (s.compares l m).get .FE_CLIP l = if m.samples < m.clips * 10000 then 1 else 0 := by
  rw [State.compares, State.modLane_get, State.putBool, State.get_put_self]
  by_cases h : m.samples < m.clips * 10000
  · simp [h, show Fld.width .FE_CLIP = 1 from rfl]
  · simp [h]

theorem State.compares_frame : Frame [(.FE_CLIP, l.val)] s (s.compares l m) := ((Frame.refl _ s).putBool (.inl (by simp)) _).modLane _ _

theorem LaneS.outsideNow_nil {x : LaneS} {devs : List SubAdcDev} (good : (devs.all fun d => !sadcOff d.offset d.gain) = true) : x.outsideNow devs = [] := by
  have none : (devs.filter fun d => x.phases.contains d.sub.val && sadcOff d.offset d.gain) = [] := List.filter_eq_nil_iff.2 fun d hd => by
    have within := List.all_eq_true.1 good d hd
    simp_all
  rw [LaneS.outsideNow, none, List.map_nil]

theorem LaneS.outsideNow_singleton {x : LaneS} {d : SubAdcDev} (off : sadcOff d.offset d.gain = true) (serves : d.sub.val ∈ x.phases) :
    x.outsideNow [d] = [d.sub.val] := by simp [LaneS.outsideNow, off, serves]

/-- R74: a comparison that puts no sub-ADC outside the limits for the second time only notes what it finds. -/
theorem ensembleCheck_notes (idle : s.get .FE_HANDOVER l ≠ 1) (once : s.outsideTwice l m = []) : Does (.subadcEnsembleCheck l m) s fun t =>
      (t.lane l).outside = (s.lane l).outsideNow m.devs ∧ t.get .FE_SADC_FAILED l = s.get .FE_SADC_FAILED l
        ∧ t.get .FE_CLIP l = (if m.samples < m.clips * 10000 then 1 else 0) ∧ Frame [(.FE_CLIP, l.val)] s t := by
  refine ⟨s.compares l m, ?_, ?_, State.compares_failed, State.compares_clip, State.compares_frame⟩
  · rw [exec_subadcEnsembleCheck idle, once, State.each_nil]
  · simp [State.compares_outside, once]

section
variable {d : SubAdcDev} {clips samples : Nat} (idle : s.get .FE_HANDOVER l ≠ 1) (off : sadcOff d.offset d.gain = true)
  (serves : d.sub.val ∈ (s.lane l).phases)
include idle off serves

theorem ensembleCheck_first (new : d.sub.val ∉ (s.lane l).outside) : Does (.subadcEnsembleCheck l ⟨[d], clips, samples⟩) s fun t =>
      (t.lane l).outside = [d.sub.val] ∧ t.get .FE_SADC_FAILED l = s.get .FE_SADC_FAILED l ∧ Frame [(.FE_CLIP, l.val)] s t := by
  have now : (s.lane l).outsideNow [d] = [d.sub.val] := LaneS.outsideNow_singleton off serves
  have once : s.outsideTwice l ⟨[d], clips, samples⟩ = [] := by simp [State.outsideTwice, now, new]
  exact (ensembleCheck_notes idle once).mono fun t ⟨outside, failed, _, frame⟩ => ⟨outside.trans now, failed, frame⟩

theorem ensembleCheck_second (again : d.sub.val ∈ (s.lane l).outside) : Does (.subadcEnsembleCheck l ⟨[d], clips, samples⟩) s fun t =>
      t.get .FE_SADC_FAILED l = min (s.get .FE_SADC_FAILED l + 1) 2 ∧ t.get .FE_SADC_FAIL l = 1
        ∧ (1 ≤ s.get .FE_SADC_FAILED l → Cause.feSadc ∈ (t.lane l).fences) := by
  have now : (s.lane l).outsideNow [d] = [d.sub.val] := LaneS.outsideNow_singleton off serves
  have twice : s.outsideTwice l ⟨[d], clips, samples⟩ = [d.sub.val] := by simp [State.outsideTwice, now, again]
  refine ⟨(s.compares l ⟨[d], clips, samples⟩).sadcFail l d.sub, ?_, ?_, ?_, fun failed => State.sadcFail_second ?_ _⟩
  · rw [exec_subadcEnsembleCheck idle, twice, State.each_cons, State.each_nil]
  · rw [State.sadcFail_get rfl rfl, State.showsLoss_failed, State.compares_failed]
  · rw [State.sadcFail_get rfl rfl, State.showsLoss_fail]
  · rwa [State.compares_failed]

end
end
end Sys2Proof.Machine

namespace Sys2Proof

open Machine

/-- Settles O12: rotations with their retries, the ends of parallel runs and the comparisons with the ensemble, clause by clause. -/
theorem subAdcRotation : Obligations.SubAdcRotation := by
  unfold Obligations.SubAdcRotation
  refine ⟨fun s l cal p on data sound idle served due spare agree _ calm =>
      subadcRotationStart_begins ⟨on, data, sound, idle, served⟩ due spare agree calm,
    fun s l cal p on data sound idle served due spare differ => subadcRotationStart_disagrees ⟨on, data, sound, idle, served⟩ due spare differ,
    fun s l cal => subadcRotationStart_early,
    fun s l on data sound idle served passed calm retry => subadcRotationRetry_begins ⟨on, data, sound, idle, served⟩ passed calm retry,
    fun s l cal p on data sound idle served spare agree _ calm retry =>
      subadcRotationRetry_calibrates ⟨on, data, sound, idle, served⟩ spare agree calm retry,
    fun s l on data sound idle served passed soon retry => subadcRotationRetry_deferred ⟨on, data, sound, idle, served⟩ passed soon retry,
    fun s l again => subadcRotationRetry_idle again,
    fun s l c p k n run spare outgoing pairs mean rms => handoverEnd_agrees run spare outgoing (by simp [handoverAgrees, pairs, mean, rms]),
    fun s l c run pairs few => handoverEnd_disagrees run (by simp [handoverAgrees]; omega) few,
    fun s l c p k n run rms third spare outgoing bad good sound =>
      handoverEnd_fails run (by simp [handoverAgrees]; omega) third spare outgoing bad good sound,
    fun s l devs clips samples idle good => ?_, fun s l d clips samples => ensembleCheck_first, fun s l d clips samples => ensembleCheck_second⟩
  have now : (s.lane l).outsideNow devs = [] := LaneS.outsideNow_nil good
  have once : s.outsideTwice l ⟨devs, clips, samples⟩ = [] := by rw [State.outsideTwice, now, List.filter_nil]
  exact (ensembleCheck_notes idle once).mono fun t ⟨outside, _, clip, frame⟩ => ⟨outside.trans now, clip, frame⟩

end Sys2Proof

/-! O14: the swap of a coefficient bank is recorded in a histogram (R552). -/

namespace Sys2Proof.Machine

/-- An update of lane 0 waits for its swap, and one was swapped in at tick 0; histogram 0 of the lane's block records the times between swaps. -/
def recordsSwaps : State := (State.reset.put .PERF_H_EN 0 1).modLane 0 fun x => { x with swap := some {}, swapAt := some 0 }

theorem exec_coeffBankSwap_recorded : ∃ u, exec (.coeffBankSwap 0) recordsSwaps = .next (settle u) ∧ u.get .PC_H0 0 = 1 :=
  ⟨_, rfl, by decide +kernel⟩

end Sys2Proof.Machine

namespace Sys2Proof

open Machine

/-- Refutes O14: its seventh clause has a bank swap keep every register field; in `recordsSwaps` the swap counts in a bin of histogram 0, which
records the time since the swap before (R551, R552). -/
theorem not_adaptation : ¬ Obligations.Adaptation := by
  rintro ⟨-, -, -, -, -, -, swap, -⟩
  obtain ⟨u, hu, counted⟩ := exec_coeffBankSwap_recorded
  obtain ⟨t, same, -, -, -, -, -, kept⟩ := exists_same_of_next hu
    (swap recordsSwaps 0 {} (by decide +kernel) (by decide +kernel) (by decide +kernel))
  have claim := kept .PC_H0 0 (by simp) rfl
  rw [same.get _ _ rfl, counted] at claim
  exact absurd claim (by decide +kernel)

end Sys2Proof

/-! O15: a lane in BLIND without SIG_DET enters DATA, and leaves it at once (R268). -/

namespace Sys2Proof.Machine

/-- R268: settling the lanes leaves ACQ_STATE of a lane that nothing holds in IDLE and that is not there. -/
theorem settle_acqState_of_free {s : State} {l : Lane} (free : s.heldIdle l = false) (on : s.get .ACQ_STATE l ≠ 0) :
    (settle s).get .ACQ_STATE l = s.get .ACQ_STATE l := by
  rw [settle_acqState]
  refine (State.each_kept (P := fun t => t.heldIdle l = false ∧ t.get .ACQ_STATE l = s.get .ACQ_STATE l)
    allLanes (fun t m p => ?_) ⟨free, rfl⟩).2
  obtain ⟨free', state⟩ := p
  refine ⟨((settleLane_same t m).heldIdle l).trans free', ?_⟩
  by_cases h : m = l
  · subst h
    rw [State.settleLane, if_neg (by simp [free']), if_neg (by rwa [state]), state]
  · rw [State.settleLane_acqState_of_ne h, state]

/-- R107: LOCK of a lane outside IDLE sets. -/
theorem exec_timingLockSet {s : State} {l : Lane} (unlocked : s.get .EQ_LOCK l ≠ 1) (on : s.get .ACQ_STATE l ≠ 0) :
    exec (.timingLockSet l) s = .next (settle ((((s.put .EQ_LOCK l 1).flag .EQ_TLOCK_CHG l).updateReady l).blindDone l)) :=
  if_neg (by simp [State.isSet, unlocked, on, acqIdle])

/-- Port 0 of half A runs on lane 0 alone, in LM100 and without the acquisition protocol: the lane is in BLIND with codeword alignment, and has no
signal. -/
def blindInDark : State :=
  let port := (((State.reset.putApp .PORT_EN 0 1).putApp .PORT_RATE 0 0).putApp .PORT_LMODE 0 0).putApp .ACQ_PROTO 0 0
  ((((port.putApp .FE_RX_EN 0 1).put .ACQ_STATE 0 5).put .FEC_CW_LOCK 0 1).put .BOOT_STATE 0 1).modHalf 0 fun y => { y with live := true }

/-- What LOCK does there. -/
def locksInDark : State := (((blindInDark.put .EQ_LOCK (0 : Lane) 1).flag .EQ_TLOCK_CHG (0 : Lane)).updateReady 0).blindDone 0

theorem locksInDark_state : locksInDark.heldIdle 0 = false ∧ locksInDark.get .ACQ_STATE (0 : Lane) = 5 := by decide +kernel

end Sys2Proof.Machine

namespace Sys2Proof

open Machine

/-- Refutes O15: its second clause has a lane in BLIND with codeword alignment end in DATA once LOCK sets; without SIG_DET, as in `blindInDark`, the
lane leaves DATA at once (R268) and is in BLIND again. -/
theorem not_timingLock : ¬ Obligations.TimingLock := by
  rintro ⟨-, lock, -⟩
  have next : exec (.timingLockSet 0) blindInDark = .next (settle locksInDark) := exec_timingLockSet (by decide +kernel) (by decide +kernel)
  obtain ⟨t, ht, -, data, -⟩ := lock blindInDark 0 (by decide +kernel) (by decide +kernel)
    (by decide +kernel) (by decide +kernel) (by decide +kernel)
  have settled : settle locksInDark = settle t := Host.Outcome.next.inj (next.symm.trans ht)
  obtain ⟨free, blind⟩ := locksInDark_state
  have inData := settle_acqState_of_free ((same_of_settle_eq settled).heldIdle 0 |>.trans free) (by rw [data]; decide)
  rw [← settled, settle_acqState_of_free free (by rw [blind]; decide), blind, data] at inData
  exact absurd inData (by decide)

end Sys2Proof

/-! O45: a Kneader that reloads while the one it was freed from is under test (R423, R437). -/

namespace Sys2Proof.Machine

/-- Half A tests the Kneader that the spare has freed from role 0 of group 0; the spare, which serves the role, has trapped and reloads. -/
def reloadsUnderTest : State :=
  (((State.reset.put .ST_STATE 0 2).put .ST_KIND 0 1).put .KND_STATE 0 1).modHalf 0 fun y =>
    { y with stCmd := some ⟨.selftest, halfReq 1, 0, 0, 0, 0, 0, none, 0⟩, reloads := [0] }

theorem exec_kneaderReloadComplete_underTest :
    ∃ u, exec (.kneaderReloadComplete 0 true) reloadsUnderTest = .next (settle u) ∧ u.get .KND_STATE 0 = 3 :=
  ⟨_, rfl, by decide +kernel⟩

end Sys2Proof.Machine

namespace Sys2Proof

open Machine

/-- Refutes O45: its fifth clause has every verified reload end in RUN; where the Kneader that this one stands in for is under test, as in
`reloadsUnderTest`, KND_STATE reads TEST (R437). -/
theorem not_kneaderService : ¬ Obligations.KneaderService := by
  rintro ⟨-, -, -, -, reload, -⟩
  obtain ⟨u, hu, test⟩ := exec_kneaderReloadComplete_underTest
  obtain ⟨t, same, runs, -⟩ := exists_same_of_next hu (reload reloadsUnderTest 0 (by decide +kernel))
  have claim := same.get .KND_STATE 0 rfl
  rw [show t.get .KND_STATE 0 = 0 from runs, test] at claim
  exact absurd claim (by decide)

end Sys2Proof

/-! O25: what a lane sends in TRAIN changes only its line: the carrier, what waits for it and what has left the part. -/

namespace Sys2Proof.Machine

/-- What of a lane sending leaves: all but the line, the carrier with what waits for it, and which slot was sent last. -/
def LaneS.silent (x : LaneS) : LaneS :=
  { x with hist := [], skew := 0, lastCode := 0, idle := 0, ohc := [], carrierAt := 0, lastStatus := none, presetSlot := false }

/-- What of the state no lane holds and no register shows, but for what has left the part and the free values drawn. -/
def State.offLine (s : State) : State := { s with f := [], lanes := .replicate 48 {}, out := [], free := 0 }

/-- Only the line of the lane has run on: but for the cells of `W` every register field reads as before, and what has left the part stands. -/
structure LineOnly (W : List (Fld × Nat)) (l : Lane) (s t : State) : Prop where
  get : ∀ f i, (f, i) ∉ W → t.get f i = s.get f i
  lane : (t.lane l).silent = (s.lane l).silent
  out : s.out <:+ t.out
  rest : t.offLine = s.offLine

namespace LineOnly

variable {W : List (Fld × Nat)} {l : Lane} {s t r : State}

theorem refl (s : State) : LineOnly W l s s := ⟨fun _ _ _ => rfl, rfl, List.suffix_rfl, rfl⟩

theorem trans (a : LineOnly W l s t) (b : LineOnly W l t r) : LineOnly W l s r :=
  ⟨fun f i h => (b.get f i h).trans (a.get f i h), b.lane.trans a.lane, a.out.trans b.out, b.rest.trans a.rest⟩

theorem emit (a : LineOnly W l s t) (o : Out) : LineOnly W l s (t.emit o) := { a with out := a.out.trans (List.suffix_cons o t.out) }

theorem draw (a : LineOnly W l s t) : LineOnly W l s t.draw.2 := { a with }

theorem modLane (a : LineOnly W l s t) {u : LaneS → LaneS} (h : ∀ x, (u x).silent = x.silent) : LineOnly W l s (t.modLane l u) :=
  { a with lane := by rw [State.lane_modLane_self, h, a.lane] }

theorem put (a : LineOnly W l s t) {g : Fld} {j : Nat} (h : (g, j) ∈ W) (v : Nat) : LineOnly W l s (t.put g j v) :=
  { a with get := fun f i k => by rw [State.get_put, if_neg (by rintro ⟨rfl, rfl⟩; exact k h), a.get f i k] }

section
variable (a : LineOnly W l s t)
include a

/-- What a function reads of the state apart from the line. -/
theorem same {α : Type} (f : State → α) (h : ∀ x, f x.offLine = f x) : f t = f s := by rw [← h, a.rest, h]

theorem frame : Frame W s t where
  get f i h _ := a.get f i h
  ap := a.same State.ap fun _ => rfl
  written := a.same State.written fun _ => rfl
  rams := ⟨a.same State.dmt fun _ => rfl, a.same State.results fun _ => rfl, a.same State.resultAt fun _ => rfl,
    a.same State.senseAt fun _ => rfl⟩
  pins := ⟨a.same State.testmode fun _ => rfl, a.same State.extest fun _ => rfl, a.same State.porst fun _ => rfl⟩
  frame := a.same State.frame fun _ => rfl
  pending := a.same State.pending fun _ => rfl

/-- What a function reads of the lane apart from its line. -/
theorem ofLane {α : Type} (f : LaneS → α) (h : ∀ x, f x.silent = f x) : f (t.lane l) = f (s.lane l) := by rw [← h, a.lane, h]

theorem idleFill (n : Nat) : LineOnly W l s (t.idleFill l n).2 := by
  unfold State.idleFill
  dsimp only
  exact a.modLane fun _ => by rfl

theorem sendLine (codes : List Nat) : LineOnly W l s (t.sendLine l codes) := by
  have sent : LineOnly W l s (t.modLane l fun x => { x with lastCode := codes.getLast?.getD x.lastCode }) := a.modLane fun _ => by rfl
  unfold State.sendLine
  dsimp only
  split
  · exact sent
  · exact sent.emit _

theorem sendDelayed (codes : List Nat) : LineOnly W l s (t.sendDelayed l codes) := by
  unfold State.sendDelayed
  exact (a.modLane fun _ => by rfl).sendLine _

/-- R93 and R130: the levels sent may clamp. -/
theorem sendLevels (h : (.EQ_TX_CLAMP, l.val) ∈ W) (levels : List Int) : LineOnly W l s (t.sendLevels l levels) := by
  unfold State.sendLevels
  exact ((a.put h _).modLane fun _ => by rfl).sendDelayed _

theorem sendC2 (bs : List Bool) : LineOnly W l s (t.sendC2 l bs) := (a.idleFill _).sendLine _

theorem nextOhc : LineOnly W l s (t.nextOhc l).2 := by
  unfold State.nextOhc
  dsimp only
  exact (a.idleFill 1).modLane fun _ => by rfl

theorem ohcBits (n : Nat) : LineOnly W l s (t.ohcBits l n).2 := by
  induction n generalizing t with
  | zero => exact a
  | succ n ih => exact ih a.nextOhc

/-- R265: a training symbol may clip. -/
theorem runC3 (h : (.DMT_TX_CLIP, l.val) ∈ W) : LineOnly W l s (t.runC3 l) := by
  unfold State.runC3 State.sendTrainSymbols
  exact (((a.ohcBits _).modLane fun _ => by rfl).put h _).sendLine _

theorem sendC3 (h : (.DMT_TX_CLIP, l.val) ∈ W) (bs : List Bool) : LineOnly W l s (t.sendC3 l bs) := by
  unfold State.sendC3
  split
  · exact (a.runC3 h).modLane fun _ => by rfl
  · exact a.modLane fun _ => by rfl

end
end LineOnly

/-! ### Frames -/

/-- R250: the frame that a lane sends, with its CRC-32. -/
def sentFrame (l : Lane) (type arg seq : Nat) (payload : List (BitVec 8)) : AcqFrame :=
  let fr : AcqFrame := ⟨BitVec.ofNat 8 type, 1, BitVec.ofNat 4 arg, BitVec.ofNat 8 seq, BitVec.ofNat 6 l, 0, payload, 0⟩
  { fr with crc := BitVec.ofNat 32 (frameCrc fr) }

theorem sentFrame_type (l : Lane) (type arg seq : Nat) (payload : List (BitVec 8)) : (sentFrame l type arg seq payload).type = BitVec.ofNat 8 type := rfl
theorem sentFrame_seq (l : Lane) (type arg seq : Nat) (payload : List (BitVec 8)) : (sentFrame l type arg seq payload).seq = BitVec.ofNat 8 seq := rfl
theorem sentFrame_payload (l : Lane) (type arg seq : Nat) (payload : List (BitVec 8)) : (sentFrame l type arg seq payload).payload = payload := rfl

/-- The line of the lane has run on, and a frame has left of which `P` holds. -/
structure Sends (W : List (Fld × Nat)) (l : Lane) (P : AcqFrame → Prop) (s t : State) : Prop where
  line : LineOnly W l s t
  sent : Sent s t l P

section
variable {W : List (Fld × Nat)} {l : Lane} {P : AcqFrame → Prop} {s t r : State}

/-- What the line carries before. -/
theorem LineOnly.andSends (a : LineOnly W l s t) (b : Sends W l P t r) : Sends W l P s r := by
  obtain ⟨line, g, after, before, out, p⟩ := b
  obtain ⟨more, hmore⟩ := a.out
  exact ⟨a.trans line, g, after, before ++ more, by rw [out, ← hmore, List.append_assoc], p⟩

/-- What the line carries after. -/
theorem Sends.andLine (a : Sends W l P s t) (b : LineOnly W l t r) : Sends W l P s r := by
  obtain ⟨line, g, after, before, out, p⟩ := a
  obtain ⟨more, hmore⟩ := b.out
  exact ⟨line.trans b, g, more ++ after, before, by rw [← hmore, out, List.append_assoc], p⟩

theorem Sends.weaken {Q : AcqFrame → Prop} (h : ∀ g, P g → Q g) (a : Sends W l P s t) : Sends W l Q s t := by
  obtain ⟨line, g, after, before, out, p⟩ := a
  exact ⟨line, g, after, before, out, h g p⟩

/-- R248: in TRAIN a frame goes out on C3 in LM400D, else in a slot of C2. -/
theorem State.sendFrame_train (train : s.get .ACQ_STATE l = 2) (type arg seq : Nat) (payload : List (BitVec 8)) :
    s.sendFrame l type arg seq payload =
      if s.lmode l = 3 then (s.emit (.frame l (sentFrame l type arg seq payload))).sendC3 l (frameBits (sentFrame l type arg seq payload))
      else (s.emit (.frame l (sentFrame l type arg seq payload))).sendC2 l (frameBits (sentFrame l type arg seq payload)) :=
  if_pos (.inl train)

theorem State.sendFrame_sends (train : s.get .ACQ_STATE l = 2) (clip : s.lmode l = 3 → (.DMT_TX_CLIP, l.val) ∈ W) {type arg seq : Nat}
    {payload : List (BitVec 8)} (p : P (sentFrame l type arg seq payload)) : Sends W l P s (s.sendFrame l type arg seq payload) := by
  have left : Sends W l P s (s.emit (.frame l (sentFrame l type arg seq payload))) := ⟨(LineOnly.refl s).emit _, _, [], [], rfl, p⟩
  rw [State.sendFrame_train train]
  split
  · next dmt => exact left.andLine ((LineOnly.refl _).sendC3 (clip dmt) _)
  · exact left.andLine ((LineOnly.refl _).sendC2 _)

/-- R413: the STATUS that the lane sends next is kept. -/
def State.notesStatus (s : State) (l : Lane) : State :=
  s.modLane l fun x => { x with lastStatus := some ((s.lane l).seq, bytesOf 4 (s.statusWord l)) }

theorem State.sendStatus_eq : s.sendStatus l = (s.notesStatus l).sendFrame l 2 0 (s.lane l).seq (bytesOf 4 (s.statusWord l)) := rfl

/-- R255: a STATUS frame. -/
theorem State.sendStatus_sends (train : s.get .ACQ_STATE l = 2) (clip : s.lmode l = 3 → (.DMT_TX_CLIP, l.val) ∈ W) :
    Sends W l (fun g => g.type = 2) s (s.sendStatus l) := by
  have noted : LineOnly W l s (s.notesStatus l) := (LineOnly.refl s).modLane fun _ => by rfl
  have train' : (s.notesStatus l).get .ACQ_STATE l = 2 := train
  rw [State.sendStatus_eq]
  exact noted.andSends (State.sendFrame_sends train' clip (sentFrame_type ..))

/-- R413: a STATUS frame that is repeated. -/
theorem State.repeatStatus_sends (train : s.get .ACQ_STATE l = 2) (clip : s.lmode l = 3 → (.DMT_TX_CLIP, l.val) ∈ W) {p : Nat × List (BitVec 8)}
    (last : (s.lane l).lastStatus = some p) :
    Sends W l (fun g => g.type = 2 ∧ g.seq = BitVec.ofNat 8 p.1 ∧ g.payload = p.2) s (s.repeatStatus l) := by
  unfold State.repeatStatus
  rw [last]
  exact State.sendFrame_sends train clip ⟨sentFrame_type .., sentFrame_seq .., sentFrame_payload ..⟩

/-- R261: the slot of a block carries STATUS or PRESET; in a countdown STATUS. -/
theorem State.sendSlot_sends (train : s.get .ACQ_STATE l = 2) (pam : s.lmode l ≠ 3) (status : ∀ g, g.type = 2 → P g)
    (preset : (s.lane l).count = none → ∀ g, g.type = 3 → P g) : Sends W l P s (s.sendSlot l) := by
  have sends := (State.sendStatus_sends (W := W) train fun h => absurd h pam).weaken status
  unfold State.sendSlot
  dsimp only
  split
  · split
    · exact sends.andLine ((LineOnly.refl _).modLane fun _ => by rfl)
    · next h =>
      have idle : (s.lane l).count = none := (by simpa using h : _ ∧ _).2
      exact (State.sendFrame_sends train (fun h => absurd h pam) (preset idle _ (sentFrame_type ..))).andLine
        ((LineOnly.refl _).modLane fun _ => by rfl)
  · exact sends

end
end Sys2Proof.Machine

/-! O25: the gap of C3 that a lane in TRAIN of LM400D fills (R265). -/

namespace Sys2Proof.Machine

section
variable {l : Lane} {s : State}

theorem State.idleFill_lane (n : Nat) : ∃ i, (s.idleFill l n).2.lane l = { s.lane l with idle := i } := ⟨_, State.lane_modLane_self ..⟩

theorem State.sendLine_lane (codes : List Nat) : ∃ c, (s.sendLine l codes).lane l = { s.lane l with lastCode := c } := by
  refine ⟨codes.getLast?.getD (s.lane l).lastCode, ?_⟩
  unfold State.sendLine
  dsimp only
  split
  · rw [State.lane_modLane_self]
  · rw [State.emit_lane, State.lane_modLane_self]

/-- Nothing waits for C3 where nothing has. -/
theorem State.ohcBits_ohc (n : Nat) (empty : (s.lane l).ohc = []) : ((s.ohcBits l n).2.lane l).ohc = [] := by
  induction n generalizing s with
  | zero => exact empty
  | succ n ih =>
    refine ih (s := (s.nextOhc l).2) ?_
    obtain ⟨i, filled⟩ := s.idleFill_lane (l := l) 1
    unfold State.nextOhc
    rw [State.lane_modLane_self, filled]
    exact (congrArg (List.drop 1) empty).trans rfl

theorem State.sendTrainSymbols_lane (bits : List Bool) : ∃ c, (s.sendTrainSymbols l bits).lane l = { s.lane l with lastCode := c } :=
  State.sendLine_lane (s := s.incSat .DMT_TX_CLIP l _) _

/-- R249: C3 has run until now. -/
theorem State.runC3_lane : ((s.runC3 l).lane l).carrierAt = s.ticks l.half ∧ ((s.lane l).ohc = [] → ((s.runC3 l).lane l).ohc = []) := by
  unfold State.runC3
  extract_lets now a
  obtain ⟨c, sent⟩ := State.sendTrainSymbols_lane (s := a.2.modLane l fun x => { x with carrierAt := now }) (l := l) a.1
  rw [sent, State.lane_modLane_self]
  exact ⟨rfl, State.ohcBits_ohc _⟩

/-- R265: so it has where a frame goes out on it. -/
theorem State.sendC3_carrierAt (train : s.get .ACQ_STATE l = 2) (early : s.get .ACQ_TX_DATA l ≠ 1) (bs : List Bool) :
    ((s.sendC3 l bs).lane l).carrierAt = s.ticks l.half := by
  unfold State.sendC3
  rw [if_pos ⟨train, by simpa [State.isSet] using early⟩]
  dsimp only
  rw [State.lane_modLane_self]
  exact State.runC3_lane.1

theorem State.sendStatus_carrierAt (train : s.get .ACQ_STATE l = 2) (dmt : s.lmode l = 3) (early : s.get .ACQ_TX_DATA l ≠ 1) :
    ((s.sendStatus l).lane l).carrierAt = s.ticks l.half := by
  have train' : (s.notesStatus l).get .ACQ_STATE l = 2 := train
  have dmt' : (s.notesStatus l).lmode l = 3 := dmt
  rw [State.sendStatus_eq, State.sendFrame_train train', if_pos dmt']
  exact State.sendC3_carrierAt (s := (s.notesStatus l).emit _) train early _

/-- R265: STATUS fills a gap of C3. -/
theorem State.fillGap_sends (train : s.get .ACQ_STATE l = 2) (early : s.get .ACQ_TX_DATA l ≠ 1) (dmt : s.lmode l = 3) (gap : (s.lane l).ohc = []) :
    Sends [(.DMT_TX_CLIP, l.val)] l (fun g => g.type = 2) s (s.fillGap l) ∧ ((s.fillGap l).lane l).carrierAt = s.ticks l.half := by
  have ran : LineOnly [(.DMT_TX_CLIP, l.val)] l s (s.runC3 l) := (LineOnly.refl s).runC3 (by simp)
  have fills : s.fillGap l = (s.runC3 l).sendStatus l := by
    unfold State.fillGap
    exact if_pos (by rw [State.runC3_lane.2 gap]; rfl)
  have train' : (s.runC3 l).get .ACQ_STATE l = 2 := (ran.get _ _ (by simp)).trans train
  have early' : (s.runC3 l).get .ACQ_TX_DATA l ≠ 1 := by rwa [ran.get _ _ (by simp)]
  have dmt' : (s.runC3 l).lmode l = 3 := (State.lmode_of_ap ran.frame.ap l).trans dmt
  have now : (s.runC3 l).ticks l.half = s.ticks l.half := ran.same (·.ticks l.half) fun _ => rfl
  rw [fills]
  exact ⟨ran.andSends (State.sendStatus_sends train' fun _ => by simp), (State.sendStatus_carrierAt train' dmt' early').trans now⟩

end
end Sys2Proof.Machine

/-! O25: what the start of a block settles before its slot is sent (R262, R264). -/

namespace Sys2Proof.Machine

/-- The registers, what has left the part, and all applied values but those of the lanes' transmit filters are as before. -/
structure SlotPrepared (s t : State) : Prop where
  f : t.f = s.f
  app : ∀ f i, f ≠ .EQ_TXF_SHADOW → t.app f i = s.app f i
  out : t.out = s.out
  dmt : t.dmt = s.dmt
  halves : t.halves = s.halves

section
variable {l : Lane} {s t r : State}

theorem SlotPrepared.trans (a : SlotPrepared s t) (b : SlotPrepared t r) : SlotPrepared s r :=
  ⟨b.f.trans a.f, fun f i h => (b.app f i h).trans (a.app f i h), b.out.trans a.out, b.dmt.trans a.dmt, b.halves.trans a.halves⟩

theorem SlotPrepared.get (a : SlotPrepared s t) (f : Fld) (i : Nat) : t.get f i = s.get f i := by rw [State.get, a.f, State.get]

theorem SlotPrepared.lmode (a : SlotPrepared s t) : t.lmode l = s.lmode l := by
  have lanes : Machine.portLanes t.app = Machine.portLanes s.app := funext fun p => by
    simp only [Machine.portLanes, a.app .PORT_EN _ (by simp), a.app .PORT_RATE _ (by simp), a.app .PORT_LMODE _ (by simp)]
  have port : t.portOf l = s.portOf l := by rw [State.portOf, portOfLane, lanes]; rfl
  rw [State.lmode, a.app .PORT_LMODE _ (by simp), port, State.lmode]

/-- R262: a PRESET has been acted on. -/
def State.reportsPreset (s : State) (l : Lane) (p : Nat × List Nat) (ok : Bool) : State :=
  s.modLane l fun x => { x with apply := none, appliedSeq := p.1, refused := !ok }

/-- R93: the taps of a PRESET become those of the lane's filter. -/
def State.takesTaps (s : State) (l : Lane) (taps : List Nat) : State :=
  s.each (List.range 7) fun s k => s.putApp .EQ_TXF_SHADOW (l * 7 + k) (taps.getD k 0)

/-- R95: a PRESET may be applied. -/
def State.presetOk (s : State) (l : Lane) (taps : List Nat) : Bool := s.app .ACQ_REMOTE_FIR l == 1 && s.lmode l == 2 && firOk taps

theorem State.takesTaps_kept {P : State → Prop} (taps : List Nat)
    (put : ∀ {t : State} (f : Fld) (i v : Nat), f = .EQ_TXF_SHADOW → P t → P (t.putApp f i v))
    (p : P s) : P (s.takesTaps l taps) := State.each_kept _ (fun _ _ => put _ _ _ rfl) p

theorem State.takesTaps_lane (taps : List Nat) : (s.takesTaps l taps).lane l = s.lane l :=
  State.takesTaps_kept (P := fun t => t.lane l = s.lane l) taps (fun _ _ _ _ p => p) rfl

theorem State.takesTaps_prepared (taps : List Nat) : SlotPrepared s (s.takesTaps l taps) :=
  State.takesTaps_kept (P := SlotPrepared s) taps
    (fun _ _ _ h p => { p with app := fun g j k => (State.app_putApp_of_ne _ (h ▸ k) _ _ _).trans (p.app g j k) }) ⟨rfl, fun _ _ _ => rfl, rfl, rfl, rfl⟩

/-- An applied value elsewhere is as before. -/
theorem State.app_putApp_of_index_ne {f : Fld} {i j : Nat} (h : i ≠ j) (v : Nat) : (s.putApp f j v).app f i = s.app f i := by
  unfold State.app State.putApp
  split
  · exact FStore.get_put_ne s.ap v fun e => h e.2
  · rfl

theorem State.takesTaps_app (taps : List Nat) {k : Nat} (h : k < 7) :
    (s.takesTaps l taps).app .EQ_TXF_SHADOW (l * 7 + k) = taps.getD k 0 % 2 ^ 12 := by
  refine State.each_establishes (P := fun t => t.app .EQ_TXF_SHADOW (l * 7 + k) = taps.getD k 0 % 2 ^ 12) (List.mem_range.2 h)
    (fun t => State.app_putApp_self t rfl _ _) fun t y a => ?_
  by_cases e : y = k
  · rw [e]
    exact State.app_putApp_self t rfl _ _
  · rwa [State.app_putApp_of_index_ne fun c => e (Nat.add_left_cancel c).symm]

theorem State.actOnPreset_none (none : (s.lane l).apply = none) : s.actOnPreset l = s := by rw [State.actOnPreset, none]

theorem State.actOnPreset_early {p : Nat × List Nat} (waits : (s.lane l).apply = some p) (early : s.ticks l.half < (s.lane l).applyAt + 50) :
    s.actOnPreset l = s := by
  rw [State.actOnPreset, waits]
  exact if_pos early

theorem State.actOnPreset_due {p : Nat × List Nat} (waits : (s.lane l).apply = some p) (due : (s.lane l).applyAt + 50 ≤ s.ticks l.half) :
    s.actOnPreset l = if s.presetOk l p.2 then (s.reportsPreset l p true).takesTaps l p.2 else s.reportsPreset l p false := by
  rw [State.actOnPreset, waits]
  refine (if_neg (by omega)).trans ?_
  rw [show (s.appSet .ACQ_REMOTE_FIR l && s.lmode l == 2 && firOk p.2) = s.presetOk l p.2 from rfl]
  cases s.presetOk l p.2 <;> rfl

theorem State.actOnPreset_prepared : SlotPrepared s (s.actOnPreset l) := by
  have reported (p : Nat × List Nat) (ok : Bool) : SlotPrepared s (s.reportsPreset l p ok) := ⟨rfl, fun _ _ _ => rfl, rfl, rfl, rfl⟩
  cases waits : (s.lane l).apply with
  | none =>
    rw [State.actOnPreset_none waits]
    exact ⟨rfl, fun _ _ _ => rfl, rfl, rfl, rfl⟩
  | some p =>
    rcases Nat.lt_or_ge (s.ticks l.half) ((s.lane l).applyAt + 50) with early | due
    · rw [State.actOnPreset_early waits early]
      exact ⟨rfl, fun _ _ _ => rfl, rfl, rfl, rfl⟩
    · rw [State.actOnPreset_due waits due]
      split
      · exact (reported p true).trans (State.takesTaps_prepared p.2)
      · exact reported p false

/-- Whatever becomes of the partner's PRESET, the lane's countdown waits as it did. -/
theorem State.actOnPreset_count : ((s.actOnPreset l).lane l).count = (s.lane l).count ∧ ((s.actOnPreset l).lane l).go = (s.lane l).go := by
  cases waits : (s.lane l).apply with
  | none => simp [State.actOnPreset_none waits]
  | some p =>
    rcases Nat.lt_or_ge (s.ticks l.half) ((s.lane l).applyAt + 50) with early | due
    · simp [State.actOnPreset_early waits early]
    · rw [State.actOnPreset_due waits due]
      split
      · rw [State.takesTaps_lane, State.reportsPreset, State.lane_modLane_self]
        exact ⟨rfl, rfl⟩
      · rw [State.reportsPreset, State.lane_modLane_self]
        exact ⟨rfl, rfl⟩

/-- R262: a lane that asks for taps takes a number and a PRESET of its own. -/
theorem State.mayPreset_spec : SlotPrepared s (s.mayPreset l) ∧ (s.mayPreset l).ap = s.ap
    ∧ ∃ q p, (s.mayPreset l).lane l = { s.lane l with seq := q, preset := p } := by
  have same : SlotPrepared s s := ⟨rfl, fun _ _ _ => rfl, rfl, rfl, rfl⟩
  unfold State.mayPreset
  extract_lets x d
  split
  · split
    · exact ⟨{ same with }, rfl, _, _, State.lane_modLane_self d.2 l _⟩
    · exact ⟨{ same with }, rfl, _, _, rfl⟩
  · exact ⟨same, rfl, _, _, rfl⟩

/-- R264: the further training symbols of a countdown that starts now. -/
def State.fillFrom (s : State) (l : Lane) (n : Nat) : Nat := if s.lmode l = 2 then gridFill (900 * s.ticks l.half + n % 900) else 0

theorem State.stepCountdown_prepared (n : Nat) : SlotPrepared s (s.stepCountdown l n) := ⟨rfl, fun _ _ _ => rfl, rfl, rfl, rfl⟩

/-- R264: a countdown steps, or starts after RX_READY. -/
theorem State.stepCountdown_lane (n : Nat) : ∃ c, (s.stepCountdown l n).lane l = { s.lane l with count := c }
    ∧ (∀ d, (s.lane l).count = some d → c = some (d.1 - 1, d.2))
    ∧ ((s.lane l).count = none → (s.lane l).go = true → s.get .ACQ_TX_DATA l ≠ 1 → c = some (7, s.fillFrom l n)) := by
  refine ⟨_, State.lane_modLane_self .., fun d counts => ?_, fun idle go early => ?_⟩
  · rw [counts]
  · rw [idle]
    exact if_pos (by simp [go, State.isSet, early])

/-! ### A slot is prepared -/

/-- R261, R262 and R264: the PRESETs and the countdown of a block that starts. -/
def State.preparesSlot (s : State) (l : Lane) (n : Nat) : State := ((s.actOnPreset l).mayPreset l).stepCountdown l n

theorem State.preparesSlot_prepared (n : Nat) : SlotPrepared s (s.preparesSlot l n) :=
  (State.actOnPreset_prepared.trans State.mayPreset_spec.1).trans (State.stepCountdown_prepared n)

theorem State.preparesSlot_ap (n : Nat) : (s.preparesSlot l n).ap = (s.actOnPreset l).ap := State.mayPreset_spec.2.1

/-- What has been made of the partner's PRESET stays. -/
theorem State.preparesSlot_lane (n : Nat) : ∃ q p c, (s.preparesSlot l n).lane l = { (s.actOnPreset l).lane l with seq := q, preset := p, count := c } := by
  obtain ⟨-, -, q, p, asked⟩ := (s.actOnPreset l).mayPreset_spec (l := l)
  obtain ⟨c, stepped, -⟩ := ((s.actOnPreset l).mayPreset l).stepCountdown_lane (l := l) n
  exact ⟨q, p, c, by rw [State.preparesSlot, stepped, asked]⟩

/-- R264: the countdown of a block that starts. -/
theorem State.preparesSlot_count (n : Nat) : (∀ d, (s.lane l).count = some d → ((s.preparesSlot l n).lane l).count = some (d.1 - 1, d.2))
    ∧ ((s.lane l).count = none → (s.lane l).go = true → s.get .ACQ_TX_DATA l ≠ 1 →
      ((s.preparesSlot l n).lane l).count = some (7, s.fillFrom l n)) := by
  have acted : SlotPrepared s ((s.actOnPreset l).mayPreset l) := State.actOnPreset_prepared.trans State.mayPreset_spec.1
  obtain ⟨-, -, q, p, asked⟩ := (s.actOnPreset l).mayPreset_spec (l := l)
  obtain ⟨c, stepped, counts, starts⟩ := ((s.actOnPreset l).mayPreset l).stepCountdown_lane (l := l) n
  obtain ⟨count, go⟩ := State.actOnPreset_count (s := s) (l := l)
  have fill : ((s.actOnPreset l).mayPreset l).fillFrom l n = s.fillFrom l n := by
    rw [State.fillFrom, acted.lmode, State.ticks, State.half, acted.halves]
    rfl
  rw [asked] at counts starts
  rw [State.preparesSlot, stepped]
  exact ⟨fun d h => counts d (count.trans h), fun idle goes early =>
    (starts (count.trans idle) (go.trans goes) (by rwa [acted.get])).trans (by rw [fill])⟩

end
end Sys2Proof.Machine

/-! O25: the blocks of TRAIN. -/

namespace Sys2Proof.Machine

section
variable {l : Lane} {s : State}

theorem trainingBlockStart_idle (n : Nat) (idle : s.get .ACQ_STATE l ≠ 2 ∨ s.get .ACQ_TX_DATA l = 1) :
    exec (.trainingBlockStart l n) s = .next (settle s) :=
  if_pos (idle.imp_right fun h => by simp [State.isSet, h])

/-- R261: the slot of a block and its training section leave the lane. -/
def State.sendsBlock (s : State) (l : Lane) (n : Nat) : State := ((s.preparesSlot l n).sendSlot l).sendLevels l (trainLevels 61440 8191)

/-- R413: the last STATUS and the training section leave the lane. -/
def State.repeatsBlock (s : State) (l : Lane) : State := (s.repeatStatus l).sendLevels l (trainLevels 61440 8191)

variable (train : s.get .ACQ_STATE l = 2) (early : s.get .ACQ_TX_DATA l ≠ 1)
include train early

theorem exec_trainingBlockStart (n : Nat) : exec (.trainingBlockStart l n) s = .next (settle
    (if s.lmode l = 3 then (if s.kndOut l.acqKnd then s.repeatStatus l else s.fillGap l)
      else if s.kndOut l.acqKnd then s.repeatsBlock l else s.sendsBlock l n)) := by
  have start : ¬(s.get .ACQ_STATE l ≠ acqTrain ∨ s.isSet .ACQ_TX_DATA l = true) := by simp [State.isSet, train, early, acqTrain]
  change execTrainingBlockStart l n s = _
  rw [execTrainingBlockStart, if_neg start]
  unfold State.sendsBlock State.preparesSlot State.repeatsBlock done
  split
  · rfl
  · cases s.kndOut l.acqKnd
    · simp only [Bool.false_eq_true, if_false]
    · simp only [if_true]

section
variable (serves : s.kndOut l.acqKnd = false)
include serves

/-- A block of a PAM mode with what leaves in its slot. -/
theorem trainingBlockStart_sends {P : AcqFrame → Prop} (n : Nat) (pam : s.lmode l ≠ 3) (status : ∀ g, g.type = 2 → P g)
    (preset : ((s.preparesSlot l n).lane l).count = none → ∀ g, g.type = 3 → P g) :
    exec (.trainingBlockStart l n) s = .next (settle (s.sendsBlock l n))
      ∧ LineOnly [(.EQ_TX_CLAMP, l.val)] l (s.preparesSlot l n) (s.sendsBlock l n) ∧ Sent s (s.sendsBlock l n) l P := by
  have prepared : SlotPrepared s (s.preparesSlot l n) := State.preparesSlot_prepared n
  have slot : Sends [(.EQ_TX_CLAMP, l.val)] l P (s.preparesSlot l n) ((s.preparesSlot l n).sendSlot l) :=
    State.sendSlot_sends ((prepared.get _ _).trans train) (by rwa [prepared.lmode]) status preset
  have block := slot.andLine ((LineOnly.refl _).sendLevels (by simp) (trainLevels 61440 8191))
  refine ⟨?_, block.line, ?_⟩
  · rw [exec_trainingBlockStart train early, if_neg pam, if_neg (by simp [serves])]
  · rw [Sent, ← prepared.out]
    exact block.sent

theorem trainingBlockStart_pam (n : Nat) (pam : s.lmode l ≠ 3) : Does (.trainingBlockStart l n) s fun t =>
    Sent s t l (fun g => g.type = 2 ∨ g.type = 3) ∧ FieldsKept [(.EQ_TX_CLAMP, l.val)] s t ∧ t.dmt = s.dmt := by
  obtain ⟨next, line, sent⟩ := trainingBlockStart_sends (P := fun g => g.type = 2 ∨ g.type = 3) train early serves n pam (fun _ => .inl) fun _ _ => .inr
  have prepared : SlotPrepared s (s.preparesSlot l n) := State.preparesSlot_prepared n
  exact ⟨_, next, sent, fun f i h _ => (line.get f i h).trans (prepared.get f i), (line.same State.dmt fun _ => rfl).trans prepared.dmt⟩

theorem trainingBlockStart_dmt (n : Nat) (dmt : s.lmode l = 3) (gap : (s.lane l).ohc = []) : Does (.trainingBlockStart l n) s fun t =>
    Sent s t l (fun g => g.type = 2) ∧ (t.lane l).carrierAt = s.ticks l.half ∧ Frame [(.DMT_TX_CLIP, l.val)] s t := by
  obtain ⟨sends, now⟩ := State.fillGap_sends train early dmt gap
  exact ⟨_, by rw [exec_trainingBlockStart train early, if_pos dmt, if_neg (by simp [serves])], sends.sent, now, sends.line.frame⟩

theorem trainingBlockStart_counts (n : Nat) (c : Nat × Nat) (pam : s.lmode l ≠ 3) (counts : (s.lane l).count = some c) :
    Does (.trainingBlockStart l n) s fun t => (t.lane l).count = some (c.1 - 1, c.2) ∧ Sent s t l (fun g => g.type = 2) := by
  have stepped := (State.preparesSlot_count n).1 c counts
  obtain ⟨next, line, sent⟩ := trainingBlockStart_sends (P := fun g => g.type = 2) train early serves n pam (fun _ => id) (by simp [stepped])
  exact ⟨_, next, (line.ofLane LaneS.count fun _ => rfl).trans stepped, sent⟩

/-- What the slot is prepared with outlasts the sending of the block. -/
theorem trainingBlockStart_prepares (n : Nat) (pam : s.lmode l ≠ 3) : Does (.trainingBlockStart l n) s fun t =>
    t.ap = (s.actOnPreset l).ap ∧ (t.lane l).count = ((s.preparesSlot l n).lane l).count ∧ (t.lane l).apply = ((s.actOnPreset l).lane l).apply
      ∧ (t.lane l).appliedSeq = ((s.actOnPreset l).lane l).appliedSeq ∧ (t.lane l).refused = ((s.actOnPreset l).lane l).refused := by
  obtain ⟨next, line, -⟩ := trainingBlockStart_sends (P := fun _ => True) train early serves n pam (fun _ _ => trivial) fun _ _ _ => trivial
  obtain ⟨q, p, c, prepared⟩ := State.preparesSlot_lane (s := s) (l := l) n
  have kept {α : Type} (f : LaneS → α) (h : ∀ x, f x.silent = f x) : f ((s.sendsBlock l n).lane l) =
      f { (s.actOnPreset l).lane l with seq := q, preset := p, count := c } := by
    rw [line.ofLane f h, prepared]
  exact ⟨_, next, line.frame.ap.trans (State.preparesSlot_ap n), line.ofLane LaneS.count fun _ => rfl, kept LaneS.apply fun _ => rfl,
    kept LaneS.appliedSeq fun _ => rfl, kept LaneS.refused fun _ => rfl⟩

theorem trainingBlockStart_startsCount (n : Nat) (pam : s.lmode l ≠ 3) (idle : (s.lane l).count = none) (go : (s.lane l).go = true) :
    Does (.trainingBlockStart l n) s fun t => (t.lane l).count = some (7, if s.lmode l = 2 then gridFill (900 * s.ticks l.half + n % 900) else 0) :=
  (trainingBlockStart_prepares train early serves n pam).mono fun _ ⟨_, count, _⟩ => count.trans ((State.preparesSlot_count n).2 idle go early)

theorem trainingBlockStart_holdsPreset (n : Nat) (p : Nat × List Nat) (pam : s.lmode l ≠ 3) (waits : (s.lane l).apply = some p)
    (held : s.ticks l.half < (s.lane l).applyAt + 50) : Does (.trainingBlockStart l n) s fun t => (t.lane l).apply = some p ∧ t.ap = s.ap :=
  (trainingBlockStart_prepares train early serves n pam).mono fun _ ⟨ap, _, apply, _⟩ => by
    rw [State.actOnPreset_early waits held] at ap apply
    exact ⟨apply.trans waits, ap⟩

theorem trainingBlockStart_actsOnPreset (n : Nat) (p : Nat × List Nat) (pam : s.lmode l ≠ 3) (waits : (s.lane l).apply = some p)
    (due : (s.lane l).applyAt + 50 ≤ s.ticks l.half) : Does (.trainingBlockStart l n) s fun t =>
      (t.lane l).apply = none ∧ (t.lane l).appliedSeq = p.1
        ∧ (t.lane l).refused = !(s.app .ACQ_REMOTE_FIR l == 1 && s.lmode l == 2 && firOk p.2)
        ∧ ((t.lane l).refused = false → ∀ k, k < 7 → t.app .EQ_TXF_SHADOW (l * 7 + k) = p.2.getD k 0 % 2 ^ 12)
        ∧ ((t.lane l).refused = true → t.ap = s.ap) := by
  have reported (ok : Bool) : (s.reportsPreset l p ok).lane l = { s.lane l with apply := none, appliedSeq := p.1, refused := !ok } :=
    State.lane_modLane_self ..
  refine (trainingBlockStart_prepares train early serves n pam).mono fun t ⟨ap, _, apply, seq, refused⟩ => ?_
  change _ ∧ _ ∧ _ = !s.presetOk l p.2 ∧ _
  rw [State.actOnPreset_due waits due] at ap apply seq refused
  cases ok : s.presetOk l p.2
  · rw [if_neg (by simp [ok]), reported] at apply seq refused
    rw [if_neg (by simp [ok])] at ap
    exact ⟨apply, seq, refused, fun h => by simp [refused] at h, fun _ => ap⟩
  · rw [if_pos ok, State.takesTaps_lane, reported] at apply seq refused
    rw [if_pos ok] at ap
    refine ⟨apply, seq, refused, fun _ k hk => ?_, fun h => by simp [refused] at h⟩
    rw [State.app_of_ap ap rfl]
    exact State.takesTaps_app p.2 hk

end

theorem trainingBlockStart_repeats (n : Nat) (p : Nat × List (BitVec 8)) (out : s.kndOut l.acqKnd = true) (last : (s.lane l).lastStatus = some p) :
    Does (.trainingBlockStart l n) s fun t => Sent s t l (fun g => g.type = 2 ∧ g.seq = BitVec.ofNat 8 p.1 ∧ g.payload = p.2)
      ∧ Frame [(.EQ_TX_CLAMP, l.val), (.DMT_TX_CLIP, l.val)] s t := by
  have status := State.repeatStatus_sends (W := [(.EQ_TX_CLAMP, l.val), (.DMT_TX_CLIP, l.val)]) train (fun _ => by simp) last
  by_cases dmt : s.lmode l = 3
  · exact ⟨_, by rw [exec_trainingBlockStart train early, if_pos dmt, if_pos out], status.sent, status.line.frame⟩
  · have block := status.andLine ((LineOnly.refl _).sendLevels (by simp) (trainLevels 61440 8191))
    exact ⟨s.repeatsBlock l, by rw [exec_trainingBlockStart train early, if_neg dmt, if_pos out], block.sent, block.line.frame⟩

end
end Sys2Proof.Machine

/-! O25: STATUS and PRESET frames that a lane in TRAIN accepts, and the search of RHO. -/

namespace Sys2Proof

open Machine

/-- A larger set of cells. -/
theorem Frame.weaken {W V : List (Fld × Nat)} {s t : State} (a : Frame W s t) (h : W ⊆ V) : Frame V s t :=
  { a with get := fun f i k => a.get f i fun m => k (h m) }

end Sys2Proof

namespace Sys2Proof.Machine

/-- R257: the reception ends with a frame that is taken. -/
def State.takesFrame (s : State) (l : Lane) : State := (s.modLane l fun x => { x with phase := .search }).inc .ACQ_FRAME_OK l

section
variable {s : State} {l : Lane} {fr : AcqFrame} {k : Int}

theorem State.takesFrame_get {f : Fld} (h : f ≠ .ACQ_FRAME_OK) (i : Nat) : (s.takesFrame l).get f i = s.get f i := State.get_put_of_ne _ h _ _ _

theorem State.takesFrame_lane : (s.takesFrame l).lane l = { s.lane l with phase := .search } := by
  rw [State.takesFrame, State.inc_eq, State.put_lane, State.lane_modLane_self]

theorem State.takesFrame_frame : Frame [(.ACQ_FRAME_OK, l.val)] s (s.takesFrame l) := ((Frame.refl _ s).modLane _ _).inc (.inl (by simp)) _

theorem State.takesFrame_inData : (s.takesFrame l).inData l = s.inData l := by rw [State.inData, State.takesFrame_get (by simp), State.inData]

theorem State.takesFrame_inSlot : (s.takesFrame l).inSlot l k = s.inSlot l k := by
  simp only [State.inSlot, State.onC3, State.takesFrame_inData, State.takesFrame_get (f := .ACQ_STATE) (by simp), State.takesFrame_lane]
  rfl

/-- R257 and R259: the end of a reception whose frame the lane accepts. -/
theorem endBody_of_accepts (a : Accepts s l fr) : s.endBody l fr = (s.takesFrame l, true) := by
  obtain ⟨-, body, crc, serves, partner⟩ := a
  have serves' : (s.takesFrame l).kndOut l.acqKnd = false := by
    rw [← serves]
    simp only [State.kndOut, State.takesFrame_get (f := .KND_STATE) (by simp)]
  have known : ((s.takesFrame l).lane l).partner.any (fun p => p.2 != fr.srcLane.toNat) = false := by
    rw [State.takesFrame_lane]
    cases h : (s.lane l).partner with
    | none => simp
    | some q => simp [partner q h]
  unfold State.endBody
  rw [if_neg (by simp [body])]
  dsimp only
  rw [if_neg (by simp [crc])]
  change (if (s.takesFrame l).kndOut l.acqKnd = true then _ else if ((s.takesFrame l).lane l).partner.any _ = true then _ else (s.takesFrame l, true)) = _
  rw [if_neg (by simp [serves']), if_neg (by simp [known])]

theorem receives_of_accepts (a : Accepts s l fr) : (!s.receives l) = false := by simp [State.receives, a.1, acqIdle]

/-- R253: in TRAIN a lane listens to STATUS, and in a PAM mode to PRESET. -/
theorem State.unlisted_train (train : s.get .ACQ_STATE l = 2) : (s.takesFrame l).unlisted l 2 = false
    ∧ (s.lmode l ≠ 3 → (s.takesFrame l).unlisted l 3 = false) := by
  have state : (s.takesFrame l).get .ACQ_STATE l = 2 := (State.takesFrame_get (by simp) _).trans train
  have mode : (s.takesFrame l).lmode l = s.lmode l := State.lmode_of_ap (s := s) (t := s.takesFrame l) rfl l
  constructor
  · simp [State.unlisted, state, acqTrain]
  · intro pam
    simp [State.unlisted, state, acqTrain, mode, pam]

/-! ### PRESET -/

theorem presetFrameReceive_waits (a : Accepts s l fr) (type : fr.type = 3) (train : s.get .ACQ_STATE l = 2) (pam : s.lmode l ≠ 3)
    (slot : s.inSlot l k = true) : Does (.presetFrameReceive l ⟨fr, k⟩) s fun t =>
      (t.lane l).apply = some (fr.seq.toNat, (List.range 7).map fun k => payloadNum fr.payload (2 * k) 2 % 4096) ∧ (t.lane l).applyAt = s.ticks l.half
        ∧ Frame [(.ACQ_FRAME_OK, l.val)] s t := by
  refine ⟨(s.takesFrame l).modLane l fun x => { x with
    apply := some (fr.seq.toNat, (List.range 7).map fun k => payloadNum fr.payload (2 * k) 2 % 4096), applyAt := (s.takesFrame l).ticks l.half }, ?_, ?_, ?_,
    State.takesFrame_frame.modLane _ _⟩
  · change execPresetFrameReceive l ⟨fr, k⟩ s = _
    unfold execPresetFrameReceive
    dsimp only
    rw [receives_of_accepts a, endBody_of_accepts a, State.takesFrame_inSlot, (State.unlisted_train train).2 pam]
    exact (if_neg Bool.false_ne_true).trans (if_neg (by simp [type, slot]))
  · rw [State.lane_modLane_self]
  · rw [State.lane_modLane_self]
    rfl

/-! ### STATUS -/

/-- R255, R264: what a STATUS of payload word `w` says of the partner. -/
def State.hearsStatus (s : State) (l : Lane) (w : Nat) : State :=
  ((s.takesFrame l).putBool .ACQ_PEER_READY l (w.testBit 31)).modLane l fun x => { x with
    go := x.go || w.testBit 31, slotSeen := true, dataAt := if w.testBit 30 then some (w / 2 ^ 27 % 8, w / 2 ^ 14 % 8192) else x.dataAt }

/-- R262 and R263: what the lane makes of it. -/
def State.followsStatus (s : State) (l : Lane) (w : Nat) : State := ((s.hearsStatus l w).confirmPreset l w).updateReady l

theorem exec_statusFrameReceive (a : Accepts s l fr) (type : fr.type = 2) (train : s.get .ACQ_STATE l = 2) (slot : s.inSlot l k = true) :
    exec (.statusFrameReceive l ⟨fr, k⟩) s = .next (settle
      (if (payloadNum fr.payload 0 4).testBit 31 then (s.followsStatus l (payloadNum fr.payload 0 4)).startDistance l
        else s.followsStatus l (payloadNum fr.payload 0 4))) := by
  have state : (s.takesFrame l).get .ACQ_STATE l ≠ acqLink := by
    rw [State.takesFrame_get (by simp), train]
    decide
  change execStatusFrameReceive l ⟨fr, k⟩ s = _
  unfold execStatusFrameReceive
  dsimp only
  rw [receives_of_accepts a, endBody_of_accepts a, State.takesFrame_inSlot, (State.unlisted_train train).1]
  dsimp only
  rw [if_neg state]
  exact (if_neg Bool.false_ne_true).trans (if_neg (by simp [type, slot]))

theorem statusFrameReceive_outOfSlot (a : Accepts s l fr) (out : s.inSlot l k = false) : Does (.statusFrameReceive l ⟨fr, k⟩) s fun t =>
    t.get .ACQ_PEER_READY l = s.get .ACQ_PEER_READY l ∧ Frame [(.ACQ_FRAME_OK, l.val)] s t := by
  refine ⟨s.takesFrame l, ?_, State.takesFrame_get (by simp) _, State.takesFrame_frame⟩
  change execStatusFrameReceive l ⟨fr, k⟩ s = _
  unfold execStatusFrameReceive
  dsimp only
  rw [receives_of_accepts a, endBody_of_accepts a, State.takesFrame_inSlot]
  exact (if_neg Bool.false_ne_true).trans (if_pos (by simp [out]))

variable {w : Nat}

theorem State.hearsStatus_get {f : Fld} (ok : f ≠ .ACQ_FRAME_OK) (ready : f ≠ .ACQ_PEER_READY) (i : Nat) : (s.hearsStatus l w).get f i = s.get f i :=
  (State.get_put_of_ne _ ready _ _ _).trans (State.takesFrame_get ok _)

theorem State.hearsStatus_ready (ready : w.testBit 31 = true) : (s.hearsStatus l w).get .ACQ_PEER_READY l = 1 := by
  refine (State.get_put_self ..).trans ?_
  rw [ready]
  rfl

theorem State.hearsStatus_lane : (s.hearsStatus l w).lane l = { s.lane l with
    phase := .search, go := (s.lane l).go || w.testBit 31, slotSeen := true
    dataAt := if w.testBit 30 then some (w / 2 ^ 27 % 8, w / 2 ^ 14 % 8192) else (s.lane l).dataAt } := by
  rw [State.hearsStatus, State.lane_modLane_self, State.putBool_eq, State.put_lane, State.takesFrame_lane]

theorem State.hearsStatus_frame : Frame [(.ACQ_FRAME_OK, l.val)] s (s.hearsStatus l w) := (State.takesFrame_frame.putBool (.inr rfl) _).modLane _ _

/-- R263: readiness writes no other field. -/
theorem State.updateReady_keeps {α : Type} (f : State → α) (put : ∀ t j v, f (State.put t .ACQ_RX_READY j v) = f t) : f (s.updateReady l) = f s := by
  unfold State.updateReady
  split
  · exact put _ _ _
  · rfl

theorem State.updateReady_get {f : Fld} (h : f ≠ .ACQ_RX_READY) (i : Nat) : (s.updateReady l).get f i = s.get f i :=
  State.updateReady_keeps (·.get f i) fun t j v => t.get_put_of_ne h i j v

theorem State.updateReady_lane : (s.updateReady l).lane l = s.lane l := State.updateReady_keeps (·.lane l) fun _ _ _ => rfl

theorem State.updateReady_frame {W : List (Fld × Nat)} : Frame W s (s.updateReady l) := by
  unfold State.updateReady
  split
  · exact (Frame.refl W s).putBool (.inr rfl) _
  · exact Frame.refl W s

theorem State.confirmPreset_none (none : (s.lane l).preset = none) : s.confirmPreset l w = s := by rw [State.confirmPreset, none]

/-- R262: the partner has acted on the lane's PRESET, or has refused it. -/
theorem State.confirmPreset_own {p : Nat × List Nat} (own : (s.lane l).preset = some p) (number : p.1 = w / 2 ^ 6 % 256) :
    ((s.confirmPreset l w).lane l).preset = none ∧ (w.testBit 5 = true → (s.confirmPreset l w).get .ACQ_REFUSED_EVT l = 1) := by
  unfold State.confirmPreset
  rw [own]
  dsimp only
  rw [if_pos number]
  split
  · rw [State.flag_eq, State.put_lane, State.lane_modLane_self]
    exact ⟨rfl, fun _ => State.get_put_self ..⟩
  · next refused =>
    rw [State.lane_modLane_self]
    exact ⟨rfl, fun h => absurd h refused⟩

/-- Without a PRESET of its own the lane only evaluates its readiness. -/
theorem State.followsStatus_of_none (none : (s.lane l).preset = none) : s.followsStatus l w = (s.hearsStatus l w).updateReady l := by
  rw [State.followsStatus, State.confirmPreset_none (by rw [State.hearsStatus_lane]; exact none)]

theorem State.followsStatus_frame (none : (s.lane l).preset = none) : Frame [(.ACQ_FRAME_OK, l.val)] s (s.followsStatus l w) := by
  rw [State.followsStatus_of_none none]
  exact State.hearsStatus_frame.trans State.updateReady_frame

theorem State.followsStatus_get (none : (s.lane l).preset = none) {f : Fld} (h : f ≠ .ACQ_RX_READY) (i : Nat) :
    (s.followsStatus l w).get f i = (s.hearsStatus l w).get f i := by rw [State.followsStatus_of_none none, State.updateReady_get h]

theorem State.followsStatus_lane (none : (s.lane l).preset = none) : (s.followsStatus l w).lane l = (s.hearsStatus l w).lane l := by
  rw [State.followsStatus_of_none none, State.updateReady_lane]

/-- A STATUS writes register fields and the lane only. -/
theorem State.followsStatus_keeps {α : Type} (f : State → α)
    (put : ∀ t g j v, f (State.put t g j v) = f t) (lane : ∀ t u, f (State.modLane t l u) = f t) :
    f (s.followsStatus l w) = f s := by
  have heard : f (s.hearsStatus l w) = f s := (lane _ _).trans ((put _ _ _ _).trans ((put _ _ _ _).trans (lane _ _)))
  refine (State.updateReady_keeps f fun t => put t _).trans (Eq.trans ?_ heard)
  unfold State.confirmPreset
  split
  · split
    · split
      · exact (put _ _ _ _).trans (lane _ _)
      · exact lane _ _
    · rfl
  · rfl

theorem State.followsStatus_lmode : (s.followsStatus l w).lmode l = s.lmode l :=
  State.lmode_of_ap (State.followsStatus_keeps State.ap (fun _ _ _ _ => rfl) fun _ _ => rfl) l

/-- R266: only an LM400D transmitter names the distance to its data. -/
theorem State.startDistance_pam (pam : s.lmode l ≠ 3) : s.startDistance l = s := if_neg fun h => pam h.1

theorem statusFrameReceive_ready (a : Accepts s l fr) (type : fr.type = 2) (train : s.get .ACQ_STATE l = 2)
    (ready : (payloadNum fr.payload 0 4).testBit 31 = true) (pam : s.lmode l ≠ 3) (none : (s.lane l).preset = none) (slot : s.inSlot l k = true) :
    Does (.statusFrameReceive l ⟨fr, k⟩) s fun t =>
      t.get .ACQ_PEER_READY l = 1 ∧ (t.lane l).go = true ∧ t.get .ACQ_STATE l = 2 ∧ Frame [(.ACQ_FRAME_OK, l.val)] s t := by
  refine ⟨s.followsStatus l (payloadNum fr.payload 0 4), ?_, ?_, ?_, ?_, State.followsStatus_frame none⟩
  · rw [exec_statusFrameReceive a type train slot, if_pos ready, State.startDistance_pam (by rwa [State.followsStatus_lmode])]
  · rw [State.followsStatus_get none (by simp), State.hearsStatus_ready ready]
  · rw [State.followsStatus_lane none, State.hearsStatus_lane]
    exact (congrArg ((s.lane l).go || ·) ready).trans (Bool.or_true _)
  · rw [State.followsStatus_get none (by simp), State.hearsStatus_get (by simp) (by simp), train]

theorem statusFrameReceive_confirms {p : Nat × List Nat} (a : Accepts s l fr) (type : fr.type = 2) (train : s.get .ACQ_STATE l = 2)
    (pam : s.lmode l ≠ 3) (slot : s.inSlot l k = true) (own : (s.lane l).preset = some p) (number : p.1 = payloadNum fr.payload 0 4 / 2 ^ 6 % 256) :
    Does (.statusFrameReceive l ⟨fr, k⟩) s fun t =>
      (t.lane l).preset = none ∧ ((payloadNum fr.payload 0 4).testBit 5 = true → t.get .ACQ_REFUSED_EVT l = 1) := by
  have heard : ((s.hearsStatus l (payloadNum fr.payload 0 4)).lane l).preset = some p := by rw [State.hearsStatus_lane]; exact own
  obtain ⟨gone, refused⟩ := State.confirmPreset_own heard number
  refine ⟨s.followsStatus l (payloadNum fr.payload 0 4), ?_, ?_, fun h => (State.updateReady_get (by simp) _).trans (refused h)⟩
  · rw [exec_statusFrameReceive a type train slot, State.startDistance_pam (by rwa [State.followsStatus_lmode]), ite_self]
  · rw [State.followsStatus, State.updateReady_lane]
    exact gone

/-! ### The distance to the data of LM400D -/

/-- R266: the lane names the symbol at which its data starts. -/
def State.namesStart (s : State) (l : Lane) (first : Nat) : State := s.modLane l fun x => { x with count := some (0, first) }

theorem State.startDistance_dmt (dmt : s.lmode l = 3) (idle : (s.lane l).count = none) (early : s.get .ACQ_TX_DATA l ≠ 1) :
    s.startDistance l = ((s.draw.2.runC3 l).namesStart l ((s.draw.2.runC3 l).dataSymbol l (Config.dataDistance s.draw.1))).sendStatus l :=
  if_pos ⟨dmt, by simp [idle], by simp [State.isSet, early]⟩

/-- R176 and R266: data starts with a superframe, at least 2,048 symbols behind. -/
theorem State.dataSymbol_spec (n : Nat) : s.dataSymbol l n % 8 = 0 ∧ symbolsAt (s.ticks l.half) + 2048 < s.dataSymbol l n := by
  unfold State.dataSymbol State.afterStatus
  omega

theorem State.startDistance_sends (train : s.get .ACQ_STATE l = 2) (dmt : s.lmode l = 3) (idle : (s.lane l).count = none) (early : s.get .ACQ_TX_DATA l ≠ 1) :
    ∃ first, first % 8 = 0 ∧ symbolsAt (s.ticks l.half) + 2048 < first ∧ ((s.startDistance l).lane l).count = some (0, first)
      ∧ (∀ f, f ≠ .DMT_TX_CLIP → ∀ i, (s.startDistance l).get f i = s.get f i) ∧ ((s.startDistance l).lane l).go = (s.lane l).go
      ∧ Sent s (s.startDistance l) l (fun g => g.type = 2) ∧ Frame [(.DMT_TX_CLIP, l.val)] s (s.startDistance l) := by
  have ran : LineOnly [(.DMT_TX_CLIP, l.val)] l s (s.draw.2.runC3 l) := ((LineOnly.refl s).draw).runC3 (by simp)
  obtain ⟨grid, far⟩ := (s.draw.2.runC3 l).dataSymbol_spec (l := l) (Config.dataDistance s.draw.1)
  rw [ran.same (·.ticks l.half) fun _ => rfl] at far
  rw [State.startDistance_dmt dmt idle early]
  generalize (s.draw.2.runC3 l).dataSymbol l (Config.dataDistance s.draw.1) = first at grid far
  have state : ((s.draw.2.runC3 l).namesStart l first).get .ACQ_STATE l = 2 := (ran.get _ _ (by simp)).trans train
  have named : ((s.draw.2.runC3 l).namesStart l first).lane l = { (s.draw.2.runC3 l).lane l with count := some (0, first) } := State.lane_modLane_self ..
  have status := State.sendStatus_sends (W := [(.DMT_TX_CLIP, l.val)]) state fun _ => by simp
  refine ⟨first, grid, far, ?_, fun f hf i => ?_, ?_, ?_, (ran.frame.modLane _ _).trans status.line.frame⟩
  · rw [status.line.ofLane LaneS.count fun _ => rfl, named]
  · exact (status.line.get f i (by simp [hf])).trans (ran.get f i (by simp [hf]))
  · rw [status.line.ofLane LaneS.go fun _ => rfl, named]
    exact ran.ofLane LaneS.go fun _ => rfl
  · obtain ⟨g, after, before, out, p⟩ := status.sent
    obtain ⟨more, hmore⟩ := ran.out
    exact ⟨g, after, before ++ more, by rw [out, List.append_assoc, hmore]; rfl, p⟩

theorem statusFrameReceive_distance (a : Accepts s l fr) (type : fr.type = 2) (train : s.get .ACQ_STATE l = 2)
    (ready : (payloadNum fr.payload 0 4).testBit 31 = true) (dmt : s.lmode l = 3) (none : (s.lane l).preset = none) (idle : (s.lane l).count = .none)
    (early : s.get .ACQ_TX_DATA l ≠ 1) (slot : s.inSlot l k = true) : Does (.statusFrameReceive l ⟨fr, k⟩) s fun t =>
      t.get .ACQ_PEER_READY l = 1 ∧ (t.lane l).go = true
        ∧ ((t.lane l).count.any fun c => c.1 == 0 && c.2 % 8 == 0 && decide (symbolsAt (s.ticks l.half) + 2048 < c.2)) = true
        ∧ Sent s t l (fun g => g.type = 2) ∧ Frame [(.ACQ_FRAME_OK, l.val), (.DMT_TX_CLIP, l.val)] s t := by
  have mode : (s.followsStatus l (payloadNum fr.payload 0 4)).lmode l = 3 := State.followsStatus_lmode.trans dmt
  have ticks : (s.followsStatus l (payloadNum fr.payload 0 4)).ticks l.half = s.ticks l.half :=
    State.followsStatus_keeps (·.ticks l.half) (fun _ _ _ _ => rfl) fun _ _ => rfl
  have out : (s.followsStatus l (payloadNum fr.payload 0 4)).out = s.out := State.followsStatus_keeps State.out (fun _ _ _ _ => rfl) fun _ _ => rfl
  have kept {f : Fld} (h : f ≠ .ACQ_RX_READY) (ok : f ≠ .ACQ_FRAME_OK) (peer : f ≠ .ACQ_PEER_READY) :
      (s.followsStatus l (payloadNum fr.payload 0 4)).get f l = s.get f l := by rw [State.followsStatus_get none h, State.hearsStatus_get ok peer]
  have lane : (s.followsStatus l (payloadNum fr.payload 0 4)).lane l = (s.hearsStatus l (payloadNum fr.payload 0 4)).lane l := State.followsStatus_lane none
  have fresh : ((s.followsStatus l (payloadNum fr.payload 0 4)).lane l).count = .none := by rw [lane, State.hearsStatus_lane]; exact idle
  have goes : ((s.followsStatus l (payloadNum fr.payload 0 4)).lane l).go = true := by
    rw [lane, State.hearsStatus_lane]
    exact (congrArg ((s.lane l).go || ·) ready).trans (Bool.or_true _)
  obtain ⟨first, grid, far, count, get, go, sent, frame⟩ := State.startDistance_sends ((kept (by simp) (by simp) (by simp)).trans train) mode fresh
    (by rwa [kept (by simp) (by simp) (by simp)])
  refine ⟨_, by rw [exec_statusFrameReceive a type train slot, if_pos ready], ?_, go.trans goes, ?_, by rwa [Sent, out] at sent, ?_⟩
  · rw [get _ (by simp), State.followsStatus_get none (by simp), State.hearsStatus_ready ready]
  · rw [ticks] at far
    simp [count, grid, far]
  · exact ((State.followsStatus_frame none).weaken (by simp)).trans (frame.weaken (by simp))

/-! ### The search of RHO -/

theorem rhoSearchComplete_applies (margins : List Nat) (train : s.get .ACQ_STATE l = 2) (trellis : s.lmode l = 2) (auto : s.app .ACQ_RHO_AUTO l = 1)
    (searches : (s.lane l).rhoDone = false) : Does (.rhoSearchComplete l margins) s fun t =>
      t.get .ACQ_RHO_CHOSEN l = 4 * argMax (margins.take 9) % 2 ^ Fld.width .ACQ_RHO_CHOSEN
        ∧ t.app .FEC_RHO l = 4 * argMax (margins.take 9) % 2 ^ Fld.width .FEC_RHO ∧ (t.lane l).rhoDone = true
        ∧ FieldsKept [(.ACQ_RHO_CHOSEN, l.val)] s t := by
  refine ⟨((s.modLane l fun x => { x with rhoDone := true }).put .ACQ_RHO_CHOSEN l (4 * argMax (margins.take 9))).putApp .FEC_RHO l
    (4 * argMax (margins.take 9)), if_pos ⟨train, trellis, by simp [State.appSet, auto], by simp [searches]⟩, State.get_put_self .., ?_, ?_, fun f i h _ => ?_⟩
  · exact State.app_putApp_self _ rfl _ _
  · rw [State.putApp_lane, State.put_lane, State.lane_modLane_self]
  · rw [State.get_putApp, State.get_put, if_neg (by rintro ⟨rfl, rfl⟩; simp at h), State.modLane_get]

end
end Sys2Proof.Machine

namespace Sys2Proof

open Machine

/-- Settles O25: blocks with their slots and countdowns, PRESET and STATUS frames and the search of RHO, clause by clause. -/
theorem trainingSlots : Obligations.TrainingSlots := by
  unfold Obligations.TrainingSlots
  refine ⟨fun s l n train early pam serves => trainingBlockStart_pam train early serves n pam,
    fun s l n train early dmt serves => trainingBlockStart_dmt train early serves n dmt,
    fun s l n p train early out => trainingBlockStart_repeats train early n p out,
    fun s l n c train early pam serves => trainingBlockStart_counts train early serves n c pam,
    fun s l n train early mode serves => trainingBlockStart_startsCount train early serves n (by omega),
    fun s l n p train early pam serves => trainingBlockStart_holdsPreset train early serves n p pam,
    fun s l n p train early pam serves => trainingBlockStart_actsOnPreset train early serves n p pam,
    fun s l n => trainingBlockStart_idle n,
    fun s l fr k a type train pam => presetFrameReceive_waits a type train pam,
    fun s l fr k a type train ready pam => statusFrameReceive_ready a type train ready pam,
    fun s l fr k a type train ready dmt => statusFrameReceive_distance a type train ready dmt,
    fun s l fr k => statusFrameReceive_outOfSlot,
    fun s l fr k p a type train pam => statusFrameReceive_confirms a type train pam,
    fun s l ms => rhoSearchComplete_applies ms⟩

end Sys2Proof

/-! O8: frames of TC18 as labels, and the block interleaver of a symbol's frames. -/

namespace Sys2Proof.Machine

/-! ### The encoder over a frame -/

theorem tcRun_append (st : Nat) (us : List Bool) (u : Bool) : tcRun st (us ++ [u]) = tcStep (tcRun st us).1 u := by
  simp [tcRun]

/-- The state after inputs follows from the states alone. -/
theorem tcRun_state (st : Nat) (us : List Bool) : (tcRun st us).1 = us.foldl (fun σ u => (tcStep σ u).1) st := by
  induction us using List.reverseRecOn with
  | nil => rfl
  | append_singleton us u ih => rw [tcRun_append, ih, List.foldl_append]; rfl

section
variable {p : List Bool} (full : p.length = 17) (st : Nat)
include full

/-- R138: the eight coded bits of a frame are seven and the last. -/
theorem codedBits_eq : (p.drop 9).take 8 = (p.drop 9).take 7 ++ [p.getD 16 false] := by
  rw [List.take_add_one, List.getElem?_drop, List.getD, List.getElem?_eq_getElem (by omega)]
  rfl

theorem tcFrame_length : (tcFrame st p).1.length = 9 := by simp [tcFrame, full]

/-- R136: the first eight labels pair p0 to p7 with p9 to p16. -/
theorem tcFrame_label {k : Nat} (h : k < 8) : (tcFrame st p).1[k]? = some (p.getD k false, p.getD (9 + k) false) := by
  have coded : k < ((p.drop 9).take 8).length := by simp [full]; omega
  rw [tcFrame, List.getElem?_zip_eq_some, List.getElem?_append_left coded, List.getElem?_take_of_lt (by omega), List.getElem?_take_of_lt h,
    List.getElem?_drop, List.getD, List.getD, List.getElem?_eq_getElem (by omega), List.getElem?_eq_getElem (by omega)]
  exact ⟨rfl, rfl⟩

/-- R138: the ninth label pairs p8 with the parity after the eighth coded bit. -/
theorem tcFrame_last : (tcFrame st p).1[8]? = some (p.getD 8 false,
    (tcStep (((p.drop 9).take 7).foldl (fun σ u => (tcStep σ u).1) st) (p.getD 16 false)).2) := by
  have coded : ((p.drop 9).take 8).length = 8 := by simp [full]
  rw [tcFrame, List.getElem?_zip_eq_some, List.getElem?_append_right coded.le, coded, List.getElem?_take_of_lt (by omega),
    ← tcRun_state, ← tcRun_append, ← codedBits_eq full, List.getD, List.getElem?_eq_getElem (by omega)]
  exact ⟨rfl, rfl⟩

end

theorem tcFrame_state (st : Nat) (p : List Bool) : (tcFrame st p).2 = ((p.drop 9).take 8).foldl (fun σ u => (tcStep σ u).1) st := tcRun_state _ _

/-! ### Blocks of one size -/

/-- What stands at a place of blocks of one size that follow each other. -/
theorem getElem?_flatMap_range {α : Type} {g : Nat → List α} {n : Nat} (size : ∀ k, (g k).length = n) {m k f : Nat} (hk : k < m) (hf : f < n) :
    ((List.range m).flatMap g)[n * k + f]? = (g k)[f]? := by
  induction m with
  | zero => contradiction
  | succ m ih =>
    have whole : ((List.range m).flatMap g).length = n * m := by simp [List.length_flatMap, size, Nat.mul_comm]
    rw [List.range_succ, List.flatMap_append, List.flatMap_singleton]
    obtain rfl | before := (Nat.lt_succ_iff.1 hk).eq_or_lt
    · rw [List.getElem?_append_right (by omega), whole, Nat.add_sub_cancel_left]
    · have : n * (k + 1) ≤ n * m := Nat.mul_le_mul_left n before
      rw [List.getElem?_append_left (by rw [whole]; rw [Nat.mul_add] at this; omega), ih before]

/-- R180: a block interleaver of 240 frames puts bit k of frame f at place 240 k + f. -/
theorem interleaver_place {frames : List (List (Bool × Bool))} (size : frames.length = 240) (bit : Bool × Bool → Bool) {k f : Nat} (hk : k < 9)
    {x : List (Bool × Bool)} (hx : frames[f]? = some x) :
    ((List.range 9).flatMap fun k => frames.map fun y => bit (y.getD k (false, false)))[240 * k + f]? = some (bit (x.getD k (false, false))) := by
  have inside : f < 240 := size ▸ (List.getElem?_eq_some_iff.1 hx).1
  rw [getElem?_flatMap_range (fun _ => by rw [List.length_map, size]) hk inside, List.getElem?_map, hx]
  rfl

end Sys2Proof.Machine

namespace Sys2Proof

open Machine

/-- Settles O8: the encoder step and the levels by their finitely many inputs, frames by the run of the encoder, the interleaver by the place of a bit
in its blocks. -/
theorem frameCoding : Obligations.FrameCoding := by
  unfold Obligations.FrameCoding
  refine ⟨by decide, by decide, fun st p k full h => tcFrame_label full st h,
    fun st p full => ⟨tcFrame_length full st, tcFrame_last full st, tcFrame_state st p⟩,
    fun frames k f x size hk hx => ⟨interleaver_place size Prod.snd hk hx, interleaver_place size Prod.fst hk hx⟩, by decide⟩

end Sys2Proof

/-! O17: what the outer decoder gives (R153, R155). -/

namespace Sys2Proof.Machine

/-! ### Words that differ at some places -/

/-- A word changed at most at some places differs in at most so many symbols. -/
theorem symDiff_le_of_changed {w pos : List Nat} {c : Nat × Nat → Nat} (kept : ∀ p, p.2 ∉ pos → c p = p.1) :
    symDiff w (w.zipIdx.map c) ≤ pos.length := by
  have paired : w.zip (w.zipIdx.map c) = w.zipIdx.map fun p => (p.1, c p) := by
    conv_lhs => enter [1]; rw [← List.zipIdx_map_fst 0 w]
    rw [List.zip_map']
  have places : (w.zipIdx.map Prod.snd).Nodup := by
    rw [List.zipIdx_map_snd]
    exact List.nodup_range'
  let changed := w.zipIdx.filter fun p => p.1 != c p
  have named : changed.map Prod.snd ⊆ pos := by
    intro i hi
    obtain ⟨p, hp, rfl⟩ := List.mem_map.1 hi
    by_contra out
    simpa [kept p out] using (List.mem_filter.1 hp).2
  have once : (changed.map Prod.snd).Nodup := places.sublist (List.filter_sublist.map _)
  calc symDiff w (w.zipIdx.map c) = (changed.map Prod.snd).length := by
        rw [symDiff, paired, List.filter_map, List.length_map, List.length_map]; rfl
    _ ≤ pos.length := (once.subperm named).length_le

theorem symDiff_self (w : List Nat) : symDiff w w = 0 := by
  have none : symDiff w (w.zipIdx.map Prod.fst) ≤ 0 := symDiff_le_of_changed (pos := []) fun _ _ => rfl
  rwa [List.zipIdx_map_fst, Nat.le_zero] at none

/-! ### Errors-and-erasures decoding -/

section
variable {limit : Nat} {word erased v : List Nat}

/-- A word of the code is decoded as itself. -/
theorem rsDecode_codeword (code : (rsSyndromes word).all (· == 0) = true) : rsDecode limit word erased = some word := if_pos code

theorem rsDecode_none (none : rsDecode limit word erased = none) : (rsSyndromes word).any (· != 0) = true := by
  by_contra code
  rw [rsDecode_codeword (by simpa using code)] at none
  contradiction

/-- R153 and R155: the decoder gives a word of the code, of the same length, within what the limit allows. -/
theorem rsDecode_some (found : rsDecode limit word erased = some v) : (rsSyndromes v).all (· == 0) = true ∧ v.length = word.length
    ∧ symDiff word v ≤ limit ∧ 2 * symDiff word v ≤ limit + erased.length := by
  unfold rsDecode at found
  extract_lets syn r pos fixed at found
  split_ifs at found with code within
  · obtain rfl := Option.some.inj found
    exact ⟨code, rfl, by simp [symDiff_self]⟩
  · obtain rfl := Option.some.inj found
    obtain ⟨count, few, good⟩ := within
    have near : symDiff word fixed ≤ pos.length := symDiff_le_of_changed fun p out => if_neg (by simpa using out)
    exact ⟨good, by simp [fixed], by omega, by omega⟩

end

/-! ### The decoding of a codeword -/

/-- R155: a codeword is delivered, or erased where erasures apply, or uncorrectable. -/
theorem decodeWord_cases (fs : FecSet) (e : Bool) (w : List (Nat × Rat)) :
    (∃ v, rsDecode 30 (w.map (·.1)) [] = some v ∧ decodeWord fs e w = (.delivered, v))
      ∨ (e = true ∧ ∃ er v, rsDecode 28 (w.map (·.1)) er = some v ∧ decodeWord fs e w = (.erased, v))
      ∨ (rsDecode 30 (w.map (·.1)) [] = none ∧ decodeWord fs e w = (.uncorrectable, w.map (·.1))) := by
  unfold decodeWord
  dsimp only
  split
  · next v found => exact .inl ⟨v, found, rfl⟩
  · next failed =>
    split_ifs with on
    · split
      · next v found => exact .inr (.inl ⟨on, _, v, found, rfl⟩)
      · exact .inr (.inr ⟨failed, rfl⟩)
    · exact .inr (.inr ⟨failed, rfl⟩)

section
variable {fs : FecSet} {e : Bool} {w : List (Nat × Rat)}

theorem decodeWord_codeword (code : (rsSyndromes (w.map (·.1))).all (· == 0) = true) : decodeWord fs e w = (.delivered, w.map (·.1)) := by
  rw [decodeWord, rsDecode_codeword code]

theorem decodeWord_delivered (h : (decodeWord fs e w).1 = .delivered) : rsDecode 30 (w.map (·.1)) [] = some (decodeWord fs e w).2 := by
  obtain ⟨v, found, is⟩ | ⟨-, er, v, -, is⟩ | ⟨-, is⟩ := decodeWord_cases fs e w
  · rw [found, is]
  · rw [is] at h; contradiction
  · rw [is] at h; contradiction

theorem decodeWord_erased (h : (decodeWord fs e w).1 = .erased) :
    e = true ∧ ∃ er, rsDecode 28 (w.map (·.1)) er = some (decodeWord fs e w).2 := by
  obtain ⟨v, -, is⟩ | ⟨on, er, v, found, is⟩ | ⟨-, is⟩ := decodeWord_cases fs e w
  · rw [is] at h; contradiction
  · exact ⟨on, er, by rw [found, is]⟩
  · rw [is] at h; contradiction

theorem decodeWord_uncorrectable (h : (decodeWord fs e w).1 = .uncorrectable) :
    (decodeWord fs e w).2 = w.map (·.1) ∧ rsDecode 30 (w.map (·.1)) [] = none := by
  obtain ⟨v, -, is⟩ | ⟨-, er, v, -, is⟩ | ⟨failed, is⟩ := decodeWord_cases fs e w
  · rw [is] at h; contradiction
  · rw [is] at h; contradiction
  · rw [is]; exact ⟨rfl, failed⟩

end

/-! ### Where erasures apply -/

/-- R155: no erasures in FEC-THROUGH, with ERASE_EN = 0, on the host side, or on a line without the inner code. -/
theorem State.eraseOn_off {s : State} {l : Lane} {side : Fin 2} {fs : FecSet}
    (h : s.app .FEC_FEC_MODE l = 0 ∨ fs.eraseEn = false ∨ side = 1 ∨ s.lmode l ≤ 1) : s.eraseOn l side fs = false := by
  rw [State.eraseOn]
  rcases h with through | off | rfl | plain
  · simp [through]
  · simp [off]
  · simp
  · simp [plain]

end Sys2Proof.Machine

/-! O17: the updates that codewords on lanes are made of. -/

namespace Sys2Proof.Machine

/-- What of a lane neither the counting of codewords nor sending changes and an end of codewords sets: the settings of the host side's codewords, and
the pair that the line has reached. -/
def LaneS.steady (x : LaneS) : Option FecSet × Nat := (x.fecHost, x.rxPair)

/-- A property that the updates keep which counting codewords and sending are made of; `W` says which cells they may write. -/
structure KeptOnLanes (W : Fld → Nat → Prop) (P : State → Prop) : Prop extends KeptBySignals P where
  write : ∀ {s : State} {g : Fld} {j : Nat} (v : Nat), W g j → P s → P (s.put g j v)
  lane : ∀ {s : State} (l : Lane) {u : LaneS → LaneS}, (∀ x, (u x).steady = x.steady) → P s → P (s.modLane l u)
  group : ∀ {s : State} (g : Group) (u : GroupS → GroupS), P s → P (s.modGroup g u)

/-- Besides, injections step their slots and draw free values. -/
structure KeptByWords (W : Fld → Nat → Prop) (P : State → Prop) : Prop extends KeptOnLanes W P where
  fi : ∀ {s : State} (i : Fin 32) (u : FiS → FiS), P s → P (s.modFi i u)
  draw : ∀ {s : State}, P s → P s.draw.2

/-- The cells that the outcome of a codeword is counted in, but for the number of codewords (R156, R159). -/
def OutcomeCell (l : Lane) (side : Fin 2) (g : Fld) (j : Nat) : Prop :=
  (g ∈ [Fld.FECS_CORR_CW, .FECS_UNCORR_CW, .FECS_SYM_ERR, .FECS_BIT_ERR, .FECS_ERASE_CW] ∧ j = l.val * 2 + side.val)
    ∨ (g = (if side = 0 then .FEC_UNCORR_LINE else .FEC_UNCORR_HOST) ∧ j = l.val)
    ∨ (side = 0 ∧ g = .FEC_HIST ∧ ∃ b, b < 17 ∧ j = l.val * 17 + b)

/-- R153, R156, R158 and R159: a codeword has been decoded: it is counted, flagged, and on the line adds to the uncorrectable ones in a row. -/
def State.notesWord (s : State) (l : Lane) (side : Fin 2) (v : Verdict) (symErr bitErr : Nat) : State :=
  let s := s.countCodeword l side v symErr bitErr
  let s := if v == .uncorrectable then s.flag (if side = 0 then .FEC_UNCORR_LINE else .FEC_UNCORR_HOST) l else s
  if side = 0 then s.modLane l fun x => { x with uncorr := if v == .uncorrectable then x.uncorr + 1 else 0 } else s

/-- The state after the injections into a codeword (R558). -/
def State.afterInjections (s : State) (l : Lane) (side : Fin 2) (word : List (Nat × Rat)) : State :=
  let a := s.injectSymbols l side word
  (a.1.injectUncorr l side a.2).1

theorem State.takeWord_notes (s : State) (l : Lane) (side : Fin 2) (fs : FecSet) (word : List (Nat × Rat)) :
    ∃ v a b, (s.takeWord l side fs word).1 = (s.afterInjections l side word).notesWord l side v a b := ⟨_, _, _, rfl⟩

section
variable {W : Fld → Nat → Prop} {P : State → Prop} {s : State} {l : Lane} {side : Fin 2}

theorem KeptOnLanes.perfLane (K : KeptOnLanes W P) (l : Lane) (e n : Nat) (p : P s) : P (s.perfLane l e n) := by
  unfold State.perfLane
  dsimp only
  split
  · exact K.perf _ _ _ p
  · exact p

/-! ### A codeword -/

section
variable (K : KeptOnLanes W P) (hW : ∀ g j, OutcomeCell l side g j → W g j)
include K hW

/-- Once the codeword is counted, its outcome is. -/
theorem KeptOnLanes.countCodeword (v : Verdict) (symErr bitErr : Nat) (p : P (s.inc .FECS_CW (l.val * 2 + side.val))) :
    P (s.countCodeword l side v symErr bitErr) := by
  have own {t : State} (n : Nat) {g : Fld} (h : g ∈ [Fld.FECS_CORR_CW, .FECS_UNCORR_CW, .FECS_SYM_ERR, .FECS_BIT_ERR, .FECS_ERASE_CW]) (q : P t) :
      P (t.inc g (l.val * 2 + side.val) n) := K.write _ (hW _ _ (.inl ⟨h, rfl⟩)) q
  unfold State.countCodeword
  extract_lets i counted corrected errors seen judged
  have first : P counted := K.perfLane _ _ _ p
  have corrects : P corrected := by
    unfold corrected
    split
    · exact first
    · exact own 1 (by decide) first
  have adds : P errors := own bitErr (by decide) (own symErr (by decide) corrects)
  have shows : P seen := by
    unfold seen
    split
    · exact K.perfLane _ _ _ adds
    · exact adds
  have judges : P judged := by
    unfold judged
    cases v with
    | uncorrectable => exact K.perfLane _ _ _ (own 1 (by decide) first)
    | delivered => exact shows
    | erased => exact own 1 (by decide) shows
  split
  · exact judges
  · next line => exact K.write _ (hW _ _ (.inr (.inr ⟨by simpa using line, rfl, _, by split <;> omega, rfl⟩))) judges

/-- R156 and R158: besides, it is flagged, and the line's uncorrectable ones in a row are counted. -/
theorem KeptOnLanes.notesWord (v : Verdict) (symErr bitErr : Nat) (p : P (s.inc .FECS_CW (l.val * 2 + side.val))) :
    P (s.notesWord l side v symErr bitErr) := by
  unfold State.notesWord
  extract_lets counted flagged
  have first : P counted := K.countCodeword hW v symErr bitErr p
  have flags : P flagged := by
    unfold flagged
    split
    · exact K.write _ (hW _ _ (.inr (.inl ⟨rfl, rfl⟩))) first
    · exact first
  split
  · exact K.lane _ (fun _ => rfl) flags
  · exact flags

end

/-! ### Injections -/

/-- The fields that an injection into a codeword writes. -/
def Fld.ofWordInjection : Fld → Bool
  | .FIS_INJ_CNT | .FIS_ACTIVE | .FIS_KIND | .FIS_SCOPE | .FIS_ID | .FIS_HOST_TAG | .FI_ACTIVE_MAP => true
  | _ => false

section
variable (K : KeptByWords W P) (hW : ∀ g j, g.ofWordInjection = true → W g j)
include K hW

theorem KeptByWords.endSlot (i : Fin 32) (p : P s) : P (s.endSlot i) := by
  unfold State.endSlot
  exact K.write _ (hW _ _ rfl) (K.fi _ _ (K.write _ (hW _ _ rfl) (K.write _ (hW _ _ rfl) (K.write _ (hW _ _ rfl) (K.write _ (hW _ _ rfl)
    (K.write _ (hW _ _ rfl) p))))))

theorem KeptByWords.injectSymbols (word : List (Nat × Rat)) (p : P s) : P (s.injectSymbols l side word).1 := by
  unfold State.injectSymbols
  split
  · exact p
  · extract_lets y d hit hits
    have counts : P hits := K.fi _ _ (K.write _ (hW .FIS_INJ_CNT _ rfl) (K.draw p))
    exact counts

theorem KeptByWords.injectUncorr (word : List (Nat × Rat)) (p : P s) : P (s.injectUncorr l side word).1 := by
  unfold State.injectUncorr
  split
  · exact p
  · extract_lets y d counted ended hit
    have counts : P counted := K.fi _ _ (K.write _ (hW .FIS_INJ_CNT _ rfl) (K.draw p))
    have ends : P ended := by
      unfold ended
      split
      · exact K.endSlot hW _ counts
      · exact counts
    split_ifs
    · exact K.fi _ (fun z => { z with n := z.n + 1 }) p
    · exact ends

theorem KeptByWords.afterInjections (word : List (Nat × Rat)) (p : P s) : P (s.afterInjections l side word) :=
  K.injectUncorr hW _ (K.injectSymbols hW _ p)

end

/-- R558: without an injection a codeword is taken as received. -/
theorem State.afterInjections_none (symbols : s.fiOn l 3 side = none) (uncorr : s.fiOn l 4 side = none) (word : List (Nat × Rat)) :
    s.afterInjections l side word = s := by
  have plain : s.injectSymbols l side word = (s, word) := by rw [State.injectSymbols, symbols]
  rw [State.afterInjections, plain, State.injectUncorr, uncorr]

end

/-! ### What keeps: the cells outside a set, the frame, ports and slots -/

theorem Fld.follows_of_counted {g : Fld} (h : g.counted = true) : g.follows = true := by
  unfold Fld.counted at h
  split at h
  · rfl
  · rfl
  · rfl
  · contradiction

/-- Counting and injections keep what `Retains` says of fields outside a set, of applied values and of lanes. -/
theorem keptByWords_retains (V : Fld → Bool) (hV : ∀ g, g.counted = true → V g = true) (s : State) :
    KeptByWords (fun g _ => V g = true) (Retains V LaneS.steady (fun _ : GroupS => ()) s) where
  toKeptBySignals := (Retains.keptByEvents hV LaneS.steady (fun _ => ()) s).toKeptBySignals
  write v h a := a.put h _ v
  lane l _ h a := a.modLane l h
  group g _ a := a.modGroup g fun _ => rfl
  fi i u a := a.modFi i u
  draw a := a.draw

/-- Counting keeps the frame of the cells that it writes. -/
theorem keptOnLanes_frame (cells : List (Fld × Nat)) (s : State) : KeptOnLanes (fun g j => (g, j) ∈ cells) (Frame cells s) where
  put _ v h a := a.put (.inr (Fld.follows_of_counted h)) v
  emit o a := a.emit o
  pend h _ a := a.modHalf h _
  write v h a := a.put (.inl h) v
  lane l _ _ a := a.modLane l _
  group g u a := a.modGroup g u

/-- Counting touches neither ports nor injection slots. -/
theorem keptOnLanes_wired (W : Fld → Nat → Prop) (ps : Vector PortS 48) (is : Vector FiS 32) : KeptOnLanes W fun t => t.ports = ps ∧ t.fis = is where
  put _ _ _ p := p
  emit _ p := p
  pend _ _ p := p
  write _ _ p := p
  lane _ _ _ p := p
  group _ _ p := p

/-- Nor does an injection touch ports. -/
theorem keptByWords_ports (W : Fld → Nat → Prop) (ps : Vector PortS 48) : KeptByWords W fun t => t.ports = ps where
  put _ _ _ p := p
  emit _ p := p
  pend _ _ p := p
  write _ _ p := p
  lane _ _ _ p := p
  group _ _ p := p
  fi _ _ p := p
  draw p := p

end Sys2Proof.Machine

namespace Sys2Proof.Machine

/-! ### Codewords are counted (R159) -/

/-- Every field but the number of codewords. -/
def Fld.notWords : Fld → Bool
  | .FECS_CW => false
  | _ => true

theorem Fld.notWords_of_ne {g : Fld} (h : g ≠ .FECS_CW) : g.notWords = true := by
  unfold Fld.notWords
  split
  · exact absurd rfl h
  · rfl

theorem Fld.notWords_of_counted (g : Fld) (h : g.counted = true) : g.notWords = true :=
  Fld.notWords_of_ne (by rintro rfl; contradiction)

theorem Fld.notWords_of_injection (g : Fld) (h : g.ofWordInjection = true) : g.notWords = true :=
  Fld.notWords_of_ne (by rintro rfl; contradiction)

theorem OutcomeCell.notWords {l : Lane} {side : Fin 2} {g : Fld} {j : Nat} (h : OutcomeCell l side g j) : g.notWords = true :=
  Fld.notWords_of_ne (by
    rintro rfl
    rcases h with ⟨h, -⟩ | ⟨h, -⟩ | ⟨-, h, -⟩
    · simp at h
    · split at h <;> contradiction
    · contradiction)

/-- On a side of a lane `n` codewords more are counted; the other numbers of codewords, the applied values and what of lanes is steady stay. -/
structure Counts (l : Lane) (side : Fin 2) (n : Nat) (s t : State) : Prop where
  own : t.get .FECS_CW (l.val * 2 + side.val) = (s.get .FECS_CW (l.val * 2 + side.val) + n) % 2 ^ 64
  other : ∀ j, j ≠ l.val * 2 + side.val → t.get .FECS_CW j = s.get .FECS_CW j
  ap : t.ap = s.ap
  lane : ∀ m, (t.lane m).steady = (s.lane m).steady

section
variable {s t r : State} {l : Lane} {side : Fin 2} {fs : FecSet}

theorem Counts.trans {n m : Nat} (a : Counts l side n s t) (b : Counts l side m t r) : Counts l side (n + m) s r where
  own := by rw [b.own, a.own, Nat.mod_add_mod, Nat.add_assoc]
  other j h := (b.other j h).trans (a.other j h)
  ap := b.ap.trans a.ap
  lane m := (b.lane m).trans (a.lane m)

theorem State.takeWord_counts (word : List (Nat × Rat)) : Counts l side 1 s (s.takeWord l side fs word).1 := by
  obtain ⟨v, a, b, e⟩ := s.takeWord_notes l side fs word
  rw [e]
  have before := (keptByWords_retains Fld.notWords Fld.notWords_of_counted s).afterInjections (fun g _ => Fld.notWords_of_injection g) (l := l) (side := side)
    word (Retains.refl s)
  generalize s.afterInjections l side word = u at before ⊢
  have after := (keptByWords_retains Fld.notWords Fld.notWords_of_counted (u.inc .FECS_CW (l.val * 2 + side.val))).notesWord
    (fun _ _ h => h.notWords) v a b (Retains.refl _)
  refine ⟨?_, fun j h => ?_, after.ap.trans before.ap, fun m => (after.lane m).trans (before.lane m)⟩
  · rw [after.get _ _ rfl, State.inc_eq, State.get_put_self, before.get _ _ rfl]
    rfl
  · rw [after.get _ _ rfl, State.inc_eq, State.get_put, if_neg (fun k => h k.2), before.get _ _ rfl]

theorem State.takeWords_cons (word : List (Nat × Rat)) (words : List (List (Nat × Rat))) :
    (s.takeWords l side fs (word :: words)).1 = ((s.takeWord l side fs word).1.takeWords l side fs words).1 := rfl

theorem State.takeWords_counts {ws : List (List (Nat × Rat))} (some : ws ≠ []) : Counts l side ws.length s (s.takeWords l side fs ws).1 := by
  induction ws generalizing s with
  | nil => contradiction
  | cons word rest ih =>
    rw [State.takeWords_cons]
    cases rest with
    | nil => exact State.takeWord_counts word
    | cons next rest =>
      rw [List.length_cons, Nat.add_comm]
      exact (State.takeWord_counts word).trans (ih (List.cons_ne_nil _ _))

theorem State.fecNow_of_ap (ap : t.ap = s.ap) (l : Lane) : t.fecNow l = s.fecNow l := by
  simp only [State.fecNow, State.appSet, State.app_of_ap ap (f := .FEC_REL_THR) rfl, State.app_of_ap ap (f := .FEC_ERASE_MAX) rfl,
    State.app_of_ap ap (f := .FEC_ERASE_EN) rfl, State.app_of_ap ap (f := .FEC_POISON_PARITY) rfl]

/-- R164: the codewords that start on a side take settings. -/
def LaneS.startsWords (x : LaneS) (side : Fin 2) (fs : FecSet) : LaneS :=
  if side = 0 then { x with fecLine := some fs } else { x with fecHost := some fs }

/-- R164: the settings of the codewords that end on a side. -/
def State.endingSet (s : State) (l : Lane) (side : Fin 2) : FecSet :=
  (if side = 0 then (s.lane l).fecLine else (s.lane l).fecHost).getD (s.fecNow l)

/-- R164: the codewords of a lane end on a side, and those that start take the settings of now. -/
theorem State.endWords_eq (ws : List (List (Nat × Rat))) : (s.endWords l side ws).1 = (s.takeWords l side (s.endingSet l side) ws).1.modLane l
    (·.startsWords side (s.fecNow l)) := rfl

end
end Sys2Proof.Machine

/-! O17: the line: what is taken from it, decoded and given on. -/

namespace Sys2Proof.Machine

/-! ### Toward the host -/

/-- What of the state neither ports hold nor leaves the part. -/
def State.undelivered (s : State) : State := { s with ports := .replicate 48 {}, out := [], free := 0 }

section
variable {s t : State} {p l : Lane}

theorem State.of_undelivered {α : Type} (same : t.undelivered = s.undelivered) (f : State → α) (h : ∀ x, f x.undelivered = f x) : f t = f s := by
  rw [← h, same, h]

theorem frame_of_undelivered {W : List (Fld × Nat)} (same : t.undelivered = s.undelivered) : Frame W s t where
  get f i _ _ := State.of_undelivered same (·.get f i) fun _ => rfl
  ap := State.of_undelivered same State.ap fun _ => rfl
  written := State.of_undelivered same State.written fun _ => rfl
  rams := ⟨State.of_undelivered same State.dmt fun _ => rfl, State.of_undelivered same State.results fun _ => rfl,
    State.of_undelivered same State.resultAt fun _ => rfl, State.of_undelivered same State.senseAt fun _ => rfl⟩
  pins := ⟨State.of_undelivered same State.testmode fun _ => rfl, State.of_undelivered same State.extest fun _ => rfl,
    State.of_undelivered same State.porst fun _ => rfl⟩
  frame := State.of_undelivered same State.frame fun _ => rfl
  pending := State.of_undelivered same State.pending fun _ => rfl

/-- R218: sending to the host only emits. -/
theorem State.sendHost_kept {P : State → Prop} (emit : ∀ t o, P t → P (State.emit t o)) (ws : List (List Nat)) (start : P s) : P (s.sendHost p ws) := by
  unfold State.sendHost
  refine State.each_kept _ (fun t e q => ?_) start
  split
  · exact emit _ _ q
  · exact q

theorem State.sendHost_undelivered (ws : List (List Nat)) : (s.sendHost p ws).undelivered = s.undelivered :=
  State.sendHost_kept (P := fun t => t.undelivered = s.undelivered) (fun _ _ q => q) ws rfl

theorem State.sendHost_ports (ws : List (List Nat)) : (s.sendHost p ws).ports = s.ports :=
  State.sendHost_kept (P := fun t => t.ports = s.ports) (fun _ _ q => q) ws rfl

theorem State.port_of_ports (same : t.ports = s.ports) (q : Lane) : t.port q = s.port q := by rw [State.port, same, State.port]

/-- R157 and R222: Local Fault takes the place of what waits. -/
theorem State.faultToHost_spec (s : State) (p l : Lane) : (s.faultToHost p l).undelivered = s.undelivered
    ∧ ((s.faultToHost p l).port p).collect = [] ∧ ((s.faultToHost p l).port p).lineBits = [] := by
  unfold State.faultToHost
  extract_lets cleared f
  have empty : (cleared.port p).collect = [] ∧ (cleared.port p).lineBits = [] := by
    rw [State.port_modPort_self]
    exact ⟨rfl, rfl⟩
  split
  · rw [State.sendHost_undelivered, State.port_of_ports (State.sendHost_ports _)]
    exact ⟨rfl, empty⟩
  · exact ⟨rfl, empty⟩

/-- R220 and R223: codewords that join the others leave what waits of the line. -/
theorem State.collectWords_spec (s : State) (p l : Lane) (ws : List (List Nat)) : (s.collectWords p l ws).undelivered = s.undelivered
    ∧ ((s.collectWords p l ws).port p).lineBits = (s.port p).lineBits := by
  unfold State.collectWords
  extract_lets mine shown all
  have emits : shown.undelivered = s.undelivered ∧ shown.ports = s.ports :=
    State.each_kept (P := fun t => t.undelivered = s.undelivered ∧ t.ports = s.ports) mine (fun _ _ q => q) ⟨rfl, rfl⟩
  have line (u : PortS → PortS) (h : ∀ y, (u y).lineBits = y.lineBits) : ((shown.modPort p u).port p).lineBits = (s.port p).lineBits := by
    rw [State.port_modPort_self, h, State.port_of_ports emits.2]
  split
  · next r _ =>
    rw [State.sendHost_undelivered, State.port_of_ports (State.sendHost_ports _)]
    exact ⟨emits.1, line _ fun _ => rfl⟩
  · exact ⟨emits.1, line _ fun _ => rfl⟩

/-- R154 and R157: what is given on leaves nothing to wait of the line that did not wait. -/
theorem State.deliver_spec (s : State) (p l : Lane) (ws : List (List Nat)) (port : s.portOf l = some p) : (s.deliver l ws).undelivered = s.undelivered
    ∧ ((s.port p).lineBits = [] → ((s.deliver l ws).port p).lineBits = []) := by
  rw [State.deliver, port]
  dsimp only
  split
  · obtain ⟨same, -, line⟩ := s.faultToHost_spec p l
    exact ⟨same, fun _ => line⟩
  · obtain ⟨same, line⟩ := s.collectWords_spec p l ws
    exact ⟨same, fun none => line.trans none⟩

/-- The copy of the slice is no part of ports or lanes. -/
theorem State.mirror_keeps {α : Type} (f : State → α) (h : ∀ t g u, f (State.modGroup t g u) = f t) : f (s.mirror l) = f s := by
  unfold State.mirror
  split
  · exact h _ _ _
  · rfl

end
end Sys2Proof.Machine

/-! O17: codewords of the line, without an injection into them. -/

namespace Sys2Proof.Machine

/-- The cells in which codewords of the line are counted and flagged (R159, R166). -/
def lineCells (l : Lane) : List (Fld × Nat) :=
  (List.range 17).map (fun b => (Fld.FEC_HIST, l.val * 17 + b)) ++ [(.FECS_CW, l.val * 2 + 0), (.FECS_CORR_CW, l.val * 2 + 0),
    (.FECS_UNCORR_CW, l.val * 2 + 0), (.FECS_SYM_ERR, l.val * 2 + 0), (.FECS_BIT_ERR, l.val * 2 + 0), (.FECS_ERASE_CW, l.val * 2 + 0),
    (.FEC_PRE_DEC_ERR, l), (.FEC_PARITY_FAIL, l), (.FEC_UNCORR_LINE, l)]

theorem OutcomeCell.mem_lineCells {l : Lane} {g : Fld} {j : Nat} (h : OutcomeCell l 0 g j) : (g, j) ∈ lineCells l := by
  rcases h with ⟨h, rfl⟩ | ⟨rfl, rfl⟩ | ⟨-, rfl, b, small, rfl⟩
  · simp only [List.mem_cons, List.not_mem_nil, or_false] at h
    rcases h with rfl | rfl | rfl | rfl | rfl <;> simp [lineCells]
  · simp [lineCells]
  · exact List.mem_append_left _ (List.mem_map.2 ⟨b, by simpa using small, rfl⟩)

section
variable {s t r a : State} {l p : Lane} {fs : FecSet}

/-- The fields that say which slot acts on a lane (R558). -/
def Fld.ofSlot : Fld → Bool
  | .FIS_ACTIVE | .FIS_KIND | .FIS_ID | .FIS_SCOPE => true
  | _ => false

/-- What writes no slot leaves the injections as they are. -/
theorem State.fiOn_of_frame {W : List (Fld × Nat)} (a : Frame W s t) (fis : t.fis = s.fis) (free : ∀ c ∈ W, c.1.ofSlot = false) (kind side : Nat) :
    t.fiOn l kind side = s.fiOn l kind side := by
  have get {g : Fld} (slot : g.ofSlot = true) (own : g.follows = false) (i : Nat) : t.get g i = s.get g i :=
    a.get g i (fun m => by simp [free _ m] at slot) own
  have unit (i : Fin 32) : t.fi i = s.fi i := by rw [State.fi, fis, State.fi]
  simp only [State.fiOn, State.isSet, State.slotCovers, unit, State.portOf_of_ap a.ap, get (g := .FIS_ACTIVE) rfl rfl, get (g := .FIS_KIND) rfl rfl,
    get (g := .FIS_ID) rfl rfl, get (g := .FIS_SCOPE) rfl rfl]

theorem lineCells_free : ∀ c ∈ lineCells l, c.1.ofSlot = false := by
  rw [lineCells, List.forall_mem_append, List.forall_mem_map]
  exact ⟨fun _ _ => rfl, by simp [Fld.ofSlot]⟩

/-- On the line of a lane codewords have been taken, and no injection slot has moved. -/
structure LineKept (l : Lane) (s t : State) : Prop where
  frame : Frame (lineCells l) s t
  wired : t.ports = s.ports ∧ t.fis = s.fis

theorem LineKept.refl (l : Lane) (s : State) : LineKept l s s := ⟨Frame.refl _ s, rfl, rfl⟩

theorem LineKept.trans (a : LineKept l s t) (b : LineKept l t r) : LineKept l s r :=
  ⟨a.frame.trans b.frame, b.wired.1.trans a.wired.1, b.wired.2.trans a.wired.2⟩

theorem LineKept.fiOn (a : LineKept l s t) (kind side : Nat) : t.fiOn l kind side = s.fiOn l kind side :=
  State.fiOn_of_frame a.frame a.wired.2 lineCells_free kind side

theorem State.takeWord_line (symbols : s.fiOn l 3 0 = none) (uncorr : s.fiOn l 4 0 = none) (word : List (Nat × Rat)) :
    LineKept l s (s.takeWord l 0 fs word).1 := by
  obtain ⟨v, m, n, e⟩ := s.takeWord_notes l 0 fs word
  rw [e, State.afterInjections_none symbols uncorr]
  exact ⟨(keptOnLanes_frame (lineCells l) s).notesWord (fun _ _ h => h.mem_lineCells) v m n ((Frame.refl _ s).inc (.inl (by simp [lineCells])) 1),
    (keptOnLanes_wired (OutcomeCell l 0) s.ports s.fis).notesWord (fun _ _ h => h) v m n ⟨rfl, rfl⟩⟩

theorem State.takeWords_line (symbols : s.fiOn l 3 0 = none) (uncorr : s.fiOn l 4 0 = none) (ws : List (List (Nat × Rat))) :
    LineKept l s (s.takeWords l 0 fs ws).1 := by
  induction ws generalizing s with
  | nil => exact LineKept.refl l s
  | cons word ws ih =>
    have first : LineKept l s (s.takeWord l 0 fs word).1 := State.takeWord_line symbols uncorr word
    rw [State.takeWords_cons]
    exact first.trans (ih ((first.fiOn 3 0).trans symbols) ((first.fiOn 4 0).trans uncorr))

/-! ### From the line to the host -/

/-- R155 and R157: what a lane takes from the line is decoded, counted and given on. -/
structure LineTaken (l p : Lane) (n : Nat) (s a t : State) : Prop where
  count : t.get .FECS_CW (l.val * 2 + 0) = (s.get .FECS_CW (l.val * 2 + 0) + n) % 2 ^ 64
  settings : (t.lane l).fecLine = some (s.fecNow l)
  pair : (t.lane l).rxPair = (a.lane l).rxPair
  line : (a.port p).lineBits = [] → (t.port p).lineBits = []
  frame : Frame (lineCells l) s t

theorem State.lineWords_taken {take : State → Lane → State × List (Lane × List (List (Nat × Rat)))} {word : List (Nat × Rat)}
    {words : List (List (Nat × Rat))} (port : s.portOf l = some p)
    (data : (if s.lmode l ≤ 1 then s.portLanes p else [l]).all (fun x => s.isSet .ACQ_RX_DATA x) = true)
    (taken : take s p = (a, [(l, word :: words)])) (frame : Frame [(.FEC_PRE_DEC_ERR, l), (.FEC_PARITY_FAIL, l)] s a) (fis : a.fis = s.fis)
    (symbols : s.fiOn l 3 0 = none) (uncorr : s.fiOn l 4 0 = none) : LineTaken l p (words.length + 1) s a (s.lineWords l take) := by
  have slots (kind : Nat) : a.fiOn l kind 0 = s.fiOn l kind 0 := State.fiOn_of_frame frame fis (by simp [Fld.ofSlot]) kind 0
  let fs := a.endingSet l 0
  let b := (a.takeWords l 0 fs (word :: words)).1
  let e := b.modLane l (·.startsWords 0 (a.fecNow l))
  let d := e.deliver l (a.endWords l 0 (word :: words)).2
  have is : s.lineWords l take = d.mirror l := by
    rw [State.lineWords, port]
    dsimp only
    rw [if_neg (by simp [data]), taken]
    rfl
  have counts : Counts l 0 (words.length + 1) a b := State.takeWords_counts (List.cons_ne_nil _ _)
  have kept : LineKept l a b := State.takeWords_line ((slots 3).trans symbols) ((slots 4).trans uncorr) _
  obtain ⟨same, line⟩ := e.deliver_spec p l (a.endWords l 0 (word :: words)).2
    ((State.portOf_of_ap (counts.ap.trans frame.ap) l).trans port)
  have lane : (d.mirror l).lane l = (b.lane l).startsWords 0 (a.fecNow l) := by
    rw [State.mirror_keeps (·.lane l) fun _ _ _ => rfl, ← State.lane_modLane_self b l (·.startsWords 0 (a.fecNow l))]
    exact State.of_undelivered same (·.lane l) fun _ => rfl
  have steady : (b.lane l).rxPair = (a.lane l).rxPair := congrArg Prod.snd (counts.lane l)
  rw [is]
  refine ⟨?_, ?_, ?_, fun none => ?_, ?_⟩
  · rw [State.mirror_get]
    calc d.get .FECS_CW (l.val * 2 + 0) = b.get .FECS_CW (l.val * 2 + 0) := State.of_undelivered same (·.get .FECS_CW (l.val * 2 + 0)) fun _ => rfl
      _ = (a.get .FECS_CW (l.val * 2 + 0) + (words.length + 1)) % 2 ^ 64 := counts.own
      _ = _ := by rw [frame.get _ _ (by simp) rfl]
  · rw [lane, State.fecNow_of_ap frame.ap]
    rfl
  · rw [lane, ← steady]
    rfl
  · rw [State.mirror_keeps (·.port p) fun _ _ _ => rfl]
    exact line ((congrArg PortS.lineBits (State.port_of_ports kept.wired.1 p)).trans none)
  · exact (frame.weaken (by simp [lineCells])).trans (kept.frame.trans (((Frame.refl _ b).modLane l _).trans
      ((frame_of_undelivered same).trans (State.mirror_frame.weaken (List.nil_subset _)))))

end
end Sys2Proof.Machine

/-! O17: what a lane takes from the line, by line mode. -/

namespace Sys2Proof.Machine

section
variable {s t : State} {l p : Lane}

/-- R213: the lanes of a port are read from the applied values. -/
theorem State.portLanes_of_ap (ap : t.ap = s.ap) (p : Lane) : t.portLanes p = s.portLanes p := by
  simp only [State.portLanes, Machine.portLanes, State.app_of_ap ap (f := .PORT_EN) rfl, State.app_of_ap ap (f := .PORT_RATE) rfl,
    State.app_of_ap ap (f := .PORT_LMODE) rfl]

/-! ### The counters of the inner decoder -/

/-- R159: the parity failures are counted in LM400T and LM400D only. -/
theorem State.countInner_frame {W : List (Fld × Nat)} (pre : (.FEC_PRE_DEC_ERR, l.val) ∈ W) (par : 2 ≤ s.lmode l → (.FEC_PARITY_FAIL, l.val) ∈ W)
    (errors fails : Nat) : Frame W s (s.countInner l errors fails) := by
  unfold State.countInner
  extract_lets counted
  have first : Frame W s counted := by
    unfold counted
    split
    · exact (Frame.refl W s).incSat (.inl pre) _
    · exact Frame.refl W s
  split
  · next coded => exact first.incSat (.inl (par (State.lmode_of_ap first.ap l ▸ coded.1))) _
  · exact first

theorem State.countInner_keeps {α : Type} (f : State → α) (put : ∀ t g j v, f (State.put t g j v) = f t) (errors fails : Nat) :
    f (s.countInner l errors fails) = f s := by
  unfold State.countInner
  extract_lets counted
  have first : f counted = f s := by
    unfold counted
    split
    · exact put _ _ _ _
    · rfl
  split
  · exact (put _ _ _ _).trans first
  · exact first

/-! ### LM100 and LM200: a lane's bits of the PMA signal -/

theorem State.pmaHalf_frame (plain : s.lmode l ≤ 1) (codes : List Nat) (phase : Nat) : Frame [(.FEC_PRE_DEC_ERR, l.val)] s (s.pmaHalf l codes phase).1 := by
  unfold State.pmaHalf
  extract_lets d ys qs counted noted bare
  have first : Frame [(.FEC_PRE_DEC_ERR, l.val)] s counted := by
    unfold counted
    split
    · exact Frame.refl _ s
    · exact State.countInner_frame (by simp) (fun coded => by omega) _ _
  have notes : Frame [(.FEC_PRE_DEC_ERR, l.val)] s noted := first.modLane _ _
  exact notes

theorem State.pmaHalf_wired (codes : List Nat) (phase : Nat) : (s.pmaHalf l codes phase).1.ports = s.ports ∧ (s.pmaHalf l codes phase).1.fis = s.fis := by
  unfold State.pmaHalf
  extract_lets d ys qs counted noted bare
  have first : counted.ports = s.ports ∧ counted.fis = s.fis := by
    unfold counted
    split
    · exact ⟨rfl, rfl⟩
    · exact ⟨State.countInner_keeps State.ports (fun _ _ _ _ => rfl) _ _, State.countInner_keeps State.fis (fun _ _ _ _ => rfl) _ _⟩
  exact first

/-! ### Rounds of a port -/

theorem takeRound_one {α : Type} (x : α) : takeRound 1 [(0, x)] = some ([x], []) := by simp [takeRound, List.range_succ]

/-- R220 and R223: one lane's part is no round of more lanes. -/
theorem takeRound_waits {α : Type} {n : Nat} (more : 2 ≤ n) (k : Nat) (x : α) : takeRound n [(k, x)] = none := by
  have missing : ((List.range n).filterMap fun j => [(k, x)].find? fun e => e.1 == j).length ≠ n := by
    intro whole
    conv_rhs at whole => rw [← List.length_range (n := n)]
    have all := List.filterMap_length_eq_length.1 whole
    have found (j : Nat) (h : j < n) : k = j := by simpa using all j (List.mem_range.2 h)
    have zero := found 0 (by omega)
    have one := found 1 (by omega)
    omega
  exact if_neg missing

theorem mem_group_lanes (l : Lane) : l ∈ l.group.lanes := by
  refine List.mem_map.2 ⟨⟨l.val % 8, by omega⟩, List.mem_finRange _, ?_⟩
  apply Fin.ext
  simp only [Group.lane, Lane.group]
  omega

/-- R212: a port has a lane. -/
theorem lineCount_pos {rate lmode n : Nat} (h : lineCount rate lmode = some n) : 0 < n := by
  unfold lineCount at h
  split at h <;> simp_all <;> omega

/-- R213: a port that holds lanes holds its own slot's. -/
theorem State.mem_portLanes_self (h : l ∈ s.portLanes p) : p ∈ s.portLanes p := by
  unfold State.portLanes Machine.portLanes at h ⊢
  split at h
  · next on =>
    rw [if_pos on]
    split at h
    · next n count =>
      have := lineCount_pos count
      exact List.mem_filter.2 ⟨mem_group_lanes p, by simpa using this⟩
    · contradiction
  · contradiction

theorem State.eq_port_of_alone (alone : s.portLanes p = [l]) : l = p :=
  (List.mem_singleton.1 (alone ▸ State.mem_portLanes_self (l := l) (p := p) (s := s) (by simp [alone]))).symm

/-- R219: a port of one lane has its round at once. -/
theorem State.pmaRound_alone (alone : s.portLanes p = [l]) (empty : (s.port p).lineBits = []) (bits : List Bool) :
    s.pmaRound p l bits = (s.modPort p fun y => { y with lineBits := [] },
      [(l, [bareWord ((Config.pmaReceive (s.app .PORT_RATE p) [bits]).getD 0 [])])]) := by
  have place : posInPort p l = 0 := by rw [posInPort, State.eq_port_of_alone alone, Nat.sub_self]
  rw [State.pmaRound, alone, empty, place]
  dsimp only [List.length_singleton, List.nil_append]
  rw [takeRound_one]
  rfl

/-- R219: of a port of more lanes the first lane's bits wait. -/
theorem State.pmaRound_waits (more : 2 ≤ (s.portLanes p).length) (empty : (s.port p).lineBits = []) (bits : List Bool) :
    s.pmaRound p l bits = (s.modPort p fun y => { y with lineBits := [(posInPort p l, bits)] }, []) := by
  rw [State.pmaRound, empty]
  dsimp only [List.nil_append]
  rw [takeRound_waits more]

/-! ### LM400T and LM400D: a pair -/

theorem State.takeDecided_spec (s : State) (l : Lane) (d : Decided) : Frame [(.FEC_PRE_DEC_ERR, l.val), (.FEC_PARITY_FAIL, l.val)] s (s.takeDecided l d).1
    ∧ (s.takeDecided l d).1.fis = s.fis ∧ ((s.takeDecided l d).1.lane l).rxPair = (s.lane l).rxPair + 1
    ∧ ∃ first second, (s.takeDecided l d).2 = [first, second] := by
  have counted : Frame [(.FEC_PRE_DEC_ERR, l.val), (.FEC_PARITY_FAIL, l.val)] s (s.countInner l d.preDecErr d.parityFail) :=
    State.countInner_frame (by simp) (fun _ => by simp) _ _
  unfold State.takeDecided
  extract_lets noted
  have notes : Frame [(.FEC_PRE_DEC_ERR, l.val), (.FEC_PARITY_FAIL, l.val)] s noted := counted.modLane _ _
  have fis : noted.fis = s.fis := State.countInner_keeps State.fis (fun _ _ _ _ => rfl) _ _
  refine ⟨notes, fis, ?_, _, _, rfl⟩
  rw [ State.lane_modLane_self, State.countInner_keeps (·.lane l) fun _ _ _ _ => rfl]

end
end Sys2Proof.Machine

/-! O17: what a lane receives from the line. -/

namespace Sys2Proof.Machine

section
variable {s : State} {l p : Lane} {codes : List Nat} {phase : Fin 64}

/-- In LM100 to LM400T a lane receives levels. -/
theorem exec_lineReceive (pam : s.lmode l ≠ 3) :
    exec (.codewordReceive l (.line codes phase)) s = .next (settle (s.lineWords l fun s p => s.pamWords p l codes phase)) := if_neg pam

theorem State.pamWords_plain (plain : s.lmode l ≤ 1) (n : Nat) :
    s.pamWords p l codes n = (s.pmaHalf l codes n).1.pmaRound p l (s.pmaHalf l codes n).2 := if_pos plain

theorem lineReceive_alone (port : s.portOf l = some p) (data : s.get .ACQ_RX_DATA l = 1) (plain : s.lmode l ≤ 1) (alone : s.portLanes p = [l])
    (empty : (s.port p).lineBits = []) (symbols : s.fiOn l 3 0 = none) (uncorr : s.fiOn l 4 0 = none) : Does (.codewordReceive l (.line codes phase)) s fun t =>
      t.get .FECS_CW (l * 2 + 0) = (s.get .FECS_CW (l * 2 + 0) + 1) % 2 ^ 64 ∧ (t.lane l).fecLine = some (s.fecNow l) ∧ (t.port p).lineBits = []
        ∧ Frame (lineCells l) s t := by
  let a := (s.pmaHalf l codes phase).1
  have half : Frame [(.FEC_PRE_DEC_ERR, l.val)] s a := State.pmaHalf_frame plain codes phase
  obtain ⟨ports, fis⟩ : a.ports = s.ports ∧ a.fis = s.fis := State.pmaHalf_wired codes phase
  have taken := State.pmaRound_alone (s := a) (l := l) (p := p) ((State.portLanes_of_ap half.ap p).trans alone)
    ((congrArg PortS.lineBits (State.port_of_ports ports p)).trans empty)
    (s.pmaHalf l codes phase).2
  rw [← State.pamWords_plain plain] at taken
  have got := State.lineWords_taken (take := fun s p => s.pamWords p l codes phase) port (by simp [plain, alone, State.isSet, data]) taken
    ((half.weaken (by simp)).modPort _ _) fis symbols uncorr
  exact ⟨_, exec_lineReceive (by omega), got.count, got.settings, got.line (by rw [State.port_modPort_self]), got.frame⟩

theorem lineReceive_waits (port : s.portOf l = some p) (data : (s.portLanes p).all (fun x => s.isSet .ACQ_RX_DATA x) = true) (plain : s.lmode l ≤ 1)
    (more : 2 ≤ (s.portLanes p).length) (empty : (s.port p).lineBits = []) : Does (.codewordReceive l (.line codes phase)) s fun t =>
      (t.port p).lineBits = [(posInPort p l, (s.pmaHalf l codes phase).2)] ∧ Frame [(.FEC_PRE_DEC_ERR, l)] s t := by
  let a := (s.pmaHalf l codes phase).1
  have half : Frame [(.FEC_PRE_DEC_ERR, l.val)] s a := State.pmaHalf_frame plain codes phase
  obtain ⟨ports, -⟩ : a.ports = s.ports ∧ a.fis = s.fis := State.pmaHalf_wired codes phase
  let t := a.modPort p fun y => { y with lineBits := [(posInPort p l, (s.pmaHalf l codes phase).2)] }
  have taken : s.pamWords p l codes phase = (t, []) := by
    rw [State.pamWords_plain plain]
    exact State.pmaRound_waits (by rwa [State.portLanes_of_ap half.ap]) ((congrArg PortS.lineBits (State.port_of_ports ports p)).trans empty) _
  have is : s.lineWords l (fun s p => s.pamWords p l codes phase) = t := by
    rw [State.lineWords, port]
    dsimp only
    rw [if_neg (by simp [plain, data]), taken]
    rfl
  exact ⟨t, by rw [exec_lineReceive (by omega), is], by rw [State.port_modPort_self], half.modPort _ _⟩

theorem lineReceive_pair (port : s.portOf l = some p) (data : s.get .ACQ_RX_DATA l = 1) (mode : s.lmode l = 2) (symbols : s.fiOn l 3 0 = none)
    (uncorr : s.fiOn l 4 0 = none) : Does (.codewordReceive l (.line codes phase)) s fun t =>
      t.get .FECS_CW (l * 2 + 0) = (s.get .FECS_CW (l * 2 + 0) + 2) % 2 ^ 64 ∧ (t.lane l).fecLine = some (s.fecNow l) ∧ Frame (lineCells l) s t := by
  obtain ⟨frame, fis, -, first, second, words⟩ := s.takeDecided_spec l (decodeTc (decoderFor 2 (s.get .EQ_EFFORT l)) 640 (s.app .FEC_RHO l)
    (s.lane l).dec (s.outputs l (codes.length - 95) phase codes))
  have got := State.lineWords_taken (take := fun s p => s.pamWords p l codes phase) port (by simp [mode, State.isSet, data])
    (by rw [State.pamWords, if_neg (by omega)]; dsimp only; rw [words]) frame fis symbols uncorr
  exact ⟨_, exec_lineReceive (by omega), got.count, got.settings, got.frame⟩

theorem dmtReceive_pair {syms : List DmtSymbol} (port : s.portOf l = some p) (data : s.get .ACQ_RX_DATA l = 1) (mode : s.lmode l = 3)
    (symbols : s.fiOn l 3 0 = none) (uncorr : s.fiOn l 4 0 = none) : Does (.codewordReceive l (.dmt syms)) s fun t =>
      t.get .FECS_CW (l * 2 + 0) = (s.get .FECS_CW (l * 2 + 0) + 2) % 2 ^ 64 ∧ (t.lane l).fecLine = some (s.fecNow l)
        ∧ (t.lane l).rxPair = (s.lane l).rxPair + 1 ∧ Frame (lineCells l) s t := by
  obtain ⟨a, first, second, taken, frame, fis, pair⟩ : ∃ a first second, s.dmtWords l syms = (a, [(l, [first, second])])
      ∧ Frame [(.FEC_PRE_DEC_ERR, l.val), (.FEC_PARITY_FAIL, l.val)] s a ∧ a.fis = s.fis ∧ (a.lane l).rxPair = (s.lane l).rxPair + 1 := by
    unfold State.dmtWords
    extract_lets x begins frames r
    obtain ⟨frame, fis, pair, first, second, words⟩ := s.takeDecided_spec l
      (decodeDmt (decoderFor 3 (s.get .EQ_EFFORT l)) 640 x.dec (frames.drop (640 * x.rxPair % 240)))
    exact ⟨r.1, first, second, by rw [← words], frame, fis, pair⟩
  have got := State.lineWords_taken (take := fun s _ => s.dmtWords l syms) port (by simp [mode, State.isSet, data]) taken frame fis symbols uncorr
  exact ⟨_, if_neg (by simp [mode]), got.count, got.settings, got.pair.trans pair, got.frame⟩

theorem lineReceive_outside (port : s.portOf l = some p) (out : s.get .ACQ_RX_DATA l ≠ 1) (pam : s.lmode l ≠ 3) (own : l ∈ s.portLanes p) :
    Does (.codewordReceive l (.line codes phase)) s fun t => (t.port p).collect = [] ∧ (t.port p).lineBits = [] ∧ Frame [] s t := by
  have away : (if s.lmode l ≤ 1 then s.portLanes p else [l]).all (fun x => s.isSet .ACQ_RX_DATA x) = false := by
    have held : l ∈ (if s.lmode l ≤ 1 then s.portLanes p else [l]) := by
      split
      · exact own
      · exact List.mem_singleton_self l
    exact List.all_eq_false.2 ⟨l, held, by simpa [State.isSet] using out⟩
  have is : s.lineWords l (fun s p => s.pamWords p l codes phase) = s.faultToHost p l := by
    rw [State.lineWords, port]
    exact if_pos (by rw [away]; rfl)
  obtain ⟨same, collect, line⟩ := s.faultToHost_spec p l
  exact ⟨_, by rw [exec_lineReceive pam, is], collect, line, frame_of_undelivered same⟩

end
end Sys2Proof.Machine

/-! O17: a round of the host, and what lanes send of it. -/

namespace Sys2Proof.Machine

section
variable {s t : State} {l m p : Lane}

/-! ### What lanes send -/

section
variable {W : Fld → Nat → Prop} {P : State → Prop} (K : KeptOnLanes W P)
include K

theorem KeptOnLanes.idleFill (n : Nat) (q : P s) : P (s.idleFill l n).2 := by
  unfold State.idleFill
  dsimp only
  exact K.lane _ (fun _ => by rfl) q

theorem KeptOnLanes.nextOhc (q : P s) : P (s.nextOhc l).2 := by
  unfold State.nextOhc
  dsimp only
  exact K.lane _ (fun _ => by rfl) (K.idleFill 1 q)

theorem KeptOnLanes.sendLine (codes : List Nat) (q : P s) : P (s.sendLine l codes) := by
  unfold State.sendLine
  extract_lets shown m
  have shows : P shown := K.lane _ (fun _ => by rfl) q
  split
  · exact shows
  · exact K.emit _ shows

theorem KeptOnLanes.sendDelayed (codes : List Nat) (q : P s) : P (s.sendDelayed l codes) := by
  unfold State.sendDelayed
  exact K.sendLine _ (K.lane _ (fun _ => by rfl) q)

theorem KeptOnLanes.mirror (q : P s) : P (s.mirror l) := by
  unfold State.mirror
  split
  · exact K.group _ _ q
  · exact q

theorem KeptOnLanes.sendSymbol (clip : ∀ j, W .DMT_TX_CLIP j) (q : P s) : P (s.sendSymbol l) := by
  unfold State.sendSymbol
  exact K.sendDelayed _ (K.lane _ (fun _ => by rfl) (K.write _ (clip _) (K.nextOhc q)))

theorem KeptOnLanes.sendSymbols (clip : ∀ j, W .DMT_TX_CLIP j) (n : Nat) (q : P s) : P (s.sendSymbols l n) := by
  induction n generalizing s with
  | zero => exact q
  | succ n ih =>
    rw [State.sendSymbols]
    split
    · exact ih (K.sendSymbol clip q)
    · exact q

theorem KeptOnLanes.sendLevels (clamp : ∀ j, W .EQ_TX_CLAMP j) (levels : List Int) (q : P s) : P (s.sendLevels l levels) := by
  unfold State.sendLevels
  exact K.sendDelayed _ (K.lane _ (fun _ => by rfl) (K.write _ (clamp _) q))

theorem KeptOnLanes.sendRound (clamp : ∀ j, W .EQ_TX_CLAMP j) (clip : ∀ j, W .DMT_TX_CLIP j) (round : List (List Nat)) (q : P s) :
    P (s.sendRound p l round) := by
  unfold State.sendRound
  extract_lets mode ws r coded
  have runs (n : Nat) (x : LaneS) : LaneS.steady { x with enc := n } = x.steady := rfl
  have codes : P coded := K.lane l (runs r.2) q
  split_ifs
  · exact K.sendLevels clamp _ q
  · exact K.sendLevels clamp _ codes
  · have frames : P (coded.modLane l fun x => { x with txFrames := x.txFrames ++ r.1 }) := K.lane _ (fun _ => by rfl) codes
    exact K.sendSymbols clip 4 frames

end

/-- R222: what a lane sends of a round of its port, data or Local Fault. -/
def State.sendsOf (s : State) (p : Lane) (data : Bool) (round : List (List Nat)) (l : Lane) : State :=
  if !s.sendsData l then s.mirror l
  else
    let s := if data then s.each (s.placesOf p l) fun s k => s.emit (.codeword l false k (round.getD k [])) else s
    (s.sendRound p l round).mirror l

theorem KeptOnLanes.sendsOf {W : Fld → Nat → Prop} {P : State → Prop} (K : KeptOnLanes W P) (clamp : ∀ j, W .EQ_TX_CLAMP j)
    (clip : ∀ j, W .DMT_TX_CLIP j) (data : Bool) (round : List (List Nat)) (q : P s) : P (s.sendsOf p data round l) := by
  unfold State.sendsOf
  extract_lets shown
  have shows : P shown := by
    unfold shown
    split
    · exact State.each_kept _ (fun _ _ => K.emit _) q
    · exact q
  split
  · exact K.mirror q
  · exact K.mirror (K.sendRound clamp clip round shows)

/-! ### The codewords of a round end -/

/-- On the host side of a lane `n` codewords have ended, and on that of no other. -/
structure HostEnds (l : Lane) (n : Nat) (s t : State) : Prop where
  ap : t.ap = s.ap
  count : t.get .FECS_CW (l.val * 2 + 1) = (s.get .FECS_CW (l.val * 2 + 1) + n) % 2 ^ 64
  settings : (t.lane l).fecHost = some (s.fecNow l)
  other : ∀ m, m ≠ l → t.get .FECS_CW (m.val * 2 + 1) = s.get .FECS_CW (m.val * 2 + 1) ∧ (t.lane m).fecHost = (s.lane m).fecHost

theorem State.endWords_host {ws : List (List (Nat × Rat))} (some : ws ≠ []) : HostEnds l ws.length s (s.endWords l 1 ws).1 := by
  have counts : Counts l 1 ws.length s (s.takeWords l 1 (s.endingSet l 1) ws).1 := State.takeWords_counts some
  rw [State.endWords_eq]
  refine ⟨counts.ap, counts.own, ?_, fun m ne => ⟨counts.other _ fun e => ne (Fin.ext (by simp at e; omega)), ?_⟩⟩
  · rw [State.lane_modLane_self]
    rfl
  · rw [State.lane_modLane, if_neg ne]
    exact congrArg Prod.fst (counts.lane m)

theorem State.placesOf_length (s : State) (p l : Lane) : (s.placesOf p l).length = streamsOf (s.lmode l) := by simp [State.placesOf]

theorem streamsOf_pos (mode : Nat) : 0 < streamsOf mode := by
  unfold streamsOf
  split <;> omega

/-- The codewords of a round that are a lane's. -/
def State.wordsOf (s : State) (p : Lane) (ws : List (List Nat)) (l : Lane) : List (List (Nat × Rat)) :=
  (s.placesOf p l).map fun k => (ws.getD k []).map fun x => (x, 0)

theorem State.wordsOf_length (ws : List (List Nat)) : (s.wordsOf p ws l).length = streamsOf (s.lmode l) := by
  rw [State.wordsOf, List.length_map, State.placesOf_length]

theorem State.endHostWords_cons (ws : List (List Nat)) (ls : List Lane) :
    (s.endHostWords p ws (l :: ls)).1 = ((s.endWords l 1 (s.wordsOf p ws l)).1.endHostWords p ws ls).1 := rfl

theorem State.endWords_round (ws : List (List Nat)) : HostEnds l (streamsOf (s.lmode l)) s (s.endWords l 1 (s.wordsOf p ws l)).1 := by
  rw [← State.wordsOf_length (p := p) ws]
  refine State.endWords_host (List.ne_nil_of_length_pos ?_)
  rw [State.wordsOf_length]
  exact streamsOf_pos _

theorem State.endHostWords_other (ws : List (List Nat)) {ls : List Lane} (out : m ∉ ls) :
    (s.endHostWords p ws ls).1.get .FECS_CW (m.val * 2 + 1) = s.get .FECS_CW (m.val * 2 + 1)
      ∧ ((s.endHostWords p ws ls).1.lane m).fecHost = (s.lane m).fecHost := by
  induction ls generalizing s with
  | nil => exact ⟨rfl, rfl⟩
  | cons l ls ih =>
    obtain ⟨ne, out⟩ := List.ne_and_not_mem_of_not_mem_cons out
    obtain ⟨count, settings⟩ := (State.endWords_round (s := s) (l := l) (p := p) ws).other m ne
    rw [State.endHostWords_cons, (ih out).1, (ih out).2]
    exact ⟨count, settings⟩

/-- R159 and R164: the lanes of a round each end their streams' codewords. -/
theorem State.endHostWords_own (ws : List (List Nat)) {ls : List Lane} (once : ls.Nodup) (own : m ∈ ls) :
    (s.endHostWords p ws ls).1.get .FECS_CW (m.val * 2 + 1) = (s.get .FECS_CW (m.val * 2 + 1) + streamsOf (s.lmode m)) % 2 ^ 64
      ∧ ((s.endHostWords p ws ls).1.lane m).fecHost = some (s.fecNow m) := by
  induction ls generalizing s with
  | nil => contradiction
  | cons l ls ih =>
    obtain ⟨out, once⟩ := List.nodup_cons.1 once
    have first := State.endWords_round (s := s) (l := l) (p := p) ws
    rw [State.endHostWords_cons]
    obtain rfl | later := List.mem_cons.1 own
    · rw [(State.endHostWords_other ws out).1, (State.endHostWords_other ws out).2]
      exact ⟨first.count, first.settings⟩
    · obtain ⟨count, settings⟩ := first.other m fun e => out (e ▸ later)
      rw [(ih once later).1, (ih once later).2, count, State.lmode_of_ap first.ap, State.fecNow_of_ap first.ap]
      exact ⟨rfl, rfl⟩

theorem State.takeWords_ports {side : Fin 2} {fs : FecSet} (ws : List (List (Nat × Rat))) : (s.takeWords l side fs ws).1.ports = s.ports := by
  induction ws generalizing s with
  | nil => rfl
  | cons word ws ih =>
    have K := keptByWords_ports (fun _ _ => True) s.ports
    obtain ⟨v, a, b, e⟩ := s.takeWord_notes l side fs word
    rw [State.takeWords_cons, ih, e]
    exact K.notesWord (fun _ _ _ => trivial) v a b (K.afterInjections (s := s) (fun _ _ _ => trivial) word rfl)

theorem State.endHostWords_ports (ws : List (List Nat)) (ls : List Lane) : (s.endHostWords p ws ls).1.ports = s.ports := by
  induction ls generalizing s with
  | nil => rfl
  | cons l ls ih =>
    rw [State.endHostWords_cons, ih]
    exact State.takeWords_ports _

theorem State.portLanes_nodup (s : State) (p : Lane) : (s.portLanes p).Nodup := by
  unfold State.portLanes Machine.portLanes
  split
  · split
    · refine List.Nodup.filter _ (List.Nodup.map (fun i j e => ?_) (List.nodup_finRange 8))
      have := congrArg Fin.val e
      simp only [Group.lane] at this
      exact Fin.ext (by omega)
    · exact List.nodup_nil
  · exact List.nodup_nil

/-! ### A round of the host -/

/-- R220: a round of the host begins at a port. -/
def State.startsRound (s : State) (p : Lane) : State := s.modPort p fun y => { y with txRound := y.txRound + 1 }

/-- R222: each lane of the port sends of a round, of the codewords or, with a free value drawn, of Local Fault. -/
theorem State.hostRound_up (up : s.hostUp p = true) (ws : List (List Nat)) : ∃ data round u,
    (u = ((s.startsRound p).endHostWords p ws (s.portLanes p)).1 ∨ u = ((s.startsRound p).endHostWords p ws (s.portLanes p)).1.draw.2)
    ∧ s.hostRound p ws = u.each (s.portLanes p) fun t l => t.sendsOf p data round l := by
  unfold State.hostRound
  extract_lets r₁ ls above r data f
  have ended : r = (s.startsRound p).endHostWords p ws (s.portLanes p) := if_pos up
  refine ⟨data, f.1, f.2, ?_, rfl⟩
  rw [← ended]
  unfold f
  split
  · exact .inl rfl
  · exact .inr rfl

/-- R153, R159, R164: a host side that is UP takes the codewords of a round, one to each stream. -/
theorem hostReceive_up {ws : List (List Bool)} (port : s.portOf l = some l) (whole : ws.length = (s.portHlanes l).length) (up : s.hostUp l = true)
    (own : m ∈ s.portLanes l) : Does (.codewordReceive l (.host ws)) s fun t =>
      (t.port l).txRound = (s.port l).txRound + 1 ∧ (t.lane m).fecHost = some (s.fecNow m)
        ∧ t.get .FECS_CW (m * 2 + 1) = (s.get .FECS_CW (m * 2 + 1) + streamsOf (s.lmode m)) % 2 ^ 64 := by
  obtain ⟨data, round, u, ends, is⟩ := State.hostRound_up up (s.hostWords l ws)
  obtain ⟨count, settings⟩ := State.endHostWords_own (s := s.startsRound l) (p := l) (s.hostWords l ws) (s.portLanes_nodup l) own
  have ports := State.endHostWords_ports (s := s.startsRound l) (p := l) (s.hostWords l ws) (s.portLanes l)
  generalize ((s.startsRound l).endHostWords l (s.hostWords l ws) (s.portLanes l)).1 = e at ends count settings ports
  have K := keptByWords_retains Fld.notWords Fld.notWords_of_counted e
  have drawn : Retains Fld.notWords LaneS.steady (fun _ => ()) e u ∧ u.ports = e.ports := by
    rcases ends with rfl | rfl
    · exact ⟨Retains.refl _, rfl⟩
    · exact ⟨K.draw (Retains.refl _), rfl⟩
  have sent : Retains Fld.notWords LaneS.steady (fun _ => ()) e (s.hostRound l (s.hostWords l ws)) := by
    rw [is]
    exact State.each_kept _ (fun _ _ => K.sendsOf (fun _ => rfl) (fun _ => rfl) data round) drawn.1
  have held : (s.hostRound l (s.hostWords l ws)).ports = e.ports := by
    rw [is]
    exact State.each_kept (P := fun t => t.ports = e.ports) _
      (fun _ _ => (keptByWords_ports (fun _ _ => True) e.ports).sendsOf (fun _ => trivial) (fun _ => trivial) data round) drawn.2
  refine ⟨_, if_pos ⟨port, whole⟩, ?_, (congrArg Prod.fst (sent.lane m)).trans settings, (sent.get _ _ rfl).trans count⟩
  rw [State.port_of_ports (held.trans ports), State.startsRound, State.port_modPort_self]

/-! ### A host side that is not UP -/

/-- R164: a round begins while the host side is not UP: no codeword of it has settings. -/
def State.roundMissed (s : State) (p : Lane) : State :=
  (s.startsRound p).each (s.portLanes p) fun t l => t.modLane l fun x => { x with fecHost := none }

theorem State.hostRound_down (down : s.hostUp p = false) (ws : List (List Nat)) :
    ∃ round, s.hostRound p ws = (s.roundMissed p).draw.2.each (s.portLanes p) fun t l => t.sendsOf p false round l := by
  unfold State.hostRound
  extract_lets r₁ ls above r data f
  have shut : above = false := down
  have missed : r.1 = s.roundMissed p := by
    unfold r
    rw [if_neg (by simp [shut])]
    rfl
  have fault : data = false := by
    unfold data
    rw [shut, Bool.false_and]
  have drawn : f.2 = (s.roundMissed p).draw.2 := by
    unfold f
    rw [if_neg (by simp [fault]), missed]
    rfl
  exact ⟨f.1, by rw [drawn, fault]; rfl⟩

/-- A round that a host side misses and no lane sends: the port has counted it, its lanes hold no settings, and no field has moved. -/
structure RoundMissed (p : Lane) (s t : State) : Prop where
  fields : t.f = s.f
  port : (t.port p).txRound = (s.port p).txRound + 1
  lanes : ∀ m ∈ s.portLanes p, (t.lane m).fecHost = none
  frame : Frame [] s t

theorem State.roundMissed_spec (s : State) (p : Lane) : RoundMissed p s (s.roundMissed p) where
  fields := State.each_kept (P := fun t => t.f = s.f) _ (fun _ _ q => q) rfl
  port := State.each_kept (P := fun t => (State.port t p).txRound = (s.port p).txRound + 1) _ (fun _ _ q => q) (by rw [State.startsRound, State.port_modPort_self])
  lanes m own := State.each_establishes (P := fun t => (State.lane t m).fecHost = none) own (fun t => by rw [State.lane_modLane_self]) fun t l q => by
    rw [State.lane_modLane]
    split
    · rfl
    · exact q
  frame := ((Frame.refl [] s).modPort _ _).each fun t l _ => (Frame.refl [] t).modLane l _

theorem RoundMissed.mirror (a : RoundMissed p s t) : RoundMissed p s (t.mirror l) where
  fields := (State.mirror_keeps State.f fun _ _ _ => rfl).trans a.fields
  port := by
    rw [State.mirror_keeps (·.port p) fun _ _ _ => rfl]
    exact a.port
  lanes m own := by
    rw [State.mirror_keeps (·.lane m) fun _ _ _ => rfl]
    exact a.lanes m own
  frame := a.frame.trans State.mirror_frame

/-- R164 and R222: a host side that is not UP takes no codewords. -/
theorem hostReceive_down {ws : List (List Bool)} (port : s.portOf l = some l) (whole : ws.length = (s.portHlanes l).length) (down : s.hostUp l = false)
    (silent : (s.portLanes l).any (fun m => s.sendsData m) = false) : Does (.codewordReceive l (.host ws)) s fun t =>
      (t.port l).txRound = (s.port l).txRound + 1 ∧ (∀ m ∈ s.portLanes l, (t.lane m).fecHost = none) ∧ Frame [] s t := by
  obtain ⟨round, is⟩ := State.hostRound_down down (s.hostWords l ws)
  obtain ⟨fields, counted, lanes, frame⟩ := s.roundMissed_spec l
  have drawn : RoundMissed l s (s.roundMissed l).draw.2 := ⟨fields, counted, lanes, { frame with }⟩
  have sends {t : State} (a : RoundMissed l s t) (m : Lane) (own : m ∈ s.portLanes l) : t.sendsOf l false round m = t.mirror m := by
    have mute : t.sendsData m = false := by
      simp only [State.sendsData, State.isSet, State.get, a.fields]
      exact Bool.eq_false_iff.2 (List.any_eq_false.1 silent m own)
    exact if_pos (by simp [mute])
  obtain ⟨-, port', lanes', frame'⟩ : RoundMissed l s (s.hostRound l (s.hostWords l ws)) := by
    rw [is]
    exact State.each_keeps (fun t m own a => by rw [sends a m own]; exact a.mirror) drawn
  exact ⟨_, if_pos ⟨port, whole⟩, port', lanes', frame'⟩

theorem hostReceive_other {ws : List (List Bool)} (other : s.portOf l ≠ some l ∨ ws.length ≠ (s.portHlanes l).length) :
    exec (.codewordReceive l (.host ws)) s = .next (settle s) :=
  if_neg (not_and_or.2 other)

end
end Sys2Proof.Machine

/-! O17: the loss of codeword lock, the clear of the counters and the latencies. -/

namespace Sys2Proof.Machine

/-! ### Codeword lock -/

/-- Every field but the lock and its change. -/
def Fld.notLock : Fld → Bool
  | .FEC_CW_LOCK | .FEC_CW_LOCK_CHG => false
  | _ => true

theorem Fld.notLock_of_counted (f : Fld) (h : f.counted = true) : f.notLock = true := by
  unfold Fld.notLock
  split
  · contradiction
  · contradiction
  · rfl

/-- The lock and its change are as before. -/
abbrev LockKept (s t : State) : Prop := Retains Fld.notLock (fun _ : LaneS => ()) (fun _ : GroupS => ()) s t

section
variable {s t : State} {l : Lane}

namespace LockKept

variable (a : LockKept s t)
include a

theorem endRamp : LockKept s (t.endRamp l) := (Retains.modLane a l fun _ => rfl).each fun r h => (Retains.refl r).modHalf h _

theorem abandonSlice : LockKept s (t.abandonSlice l) := by
  unfold State.abandonSlice
  exact Retains.ite (((Retains.modGroup a _ fun _ => rfl).put rfl _ _).put rfl _ _) a

theorem cancelSwaps : LockKept s (t.cancelSwaps l) := by
  unfold State.cancelSwaps
  extract_lets cmd r₁ r₂
  have ended : LockKept s r₂ := ((Retains.modLane a _ fun _ => rfl).put rfl _ _).put rfl _ _
  cases cmd with
  | some c => exact Retains.complete Fld.notLock_of_counted ended _ _
  | none => exact ended

theorem setDecoder (n : Nat) : LockKept s (t.setDecoder l n) := by
  unfold State.setDecoder
  exact Retains.ite a ((Retains.put a rfl _ _).put rfl _ _)

/-- A lock that is not held is not lost. -/
theorem setCwLock (lost : s.get .FEC_CW_LOCK l = 0) : LockKept s (t.setCwLock l false) := by
  rwa [State.setCwLock, if_pos (by rw [State.isSet, a.get _ _ rfl, lost]; rfl)]

theorem endData (lost : s.get .FEC_CW_LOCK l = 0) : LockKept s (t.endData l) := by
  unfold State.endData
  extract_lets r₁ r₂ r₃ r₄ r₅ r₆ r₇ r₈
  have ramp : LockKept s r₃ := LockKept.endRamp (Retains.modLane (Retains.put a rfl _ _) _ fun _ => rfl)
  have run : LockKept s r₄ := Retains.ite ((ramp.put rfl _ _).put rfl _ _) ramp
  have locks : LockKept s r₆ := (run.abandonSlice.cancelSwaps.setCwLock lost).setDecoder 3
  have ended : LockKept s r₈ := ((((Retains.put locks rfl _ _).put rfl _ _).put rfl _ _).put rfl _ _).modLane _ fun _ => rfl
  exact Retains.ite ((ended.put rfl _ _).put rfl _ _) a

theorem clearAcq : LockKept s (t.clearAcq l) := by
  unfold State.clearAcq
  exact (((((Retains.put a rfl _ _).put rfl _ _).put rfl _ _).put rfl _ _).put rfl _ _).modLane _ fun _ => rfl

theorem freshLock (lost : s.get .FEC_CW_LOCK l = 0) : LockKept s (t.freshLock l) := by
  unfold State.freshLock
  exact Retains.ite (a.setCwLock lost) a

theorem startAdapt : LockKept s (t.startAdapt l) := by
  unfold State.startAdapt
  exact (Retains.put a rfl _ _).modLane _ fun _ => rfl

theorem acquire (lost : s.get .FEC_CW_LOCK l = 0) : LockKept s (t.acquire l) := by
  have fresh : LockKept s (((t.endData l).clearAcq l).freshLock l) := ((a.endData lost).clearAcq).freshLock lost
  unfold State.acquire State.toBlind State.toLink
  exact Retains.ite ((LockKept.startAdapt (fresh.put rfl _ _)).modLane _ fun _ => rfl)
    ((LockKept.startAdapt (((fresh.put rfl _ _).put rfl _ _).put rfl _ _)).modLane _ fun _ => rfl)

theorem leaveData (lost : s.get .FEC_CW_LOCK l = 0) (why : Nat) : LockKept s (t.leaveData l why) := by
  unfold State.leaveData
  exact Retains.ite (Retains.raise Fld.notLock_of_counted (a.acquire lost) _ _) a

end LockKept

/-- R158: the lock is lost, with one event. -/
def State.losesLock (s : State) (l : Lane) : State :=
  (s.setCwLock l false).raise l.half { sev := 2, code := 0x0205, scope := 4, id := l }

theorem exec_cwLockLoss (lock : s.get .FEC_CW_LOCK l = 1) (loses : s.lmode l ≤ 1 ∨ 64 ≤ (s.lane l).uncorr) :
    exec (.cwLockLoss l) s = .next (settle ((s.losesLock l).leaveData l 3)) := if_pos ⟨by rw [State.isSet, lock]; rfl, loses⟩

theorem State.losesLock_same : SameBut Fld.follows s (s.losesLock l) := (setCwLock_same s l false).trans (raise_same _ _ _)

theorem State.losesLock_state : (s.losesLock l).get .ACQ_STATE l = s.get .ACQ_STATE l := by
  rw [State.losesLock, State.raise_acqState, State.setCwLock]
  split
  · rfl
  · rw [State.flag, State.putBool, State.get_put_of_ne _ (by simp), State.get_put_of_ne _ (by simp)]

theorem State.losesLock_flags (lock : s.get .FEC_CW_LOCK l = 1) :
    (s.losesLock l).get .FEC_CW_LOCK l = 0 ∧ (s.losesLock l).get .FEC_CW_LOCK_CHG l = 1 := by
  have shown : LockKept (s.setCwLock l false) (s.losesLock l) := Retains.raise Fld.notLock_of_counted (Retains.refl _) _ _
  rw [shown.get _ _ rfl, shown.get _ _ rfl, State.setCwLock, if_neg (by rw [State.isSet, lock]; decide), State.flag, State.putBool,
    State.get_put_of_ne _ (by simp), State.get_put_self, State.get_put_self]
  exact ⟨rfl, rfl⟩

theorem cwLockLoss_leaves (lock : s.get .FEC_CW_LOCK l = 1) (loses : s.lmode l ≤ 1 ∨ 64 ≤ (s.lane l).uncorr) (data : s.inData l = true) :
    Does (.cwLockLoss l) s fun t => t.get .FEC_CW_LOCK l = 0 ∧ t.get .FEC_CW_LOCK_CHG l = 1
      ∧ t.get .ACQ_STATE l = (if s.startsBlind l then 5 else 1) ∧ t.get .ACQ_LEAVE_DATA l = 1 ∧ Frame [] s t := by
  obtain ⟨lost, change⟩ := State.losesLock_flags lock
  have kept : LockKept (s.losesLock l) ((s.losesLock l).leaveData l 3) := LockKept.leaveData (Retains.refl _) lost 3
  have held : (s.losesLock l).inData l = true := by rwa [State.inData, State.losesLock_state]
  refine ⟨_, exec_cwLockLoss lock loses, (kept.get _ _ rfl).trans lost, (kept.get _ _ rfl).trans change, ?_, ?_,
    (Frame.refl [] s).ofSame (State.losesLock_same.trans (leaveData_same _ l 3))⟩
  · rw [State.leaveData, if_pos held, State.raise_acqState, State.acquire_state, State.startsBlind_of_ap State.losesLock_same.ap]
  · rw [State.leaveData, if_pos held, State.raise_leaveData, State.acquire_leaves held]

theorem cwLockLoss_stays (lock : s.get .FEC_CW_LOCK l = 1) (plain : s.lmode l ≤ 1) (out : s.inData l = false) :
    Does (.cwLockLoss l) s fun t => t.get .FEC_CW_LOCK l = 0 ∧ t.get .FEC_CW_LOCK_CHG l = 1 ∧ t.get .ACQ_STATE l = s.get .ACQ_STATE l ∧ Frame [] s t := by
  obtain ⟨lost, change⟩ := State.losesLock_flags lock
  have stays : (s.losesLock l).leaveData l 3 = s.losesLock l := if_neg (by rw [State.inData, State.losesLock_state]; simpa [State.inData] using out)
  refine ⟨_, exec_cwLockLoss lock (.inl plain), ?_⟩
  rw [stays]
  exact ⟨lost, change, State.losesLock_state, (Frame.refl [] s).ofSame State.losesLock_same⟩

theorem cwLockLoss_few (coded : 2 ≤ s.lmode l) (few : (s.lane l).uncorr < 64) : exec (.cwLockLoss l) s = .next (settle s) :=
  if_neg fun h => by rcases h.2 with plain | many <;> omega

/-! ### The counters of a lane are cleared -/

theorem fecClearWrite_asks {v : W32} (run : s.running l.half = true) (up : s.answers l.half = true) (bit : v.getLsbD 0 = true) :
    Does (.fecClearWrite l v) s fun t => (t.lane l).clear = true ∧ Frame [] s t := by
  refine ⟨s.modLane l fun x => { x with clear := true }, ?_, by rw [State.lane_modLane_self], (Frame.refl [] s).modLane _ _⟩
  change done (s.hostWrite l.half fun s => s.fecClearWrite l v.toNat) = _
  rw [State.hostWrite, if_pos (by simp [run, up]), State.fecClearWrite, if_pos (by rwa [BitVec.testBit_toNat])]
  rfl

/-- R160: every counter of the lane is zeroed. -/
def State.zeroes (s : State) (l : Lane) : State :=
  let s := s.each [0, 1] fun s d =>
    s.each [Fld.FECS_CW, .FECS_CORR_CW, .FECS_UNCORR_CW, .FECS_SYM_ERR, .FECS_BIT_ERR, .FECS_ERASE_CW] fun s f =>
      s.put f (l.val * 2 + d) 0
  let s := s.each (List.range 17) fun s b => s.put .FEC_HIST (l.val * 17 + b) 0
  (s.put .FEC_PRE_DEC_ERR l 0).put .FEC_PARITY_FAIL l 0

/-- R488: the counts are cleared, and commands whose last lane this is complete. -/
theorem State.clearCounters_eq : s.clearCounters l = ((s.zeroes l).modLane l fun x => { x with clear := false }).each allHalves fun s h =>
    let w := (s.half h).clrWait.map fun p => (p.1, p.2.filter (· != l))
    let s := s.modHalf h fun x => { x with clrWait := w.filter fun p => !p.2.isEmpty }
    s.each (w.filter fun p => p.2.isEmpty) fun s p => s.complete p.1 (p.1.timed (s.now p.1.exe)) := rfl

theorem State.clearCounters_retains :
    Retains Fld.counted id id ((s.zeroes l).modLane l fun x => { x with clear := false }) (s.clearCounters l) := by
  rw [State.clearCounters_eq]
  exact (Retains.refl _).each fun t h => ((Retains.refl t).modHalf h _).each fun r p => Retains.complete (fun _ h => h) (Retains.refl r) _ _

/-- A zero stays where zeroes are written. -/
theorem State.get_put_zero {f : Fld} {i : Nat} (g : Fld) (j : Nat) (zero : s.get f i = 0) : (s.put g j 0).get f i = 0 := by
  rw [State.get_put]
  split
  · exact Nat.zero_mod _
  · exact zero

theorem State.zeroes_word {f : Fld} (word : f ∈ [Fld.FECS_CW, .FECS_CORR_CW, .FECS_UNCORR_CW, .FECS_SYM_ERR, .FECS_BIT_ERR, .FECS_ERASE_CW]) {d : Nat}
    (side : d < 2) : (s.zeroes l).get f (l.val * 2 + d) = 0 := by
  unfold State.zeroes
  extract_lets words hist
  have first : words.get f (l.val * 2 + d) = 0 :=
    State.each_establishes (P := fun t => State.get t f (l.val * 2 + d) = 0) (x := d) (by simp; omega)
      (fun t => State.each_establishes (P := fun t => State.get t f (l.val * 2 + d) = 0) word (fun r => by rw [State.get_put_self, Nat.zero_mod])
        fun r g => State.get_put_zero g _)
      fun t e zero => State.each_kept (P := fun t => State.get t f (l.val * 2 + d) = 0) _ (fun r g => State.get_put_zero g _) zero
  have later : hist.get f (l.val * 2 + d) = 0 :=
    State.each_kept (P := fun t => State.get t f (l.val * 2 + d) = 0) _ (fun r b => State.get_put_zero _ _) first
  exact State.get_put_zero _ _ (State.get_put_zero _ _ later)

theorem State.zeroes_hist {b : Nat} (bin : b < 17) : (s.zeroes l).get .FEC_HIST (l.val * 17 + b) = 0 := by
  unfold State.zeroes
  extract_lets words hist
  have own : hist.get .FEC_HIST (l.val * 17 + b) = 0 :=
    State.each_establishes (P := fun t => State.get t .FEC_HIST (l.val * 17 + b) = 0) (List.mem_range.2 bin)
      (fun r => by rw [State.get_put_self, Nat.zero_mod]) fun r c => State.get_put_zero _ _
  exact State.get_put_zero _ _ (State.get_put_zero _ _ own)

theorem State.zeroes_inner : (s.zeroes l).get .FEC_PRE_DEC_ERR l = 0 ∧ (s.zeroes l).get .FEC_PARITY_FAIL l = 0 := by
  unfold State.zeroes
  extract_lets words hist
  exact ⟨State.get_put_zero _ _ (by rw [State.get_put_self, Nat.zero_mod]), by rw [State.get_put_self, Nat.zero_mod]⟩

theorem fecCounterClear_clears (due : (s.lane l).clear = true) : Does (.fecCounterClear l) s fun t =>
    (∀ d, d < 2 → t.get .FECS_CW (l.val * 2 + d) = 0 ∧ t.get .FECS_CORR_CW (l.val * 2 + d) = 0 ∧ t.get .FECS_UNCORR_CW (l.val * 2 + d) = 0
      ∧ t.get .FECS_SYM_ERR (l.val * 2 + d) = 0 ∧ t.get .FECS_BIT_ERR (l.val * 2 + d) = 0 ∧ t.get .FECS_ERASE_CW (l.val * 2 + d) = 0)
      ∧ (∀ b, b < 17 → t.get .FEC_HIST (l.val * 17 + b) = 0) ∧ t.get .FEC_PRE_DEC_ERR l = 0 ∧ t.get .FEC_PARITY_FAIL l = 0
      ∧ (t.lane l).clear = false := by
  have kept := State.clearCounters_retains (s := s.latchAll) (l := l)
  have zero {f : Fld} {i : Nat} (own : f.counted = false) (z : (s.latchAll.zeroes l).get f i = 0) : (s.latchAll.clearCounters l).get f i = 0 := by
    rw [kept.get f i own, State.modLane_get, z]
  refine ⟨s.latchAll.clearCounters l, if_pos due, fun d side => ⟨zero rfl (State.zeroes_word (by simp) side), zero rfl (State.zeroes_word (by simp) side),
    zero rfl (State.zeroes_word (by simp) side), zero rfl (State.zeroes_word (by simp) side), zero rfl (State.zeroes_word (by simp) side),
    zero rfl (State.zeroes_word (by simp) side)⟩, fun b bin => zero rfl (State.zeroes_hist bin), zero rfl State.zeroes_inner.1,
    zero rfl State.zeroes_inner.2, ?_⟩
  rw [show (s.latchAll.clearCounters l).lane l = _ from kept.lane l, id, State.lane_modLane_self]

/-! ### Latency -/

theorem latencyMeasured_shows {tx rx : BitVec 16} (data : s.inData l = true) (new : s.get .FEC_LAT_VALID l ≠ 1)
    (txOk : s.latencyOk l false tx.toNat = true) (rxOk : s.latencyOk l true rx.toNat = true) (calm : s.fiAny l 6 = none) :
    Does (.latencyMeasured l tx rx) s fun t => t.get .FEC_TX_LAT l = tx.toNat ∧ t.get .FEC_RX_LAT l = rx.toNat ∧ t.get .FEC_LAT_VALID l = 1
      ∧ Frame [(.FEC_TX_LAT, l), (.FEC_RX_LAT, l)] s t := by
  refine ⟨_, if_pos (by simp [data, State.isSet, new, txOk, rxOk, calm]), ?_, ?_, State.get_put_self .., ?_⟩
  · rw [State.get_put_of_ne _ (by simp), State.get_put_of_ne _ (by simp), State.get_put_self]
    exact Nat.mod_eq_of_lt tx.isLt
  · rw [State.get_put_of_ne _ (by simp), State.get_put_self]
    exact Nat.mod_eq_of_lt rx.isLt
  · exact (((Frame.refl _ s).put (.inl (by simp)) _).put (.inl (by simp)) _).put (.inr rfl) _

end
end Sys2Proof.Machine

namespace Sys2Proof

open Machine

/-- Settles O17, clause by clause: what the decoder gives, what is taken from the line and the host and how it counts, the lock, the clear of the
counters and the latencies. -/
theorem codewords : Obligations.Codewords := by
  unfold Obligations.Codewords
  refine ⟨fun fs e w delivered => ?_, fun fs e w erased => ?_, fun fs e w failed => ?_, fun fs e w code => decodeWord_codeword code,
    fun s l side fs off => State.eraseOn_off off,
    fun s l p codes phase port data plain alone empty symbols uncorr => lineReceive_alone port data plain alone empty symbols uncorr,
    fun s l p codes phase port data plain more empty => lineReceive_waits port data plain more empty,
    fun s l p codes phase port data mode symbols uncorr => lineReceive_pair port data mode symbols uncorr,
    fun s l p syms port data mode symbols uncorr => dmtReceive_pair port data mode symbols uncorr,
    fun s l p codes phase port out pam own => lineReceive_outside port out pam own,
    fun s l m ws port whole up own => hostReceive_up port whole up own,
    fun s l ws port whole down silent => hostReceive_down port whole down silent,
    fun s l ws other => hostReceive_other other,
    fun s l lock loses data => cwLockLoss_leaves lock loses data,
    fun s l lock plain out => cwLockLoss_stays lock plain out,
    fun s l coded few => cwLockLoss_few coded few,
    fun s l v run up bit => fecClearWrite_asks run up bit,
    fun s l due => fecCounterClear_clears due,
    fun s l tx rx data new txOk rxOk calm => latencyMeasured_shows data new txOk rxOk calm⟩
  · obtain ⟨code, length, -, near⟩ := rsDecode_some (decodeWord_delivered delivered)
    rw [List.length_nil] at near
    exact ⟨code, by omega, length.trans (List.length_map ..)⟩
  · obtain ⟨on, er, found⟩ := decodeWord_erased erased
    obtain ⟨code, -, near, -⟩ := rsDecode_some found
    exact ⟨on, code, near⟩
  · obtain ⟨stays, none⟩ := decodeWord_uncorrectable failed
    exact ⟨stays, rsDecode_none none⟩

end Sys2Proof

/-! Tables of LM400D that hold one word at each of 540 data tones: in a loading eight bits each, which R189 calls valid. -/

namespace Sys2Proof.Machine

/-- Words in rising order of their keys make a RAM in its canonical form. -/
theorem Ram.wf_map {ts : List Nat} {k v : Nat} (h : ts.Pairwise (· < ·)) (hv : v ≠ 0) : Ram.wf (ts.map fun t => ⟨k + t, v⟩) = true := by
  induction ts with
  | nil => rfl
  | cons t ts ih =>
    obtain ⟨first, rest⟩ := List.pairwise_cons.1 h
    refine Ram.wf_cons.2 ⟨hv, fun d hd => ?_, ih rest⟩
    obtain ⟨u, hu, rfl⟩ := List.mem_map.1 hd
    exact Nat.add_lt_add_left (first u hu) k

theorem Ram.get_map {ts : List Nat} {k v : Nat} (h : ts.Pairwise (· < ·)) (u : Nat) :
    Ram.get (ts.map fun t => ⟨k + t, v⟩) (k + u) = if u ∈ ts then v else 0 := by
  induction ts with
  | nil => rfl
  | cons t ts ih =>
    obtain ⟨first, rest⟩ := List.pairwise_cons.1 h
    have absent : u ≤ t → u ∉ ts := fun le mem => absurd (first u mem) (by omega)
    rw [List.map_cons, Ram.get, ih rest]
    grind

/-- The 540 lowest data tones (R173). -/
def loads (t : Nat) : Bool := isDataTone t && t < 546

/-- A word at each of them, in one table of lane 0. -/
def loadTable (table v : Nat) : Ram := ((List.range 1024).filter loads).map fun t => ⟨table * 1024 + t, v⟩

theorem loads_sorted : ((List.range 1024).filter loads).Pairwise (· < ·) := List.pairwise_lt_range.filter _

theorem loadTable_wf {v : Nat} (table : Nat) (h : v ≠ 0) : Ram.wf (loadTable table v) = true := Ram.wf_map loads_sorted h

theorem loadTable_get (table v t : Nat) : Ram.get (loadTable table v) (table * 1024 + t) = if loads t then v else 0 := by
  have mem : t ∈ (List.range 1024).filter loads ↔ loads t = true := by
    rw [List.mem_filter, List.mem_range]
    exact and_iff_right_of_imp fun h => by simp only [loads, Bool.and_eq_true, decide_eq_true_eq] at h; omega
  rw [loadTable, Ram.get_map loads_sorted]
  simp only [mem]

/-- R189: 540 tones of eight bits at unit gain. -/
theorem loadingValid_loads : loadingValid (fun t => if loads t then 8 else 0) (fun t => if loads t then 512 else 0) = true := by decide +kernel

/-! O19: a table whose RAM lists a word twice. -/

/-- A SWAP_REQ that asks for no change at symbol 1,000. -/
def keepReq : AcqFrame := sentFrame 0 6 0 3 [0, 0, 3, 232, 0, 3, 0, 0]

/-- Lane 0 in DATA of LM400D transmits from copy 1, has begun to receive the request, and its RAM lists word 0 of copy 0 twice. -/
def twiceListed : State :=
  let s := ((State.reset.put .ACQ_STATE 0 3).putApp .PORT_LMODE 0 3).put .DMT_TX_ACT 0 1
  { s.modLane 0 fun x => { x with phase := .body, hdr := headerWord keepReq } with dmt := ⟨0, 1⟩ :: ⟨0, 7⟩ :: loadTable 1 0x8200 }

theorem twiceListed_accepts : Accepts twiceListed 0 keepReq := by decide +kernel

theorem twiceListed_act : twiceListed.get .DMT_TX_ACT (0 : Lane) = 1 := by decide +kernel

theorem twiceListed_word (t : Nat) : twiceListed.dmtWord 0 1 t = if loads t then 0x8200 else 0 := by
  have key : dmtKey 0 1 t = 1 * 1024 + t := by simp [dmtKey]
  rw [← loadTable_get 1, State.dmtWord, key]
  change Ram.get (⟨0, 1⟩ :: ⟨0, 7⟩ :: loadTable 1 0x8200) (1 * 1024 + t) = _
  rw [Ram.get, if_neg (by simp; omega), if_neg (by simp), Ram.get, if_neg (by simp; omega), if_neg (by simp)]

theorem twiceListed_valid : loadingValid (fun t => txBits (twiceListed.dmtWord 0 1 t)) (fun t => txGain (twiceListed.dmtWord 0 1 t)) = true := by
  have bits (t : Nat) : txBits (twiceListed.dmtWord 0 1 t) = if loads t then 8 else 0 := by rw [twiceListed_word]; split <;> rfl
  have gain (t : Nat) : txGain (twiceListed.dmtWord 0 1 t) = if loads t then 512 else 0 := by rw [twiceListed_word]; split <;> rfl
  simp only [bits, gain, loadingValid_loads]

/-- R248: whatever its carrier, a frame that leaves changes only the line. -/
theorem State.sendFrame_line {W : List (Fld × Nat)} {s : State} {l : Lane} (clip : (.DMT_TX_CLIP, l.val) ∈ W) (type arg seq : Nat)
    (payload : List (BitVec 8)) : LineOnly W l s (s.sendFrame l type arg seq payload) := by
  have left := fun fr => (LineOnly.refl (W := W) (l := l) s).emit (.frame l fr)
  unfold State.sendFrame
  dsimp only
  split
  · split
    · exact (left _).sendC3 clip _
    · exact (left _).sendC2 _
  · exact ((((left _).idleFill _).idleFill _).modLane fun _ => by rfl).sendLine _

/-- R195 step 4: bits and gain of a tone in the loading that a request asks for. -/
def State.askedBits (s : State) (l : Lane) (fr : AcqFrame) (t : Nat) : Nat :=
  (((swapEntries fr.payload).find? fun e => e.1 == t).map (·.2.1)).getD (txBits (s.dmtWord l (s.get .DMT_TX_ACT l) t))
def State.askedGain (s : State) (l : Lane) (fr : AcqFrame) (t : Nat) : Nat :=
  (((swapEntries fr.payload).find? fun e => e.1 == t).map (·.2.2)).getD (txGain (s.dmtWord l (s.get .DMT_TX_ACT l) t))

/-- R195 step 4: the request is answered, and the loading that it asks for stands in the other copy. -/
def State.copiesLoading (s : State) (l : Lane) (fr : AcqFrame) : State :=
  ((s.takesFrame l).sendFrame l 7 0 (s.lane l).seq (bytesOf 4 (payloadNum fr.payload 0 4))).each (List.range 1024) fun u t =>
    u.setTx l (1 - s.get .DMT_TX_ACT l) t (s.askedBits l fr t) (s.askedGain l fr t)

/-- R195 step 4: a request for a valid loading, in time, while no swap of the direction is pending. -/
theorem exec_swapReqReceive_ok {s : State} {l : Lane} {fr : AcqFrame} {ago : Nat} (a : Accepts s l fr) (data : s.inData l = true) (dmt : s.lmode l = 3)
    (type : fr.type = 6) (free : (s.lane l).txSwap = none) (valid : loadingValid (s.askedBits l fr) (s.askedGain l fr) = true)
    (time : s.swapInTime l (payloadNum fr.payload 0 4) ago = true) :
    exec (.swapReqReceive l fr ago) s = .next (settle (((s.copiesLoading l fr).modLane l fun x =>
      { x with txSwap := some (payloadNum fr.payload 0 4, (swapEntries fr.payload).map fun e => (e.1, e.2.1)) }).put .DMT_PEND_TX l 1)) := by
  have data' : (s.takesFrame l).inData l = true := State.takesFrame_inData.trans data
  have dmt' : (s.takesFrame l).lmode l = 3 := (State.lmode_of_ap (State.takesFrame_frame (s := s)).ap l).trans dmt
  have act : (s.takesFrame l).get .DMT_TX_ACT l = s.get .DMT_TX_ACT l := State.takesFrame_get (by simp) _
  have time' : (s.takesFrame l).swapInTime l (payloadNum fr.payload 0 4) ago = true := by
    rw [State.swapInTime, State.takesFrame_lane]
    exact time
  have word (c t : Nat) : (s.takesFrame l).dmtWord l c t = s.dmtWord l c t := rfl
  change execSwapReqReceive l fr ago s = _
  unfold execSwapReqReceive
  rw [receives_of_accepts a, endBody_of_accepts a]
  dsimp only
  rw [if_neg (by simp), if_neg (by simp [data', dmt', type])]
  simp only [act, word, State.takesFrame_lane, free, time']
  unfold State.askedBits State.askedGain at valid
  rw [valid]
  rfl

/-- The write of word 0 takes the first of its two cells away, for the word becomes 0. -/
theorem setTx_first {s : State} {m : Ram} (h : s.dmt = ⟨0, 1⟩ :: ⟨0, 7⟩ :: m) : (s.setTx 0 0 0 0 0).dmt = ⟨0, 7⟩ :: m := by
  change s.dmt.set 0 _ = _
  rw [State.dmtWord, h]
  simp [dmtKey, Ram.get, Ram.set]

/-- A write of another word of the copy leaves word 0. -/
theorem setTx_keeps_first {s : State} {t : Nat} (ht : t ≠ 0) (bits gain : Nat) (h : Ram.wf s.dmt = true ∧ Ram.get s.dmt 0 = 7) :
    Ram.wf (s.setTx 0 0 t bits gain).dmt = true ∧ Ram.get (s.setTx 0 0 t bits gain).dmt 0 = 7 := by
  obtain ⟨wf, seven⟩ := h
  refine ⟨Ram.wf_set _ _ wf, (Ram.get_set _ _ _ wf).trans ?_⟩
  rw [if_neg (by simp [dmtKey, ht.symm]), seven]

theorem eachSetTx_twiceListed {s : State} {bits gain : Nat → Nat} (h : s.dmt = twiceListed.dmt) (hb : bits 0 = 0) (hg : gain 0 = 0) :
    Ram.get (s.each (List.range 1024) fun s t => s.setTx 0 0 t (bits t) (gain t)).dmt 0 = 7 := by
  have tones : List.range 1024 = 0 :: (List.range 1023).map Nat.succ := List.range_succ_eq_map
  rw [tones, State.each_cons, hb, hg]
  refine (State.each_keeps (P := fun r => Ram.wf r.dmt = true ∧ Ram.get r.dmt 0 = 7) (fun r t mem p => setTx_keeps_first ?_ _ _ p) ?_).2
  · obtain ⟨k, -, rfl⟩ := List.mem_map.1 mem
    exact Nat.succ_ne_zero k
  · rw [setTx_first h]
    refine ⟨Ram.wf_cons.2 ⟨by decide, fun d hd => ?_, loadTable_wf 1 (by decide)⟩, rfl⟩
    obtain ⟨t, -, rfl⟩ := List.mem_map.1 hd
    simp

/-- The request changes nothing, so it leaves tone 0 without bits and gain. -/
theorem twiceListed_asks : twiceListed.askedBits 0 keepReq 0 = 0 ∧ twiceListed.askedGain 0 keepReq 0 = 0 := by decide +kernel

theorem twiceListed_copies : Ram.get (twiceListed.copiesLoading 0 keepReq).dmt 0 = 7 := by
  have kept : ((twiceListed.takesFrame 0).sendFrame 0 7 0 (twiceListed.lane 0).seq (bytesOf 4 (payloadNum keepReq.payload 0 4))).dmt = twiceListed.dmt :=
    (State.sendFrame_line (List.mem_singleton_self _) _ _ _ _).frame.rams.1.trans State.takesFrame_frame.rams.1
  rw [State.copiesLoading, twiceListed_act]
  exact eachSetTx_twiceListed kept twiceListed_asks.1 twiceListed_asks.2

end Sys2Proof.Machine

namespace Sys2Proof

open Machine

/-- What O19 says of the copy that an acknowledged request writes. -/
theorem gain_of_bitSwaps (h : Obligations.BitSwaps) {s : State} {l : Lane} {fr : AcqFrame} {ago : Nat} (a : Accepts s l fr)
    (data : s.inData l = true) (dmt : s.lmode l = 3) (type : fr.type = 6) (free : (s.lane l).txSwap = none) (act : s.get .DMT_TX_ACT l < 2)
    (valid : loadingValid (s.askedBits l fr) (s.askedGain l fr) = true) (time : s.swapInTime l (payloadNum fr.payload 0 4) ago = true) :
    Does (.swapReqReceive l fr ago) s fun t => ∀ k, k < 1024 → txGain (t.dmtWord l (1 - s.get .DMT_TX_ACT l) k) = s.askedGain l fr k % 4096 := by
  obtain ⟨-, request, -⟩ := h
  refine (request s l fr ago a data dmt type free act).mono ?_
  rintro t ⟨-, copied, -⟩ k hk
  unfold State.askedBits State.askedGain at valid
  exact ((copied (by simp [valid, time])).2.2 k hk).2

/-- Refutes O19: its second clause reads the written copy back without asking that the RAM of the tables is in its canonical form
(`DmtTables` asks it, `s.dmt.wf`; writes keep it, `Ram.wf_set`). In `twiceListed` word 0 of the copy is listed twice; the request leaves tone 0 unloaded, so the write takes only the
first cell away and GAIN of the tone reads 7. -/
theorem not_bitSwaps : ¬ Obligations.BitSwaps := by
  intro h
  have data : twiceListed.inData 0 = true := by decide +kernel
  have dmt : twiceListed.lmode 0 = 3 := by decide +kernel
  have free : (twiceListed.lane 0).txSwap = none := by decide +kernel
  have valid : loadingValid (twiceListed.askedBits 0 keepReq) (twiceListed.askedGain 0 keepReq) = true := twiceListed_valid
  have time : twiceListed.swapInTime 0 (payloadNum keepReq.payload 0 4) 0 = true := by decide +kernel
  obtain ⟨t, same, copied⟩ := exists_same_of_next (exec_swapReqReceive_ok twiceListed_accepts data dmt rfl free valid time)
    (gain_of_bitSwaps h twiceListed_accepts data dmt rfl free (by decide +kernel) valid time)
  have claim := copied 0 (by decide)
  rw [twiceListed_act, twiceListed_asks.2, State.dmtWord, same.rams.1, State.put_dmt, State.modLane_dmt, show dmtKey 0 (1 - 1) 0 = 0 from rfl,
    twiceListed_copies] at claim
  exact absurd claim (by decide)

end Sys2Proof

/-! O20: the training symbols that leave while a LOAD frame is sent may clip (R174, R265). -/

namespace Sys2Proof.Machine

/-! ### Training symbols -/

/-- The data tones below a tone. -/
def dataBelow (t : Nat) : Nat := ((List.range t).filter isDataTone).length

theorem dataBelow_succ (t : Nat) : dataBelow (t + 1) = dataBelow t + if isDataTone t then 1 else 0 := by
  simp only [dataBelow, List.range_succ, List.filter_append, List.length_append, List.filter_cons, List.filter_nil]
  split <;> rfl

/-- R173: the place of a data tone among the data tones. -/
theorem findIdx_dataTones {t : Nat} (h : isDataTone t = true) : dataTones.findIdx? (· == t) = some (dataBelow t) := by
  have lt : t < 1024 := by simp [isDataTone] at h; omega
  have tones : List.range 1024 = List.range t ++ t :: List.range' (t + 1) (1023 - t) := by
    rw [List.range_eq_range', List.range_eq_range', ← List.range'_succ, show 1023 - t + 1 = 1024 - t by omega]
    simpa [show t + (1024 - t) = 1024 by omega] using (List.range'_append (s := 0) (m := t) (n := 1024 - t) (step := 1)).symm
  have absent : ((List.range t).filter isDataTone).findIdx? (· == t) = none := by
    rw [List.findIdx?_eq_none_iff]
    intro u mem
    have := List.mem_range.1 (List.mem_filter.1 mem).1
    simp; omega
  rw [dataTones, tones, List.filter_append, List.filter_cons_of_pos h, List.findIdx?_append, absent, List.findIdx?_cons, beq_self_eq_true]
  simp [dataBelow]

/-- R249: the register after a run of bits runs on. -/
theorem idleBits_add_reg (m n r : Nat) : (idleBits (m + n) r).2 = (idleBits n (idleBits m r).2).2 := by
  induction m generalizing r with
  | zero => rw [Nat.zero_add]; rfl
  | succ m ih => rw [Nat.succ_add]; exact ih _

/-- R265: the point of a data tone, by the register of the generator before its two bits. -/
def trainPoint (r : Nat) : Cx :=
  (sign ((idleBits 2 r).1.getD 0 false) * invRoot2, sign ((idleBits 2 r).1.getD 1 false) * invRoot2)

theorem trainTone_data {t : Nat} (h : isDataTone t = true) (gain : Nat) (ohc : Bool) :
    trainTone gain ohc t = trainPoint (idleBits (2 * dataBelow t) 0x7FFF).2 := by
  obtain ⟨⟨⟨-, -⟩, ohcTone⟩, pilot⟩ : ((0 < t ∧ t < 1024) ∧ t ≠ 40) ∧ t ∉ pilotTones := by simpa [isDataTone] using h
  rw [trainTone, if_neg ohcTone, if_neg (by simpa using pilot), findIdx_dataTones h]
  rfl

/-- What `count` tones from tone `t` on add to sample `n` of a training symbol whose OHC bit is 0; the generator stands at `r`. -/
def trainPart (gain n : Nat) : Nat → Nat → Nat → Rat
  | 0, _, _ => 0
  | count + 1, t, r =>
    if isDataTone t then 2 * (cmul (trainPoint r) (turn (t * n))).1 + trainPart gain n count (t + 1) (idleBits 2 r).2
    else 2 * (cmul (trainTone gain false t) (turn (t * n))).1 + trainPart gain n count (t + 1) r

theorem trainPart_eq (gain n count t : Nat) :
    trainPart gain n count t (idleBits (2 * dataBelow t) 0x7FFF).2
      = ((List.range' t count).map fun u => 2 * (cmul (trainTone gain false u) (turn (u * n))).1).sum := by
  induction count generalizing t with
  | zero => rfl
  | succ count ih =>
    rw [List.range'_succ, List.map_cons, List.sum_cons, ← ih (t + 1), trainPart, dataBelow_succ]
    split
    · next data => rw [trainTone_data data, Nat.mul_add, idleBits_add_reg]
    · rfl

/-- R174: a sample of a training symbol. -/
theorem dmtSample_train (gain n : Nat) : dmtSample (trainTone gain false) n = invRoot2046 * trainPart gain n 1023 1 0x7FFF := by
  have first : (idleBits (2 * dataBelow 1) 0x7FFF).2 = 0x7FFF := rfl
  rw [dmtSample, ← first, trainPart_eq, List.range'_eq_map_range, List.map_map]
  simp only [Function.comp_def, Nat.add_comm 1]

/-- R174: at 40.0 LSB rms sample 2,016 of a training symbol is above the largest DAC code. -/
theorem trainSample_loud : 255 < (128 + ((160 : Nat) : Rat) / 4 * (invRoot2046 * trainPart 512 2016 1023 1 0x7FFF)).floor := by decide +kernel

end Sys2Proof.Machine

namespace Sys2Proof.Machine

/-! ### Clamps of training symbols -/

/-- R174: a sample above the largest DAC code is a clamp. -/
theorem State.dmtCodes_clips {s : State} {l : Lane} {x : Nat → Cx} {n : Nat} (hn : n < 2048) (loud : 255 < s.dmtRaw l (dmtSample x n)) :
    0 < (s.dmtCodes l x).2 := by
  have sample : dmtSample x n ∈ dmtSamples x := List.mem_append_right _ (List.mem_map_of_mem (List.mem_range.2 hn))
  unfold State.dmtCodes
  dsimp only
  exact List.length_pos_of_mem (List.mem_filter.2 ⟨List.mem_map_of_mem sample, by simp [loud]⟩)

theorem trainSymbol_clips {s : State} {l : Lane} (rms : s.app .DMT_RMS l = 160) : 0 < (s.dmtCodes l (trainTone 512 false)).2 := by
  refine State.dmtCodes_clips (n := 2016) (by decide) ?_
  rw [State.dmtRaw, rms, dmtSample_train]
  exact trainSample_loud

/-! ### The carrier runs on -/

section
variable {s : State} {l : Lane}

/-- R174: the codes of a symbol follow from the applied values. -/
theorem State.dmtCodes_of_ap {t : State} (ap : t.ap = s.ap) (x : Nat → Cx) : t.dmtCodes l x = s.dmtCodes l x := by
  have raw : t.dmtRaw l = s.dmtRaw l := funext fun v => by rw [State.dmtRaw, State.app_of_ap ap rfl, State.dmtRaw]
  rw [State.dmtCodes, raw, State.dmtCodes]

/-- R174 and R265: the clamps of training symbols count. -/
theorem State.sendTrainSymbols_clip (bits : List Bool) :
    (s.sendTrainSymbols l bits).get .DMT_TX_CLIP l
      = min (s.get .DMT_TX_CLIP l + (bits.map fun b => (s.dmtCodes l (trainTone (s.app .DMT_OHC_GAIN l) b)).2).sum) (2 ^ 16 - 1) % 2 ^ 16 := by
  have clamps : (fun b : Bool => if b then (s.dmtCodes l (trainTone (s.app .DMT_OHC_GAIN l) true)).2 else (s.dmtCodes l (trainTone (s.app .DMT_OHC_GAIN l) false)).2)
      = fun b => (s.dmtCodes l (trainTone (s.app .DMT_OHC_GAIN l) b)).2 := funext fun b => by cases b <;> rfl
  unfold State.sendTrainSymbols
  dsimp only
  rw [((LineOnly.refl (W := []) (l := l) _).sendLine _).get _ _ (by simp), State.incSat_eq, State.get_put_self, clamps]
  rfl

/-- R265: the training symbol that is due leaves, and its clamps count. -/
theorem State.runC3_clip (due : symbolsAt (s.ticks l.half) - symbolsAt (s.lane l).carrierAt = 1) :
    (s.runC3 l).get .DMT_TX_CLIP l = min (s.get .DMT_TX_CLIP l + (s.dmtCodes l (trainTone (s.app .DMT_OHC_GAIN l) (s.nextOhc l).1)).2) (2 ^ 16 - 1) % 2 ^ 16 := by
  have ran : LineOnly [] l s ((s.ohcBits l 1).2.modLane l fun x => { x with carrierAt := s.ticks l.half }) :=
    ((LineOnly.refl s).ohcBits 1).modLane fun _ => by rfl
  have bits : (s.ohcBits l 1).1 = [(s.nextOhc l).1] := rfl
  unfold State.runC3
  dsimp only
  rw [due, State.sendTrainSymbols_clip, bits, List.map_singleton, List.sum_singleton, ran.get _ _ (by simp), State.dmtCodes_of_ap ran.frame.ap,
    State.app_of_ap ran.frame.ap rfl]

end
end Sys2Proof.Machine

namespace Sys2Proof.Machine

/-! ### A loading that stands as it is first computed -/

/-- R192: bits that sum to 4,320 are not touched. -/
theorem balance_of_total {cap n : Nat} {ts : List ToneBits} (h : totalBits ts = 4320) : balance cap n ts = ts := by
  cases n with
  | zero => rfl
  | succ n => rw [balance]; simp [h]

/-- R192: M of tones that are all loaded alike or not at all. -/
theorem commonRatio_alike {ts : List ToneBits} {b : Nat} {x : Int} (some : 0 < (ts.filter fun y => 0 < y.b).length)
    (alike : ∀ y ∈ ts, 0 < y.b → y.b = b ∧ y.s = x) : commonRatio ts = 1 / tenPow (sReq b - x) := by
  have terms : (ts.filter fun y => 0 < y.b).map (fun y => tenPow (sReq y.b - y.s))
      = List.replicate (ts.filter fun y => 0 < y.b).length (tenPow (sReq b - x)) := by
    refine List.eq_replicate_iff.2 ⟨List.length_map .., fun v hv => ?_⟩
    obtain ⟨y, mem, rfl⟩ := List.mem_map.1 hv
    obtain ⟨mem, loaded⟩ := List.mem_filter.1 mem
    obtain ⟨rfl, rfl⟩ := alike y mem (by simpa using loaded)
    rfl
  have count : ((ts.filter fun y => 0 < y.b).length : Rat) ≠ 0 := by exact_mod_cast some.ne'
  rw [commonRatio, terms, List.sum_replicate, nsmul_eq_mul, div_mul_eq_div_div, div_self count]

/-- A loaded tone has an SNR of 102.3 dB and eight bits. -/
def loadTone (t : Nat) : ToneBits := if loads t then ⟨t, 1023, 8⟩ else ⟨t, 0, 0⟩

theorem totalBits_loads : totalBits (dataTones.map loadTone) = 4320 := by decide +kernel

theorem commonRatio_loads : commonRatio (dataTones.map loadTone) = 1 / tenPow (-744) := by
  refine commonRatio_alike (b := 8) (x := 1023) (by decide +kernel) fun y mem loaded => ?_
  obtain ⟨t, -, rfl⟩ := List.mem_map.1 mem
  unfold loadTone at loaded ⊢
  split at loaded <;> simp_all

/-- R192 and R193: its margin is far above what the settings of reset ask for. -/
theorem ratio_loads : ¬ commonRatio (dataTones.map loadTone) < tenPow 20 := by
  have powers : 0 < tenPow (-744) ∧ tenPow 20 * tenPow (-744) ≤ 1 := by decide +kernel
  rw [commonRatio_loads, not_lt, le_div_iff₀ powers.1]
  exact powers.2

/-- R192 and R193: with the settings of reset, a window that measured 102.3 dB on the tones of `loads` and nothing on the others gives a loading that is
not rejected. -/
theorem loadingBad_loads {s : State} {l : Lane} (snr : ∀ t, s.unitSnr l t = if loads t then 1023 else 0) (margin : s.app .DMT_MARGIN l = 30)
    (delta : s.app .DMT_SWAP_DELTA l = 10) (cap : s.app .DMT_BITS_CAP l = 8) : s.loadingBad l (s.loading l false) = false := by
  have first : firstBits 8 30 1023 = 8 ∧ firstBits 8 30 0 = 0 := by decide +kernel
  have tones : (dataTones.map fun t => (⟨t, s.unitSnr l t, firstBits 8 30 (s.unitSnr l t)⟩ : ToneBits)) = dataTones.map loadTone := by
    refine List.map_congr_left fun t _ => ?_
    rw [snr, loadTone]
    split <;> simp [first]
  have ratio : (s.loading l false).ratio = commonRatio (dataTones.map loadTone) := by
    rw [State.loading, computeLoading, margin, cap]
    dsimp only
    rw [show ((30 : Nat) : Int) = 30 from rfl, tones, balance_of_total totalBits_loads]
  rw [State.loadingBad, ratio, margin, delta]
  exact decide_eq_false ratio_loads

end Sys2Proof.Machine

namespace Sys2Proof.Machine

/-! ### A computed loading is sent -/

/-- The fields that a computed loading changes before its LOAD frame leaves. -/
def Fld.ofLoading (f : Fld) : Bool := f ∈ [.DMT_LOADED, .DMT_MIN_MARGIN, .DMT_MIN_TONE, .DMT_MEAN_MARGIN, .EQ_SNR, .ACQ_SUBSTATE]

/-- The carrier of a lane. -/
def LaneS.carrier (x : LaneS) : Nat × Nat × List (Option Bool) := (x.carrierAt, x.idle, x.ohc)

section
variable {s : State} {l : Lane}

/-- R265 and R266: a loading is written to the copy in use, SUBSTATE is 3, and the first attempt begins. -/
def State.takesLoading (s : State) (l : Lane) (words : List (Nat × Nat × Nat)) : State :=
  (((s.each words fun u e => u.setRx l (s.get .DMT_RX_ACT l) e.1 e.2.1 e.2.2).summarise l).modLane l fun y =>
    { y with seq := (y.seq + 1) % 256, loadTries := 1 }).put .ACQ_SUBSTATE l 3

theorem State.summarise_retains {f : LaneS → LaneS} {g : GroupS → GroupS} : Retains Fld.ofLoading f g s (s.summarise l) := by
  have loaded : Retains Fld.ofLoading f g s (s.put .DMT_LOADED l
      (dataTones.filter fun t => 0 < rxBits (s.dmtWord l (s.get .DMT_RX_ACT l) t)).length) := (Retains.refl s).put rfl _ _
  unfold State.summarise
  dsimp only
  split
  · exact loaded
  · exact (((loaded.put rfl _ _).put rfl _ _).put rfl _ _).put rfl _ _

theorem State.takesLoading_retains (words : List (Nat × Nat × Nat)) : Retains Fld.ofLoading LaneS.carrier id s (s.takesLoading l words) := by
  have written : Retains Fld.ofLoading id id s (s.each words fun u e => u.setRx l (s.get .DMT_RX_ACT l) e.1 e.2.1 e.2.2) :=
    (Retains.refl s).each fun t e => (Retains.refl t).setDmt _ _ _ _
  have shown : Retains Fld.ofLoading LaneS.carrier id s ((s.each words fun u e => u.setRx l (s.get .DMT_RX_ACT l) e.1 e.2.1 e.2.2).summarise l) :=
    (written.trans State.summarise_retains).weaken fun _ h => h
  unfold State.takesLoading
  exact (shown.modLane l fun _ => by rfl).put rfl _ _

theorem State.summarise_halves : (s.summarise l).halves = s.halves := by
  unfold State.summarise
  dsimp only
  split <;> simp only [State.putS_eq, State.put_halves]

theorem State.takesLoading_halves (words : List (Nat × Nat × Nat)) : (s.takesLoading l words).halves = s.halves := by
  unfold State.takesLoading
  rw [State.put_halves, State.modLane_halves, State.summarise_halves]
  exact State.each_keeps (P := fun r => r.halves = s.halves) (fun _ _ _ h => h) rfl

/-- R192, R193 and R265: the loading that SUBSTATE 2 waits for is not rejected. -/
theorem exec_loadingComputed_sends (dmt : s.lmode l = 3) (train : s.get .ACQ_STATE l = 2) (sub : s.get .ACQ_SUBSTATE l = 2)
    (window : (s.lane l).snrDone = true) (good : s.loadingBad l (s.loading l false) = false) :
    exec (.loadingComputed l) s = .next (settle ((s.takesLoading l (s.loading l false).words).sendLoad l)) := by
  change execLoadingComputed l s = _
  unfold execLoadingComputed
  rw [if_neg (not_not.2 dmt), if_pos ⟨train, sub, window⟩]
  dsimp only
  rw [if_neg (by simp [good])]
  rfl

/-- R175: the next bit on C3 follows from the carrier. -/
theorem State.nextOhc_of_carrier {t : State} (same : (t.lane l).carrier = (s.lane l).carrier) : (t.nextOhc l).1 = (s.nextOhc l).1 := by
  have next (r : State) : (r.nextOhc l).1 = ((r.lane l).carrier.2.2.headD none).getD ((idleBits 1 (r.lane l).carrier.2.1).1.headD false) := rfl
  rw [next, next, same]

/-- R265 and R266: in TRAIN the training symbol that is due leaves before a frame takes its place on C3. -/
theorem State.sendFrame_clip {t : State} (kept : Retains Fld.ofLoading LaneS.carrier id s t) (clock : t.halves = s.halves) (dmt : s.lmode l = 3)
    (train : s.get .ACQ_STATE l = 2) (early : s.get .ACQ_TX_DATA l ≠ 1) (due : symbolsAt (s.ticks l.half) - symbolsAt (s.lane l).carrierAt = 1)
    (type arg seq : Nat) (payload : List (BitVec 8)) :
    (t.sendFrame l type arg seq payload).get .DMT_TX_CLIP l
      = min (s.get .DMT_TX_CLIP l + (s.dmtCodes l (trainTone (s.app .DMT_OHC_GAIN l) (s.nextOhc l).1)).2) (2 ^ 16 - 1) % 2 ^ 16 := by
  have train' : t.get .ACQ_STATE l = 2 := (kept.get _ _ rfl).trans train
  have early' : ¬ t.isSet .ACQ_TX_DATA l = true := by
    rw [State.isSet, kept.get _ _ rfl]
    simpa using early
  have due' : symbolsAt (t.ticks l.half) - symbolsAt (t.lane l).carrierAt = 1 := by
    rw [show (t.lane l).carrierAt = (s.lane l).carrierAt from congrArg Prod.fst (kept.lane l), State.ticks, State.half, clock]
    exact due
  rw [State.sendFrame_train train', if_pos ((State.lmode_of_ap kept.ap l).trans dmt), State.sendC3, if_pos ⟨train', early'⟩, State.modLane_get,
    State.runC3_clip (s := t.emit _) due', State.emit_get, State.emit_app, kept.get _ _ rfl, State.app_of_ap kept.ap rfl,
    State.dmtCodes_of_ap (s := s) (t := t.emit _) kept.ap, State.nextOhc_of_carrier (s := s) (t := t.emit _) (kept.lane l)]

/-- R265 and R266: a computed loading is sent: the clamps of the training symbol that is due count. -/
theorem State.sendLoad_clip {t : State} (kept : Retains Fld.ofLoading LaneS.carrier id s t) (clock : t.halves = s.halves) (dmt : s.lmode l = 3)
    (train : s.get .ACQ_STATE l = 2) (early : s.get .ACQ_TX_DATA l ≠ 1) (due : symbolsAt (s.ticks l.half) - symbolsAt (s.lane l).carrierAt = 1) :
    (t.sendLoad l).get .DMT_TX_CLIP l
      = min (s.get .DMT_TX_CLIP l + (s.dmtCodes l (trainTone (s.app .DMT_OHC_GAIN l) (s.nextOhc l).1)).2) (2 ^ 16 - 1) % 2 ^ 16 :=
  State.sendFrame_clip (t := t.modLane l fun x => { x with clk.loadAt := t.ticks l.half }) (kept.modLane l fun _ => by rfl) clock dmt train early due _ _ _ _

end

/-! ### A lane whose training symbols clip -/

/-- Lane 0 in TRAIN of LM400D: RMS is 40.0 LSB, a window has measured 102.3 dB on the tones of `loads`, and one training symbol is due. -/
def loudLane : State :=
  let s := ((((State.reset.put .ACQ_STATE 0 2).put .ACQ_SUBSTATE 0 2).putApp .PORT_LMODE 0 3).putApp .DMT_RMS 0 160).modHalf 0 fun y => { y with ticks := 3 }
  { s.modLane 0 fun x => { x with snrDone := true } with dmt := loadTable 2 0x83FF }

theorem loudLane_dmt : loudLane.dmt = loadTable 2 0x83FF := by simp only [loudLane]

theorem loudLane_snr (t : Nat) : loudLane.unitSnr 0 t = if loads t then 1023 else 0 := by
  have word : loudLane.dmtWord 0 2 t = if loads t then 0x83FF else 0 := by
    rw [State.dmtWord, loudLane_dmt, show dmtKey 0 2 t = 2 * 1024 + t by simp [dmtKey], loadTable_get]
  have train : loudLane.inData 0 = false := by decide +kernel
  have unit : dbTenths (512 * 512) (512 * 512) = 0 := by decide +kernel
  rw [State.unitSnr, word, train]
  split <;> simp [unit]

theorem loudLane_good : loudLane.loadingBad 0 (loudLane.loading 0 false) = false :=
  loadingBad_loads loudLane_snr (by decide +kernel) (by decide +kernel) (by decide +kernel)

theorem loudLane_clips : 0 < ((loudLane.takesLoading 0 (loudLane.loading 0 false).words).sendLoad 0).get .DMT_TX_CLIP (0 : Lane) := by
  have ohc : (loudLane.nextOhc 0).1 = false := by decide +kernel
  have gain : loudLane.app .DMT_OHC_GAIN (0 : Lane) = 512 := by decide +kernel
  have clamps : 0 < (loudLane.dmtCodes 0 (trainTone 512 false)).2 := trainSymbol_clips (by decide +kernel)
  rw [State.sendLoad_clip (State.takesLoading_retains _) (State.takesLoading_halves _) (by decide +kernel) (by decide +kernel) (by decide +kernel)
    (by decide +kernel), ohc, gain]
  omega

end Sys2Proof.Machine

namespace Sys2Proof

open Machine

/-- Refutes O20: its sixth clause keeps every register field but those of the loading when a computed loading is sent; but the LOAD frame goes out on C3,
whose training symbols have to leave up to now, and their clamps count in TX_CLIP (R174, R265). In `loudLane` RMS is the largest of its valid range, and
sample 2,016 of the symbol that is due is above the largest DAC code. -/
theorem not_dmtTables : ¬ Obligations.DmtTables := by
  rintro ⟨-, -, -, -, -, loading, -⟩
  have dmt : loudLane.lmode 0 = 3 := by decide +kernel
  have train : loudLane.get .ACQ_STATE (0 : Lane) = 2 := by decide +kernel
  have sub : loudLane.get .ACQ_SUBSTATE (0 : Lane) = 2 := by decide +kernel
  have window : (loudLane.lane 0).snrDone = true := by decide +kernel
  obtain ⟨t, same, -, -, kept⟩ := exists_same_of_next (exec_loadingComputed_sends dmt train sub window loudLane_good) (loading loudLane 0 dmt train sub window)
  have clips := loudLane_clips
  rw [← same.get .DMT_TX_CLIP _ rfl, kept .DMT_TX_CLIP _ (by decide) rfl] at clips
  exact absurd clips (by decide +kernel)

end Sys2Proof

/-! O23: the phases of a reception. -/

namespace Sys2Proof.Machine

/-- R257: the reception of a lane takes a preamble. -/
def State.takesPreamble (s : State) (l : Lane) (c : Bool) (xs : List Int) (q : Nat) : State :=
  s.modLane l fun x => { x with phase := .header, rxC3 := c, mc := corrMetric c xs, level := preambleLevel c xs q }

/-- R257: the reception of a lane returns to SEARCH. -/
def State.searches (s : State) (l : Lane) : State := s.modLane l fun x => { x with phase := .search }

section
variable {s : State} {l : Lane}

theorem State.searches_lane : (s.searches l).lane l = { s.lane l with phase := .search } := State.lane_modLane_self ..

/-- Where a reception ends in SEARCH, a counter of what ended it counts. -/
theorem State.searches_counts (f : Fld) : (((s.searches l).incSat f l).lane l).phase = .search
    ∧ ((s.searches l).incSat f l).get f l = min (s.get f l + 1) (2 ^ f.width - 1) ∧ Frame [(f, l.val)] s ((s.searches l).incSat f l) := by
  refine ⟨?_, State.incSat_get f l 1, ((Frame.refl _ s).modLane _ _).incSat (.inl (by simp)) _⟩
  rw [State.incSat_eq, State.put_lane, State.searches_lane]

/-! ### Preambles -/

section
variable {c : Bool} {xs : List Int} {q : Nat}

theorem State.takesPreamble_lane : (s.takesPreamble l c xs q).lane l =
    { s.lane l with phase := .header, rxC3 := c, mc := corrMetric c xs, level := preambleLevel c xs q } := State.lane_modLane_self ..

theorem State.takesPreamble_frame (W : List (Fld × Nat)) : Frame W s (s.takesPreamble l c xs q) := (Frame.refl W s).modLane _ _

/-- R257: what SEARCH and HEADER make of bit values on which the correlator fires; in BODY they are ignored. -/
def State.hearsPreamble (s : State) (l : Lane) (c : Bool) (xs : List Int) (q : Nat) : State :=
  match (s.lane l).phase with
  | .search => s.takesPreamble l c xs q
  | .header => if threeDbAbove (corrMetric c xs) (s.lane l).mc then (s.takesPreamble l c xs q).incSat .ACQ_RESTART l else s
  | .body => s

/-- R257: the lane listens to the carrier, its search is not stopped, and the correlator fires. -/
def State.detects (s : State) (l : Lane) (c : Bool) (xs : List Int) : Bool :=
  s.receives l && !(s.lane l).stopped && s.listens l c && s.fires l xs

theorem exec_preambleDetect : exec (.preambleDetect l ⟨c, xs, q⟩) s =
    .next (settle (if s.detects l c xs then s.hearsPreamble l c xs q else s)) := by
  have cond : (!s.receives l || (s.lane l).stopped || !s.listens l c || !s.fires l xs) = !s.detects l c xs := by simp [State.detects]
  change (if (!s.receives l || (s.lane l).stopped || !s.listens l c || !s.fires l xs) = true then done s else
    match (s.lane l).phase with
    | .search => done (s.takesPreamble l c xs q)
    | .header => if threeDbAbove (corrMetric c xs) (s.lane l).mc = true then done ((s.takesPreamble l c xs q).incSat .ACQ_RESTART l) else done s
    | .body => done s) = .next (settle _)
  rw [cond, State.hearsPreamble]
  cases s.detects l c xs <;> simp only [Bool.not_true, Bool.not_false, Bool.false_eq_true, if_true, if_false]
  · rfl
  · split
    · rfl
    · split <;> rfl
    · rfl

theorem preambleDetect_ignored (h : s.fires l xs = false ∨ s.listens l c = false ∨ (s.lane l).stopped = true ∨ (s.lane l).phase = .body) :
    exec (.preambleDetect l ⟨c, xs, q⟩) s = .next (settle s) := by
  rw [exec_preambleDetect]
  split
  · next detects =>
    have body : (s.lane l).phase = .body := by simp_all [State.detects]
    rw [State.hearsPreamble, body]
  · rfl

variable (on : s.get .ACQ_STATE l ≠ 0) (runs : (s.lane l).stopped = false) (listens : s.listens l c = true) (fires : s.fires l xs = true)
include on runs listens fires

theorem State.detects_true : s.detects l c xs = true := by simp [State.detects, State.receives, acqIdle, on, runs, listens, fires]

theorem preambleDetect_search (search : (s.lane l).phase = .search) : Does (.preambleDetect l ⟨c, xs, q⟩) s fun t =>
    (t.lane l).phase = .header ∧ (t.lane l).rxC3 = c ∧ (t.lane l).mc = corrMetric c xs ∧ (t.lane l).level = preambleLevel c xs q ∧ Frame [] s t := by
  refine ⟨s.takesPreamble l c xs q, ?_, ?_⟩
  · rw [exec_preambleDetect, if_pos (State.detects_true on runs listens fires), State.hearsPreamble, search]
  · beta_reduce
    rw [State.takesPreamble_lane]
    exact ⟨rfl, rfl, rfl, rfl, State.takesPreamble_frame []⟩

theorem preambleDetect_restart (header : (s.lane l).phase = .header) (stronger : threeDbAbove (corrMetric c xs) (s.lane l).mc = true) :
    Does (.preambleDetect l ⟨c, xs, q⟩) s fun t =>
      (t.lane l).phase = .header ∧ (t.lane l).mc = corrMetric c xs ∧ (t.lane l).level = preambleLevel c xs q
        ∧ t.get .ACQ_RESTART l = min (s.get .ACQ_RESTART l + 1) (2 ^ Fld.width .ACQ_RESTART - 1) ∧ Frame [(.ACQ_RESTART, l.val)] s t := by
  refine ⟨(s.takesPreamble l c xs q).incSat .ACQ_RESTART l, ?_, ?_⟩
  · rw [exec_preambleDetect, if_pos (State.detects_true on runs listens fires), State.hearsPreamble, header]
    exact congrArg _ (congrArg settle (if_pos stronger))
  · beta_reduce
    rw [State.incSat_get, State.incSat_eq, State.put_lane, State.takesPreamble_lane]
    exact ⟨rfl, rfl, rfl, rfl, (State.takesPreamble_frame _).put (.inl (by simp)) _⟩

end

/-! ### Headers -/

section
variable {y : W32} {h : BitVec 64} (header : (s.lane l).phase = .header)
include header

/-- R252 and R257: the sync word, the header and its length decide. -/
theorem exec_headerReceive : exec (.headerReceive l y h) s = .next (settle
    (if !syncOk y then (s.searches l).incSat .ACQ_FALSE_DET l
      else if !headerOk h then (s.searches l).incSat .ACQ_HDR_FAIL l
      else if s.tooLong l (h.toNat / 2 ^ 56) (h.toNat / 2 ^ 16 % 4096) then s.searches l
      else s.modLane l fun x => { x with phase := .body, hdr := h.toNat })) := by
  change execHeaderReceive l y h s = _
  unfold execHeaderReceive
  rw [if_neg (not_not.2 header)]
  dsimp only
  split
  · rfl
  · split
    · rfl
    · split <;> rfl

theorem headerReceive_body (sync : syncOk y = true) (good : headerOk h = true) (fits : s.tooLong l (h.toNat / 2 ^ 56) (h.toNat / 2 ^ 16 % 4096) = false) :
    Does (.headerReceive l y h) s fun t => (t.lane l).phase = .body ∧ (t.lane l).hdr = h.toNat ∧ Frame [] s t := by
  refine ⟨s.modLane l fun x => { x with phase := .body, hdr := h.toNat }, ?_, ?_⟩
  · rw [exec_headerReceive header, if_neg (by simp [sync]), if_neg (by simp [good]), if_neg (ne_true_of_eq_false fits)]
  · beta_reduce
    rw [State.lane_modLane_self]
    exact ⟨rfl, rfl, (Frame.refl [] s).modLane _ _⟩

theorem headerReceive_falseDetection (sync : syncOk y = false) : Does (.headerReceive l y h) s fun t =>
    (t.lane l).phase = .search ∧ t.get .ACQ_FALSE_DET l = min (s.get .ACQ_FALSE_DET l + 1) (2 ^ Fld.width .ACQ_FALSE_DET - 1)
      ∧ Frame [(.ACQ_FALSE_DET, l.val)] s t :=
  ⟨_, by rw [exec_headerReceive header, if_pos (by simp [sync])], State.searches_counts _⟩

theorem headerReceive_badHeader (sync : syncOk y = true) (bad : headerOk h = false) : Does (.headerReceive l y h) s fun t =>
    (t.lane l).phase = .search ∧ t.get .ACQ_HDR_FAIL l = min (s.get .ACQ_HDR_FAIL l + 1) (2 ^ Fld.width .ACQ_HDR_FAIL - 1)
      ∧ Frame [(.ACQ_HDR_FAIL, l.val)] s t :=
  ⟨_, by rw [exec_headerReceive header, if_neg (by simp [sync]), if_pos (by simp [bad])], State.searches_counts _⟩

end

/-! ### The level of a reception -/

/-- R258: the reception is aborted; on C1 and C2 the search waits. -/
def State.abortsReception (s : State) (l : Lane) : State :=
  (s.modLane l fun x => { x with phase := .search, stopped := !(s.lane l).rxC3 }).incSat .ACQ_PSTEP_ABORT l

theorem receptionLevelAbort_aborts {b : List Int} (receives : (s.lane l).phase ≠ .search)
    (steps : levelStep (blockLevel (s.lane l).rxC3 b) (s.lane l).level = true) : Does (.receptionLevelAbort l b) s fun t =>
      (t.lane l).phase = .search ∧ (t.lane l).stopped = !(s.lane l).rxC3
        ∧ t.get .ACQ_PSTEP_ABORT l = min (s.get .ACQ_PSTEP_ABORT l + 1) (2 ^ Fld.width .ACQ_PSTEP_ABORT - 1)
        ∧ Frame [(.ACQ_PSTEP_ABORT, l.val)] s t := by
  refine ⟨s.abortsReception l, if_neg (by simp [receives, steps]), ?_⟩
  beta_reduce
  rw [State.abortsReception, State.incSat_get, State.incSat_eq, State.put_lane, State.lane_modLane_self]
  exact ⟨rfl, rfl, rfl, ((Frame.refl _ s).modLane _ _).put (.inl (by simp)) _⟩

theorem receptionLevelAbort_level {b : List Int} (steady : levelStep (blockLevel (s.lane l).rxC3 b) (s.lane l).level = false) :
    exec (.receptionLevelAbort l b) s = .next (settle s) := if_pos (.inr (by simp [steady]))

theorem searchResume_resumes : Does (.searchResume l) s fun t =>
    (t.lane l).stopped = false ∧ (t.lane l).phase = (s.lane l).phase ∧ Frame [] s t := by
  refine ⟨s.modLane l fun x => { x with stopped := false }, rfl, ?_⟩
  beta_reduce
  rw [State.lane_modLane_self]
  exact ⟨rfl, rfl, (Frame.refl [] s).modLane _ _⟩

/-! ### Frames that no list names -/

section
variable {fr : AcqFrame}

theorem exec_unlistedFrameReceive : exec (.unlistedFrameReceive l fr) s =
    .next (settle (if s.receives l && s.unlisted l fr.type.toNat then (s.endBody l fr).1 else s)) := by
  change execUnlistedFrameReceive l fr s = _
  unfold execUnlistedFrameReceive
  split <;> rfl

theorem unlistedFrameReceive_discards (a : Accepts s l fr) (unlisted : s.unlisted l fr.type.toNat = true) : Does (.unlistedFrameReceive l fr) s fun t =>
    (t.lane l).phase = .search ∧ t.get .ACQ_FRAME_OK l = (s.get .ACQ_FRAME_OK l + 1) % 2 ^ Fld.width .ACQ_FRAME_OK
      ∧ Frame [(.ACQ_FRAME_OK, l.val)] s t := by
  refine ⟨s.takesFrame l, ?_, by rw [State.takesFrame_lane], State.get_put_self .., State.takesFrame_frame⟩
  rw [exec_unlistedFrameReceive, if_pos (by simp [State.receives, acqIdle, a.1, unlisted]), endBody_of_accepts a]

theorem unlistedFrameReceive_badCrc (on : s.get .ACQ_STATE l ≠ 0) (body : s.inBody l fr = true) (unlisted : s.unlisted l fr.type.toNat = true)
    (bad : fr.crc.toNat ≠ frameCrc fr) : Does (.unlistedFrameReceive l fr) s fun t =>
      (t.lane l).phase = .search ∧ t.get .ACQ_CRC_FAIL l = min (s.get .ACQ_CRC_FAIL l + 1) (2 ^ Fld.width .ACQ_CRC_FAIL - 1)
        ∧ Frame [(.ACQ_CRC_FAIL, l.val)] s t := by
  have ends : s.endBody l fr = ((s.searches l).incSat .ACQ_CRC_FAIL l, false) := by
    unfold State.endBody
    exact (if_neg (by simp [body])).trans (if_pos bad)
  exact ⟨_, by rw [exec_unlistedFrameReceive, if_pos (by simp [State.receives, acqIdle, on, unlisted]), ends], State.searches_counts _⟩

theorem unlistedFrameReceive_outside (out : (s.lane l).phase ≠ .body) : exec (.unlistedFrameReceive l fr) s = .next (settle s) := by
  have stays : (s.endBody l fr).1 = s := congrArg Prod.fst (if_pos (by simp [State.inBody, out]))
  rw [exec_unlistedFrameReceive, stays, ite_self]

end
end
end Sys2Proof.Machine

namespace Sys2Proof

open Machine

/-- Settles O23: the preamble, the header, the level and the frame of no list, clause by clause. -/
theorem reception : Obligations.Reception := by
  unfold Obligations.Reception
  exact ⟨fun s l c xs q => preambleDetect_search, fun s l c xs q => preambleDetect_restart, fun s l c xs q => preambleDetect_ignored,
    fun s l y h => headerReceive_body, fun s l y h => headerReceive_falseDetection, fun s l y h => headerReceive_badHeader,
    fun s l b => receptionLevelAbort_aborts, fun s l b => receptionLevelAbort_level, fun s l => searchResume_resumes,
    fun s l fr => unlistedFrameReceive_discards, fun s l fr => unlistedFrameReceive_badCrc, fun s l fr => unlistedFrameReceive_outside⟩

end Sys2Proof

/-! O24: CAP frames in LINK. -/

namespace Sys2Proof.Machine

/-! ### CRC-32 -/

theorem crcBits_lt {w poly init : Nat} (hpoly : poly < 2 ^ w) (hinit : init < 2 ^ w) (bs : List Bool) : crcBits w poly init bs < 2 ^ w := by
  unfold crcBits
  induction bs generalizing init with
  | nil => exact hinit
  | cons b bs ih =>
    refine ih (init := if (init.testBit (w - 1) != b) = true then init * 2 % 2 ^ w ^^^ poly else init * 2 % 2 ^ w) ?_
    have shifted : init * 2 % 2 ^ w < 2 ^ w := Nat.mod_lt _ (Nat.two_pow_pos w)
    split
    · exact Nat.xor_lt_two_pow shifted hpoly
    · exact shifted

theorem frameCrc_lt (fr : AcqFrame) : frameCrc fr < 2 ^ 32 :=
  Nat.xor_lt_two_pow (crcBits_lt (by decide) (by decide) _) (by decide)

/-- R251: the CRC-32 of a frame does not cover itself. -/
theorem sentFrame_crc (l : Lane) (type arg seq : Nat) (payload : List (BitVec 8)) :
    (sentFrame l type arg seq payload).crc.toNat = frameCrc (sentFrame l type arg seq payload) := Nat.mod_eq_of_lt (frameCrc_lt _)

/-! ### C1 -/

section
variable {W : List (Fld × Nat)} {P : AcqFrame → Prop} {s t : State} {l : Lane}

theorem LineOnly.sendC1 (a : LineOnly W l s t) (bs : List Bool) : LineOnly W l s (t.sendC1 l bs) := by
  unfold State.sendC1
  exact (((a.idleFill _).idleFill _).modLane fun _ => by rfl).sendLine _

theorem LineOnly.runC1 (a : LineOnly W l s t) : LineOnly W l s (t.runC1 l) := by
  unfold State.runC1
  exact ((a.idleFill _).modLane fun _ => by rfl).sendLine _

/-- R248: outside TRAIN and DATA a frame goes out on C1. -/
theorem State.sendFrame_onC1 (link : s.get .ACQ_STATE l = 1) {type arg seq : Nat} {payload : List (BitVec 8)}
    (p : P (sentFrame l type arg seq payload)) : Sends W l P s (s.sendFrame l type arg seq payload) := by
  have left : Sends W l P s (s.emit (.frame l (sentFrame l type arg seq payload))) := ⟨(LineOnly.refl s).emit _, _, [], [], rfl, p⟩
  have c1 : s.sendFrame l type arg seq payload =
      (s.emit (.frame l (sentFrame l type arg seq payload))).sendC1 l (frameBits (sentFrame l type arg seq payload)) :=
    if_neg (by rw [State.emit_get, link]; decide)
  rw [c1]
  exact left.andLine ((LineOnly.refl _).sendC1 _)

theorem capFrameSend_sends (link : s.get .ACQ_STATE l = 1) (serves : s.kndOut l.acqKnd = false) : Does (.capFrameSend l) s fun t =>
    Sent s t l (fun g => g.type = 1 ∧ g.ver = 1 ∧ g.payload = s.capPayload l ∧ g.crc.toNat = frameCrc g)
      ∧ (t.lane l).caps = (if (s.lane l).seen then (s.lane l).caps + 1 else (s.lane l).caps) ∧ Frame [] s t := by
  have sends : Sends [] l (fun g => g.type = 1 ∧ g.ver = 1 ∧ g.payload = s.capPayload l ∧ g.crc.toNat = frameCrc g) s
      (s.sendFrame l 1 0 (s.lane l).seq (s.capPayload l)) :=
    State.sendFrame_onC1 link ⟨sentFrame_type .., rfl, sentFrame_payload .., sentFrame_crc ..⟩
  refine ⟨(s.sendFrame l 1 0 (s.lane l).seq (s.capPayload l)).modLane l fun x => { x with caps := if x.seen then x.caps + 1 else x.caps }, ?_,
    sends.sent, ?_, sends.line.frame.modLane _ _⟩
  · exact if_neg (by simp [link, serves, acqLink])
  · rw [State.lane_modLane_self]
    exact sends.line.ofLane (fun x => if x.seen then x.caps + 1 else x.caps) fun _ => rfl

/-! ### A CAP is matched -/

variable {fr : AcqFrame} {p : Lane} {b : List (BitVec 8)}

/-- R260: the item of the match that a CAP of another lane fails first. -/
theorem State.capFault_of_partner (partner : s.ownSignal l b = false) (port : s.portOf l = some p) : s.capFault l b =
    if payloadNum b 0 1 ≠ 1 then 1 else if ¬ (payloadNum b 1 1).testBit (s.lmode l) then 2 else if payloadNum b 2 1 / 64 ≠ s.lmode l then 3
      else if payloadNum b 3 1 / 32 ≠ s.app .PORT_RATE p then 4 else if payloadNum b 3 1 / 4 % 8 ≠ posInPort p l then 5 else 0 := by
  unfold State.capFault
  rw [port, partner]
  rfl

theorem State.takesFrame_capFault (partner : s.ownSignal l b = false) (port : s.portOf l = some p) :
    (s.takesFrame l).capFault l b = s.capFault l b := by
  have port' : (s.takesFrame l).portOf l = some p := (State.portOf_of_ap (s := s) (t := s.takesFrame l) rfl l).trans port
  rw [State.capFault_of_partner partner port, State.capFault_of_partner (s := s.takesFrame l) partner port',
    State.lmode_of_ap (s := s) (t := s.takesFrame l) rfl l, State.app_of_ap (s := s) (t := s.takesFrame l) rfl rfl]

theorem State.ownSignal_partner (other : payloadNum b 8 1 ≠ l.val ∨ payloadNum b 4 4 ≠ s.devTag l.half) : s.ownSignal l b = false := by
  rcases other with lane | tag
  · simp [State.ownSignal, lane]
  · simp [State.ownSignal, tag]

/-- R272: the registers show the partner's CAP. -/
def State.showsPeer (s : State) (l : Lane) (b : List (BitVec 8)) : State :=
  ((s.put .ACQ_PEER_CAP l (payloadNum b 0 4)).put .ACQ_PEER_TAG l (payloadNum b 4 4)).put .ACQ_PEER_LANE l (payloadNum b 8 1)

/-- R259 and R260: a CAP that matches in LINK: the partner is latched. -/
def State.matchesCap (s : State) (l : Lane) (b : List (BitVec 8)) : State :=
  ((s.showsPeer l b).put .ACQ_PEER_SEEN l 1).modLane l fun x => { x with
    partner := x.partner.or (some (payloadNum b 4 4, payloadNum b 8 1)), matched := true, seen := x.seen || (payloadNum b 2 1).testBit 4 }

theorem exec_capFrameReceive (a : Accepts s l fr) (type : fr.type = 1) (link : s.get .ACQ_STATE l = 1) (partner : s.ownSignal l fr.payload = false)
    (port : s.portOf l = some p) : exec (.capFrameReceive l fr) s = .next (settle
      (if s.capFault l fr.payload ≠ 0 then (s.takesFrame l).capMismatch l (s.capFault l fr.payload) else (s.takesFrame l).matchesCap l fr.payload)) := by
  have link' : (s.takesFrame l).get .ACQ_STATE l = 1 := (State.takesFrame_get (by simp) _).trans link
  have listed : (s.takesFrame l).unlisted l 1 = false := by simp [State.unlisted, link', acqLink]
  have partner' : (s.takesFrame l).ownSignal l fr.payload = false := partner
  have state : ((s.takesFrame l).showsPeer l fr.payload).get .ACQ_STATE l ≠ acqTrain := by
    rw [State.showsPeer, State.get_put_of_ne _ (by simp), State.get_put_of_ne _ (by simp), State.get_put_of_ne _ (by simp), link']
    decide
  change execCapFrameReceive l fr s = _
  unfold execCapFrameReceive
  rw [receives_of_accepts a, endBody_of_accepts a]
  dsimp only
  rw [listed, partner', type]
  refine (if_neg Bool.false_ne_true).trans ((if_neg (by decide)).trans ?_)
  simp only [Bool.false_eq_true, if_false]
  rw [State.takesFrame_capFault partner port]
  split
  · rfl
  · exact if_neg state

theorem capFrameReceive_matches (a : Accepts s l fr) (type : fr.type = 1) (link : s.get .ACQ_STATE l = 1)
    (other : payloadNum fr.payload 8 1 ≠ l.val ∨ payloadNum fr.payload 4 4 ≠ s.devTag l.half) (version : payloadNum fr.payload 0 1 = 1)
    (modes : (payloadNum fr.payload 1 1).testBit (s.lmode l) = true) (mode : payloadNum fr.payload 2 1 / 64 = s.lmode l) (port : s.portOf l = some p)
    (rate : payloadNum fr.payload 3 1 / 32 = s.app .PORT_RATE p) (pos : payloadNum fr.payload 3 1 / 4 % 8 = posInPort p l) :
    Does (.capFrameReceive l fr) s fun t =>
      t.get .ACQ_PEER_SEEN l = 1 ∧ (t.lane l).partner = (s.lane l).partner.or (some (payloadNum fr.payload 4 4, payloadNum fr.payload 8 1))
        ∧ (t.lane l).matched = true ∧ t.get .ACQ_PEER_CAP l = payloadNum fr.payload 0 4 % 2 ^ 32
        ∧ t.get .ACQ_PEER_TAG l = payloadNum fr.payload 4 4 % 2 ^ 32
        ∧ ((payloadNum fr.payload 2 1).testBit 4 = true → (t.lane l).seen = true)
        ∧ Frame [(.ACQ_FRAME_OK, l.val), (.ACQ_PEER_CAP, l.val), (.ACQ_PEER_TAG, l.val), (.ACQ_PEER_LANE, l.val)] s t := by
  have partner := State.ownSignal_partner other
  have good : s.capFault l fr.payload = 0 := by simp [State.capFault_of_partner partner port, version, modes, mode, rate, pos]
  have lane : ((s.takesFrame l).matchesCap l fr.payload).lane l = { s.lane l with
      phase := .search, partner := (s.lane l).partner.or (some (payloadNum fr.payload 4 4, payloadNum fr.payload 8 1)), matched := true
      seen := (s.lane l).seen || (payloadNum fr.payload 2 1).testBit 4 } := by
    rw [State.matchesCap, State.lane_modLane_self, State.put_lane, State.showsPeer, State.put_lane, State.put_lane, State.put_lane, State.takesFrame_lane]
  refine ⟨(s.takesFrame l).matchesCap l fr.payload, ?_, ?_, by rw [lane], by rw [lane], ?_, ?_, fun seen => ?_, ?_⟩
  · rw [exec_capFrameReceive a type link partner port, if_neg (not_not.2 good)]
  · rw [State.matchesCap, State.modLane_get, State.get_put_self]
    rfl
  · rw [State.matchesCap, State.modLane_get, State.showsPeer, State.get_put_of_ne _ (by simp), State.get_put_of_ne _ (by simp),
      State.get_put_of_ne _ (by simp), State.get_put_self]
    rfl
  · rw [State.matchesCap, State.modLane_get, State.showsPeer, State.get_put_of_ne _ (by simp), State.get_put_of_ne _ (by simp), State.get_put_self]
    rfl
  · rw [lane]
    exact (congrArg ((s.lane l).seen || ·) seen).trans (Bool.or_true _)
  · exact (((((State.takesFrame_frame.weaken (by simp)).put (.inl (by simp)) _).put (.inl (by simp)) _).put (.inl (by simp)) _).put (.inr rfl) _).modLane _ _

/-! ### A CAP that does not match -/

/-- R272: the item is shown; an event follows where it is another than before. -/
theorem State.capMismatch_spec {item : Nat} (small : item < 16) : (s.capMismatch l item).get .ACQ_CAP_MISMATCH l = 1
    ∧ (s.capMismatch l item).get .ACQ_MISMATCH l = item ∧ (s.capMismatch l item).get .ACQ_PEER_SEEN l = s.get .ACQ_PEER_SEEN l
    ∧ Frame [(.ACQ_CAP_MISMATCH, l.val), (.ACQ_MISMATCH, l.val)] s (s.capMismatch l item) := by
  have shown : Frame [(.ACQ_CAP_MISMATCH, l.val), (.ACQ_MISMATCH, l.val)] s ((s.flag .ACQ_CAP_MISMATCH l).put .ACQ_MISMATCH l item) :=
    ((Frame.refl _ s).put (.inl (by simp)) _).put (.inl (by simp)) _
  have kept : Retains Fld.counted id id ((s.flag .ACQ_CAP_MISMATCH l).put .ACQ_MISMATCH l item) (s.capMismatch l item) := by
    unfold State.capMismatch
    exact Retains.ite (Retains.refl _) (Retains.raise (fun _ h => h) (Retains.refl _) _ _)
  refine ⟨?_, ?_, ?_, ?_⟩
  · rw [kept.get _ _ rfl, State.get_put_of_ne _ (by simp), State.flag_eq, State.get_put_self]
    rfl
  · rw [kept.get _ _ rfl, State.get_put_self]
    exact Nat.mod_eq_of_lt small
  · rw [kept.get _ _ rfl, State.get_put_of_ne _ (by simp), State.flag_eq, State.get_put_of_ne _ (by simp)]
  · unfold State.capMismatch
    dsimp only
    split
    · exact shown
    · exact shown.raise _ _

theorem capFrameReceive_mismatch (a : Accepts s l fr) (type : fr.type = 1) (link : s.get .ACQ_STATE l = 1)
    (other : payloadNum fr.payload 8 1 ≠ l.val ∨ payloadNum fr.payload 4 4 ≠ s.devTag l.half) (port : s.portOf l = some p)
    (fails : payloadNum fr.payload 0 1 ≠ 1 ∨ ¬ (payloadNum fr.payload 1 1).testBit (s.lmode l) ∨ payloadNum fr.payload 2 1 / 64 ≠ s.lmode l
      ∨ payloadNum fr.payload 3 1 / 32 ≠ s.app .PORT_RATE p ∨ payloadNum fr.payload 3 1 / 4 % 8 ≠ posInPort p l) :
    Does (.capFrameReceive l fr) s fun t =>
      t.get .ACQ_CAP_MISMATCH l = 1 ∧ t.get .ACQ_MISMATCH l = (if payloadNum fr.payload 0 1 ≠ 1 then 1
          else if ¬ (payloadNum fr.payload 1 1).testBit (s.lmode l) then 2 else if payloadNum fr.payload 2 1 / 64 ≠ s.lmode l then 3
          else if payloadNum fr.payload 3 1 / 32 ≠ s.app .PORT_RATE p then 4 else 5)
        ∧ t.get .ACQ_PEER_SEEN l = s.get .ACQ_PEER_SEEN l
        ∧ Frame [(.ACQ_FRAME_OK, l.val), (.ACQ_CAP_MISMATCH, l.val), (.ACQ_MISMATCH, l.val)] s t := by
  have partner := State.ownSignal_partner other
  have item : s.capFault l fr.payload = if payloadNum fr.payload 0 1 ≠ 1 then 1
      else if ¬ (payloadNum fr.payload 1 1).testBit (s.lmode l) then 2 else if payloadNum fr.payload 2 1 / 64 ≠ s.lmode l then 3
      else if payloadNum fr.payload 3 1 / 32 ≠ s.app .PORT_RATE p then 4 else 5 := by
    rw [State.capFault_of_partner partner port]
    grind
  have bad : s.capFault l fr.payload ≠ 0 ∧ s.capFault l fr.payload < 16 := by
    rw [item]
    split_ifs <;> decide
  obtain ⟨mismatch, shows, seen, frame⟩ := State.capMismatch_spec (s := s.takesFrame l) (l := l) bad.2
  refine ⟨(s.takesFrame l).capMismatch l (s.capFault l fr.payload), ?_, mismatch, shows.trans item, ?_, ?_⟩
  · rw [exec_capFrameReceive a type link partner port, if_pos bad.1]
  · rw [seen, State.takesFrame_get (by simp)]
  · exact (State.takesFrame_frame.weaken (by simp)).trans (frame.weaken (by simp))

/-- R260: the lane has waited for a match. -/
def State.notesWait (s : State) (l : Lane) : State := s.modLane l fun x => { x with noticed := true }

theorem linkWaitTimer_notices (link : s.get .ACQ_STATE l = 1) (unmatched : (s.lane l).matched = false) (first : (s.lane l).noticed = false)
    (late : (s.lane l).start + msTicks 1000 ≤ s.ticks l.half) : Does (.linkWaitTimer l) s fun t =>
      (t.lane l).noticed = true ∧ t.get .ACQ_STATE l = 1 ∧ Frame [] s t := by
  have noted : ((s.notesWait l).lane l).noticed = true := by rw [State.notesWait, State.lane_modLane_self]
  have kept : Retains Fld.counted id id (s.notesWait l) ((s.notesWait l).raise l.half { sev := 1, code := 0x0210, scope := 4, id := l }) :=
    Retains.raise (fun _ h => h) (Retains.refl _) _ _
  exact ⟨(s.notesWait l).raise l.half { sev := 1, code := 0x0210, scope := 4, id := l }, if_pos ⟨link, by simp [unmatched], by simp [first], late⟩,
    (congrArg LaneS.noticed (kept.lane l)).trans noted, (kept.get _ _ rfl).trans link, ((Frame.refl [] s).modLane _ _).raise _ _⟩

end
end Sys2Proof.Machine

/-! O24: the passage to TRAIN. -/

namespace Sys2Proof.Machine

section
variable {s : State} {l : Lane} {f : Fld}

theorem State.freshLock_get (lock : f ≠ .FEC_CW_LOCK) (change : f ≠ .FEC_CW_LOCK_CHG) (i : Nat) : (s.freshLock l).get f i = s.get f i := by
  unfold State.freshLock State.setCwLock
  split
  · split
    · rfl
    · rw [State.flag_eq, State.get_put_of_ne _ change, State.putBool_eq, State.get_put_of_ne _ lock]
  · rfl

/-- R260 and R261: adaptation starts in TRAIN. -/
def State.trains (s : State) (l : Lane) : State := (((s.clearAcq l).freshLock l).put .ACQ_STATE l 2).startAdapt l

theorem State.toTrain_get (sub : f ≠ .ACQ_SUBSTATE) (i : Nat) : (s.toTrain l).get f i = (s.trains l).get f i := by
  unfold State.toTrain
  dsimp only
  rw [State.modLane_get]
  split
  · rw [State.get_put_of_ne _ sub]
    rfl
  · rfl

theorem State.toTrain_shows : (s.toTrain l).get .ACQ_STATE l = 2 ∧ (s.toTrain l).get .ACQ_RX_READY l = 0 ∧ (s.toTrain l).get .EQ_ADAPT l = 1 := by
  have adapts (f : Fld) : (s.trains l).get f l =
      (((((s.clearAcq l).freshLock l).put .ACQ_STATE l 2).put .EQ_ADAPT l 1).get f l) := rfl
  refine ⟨?_, ?_, ?_⟩
  · rw [State.toTrain_get (by simp), adapts, State.get_put_of_ne _ (by simp), State.get_put_self]
    rfl
  · rw [State.toTrain_get (by simp), adapts, State.get_put_of_ne _ (by simp), State.get_put_of_ne _ (by simp), State.freshLock_get (by simp) (by simp)]
    simp [State.clearAcq, State.get_put]
  · rw [State.toTrain_get (by simp), adapts, State.get_put_self]
    rfl

theorem State.toTrain_frame (W : List (Fld × Nat)) : Frame W s (s.toTrain l) := by
  have fresh : Frame W s ((s.clearAcq l).freshLock l) := ((Frame.refl W s).ofSame (clearAcq_same s l)).ofSame (freshLock_same _ l)
  have adapts : Frame W s (s.trains l) := (fresh.put (.inr rfl) 2).ofSame (startAdapt_same _ l)
  unfold State.toTrain
  dsimp only
  split
  · exact (adapts.put (.inr rfl) 1).modLane _ _
  · exact adapts.modLane _ _

theorem State.trained_frame (W : List (Fld × Nat)) : Frame W s ((s.runC1 l).toTrain l) :=
  ((LineOnly.refl (W := []) s).runC1.frame.weaken (List.nil_subset _)).trans (State.toTrain_frame W)

/-- R268: entry to TRAIN with SIG_DET, and without. -/
theorem State.startTrain_detected (signal : s.get .FE_SIG_DET l = 1) : s.startTrain l = (s.runC1 l).toTrain l := by
  refine if_pos ?_
  rw [State.isSet, (State.trained_frame []).get _ _ (by simp) rfl, signal]
  rfl

theorem State.startTrain_dark (dark : s.get .FE_SIG_DET l ≠ 1) : s.startTrain l = ((s.runC1 l).toTrain l).toLink l := by
  refine if_neg ?_
  rw [State.isSet, (State.trained_frame []).get _ _ (by simp) rfl]
  simpa using dark

section
variable (link : s.get .ACQ_STATE l = 1) (seen : (s.lane l).seen = true) (sent : 8 ≤ (s.lane l).caps) (serves : s.kndOut l.acqKnd = false)
include link seen sent serves

theorem exec_enterTrain : exec (.enterTrain l) s = .next (settle (s.startTrain l)) := if_pos ⟨link, seen, sent, by simp [serves]⟩

theorem enterTrain_detected (signal : s.get .FE_SIG_DET l = 1) : Does (.enterTrain l) s fun t =>
    t.get .ACQ_STATE l = 2 ∧ t.get .ACQ_RX_READY l = 0 ∧ t.get .EQ_ADAPT l = 1 ∧ Frame [(.DMT_TX_CLIP, l.val)] s t := by
  obtain ⟨state, ready, adapt⟩ := (s.runC1 l).toTrain_shows (l := l)
  exact ⟨(s.runC1 l).toTrain l, by rw [exec_enterTrain link seen sent serves, State.startTrain_detected signal], state, ready, adapt, State.trained_frame _⟩

theorem enterTrain_dark (dark : s.get .FE_SIG_DET l ≠ 1) : Does (.enterTrain l) s fun t =>
    t.get .ACQ_STATE l = 1 ∧ (t.lane l).caps = 0 ∧ (t.lane l).partner = none ∧ (t.lane l).matched = false ∧ Frame [(.DMT_TX_CLIP, l.val)] s t := by
  refine ⟨((s.runC1 l).toTrain l).toLink l, by rw [exec_enterTrain link seen sent serves, State.startTrain_dark dark], State.toLink_acqState _ l, ?_⟩
  have lane : (((((s.runC1 l).toTrain l).toLink l).lane l).caps = 0) ∧ ((((s.runC1 l).toTrain l).toLink l).lane l).partner = none
      ∧ ((((s.runC1 l).toTrain l).toLink l).lane l).matched = false := by
    unfold State.toLink
    dsimp only
    rw [State.lane_modLane_self]
    exact ⟨rfl, rfl, rfl⟩
  obtain ⟨caps, partner, unmatched⟩ := lane
  exact ⟨caps, partner, unmatched, (State.trained_frame _).ofSame (toLink_same _ l)⟩

end

theorem enterTrain_waits (few : (s.lane l).caps < 8) : exec (.enterTrain l) s = .next (settle s) := if_neg fun h => by omega

/-! ### The first STATUS -/

variable {fr : AcqFrame} {k : Int} {w : Nat}

/-- R255 and R264: a STATUS of payload word `w` is read. -/
def State.readsStatus (s : State) (l : Lane) (w : Nat) : State :=
  (s.putBool .ACQ_PEER_READY l (w.testBit 31)).modLane l fun x => { x with
    go := x.go || w.testBit 31, slotSeen := true, dataAt := if w.testBit 30 then some (w / 2 ^ 27 % 8, w / 2 ^ 14 % 8192) else x.dataAt }

/-- R262 and R263: and followed. -/
def State.actsOnStatus (s : State) (l : Lane) (w : Nat) : State := ((s.readsStatus l w).confirmPreset l w).updateReady l

/-- R260: in LINK a STATUS after a matching CAP takes the lane to TRAIN. -/
theorem exec_statusFrameReceive_link (a : Accepts s l fr) (type : fr.type = 2) (link : s.get .ACQ_STATE l = 1) (matched : (s.lane l).matched = true)
    (slot : s.inSlot l k = true) : exec (.statusFrameReceive l ⟨fr, k⟩) s = .next (settle
      (if (payloadNum fr.payload 0 4).testBit 31 then (((s.takesFrame l).startTrain l).actsOnStatus l (payloadNum fr.payload 0 4)).startDistance l
        else ((s.takesFrame l).startTrain l).actsOnStatus l (payloadNum fr.payload 0 4))) := by
  have link' : (s.takesFrame l).get .ACQ_STATE l = 1 := (State.takesFrame_get (by simp) _).trans link
  have listed : (s.takesFrame l).unlisted l 2 = false := by
    have matched' : ((s.takesFrame l).lane l).matched = true := by rw [State.takesFrame_lane]; exact matched
    simp [State.unlisted, link', matched', acqLink]
  change execStatusFrameReceive l ⟨fr, k⟩ s = _
  unfold execStatusFrameReceive
  dsimp only
  rw [receives_of_accepts a, endBody_of_accepts a, State.takesFrame_inSlot, listed]
  dsimp only
  rw [if_pos (show (s.takesFrame l).get .ACQ_STATE l = acqLink from link')]
  exact (if_neg Bool.false_ne_true).trans (if_neg (by simp [type, slot]))

theorem State.confirmPreset_get (h : f ≠ .ACQ_REFUSED_EVT) (i : Nat) : (s.confirmPreset l w).get f i = s.get f i := by
  unfold State.confirmPreset
  split
  · split
    · dsimp only
      split
      · rw [State.flag_eq, State.get_put_of_ne _ h, State.modLane_get]
      · rfl
    · rfl
  · rfl

theorem State.confirmPreset_slotSeen : ((s.confirmPreset l w).lane l).slotSeen = (s.lane l).slotSeen := by
  unfold State.confirmPreset
  split
  · split
    · dsimp only
      split
      · rw [State.flag_eq, State.put_lane, State.lane_modLane_self]
      · rw [State.lane_modLane_self]
    · rfl
  · rfl

theorem State.actsOnStatus_get (ready : f ≠ .ACQ_RX_READY) (refused : f ≠ .ACQ_REFUSED_EVT) (i : Nat) :
    (s.actsOnStatus l w).get f i = (s.putBool .ACQ_PEER_READY l (w.testBit 31)).get f i := by
  rw [State.actsOnStatus, State.updateReady_get ready, State.confirmPreset_get refused]
  rfl

theorem State.actsOnStatus_shows : (s.actsOnStatus l w).get .ACQ_STATE l = s.get .ACQ_STATE l
    ∧ (s.actsOnStatus l w).get .ACQ_PEER_READY l = (if w.testBit 31 then 1 else 0) ∧ ((s.actsOnStatus l w).lane l).slotSeen = true := by
  refine ⟨?_, ?_, ?_⟩
  · rw [State.actsOnStatus_get (by simp) (by simp), State.putBool_eq, State.get_put_of_ne _ (by simp)]
  · rw [State.actsOnStatus_get (by simp) (by simp), State.putBool_eq, State.get_put_self]
    split <;> rfl
  · rw [State.actsOnStatus, State.updateReady_lane, State.confirmPreset_slotSeen, State.readsStatus, State.lane_modLane_self]

/-- R266: where the lane names the distance to its data, it sends a STATUS. -/
theorem State.startDistance_shows (train : s.get .ACQ_STATE l = 2) : (s.startDistance l).get .ACQ_STATE l = 2
    ∧ (s.startDistance l).get .ACQ_PEER_READY l = s.get .ACQ_PEER_READY l ∧ ((s.startDistance l).lane l).slotSeen = (s.lane l).slotSeen := by
  by_cases due : s.lmode l = 3 ∧ (s.lane l).count = none ∧ s.get .ACQ_TX_DATA l ≠ 1
  · obtain ⟨dmt, idle, early⟩ := due
    have ran : LineOnly [(.DMT_TX_CLIP, l.val)] l s (s.draw.2.runC3 l) := ((LineOnly.refl s).draw).runC3 (by simp)
    rw [State.startDistance_dmt dmt idle early]
    generalize (s.draw.2.runC3 l).dataSymbol l (Config.dataDistance s.draw.1) = first
    have state : ((s.draw.2.runC3 l).namesStart l first).get .ACQ_STATE l = 2 := (ran.get _ _ (by simp)).trans train
    have status := (State.sendStatus_sends (W := [(.DMT_TX_CLIP, l.val)]) state fun _ => by simp).line
    refine ⟨(status.get _ _ (by simp)).trans state, (status.get _ _ (by simp)).trans (ran.get _ _ (by simp)), ?_⟩
    rw [status.ofLane LaneS.slotSeen fun _ => rfl, State.namesStart, State.lane_modLane_self]
    exact ran.ofLane LaneS.slotSeen fun _ => rfl
  · have stays : s.startDistance l = s := if_neg (by simpa [State.isSet] using due)
    rw [stays]
    exact ⟨train, rfl, rfl⟩

theorem statusFrameReceive_trains (a : Accepts s l fr) (type : fr.type = 2) (link : s.get .ACQ_STATE l = 1) (matched : (s.lane l).matched = true)
    (slot : s.inSlot l k = true) (signal : s.get .FE_SIG_DET l = 1) : Does (.statusFrameReceive l ⟨fr, k⟩) s fun t =>
      t.get .ACQ_STATE l = 2 ∧ t.get .ACQ_PEER_READY l = (if (payloadNum fr.payload 0 4).testBit 31 then 1 else 0) ∧ (t.lane l).slotSeen = true := by
  have signal' : (s.takesFrame l).get .FE_SIG_DET l = 1 := (State.takesFrame_get (by simp) _).trans signal
  have trained : ((s.takesFrame l).startTrain l).get .ACQ_STATE l = 2 := by
    rw [State.startTrain_detected signal']
    exact State.toTrain_shows.1
  obtain ⟨state, ready, seen⟩ := ((s.takesFrame l).startTrain l).actsOnStatus_shows (l := l) (w := payloadNum fr.payload 0 4)
  rw [trained] at state
  refine ⟨_, exec_statusFrameReceive_link a type link matched slot, ?_⟩
  beta_reduce
  split
  · next peer =>
    obtain ⟨state', ready', seen'⟩ := State.startDistance_shows state
    exact ⟨state', (ready'.trans ready).trans (if_pos peer), seen'.trans seen⟩
  · next peer => exact ⟨state, ready.trans (if_neg peer), seen⟩

end
end Sys2Proof.Machine

namespace Sys2Proof

open Machine

/-- Settles O24: the CAP frames of LINK, sent and received, and the two ways to TRAIN, clause by clause. -/
theorem link : Obligations.Link := by
  unfold Obligations.Link
  exact ⟨fun s l => capFrameSend_sends, fun s l fr p => capFrameReceive_matches, fun s l fr p => capFrameReceive_mismatch,
    fun s l => enterTrain_detected, fun s l => enterTrain_dark, fun s l => enterTrain_waits, fun s l => linkWaitTimer_notices,
    fun s l fr k => statusFrameReceive_trains⟩

end Sys2Proof

/-! O27: a LOAD is answered on C3, and the training symbol that is due before the answer may clip. -/

namespace Sys2Proof.Machine

/-- R265: a LOAD that is not valid is answered with an ACK that says so. -/
theorem exec_loadFrameReceive_refused {s : State} {l : Lane} {fr : AcqFrame} (a : Accepts s l fr) (load : fr.type = 4)
    (listed : (s.takesFrame l).unlisted l 4 = false) (short : fr.payload.length ≠ 2048) : exec (.loadFrameReceive l fr) s = .next
      (settle ((s.takesFrame l).sendFrame l 5 0 ((s.takesFrame l).lane l).seq (bytesOf 4 (4 * 2 ^ 24 + fr.seq.toNat * 2 ^ 16 + 256)))) := by
  have refused : (fr.payload.length == 2048
      && loadingValid (fun t => payloadNum fr.payload (2 * t) 2 / 4096) (fun t => payloadNum fr.payload (2 * t) 2 % 4096)) = false := by simp [short]
  change execLoadFrameReceive l fr s = _
  unfold execLoadFrameReceive
  rw [receives_of_accepts a, endBody_of_accepts a]
  simp only [refused, load, listed]
  rfl

/-! ### A lane that a short LOAD reaches -/

/-- A LOAD frame of lane 0 without payload. -/
def shortLoad : AcqFrame := sentFrame 0 4 0 3 []

/-- Lane 0 in TRAIN of LM400D: RMS is 40.0 LSB, `shortLoad` is in reception, and one training symbol is due. -/
def loadingLane : State :=
  let s := (((State.reset.put .ACQ_STATE 0 2).putApp .PORT_LMODE 0 3).putApp .DMT_RMS 0 160).modHalf 0 fun y => { y with ticks := 3 }
  s.modLane 0 fun x => { x with phase := .body, hdr := headerWord shortLoad }

theorem loadingLane_lane : loadingLane.lane 0 = { ({} : LaneS) with phase := .body, hdr := headerWord shortLoad } := by
  rw [loadingLane, State.lane_modLane_self]
  rfl

theorem loadingLane_accepts : Accepts loadingLane 0 shortLoad := by
  refine ⟨by decide, ?_, sentFrame_crc .., rfl, ?_⟩
  · rw [State.inBody, loadingLane_lane]
    simp [shortLoad, sentFrame_payload]
  · rw [loadingLane_lane]
    nofun

theorem loadingLane_train : loadingLane.get .ACQ_STATE (0 : Lane) = 2 := rfl
theorem loadingLane_lmode : loadingLane.lmode 0 = 3 := rfl

/-- What answers `shortLoad` counts the clamps of the symbol that is due. -/
theorem loadingLane_clips (seq : Nat) (payload : List (BitVec 8)) :
    0 < ((loadingLane.takesFrame 0).sendFrame 0 5 0 seq payload).get .DMT_TX_CLIP (0 : Lane) := by
  have ohc : ((loadingLane.takesFrame 0).nextOhc 0).1 = false := rfl
  have gain : (loadingLane.takesFrame 0).app .DMT_OHC_GAIN (0 : Lane) = 512 := rfl
  have due : symbolsAt ((loadingLane.takesFrame 0).ticks (0 : Lane).half) - symbolsAt ((loadingLane.takesFrame 0).lane 0).carrierAt = 1 := rfl
  have clamps : 0 < ((loadingLane.takesFrame 0).dmtCodes 0 (trainTone 512 false)).2 := trainSymbol_clips rfl
  rw [State.sendFrame_clip (Retains.refl (loadingLane.takesFrame 0)) rfl loadingLane_lmode ((State.takesFrame_get (by simp) _).trans loadingLane_train)
    (by decide) due, ohc, gain]
  omega

end Sys2Proof.Machine

namespace Sys2Proof

open Machine

/-- Refutes O27: its seventh clause keeps every register field but FRAME_OK when a LOAD is answered; but the ACK goes out on C3, whose training symbols have
to leave up to now, and their clamps count in TX_CLIP (R174, R266). In `loadingLane` RMS is the largest of its valid range, and sample 2,016 of the symbol
that is due is above the largest DAC code. -/
theorem not_startOfData : ¬ Obligations.StartOfData := by
  rintro ⟨-, -, -, -, -, -, load, -⟩
  have act : loadingLane.get .DMT_TX_ACT (0 : Lane) < 2 := by decide
  have counted : loadingLane.get .DMT_TX_CLIP (0 : Lane) = 0 := rfl
  obtain ⟨t, same, -, -, -, kept⟩ := exists_same_of_next (exec_loadFrameReceive_refused loadingLane_accepts rfl rfl (by decide))
    (load loadingLane 0 shortLoad loadingLane_accepts rfl loadingLane_train loadingLane_lmode act rfl)
  have clips := loadingLane_clips ((loadingLane.takesFrame 0).lane 0).seq (bytesOf 4 (4 * 2 ^ 24 + shortLoad.seq.toNat * 2 ^ 16 + 256))
  rw [← same.get .DMT_TX_CLIP _ rfl, kept .DMT_TX_CLIP _ (by decide) rfl, counted] at clips
  exact absurd clips (Nat.lt_irrefl 0)

end Sys2Proof

/-! O55: the internal power-on reset, and the cold start of both halves. -/

namespace Sys2Proof.Machine

/-! ### The power-on reset -/

/-- R539 and R575: the fields that show what the pins and flash hold. -/
def Fld.ofPins : List Fld := [.CD_HIZ, .REL_KEY_LOCKED, .REL_SCAN_SEEN, .LSH_SOFF_PIN, .CLRH_CLR_PIN, .REL_LOG_USED]

/-- R539: reset, but for what is not of the power domain. -/
def State.blank (s : State) : State :=
  { State.reset with halves := s.halves.map HalfS.afterPorst, testmode := s.testmode, porst := s.porst, out := s.out, free := s.free, pending := s.pending }

section
variable {s : State} {h k : Half}

theorem State.blank_half : s.blank.half h = (s.half h).afterPorst := Vector.getElem_map ..

/-- R539: the fields of the pins are all that is not blank. -/
theorem State.powerOnReset_keeps {α : Type} (f : State → α) (put : ∀ t, ∀ g ∈ Fld.ofPins, ∀ j v, f (State.put t g j v) = f t) :
    f s.powerOnReset = f s.blank := by
  have put' {t : State} {g : Fld} (pin : g ∈ Fld.ofPins) (j v : Nat) (p : f t = f s.blank) : f (t.put g j v) = f s.blank := (put t g pin j v).trans p
  unfold State.powerOnReset
  refine State.each_kept (P := fun t => f t = f s.blank) _ (fun _ _ => put' (by decide) _ _) ?_
  refine State.each_kept (P := fun t => f t = f s.blank) _ (fun _ _ => put' (by decide) _ _) ?_
  refine State.each_kept (P := fun t => f t = f s.blank) _ (fun _ _ => put' (by decide) _ _) ?_
  refine State.each_kept (P := fun t => f t = f s.blank) _ (fun _ _ p => put' (by decide) _ _ (put' (by decide) _ _ p)) ?_
  exact State.each_kept (P := fun t => f t = f s.blank) _ (fun _ _ => put' (by decide) _ _) rfl

theorem State.powerOnReset_get {f : Fld} (out : f ∉ Fld.ofPins) (i : Nat) : s.powerOnReset.get f i = f.reset i :=
  State.powerOnReset_keeps (·.get f i) fun t _ pin j v => t.get_put_of_ne (fun e => out (by rwa [e])) i j v

theorem State.powerOnReset_half : s.powerOnReset.half h = (s.half h).afterPorst :=
  (State.powerOnReset_keeps (·.half h) fun _ _ _ _ _ => rfl).trans State.blank_half

/-- R539: the stores are empty. -/
theorem State.powerOnReset_stores : s.powerOnReset.ap = [] ∧ s.powerOnReset.written = [] ∧ s.powerOnReset.dmt = [] ∧ s.powerOnReset.results = []
    ∧ s.powerOnReset.sticky = [] ∧ s.powerOnReset.trackers = [] :=
  ⟨State.powerOnReset_keeps State.ap fun _ _ _ _ _ => rfl, State.powerOnReset_keeps State.written fun _ _ _ _ _ => rfl,
    State.powerOnReset_keeps State.dmt fun _ _ _ _ _ => rfl, State.powerOnReset_keeps State.results fun _ _ _ _ _ => rfl,
    State.powerOnReset_keeps State.sticky fun _ _ _ _ _ => rfl, State.powerOnReset_keeps State.trackers fun _ _ _ _ _ => rfl⟩

/-- R539: flash keeps what it holds. -/
theorem State.powerOnReset_flash : (s.powerOnReset.half h).boot = (s.half h).boot ∧ (s.powerOnReset.half h).slots = (s.half h).slots
    ∧ (s.powerOnReset.half h).store = (s.half h).store ∧ (s.powerOnReset.half h).settings = (s.half h).settings
    ∧ (s.powerOnReset.half h).log = (s.half h).log.take (s.half h).logFlash ∧ (s.powerOnReset.half h).live = false := by
  rw [State.powerOnReset_half]
  exact ⟨rfl, rfl, rfl, rfl, rfl, rfl⟩

theorem State.powerOnReset_outside : s.powerOnReset.testmode = s.testmode ∧ s.powerOnReset.out = s.out ∧ s.powerOnReset.pending = s.pending :=
  ⟨State.powerOnReset_keeps State.testmode fun _ _ _ _ _ => rfl, State.powerOnReset_keeps State.out fun _ _ _ _ _ => rfl,
    State.powerOnReset_keeps State.pending fun _ _ _ _ _ => rfl⟩

theorem State.powerOnReset_porst : s.powerOnReset.porst = s.porst := State.powerOnReset_keeps State.porst fun _ _ _ _ _ => rfl

/-! ### Full-width mode -/

/-- R338 and R339: the fields that a chain writes when it changes its mode. -/
def Fld.ofMode : List Fld := [.CH_FULLW, .CH_SETTLED, .CH_FILL, .CH_OUT_CNT]

theorem State.restartChain_keeps {α : Type} (f : State → α)
    (put : ∀ t, ∀ g ∈ ([.CH_SETTLED, .CH_FILL, .CH_OUT_CNT] : List Fld), ∀ j v, f (State.put t g j v) = f t)
    (chain : ∀ t c u, f (State.modChain t c u) = f t) (c : ChainN) : f (s.restartChain c) = f s := by
  unfold State.restartChain
  exact (chain _ _ _).trans ((put _ _ (by decide) _ _).trans ((put _ _ (by decide) _ _).trans (put _ _ (by decide) _ _)))

/-- R339: a chain enters full-width mode. -/
def State.widen (s : State) (c : ChainN) : State := if s.isSet .CH_FULLW c = true then s else (s.putBool .CH_FULLW c true).restartChain c

theorem State.restartChain_full (c : ChainN) (i : Nat) : (s.restartChain c).get .CH_FULLW i = s.get .CH_FULLW i :=
  State.restartChain_keeps (·.get .CH_FULLW i) (fun t g mode j v => t.get_put_of_ne (by rintro rfl; simp at mode) i j v) (fun _ _ _ => rfl) c

theorem State.widen_full (s : State) (c : ChainN) : (s.widen c).get .CH_FULLW c = 1 := by
  unfold State.widen
  split
  · next on => simpa [State.isSet] using on
  · rw [State.restartChain_full]
    exact State.get_put_self ..

/-- No chain leaves full-width mode. -/
theorem State.widen_stays {i : Nat} (full : s.get .CH_FULLW i = 1) (c : ChainN) : (s.widen c).get .CH_FULLW i = 1 := by
  unfold State.widen
  split
  · exact full
  · rw [State.restartChain_full, State.putBool_eq, State.get_put, full]
    exact ite_eq_right_iff.2 fun _ => rfl

theorem State.widen_keeps {α : Type} (f : State → α) (put : ∀ t, ∀ g ∈ Fld.ofMode, ∀ j v, f (State.put t g j v) = f t)
    (chain : ∀ t c u, f (State.modChain t c u) = f t) (c : ChainN) : f (s.widen c) = f s := by
  unfold State.widen
  split
  · rfl
  · exact (State.restartChain_keeps f (fun t g mode => put t g (List.mem_cons_of_mem _ mode)) chain c).trans (put _ _ (by decide) _ _)

theorem State.setFullWidth_eq (s : State) (h : Half) :
    s.setFullWidth h true = s.each (List.range 32) fun s k => s.widen ⟨32 * h.val + k % 32, by omega⟩ := rfl

theorem State.setFullWidth_keeps {α : Type} (f : State → α) (put : ∀ t, ∀ g ∈ Fld.ofMode, ∀ j v, f (State.put t g j v) = f t)
    (chain : ∀ t c u, f (State.modChain t c u) = f t) : f (s.setFullWidth h true) = f s := by
  rw [State.setFullWidth_eq]
  exact State.each_kept (P := fun t => f t = f s) _ (fun _ _ => (State.widen_keeps f put chain _).trans) rfl

theorem State.setFullWidth_stays {i : Nat} (full : s.get .CH_FULLW i = 1) : (s.setFullWidth h true).get .CH_FULLW i = 1 := by
  rw [State.setFullWidth_eq]
  exact State.each_kept (P := fun t => t.get .CH_FULLW i = 1) _ (fun _ _ p => State.widen_stays p _) full

theorem State.setFullWidth_full (s : State) (c : ChainN) : (s.setFullWidth c.half true).get .CH_FULLW c = 1 := by
  have chain : (⟨32 * c.half.val + c.val % 32 % 32, by omega⟩ : ChainN) = c := Fin.ext (by simp only [ChainN.half]; omega)
  rw [State.setFullWidth_eq]
  refine State.each_establishes (P := fun t => t.get .CH_FULLW c = 1) (x := c.val % 32) (List.mem_range.2 (Nat.mod_lt _ (by decide)))
    (fun t => ?_) fun t k full => State.widen_stays full _
  rw [chain]
  exact t.widen_full c

/-! ### Cold starts -/

/-- R497 and R254: a half starts from cold, with a fresh DEV_TAG. -/
def State.coldStart (s : State) (h : Half) : State := (s.modHalf h fun y => { y with tag := y.tag + 1 }).beginStart h 0 0

theorem State.coldStarts_eq (s : State) : s.coldStarts = (s.coldStart 0).coldStart 1 := by
  rw [State.coldStarts, show allHalves = [0, 1] by decide, State.each_cons, State.each_cons, State.each_nil, State.coldStart, State.coldStart]

/-- What a cold start does before its chains widen. -/
def State.starts (s : State) (h : Half) : State :=
  (((((((s.modHalf h fun y => { y with tag := y.tag + 1 }).put .BOOT_STATE h 0).put .BOOT_STEP h 0).put .BOOT_START_KIND h 0).put .BOOT_ERR h 0).put
    .BOOT_BUSY h 0).put .BOOT_LOADED h 0).modHalf h fun y => { y with live := true, off := false, latch := [] }

theorem State.coldStart_eq (s : State) (h : Half) : s.coldStart h = (s.starts h).setFullWidth h true := rfl

/-- The chains change neither the halves nor the boot. -/
theorem State.coldStart_half : (s.coldStart h).half k = (s.starts h).half k := by
  rw [State.coldStart_eq]
  exact State.setFullWidth_keeps (s := s.starts h) (·.half k) (fun _ _ _ _ _ => rfl) fun _ _ _ => rfl

theorem State.coldStart_get {f : Fld} (boot : f ∉ Fld.ofMode) (i : Nat) : (s.coldStart h).get f i = (s.starts h).get f i := by
  rw [State.coldStart_eq]
  exact State.setFullWidth_keeps (s := s.starts h) (·.get f i) (fun t _ mode j v => t.get_put_of_ne (fun e => boot (by rwa [e])) i j v) fun _ _ _ => rfl

/-- The half stands at the beginning of the cold start that follows on `s`. -/
def ColdAt (h : Half) (s t : State) : Prop :=
  (t.half h).live = true ∧ (t.half h).tag = (s.half h).tag + 1 ∧ t.get .BOOT_STATE h = 0 ∧ t.get .BOOT_STEP h = 0 ∧ t.get .BOOT_START_KIND h = 0
    ∧ t.get .BOOT_ERR h = 0

theorem State.coldStart_cold (s : State) (h : Half) : ColdAt h s (s.coldStart h) := by
  rw [ColdAt, State.coldStart_half, State.coldStart_get (by decide), State.coldStart_get (by decide), State.coldStart_get (by decide),
    State.coldStart_get (by decide)]
  simp [State.starts, State.get_put]

/-- The cold start of a half leaves the other half where it is. -/
theorem State.coldStart_beside (s : State) (ne : k ≠ h) : (s.coldStart h).half k = s.half k ∧ (s.coldStart h).get .BOOT_STATE k = s.get .BOOT_STATE k
    ∧ (s.coldStart h).get .BOOT_STEP k = s.get .BOOT_STEP k ∧ (s.coldStart h).get .BOOT_START_KIND k = s.get .BOOT_START_KIND k
    ∧ (s.coldStart h).get .BOOT_ERR k = s.get .BOOT_ERR k := by
  have other : k.val ≠ h.val := Fin.val_ne_of_ne ne
  rw [State.coldStart_half, State.coldStart_get (by decide), State.coldStart_get (by decide), State.coldStart_get (by decide),
    State.coldStart_get (by decide)]
  simp [State.starts, State.get_put, State.half_modHalf, ne, other]

theorem State.coldStarts_cold (s : State) (h : Half) : ColdAt h s s.coldStarts := by
  rw [State.coldStarts_eq]
  match h with
  | 0 =>
    obtain ⟨half, state, step, kind, err⟩ := (s.coldStart 0).coldStart_beside (k := 0) (h := 1) (by decide)
    rw [ColdAt, half, state, step, kind, err]
    exact s.coldStart_cold 0
  | 1 =>
    have cold := (s.coldStart 0).coldStart_cold 1
    rw [ColdAt, (s.coldStart_beside (k := 1) (h := 0) (by decide)).1] at cold
    exact cold

theorem State.coldStart_stays {i : Nat} (full : s.get .CH_FULLW i = 1) : (s.coldStart h).get .CH_FULLW i = 1 := by
  rw [State.coldStart_eq]
  exact State.setFullWidth_stays (by simpa [State.starts, State.get_put] using full)

theorem State.coldStart_full (s : State) (c : ChainN) : (s.coldStart c.half).get .CH_FULLW c = 1 := by
  rw [State.coldStart_eq]
  exact (s.starts c.half).setFullWidth_full c

theorem State.coldStarts_full (s : State) (c : ChainN) : s.coldStarts.get .CH_FULLW c = 1 := by
  rw [State.coldStarts_eq]
  have halves : ∀ h : Half, h = 0 ∨ h = 1 := by decide
  rcases halves c.half with own | own
  · have first := s.coldStart_full c
    rw [own] at first
    exact State.coldStart_stays first
  · have second := (s.coldStart 0).coldStart_full c
    rwa [own] at second

theorem State.coldStarts_keeps {α : Type} (f : State → α) (put : ∀ t g j v, f (State.put t g j v) = f t)
    (chain : ∀ t c u, f (State.modChain t c u) = f t) (half : ∀ t k u, f (State.modHalf t k u) = f t) : f s.coldStarts = f s := by
  have starts (t : State) (h : Half) : f (t.starts h) = f t := by
    unfold State.starts
    simp only [half, put]
  have cold (t : State) (h : Half) : f (t.coldStart h) = f t := by
    rw [State.coldStart_eq]
    exact (State.setFullWidth_keeps f (fun t g _ => put t g) chain).trans (starts t h)
  rw [State.coldStarts_eq, cold, cold]

theorem State.coldStarts_rest : s.coldStarts.ap = s.ap ∧ s.coldStarts.pending = s.pending :=
  ⟨State.coldStarts_keeps State.ap (fun _ _ _ _ => rfl) (fun _ _ _ => rfl) fun _ _ _ => rfl,
    State.coldStarts_keeps State.pending (fun _ _ _ _ => rfl) (fun _ _ _ => rfl) fun _ _ _ => rfl⟩

theorem State.coldStarts_porst : s.coldStarts.porst = s.porst :=
  State.coldStarts_keeps State.porst (fun _ _ _ _ => rfl) (fun _ _ _ => rfl) fun _ _ _ => rfl

/-! ### The four commands -/

/-- R539: a power-on reset, whatever PORST# then is. -/
theorem State.powerOnReset_spec (s : State) : (∀ f i, f ∉ Fld.ofPins → s.powerOnReset.get f i = f.reset i)
    ∧ s.powerOnReset.ap = [] ∧ s.powerOnReset.written = [] ∧ s.powerOnReset.dmt = [] ∧ s.powerOnReset.results = [] ∧ s.powerOnReset.sticky = []
    ∧ s.powerOnReset.trackers = []
    ∧ (∀ h, (s.powerOnReset.half h).boot = (s.half h).boot ∧ (s.powerOnReset.half h).slots = (s.half h).slots
      ∧ (s.powerOnReset.half h).store = (s.half h).store ∧ (s.powerOnReset.half h).settings = (s.half h).settings
      ∧ (s.powerOnReset.half h).log = (s.half h).log.take (s.half h).logFlash ∧ (s.powerOnReset.half h).live = false)
    ∧ s.powerOnReset.testmode = s.testmode ∧ s.powerOnReset.out = s.out ∧ s.powerOnReset.pending = s.pending := by
  obtain ⟨ap, written, dmt, results, sticky, trackers⟩ := s.powerOnReset_stores
  exact ⟨fun f i out => State.powerOnReset_get out i, ap, written, dmt, results, sticky, trackers, fun h => State.powerOnReset_flash,
    State.powerOnReset_outside⟩

theorem porstDeassert_ignored (high : s.porst = false) : exec .porstDeassert s = .next (settle s) := if_neg (by simp [high])

theorem aonSupplyRestored_ignored (off : s.porst = true ∨ (s.half h).live = true) : exec .aonSupplyRestored s = .next (settle s) :=
  if_pos (off.imp_right fun live => List.any_eq_true.2 ⟨h, List.mem_finRange h, live⟩)

theorem aonSupplyRestored_starts (high : s.porst = false) (off : ∀ h, (s.half h).live = false) :
    exec .aonSupplyRestored s = .next (settle s.coldStarts) := if_neg (by simp [high, off])

end
end Sys2Proof.Machine

namespace Sys2Proof

open Machine

/-- Settles O55: a power-on reset leaves the blank state with its pins, and the halves start from cold one after the other. -/
theorem powerOnReset : Obligations.PowerOnReset := by
  unfold Obligations.PowerOnReset
  refine ⟨fun s => ⟨_, rfl, State.powerOnReset_porst, State.powerOnReset_spec { s with porst := true }⟩,
    fun s => ⟨_, rfl, State.powerOnReset_porst, s.powerOnReset_spec⟩, fun s low => ?_, fun s => porstDeassert_ignored, fun s high off => ?_,
    fun s h => aonSupplyRestored_ignored⟩
  · obtain ⟨ap, pending⟩ := State.coldStarts_rest (s := { s with porst := false })
    exact ⟨_, if_pos low, State.coldStarts_porst, State.coldStarts_cold { s with porst := false }, State.coldStarts_full _, ap, pending⟩
  · obtain ⟨ap, pending⟩ := State.coldStarts_rest (s := s)
    exact ⟨_, aonSupplyRestored_starts high off, State.coldStarts_porst.trans high, s.coldStarts_cold, s.coldStarts_full, ap, pending⟩

end Sys2Proof

section

/-! The proofs of this section are checked one after another: the whole text, elaborated side by side, already takes all the threads that the check allows. -/

set_option Elab.async false

/-! O28: an injection at POINT 0 moves what P_NOW shows away from the profile (R301). -/

namespace Sys2Proof.Machine

/-- Context 0 runs in OPEN with feedback from entry 0, its profile at rest at target 0; a PRBS injection of amplitude 1,000 at POINT 0 has started on it. -/
def injectsOpen : State :=
  let run := (((State.reset.put .BOOT_STATE 0 1).putApp .CTX_EN 0 1).put .CTX_STATE 0 1).putApp .CTX_MODE 0 1
  let fed := { (run.putApp .CTX_FB_SRC 0 0).put .ENT_EN 0 1 with results := [⟨0, 1⟩] }
  (((fed.put .CTX_INJ 0 1).put .LG_TYPE 0 2).put .LG_AMP 0 1000).modGroup 0 fun y => { y with inj := { y.inj with on := true, prbs := 0x7FF } }

/-- What the first clause asks of a context, its state and its source. -/
theorem injectsOpen_samples : (injectsOpen.engineKept (0 : Ctx).group = false ∧ injectsOpen.engineOff (0 : Ctx).group = false
      ∧ injectsOpen.samples276 0 = true ∧ injectsOpen.belowStops 0 = false)
    ∧ (fiSlots (0 : Ctx).group.half).all (fun i => injectsOpen.get .FIS_ACTIVE i == 0) = true
    ∧ (injectsOpen.get .CTX_STATE (0 : Ctx) = 1 ∧ injectsOpen.source 0 (injectsOpen.inUse .CTX_FB_SRC 0) = .ok 0)
    ∧ injectsOpen.inUse .CTX_DEMOD 0 = 0 ∧ injectsOpen.inUse .CTX_MODE 0 = 1 ∧ (injectsOpen.ctx 0).fresh = false := by decide

theorem injectsOpen_rests : (profileStep (injectsOpen.ctx 0).p (injectsOpen.ctx 0).v (injectsOpen.ctx 0).a ((injectsOpen.ctx 0).tgt * 65536)
    (injectsOpen.ctx 0).vmax (injectsOpen.ctx 0).amax (injectsOpen.ctx 0).jmax (injectsOpen.periodMs 0)).1 = 0 := by decide

/-- The sample shows the injected position. -/
theorem exec_loopSample_injectsOpen :
    ∃ u, exec (.loopSample 0) injectsOpen = .next (settle u) ∧ u.get .CTX_P_NOW (0 : Ctx) = 1000 :=
  ⟨_, rfl, by decide +kernel⟩

end Sys2Proof.Machine

namespace Sys2Proof

open Machine

/-- Refutes O28: its first clause has P_NOW show the position of the profile after every sample in OPEN; an injection at POINT 0 adds to the position
that the sample takes and shows (R301, log 186). In `injectsOpen` the profile rests at 0 and P_NOW reads 1,000. -/
theorem not_loopSamples : ¬ Obligations.LoopSamples := by
  rintro ⟨opened, -⟩
  obtain ⟨⟨kept, off, due, below⟩, slots, ⟨runs, source⟩, demod, mode, fresh⟩ := injectsOpen_samples
  obtain ⟨u, hu, injected⟩ := exec_loopSample_injectsOpen
  obtain ⟨t, same, -, shown, moved, -⟩ := exists_same_of_next hu (opened injectsOpen 0 0 kept off due below slots runs source demod mode fresh)
  have rests : (t.ctx 0).pos = 0 := by rw [CtxS.pos, moved.trans injectsOpen_rests]; decide
  rw [same.get _ _ rfl, injected, rests] at shown
  exact absurd shown (by decide)

end Sys2Proof

/-! O29: a hold that times out in a store whose CAUSE does not fit its field. -/

namespace Sys2Proof.SameBut

open Machine

variable {s t : State} (a : SameBut Fld.follows s t)
include a

theorem engineOff (g : Group) : t.engineOff g = s.engineOff g := by
  simp only [State.engineOff, a.groupFenced, a.running, a.groupOf (·.resetting) (fun _ => rfl), a.get .PG_STATE _ rfl]

theorem ctxLane (x : Ctx) : t.ctxLane x = s.ctxLane x := by simp only [State.ctxLane, a.app (f := .CTX_LANE) rfl]

end Sys2Proof.SameBut

namespace Sys2Proof.Machine

/-! ### Settling a loop context leaves STATE and CAUSE of every other -/

section
variable {f : Fld} {x y : Ctx} (hf : f = .CTX_STATE ∨ f = .CTX_CAUSE) (h : y ≠ x) (s : State)

include h in
theorem State.setCtxState_get_of_ne (st c : Nat) : (s.setCtxState y st c).get f x = s.get f x := by
  have ne : (x : Nat) ≠ y := fun e => h (Fin.ext e.symm)
  simp [State.setCtxState, State.get_put, ne]

include h in
theorem State.startCtx_get_of_ne : (s.startCtx y).get f x = s.get f x := by
  rw [State.startCtx, State.modCtx_get, s.setCtxState_get_of_ne h]

include hf

theorem State.endInjection_ctxState : (s.endInjection y).get f x = s.get f x := by
  unfold State.endInjection
  split
  · rcases hf with rfl | rfl <;> simp [State.get_put]
  · rfl

theorem State.capTrigger_ctxState (w : Nat) : (s.capTrigger y w).get f x = s.get f x := by
  unfold State.capTrigger
  extract_lets g pre r r'
  have stored : r.get f x = s.get f x := State.each_kept (P := fun t => t.get f x = s.get f x) _ (fun _ _ p => p) rfl
  split
  · rw [← stored, State.modGroup_get]
    rcases hf with rfl | rfl <;> simp [r', State.get_put]
  · rfl

include h

theorem State.holdExt_get_of_ne (c : Nat) : (s.holdExt y c).get f x = s.get f x := by
  rw [State.holdExt, State.modCtx_get, State.setCtxState_get_of_ne h, State.capTrigger_ctxState hf, State.endInjection_ctxState hf]

theorem State.settleRunning_get_of_ne : (s.settleRunning y).get f x = s.get f x := by
  have ne : (x : Nat) ≠ y := fun e => h (Fin.ext e.symm)
  unfold State.settleRunning
  extract_lets st r st' c c'
  have begun : r.get f x = s.get f x := by
    unfold r
    split
    · exact s.startCtx_get_of_ne h
    · rfl
  rw [← begun]
  clear_value r
  split_ifs
  · exact r.holdExt_get_of_ne hf h c
  · rfl
  · simp [State.get_put, ne]
  · exact r.startCtx_get_of_ne h
  · rw [State.modCtx_get, r.setCtxState_get_of_ne h]
  · rfl

theorem State.settleCtx_get_of_ne : (s.settleCtx y).get f x = s.get f x := by
  unfold State.settleCtx
  split_ifs
  · rfl
  · rw [State.modCtx_get, State.setCtxState_get_of_ne h, State.endInjection_ctxState hf]
  · rfl
  · exact s.settleRunning_get_of_ne hf h

end

/-! ### A context in PARKING stays there -/

/-- R298: a context in PARKING that is enabled, names no lane whose fence could end, and whose group's engine is on. -/
structure State.ParksAlone (s : State) (x : Ctx) : Prop where
  state : s.get .CTX_STATE x = ctxParking
  lane : s.ctxLane x = none
  enabled : s.app .CTX_EN x = 1
  engine : s.engineOff x.group = false

theorem State.settleCtx_of_parksAlone {s : State} {x : Ctx} (p : s.ParksAlone x) : s.settleCtx x = s := by
  have unfenced : s.loopReleased x = false := by simp [State.loopReleased, p.lane]
  unfold State.settleCtx State.settleRunning
  simp [p.state, p.enabled, p.engine, unfenced, ctxOff, ctxRun, ctxHold, ctxParking, ctxParked, ctxExt]

theorem State.ParksAlone.congr {s t : State} {x : Ctx} (p : s.ParksAlone x) (a : SameBut Fld.follows s t)
    (state : t.get .CTX_STATE x = s.get .CTX_STATE x) : t.ParksAlone x :=
  ⟨state.trans p.state, (a.ctxLane x).trans p.lane, (a.app rfl _).trans p.enabled, (a.engineOff _).trans p.engine⟩

/-- The passes up to the lasers leave STATE and CAUSE of the contexts. -/
theorem lasersSettled_ctxState {f : Fld} (hf : f = .CTX_STATE ∨ f = .CTX_CAUSE) (s : State) (i : Nat) : (lasersSettled s).get f i = s.get f i := by
  have K : Kept (fun g _ => g ≠ f) fun t => t.get f i = s.get f i :=
    kept_get (by rcases hf with rfl | rfl <;> rfl) (fun g _ hg e => hg e.1) (· = s.get f i)
  have later (g : Fld) (hg : g.ofPorts = true ∨ g.ofHosts = true ∨ g.ofLanes = true) : g ≠ f := by
    rintro rfl
    rcases hf with rfl | rfl <;> simp [Fld.ofPorts, Fld.ofHosts, Fld.ofLanes] at hg
  have lanes := State.each_kept (P := fun t => t.get f i = s.get f i) allLanes (fun _ l => K.settleLane l fun g hg => later g (.inr (.inr hg))) rfl
  have hosts := State.each_kept (P := fun t => t.get f i = s.get f i) allHlanes (fun _ x => K.settleHost x fun g hg => later g (.inr (.inl hg))) lanes
  exact K.portsToLasers (fun g _ hg => later g (.inl hg)) hosts

theorem State.settleMaps_cause (s : State) (g : Group) (i : Nat) : (s.settleMaps g).get .CTX_CAUSE i = s.get .CTX_CAUSE i := by
  simp [State.settleMaps, State.get_put]

theorem State.settleAlert_cause (s : State) (h : Half) (i : Nat) : (s.settleAlert h).get .CTX_CAUSE i = s.get .CTX_CAUSE i := by
  simp [State.settleAlert, State.get_put]

/-- The end of a step leaves CAUSE of a context that parks alone. -/
theorem settle_cause_of_parksAlone {s : State} {x : Ctx} (p : s.ParksAlone x) : (settle s).get .CTX_CAUSE x = s.get .CTX_CAUSE x := by
  have lasers : SameBut Fld.follows s (lasersSettled s) := (settle_same s).trans (after_lasers_same (lasersSettled s)).symm
  have own : (lasersSettled s).ParksAlone x ∧ (lasersSettled s).get .CTX_CAUSE x = s.get .CTX_CAUSE x :=
    ⟨p.congr lasers (lasersSettled_ctxState (.inl rfl) s x), lasersSettled_ctxState (.inr rfl) s x⟩
  have ctxs := State.each_kept (P := fun t => t.ParksAlone x ∧ t.get .CTX_CAUSE x = s.get .CTX_CAUSE x) (u := State.settleCtx) allCtxs
    (fun t y ⟨parks, cause⟩ => by
      by_cases h : y = x
      · rw [h, State.settleCtx_of_parksAlone parks]
        exact ⟨parks, cause⟩
      · exact ⟨parks.congr (settleCtx_same t y) (t.settleCtx_get_of_ne (.inl rfl) h), (t.settleCtx_get_of_ne (.inr rfl) h).trans cause⟩) own
  have maps := State.each_kept (P := fun t => t.get .CTX_CAUSE x = s.get .CTX_CAUSE x) allGroups (fun t g e => (t.settleMaps_cause g x).trans e) ctxs.2
  rw [settle_eq_after_lasers]
  exact State.each_kept (P := fun t => t.get .CTX_CAUSE x = s.get .CTX_CAUSE x) allHalves (fun t h e => (t.settleAlert_cause h x).trans e) maps

/-! ### The state -/

/-- Context 0 is in HOLD with HOLD_TO 0, names no lane, and the cell of CAUSE, a field of 3 bits, holds 8; the stores are in their canonical
form (`State.wf`), which bounds no value. -/
def holdsOverwide : State :=
  let held := ((((State.reset.put .BOOT_STATE 0 1).putApp .CTX_EN 0 1).putApp .CTX_LANE 0 15).putApp .CTX_HOLD_TO 0 0).put .CTX_STATE 0 2
  { held with f := held.f.insert ⟨.CTX_CAUSE, 0, 8⟩ }

/-- What the end of the hold makes of it: it parks, and the write of CAUSE cuts the 8 to its field. -/
theorem exec_holdTimeout_holdsOverwide :
    ∃ u, exec (.holdTimeout 0) holdsOverwide = .next (settle u) ∧ u.get .CTX_CAUSE (0 : Ctx) = 0 ∧ u.ParksAlone 0 :=
  ⟨_, rfl, by decide, by constructor <;> decide⟩

end Sys2Proof.Machine

namespace Sys2Proof

open Machine

/-- Refutes O29: its first clause has a context that parks keep CAUSE, whatever the store holds there (the fourth clause, of the end of the ramp, reads it
mod 8). In `holdsOverwide` the cell of CAUSE, of 3 bits, holds 8; parking writes STATE and CAUSE together (R298, R304), and the write cuts 8 to 0. The end of
the step leaves a context that parks alone, so no other state before it shows 8 either. -/
theorem not_loopHoldsAndInjection : ¬ Obligations.LoopHoldsAndInjection := by
  rintro ⟨parks, -⟩
  obtain ⟨u, hu, cut, alone⟩ := exec_holdTimeout_holdsOverwide
  obtain ⟨t, ht, state, kept, -⟩ :=
    parks holdsOverwide 0 (by decide) (by decide) (by decide) (by decide) (by decide)
  have settled : settle u = settle t := Host.Outcome.next.inj (hu.symm.trans ht)
  have cause := settle_cause_of_parksAlone (alone.congr (same_of_settle_eq settled) (state.trans alone.state.symm))
  rw [← settled, settle_cause_of_parksAlone alone, cut, kept] at cause
  exact absurd cause (by decide)

end Sys2Proof

end

/-! O30: over-power, SAFE_OFF#, automatic power reduction, and the ceilings of the lasers with their lock. -/

namespace Sys2Proof.Machine

section
variable {s : State} {l : Lane} {h : Half}

/-! ### Host writes, and events that leave the lanes -/

/-- R498 and R536: a half that runs and answers takes a host write. -/
theorem State.hostWrite_of_running (run : s.running h = true) (up : s.answers h = true) (u : State → State) : s.hostWrite h u = u s :=
  if_pos (by rw [run, up]; rfl)

theorem State.raise_lane (k : Half) (e : Ev) : (s.raise k e).lane l = s.lane l :=
  ((Retains.refl (W := Fld.counted) (f := id) (g := id) s).raise (fun _ counted => counted) k e).lane l

theorem State.isSet_of_ne {f : Fld} {i : Nat} (off : s.get f i ≠ 1) : s.isSet f i = false := by simp [State.isSet, off]

theorem State.isSet_of_eq {f : Fld} {i : Nat} (on : s.get f i = 1) : s.isSet f i = true := by simp [State.isSet, on]

/-! ### Over-power shutdown and the bias hold -/

/-- R313: the trip of a lane has latched; the fence follows. -/
def State.tripsOvp (s : State) (l : Lane) : State := ((s.modLane l fun x => { x with ovpTrip := true }).flag .LS_OVP_TRIP l).incSat .LS_OVP_CNT l

theorem State.tripsOvp_lane : (s.tripsOvp l).lane l = { s.lane l with ovpTrip := true } := by
  simp only [State.tripsOvp, State.incSat, State.flag, State.put_lane, State.lane_modLane_self]

theorem State.tripsOvp_flag : (s.tripsOvp l).get .LS_OVP_TRIP l = 1 := by
  rw [State.tripsOvp, State.incSat, State.get_put_of_ne _ (by simp)]
  exact State.get_put_self ..

theorem State.tripsOvp_count : (s.tripsOvp l).get .LS_OVP_CNT l = min (s.get .LS_OVP_CNT l + 1) (2 ^ Fld.width .LS_OVP_CNT - 1) := by
  rw [State.tripsOvp, State.incSat_get, State.flag, State.get_put_of_ne _ (by simp), State.modLane_get]

theorem overPowerTrip_latches {i : Nat} (excess : s.isExcess l i = true) (fresh : (s.lane l).ovpTrip = false) (free : Cause.laserOvp ∉ (s.lane l).fences) :
    Does (.overPowerTrip l i) s fun t => (t.lane l).ovpTrip = true ∧ Cause.laserOvp ∈ (t.lane l).fences ∧ t.get .LS_OVP_TRIP l = 1
      ∧ t.get .LS_OVP_CNT l = min (s.get .LS_OVP_CNT l + 1) (2 ^ Fld.width .LS_OVP_CNT - 1) := by
  have unfenced : Cause.laserOvp ∉ ((s.tripsOvp l).lane l).fences := by rwa [State.tripsOvp_lane]
  have fenced : ((s.tripsOvp l).fenceIn (.lane l) .laserOvp).lane l = _ := (State.fenceIn_lane_retains unfenced).lane l
  refine ⟨(s.tripsOvp l).fenceIn (.lane l) .laserOvp, if_pos ⟨excess, by simp [fresh]⟩, ?_, State.mem_fenceIn_lane,
    (State.fenceIn_lane_get rfl _).trans State.tripsOvp_flag, (State.fenceIn_lane_get rfl _).trans State.tripsOvp_count⟩
  rw [fenced, id, State.lane_modLane_self, State.tripsOvp_lane]

theorem overPowerTrip_below {i : Nat} (below : s.isExcess l i = false) : exec (.overPowerTrip l i) s = .next (settle s) :=
  if_neg (by simp [below])

theorem biasHoldEnd_frees (held : (s.lane l).biasHold = true) (passed : (s.lane l).clk.biasAt + 2500 ≤ (s.half l.half).aon) :
    Does (.biasHoldEnd l) s fun t => (t.lane l).biasHold = false ∧ t.get .CD_FORCED0 (s.laserCd l) = 0 ∧ Frame [] s t :=
  ⟨_, if_pos ⟨held, passed⟩, by rw [State.put_lane, State.lane_modLane_self], State.get_put_self .., ((Frame.refl _ s).modLane _ _).put (.inr rfl) _⟩

/-! ### SAFE_OFF# -/

theorem safeOffAssert_holds (high : s.get .LSH_SOFF_PIN h = 1) : Does (.safeOffAssert h) s fun t =>
    t.get .LSH_SOFF_PIN h = 0 ∧ t.get .LSH_SOFF_HELD h = 1 ∧ t.get .LSH_SOFF_CNT h = min (s.get .LSH_SOFF_CNT h + 1) (2 ^ Fld.width .LSH_SOFF_CNT - 1)
      ∧ Frame [(.LSH_SOFF_PIN, h), (.LSH_SOFF_HELD, h), (.LSH_SOFF_CNT, h)] s t := by
  refine ⟨_, if_pos (State.isSet_of_eq high), ?_, ?_, ?_,
    ((((Frame.refl _ s).put (.inl (by simp)) _).put (.inl (by simp)) _).incSat (.inl (by simp)) _).raise _ _⟩
  · rw [raise_get rfl, State.incSat, State.get_put_of_ne _ (by simp), State.get_put_of_ne _ (by simp), State.get_put_self, Nat.zero_mod]
  · rw [raise_get rfl, State.incSat, State.get_put_of_ne _ (by simp)]
    exact State.get_put_self ..
  · rw [raise_get rfl, State.incSat_get, State.get_put_of_ne _ (by simp), State.get_put_of_ne _ (by simp)]

/-- R315: SAFE_OFF# is seen high. -/
def State.seesSafe (s : State) (h : Half) : State := (s.put .LSH_SOFF_PIN h 1).modHalf h fun y => { y with soffAt := y.aon }

theorem State.seesSafe_pin : (s.seesSafe h).get .LSH_SOFF_PIN h = 1 := by
  rw [State.seesSafe, State.modHalf_get]
  exact State.get_put_self ..

theorem State.seesSafe_held : (s.seesSafe h).get .LSH_SOFF_HELD h = s.get .LSH_SOFF_HELD h := by
  rw [State.seesSafe, State.modHalf_get, State.get_put_of_ne _ (by simp)]

theorem State.seesSafe_soffAt : ((settle (s.seesSafe h)).half h).soffAt = (s.half h).aon := by
  rw [(settle_same _).ofHalf (·.soffAt) fun _ => rfl, State.seesSafe, State.half_modHalf_self, State.put_half]

theorem State.seesSafe_frame : Frame [(.LSH_SOFF_PIN, h.val)] s (s.seesSafe h) := ((Frame.refl _ s).put (.inl (by simp)) _).modHalf _ _

theorem safeOffDeassert_seen : Answers (.safeOffDeassert h) s fun t => t.get .LSH_SOFF_PIN h = 1
    ∧ (s.get .LSH_SOFF_PIN h ≠ 1 → (t.half h).soffAt = (s.half h).aon) ∧ t.get .LSH_SOFF_HELD h = s.get .LSH_SOFF_HELD h
    ∧ Frame [(.LSH_SOFF_PIN, h)] s t := by
  by_cases high : s.get .LSH_SOFF_PIN h = 1
  · exact ⟨settle s, congrArg done (if_pos (State.isSet_of_eq high)), (settle_get rfl _ _).trans high, (absurd high ·), settle_get rfl _ _,
      (Frame.refl _ _).settle⟩
  · exact ⟨settle (s.seesSafe h), congrArg done (if_neg (by simp [State.isSet_of_ne high])), (settle_get rfl _ _).trans State.seesSafe_pin,
      fun _ => State.seesSafe_soffAt, (settle_get rfl _ _).trans State.seesSafe_held, State.seesSafe_frame.settle⟩

/-- R315: a release of the lasers that SAFE_OFF# held. -/
theorem releasesLasers : (settle (s.put .LSH_SOFF_HELD h 0)).get .LSH_SOFF_HELD h = 0 ∧ Frame [(.LSH_SOFF_HELD, h)] s (settle (s.put .LSH_SOFF_HELD h 0)) :=
  ⟨by rw [settle_get rfl, State.get_put_self, Nat.zero_mod], ((Frame.refl _ s).put (.inl (by simp)) _).settle⟩

theorem safeOffAutoRelease_releases (high : s.get .LSH_SOFF_PIN h = 1) (auto : s.get .LSH_SOFF_RESUME h = 1)
    (passed : (s.half h).soffAt + msTicks 1 ≤ (s.half h).aon) :
    Answers (.safeOffAutoRelease h) s fun t => t.get .LSH_SOFF_HELD h = 0 ∧ Frame [(.LSH_SOFF_HELD, h)] s t :=
  ⟨_, if_pos ⟨State.isSet_of_eq high, State.isSet_of_eq auto, passed⟩, releasesLasers⟩

theorem safeOffResumeWrite_releases (run : s.running h = true) (up : s.answers h = true) (high : s.get .LSH_SOFF_PIN h = 1)
    (manual : s.get .LSH_SOFF_RESUME h ≠ 1) :
    Answers (.safeOffResumeWrite h 1) s fun t => t.get .LSH_SOFF_HELD h = 0 ∧ Frame [(.LSH_SOFF_HELD, h)] s t := by
  refine ⟨_, congrArg done ((State.hostWrite_of_running run up _).trans (if_pos ⟨by decide, State.isSet_of_eq high, ?_⟩)), releasesLasers⟩
  simp [State.isSet_of_ne manual]

theorem safeOffResumeWrite_low (low : s.get .LSH_SOFF_PIN h ≠ 1) : exec (.safeOffResumeWrite h 1) s = .next (settle s) := by
  have stays : s.resumeWrite h (1 : W32).toNat = s := if_neg (by simp [State.isSet_of_ne low])
  change done (s.hostWrite h fun s => s.resumeWrite h (1 : W32).toNat) = _
  rw [State.hostWrite, stays, ite_self]
  rfl

/-! ### Automatic power reduction -/

theorem State.enterAprHold_lane : (s.enterAprHold l).lane l
    = { s.lane l with apr := .hold, aprLow := false, clk := { (s.lane l).clk with aprAt := (s.half l.half).aon } } := by
  simp only [State.enterAprHold, State.raise_lane, State.incSat, State.flag, State.put_lane, State.lane_modLane_self]

theorem State.enterAprHold_flag : (s.enterAprHold l).get .LS_APR_IN l = 1 := by
  rw [State.enterAprHold, raise_get rfl, State.incSat, State.get_put_of_ne _ (by simp)]
  exact State.get_put_self ..

theorem State.enterAprHold_count : (s.enterAprHold l).get .LS_APR_CNT l = min (s.get .LS_APR_CNT l + 1) (2 ^ Fld.width .LS_APR_CNT - 1) := by
  rw [State.enterAprHold, raise_get rfl, State.incSat_get, State.flag, State.get_put_of_ne _ (by simp), State.modLane_get]

theorem State.enterAprHold_frame : Frame [(.LS_APR_IN, l), (.LS_APR_CNT, l)] s (s.enterAprHold l) :=
  ((((Frame.refl _ s).modLane _ _).flag (.inl (by simp))).incSat (.inl (by simp)) _).raise _ _

theorem aprHoldEntry_enters (runs : s.aprRuns l = true) (dark : s.get .FE_SIG_DET l ≠ 1) (off : (s.lane l).apr = .off)
    (long : (s.lane l).clk.darkAt.any (fun t => s.aprOver l t 500) = true) : Does (.aprHoldEntry l) s fun t =>
      (t.lane l).apr = .hold ∧ (t.lane l).aprLow = false ∧ (t.lane l).pulseAt = (s.half l.half).aon ∧ (t.lane l).clk.aprAt = (s.half l.half).aon
        ∧ t.get .LS_APR_IN l = 1 ∧ t.get .LS_APR_CNT l = min (s.get .LS_APR_CNT l + 1) (2 ^ Fld.width .LS_APR_CNT - 1)
        ∧ Frame [(.LS_APR_IN, l), (.LS_APR_CNT, l)] s t := by
  refine ⟨_, if_pos ⟨runs, by simp [State.isSet_of_ne dark], off, long⟩, ?_⟩
  beta_reduce
  rw [State.lane_modLane_self, State.enterAprHold_lane]
  exact ⟨rfl, rfl, rfl, rfl, State.enterAprHold_flag, State.enterAprHold_count, State.enterAprHold_frame.modLane _ _⟩

theorem aprThresholdLower_lowers (hold : (s.lane l).apr = .hold) (mode : s.app .LS_APR_MODE l = 1)
    (passed : s.aprOver l (s.lane l).clk.aprAt 50 = true) : Does (.aprThresholdLower l) s fun t =>
      (t.lane l).aprLow = true ∧ (t.lane l).apr = .hold ∧ Frame [] s t := by
  refine ⟨_, if_pos ⟨hold, by simp [State.appSet, mode], passed⟩, ?_⟩
  beta_reduce
  rw [State.lane_modLane_self]
  exact ⟨rfl, hold, (Frame.refl _ s).modLane _ _⟩

theorem aprRestartPulse_starts (reduced : (s.lane l).apr = .hold ∨ (s.lane l).apr = .pulse) (passed : s.aprOver l (s.lane l).pulseAt 100000 = true) :
    Does (.aprRestartPulse l) s fun t =>
      (t.lane l).apr = .pulse ∧ (t.lane l).aprLow = false ∧ (t.lane l).pulseAt = (s.half l.half).aon ∧ Frame [] s t := by
  have on : (s.lane l).apr ≠ .off := by rcases reduced with e | e <;> simp [e]
  refine ⟨_, if_pos ⟨on, passed⟩, ?_⟩
  beta_reduce
  rw [State.lane_modLane_self, State.startPulse, State.lane_modLane_self]
  exact ⟨rfl, rfl, rfl, ((Frame.refl _ s).modLane _ _).modLane _ _⟩

theorem aprPulseEnd_holds (pulse : (s.lane l).apr = .pulse) (passed : s.aprOver l (s.lane l).clk.aprAt 2000 = true) : Does (.aprPulseEnd l) s fun t =>
    (t.lane l).apr = .hold ∧ t.get .LS_APR_IN l = 1 ∧ (t.lane l).pulseAt = (s.lane l).pulseAt ∧ Frame [(.LS_APR_IN, l), (.LS_APR_CNT, l)] s t := by
  refine ⟨_, if_pos ⟨pulse, passed⟩, ?_⟩
  beta_reduce
  rw [State.enterAprHold_lane]
  exact ⟨rfl, State.enterAprHold_flag, rfl, State.enterAprHold_frame⟩

/-! ### Ceilings and their lock -/

/-- R321: the word of a lane's ceilings. -/
theorem slots_lsCeil : ∀ l : Lane, slots l.half (laneOff l 0xD000 0x20 0)
    = [⟨.LS_LASER_CD, l, 24, 0⟩, ⟨.LS_BIAS_CEIL, l, 12, 0⟩, ⟨.LS_PWR_CEIL, l, 0, 0⟩] := by
  decide +kernel

/-- R322: the word of SOFF_RESUME and LOCK. -/
theorem slots_lsLock : ∀ h : Half, slots h 0x70800 = [⟨.LSH_SOFF_RESUME, h, 1, 0⟩, ⟨.LSH_LOCK, h, 0, 0⟩] := by decide +kernel

/-- A field that a host write of its word sets: no shadow field, RW, or RWL while its lock is open (R9). -/
def State.sets (s : State) (h : Half) (f : Fld) : Prop :=
  f.info.shadow = false ∧ (f.info.acc = .rw ∨ f.info.acc = .rwl ∧ s.locked h f = false)

theorem State.setWord_of_sets {fs : List Slot} (sets : ∀ x ∈ fs, s.sets h x.fld) (v : Nat) :
    s.setWord h fs v = s.each fs fun t x => t.put x.fld x.idx (x.value v) :=
  List.foldl_ext _ _ _ fun t x own => by
    obtain ⟨plain, readWrite | ⟨rwl, free⟩⟩ := sets x own
    · simp [readWrite, plain]
    · simp [rwl, free]

/-- R9 to R11: a host write of fields that it sets, each in its range. -/
theorem State.writeWord_of_sets {off v : Nat} (sets : ∀ x ∈ slots h off, s.sets h x.fld) (range : ∀ x ∈ slots h off, x.fld.inRange (x.value v) = true) :
    s.writeWord h off v = s.each (slots h off) fun t x => t.put x.fld x.idx (x.value v) := by
  have good : s.wordBad h off v = false := by
    rw [State.wordBad, List.any_eq_false]
    intro x own
    simp [range x own]
  have free : (slots h off).any (fun x => x.fld.info.acc == .rwl && s.locked h x.fld) = false := by
    rw [List.any_eq_false]
    intro x own
    obtain ⟨-, readWrite | ⟨-, free⟩⟩ := sets x own
    · simp [readWrite]
    · simp [free]
  rw [State.writeWord, good, free, State.setWord_of_sets sets]
  rfl

theorem lsCeilWrite_locked {v : W32} (run : s.running l.half = true) (up : s.answers l.half = true) (lock : s.get .LSH_LOCK l.half = 1) :
    Answers (.lsCeilWrite l v) s fun t => Frame [] s t :=
  ⟨_, congrArg done ((State.hostWrite_of_running run up _).trans (if_pos (State.isSet_of_eq lock))), ((Frame.refl _ s).raise _ _).settle⟩

/-- R321: the ceilings of a lane are written. -/
def State.setsCeils (s : State) (l : Lane) (v : Nat) : State :=
  ((s.put .LS_LASER_CD l (v / 2 ^ 24 % 2 ^ 8)).put .LS_BIAS_CEIL l (v / 2 ^ 12 % 2 ^ 12)).put .LS_PWR_CEIL l (v / 2 ^ 0 % 2 ^ 12)

theorem State.writeWord_lsCeil (unlocked : s.get .LSH_LOCK l.half ≠ 1) (v : Nat) : s.writeWord l.half (laneOff l 0xD000 0x20 0) v = s.setsCeils l v := by
  have free : s.isSet .LSH_LOCK l.half = false := State.isSet_of_ne unlocked
  rw [State.writeWord_of_sets, slots_lsCeil]
  · rfl
  · simp only [slots_lsCeil, List.forall_mem_cons]
    exact ⟨⟨rfl, .inr ⟨rfl, free⟩⟩, ⟨rfl, .inr ⟨rfl, free⟩⟩, ⟨rfl, .inr ⟨rfl, free⟩⟩, nofun⟩
  · simp only [slots_lsCeil, List.forall_mem_cons]
    exact ⟨rfl, rfl, rfl, nofun⟩

theorem State.setsCeils_cd (v : Nat) : (s.setsCeils l v).get .LS_LASER_CD l = v / 2 ^ 24 % 2 ^ 8 := by
  rw [State.setsCeils, State.get_put_of_ne _ (by simp), State.get_put_of_ne _ (by simp), State.get_put_self]
  exact Nat.mod_mod _ _

theorem State.setsCeils_bias (v : Nat) : (s.setsCeils l v).get .LS_BIAS_CEIL l = v / 2 ^ 12 % 2 ^ 12 := by
  rw [State.setsCeils, State.get_put_of_ne _ (by simp), State.get_put_self]
  exact Nat.mod_mod _ _

theorem State.setsCeils_power (v : Nat) : (s.setsCeils l v).get .LS_PWR_CEIL l = v % 2 ^ 12 := by
  rw [State.setsCeils, State.get_put_self, pow_zero, Nat.div_one]
  exact Nat.mod_mod _ _

/-- R312: a write that names the lane's channel again. -/
theorem State.ceilWrite_sets {v : Nat} (unlocked : s.get .LSH_LOCK l.half ≠ 1) (same : v / 2 ^ 24 = s.laserCd l) (ok : s.laserCdOk l (s.laserCd l) = true) :
    s.ceilWrite l v = s.setsCeils l v := by
  have short : v / 2 ^ 24 % 2 ^ 8 = v / 2 ^ 24 := by
    have := (s.laserCd l).isLt
    omega
  have mayName : s.laserCdOk l (v / 2 ^ 24 % 256) = true := (congrArg (s.laserCdOk l) (short.trans same)).trans ok
  have stays : (s.setsCeils l v).laserCd l = s.laserCd l := by
    apply Fin.ext
    change (s.setsCeils l v).get .LS_LASER_CD l % 160 = _
    rw [State.setsCeils_cd, short, same, Nat.mod_eq_of_lt (s.laserCd l).isLt]
  rw [State.ceilWrite, if_neg (by simp [State.isSet_of_ne unlocked]), if_neg (by rw [mayName]; decide), State.writeWord_lsCeil unlocked, if_pos stays]

theorem lsCeilWrite_sets {v : W32} (run : s.running l.half = true) (up : s.answers l.half = true) (unlocked : s.get .LSH_LOCK l.half ≠ 1)
    (same : v.toNat / 2 ^ 24 = s.laserCd l) (ok : s.laserCdOk l (s.laserCd l) = true) : Answers (.lsCeilWrite l v) s fun t =>
      t.get .LS_BIAS_CEIL l = v.toNat / 2 ^ 12 % 2 ^ 12 ∧ t.get .LS_PWR_CEIL l = v.toNat % 2 ^ 12 ∧ t.get .LS_LASER_CD l = v.toNat / 2 ^ 24 := by
  refine ⟨settle (s.setsCeils l v.toNat), congrArg done ((State.hostWrite_of_running run up _).trans (State.ceilWrite_sets unlocked same ok)),
    (settle_get rfl _ _).trans (State.setsCeils_bias _), (settle_get rfl _ _).trans (State.setsCeils_power _), (settle_get rfl _ _).trans ?_⟩
  rw [State.setsCeils_cd, Nat.mod_eq_of_lt]
  have := v.isLt
  omega

theorem State.writeWord_lsLock (unlocked : s.get .LSH_LOCK h ≠ 1) (v : Nat) :
    s.writeWord h 0x70800 v = (s.put .LSH_SOFF_RESUME h (v / 2 ^ 1 % 2 ^ 1)).put .LSH_LOCK h (v / 2 ^ 0 % 2 ^ 1) := by
  have free : s.isSet .LSH_LOCK h = false := State.isSet_of_ne unlocked
  rw [State.writeWord_of_sets, slots_lsLock]
  · rfl
  · simp only [slots_lsLock, List.forall_mem_cons]
    exact ⟨⟨rfl, .inr ⟨rfl, free⟩⟩, ⟨rfl, .inr ⟨rfl, free⟩⟩, nofun⟩
  · simp only [slots_lsLock, List.forall_mem_cons]
    exact ⟨rfl, rfl, nofun⟩

theorem lsLockWrite_locks (run : s.running h = true) (up : s.answers h = true) (unlocked : s.get .LSH_LOCK h ≠ 1) : Answers (.lsLockWrite h 3) s fun t =>
    t.get .LSH_LOCK h = 1 ∧ t.get .LSH_SOFF_RESUME h = 1 ∧ Frame [(.LSH_LOCK, h), (.LSH_SOFF_RESUME, h)] s t := by
  refine ⟨_, congrArg done ((State.hostWrite_of_running run up _).trans (State.writeWord_lsLock unlocked _)), ?_, ?_,
    (((Frame.refl _ s).put (.inl (by simp)) _).put (.inl (by simp)) _).settle⟩
  · rw [settle_get rfl, State.get_put_self]
    rfl
  · rw [settle_get rfl, State.get_put_of_ne _ (by simp), State.get_put_self]
    rfl

end
end Sys2Proof.Machine

namespace Sys2Proof

open Machine

/-- Settles O30: the trip, SAFE_OFF#, automatic power reduction and the words of the ceilings and the lock, clause by clause. -/
theorem laserCommands : Obligations.LaserCommands := by
  unfold Obligations.LaserCommands
  exact ⟨fun s l i => overPowerTrip_latches, fun s l i => overPowerTrip_below, fun s l => biasHoldEnd_frees, fun s h => safeOffAssert_holds,
    fun s h => safeOffDeassert_seen, fun s h => safeOffAutoRelease_releases, fun s h => safeOffResumeWrite_releases, fun s h => safeOffResumeWrite_low,
    fun s l => aprHoldEntry_enters, fun s l => aprThresholdLower_lowers, fun s l => aprRestartPulse_starts, fun s l => aprPulseEnd_holds,
    fun s l v => lsCeilWrite_locked, fun s l v => lsCeilWrite_sets, fun s h => lsLockWrite_locks⟩

end Sys2Proof

/-! O34: control DAC channels. What steers a channel stays while other channels move. -/

namespace Sys2Proof.Machine

/-! ### The supply-current step -/

section
variable {limit : Nat} {ds : List Draw}

/-- R342: raising changes the wanted code and the held mark only. -/
theorem raiseDraws_map {α : Type} {f : Draw → α} (hf : ∀ d w b, f { d with want := w, held := b } = f d) (sum : Nat) :
    (raiseDraws limit ds sum).map f = ds.map f := by
  induction ds generalizing sum with
  | nil => rfl
  | cons d ds ih =>
    rw [raiseDraws]
    split
    · simp [ih]
    · simp [ih, hf]

theorem lowerDraws_map {α : Type} {f : Draw → α} (hf : ∀ d w b, f { d with want := w, held := b } = f d) (sum : Nat) :
    (lowerDraws limit ds sum).map f = ds.map f := by
  induction ds generalizing sum with
  | nil => rfl
  | cons d ds ih =>
    rw [lowerDraws]
    split
    · simp [ih]
    · simp [ih, hf]

theorem settleDraws_chan : (settleDraws limit ds).map (·.chan) = ds.map (·.chan) := by
  rw [settleDraws, List.map_reverse, lowerDraws_map fun _ _ _ => rfl, List.map_reverse, List.reverse_reverse, raiseDraws_map fun _ _ _ => rfl]

/-- R341 and R342: a channel that an override or a hold fixes, or that draws nothing, takes the code it wants. -/
theorem mem_raiseDraws {d : Draw} (own : d ∈ ds) (stays : d.fixed = true ∨ d.weight = 0) (sum : Nat) : d ∈ raiseDraws limit ds sum := by
  induction ds generalizing sum with
  | nil => contradiction
  | cons e ds ih =>
    rw [raiseDraws]
    rcases List.mem_cons.1 own with rfl | own
    · rw [if_pos (by tauto)]
      exact List.mem_cons_self
    · split
      · exact List.mem_cons_of_mem _ (ih own _)
      · exact List.mem_cons_of_mem _ (ih own _)

theorem mem_lowerDraws {d : Draw} (own : d ∈ ds) (stays : d.fixed = true ∨ d.weight = 0) (sum : Nat) : d ∈ lowerDraws limit ds sum := by
  induction ds generalizing sum with
  | nil => contradiction
  | cons e ds ih =>
    rw [lowerDraws]
    rcases List.mem_cons.1 own with rfl | own
    · rw [if_pos (by tauto)]
      exact List.mem_cons_self
    · split
      · exact List.mem_cons_of_mem _ (ih own _)
      · exact List.mem_cons_of_mem _ (ih own _)

theorem mem_settleDraws {d : Draw} (own : d ∈ ds) (stays : d.fixed = true ∨ d.weight = 0) : d ∈ settleDraws limit ds :=
  List.mem_reverse.2 (mem_lowerDraws (List.mem_reverse.2 (mem_raiseDraws own stays _)) stays _)

theorem drawSum_cons (f : Draw → Nat) (d : Draw) : drawSum f (d :: ds) = f d * d.weight + drawSum f ds := by simp [drawSum]

theorem drawSum_reverse (f : Draw → Nat) : drawSum f ds.reverse = drawSum f ds := by simp [drawSum, List.sum_reverse]

/-- R342: the cut of a channel ends the excess, or takes the channel to 0. -/
theorem excess_le_cut {excess weight : Nat} (draws : weight ≠ 0) (want : Nat) :
    want ≤ (excess + weight - 1) / weight ∨ excess ≤ min want ((excess + weight - 1) / weight) * weight := by
  refine (le_total want _).imp_right fun enough => ?_
  rw [Nat.min_eq_right enough, Nat.mul_comm]
  have := Nat.lt_mul_div_succ (excess + weight - 1) (Nat.pos_of_ne_zero draws)
  rw [Nat.mul_succ] at this
  omega

/-- The sum still to be lowered is that of the channels left and of those before them, `rest`, which are within the budget: either the whole
sum is within it, or each channel before has gone to 0. -/
theorem drawSum_lowerDraws (free : ∀ d ∈ ds, d.fixed = false) {rest : Nat} (within : rest ≤ limit) :
    drawSum (·.want) (lowerDraws limit ds (rest + drawSum (·.want) ds)) + rest ≤ limit := by
  induction ds generalizing rest with
  | nil => simpa [lowerDraws, drawSum] using within
  | cons d ds ih =>
    have others : ∀ e ∈ ds, e.fixed = false := fun e own => free e (List.mem_cons_of_mem _ own)
    rw [drawSum_cons, lowerDraws]
    split
    · next kept =>
      have within' : rest + d.want * d.weight ≤ limit := by
        rcases kept with below | none | fixed
        · omega
        · simpa [none] using within
        · simp [free d List.mem_cons_self] at fixed
      have lowered := ih others within'
      rw [Nat.add_assoc] at lowered
      rw [drawSum_cons]
      omega
    · next moved =>
      extract_lets excess cut
      have below : cut * d.weight ≤ d.want * d.weight := Nat.mul_le_mul_right _ (Nat.min_le_left _ _)
      have left : (d.want - cut) * d.weight = d.want * d.weight - cut * d.weight := Nat.sub_mul _ _ _
      have within' : rest + (d.want - cut) * d.weight ≤ limit := by
        rcases excess_le_cut (excess := excess) (fun none => moved (.inr (.inl none))) d.want with all | ends
        · rw [show cut = d.want from Nat.min_eq_left all, Nat.sub_self, Nat.zero_mul]
          exact within
        · have ends : excess ≤ cut * d.weight := ends
          omega
      have lowered := ih others within'
      rw [show rest + (d.want * d.weight + drawSum (·.want) ds) - cut * d.weight = rest + (d.want - cut) * d.weight + drawSum (·.want) ds by omega,
        drawSum_cons]
      change (d.want - cut) * d.weight + _ + rest ≤ limit
      omega

/-- R342: a set with no channel fixed draws no more than its budget. -/
theorem drawSum_settleDraws (free : ∀ d ∈ ds, d.fixed = false) : drawSum (·.want) (settleDraws limit ds) ≤ limit := by
  have raised (sum : Nat) : ∀ d ∈ (raiseDraws limit ds sum).reverse, d.fixed = false := fun d own => by
    have fixed := List.mem_map_of_mem (f := (·.fixed)) (List.mem_reverse.1 own)
    rw [raiseDraws_map fun _ _ _ => rfl] at fixed
    obtain ⟨e, own, same⟩ := List.mem_map.1 fixed
    exact same.symm.trans (free e own)
  rw [settleDraws, drawSum_reverse, ← drawSum_reverse (ds := raiseDraws _ _ _)]
  simpa using drawSum_lowerDraws (raised _) (Nat.zero_le limit)

end
/-! ### What steers a channel -/

/-- The fields that the updates of channels write. -/
def Fld.ofChans (f : Fld) : Bool := f.info.blk == .CD || f == .BUD_USED || f == .CTX_CEIL

/-- All that steers the channels but their own fields is as before: ceilings and enables of the lasers, pins, fences, power states. -/
structure SteeredAlike (s t : State) : Prop where
  get : ∀ f i, f.ofChans = false → t.get f i = s.get f i
  hold : ∀ l, (t.lane l).biasHold = (s.lane l).biasHold
  group : ∀ g, (t.group g).fences = (s.group g).fences
  half : ∀ h, (t.half h).fences = (s.half h).fences
  porst : t.porst = s.porst

section
variable {s t r : State} {c d : Chan} {h : Half}

namespace SteeredAlike

theorem refl (s : State) : SteeredAlike s s := ⟨fun _ _ _ => rfl, fun _ => rfl, fun _ => rfl, fun _ => rfl, rfl⟩

theorem trans (a : SteeredAlike s t) (b : SteeredAlike t r) : SteeredAlike s r :=
  ⟨fun f i k => (b.get f i k).trans (a.get f i k), fun l => (b.hold l).trans (a.hold l), fun g => (b.group g).trans (a.group g),
    fun k => (b.half k).trans (a.half k), b.porst.trans a.porst⟩

section
variable (a : SteeredAlike s t)
include a

theorem put {g : Fld} (own : g.ofChans = true) (j v : Nat) : SteeredAlike s (t.put g j v) :=
  { a with get := fun f i k => (State.get_put_of_ne t (fun e => by simp [e, own] at k) i j v).trans (a.get f i k) }

theorem modChan (d : Chan) (u : ChanS → ChanS) : SteeredAlike s (t.modChan d u) := { a with }

theorem laserOf : t.laserOf c = s.laserOf c := by
  simp only [State.laserOf, State.laserCd, a.get .LS_LASER_CD _ rfl]

theorem groupFenced (g : Group) : t.groupFenced g = s.groupFenced g := by simp only [State.groupFenced, a.group, a.half]

theorem overrideOf : t.overrideOf c = s.overrideOf c := by
  simp only [State.overrideOf, State.isSet, a.laserOf, a.hold, a.porst, a.groupFenced, a.half, a.get .LS_LASEN _ rfl, a.get .CLRH_CLR_PIN _ rfl,
    a.get .PG_STATE _ rfl]
  rfl

theorem engineKept (g : Group) : t.engineKept g = s.engineKept g := by
  simp only [State.engineKept, State.notYetStopped, a.get .PG_STATE _ rfl, a.get .PG_HS_BLOCK _ rfl]

theorem clearCode (own : t.get .CD_CLR_CODE c = s.get .CD_CLR_CODE c) : t.clearCode c = s.clearCode c := by
  simp only [State.clearCode, a.laserOf, own]

theorem clamped (own : t.get .CD_REQ c = s.get .CD_REQ c) : t.clamped c = s.clamped c := by
  simp only [State.clamped, a.laserOf, a.get .LS_BIAS_CEIL _ rfl, own]

theorem chanHeld (own : t.get .CD_HIZ c = s.get .CD_HIZ c) (chan : t.chan c = s.chan c) : t.chanHeld c = s.chanHeld c := by
  simp only [State.chanHeld, State.isSet, a.engineKept, own, chan]

end
end SteeredAlike

/-- All that concerns a channel is as before: what steers it, its own fields, and its state. -/
structure Apart (c : Chan) (s t : State) : Prop extends SteeredAlike s t where
  own : ∀ f, f.info.blk = .CD → t.get f c = s.get f c
  chan : t.chan c = s.chan c

namespace Apart

theorem refl (c : Chan) (s : State) : Apart c s s := ⟨.refl s, fun _ _ => rfl, rfl⟩

theorem trans (a : Apart c s t) (b : Apart c t r) : Apart c s r :=
  ⟨a.toSteeredAlike.trans b.toSteeredAlike, fun f k => (b.own f k).trans (a.own f k), b.chan.trans a.chan⟩

section
variable (a : Apart c s t)
include a

/-- A write of another channel's field. -/
theorem put {g : Fld} (own : g.ofChans = true) (other : d ≠ c) (v : Nat) : Apart c s (t.put g d v) :=
  { a.toSteeredAlike.put own d v, a with
    own := fun f k => by
      rw [State.get_put, if_neg (fun e => other (Fin.ext e.2.symm)), a.own f k] }

/-- A write of a field that is no channel's. -/
theorem putOut {g : Fld} (own : g.ofChans = true) (free : g.info.blk ≠ .CD) (j v : Nat) : Apart c s (t.put g j v) :=
  { a.toSteeredAlike.put own j v, a with
    own := fun f k => (State.get_put_of_ne t (fun e => free (by rw [← e, k])) _ j v).trans (a.own f k) }

theorem modChan (other : d ≠ c) (u : ChanS → ChanS) : Apart c s (t.modChan d u) :=
  { a with chan := by rw [State.chan_modChan, if_neg other.symm, a.chan] }

theorem clamped : t.clamped c = s.clamped c := a.toSteeredAlike.clamped (a.own .CD_REQ rfl)

theorem clearCode : t.clearCode c = s.clearCode c := a.toSteeredAlike.clearCode (a.own .CD_CLR_CODE rfl)

theorem chanHeld : t.chanHeld c = s.chanHeld c := a.toSteeredAlike.chanHeld (a.own .CD_HIZ rfl) a.chan

theorem weight : t.weight c = s.weight c := by rw [State.weight, a.chan, State.weight]

theorem forceBias (other : d ≠ c) : Apart c s (t.forceBias d) := ((a.put rfl other _).put rfl other _).modChan other _

theorem override (other : d ≠ c) : Apart c s (t.override d) := by
  unfold State.override
  split
  · exact a.forceBias other
  · exact (((a.put rfl other _).put rfl other _).put rfl other _).modChan other _
  · exact a.put rfl other _

theorem setOut {x : Draw} (other : x.chan ≠ c) : Apart c s (t.setOut x) :=
  ((((a.modChan other _).put rfl other _).put rfl other _).put rfl other _).put rfl other _

end
end Apart

/-- A fold over distinct units: the step of one of them, between steps of others that keep all that a relation says. -/
theorem State.each_own {α : Type} {R : State → State → Prop} (refl : ∀ s, R s s) (trans : ∀ {s t r}, R s t → R t r → R s r)
    {u : State → α → State} {xs : List α} {x : α} (hx : x ∈ xs) (once : xs.Nodup) (others : ∀ t, ∀ y ∈ xs, y ≠ x → R t (u t y)) (s : State) :
    ∃ t, R s t ∧ R (u t x) (s.each xs u) := by
  induction xs generalizing s with
  | nil => contradiction
  | cons y ys ih =>
    obtain ⟨new, once⟩ := List.nodup_cons.1 once
    rcases List.mem_cons.1 hx with rfl | hx
    · exact ⟨s, refl s, State.each_keeps (xs := ys) (P := R (u s x))
        (fun t z own p => trans p (others t z (List.mem_cons_of_mem _ own) fun e => new (e ▸ own))) (refl (u s x))⟩
    · obtain ⟨t, before, after⟩ := ih hx once (fun t z own => others t z (List.mem_cons_of_mem _ own)) (u s y)
      exact ⟨t, trans (others s y List.mem_cons_self fun e => new (e ▸ hx)) before, after⟩

theorem Chan.mem_chans (c : Chan) : c ∈ c.half.chans := by
  revert c
  decide +kernel

theorem Half.chans_nodup : ∀ h : Half, h.chans.Nodup := by decide +kernel

/-- A fold over the channels of a half whose steps keep to their own channel. -/
theorem Apart.each_own {u : State → Chan → State} (own : c.half = h) (others : ∀ t d, d ≠ c → Apart c t (u t d)) (s : State) :
    ∃ t, Apart c s t ∧ Apart c (u t c) (s.each h.chans u) :=
  State.each_own (Apart.refl c) Apart.trans (own ▸ Chan.mem_chans c) (Half.chans_nodup h) (fun t d _ => others t d) s

/-! ### The update of every 1 µs -/

/-- R341 and R342: what a channel brings to the supply-current step of its set. -/
def State.drawOf (s : State) (c : Chan) : Draw :=
  let fixed := s.overrideOf c != .none || s.chanHeld c
  let old := s.get .CD_OUT c
  ⟨c, old, if fixed then old else s.slewed c, s.weight c, fixed, false⟩

/-- R342: the codes that the channels of a set take. -/
def State.draws (s : State) (h : Half) (k : Nat) : List Draw :=
  settleDraws (budget (s.get .BUD_ILIM (4 * h.val + k))) ((h.chans.filter fun c => c.set == k).map s.drawOf)

theorem State.draws_chans (k : Nat) : (s.draws h k).map (·.chan) = h.chans.filter fun c => c.set == k := by
  rw [State.draws, settleDraws_chan, List.map_map]
  exact List.map_id _

/-- What a set shows of its budget and of its contexts follows the codes of its channels. -/
theorem State.updateSet_eq (s : State) (h : Half) (k : Nat) :
    ∃ v xs, s.updateSet h k = ((s.each (s.draws h k) State.setOut).put .BUD_USED (4 * h.val + k) v).each xs State.showCeil := ⟨_, _, rfl⟩

theorem Apart.showSet (a : Apart c s t) (i v : Nat) (xs : List Ctx) : Apart c s ((t.put .BUD_USED i v).each xs State.showCeil) :=
  State.each_kept xs (fun _ _ b => b.putOut rfl (by decide) _ _) (a.putOut rfl (by decide) _ _)

theorem Apart.updateSet {k : Nat} (other : c ∉ h.chans.filter fun c => c.set == k) : Apart c s (s.updateSet h k) := by
  obtain ⟨v, xs, eq⟩ := s.updateSet_eq h k
  rw [eq]
  refine (State.each_keeps (P := Apart c s) (fun t x own a => a.setOut fun e => other ?_) (Apart.refl c s)).showSet _ _ _
  rw [← s.draws_chans, ← e]
  exact List.mem_map_of_mem own

/-- A channel that is fixed or draws nothing takes the code it wants, and the rest of its set leaves it alone. -/
theorem Apart.updateSet_own (stays : (s.drawOf c).fixed = true ∨ (s.drawOf c).weight = 0) :
    ∃ t, Apart c s t ∧ Apart c (t.setOut (s.drawOf c)) (s.updateSet c.half c.set) := by
  obtain ⟨v, xs, eq⟩ := s.updateSet_eq c.half c.set
  have once : ((s.draws c.half c.set).map (·.chan)).Nodup := by
    rw [State.draws_chans]
    exact (Half.chans_nodup _).filter _
  have own : s.drawOf c ∈ s.draws c.half c.set :=
    mem_settleDraws (List.mem_map_of_mem (List.mem_filter.2 ⟨Chan.mem_chans c, by simp⟩)) stays
  obtain ⟨t, before, after⟩ := State.each_own (Apart.refl c) Apart.trans own once.of_map
    (fun t x own' ne => (Apart.refl c t).setOut fun e => ne (List.inj_on_of_nodup_map once own' own e)) s
  rw [eq]
  exact ⟨t, before, after.showSet _ _ _⟩

theorem State.setOut_out (x : Draw) : (s.setOut x).get .CD_OUT x.chan = x.want % 4096 := by
  simp only [State.setOut, State.putBool_eq]
  rw [State.get_put_of_ne _ (by simp), State.get_put_of_ne _ (by simp), State.get_put_of_ne _ (by simp), State.get_put_self]
  rfl

/-- The fields of a channel that show where its code stands. -/
def Fld.ofCode : Fld → Bool
  | .CD_OUT | .CD_HELD_ILIM | .CD_HELD_CEIL | .CD_SLEWING => true
  | _ => false

theorem State.setOut_get (x : Draw) {f : Fld} (hf : f.ofCode = false) (i : Nat) : (s.setOut x).get f i = s.get f i := by
  have ne {g : Fld} (hg : g.ofCode = true) : f ≠ g := fun e => by simp [e, hg] at hf
  simp only [State.setOut, State.putBool_eq]
  rw [State.get_put_of_ne _ (ne rfl), State.get_put_of_ne _ (ne rfl), State.get_put_of_ne _ (ne rfl), State.get_put_of_ne _ (ne rfl), State.modChan_get]

/-- R342: the four sets of a half. -/
def State.updateSets (s : State) (h : Half) : State := s.each [0, 1, 2, 3] fun s k => s.updateSet h k

theorem State.updateSets_own (stays : s.overrideOf c ≠ .none ∨ s.chanHeld c = true ∨ s.weight c = 0) :
    ∃ t, Apart c s t ∧ (s.updateSets c.half).get .CD_OUT c = (t.drawOf c).want % 4096
      ∧ ∀ f : Fld, f.info.blk = .CD → f.ofCode = false → (s.updateSets c.half).get f c = s.get f c := by
  have set : c.set ∈ [0, 1, 2, 3] := by
    have : c.set = c.val % 80 / 24 := rfl
    simp only [List.mem_cons, List.not_mem_nil, or_false]
    omega
  obtain ⟨t, before, after⟩ := State.each_own (u := fun s k => s.updateSet c.half k) (Apart.refl c) Apart.trans set (by decide)
    (fun t k _ ne => Apart.updateSet fun own => ne (beq_iff_eq.1 (List.mem_filter.1 own).2).symm) s
  have stays : (t.drawOf c).fixed = true ∨ (t.drawOf c).weight = 0 := by
    simpa [State.drawOf, before.overrideOf, before.chanHeld, before.weight, or_assoc] using stays
  obtain ⟨r, others, rest⟩ := Apart.updateSet_own stays
  refine ⟨t, before, ?_, fun f cd code => ?_⟩
  · rw [State.updateSets, after.own _ rfl, rest.own _ rfl]
    exact State.setOut_out (t.drawOf c)
  · rw [State.updateSets, after.own f cd, rest.own f cd, State.setOut_get _ code, others.own f cd, before.own f cd]

/-- R341: the overrides of a half; a pin that is not driven and a channel whose mode changes take none. -/
def State.overrides (s : State) (h : Half) : State := s.each h.chans fun s c => if s.isSet .CD_HIZ c || (s.chan c).changing then s else s.override c

theorem exec_cdacUpdate : exec (.cdacUpdate h) s = .next (settle ((s.overrides h).updateSets h)) := rfl

theorem State.overrides_own (driven : s.get .CD_HIZ c ≠ 1) (still : (s.chan c).changing = false) :
    ∃ t, Apart c s t ∧ Apart c (t.override c) (s.overrides c.half) := by
  obtain ⟨t, before, after⟩ := Apart.each_own (u := fun s c => if s.isSet .CD_HIZ c || (s.chan c).changing then s else s.override c) rfl
    (fun t d other => by
      split
      · exact Apart.refl c t
      · exact (Apart.refl c t).override other) s
  rw [if_neg (by simp [State.isSet, before.own .CD_HIZ rfl, before.chan, driven, still])] at after
  exact ⟨t, before, after⟩

theorem State.override_none (free : s.overrideOf c = .none) : s.override c = s.put .CD_FORCED0 c 0 := by rw [State.override, free]

/-- R341: a channel rests at its clear code. -/
def State.clears (s : State) (c : Chan) : State :=
  (((s.put .CD_OUT c (s.clearCode c)).put .CD_AT_CLEAR c 1).put .CD_FORCED0 c 0).modChan c fun x => { x with rest := true }

theorem State.override_clear (clear : s.overrideOf c = .clear) : s.override c = s.clears c := by rw [State.override, clear]; rfl

theorem State.clears_out : (s.clears c).get .CD_OUT c = s.clearCode c % 4096 := by
  rw [State.clears, State.modChan_get, State.get_put_of_ne _ (by simp), State.get_put_of_ne _ (by simp), State.get_put_self]
  rfl

theorem State.clears_atClear : (s.clears c).get .CD_AT_CLEAR c = 1 := by
  rw [State.clears, State.modChan_get, State.get_put_of_ne _ (by simp)]
  exact State.get_put_self ..

theorem State.clears_alike : SteeredAlike s (s.clears c) := ((((SteeredAlike.refl s).put rfl _ _).put rfl _ _).put rfl _ _).modChan _ _

theorem State.drawOf_free (free : s.overrideOf c = .none) (held : s.chanHeld c = false) (live : (s.chan c).rest = false) (plain : s.get .CD_SLEW_EN c = 0) :
    (s.drawOf c).want = s.clamped c := by
  simp [State.drawOf, free, held, State.slewed, live, plain]

theorem State.drawOf_overridden (forced : s.overrideOf c ≠ .none) : (s.drawOf c).want = s.get .CD_OUT c := by simp [State.drawOf, forced]

theorem cdacUpdate_moves (driven : s.get .CD_HIZ c = 0) (still : (s.chan c).changing = false) (free : s.overrideOf c = .none)
    (held : s.chanHeld c = false) (light : s.weight c = 0) (live : (s.chan c).rest = false) (plain : s.get .CD_SLEW_EN c = 0) :
    Does (.cdacUpdate c.half) s fun t => t.get .CD_OUT c = s.clamped c % 4096 ∧ t.get .CD_FORCED0 c = 0 ∧ t.get .CD_REQ c = s.get .CD_REQ c := by
  obtain ⟨r, before, after⟩ := State.overrides_own (by simp [driven]) still
  rw [State.override_none (before.overrideOf.trans free)] at after
  -- the override of the channel itself writes FORCED0 only
  have alike : SteeredAlike s (s.overrides c.half) := (before.toSteeredAlike.put rfl _ _).trans after.toSteeredAlike
  have own {f : Fld} (cd : f.info.blk = .CD) (ne : f ≠ .CD_FORCED0) : (s.overrides c.half).get f c = s.get f c := by
    rw [after.own f cd, State.get_put_of_ne _ ne, before.own f cd]
  have chan : (s.overrides c.half).chan c = s.chan c := after.chan.trans before.chan
  obtain ⟨t, later, out, kept⟩ := (s.overrides c.half).updateSets_own (c := c) (.inr (.inr (by rw [State.weight, chan]; exact light)))
  refine ⟨_, exec_cdacUpdate, ?_, ?_, ?_⟩
  · rw [out, State.drawOf_free, later.clamped, alike.clamped (own rfl (by simp))]
    · rw [later.overrideOf, alike.overrideOf, free]
    · rw [later.chanHeld, alike.chanHeld (own rfl (by simp)) chan, held]
    · rw [later.chan, chan, live]
    · rw [later.own _ rfl, own rfl (by simp), plain]
  · rw [kept _ rfl rfl, after.own _ rfl, State.get_put_self, Nat.zero_mod]
  · rw [kept _ rfl rfl, own rfl (by simp)]

theorem cdacUpdate_clears (driven : s.get .CD_HIZ c = 0) (still : (s.chan c).changing = false) (clear : s.overrideOf c = .clear) :
    Does (.cdacUpdate c.half) s fun t => t.get .CD_OUT c = s.clearCode c % 4096 ∧ t.get .CD_AT_CLEAR c = 1 := by
  obtain ⟨r, before, after⟩ := State.overrides_own (by simp [driven]) still
  rw [State.override_clear (before.overrideOf.trans clear)] at after
  have forced : (s.overrides c.half).overrideOf c ≠ .none := by
    rw [after.overrideOf, State.clears_alike.overrideOf, before.overrideOf, clear]
    simp
  obtain ⟨t, later, out, kept⟩ := State.updateSets_own (.inl forced)
  refine ⟨_, exec_cdacUpdate, ?_, ?_⟩
  · rw [out, State.drawOf_overridden (by rwa [later.overrideOf]), later.own .CD_OUT rfl, after.own .CD_OUT rfl,
      State.clears_out, before.clearCode, Nat.mod_mod]
  · rw [kept _ rfl rfl, after.own _ rfl, State.clears_atClear]

/-! ### Codes -/

/-- R311: a code above BIAS_CEIL on a laser-bias channel shows and counts. -/
def State.countsClamp (s : State) (c : Chan) (code : Nat) : State :=
  match s.laserOf c with
  | some l => if s.get .LS_BIAS_CEIL l < code then (s.flag .LS_CLAMPED l).incSat .LS_CLAMP_CNT l else s
  | none => s

/-- R341: the rest of a channel ends. -/
def State.endsRest (s : State) (c : Chan) : State := (s.put .CD_AT_CLEAR c 0).modChan c fun x => { x with rest := false }

/-- R341: the request of a code, before the channel's rest ends. -/
def State.asks (s : State) (c : Chan) (code : Nat) : State := (s.countsClamp c code).put .CD_REQ c code

theorem State.request_eq (code : Nat) : s.request c code =
    if (s.asks c code).overrideOf c = .none ∧ ¬((s.asks c code).chan c).changing then (s.asks c code).endsRest c else s.asks c code := rfl

theorem State.endsRest_get {f : Fld} (ne : f ≠ .CD_AT_CLEAR) (i : Nat) : (s.endsRest c).get f i = s.get f i := by
  rw [State.endsRest, State.modChan_get, State.get_put_of_ne _ ne]

theorem State.endsRest_atClear : (s.endsRest c).get .CD_AT_CLEAR c = 0 := by
  rw [State.endsRest, State.modChan_get, State.get_put_self, Nat.zero_mod]

theorem State.endsRest_chan : (s.endsRest c).chan c = { s.chan c with rest := false } := by rw [State.endsRest, State.chan_modChan_self, State.put_chan]

theorem State.endsRest_alike : SteeredAlike s (s.endsRest c) := ((SteeredAlike.refl s).put rfl _ _).modChan _ _

theorem State.endsRest_frame {W : List (Fld × Nat)} (a : Frame W s t) (own : (.CD_AT_CLEAR, c.val) ∈ W) : Frame W s (t.endsRest c) :=
  (a.put (.inl own) _).modChan _ _

theorem State.asks_req (v : Nat) : (s.asks c (v % 4096)).get .CD_REQ c = v % 4096 := by
  rw [State.asks, State.get_put_self]
  exact Nat.mod_mod _ _

theorem State.request_get (code : Nat) {f : Fld} (ne : f ≠ .CD_AT_CLEAR) (i : Nat) : (s.request c code).get f i = (s.asks c code).get f i := by
  rw [State.request_eq]
  split
  · exact State.endsRest_get ne i
  · rfl

theorem State.request_clamped (code : Nat) : (s.request c code).clamped c = (s.asks c code).clamped c := by
  rw [State.request_eq]
  split
  · exact State.endsRest_alike.clamped (State.endsRest_get (by simp) _)
  · rfl

theorem State.countsClamp_above {l : Lane} {code : Nat} (laser : s.laserOf c = some l) (high : s.get .LS_BIAS_CEIL l < code) :
    s.countsClamp c code = (s.flag .LS_CLAMPED l).incSat .LS_CLAMP_CNT l := by
  rw [State.countsClamp, laser]
  exact if_pos high

theorem State.countsClamp_get (code : Nat) {f : Fld} (flag : f ≠ .LS_CLAMPED) (count : f ≠ .LS_CLAMP_CNT) (i : Nat) :
    (s.countsClamp c code).get f i = s.get f i := by
  unfold State.countsClamp
  split
  · split
    · rw [State.incSat, State.get_put_of_ne _ count, State.flag, State.get_put_of_ne _ flag]
    · rfl
  · rfl

theorem State.asks_get (code : Nat) {f : Fld} (flag : f ≠ .LS_CLAMPED) (count : f ≠ .LS_CLAMP_CNT) (req : f ≠ .CD_REQ) (i : Nat) :
    (s.asks c code).get f i = s.get f i := by
  rw [State.asks, State.get_put_of_ne _ req, State.countsClamp_get code flag count]

theorem State.asks_clamped {l : Lane} (laser : s.laserOf c = some l) (v : Nat) :
    (s.asks c (v % 4096)).clamped c = min (v % 4096) (s.get .LS_BIAS_CEIL l) := by
  have same : (s.asks c (v % 4096)).laserOf c = some l := by
    simpa only [State.laserOf, State.laserCd, State.asks_get (f := .LS_LASER_CD) _ (by simp) (by simp) (by simp)] using laser
  rw [State.clamped, same]
  dsimp only
  rw [State.asks_req, State.asks_get _ (by simp) (by simp) (by simp)]

theorem State.asks_flag {l : Lane} {code : Nat} (laser : s.laserOf c = some l) (high : s.get .LS_BIAS_CEIL l < code) :
    (s.asks c code).get .LS_CLAMPED l = 1 := by
  rw [State.asks, State.get_put_of_ne _ (by simp), State.countsClamp_above laser high, State.incSat, State.get_put_of_ne _ (by simp)]
  exact State.get_put_self ..

theorem State.asks_count {l : Lane} {code : Nat} (laser : s.laserOf c = some l) (high : s.get .LS_BIAS_CEIL l < code) :
    (s.asks c code).get .LS_CLAMP_CNT l = min (s.get .LS_CLAMP_CNT l + 1) (2 ^ Fld.width .LS_CLAMP_CNT - 1) := by
  rw [State.asks, State.get_put_of_ne _ (by simp), State.countsClamp_above laser high, State.incSat_get, State.flag, State.get_put_of_ne _ (by simp)]

/-- R346: a host write of CODE that is not ignored. -/
theorem exec_cdacCodeWrite {v : W32} (run : s.running c.half = true) (up : s.answers c.half = true) (unlocked : s.chanLocked c = false)
    (undriven : s.driven c = false) :
    exec (.cdacCodeWrite c v) s = .next (settle ((s.put .CD_CODE c (v.toNat % 4096)).request c (v.toNat % 4096))) :=
  congrArg done ((State.hostWrite_of_running run up _).trans ((if_neg (by simp [unlocked])).trans (if_neg (by simp [undriven]))))

theorem cdacCodeWrite_requests {v : W32} (run : s.running c.half = true) (up : s.answers c.half = true) (plain : s.laserOf c = none)
    (undriven : s.driven c = false) (free : s.overrideOf c = .none) (still : (s.chan c).changing = false) : Does (.cdacCodeWrite c v) s fun t =>
      t.get .CD_CODE c = v.toNat % 4096 ∧ t.get .CD_REQ c = v.toNat % 4096 ∧ t.get .CD_AT_CLEAR c = 0 ∧ (t.chan c).rest = false
        ∧ Frame [(.CD_CODE, c), (.CD_REQ, c), (.CD_AT_CLEAR, c)] s t := by
  have coded : SteeredAlike s (s.put .CD_CODE c (v.toNat % 4096)) := (SteeredAlike.refl s).put rfl _ _
  have asks : (s.put .CD_CODE c (v.toNat % 4096)).asks c (v.toNat % 4096)
      = (s.put .CD_CODE c (v.toNat % 4096)).put .CD_REQ c (v.toNat % 4096) := by
    rw [State.asks, State.countsClamp, coded.laserOf, plain]
  refine ⟨((s.put .CD_CODE c (v.toNat % 4096)).asks c (v.toNat % 4096)).endsRest c, ?_, ?_, ?_, State.endsRest_atClear, by rw [State.endsRest_chan],
    State.endsRest_frame ?_ (by simp)⟩
  · rw [exec_cdacCodeWrite run up (by simp [State.chanLocked, plain]) undriven, State.request_eq, if_pos]
    rw [asks]
    exact ⟨(coded.put rfl _ _).overrideOf.trans free, by simp [still]⟩
  · rw [State.endsRest_get (by simp), asks, State.get_put_of_ne _ (by simp), State.get_put_self]
    exact Nat.mod_mod _ _
  · rw [State.endsRest_get (by simp), State.asks_req]
  · rw [asks]
    exact ((Frame.refl _ s).put (.inl (by simp)) _).put (.inl (by simp)) _

theorem cdacCodeWrite_clamps {v : W32} {l : Lane} (run : s.running c.half = true) (up : s.answers c.half = true) (laser : s.laserOf c = some l)
    (unlocked : s.get .LSH_LOCK c.half ≠ 1) (undriven : s.driven c = false) (high : s.get .LS_BIAS_CEIL l < v.toNat % 4096) :
    Does (.cdacCodeWrite c v) s fun t => t.get .CD_REQ c = v.toNat % 4096 ∧ t.get .LS_CLAMPED l = 1
      ∧ t.get .LS_CLAMP_CNT l = min (s.get .LS_CLAMP_CNT l + 1) (2 ^ Fld.width .LS_CLAMP_CNT - 1)
      ∧ t.clamped c = min (v.toNat % 4096) (s.get .LS_BIAS_CEIL l) := by
  have kept {f : Fld} (ne : f ≠ .CD_CODE) (i : Nat) : (s.put .CD_CODE c (v.toNat % 4096)).get f i = s.get f i := State.get_put_of_ne _ ne _ _ _
  have laser' : (s.put .CD_CODE c (v.toNat % 4096)).laserOf c = some l := ((SteeredAlike.refl s).put rfl _ _).laserOf.trans laser
  have high' : (s.put .CD_CODE c (v.toNat % 4096)).get .LS_BIAS_CEIL l < v.toNat % 4096 := by rwa [kept (by simp)]
  refine ⟨_, exec_cdacCodeWrite run up (by simp [State.chanLocked, State.isSet_of_ne unlocked]) undriven, ?_, ?_, ?_, ?_⟩
  · rw [State.request_get _ (by simp), State.asks_req]
  · rw [State.request_get _ (by simp), State.asks_flag laser' high']
  · rw [State.request_get _ (by simp), State.asks_count laser' high', kept (by simp)]
  · rw [State.request_clamped, State.asks_clamped laser', kept (by simp)]

theorem cdacCodeWrite_driven {v : W32} (run : s.running c.half = true) (up : s.answers c.half = true) (driven : s.driven c = true) :
    Answers (.cdacCodeWrite c v) s fun t => Frame [] s t := by
  have ignored (reason : Nat) : Frame [] s (settle (s.writeIgnored c.half (cdOff c 4) reason)) := ((Frame.refl _ s).raise _ _).settle
  refine ⟨_, congrArg done (State.hostWrite_of_running run up _), ?_⟩
  beta_reduce
  rw [State.codeWrite, if_pos driven]
  split
  · exact ignored _
  · exact ignored _

theorem cdacClrCodeWrite_sets {v : W32} (run : s.running c.half = true) (up : s.answers c.half = true) (plain : s.laserOf c = none) :
    Answers (.cdacClrCodeWrite c v) s fun t => t.get .CD_CLR_CODE c = v.toNat % 4096 ∧ Frame [(.CD_CLR_CODE, c)] s t := by
  refine ⟨settle (s.put .CD_CLR_CODE c (v.toNat % 4096)), congrArg done ((State.hostWrite_of_running run up _).trans (if_neg ?_)),
    (settle_get rfl _ _).trans ?_, ((Frame.refl _ s).put (.inl (by simp)) _).settle⟩
  · simp [State.chanLocked, plain]
  · rw [State.get_put_self]
    exact Nat.mod_mod _ _

/-! ### Modes -/

/-- R353: the word of a channel's mode and slew settings. -/
theorem slots_cdMode : ∀ c : Chan, slots c.half (cdOff c 0)
    = [⟨.CD_MODE, c, 30, 0⟩, ⟨.CD_SLEW_EN, c, 29, 0⟩, ⟨.CD_STEP, c, 20, 0⟩, ⟨.CD_TICK, c, 0, 0⟩] := by
  decide +kernel

theorem State.setMode_eq (v : Nat) : s.setWord c.half (slots c.half (cdOff c 0)) v
    = (((s.put .CD_MODE c (v / 2 ^ 30 % 2 ^ 2)).put .CD_SLEW_EN c (v / 2 ^ 29 % 2 ^ 1)).put .CD_STEP c (v / 2 ^ 20 % 2 ^ 8)).put .CD_TICK c
      (v / 2 ^ 0 % 2 ^ 16) := by
  rw [State.setWord_of_sets, slots_cdMode]
  · rfl
  · simp only [slots_cdMode, List.forall_mem_cons]
    exact ⟨⟨rfl, .inl rfl⟩, ⟨rfl, .inl rfl⟩, ⟨rfl, .inl rfl⟩, ⟨rfl, .inl rfl⟩, nofun⟩

/-- R345: a change of mode has begun. -/
def State.startsChange (s : State) (c : Chan) : State :=
  (((s.put .CD_OUT c (s.clearCode c)).put .CD_DISC c 1).put .CD_AT_CLEAR c 1).modChan c fun x => { x with changing := true }

theorem State.startsChange_chan : (s.startsChange c).chan c = { s.chan c with changing := true } := State.chan_modChan_self ..

theorem State.startsChange_disc : (s.startsChange c).get .CD_DISC c = 1 := by
  rw [State.startsChange, State.modChan_get, State.get_put_of_ne _ (by simp)]
  exact State.get_put_self ..

theorem State.startsChange_atClear : (s.startsChange c).get .CD_AT_CLEAR c = 1 := by
  rw [State.startsChange, State.modChan_get]
  exact State.get_put_self ..

theorem State.startsChange_out : (s.startsChange c).get .CD_OUT c = s.clearCode c % 4096 := by
  rw [State.startsChange, State.modChan_get, State.get_put_of_ne _ (by simp), State.get_put_of_ne _ (by simp)]
  exact State.get_put_self ..

/-- R346: a host write that changes MODE. -/
theorem State.modeWrite_changes {v : Nat} (unlocked : s.chanLocked c = false) (undriven : s.driven c = false)
    (range : (slots c.half (cdOff c 0)).all (fun x => x.fld.inRange (x.value v)) = true)
    (new : (s.setWord c.half (slots c.half (cdOff c 0)) v).get .CD_MODE c ≠ s.get .CD_MODE c) (still : (s.chan c).changing = false) :
    s.modeWrite c v = (s.setWord c.half (slots c.half (cdOff c 0)) v).startsChange c := by
  have good : ((slots c.half (cdOff c 0)).any fun x => !x.fld.inRange (x.value v)) = false := by
    rw [List.any_eq_false]
    intro x own
    simp [List.all_eq_true.1 range x own]
  have quiet : ((s.setWord c.half (slots c.half (cdOff c 0)) v).chan c).changing = false := by
    rw [State.setMode_eq]
    exact still
  rw [State.modeWrite, if_neg (by simp [unlocked]), if_neg (by simp [undriven]), if_neg (by rw [good]; simp)]
  exact (if_neg new).trans (if_neg (by simp [quiet]))

theorem cdacModeWrite_changes {v : W32} (run : s.running c.half = true) (up : s.answers c.half = true) (unlocked : s.chanLocked c = false)
    (undriven : s.driven c = false) (range : (slots c.half (cdOff c 0)).all (fun x => x.fld.inRange (x.value v.toNat)) = true)
    (new : (s.setWord c.half (slots c.half (cdOff c 0)) v.toNat).get .CD_MODE c ≠ s.get .CD_MODE c) (still : (s.chan c).changing = false) :
    Does (.cdacModeWrite c v) s fun t =>
      (t.chan c).changing = true ∧ t.get .CD_DISC c = 1 ∧ t.get .CD_AT_CLEAR c = 1 ∧ t.get .CD_OUT c = s.clearCode c % 4096 := by
  refine ⟨_, congrArg done ((State.hostWrite_of_running run up _).trans (State.modeWrite_changes unlocked undriven range new still)),
    by rw [State.startsChange_chan], State.startsChange_disc, State.startsChange_atClear, State.startsChange_out.trans (congrArg (· % 4096) ?_)⟩
  rw [State.setMode_eq]
  refine SteeredAlike.clearCode (((((SteeredAlike.refl s).put rfl _ _).put rfl _ _).put rfl _ _).put rfl _ _) ?_
  rw [State.get_put_of_ne _ (by simp), State.get_put_of_ne _ (by simp), State.get_put_of_ne _ (by simp), State.get_put_of_ne _ (by simp)]

/-- R345: the pin is connected again, in the mode written last. -/
def State.connects (s : State) (c : Chan) : State :=
  (s.put .CD_DISC c 0).modChan c fun x => { x with changing := false, mode := s.get .CD_MODE c, us := 0 }

theorem State.connects_chan : (s.connects c).chan c = { s.chan c with changing := false, mode := s.get .CD_MODE c, us := 0 } := State.chan_modChan_self ..

theorem cdacReconnect_connects (changing : (s.chan c).changing = true) (free : s.overrideOf c = .none) : Does (.cdacReconnect c) s fun t =>
    (t.chan c).changing = false ∧ (t.chan c).mode = s.get .CD_MODE c ∧ t.get .CD_DISC c = 0 ∧ t.get .CD_AT_CLEAR c = 0 ∧ (t.chan c).rest = false
      ∧ Frame [(.CD_DISC, c), (.CD_AT_CLEAR, c)] s t := by
  have free' : (s.connects c).overrideOf c = .none := (((SteeredAlike.refl s).put rfl _ _).modChan _ _).overrideOf.trans free
  refine ⟨(s.connects c).endsRest c, (if_neg (by simp [changing])).trans (congrArg done (if_pos free')), ?_⟩
  beta_reduce
  rw [State.endsRest_chan, State.connects_chan]
  refine ⟨rfl, rfl, ?_, State.endsRest_atClear, rfl, State.endsRest_frame (((Frame.refl _ s).put (.inl (by simp)) _).modChan _ _) (by simp)⟩
  rw [State.endsRest_get (by simp), State.connects, State.modChan_get, State.get_put_self, Nat.zero_mod]

/-! ### CLR# -/

theorem State.override_alike : SteeredAlike s (s.override c) := by
  unfold State.override
  split
  · exact (((SteeredAlike.refl s).put rfl _ _).put rfl _ _).modChan _ _
  · exact State.clears_alike
  · exact (SteeredAlike.refl s).put rfl _ _

theorem State.overrides_alike : SteeredAlike s (s.overrides h) :=
  State.each_kept (P := SteeredAlike s) _ (fun t d a => by
    split
    · exact a
    · exact a.trans State.override_alike) (SteeredAlike.refl s)

/-- R343: CLR# of the half is seen low. -/
def State.seesClear (s : State) (h : Half) : State :=
  let r := (s.put .CLRH_CLR_PIN h 1).incSat .CLRH_CLR_CNT h
  r.raise h { sev := 1, code := 0x0402, scope := 1, id := h, d0 := r.get .CLRH_CLR_CNT h }

theorem State.seesClear_pin : (s.seesClear h).get .CLRH_CLR_PIN h = 1 := by
  rw [State.seesClear, raise_get rfl, State.incSat, State.get_put_of_ne _ (by simp)]
  exact State.get_put_self ..

theorem State.seesClear_count : (s.seesClear h).get .CLRH_CLR_CNT h = min (s.get .CLRH_CLR_CNT h + 1) (2 ^ Fld.width .CLRH_CLR_CNT - 1) := by
  rw [State.seesClear, raise_get rfl, State.incSat_get, State.get_put_of_ne _ (by simp)]

theorem State.seesClear_get {f : Fld} (hf : f.follows = false) (pin : f ≠ .CLRH_CLR_PIN) (count : f ≠ .CLRH_CLR_CNT) (i : Nat) :
    (s.seesClear h).get f i = s.get f i := by
  rw [State.seesClear, raise_get hf, State.incSat, State.get_put_of_ne _ count, State.get_put_of_ne _ pin]

theorem State.raise_chans (k : Half) (e : Ev) : (s.raise k e).chans = s.chans :=
  KeptByEvents.raise (P := fun t => t.chans = s.chans) ⟨⟨fun _ _ _ p => p, fun _ p => p, fun _ _ p => p⟩, fun _ _ _ p => p, fun _ p => p⟩ k e rfl

theorem State.seesClear_chan : (s.seesClear h).chan c = s.chan c := by rw [State.chan, State.seesClear, State.raise_chans]; rfl

theorem exec_clrAssert (high : s.get .CLRH_CLR_PIN h ≠ 1) : exec (.clrAssert h) s = .next (settle ((s.seesClear h).overrides h)) := by
  refine (if_neg (by simp [State.isSet_of_ne high])).trans (congrArg done ?_)
  simp only [State.overrides, Bool.or_comm]
  rfl

theorem clrAssert_clears (high : s.get .CLRH_CLR_PIN h ≠ 1) : Does (.clrAssert h) s fun t =>
    t.get .CLRH_CLR_PIN h = 1 ∧ t.get .CLRH_CLR_CNT h = min (s.get .CLRH_CLR_CNT h + 1) (2 ^ Fld.width .CLRH_CLR_CNT - 1)
      ∧ ∀ c : Chan, c.half = h → (s.chan c).changing = false → s.get .CD_HIZ c ≠ 1 → s.laserOf c = none →
        t.get .CD_OUT c = s.get .CD_CLR_CODE c % 4096 := by
  refine ⟨_, exec_clrAssert high, (State.overrides_alike.get _ _ rfl).trans State.seesClear_pin,
    (State.overrides_alike.get _ _ rfl).trans State.seesClear_count, ?_⟩
  rintro c rfl still driven plain
  have plain' : (s.seesClear c.half).laserOf c = none := by
    simpa only [State.laserOf, State.laserCd, State.seesClear_get (f := .LS_LASER_CD) rfl (by simp) (by simp)] using plain
  have clear : (s.seesClear c.half).overrideOf c = .clear := by
    rw [State.overrideOf, plain']
    exact if_pos (by rw [State.isSet_of_eq State.seesClear_pin]; rfl)
  obtain ⟨t, before, after⟩ := State.overrides_own (s := s.seesClear c.half) (c := c) (by rwa [State.seesClear_get rfl (by simp) (by simp)])
    (by rw [State.seesClear_chan]; exact still)
  rw [after.own .CD_OUT rfl, State.override_clear (before.overrideOf.trans clear), State.clears_out, before.clearCode, State.clearCode, plain',
    State.seesClear_get rfl (by simp) (by simp)]
  rfl

theorem clrDeassert_lifts : Answers (.clrDeassert h) s fun t => t.get .CLRH_CLR_PIN h = 0 ∧ Frame [(.CLRH_CLR_PIN, h)] s t :=
  ⟨settle (s.put .CLRH_CLR_PIN h 0), rfl, by rw [settle_get rfl, State.get_put_self, Nat.zero_mod], ((Frame.refl _ s).put (.inl (by simp)) _).settle⟩

/-! ### VCTL -/

/-- R344: the pin of a channel is driven at its clear code. -/
def State.drives (s : State) (c : Chan) : State :=
  ((((s.put .CD_HIZ c 0).put .CD_OUT c (s.clearCode c)).put .CD_AT_CLEAR c 1).put .CD_DISC c 0).modChan c fun x =>
    { x with rest := true, mode := s.get .CD_MODE c, changing := false, us := 0 }

theorem Apart.drives {d : Chan} (a : Apart c s t) (other : d ≠ c) : Apart c s (t.drives d) :=
  ((((a.put rfl other _).put rfl other _).put rfl other _).put rfl other _).modChan other _

theorem State.drives_hiz : (s.drives c).get .CD_HIZ c = 0 := by
  rw [State.drives, State.modChan_get, State.get_put_of_ne _ (by simp), State.get_put_of_ne _ (by simp), State.get_put_of_ne _ (by simp),
    State.get_put_self, Nat.zero_mod]

theorem State.drives_out : (s.drives c).get .CD_OUT c = s.clearCode c % 4096 := by
  rw [State.drives, State.modChan_get, State.get_put_of_ne _ (by simp), State.get_put_of_ne _ (by simp)]
  exact State.get_put_self ..

theorem State.drives_atClear : (s.drives c).get .CD_AT_CLEAR c = 1 := by
  rw [State.drives, State.modChan_get, State.get_put_of_ne _ (by simp)]
  exact State.get_put_self ..

theorem State.driveChans_eq : s.driveChans h = s.each h.chans fun s c => if s.isSet .CD_HIZ c then s.drives c else s := rfl

theorem vctlValid_drives (floats : s.get .CD_HIZ c = 1) : Does (.vctlValid c.half) s fun t =>
    t.get .CD_HIZ c = 0 ∧ t.get .CD_OUT c = s.clearCode c % 4096 ∧ t.get .CD_AT_CLEAR c = 1 ∧ (t.chan c).rest = true := by
  obtain ⟨t, before, after⟩ := Apart.each_own (c := c) (u := fun s c => if s.isSet .CD_HIZ c then s.drives c else s) rfl
    (fun t d other => by
      split
      · exact (Apart.refl c t).drives other
      · exact Apart.refl c t) s
  rw [if_pos (State.isSet_of_eq ((before.own .CD_HIZ rfl).trans floats)), ← State.driveChans_eq] at after
  refine ⟨s.driveChans c.half, rfl, (after.own _ rfl).trans State.drives_hiz, ?_, (after.own _ rfl).trans State.drives_atClear, ?_⟩
  · rw [after.own .CD_OUT rfl, State.drives_out, before.clearCode]
  · rw [after.chan, State.drives, State.chan_modChan_self]

/-- R344: the pin of a channel is at high impedance. -/
def State.floats (s : State) (c : Chan) : State := (s.put .CD_HIZ c 1).modChan c fun x => { x with rest := true }

theorem State.floatChans_own : (s.floatChans c.half).get .CD_HIZ c = 1 ∧ ((s.floatChans c.half).chan c).rest = true := by
  obtain ⟨t, before, after⟩ := Apart.each_own (c := c) (u := State.floats) rfl
    (fun t d other => ((Apart.refl c t).put rfl other _).modChan other _) s
  have eq : s.floatChans c.half = s.each c.half.chans State.floats := rfl
  rw [eq, after.own .CD_HIZ rfl, after.chan, State.floats, State.chan_modChan_self, State.modChan_get]
  exact ⟨State.get_put_self .., rfl⟩

theorem State.floatChans_units : (s.floatChans h).halves = s.halves ∧ (s.floatChans h).porst = s.porst :=
  State.each_kept (P := fun t => t.halves = s.halves ∧ t.porst = s.porst) _ (fun _ _ p => p) ⟨rfl, rfl⟩

theorem State.endSlotsIn_chans (ls : List Lane) : (s.endSlotsIn h ls).chans = s.chans :=
  State.each_kept (P := fun t => t.chans = s.chans) _ (fun _ _ p => by
    split
    · exact p
    · exact p) rfl

theorem State.setCauses_chans (u : FUnit) (cs : List Cause) : (s.setCauses u cs).chans = s.chans := by cases u <;> rfl

theorem State.fenceIn_chans (u : FUnit) (k : Cause) : (s.fenceIn u k).chans = s.chans := by
  unfold State.fenceIn
  split
  · rfl
  · dsimp only
    rw [State.raise_chans, State.endSlotsIn_chans, State.setCauses_chans]

section
variable {g x : Group} {k : Cause}

/-- R39: a new fence of the group changes nothing but its causes, the injections and the counts of events. -/
theorem State.fenceIn_group_retains (new : k ∉ (s.group g).fences) :
    Retains Fld.ofSlots id id (s.modGroup g fun y => { y with fences := (s.group g).fences ++ [k] }) (s.fenceIn (.group g) k) := by
  unfold State.fenceIn
  rw [if_neg (show k ∉ s.causes (.group g) from new)]
  exact (State.endSlotsIn_retains _ _).raise Fld.ofSlots_of_counted _ _

theorem State.fenceIn_group_get {f : Fld} (hf : f.ofSlots = false) (i : Nat) : (s.fenceIn (.group g) k).get f i = s.get f i := by
  by_cases had : k ∈ (s.group g).fences
  · exact congrArg (State.get · f i) (if_pos had)
  · exact (State.fenceIn_group_retains had).get f i hf

/-- R39: a group that is fenced has the cause, and the other groups keep theirs. -/
theorem State.fenceIn_group_fences : k ∈ ((s.fenceIn (.group g) k).group x).fences ↔ x = g ∨ k ∈ (s.group x).fences := by
  by_cases had : k ∈ (s.group g).fences
  · rw [show s.fenceIn (.group g) k = s from if_pos had]
    exact ⟨.inr, fun h => h.elim (fun e => e ▸ had) id⟩
  · have fenced : (s.fenceIn (.group g) k).group x = _ := (State.fenceIn_group_retains had).group x
    rw [fenced, id, State.group_modGroup]
    split
    · next e => simp [e]
    · next ne => simp [ne]

end

theorem Group.mem_groups (g : Group) : g ∈ g.half.groups := by
  revert g
  decide

/-- R577: every group of a half is fenced for its supply. -/
def State.fencesIo (s : State) (h : Half) : State := s.each h.groups fun s g => s.fenceIn (.group g) .groupIo

theorem State.fencesIo_kept {f : Fld} (hf : f.ofSlots = false) (i : Nat) : (s.fencesIo h).get f i = s.get f i ∧ (s.fencesIo h).chans = s.chans :=
  State.each_kept (P := fun t => State.get t f i = s.get f i ∧ t.chans = s.chans) _
    (fun _ _ p => ⟨(State.fenceIn_group_get hf i).trans p.1, (State.fenceIn_chans _ _).trans p.2⟩) ⟨rfl, rfl⟩

theorem State.mem_fencesIo (g : Group) : Cause.groupIo ∈ ((s.fencesIo g.half).group g).fences :=
  State.each_establishes (P := fun t => Cause.groupIo ∈ (State.group t g).fences) (Group.mem_groups g)
    (fun _ => State.fenceIn_group_fences.2 (.inl rfl)) fun _ _ p => State.fenceIn_group_fences.2 (.inr p)

theorem vctlInvalid_floats (up : s.porst = false) (on : (s.half c.half).off = false) : Does (.vctlInvalid c.half) s fun t =>
    t.get .CD_HIZ c = 1 ∧ (t.chan c).rest = true ∧ ∀ g : Group, g.half = c.half → Cause.groupIo ∈ (t.group g).fences := by
  obtain ⟨halves, porst⟩ := s.floatChans_units (h := c.half)
  have live : ¬((s.floatChans c.half).porst = true ∨ ((s.floatChans c.half).half c.half).off = true) := by
    rw [State.half, halves, porst, ← State.half]
    simp [up, on]
  obtain ⟨floats, rests⟩ := s.floatChans_own (c := c)
  obtain ⟨hiz, chans⟩ := (s.floatChans c.half).fencesIo_kept (h := c.half) (f := .CD_HIZ) rfl c
  refine ⟨(s.floatChans c.half).fencesIo c.half, if_neg live, hiz.trans floats, ?_, fun g own => own ▸ State.mem_fencesIo g⟩
  rw [State.chan, chans]
  exact rests

end
end Sys2Proof.Machine

namespace Sys2Proof

open Machine

/-- Settles O34: codes, the update, CLR#, modes and VCTL of a channel, and the budget of a set, clause by clause. -/
theorem controlDac : Obligations.ControlDac := by
  unfold Obligations.ControlDac
  exact ⟨fun s c v => cdacCodeWrite_requests, fun s c v l => cdacCodeWrite_clamps, fun s c v => cdacCodeWrite_driven, fun s c v => cdacClrCodeWrite_sets,
    fun s c => cdacUpdate_moves, fun s c => cdacUpdate_clears, fun s h => clrAssert_clears, fun s h => clrDeassert_lifts,
    fun s c v => cdacModeWrite_changes, fun s c => cdacReconnect_connects, fun s c => vctlValid_drives, fun s c => vctlInvalid_floats,
    fun limit ds => drawSum_settleDraws, fun limit ds c out => by rwa [settleDraws_chan]⟩

end Sys2Proof
